-- ==== Sys2Proof/Word.lean ====
section
/-! DEFINITION. The words of the QN6448: bytes, 32-bit register words and 64-bit words. -/

namespace Sys2Proof

/-- A byte of the store or of a transfer. -/
abbrev Byte := BitVec 8

/-- A register word (all registers are 32 bits wide, R11). -/
abbrev Word := BitVec 32

/-- A 64-bit word: UIDs, times and AtomicOp operands. -/
abbrev DWord := BitVec 64

/-- Sparse bytes: frames, cells and images as (offset, byte) pairs; an unlisted byte is zero. -/
abbrev Bytes := List (Nat × Byte)

end Sys2Proof
end

