-- ==== Sys2Proof/Syntax.lean ====
section
/-! DEFINITION. The commands of the block: one constructor per row of the opcode table, with the operands the outside
supplies. The table gives no operand bits, so the operands are the model's own (notes/assumptions/2.md). -/

namespace Sys2Proof

/-- A coupler link (R47): 0 Fore A, 1 Fore B, 2 Aft A, 3 Aft B. -/
abbrev LinkIx := Fin 4

/-- A ring line. -/
inductive Line where
  | a | b
  deriving DecidableEq, Repr

/-- What a link status block carries (R57). -/
structure StatusBlock where
  state : Nat
  qualified : Bool
  uid16 : Nat
  deriving DecidableEq, Repr

/-- The receive errors of R60. -/
inductive RxError where
  | syncHeader | controlType | dataWhereIdle | lossOfSignal | uidChanged
  deriving DecidableEq, Repr

/-- One frame as it arrives at a receive lane (R75 to R80): its 6,240 bytes (unlisted bytes are zero), and what the lane
saw of it. -/
structure RxFrame where
  line : Line
  /-- the port it arrived on: Fore or Aft -/
  fore : Bool
  bytes : Bytes
  /-- truncated: ended early or held a control block (R77) -/
  truncated : Bool
  /-- the node's local time in ns at which the first data block arrived (R83) -/
  arrivalNs : Nat
  /-- the same moment on the lane's counter of UI of 320 ps (R122) -/
  arrivalUi : Nat
  deriving DecidableEq, Repr

/-- What the layout policy decides for a layout (R130, R139, R163, R195): the sync entries' hop indexes, and the rows of
the wafer and process-unit tables as (index, hop index, stream). -/
structure LayoutPlan where
  sync : List (Nat × Nat)
  wafers : List (Nat × Nat × Nat)
  units : List (Nat × Nat × Nat)
  /-- hop indexes whose claim table is neither cached nor delivered (R127) -/
  missing : List Nat
  policy : Nat
  deriving DecidableEq, Repr

/-- A twin record (R191): its items, and whether its check is right. -/
structure TwinRecord where
  tick : Nat
  seq : Nat
  uid : DWord
  regionCheck : Nat
  /-- host audio channels and AES67 channels: (channel, sample) -/
  host : List (Nat × Nat)
  aes : List (Nat × Nat)
  /-- staged cells -/
  cells : List Bytes
  /-- commanded changes: effective tick, and the command's request bytes -/
  changes : List (Nat × List Nat)
  good : Bool
  deriving DecidableEq, Repr

/-- The AtomicOps of PCIe (R322). -/
inductive AtomKind where
  | fetchAdd | swap | cas
  deriving DecidableEq, Repr

/-- An AtomicOp: where, what, its width in bytes (4, 8 or 16), the operand and, for CAS, the compare value. -/
structure AtomicOp where
  off : Nat
  kind : AtomKind
  width : Nat
  operand : Nat
  compare : Nat
  deriving DecidableEq, Repr

/-- A mailbox request as it stands in its ring entry (R360): channel, entry, and the header fields; `rsv` is the number in
the reserved bytes 12 to 15. A channel 3 request carries the position and sub-position that sent it. -/
structure Request where
  ch : Fin 4
  idx : Nat
  tag : Nat
  len : Nat
  flags : Nat
  cfgver : Nat
  rsv : Nat
  data : List Nat
  pos : Nat
  sub : Nat
  deriving DecidableEq, Repr

/-- A frame as it arrives at an Ethernet port (R418): from the destination address on, without FCS; whether the FCS is right,
whether it holds a PCS code error, whether the port's receive buffers are full, and the time since the tick boundary. -/
structure EthRx where
  bytes : List Nat
  fcsOk : Bool
  codeErr : Bool
  bufFull : Bool
  phaseNs : Nat
  deriving DecidableEq, Repr

/-- A CAN frame as the controller receives it (R457, R467): identifier, 29-bit format, FD, BRS, ESI, data; its SOF in ns of
CAN time since the cycle start, and its end in us since the cycle start. -/
structure CanRx where
  id : Nat
  ext : Bool
  fd : Bool
  brs : Bool
  esi : Bool
  data : List Nat
  sofNs : Nat
  endUs : Nat
  deriving DecidableEq, Repr

/-- A port of the node: 0 to 3 the coupler links, 4 STACK_UP, 5 STACK_DOWN (R482: stack links train as coupler links). -/
abbrev PortIx := Fin 6

/-- A member record as the head receives it (R486): sub-position, tick f, alarm bits, sequence number, the member's owned
wafers and process units by stream identifier, its staged cells, whether it reports a hold (R544), whether it is complete with a
right CRC, and the time of its arrival since the boundary of tick f − 1. -/
structure MemberRecord where
  sub : Nat
  tick : Nat
  alarm : Nat
  seq : Nat
  wafers : List (Nat × List Nat)
  units : List (Nat × List Nat)
  cells : List Bytes
  hold : Bool
  /-- the member is LOCKED (R493) -/
  locked : Bool
  good : Bool
  phaseNs : Nat
  deriving DecidableEq, Repr

/-- A ring image as a member receives it (R490): tick, TOPO, LAYOUT, the head's position, the merged segments as they stand in
a frame, the sleep tick where the head holds an agreement (R552), whether the audio part is intact, and the time of its arrival since the boundary. -/
structure RingImage where
  tick : Nat
  topo : Nat
  layout : Nat
  position : Nat
  bytes : Bytes
  sleep : Option Nat
  audioOk : Bool
  phaseNs : Nat
  deriving DecidableEq, Repr

/-- The strap balls as sampled (R528, R634): an open ball reads 0. -/
structure Straps where
  carEnd : Bool
  bootSrc : Nat
  hostSpi : Bool
  stackRole : Nat
  i2cAdr : Nat
  deriving DecidableEq, Repr

/-- What the read-back of a record shows (R591, R595, R596): right; wrong in the sector, then right in the next; wrong in
two sectors in a row; the durable memory does not answer. -/
inductive ReadBack where
  | good | retired | twice | noAnswer
  deriving DecidableEq, Repr

/-- How a wake step fails (R514, table "Always-on fault causes"): its timeout passes, a rail that was ready loses power good,
a PLL that was ready loses lock, or store training fails. -/
inductive StepFail where
  | timeout | railLost | pllLost | training
  deriving DecidableEq, Repr

/-- What meets the node in the tick that ends, and what it measures (R22, R30, R39): samples and results that the spec leaves to
the world outside the block's rules. -/
structure TickIn where
  /-- per TDM input port that received a frame: the slots' raw words -/
  tdm : List (Nat × List Nat)
  /-- running output ports whose FSYNC read-back did not match (R220) -/
  fsyncBad : List Nat
  /-- per microphone: raw sample, and whether all its bits were equal (R224, R225) -/
  mics : List (Nat × Nat × Bool)
  /-- cycles used per core -/
  cycles : List Nat
  /-- per overrunning core: the place, in the core's schedule, of the first job that did not complete (R39) -/
  late : List (Nat × Nat)
  /-- per echo canceller whose block ended: ERLE in 0.5 dB, and double talk (R262) -/
  aec : List (Nat × Nat × Bool)
  /-- per owned process unit, by stream identifier: the 15 bytes of PDATA that the application stages (R88) -/
  pdata : List (Nat × List Nat)
  /-- the write staging was complete at the boundary, and its margin (R93) -/
  staged : Bool
  marginNs : Nat
  /-- node time in ns and count of UI at which the node launches, where it launches (R79, R122) -/
  launchNs : Nat
  launchUi : Nat
  /-- measured phase of the media clock, as SYNC.MCLK_STAT.PHASE_ERR gives it -/
  phaseErr : Nat
  deriving DecidableEq, Repr

/-- The commands, operations and events of the node: one constructor per row of the opcode table. -/
inductive Instr where
  /-- TICK_BOUNDARY (R22). Train time reaches a whole multiple of 1/48,000 s; the tick sequence number advances and all per-tick work is scheduled. -/
  | tickBoundary (t : TickIn)
  /-- LOCKSTEP_MISMATCH (R17). Decik's two cores disagree; Decik alone is reset while the data path runs on. -/
  | lockstepMismatch
  /-- WATCHDOG_EXPIRY (R17). Decik fails to service its watchdog for 100 ms; Decik alone is reset. -/
  | watchdogExpiry
  /-- FIRMWARE_FAULT (R16). Decik traps on an unrecoverable fault; FW_ALIVE_LOST is raised and FAULT_N asserted. -/
  | firmwareFault
  /-- DECIK_RESTART_DONE (R17). Decik is running again after re-verifying its image; open requests are answered ABORTED and SUMMARY_READY follows. -/
  | decikRestartDone
  /-- SIGNAL_DETECTED (R59). Signal present for 10 µs moves a link from DETECT to TRAIN. -/
  | signalDetected (n : PortIx)
  /-- BLOCK_LOCK_ACQUIRED (R59). 64 consecutive valid sync headers after adaptation move a link to LOCK. -/
  | blockLockAcquired (n : PortIx) (ptUi loopUi : Nat)
  /-- TRAIN_TIMEOUT (R59). No block lock within 5 ms returns a link to DETECT and counts a qualification restart. -/
  | trainTimeout (n : PortIx)
  /-- LOSS_OF_SIGNAL (R59). Loss of signal for 1 µs in TRAIN or LOCK returns the link to DETECT. -/
  | lossOfSignal (n : PortIx)
  /-- BLOCK_LOCK_LOST (R59). 16 invalid sync headers within 64 blocks in LOCK return the link to TRAIN. -/
  | blockLockLost (n : PortIx)
  /-- QUAL_TIMER_EXPIRY (R59). The qualification timer reaches QUAL_MS; it is held and the own qualified flag is set. -/
  | qualTimerExpiry (n : LinkIx)
  /-- QUAL_RECEIVE_ERROR (R60). A receive error during QUALIFYING restarts qualification and clears the own qualified flag. -/
  | qualReceiveError (n : PortIx) (e : RxError)
  /-- LINK_LOSS (R61). A QUALIFIED or IN_RING link is lost; LINK_EVT.LOST is set, loopback closure is scheduled and TOPO_CHG raised. -/
  | linkLoss (n : PortIx)
  /-- STATUS_BLOCK_RECEIVE (R57). A link status block from the partner is taken and its state, flag and UID bits are evaluated. -/
  | statusBlockReceive (n : LinkIx) (b : StatusBlock)
  /-- STATUS_BLOCK_MISSING (R61). No status block for 2 ticks in IN_RING or 256 blocks in QUALIFIED ends the link. -/
  | statusBlockMissing (n : LinkIx)
  /-- LOOPBACK_CLOSE (R65). After a link loss the loopback closes at the first idle gap of the line, at a block boundary. -/
  | loopbackClose (n : LinkIx)
  /-- TXEQ_APPLY (R56). A new transmit swing or de-emphasis value takes effect at the next idle gap. -/
  | txeqApply (n : PortIx)
  /-- PRBS_CHECKER_LOCK (R72). The PRBS checker synchronises to the incoming sequence and sets CHK_LOCK. -/
  | prbsCheckerLock (n : PortIx)
  /-- PRBS_CHECKER_RESYNC (R72). 32 errored bits within 64 clear CHK_LOCK and the checker resynchronises. -/
  | prbsCheckerResync (n : PortIx)
  /-- FRAME_RECEIVED (R77). A cycle, INAUG, HANDSHAKE or SLEEP frame passes a node on a line; it is forwarded, written on the out pass and read. -/
  | frameReceived (f : RxFrame)
  /-- LINE_MERGE (R96). The reader merges line A and B copies of each region of frame f and commits the result by boundary f + 2. -/
  | lineMerge (tseq : Nat)
  /-- LINE_DEGRADED_CLEAR (R98). 48 consecutive ticks without failure clear the degraded state of a line. -/
  | lineDegradedClear (l : Line)
  /-- LINE_SHORT_CLEAR (R187). 48 ticks of equal reaches clear the short state. -/
  | lineShortClear
  /-- RELAY_LATE_CHECK (R101). A deep first-arm reader verifies provisionally accepted relayed wafers when the check entry arrives after the boundary. -/
  | relayLateCheck (l : Line) (tseq : Nat)
  /-- CELL_STAGE (R105). A cell is staged separately on each line's queue with a new CSEQ and, if encrypted, a new NONCE_CTR. -/
  | cellStage (kind dstPos dstSub : Nat) (frag : Nat) (last : Bool) (msgId : Nat) (encrypt : Bool) (payload : List Nat)
  /-- CELL_EXPIRE (R105). A staged cell not placed on a line within 16 ticks leaves that queue and counts EXPIRED. -/
  | cellExpire (l : Line)
  /-- CELL_RECEIVE (R106). A reader checks a cell's CCHK, state, TOPO, destination and tag, discards duplicates and reassembles. -/
  | cellReceive (cell : Bytes)
  /-- REASM_TIMEOUT (R107). A partial message with a fragment missing for 16 ticks is discarded and REASM counted. -/
  | reasmTimeout (srcPos srcSub msgId : Nat)
  /-- HANDSHAKE_RECEIVE (R114). A HANDSHAKE frame is checked and the partner's state decides extension, merge, race or nothing. -/
  | handshakeReceive (n : LinkIx) (b : Bytes) (arrivalNs : Nat)
  /-- INAUG_SETTLE_END (R115). The settle condition holds; the master freezes the count set, sets NEW_TOPO and launches COUNT frames. -/
  | inaugSettleEnd
  /-- COUNT_TIMEOUT (R120). 8 ticks after the first COUNT frame the master proceeds with agreed lines or abandons if none agreed. -/
  | countTimeout
  /-- CLAIM_PAIR_LAUNCH (R125). The master launches a pair of CLAIM frames 48 ticks after agreement and repeats every 8 ticks while slots are missing. -/
  | claimPairLaunch
  /-- CLAIM_WINDOW_END (R125). All counted slots are intact or 144 ticks passed; the master verifies tags and requests missing claim tables. -/
  | claimWindowEnd
  /-- LAYOUT_COMPUTE_DONE (R130). The layout image is ready and the master sends it in 20 LAYOUT cells. -/
  | layoutComputeDone (plan : LayoutPlan)
  /-- COMPUTE_TIMEOUT (R130). The layout computation exceeds 10 ms and the master abandons the inauguration. -/
  | computeTimeout
  /-- LAYOUT_FRAGMENT_RESEND (R131). A LAYOUT fragment unacknowledged 16 ticks after sending is sent again. -/
  | layoutFragmentResend (frag : Nat)
  /-- DISTRIBUTE_END (R131). Every admitted node has acknowledged or 96 ticks passed; the master announces switch tick s. -/
  | distributeEnd
  /-- INAUG_BACKOFF_EXPIRY (R156). After 3 abandons the 100 ms wait before a further start ends. -/
  | inaugBackoffExpiry
  /-- LAYOUT_SWITCH (R133). At switch tick s nodes apply the new layout, count-set links go IN_RING and loopbacks open. -/
  | layoutSwitch
  /-- LAYOUT_SAVE (R138). Within 100 ms of the switch each node saves layout, TOPO and epoch as a two-copy durable record. -/
  | layoutSave
  /-- JOIN_DISCARD (R157). A joining node with no accepted frame for 8 ticks discards adopted state and returns to FREE. -/
  | joinDiscard
  /-- FORMING_WAIT_END (R140). A forming candidate's wait of (16 - RANK) × 4 ticks ends and it launches COUNT frames. -/
  | formingWaitEnd
  /-- FAST_SHRINK_APPLY (R145). At shrink tick t + 6 every node uses NEW_TOPO and ignores departed positions. -/
  | fastShrinkApply
  /-- MERGE_MEASURE_DONE (R150). The winner has averaged 96 HELLO exchanges and sends PLAN with MERGE_TSEQ and STEP_NS. -/
  | mergeMeasureDone (lead : Nat)
  /-- MERGE_STEP (R151). At MERGE_TSEQ losing-island nodes step node time, renumber ticks and mute ring outputs for 8 ticks. -/
  | mergeStep
  /-- MERGE_MUTE_END (R253). After 8 ticks ring-input contributions rise again over 48 ticks. -/
  | mergeMuteEnd
  /-- MERGE_TAG_REFUSE (R149). A partner's tag failing for 10 ms refuses the merge and records MERGE_FAILED. -/
  | mergeTagRefuse (n : LinkIx)
  /-- MERGE_PHASE_TIMEOUT (R153). A merge phase past its maximum, or an ABORT, ends the attempt without effect. -/
  | mergePhaseTimeout
  /-- MERGE_RETRY (R153). A second merge attempt starts 100 ms after a failed one. -/
  | mergeRetry
  /-- ROUND_END (R167). An averaging round of 48 ticks ends; the node sorts, discards and averages entry deviations. -/
  | roundEnd
  /-- ACQUIRE_STEP (R173). In ACQUIRING a round result beyond 2,000 ns steps node time at the next boundary. -/
  | acquireStep
  /-- SYNC_LOCK (R174). The lock count reaches 48; the node enters LOCKED, raises SYNC_LOCK and resumes writing. -/
  | syncLock
  /-- HOLDOVER_EXPIRE (R175). HOLD_ROUNDS rounds without entries send the node to LOST. -/
  | holdoverExpire
  /-- MCLK_UNLOCK (R257). The media-clock PLL loses lock and AUD.PORT_EVT.MCLK_UNLOCK is set. -/
  | mclkUnlock
  /-- TWIN_RECORD_RECEIVE (R191). A twin takes its partner's record and compares region checks for divergence. -/
  | twinRecordReceive (r : TwinRecord)
  /-- TWIN_RESYNC_RESUME (R193). The follower resumes writing at the tick named by the lead. -/
  | twinResyncResume
  /-- TWIN_PARTNER_LOSS (R194). No valid record for 2 ticks or both pairs lost makes the surviving twin sole. -/
  | twinPartnerLoss (pairsLost : Bool)
  /-- TWIN_PAIR_FAIL (R194). One twin-link pair fails with both twins alive; the mirror or records stop as the table gives. -/
  | twinPairFail (pair : Fin 2)
  /-- RING_HB_LOST (R197). No accepted frame of the followed master in 8 ticks; the heartbeat silence is classified. -/
  | ringHbLost
  /-- CAN_HB_LOST (R197). No master CAN heartbeat for 30 ms; the silence is classified. -/
  | canHbLost
  /-- COLD_TAKEOVER_LAUNCH (R200). The designated standby launches NORMAL frames from saved layout with a later epoch. -/
  | coldTakeoverLaunch (us10 : Nat)
  /-- RESERVE_TAKEOVER (R199). A reserve candidate with no new master's frame 40 ms after classification takes over. -/
  | reserveTakeover (us10 : Nat)
  /-- TDM_PORT_ENABLE (R219). Writing EN 0 to 1 schedules the port to start at the second following boundary. -/
  | tdmPortEnable (n : Fin 8)
  /-- TDM_PORT_START (R219). The enabled port starts driving frames at the second boundary after the write. -/
  | tdmPortStart (n : Fin 8)
  /-- TDM_PORT_DISABLE (R219). Writing EN 1 to 0 stops the port at the end of the frame in progress. -/
  | tdmPortDisable (n : Fin 8)
  /-- HDMA_READ_COMPLETE (R227). A playback read completion arrives; in time it supplies the tick, late it is discarded and counted. -/
  | hdmaReadComplete (words : List Nat) (phaseNs : Nat)
  /-- TIMED_CHANGE_APPLY (R394). A commanded change takes effect at its effective tick, starting ramps from the applied gain. -/
  | timedChangeApply
  /-- STALE_FADE_END (R254). A stale run completes its 240-tick fade; STALE_EVT is set and AUD_STALE raised. -/
  | staleFadeEnd (place : Fin 25)
  /-- AEC_DIVERGE (R262). 200 blocks of excess output power reset the canceller's taps and raise AUD_AEC_DIVERGE. -/
  | aecDiverge (e : Fin 8)
  /-- HOWL_DETECT (R264). A sustained narrowband peak for 50 ms places a notch on the microphone. -/
  | howlDetect (m : Fin 16) (freq : Nat)
  /-- NOTCH_DEEPEN (R264). A persisting peak deepens its notch by 3 dB per further 50 ms, to -18 dB. -/
  | notchDeepen (m : Fin 16) (freq : Nat)
  /-- NOTCH_DECAY (R264). A notch not re-triggered for 60 s rises by 3 dB every 10 s and is removed. -/
  | notchDecay (m : Fin 16) (freq : Nat)
  /-- CALL_FB_WAIT (R267). No fresh far sample for 9,600 ticks with fallback allowed requests a CAN channel. -/
  | callFbWait (i : Fin 8)
  /-- CALL_RING_RETURN (R267). A far stream fresh for 48 ticks in FB_WAIT withdraws the request. -/
  | callRingReturn (i : Fin 8)
  /-- CALL_CAN_RETURN (R267). A far stream fresh for 48,000 ticks in CAN_PATH moves the call back to the ring. -/
  | callCanReturn (i : Fin 8)
  /-- NOISE_FRAME_END (R274). A 10 ms noise-analysis frame ends and is counted as noise or not. -/
  | noiseFrameEnd (z : Fin 16) (level : Option Nat)
  /-- NF_FALLBACK (R276). No noise frame for 300 s moves the gain to the zone's fallback. -/
  | nfFallback (z : Fin 16)
  /-- PMON_WINDOW_END (R277). A 1 s path-monitor window ends and, if valid, reports delay and gain. -/
  | pmonWindowEnd (z : Fin 16) (windows : List (Nat × Nat × Int))
  /-- PMON_AGE_OUT (R279). No valid window for 24 h returns the verdict to UNKNOWN. -/
  | pmonAgeOut (z : Fin 16)
  /-- STIPA_PHASE_END (R281). A STIPA noise or signal phase ends and the run proceeds or completes. -/
  | stipaPhaseEnd (sti : Nat) (lowSnr interrupted micFault : Bool) (ti : List Nat) (signal noise : Nat)
  /-- CLIP_DELETE_COMPLETE (R283). A pending delete completes when the last voice playing the clip ends. -/
  | clipDeleteComplete (id : Nat)
  /-- VOICE_START_TICK (R285). A voice produces its first 48 kHz sample at its start tick. -/
  | voiceStartTick (v : Fin 32)
  /-- VOICE_END (R287). A voice ends, stops or fails and sets PLAY_EVT or PLAY_ERR. -/
  | voiceEnd (v : Fin 32) (fault : Bool)
  /-- REC_UNIT_COMPLETE (R288). A recorder channel fills a 4 KiB unit, which is encrypted and written with its index entry. -/
  | recUnitComplete (channel : Fin 16) (tick stale overrun inactive : Nat) (data : List Nat)
  /-- STORE_CORRECTABLE_ERROR (R302). A read finds a correctable error; the word is corrected, counted and scheduled for write-back. -/
  | storeCorrectableError (offset initiator syndrome : Nat)
  /-- CE_WRITEBACK (R302). The corrected word is written back within 10 µs. -/
  | ceWriteback (offset : Nat)
  /-- STORE_UNCORRECTABLE_ERROR (R303). A read finds an uncorrectable error; the line is poisoned and the error logged. -/
  | storeUncorrectableError (offset initiator : Nat) (affected : List Nat)
  /-- SCRUB_PASS_END (R305). A scrub pass completes and sets CE_THRESH for banks above the threshold. -/
  | scrubPassEnd
  /-- BANK_INIT_DONE (R306). The initialisation engine finishes writing a bank, which becomes READY. -/
  | bankInitDone (b : Fin 16)
  /-- WAKE_CANARY_CHECK (R314). At store ready the canaries of retained banks are checked and failing banks lost. -/
  | wakeCanaryCheck (decayed us : Nat)
  /-- EXTENT_CHECK_DONE (R314). A bank's extent check completes; it becomes PROVISIONAL or lost. -/
  | extentCheckDone (b : Fin 16) (crc time100us : Nat)
  /-- WAKE_SCRUB_BANK_DONE (R314). The wake scrub of a PROVISIONAL bank completes and the bank becomes READY. -/
  | wakeScrubBankDone (b : Fin 16)
  /-- RC_FIELD_READ (R9). A read of a register with an RC field returns it and clears the field. -/
  | rcFieldRead (addr n : Nat) (phaseNs : Fin 20854)
  /-- REGISTER_WRITE (R9). A write to a register without a row of its own, under the access codes and R10 to R12. -/
  | registerWrite (addr : Nat) (enables : Fin 16) (w : Word)
  /-- TICK_SEQ_READ (R46). A read of GLB.TICK_SEQ captures GLB.TICK_PHASE. -/
  | tickSeqRead (phaseNs : Fin 20854)
  /-- SYNC_TIME_LO_READ (R185). A read of SYNC.TIME_LO captures SYNC.TIME_HI. -/
  | syncTimeLoRead (phaseNs : Fin 20854)
  /-- PTP_TIME_LO_READ (R449). A read of PTP.TIME_LO captures PTP.TIME_HI. -/
  | ptpTimeLoRead (phaseNs : Fin 20854)
  /-- RTC_LO_READ (R523). A read of PWR.RTC_LO captures PWR.RTC_HI. -/
  | rtcLoRead (phaseNs : Fin 20854)
  /-- TSQ_STAT_READ (R439). A read of ETHn.TSQ_STAT returns and clears LOST and clears TSQ_FIRST.VALID. -/
  | tsqStatRead (port : Fin 2)
  /-- TWIN_BAR_READ (R347). A read of BRG.TWINn_BAR waits for the window's posted writes and returns the barrier result. -/
  | twinBarRead (win : Fin 16)
  /-- SEM_READ (R352). A read of BRG.SEMs acquires or renews a semaphore for local software. -/
  | semRead (sem : Fin 32)
  /-- SEM_RELEASE_WRITE (R352). Writing REL of BRG.SEMs releases a locally held semaphore. -/
  | semReleaseWrite (sem : Fin 32)
  /-- LINK_DISABLE_WRITE (R73). Setting LINK_CTRL.DISABLE holds a link in DISABLED, a link loss if it was QUALIFIED or IN_RING. -/
  | linkDisableWrite (n : LinkIx) (on : Bool)
  /-- LINK_RETRAIN_WRITE (R73). Writing LINK_CTRL.RETRAIN sends a link to DETECT. -/
  | linkRetrainWrite (n : LinkIx)
  /-- LANE_TEST_MODE_WRITE (R71). A write of LTEST MODE starts or stops a lane test or is refused while locked. -/
  | laneTestModeWrite (n : PortIx) (mode : Fin 4)
  /-- PRBS_INJECT_WRITE (R72). Writing INJECT inverts one transmitted PRBS bit. -/
  | prbsInjectWrite (n : PortIx)
  /-- ELANE_MODE_WRITE (R608). A write of TST.ELANEn.MODE starts or stops an Ethernet lane test in TEST mode. -/
  | elaneModeWrite (port : Fin 2) (mode : Fin 4) (inject : Bool)
  /-- RANK_WRITE (R143). A write of INAUG_CFG.RANK sets the candidate rank; writing 0 ends DUP_HOLD. -/
  | rankWrite (rank : Fin 16)
  /-- STORE_INIT_START (R318). Writing INIT_CTRL.START initialises a DOWN or LOST bank. -/
  | storeInitStart (mask : Nat)
  /-- BOOT_GO (R533). Writing BOOT_CTRL.GO in WAIT_HOST starts verification of a downloaded bundle. -/
  | bootGo (sizeKib : Fin 16384)
  /-- KLOAD_WRITE (R569). Decik writes SEC.KLOAD to unwrap a slot key through the key register into an engine. -/
  | kloadWrite (slot : Fin 16) (engine : Fin 4) (previous : Bool)
  /-- PERF_VOLT_WRITE (R509). A write of VOLT_PT starts a voltage change or is refused for order. -/
  | perfVoltWrite (pt : Fin 3)
  /-- PERF_FREQ_WRITE (R509). A write of FREQ_PT schedules a frequency change or is refused for order. -/
  | perfFreqWrite (pt : Fin 3)
  /-- VOLT_SETTLED (R510). The rail settles at the new voltage point and VOLT_READY reads 1. -/
  | voltSettled
  /-- FREQ_CHANGE_APPLY (R510). A new frequency point takes effect at the next tick boundary. -/
  | freqChangeApply
  /-- PTP_OFS_HI_WRITE (R182). Writing SYNC.PTP_OFS_HI makes the 64-bit PTP offset take effect. -/
  | ptpOfsHiWrite (w : Word)
  /-- RTC_ALM_HI_WRITE (R513). Writing PWR.RTC_ALM_HI makes the 64-bit alarm time take effect. -/
  | rtcAlmHiWrite (hi : Nat)
  /-- HOST_VOTE_WRITE (R500). A write of PWR.HOST_VOTE changes the host's domain votes. -/
  | hostVoteWrite (votes : Fin 2048)
  /-- TWIN_WINDOW_ENABLE (R337). Writing EN of BRG.TWINn_CFG enables a train window, or is ignored when POS is out of range. -/
  | twinWindowEnable (win : Fin 16) (on : Bool)
  /-- HTX_WR_WRITE (R422). The host advances ETHn.HTX_IDX.WR, queuing slots for transmission. -/
  | htxWrWrite (port : Fin 2) (wr : Nat)
  /-- CAN_TX_REQ (R458). Writing OBJk_STAT.TX_REQ queues the object's frame. -/
  | canTxReq (obj : Fin 128)
  /-- CAN_OBJ_HOLD (R457). Writing HOLD holds a receive object's current copy. -/
  | canObjHold (obj : Fin 128)
  /-- CAN_OBJ_RELEASE (R457). Writing RELEASE releases the current copy and promotes the shadow. -/
  | canObjRelease (obj : Fin 128)
  /-- MBX_DOORBELL_WRITE (R359). A write to CHn_DB signals Decik to look at the channel. -/
  | mbxDoorbellWrite (ch : Fin 4)
  /-- MBX_REQ_HEAD_WRITE (R359). The host advances REQ_HEAD, or the write is ignored and counted if it overfills. -/
  | mbxReqHeadWrite (ch : Fin 4) (head : Nat)
  /-- MBX_RSP_TAIL_WRITE (R359). The host frees responses by advancing RSP_TAIL, or the write is ignored if it passes RSP_HEAD. -/
  | mbxRspTailWrite (ch : Fin 4) (tail : Nat)
  /-- MBX_CHANNEL_RESET (R368). Writing CHn_STAT.RESET ends open requests, empties both rings and zeroes the indexes. -/
  | mbxChannelReset (ch : Fin 4)
  /-- MBX_POLL (R359). Decik looks at every channel at least once per 1 ms. -/
  | mbxPoll
  /-- FINAL_RESPONSE (R363). A PENDING command completes and its final response is written with FINAL = 1. -/
  | finalResponse (ch : Fin 4) (tag : Nat) (result : List Nat)
  /-- SUMMARY_REBUILD (R376). Decik rebuilds the saddle after a change or every 100 ms and increments GEN. -/
  | summaryRebuild
  /-- UNIT_DIVERGENCE (R374). A management and data-path disagreement lasting 2 ms is a divergence; Decik re-applies once. -/
  | unitDivergence (id : Nat)
  /-- UNIT_DIVERGENCE_PERSIST (R374). A disagreement still present 2 ms after re-application makes the unit FAULTED. -/
  | unitDivergencePersist (id : Nat)
  /-- DP_STATE_REACHED (R375). A unit's data path reaches RUNNING or OFF and its pending command completes. -/
  | dpStateReached (id : Nat)
  /-- UNIT_START_LIMIT (R375). The start limit passes in STARTING; the unit shuts down and becomes FAULTED. -/
  | unitStartLimit (id : Nat)
  /-- UNIT_STOP_LIMIT (R375). The stop limit passes in STOPPING; pending commands end with TIMEOUT and the unit is FAULTED. -/
  | unitStopLimit (id : Nat)
  /-- REMOTE_TIMEOUT (R370). No first response to a remote request within TIMEOUT; the requesting node answers TIMEOUT. -/
  | remoteTimeout (ch : Fin 4) (tag : Nat)
  /-- REMOTE_BUSY_RESEND (R370). A remote request answered BUSY is sent again after 48 ticks. -/
  | remoteBusyResend (ch : Fin 4) (tag : Nat)
  /-- CONFIG_COMMIT (R383). At the commit tick the pending image becomes active in TRIAL and its loads take effect. -/
  | configCommit
  /-- CONFIRM_TIMER_EXPIRY (R385). The confirm timer expires in TRIAL and the node rolls back to the PREVIOUS slot. -/
  | confirmTimerExpiry
  /-- ROLLBACK_APPLY (R386). At the rollback tick the named slot becomes active. -/
  | rollbackApply
  /-- FRAGMENT_TRANSFER_TIMEOUT (R397). A fragmented transfer left without a fragment for 10 s is discarded. -/
  | fragmentTransferTimeout
  /-- AUTH_NONCE_LAPSE (R396). An authorisation nonce lapses 60 s after issue. -/
  | authNonceLapse
  /-- AUTH_LOCKOUT_END (R577). The 30 s authorisation lockout of a source ends. -/
  | authLockoutEnd
  /-- SPI_READ (R326). SPI command 0x0B reads words at incrementing addresses with wait and status bytes. -/
  | spiRead (addr : Nat) (waits : List Nat)
  /-- SPI_READ_FIXED (R326). SPI command 0x0F reads repeatedly at one address. -/
  | spiReadFixed (addr : Nat) (waits : List Nat)
  /-- SPI_WRITE (R326). SPI command 0x02 writes words at incrementing addresses, each followed by a status byte. -/
  | spiWrite (addr : Nat) (words : List Word)
  /-- SPI_WRITE_FIXED (R326). SPI command 0x03 writes repeatedly at one address. -/
  | spiWriteFixed (addr : Nat) (words : List Word)
  /-- SPI_UNKNOWN_COMMAND (R326). An unknown SPI command leaves IO undriven and counts CMD_ERR. -/
  | spiUnknownCommand (cmd : Fin 256)
  /-- SPI_FRAME_TRUNCATED (R327). CS_N rising part-way through a word discards it and counts FRAME_ERR. -/
  | spiFrameTruncated
  /-- I2C_REQUEST_WRITE (R330). An I2C write transaction submits a request to channel 2 after its PEC check. -/
  | i2cRequestWrite (bytes : List Nat)
  /-- I2C_READ (R331). An I2C read transaction returns status, identity and any waiting channel 2 response. -/
  | i2cRead (n : Nat)
  /-- I2C_ADDRESS_WAKE (R333). An address match in STANDBY or SLEEP starts the wake with source I2C. -/
  | i2cAddressWake
  /-- BAR0_ATOMICOP (R324). A PCIe AtomicOp to BAR0 completes as Unsupported Request. -/
  | bar0Atomicop (tag : Nat) (op : AtomicOp)
  /-- LOCAL_WINDOW_READ (R334). A host read of the local store window reaches the store at class BULK. -/
  | localWindowRead (tag off len : Nat)
  /-- LOCAL_WINDOW_WRITE (R335). A host write of the local store window is carried out or discarded outside permitted regions. -/
  | localWindowWrite (off : Nat) (bytes : List (Option Nat))
  /-- LOCAL_WINDOW_ATOMIC (R336). An AtomicOp in the local window is carried out indivisibly or completes with Completer Abort. -/
  | localWindowAtomic (tag : Nat) (op : AtomicOp)
  /-- TRAIN_WINDOW_READ (R341). A host read of a train window is staged as a bridge READ and completes at a later boundary. -/
  | trainWindowRead (tag : Nat) (win : Fin 16) (off len : Nat)
  /-- TRAIN_WINDOW_WRITE (R346). A host write to a train window is posted with a tag and staged as a bridge WRITE. -/
  | trainWindowWrite (win : Fin 16) (off : Nat) (bytes : List Nat)
  /-- TRAIN_WINDOW_ATOMIC (R351). An AtomicOp to a train window is carried by Cinch or semaphore fall-back per LOCKMODE. -/
  | trainWindowAtomic (tag : Nat) (win : Fin 16) (op : AtomicOp)
  /-- BRIDGE_READ_SERVE (R349). A target serves a bridge READ request within its remote-access map. -/
  | bridgeReadServe
  /-- BRIDGE_WRITE_SERVE (R349). A target serves a bridge WRITE request within its remote-access map. -/
  | bridgeWriteServe
  /-- CINCH_SERVE (R351). A target grants or refuses a CINCH, locks the block, updates and answers the old value. -/
  | cinchServe (stalled : Bool)
  /-- SEM_ACQ_SERVE (R352). A target grants a free semaphore for a 32-tick lease or answers LOCKED. -/
  | semAcqServe
  /-- READ_SEM_SERVE (R352). A target serves READ_SEM under a live lease or refuses with LOCK_EXPIRED. -/
  | readSemServe
  /-- WRITE_REL_SERVE (R352). A target writes the result and releases the semaphore, or refuses after a lapsed lease. -/
  | writeRelServe
  /-- SEM_REL_SERVE (R339). A target releases a semaphore on a SEM_REL request. -/
  | semRelServe
  /-- BRIDGE_RSP_RECEIVE (R341). A response completes the request at the following boundary, or BUSY triggers a re-send. -/
  | bridgeRspReceive
  /-- BRIDGE_TIMEOUT (R340). No response RSP_TIMEOUT ticks after first staging; the request fails with TIMEOUT. -/
  | bridgeTimeout (win : Fin 16) (seq op : Nat)
  /-- LOCK_BACKOFF_EXPIRY (R350). The LOCKED back-off ends and the request is re-staged, or given up after 64 ticks. -/
  | lockBackoffExpiry
  /-- CINCH_EXPIRE (R351). A Cinch unfinished 8 ticks after grant is aborted without a write and answers LOCK_EXPIRED. -/
  | cinchExpire (block : Nat)
  /-- SEM_LEASE_LAPSE (R352). A semaphore lease lapses 32 ticks after its grant and the semaphore becomes free. -/
  | semLeaseLapse (sem : Fin 32)
  /-- PREFETCH_AGE_EXPIRE (R345). The prefetch buffer is discarded PF_AGE ticks after its block arrived. -/
  | prefetchAgeExpire (win : Fin 16)
  /-- PCIE_LINK_DOWN (R355). The PCIe link goes down; LINK_DOWN is set and FAULT_SUMMARY raised. -/
  | pcieLinkDown
  /-- PCIE_PERST (R525). PCIE_PERST_N low resets the PCIe endpoint only; its rising edge is a wake source in STANDBY or SLEEP. -/
  | pciePerst (high : Bool)
  /-- ETH_LINK_UP (R416). An Ethernet port's link comes up at 1 Gbit/s full duplex, or is held down for a refused speed. -/
  | ethLinkUp (port : Fin 2) (accepted : Bool)
  /-- ETH_LINK_DOWN (R416). A port's link goes down; queues empty and the unit diverges. -/
  | ethLinkDown (port : Fin 2)
  /-- ETH_FRAME_RECEIVE (R420). A received Ethernet frame is checked and classified to pause, PTP, stream, relay, Decik or host. -/
  | ethFrameReceive (port : Fin 2) (f : EthRx)
  /-- PAUSE_EXPIRE (R430). The pause time runs out and transmission resumes. -/
  | pauseExpire (port : Fin 2)
  /-- ETH_FRAME_TRANSMIT (R426). The port sends from the highest open queue holding a frame that fits its gate. -/
  | ethFrameTransmit (port : Fin 2) (phaseNs : Nat)
  /-- GATE_ENTRY_CHANGE (R427). A gate-list entry's duration ends and the next entry's gates open. -/
  | gateEntryChange (port : Fin 2)
  /-- PRALINE_MATCH (R435). A frame matches a Praline slot; in STANDBY it starts the wake, otherwise it is counted. -/
  | pralineMatch (port : Fin 2) (bytes : List Nat) (fcsOk : Bool)
  /-- AES67_STREAM_STOPPED (R444). A receive stream without a timely packet for 1 s goes OFF and its channels deliver VALID = 0. -/
  | aes67StreamStopped (n : Fin 64)
  /-- STREAM_PACKET_LATE (R432). A stream packet not started within 1 ms of queuing is dropped and counted. -/
  | streamPacketLate (n : Fin 64)
  /-- PTP_ANNOUNCE_TIMEOUT (R449). An announce receipt timeout expires and is counted. -/
  | ptpAnnounceTimeout (port : Fin 2)
  /-- CAN_CYCLE_START (R460). A 10 ms CAN cycle starts; offset steps, suspension and schedule changes take effect. -/
  | canCycleStart (phaseNs : Nat)
  /-- CAN_WINDOW_OPEN (R462). A schedule window opens and its permitted frames are started. -/
  | canWindowOpen (win : Fin 64)
  /-- CAN_FRAME_RECEIVE (R457). A received CAN frame is timestamped, judged against windows and delivered to an object. -/
  | canFrameReceive (f : CanRx)
  /-- CAN_REF_LOCK_LOST (R461). 4 cycles without an accepted reference end reference lock. -/
  | canRefLockLost
  /-- CAN_FRAME_SENT (R458). A queued frame completes transmission and sets TX_EVT. -/
  | canFrameSent (obj : Fin 128) (sofNs endUs : Nat)
  /-- CAN_TX_FAIL (R458). A one-shot frame loses arbitration or meets an error and fails without retry. -/
  | canTxFail (obj : Fin 128) (error : Bool)
  /-- CAN_BUS_OFF (R459). The controller reaches bus-off and starts recovery. -/
  | canBusOff
  /-- CAN_BUSOFF_RECOVERED (R459). Bus-off recovery completes and the controller rejoins. -/
  | canBusoffRecovered
  /-- CAN_CHANNEL_RELEASE (R472). A fallback channel becomes free after 3 silent cycles. -/
  | canChannelRelease (ch : Fin 2)
  /-- CAN_CLAIM_BACKOFF (R474). After a claim collision the node waits a random 1 to 4 cycles and claims again. -/
  | canClaimBackoff (i : Fin 8)
  /-- CAN_WAKE (R476). A CAN dominant level or wake frame starts the wake with source CAN. -/
  | canWake (frame : Option CanRx)
  /-- RING_HOLD_EXPIRE (R143). 100 ms without a ring-hold message lifts the restraint on forming. -/
  | ringHoldExpire
  /-- STACK_LINK_IN_SERVICE (R482). A stack link holding lock with clean status blocks for 10 ms enters service. -/
  | stackLinkInService (down : Bool) (upstream : Nat) (conflict : Bool) (members : List (Nat × DWord × Bool))
  /-- MEMBER_RECORD_RECEIVE (R487). The head places a complete member record into its staging for frame f. -/
  | memberRecordReceive (r : MemberRecord)
  /-- MEMBER_RECORD_LATE (R487). No valid record by 18.0 µs; the head repeats the member's bytes STALE. -/
  | memberRecordLate (sub : Fin 4)
  /-- MEMBER_LOST (R488). 48 ticks without a valid record; the head declares the member lost. -/
  | memberLost (sub : Fin 4)
  /-- RING_IMAGE_RECEIVE (R490). A member receives the merged ring image from its head. -/
  | ringImageReceive (r : RingImage)
  /-- RING_IMAGE_LATE (R490). No intact audio part by 7.0 µs after the boundary; the member conceals its ring inputs. -/
  | ringImageLate
  /-- STACK_TIME_MARKER (R493). A member corrects its node time from the head's tick marker. -/
  | stackTimeMarker (n : Nat) (ofsNs : Int) (headLocked : Bool)
  /-- STANDBY_ENTRY (R507). An accepted STANDBY or SLEEP request, or the sleep tick, starts the entry procedure. -/
  | standbyEntry
  /-- STANDBY_ENTRY_COMPLETE (R505). The entry completes and the node is in STANDBY, starting the dwell if the target is SLEEP. -/
  | standbyEntryComplete
  /-- STANDBY_DWELL_EXPIRE (R505). STBY_DWELL_S elapses and the node passes to SLEEP, dropping ETH, CAN and unretained banks. -/
  | standbyDwellExpire
  /-- WAKE_EVENT (R511). An enabled wake source fires in STANDBY, SLEEP or WAKE_FAIL and the wake sequence starts. -/
  | wakeEvent (fired : List (Fin 11 × Fin 256))
  /-- WAKE_STEP_READY (R514). A wake step reaches its ready condition and the next step begins. -/
  | wakeStepReady
  /-- WAKE_STEP_TIMEOUT (R515). A wake step times out; the node goes to the safe state and retries or fails. -/
  | wakeStepTimeout (fail : StepFail)
  /-- WAKE_RETRY_WAIT_END (R515). The 10 ms wait ends and the wake restarts at the regulator step. -/
  | wakeRetryWaitEnd
  /-- WAKE_FAIL_HOLD_END (R516). The first second of WAKE_FAIL ends and latched wake events act. -/
  | wakeFailHoldEnd
  /-- VMAIN_RISE (R516). VMAIN rising above 3.2 V in WAKE_FAIL starts a fresh wake sequence. -/
  | vmainRise
  /-- RTC_ALARM (R513). The RTC reaches the armed alarm time and fires wake source 9. -/
  | rtcAlarm
  /-- RAIL_STEP_END (R519). A rail step ends on power good or PG_TO_MS, faulting rails without power good. -/
  | railStepEnd (pg : Fin 256)
  /-- RAIL_DELAY_EXPIRE (R519). A step's ON or OFF delay ends and its enables rise or fall. -/
  | railDelayExpire
  /-- RAIL_PG_FAULT (R521). An ON rail's power good low for 1 ms removes its enable and raises FAULT_SUMMARY. -/
  | railPgFault (r : Fin 8)
  /-- RESIDENCY_SECOND (R517). A whole second elapses and the residency counter of the state advances. -/
  | residencySecond
  /-- POWER_ON_RESET (R525). VAO rises above 2.9 V; everything resets and a cold start follows. -/
  | powerOnReset (straps : Straps)
  /-- SUPPLY_RESTART (R525). VMAIN below 2.8 V resets all but AO; a cold start follows when VMAIN recovers. -/
  | supplyRestart (bootSrc : Fin 4)
  /-- RESET_PIN (R525). RST_N low for at least 1 µs resets all but AO; a cold start follows its release. -/
  | resetPin (bootSrc : Fin 4)
  /-- BOOT_ROM_START (R529). The logic step is ready; the boot ROM runs, bank 0 is initialised and links train. -/
  | bootRomStart
  /-- BOOT_VERIFY_DONE (R531). The boot bundle copy is read and verified, or the next copy or host download is tried. -/
  | bootVerifyDone (flash : Option (List Nat))
  /-- BIST_COMPLETE (R534). Start-up LBIST and MBIST end; results are kept and failure has its effects. -/
  | bistComplete (misr : List Nat) (failMap count ms : Nat)
  /-- DECIK_INIT_DONE (R529). Decik has initialised banks, flushed the pending buffer and loaded key slots. -/
  | decikInitDone (media : Fin 3)
  /-- CONFIG_LOAD_DONE (R529). The image in force is loaded and TOPO_CHG is set for admission. -/
  | configLoadDone
  /-- RING_READY (R536). The node holds the writer or master role and is LOCKED; RING_READY and BOOT_TIME are set. -/
  | ringReady
  /-- STARTUP_NO_RING (R536). No link qualified within 1 s of the end of step 6; STARTUP_NO_RING is recorded. -/
  | startupNoRing
  /-- PDW_RAISE (R539). VMAIN below 3.0 V raises the power-down warning and completes durable writes. -/
  | pdwRaise
  /-- PDW_RECOVER (R539). VMAIN back above 3.2 V clears PDW and records PDW_RECOVERED. -/
  | pdwRecover
  /-- OPTIME_SAVE (R590). Decik saves the operating-seconds counter every 60 s. -/
  | optimeSave
  /-- IDLE_COUNT_EXPIRE (R548). The master's idle count reaches SLEEP_IDLE_S and it proposes sleep. -/
  | idleCountExpire
  /-- SLEEP_ACK_TIMEOUT (R550). 480 ticks after the first proposal a position has not acknowledged and the master withdraws. -/
  | sleepAckTimeout
  /-- SLEEP_TICK (R552). At sleep tick s every agreeing node begins the entry with target SLEEP. -/
  | sleepTick
  /-- WAKE_IN_ASSERT (R553). WAKE_IN asserted for 1 ms is one wake event. -/
  | wakeInAssert
  /-- WAKE_OUT_PULSE_END (R554). The WAKE_OUT pulse time ends and the drive is released. -/
  | wakeOutPulseEnd
  /-- WAKE_IN_STUCK (R555). WAKE_IN asserted for more than 10 s is stuck and ignored until deasserted for 1 s. -/
  | wakeInStuck
  /-- WAKE_VALID_EXPIRE (R559). No valid communication within WAKE_VALID makes the wake false. -/
  | wakeValidExpire
  /-- LONE_COUNT_EXPIRE (R560). A lone node's count reaches SLEEP_IDLE_S and it enters SLEEP by itself. -/
  | loneCountExpire
  /-- HELD_TIME_RECORD (R558). The held time reaches a multiple of SLEEP_IDLE_S and SLEEP_HELD records are written. -/
  | heldTimeRecord
  /-- TAMPER_DETECT (R581). A tamper cause zeroes keys, latches tamper and refuses key operations. -/
  | tamperDetect (cause : Fin 5)
  /-- EVENT_POST (R591). A record is written to durable memory and read back within 1 ms. -/
  | eventPost (back : ReadBack)
  /-- PENDING_POST (R597). A hardware writer posts a record to the always-on pending buffer. -/
  | pendingPost (writer : Fin 3) (code inst : Nat) (data : List Nat)
  /-- STORM_SECOND_END (R594). A second of operating time ends and EVR_SUPPRESSED records are written. -/
  | stormSecondEnd
  /-- STORE_TEST_DONE (R607). A store test ends; results are written and BIST_DONE raised. -/
  | storeTestDone (errors first : Nat)
  /-- DI_DEBOUNCED_CHANGE (R614). An input's debounced value changes, giving events, gates, holds and wakes. -/
  | diDebouncedChange (i : Fin 32) (v : Bool)
  /-- CHATTER_WINDOW_END (R615). A chatter window ends, freezing or releasing the input. -/
  | chatterWindowEnd (i : Fin 32)
  /-- DI_STUCK (R616). An input active for STUCK_S seconds is marked stuck. -/
  | diStuck (i : Fin 32)
  /-- INTC_PEND_WRITE (R627). Writing 1 to a pending bit clears it and re-sets it if an event bit is still set. -/
  | intcPendWrite (hi : Bool) (w : Word)
  /-- INTC_EN_WRITE (R630). Enabling a source whose pending bit is set raises its STAT bit. -/
  | intcEnWrite (hi : Bool) (w : Word)
  /-- INTC_FORCE_WRITE (R629). Writing FORCE sets a pending bit in TEST mode only. -/
  | intcForceWrite (hi : Bool) (w : Word)
  /-- MSIX_UNMASK (R630). Clearing a vector or function mask sends held messages in ascending order. -/
  | msixUnmask (vector : Option (Fin 64))
  /-- PING (R398). Command 0x0100 returns the Decik release, operating time and tick. -/
  | ping (r : Request)
  /-- STATE_SUMMARY (R376). Command 0x0101 returns the 3,584-byte saddle. -/
  | stateSummary (r : Request)
  /-- REDUCED_SUMMARY (R379). Command 0x0102 returns the 256-byte reduced summary. -/
  | reducedSummary (r : Request)
  /-- GET_IDENTITY (R398). Command 0x0103 returns ID, UID, release, configuration version and measurement. -/
  | getIdentity (r : Request)
  /-- GET_TIME (R398). Command 0x0104 returns tick, phase, sync state, node, PTP and RTC time. -/
  | getTime (r : Request)
  /-- SET_RTC (R513). Command 0x0105 sets the real-time clock. -/
  | setRtc (r : Request)
  /-- SET_NOTE_LEVEL (R399). Command 0x0106 sets the least severity of EVENT notifications. -/
  | setNoteLevel (r : Request)
  /-- SERVICE_MODE (R542). Command 0x0107 changes the service mode. -/
  | serviceMode (r : Request)
  /-- NODE_RESET (R399). Command 0x0108 restarts Decik or performs a node reset within 10 ms. -/
  | nodeReset (r : Request)
  /-- UNIT_GET (R398). Command 0x0109 returns unit entries of a class. -/
  | unitGet (r : Request)
  /-- UNIT_ENABLE (R375). Command 0x010A enables a unit under the unit state machine. -/
  | unitEnable (r : Request)
  /-- UNIT_DISABLE (R375). Command 0x010B disables a unit under the unit state machine. -/
  | unitDisable (r : Request)
  /-- CFG_LOAD (R381). Command 0x0201 loads an image fragment and checks the image on the last one. -/
  | cfgLoad (r : Request)
  /-- CFG_APPLY (R382). Command 0x0202 writes the loaded image into the free slot as PENDING for a commit tick. -/
  | cfgApply (r : Request)
  /-- CFG_CONFIRM (R384). Command 0x0203 confirms the trial image. -/
  | cfgConfirm (r : Request)
  /-- CFG_ROLLBACK (R386). Command 0x0204 cancels a pending image or schedules a return to the previous slot. -/
  | cfgRollback (r : Request)
  /-- CFG_STATUS (R400). Command 0x0205 returns the configuration section of the saddle. -/
  | cfgStatus (r : Request)
  /-- CFG_READ (R400). Command 0x0206 returns bytes of an image slot as stored. -/
  | cfgRead (r : Request)
  /-- CFG_DISCARD (R381). Command 0x0207 drops the loaded image and returns to STEADY. -/
  | cfgDiscard (r : Request)
  /-- RING_STATUS (R401). Command 0x0301 returns position, role, counters and link states. -/
  | ringStatus (r : Request)
  /-- RING_GET_LAYOUT (R401). Command 0x0302 returns bytes of the layout image in force. -/
  | ringGetLayout (r : Request)
  /-- RING_RENUMBER (R401). Command 0x0303 triggers a renumbering inauguration. -/
  | ringRenumber (r : Request)
  /-- RING_MERGE (R401). Command 0x0304 commands a merge across a qualified link. -/
  | ringMerge (r : Request)
  /-- RING_SET_RANK (R401). Command 0x0305 sets the candidate rank. -/
  | ringSetRank (r : Request)
  /-- RING_LINK_CTRL (R401). Command 0x0306 enables, disables or retrains a coupler link. -/
  | ringLinkCtrl (r : Request)
  /-- RING_SET_PARAM (R401). Command 0x0307 sets QUAL_MS and SWITCH_LEAD. -/
  | ringSetParam (r : Request)
  /-- SYNC_STATUS (R401). Command 0x0308 returns sync state and entry statistics. -/
  | syncStatus (r : Request)
  /-- XP_SET (R403). Command 0x0401 sets crosspoints all or nothing at ETICK. -/
  | xpSet (r : Request)
  /-- XP_GET (R402). Command 0x0402 returns crosspoints with target and applied gains. -/
  | xpGet (r : Request)
  /-- ZONE_SET (R243). Command 0x0403 sets a zone's mode, volume and ducking. -/
  | zoneSet (r : Request)
  /-- ZONE_CAND (R241). Command 0x0404 sets a zone candidate's PRIO mode. -/
  | zoneCand (r : Request)
  /-- ZONE_EQ (R245). Command 0x0405 sets zone biquad coefficients. -/
  | zoneEq (r : Request)
  /-- ZONE_OUT (R402). Command 0x0406 sets a zone's alignment delay and limiter. -/
  | zoneOut (r : Request)
  /-- STREAM_SET (R240). Command 0x0407 sets an owned stream's PRIO, gate and hold. -/
  | streamSet (r : Request)
  /-- TESTGEN_SET (R231). Command 0x0408 sets a test generator. -/
  | testgenSet (r : Request)
  /-- ZONE_STATUS (R402). Command 0x0409 returns a zone's status and meters. -/
  | zoneStatus (r : Request)
  /-- LIB_LOAD (R282). Command 0x0501 loads a clip fragment and verifies its digest on the last one. -/
  | libLoad (r : Request)
  /-- LIB_DELETE (R283). Command 0x0502 deletes a clip, completing when no voice plays it. -/
  | libDelete (r : Request)
  /-- LIB_LIST (R404). Command 0x0503 lists clip descriptors and states. -/
  | libList (r : Request)
  /-- PLAY_START (R285). Command 0x0504 starts a voice on a clip queue at a start tick. -/
  | playStart (r : Request)
  /-- PLAY_STOP (R287). Command 0x0505 stops a voice at a tick with a fade. -/
  | playStop (r : Request)
  /-- PLAY_STATUS (R404). Command 0x0506 returns the state of all voices. -/
  | playStatus (r : Request)
  /-- CALL_OPEN (R266). Command 0x0601 opens an intercom call. -/
  | callOpen (r : Request)
  /-- CALL_CLOSE (R267). Command 0x0602 closes a call, fading its crosspoints. -/
  | callClose (r : Request)
  /-- CALL_STATUS (R405). Command 0x0603 returns the state of all calls. -/
  | callStatus (r : Request)
  /-- AEC_SET (R259). Command 0x0604 configures an echo-canceller instance. -/
  | aecSet (r : Request)
  /-- PMON_COMMISSION (R278). Command 0x0605 measures and stores a zone's path references. -/
  | pmonCommission (r : Request)
  /-- PMON_CLEAR (R278). Command 0x0606 clears a zone's path references. -/
  | pmonClear (r : Request)
  /-- STIPA_RUN (R280). Command 0x0607 runs a STIPA measurement. -/
  | stipaRun (r : Request)
  /-- REC_LOCK (R291). Command 0x0608 locks the recorder units of a call. -/
  | recLock (r : Request)
  /-- REC_UNLOCK (R291). Command 0x0609 releases a call's locked units. -/
  | recUnlock (r : Request)
  /-- REC_INDEX (R405). Command 0x060A returns recorder index entries. -/
  | recIndex (r : Request)
  /-- REC_EXPORT (R405). Command 0x060B writes decrypted recorder units into the HOST region. -/
  | recExport (r : Request)
  /-- ETH_STATUS (R406). Command 0x0701 returns a port's link and timestamp status. -/
  | ethStatus (r : Request)
  /-- ETH_COUNTERS (R436). Command 0x0702 returns a port's 64-bit running totals. -/
  | ethCounters (r : Request)
  /-- ETH_MDIO (R417). Command 0x0703 performs a clause 22 MDIO access. -/
  | ethMdio (r : Request)
  /-- ETH_GATE_SET (R429). Command 0x0704 sets a port's gate list from a cycle start. -/
  | ethGateSet (r : Request)
  /-- PTP_SET (R437). Command 0x0705 sets PTP mode, domain, priorities and port roles. -/
  | ptpSet (r : Request)
  /-- PTP_STATUS (R406). Command 0x0706 returns PTP port states and grandmaster data. -/
  | ptpStatus (r : Request)
  /-- STREAM_ADD (R440). Command 0x0707 creates an AES67 or codec stream unit. -/
  | streamAdd (r : Request)
  /-- STREAM_REMOVE (R406). Command 0x0708 removes a disabled stream. -/
  | streamRemove (r : Request)
  /-- PRALINE_SET (R433). Command 0x0709 writes a Praline wake-pattern slot. -/
  | pralineSet (r : Request)
  /-- CAN_STATUS (R407). Command 0x0801 returns CAN error state and time source. -/
  | canStatus (r : Request)
  /-- CAN_SET_RATE (R466). Command 0x0802 sets CAN bit rates. -/
  | canSetRate (r : Request)
  /-- CAN_SCHED_SET (R466). Command 0x0803 sets the CAN window schedule from a cycle start. -/
  | canSchedSet (r : Request)
  /-- CAN_OBJ_SET (R455). Command 0x0804 configures a host message object. -/
  | canObjSet (r : Request)
  /-- CAN_SEND (R458). Command 0x0805 queues data in a transmit object. -/
  | canSend (r : Request)
  /-- CAN_WAKE_SET (R475). Command 0x0806 sets the CAN wake condition. -/
  | canWakeSet (r : Request)
  /-- PWR_STATUS (R408). Command 0x0901 returns power state, votes and faults. -/
  | pwrStatus (r : Request)
  /-- PWR_SET_STATE (R409). Command 0x0902 moves the node to ACTIVE, QUIET, STANDBY or SLEEP. -/
  | pwrSetState (r : Request)
  /-- PWR_VOTE (R500). Command 0x0903 sets a host domain vote. -/
  | pwrVote (r : Request)
  /-- PWR_PERF (R510). Command 0x0904 changes the performance point. -/
  | pwrPerf (r : Request)
  /-- PWR_WAKE_CFG (R514). Command 0x0905 sets wake sources, retries and step timeouts. -/
  | pwrWakeCfg (r : Request)
  /-- PWR_RESIDENCY (R517). Command 0x0906 returns residency counters. -/
  | pwrResidency (r : Request)
  /-- AWAKE_HOLD (R545). Command 0x0907 sets or clears the host hold. -/
  | awakeHold (r : Request)
  /-- NET_SLEEP_STATUS (R547). Command 0x0908 returns idle time and holding positions. -/
  | netSleepStatus (r : Request)
  /-- SEC_STATUS (R410). Command 0x0A01 returns slot versions, masks, tamper and failures. -/
  | secStatus (r : Request)
  /-- AUTH_CHALLENGE (R396). Command 0x0A02 issues a nonce bound to the channel. -/
  | authChallenge (r : Request)
  /-- KEY_REPLACE (R572). Command 0x0A03 unwraps, checks and commits a new key generation. -/
  | keyReplace (r : Request)
  /-- KEY_KCV (R410). Command 0x0A04 returns a slot's version and KCV. -/
  | keyKcv (r : Request)
  /-- TAMPER_CLEAR (R584). Command 0x0A05 clears a latched tamper once no cause is present. -/
  | tamperClear (r : Request)
  /-- GET_MEASUREMENT (R532). Command 0x0A06 returns the measurement and image digests. -/
  | getMeasurement (r : Request)
  /-- EVR_STATUS (R411). Command 0x0B01 returns recorder state and SEQ range. -/
  | evrStatus (r : Request)
  /-- EVR_READ (R593). Command 0x0B02 returns records from FROM_SEQ. -/
  | evrRead (r : Request)
  /-- EVR_CLEAR (R599). Command 0x0B03 writes a clear record and moves FIRST_SEQ. -/
  | evrClear (r : Request)
  /-- EVR_PENDING_READ (R597). Command 0x0B04 returns the pending buffer without emptying it. -/
  | evrPendingRead (r : Request)
  /-- BIST_RUN (R413). Command 0x0C01 resets the node with the named BIST. -/
  | bistRun (r : Request)
  /-- BIST_RESULT (R606). Command 0x0C02 returns BIST results. -/
  | bistResult (r : Request)
  /-- STORE_TEST (R607). Command 0x0C03 starts March C- over a HOST range. -/
  | storeTest (r : Request)
  /-- LANE_TEST (R412). Command 0x0C04 sets a coupler or stack lane test mode. -/
  | laneTest (r : Request)
  /-- LANE_TEST_RESULT (R412). Command 0x0C05 returns a lane test's lock and counters. -/
  | laneTestResult (r : Request)
  /-- RED_STATUS (R414). Command 0x0D01 returns redundancy status. -/
  | redStatus (r : Request)
  /-- MASTER_HANDOVER (R207). Command 0x0D02 hands mastership to a target candidate at a switch tick. -/
  | masterHandover (r : Request)
  /-- TWIN_RESYNC (R193). Command 0x0D03 starts twin resynchronisation. -/
  | twinResync (r : Request)
  /-- STACK_STATUS (R414). Command 0x0D04 returns stack role and link status. -/
  | stackStatus (r : Request)
  /-- STACK_MEMBER_RESET (R414). Command 0x0D05 resets a stack member through the stack link. -/
  | stackMemberReset (r : Request)
  /-- VAO_LOST (R640). VAO below 2.75 V for at least 10 µs loses the AO domain and the node is OFF, losing retained banks and AO registers. -/
  | vaoLost
  /-- RST_N_RELEASE (R525). The rising edge of RST_N after a reset-pin reset releases the node and starts the cold start. -/
  | rstNRelease
  /-- VMAIN_RESTORED (R525). After a supply restart, VMAIN having stayed above 3.2 V for 10 ms starts the cold start. -/
  | vmainRestored
  /-- TAMPER_CAUSE_END (R584). A tamper cause ceases to be present and SEC.STAT.PRESENT clears, so that TAMPER_CLEAR can be accepted. -/
  | tamperCauseEnd (cause : Fin 5)
  /-- CAB_ACTIVE_CHANGE (R544). The CAB_ACTIVE input changes level, setting or clearing the CAB hold and leading to a CAB_REPORT and renumbering. -/
  | cabActiveChange (on : Bool)
  /-- WAKE_IN_DEASSERT (R553). WAKE_IN is deasserted, counting a pulse shorter than 1 ms as FILTERED and starting the 1 s that ends a stuck state. -/
  | wakeInDeassert
  /-- PCIE_LINK_UP (R322). The PCIe data link trains and comes up, setting LINK_UP, LINK_SPEED and LINK_WIDTH. -/
  | pcieLinkUp (speed width : Fin 4)
  /-- MSIX_ENABLE_WRITE (R630). A configuration write sets or clears the MSI-X Enable bit, switching interrupt delivery between MSI-X and INT_N or INTA. -/
  | msixEnableWrite (enable functionMask : Bool)
  /-- MCLK_PLL_LOCK (R219). The media-clock PLL achieves lock and PLL_LOCK reads 1, allowing enabled TDM ports to start. -/
  | mclkPllLock
  /-- PTP_MESSAGE_INTERVAL (R437). A PTP message interval (logSyncInterval, logAnnounceInterval, logMinDelayReqInterval) expires and Decik sends Sync, Announce or Delay_Req. -/
  | ptpMessageInterval (port : Fin 2) (what : Fin 3)
  deriving DecidableEq, Repr

end Sys2Proof
end

