-- ==== Sys2Proof/Decode.lean ====
section
/-! DEFINITION. The reading of a table word. Every row of the opcode table has an empty list of fields: the table gives no
command any bits, so no word spells a command (notes/assumptions/1.md). -/

namespace Sys2Proof

/-- The command that the table's bits spell: none, for every word. -/
def decodeTableWord (_nbits _w : Nat) : Option Instr := none

end Sys2Proof
end

