-- ==== Sys2Proof/Config.lean ====
section
/-! DEFINITION. What an implementation fixes and what the spec leaves open. Every `opaque` here has no body: nothing can be
proved about its value, so a theorem holds whatever it is (notes/assumptions/3.md). -/

namespace Sys2Proof.Config

/-- A relay rule of an Ethernet port (R424): the destination MAC under a mask, a VLAN ID where one is asked for; where the
message goes, and the egress port (0, 1, 0xFF both) and queue there. -/
structure RelayRule where
  port : Nat
  mac : Nat
  mask : Nat
  vid : Option Nat
  pos : Nat
  sub : Nat
  egress : Nat
  queue : Nat
  deriving DecidableEq, Repr, Inhabited

/-- What a configuration image says (R380 to R383). The spec gives the contents and no byte layout of an image's body:
`imageOf` below reads it. Settings that a catalogue command can also make stand as that command: opcode and data. -/
structure Image where
  /-- register loads: BAR0 offset, word (R159, R185, R348, R450, R479, R524, R620) -/
  loads : List (Nat × Nat)
  settings : List (Nat × List Nat)
  /-- DSP jobs: core, cost, block length, retained in QUIET, sinks (R35 to R42) -/
  jobs : List (Nat × Nat × Nat × Bool × List Nat)
  /-- regions: kind, pages, retained (R308) -/
  regions : List (Nat × Nat × Bool)
  /-- units present, and whether the image enables each (R383) -/
  units : List (Nat × Bool)
  /-- opcodes admitted on channel 3 (R370) -/
  remote : List Nat
  /-- domains retained in QUIET, as a mask (R499) -/
  retained : Nat
  claimId : Nat
  syncCap : Bool
  startBist : Nat
  /-- recorder channels in mode ALWAYS (R288) -/
  recAlways : List Nat
  /-- monitoring microphones of each zone (R277) -/
  pmonMics : List (Nat × Nat)
  /-- relay rules and multicast addresses of the Ethernet ports (R420, R424) -/
  relay : List RelayRule
  multicast : List Nat
  /-- queues of PTP, AES67 media, codec RTP and control traffic where they differ from the defaults (R425), and the
  media-clock offsets: unit, MCO (R441) -/
  ethQueues : List Nat
  mco : List (Nat × Nat)
  /-- amplifier rails: TDM output channels of each (R507), and enabled in QUIET (R520) -/
  railChannels : List (Nat × Nat)
  quietRails : Nat
  /-- discrete inputs that hold the train awake (R544) -/
  holdInputs : Nat
  /-- UIDs of the stack's members (R483) -/
  members : List Nat
  /-- owned streams: index, stream identifier (R239); the ring stream table: ring input, stream identifier (R212) -/
  streams : List (Nat × Nat)
  ringTable : List (Nat × Nat)
  /-- TDM output channels of each zone (R248): zone, channel -/
  zoneMap : List (Nat × Nat)
  /-- trims in 0.1 dB: source index, gain (R221, R224) -/
  trims : List (Nat × Int)
  /-- microphones with feedback suppression (R263) -/
  suppress : List Nat
  /-- noise following: zone, microphones, slope in 0.1, N_ref in dB SPL, fallback gain in 0.1 dB (R274 to R276) -/
  noise : List (Nat × List Nat × Nat × Nat × Int)
  /-- library clips that the image carries, each as LIB_LOAD's object (R282, R404) -/
  clips : List (List Nat)
  deriving DecidableEq, Repr, Inhabited

/-- No image in force. -/
def Image.none : Image where
  loads := []
  settings := []
  jobs := []
  regions := []
  units := []
  remote := []
  retained := 0
  claimId := 0
  syncCap := false
  startBist := 0
  recAlways := []
  pmonMics := []
  relay := []
  multicast := []
  ethQueues := []
  mco := []
  railChannels := []
  quietRails := 0
  holdInputs := 0
  members := []
  streams := []
  ringTable := []
  zoneMap := []
  trims := []
  suppress := []
  noise := []
  clips := []

/-- The header of an image (R380): format, part, version, size, lowest release, default confirm time, SIGVER slot. -/
structure ImageHeader where
  format : Nat
  part : Nat
  version : Nat
  size : Nat
  release : Nat
  confirm : Nat
  sigSlot : Nat
  deriving DecidableEq, Repr, Inhabited

/-- A value the spec leaves open, drawn afresh each time: the argument is the state's counter of values drawn. -/
opaque freeValue : Nat → Nat

/-- The GCM tag (NIST SP 800-38D) of a key, a nonce, additional data and a ciphertext: the spec names the algorithm and
does not state it (R106, R126, R148). -/
opaque gcmTag : (key : Nat) → (nonce aad text : List Nat) → Nat

/-- The GCM key stream applied to a text: encryption and decryption alike (R106). -/
opaque gcmCrypt : (key : Nat) → (nonce text : List Nat) → List Nat

/-! ### Signal processing: values that the spec defines up to a rounding or a shape that it does not state -/

/-- A sample scaled by a gain other than 0 dB (gain in 1/1,048,576 of 0.1 dB): the spec gives the gain in dB and no
rounding (R232, R244). -/
opaque gainScaled : (gain sample : Int) → Int

/-- A quotient that is not exact, as the hardware rounds it (R245, R246, R250). -/
opaque roundRatio : (num : Int) → (den : Nat) → Int

/-- The magnitude of a level below full scale, in 0.1 dBFS (R231, R247). -/
opaque levelOf : (tenths : Int) → Nat

/-- Limiter: the gain reduction of a tick, in 0.25 dB steps, and the sample after it (R247). -/
opaque limiterGain : (thr : Int) → (att rel gr : Nat) → (sample : Int) → Nat
opaque limited : (gr : Nat) → (sample : Int) → Int

/-- A test generator's sample (R231). -/
opaque generator : (kind freq : Nat) → (level : Int) → (n : Nat) → Int

/-- The RMS register reading of a sum of squares over 48 ticks (R258). -/
opaque rmsSteps : (sumSquares : Nat) → Nat

/-- The output sample of an echo canceller for a microphone capture tick (R260, R261). -/
opaque echoOut : (instance_ n : Nat) → Int

/-- A microphone sample after notches (R264). -/
opaque suppressed : (mic n : Nat) → (sample : Int) → Int

/-- A playback voice's sample at an offset from its start (R285): the converter's filter is not stated (R230). -/
opaque voiceSample : (clip version : Nat) → (gain : Int) → (offset : Nat) → Int

/-- A codec's decoded sample at a tick of a packet: codec type, the payload and the one before it, offset in ticks; and
the payload of encoded ticks (R272: the codecs are named, their filters are not stated). -/
opaque decoded : (type : Nat) → (payload before : List Nat) → (offset : Nat) → Int
opaque encoded : (type : Nat) → (samples : List Int) → List Nat

/-! ### Ethernet: what the spec leaves to the standards it names or leaves open -/

/-- The MAC address to which a unicast IPv4 address resolves at a port: how the node resolves it is not stated. -/
opaque nextHop : (port ip : Nat) → Nat

/-- Time to live of an IPv4 packet that the node originates, by traffic (0 PTP, 1 AES67, 2 codec, 3 control). -/
opaque ipTtl : Nat → Nat

/-- Clock accuracy and offsetScaledLogVariance that the node's PTP clock announces. -/
opaque ptpAccuracy : Nat
opaque ptpVariance : Nat

/-- The rate in ppb that the servo gives the PTP clock for an offset in ns: R438 says that it slews, not how. -/
opaque servoRate : (offset : Int) → Int

/-- The energy mean of noise levels, in 0.1 dB SPL (R274). -/
opaque energyMean : List Nat → Nat

/-- AES-XTS (NIST SP 800-38E) of a data unit (R290). -/
opaque xts : (key tweak : Nat) → (data : List Nat) → List Nat
opaque xtsOpen : (key tweak : Nat) → (data : List Nat) → List Nat

/-- The contents of an image, and its header: the spec lists them and gives no offsets (R380). -/
opaque imageOf : List Nat → Image
opaque headerOf : List Nat → ImageHeader

/-- Is the ECDSA P-256 signature over the preceding bytes right under a key (R380, R530)? -/
opaque signatureOk : (key : Nat) → (image : List Nat) → Bool

/-- SHA-256 and HMAC-SHA-256 (R282, R483, R576): the spec names the algorithms. -/
opaque sha256 : List Nat → List Nat
opaque hmac : (key : Nat) → List Nat → List Nat

/-- The key check value of a key (R567): the first bytes of the AES-256 encryption of a zero block under it. -/
opaque kcv : (key : Nat) → List Nat

end Sys2Proof.Config
end

