-- ==== Sys2Proof/Machine/Registers.lean ====
section
/-! DEFINITION. The register map: every register field of the BAR0 blocks, with its place, access code and reset
value, from the register tables of spec/ (R44, R73, R110, R158, R184, R210, R257, R295, R318, R355, R389, R448, R449,
R478, R495, R523, R543, R562, R586, R602, R611, R620, R625, R629) and the block offsets of R622. -/

namespace Sys2Proof.Machine

/-- One field of one register: the register's BAR0 offset and the field's highest and lowest bit. -/
structure Fld where
  off : Nat
  hi : Nat
  lo : Nat
  deriving DecidableEq, Repr

/-- The access codes of R9: read-only, read-write, read-to-clear, write-one-to-clear, write-one-to-set,
write-only and read-write-lockable. -/
inductive Access where
  | ro | rw | rc | w1c | w1s | wo | rwl
  deriving DecidableEq, Repr

/-- One row of a register table: bits `hi` down to `lo`, the access code, the value at reset. -/
structure FieldSpec where
  hi : Nat
  lo : Nat
  acc : Access
  rst : Nat
  deriving DecidableEq, Repr

/-- One register, or an indexed family of `count` registers `stride` bytes apart from `base`. -/
structure RegRow where
  base : Nat
  stride : Nat
  count : Nat
  flds : List FieldSpec
  deriving DecidableEq, Repr

/-! ## GLB -/

/-- Offset of GLB.ID (R44). -/
abbrev GLB.ID.off : Nat := 0x00000
abbrev GLB.ID.PART : Fld := ⟨GLB.ID.off, 31, 16⟩
abbrev GLB.ID.REV : Fld := ⟨GLB.ID.off, 15, 0⟩
/-- Offset of GLB.FW_REL (R625). -/
abbrev GLB.FW_REL.off : Nat := 0x00004
abbrev GLB.FW_REL.REL : Fld := ⟨GLB.FW_REL.off, 15, 0⟩
/-- Offset of GLB.UID_LO (R625). -/
abbrev GLB.UID_LO.off : Nat := 0x00008
abbrev GLB.UID_LO.UID : Fld := ⟨GLB.UID_LO.off, 31, 0⟩
/-- Offset of GLB.UID_HI (R625). -/
abbrev GLB.UID_HI.off : Nat := 0x0000C
abbrev GLB.UID_HI.UID : Fld := ⟨GLB.UID_HI.off, 31, 0⟩
/-- Offset of GLB.TICK_SEQ (R44). -/
abbrev GLB.TICK_SEQ.off : Nat := 0x00010
abbrev GLB.TICK_SEQ.SEQ : Fld := ⟨GLB.TICK_SEQ.off, 31, 0⟩
/-- Offset of GLB.TICK_PHASE (R44). -/
abbrev GLB.TICK_PHASE.off : Nat := 0x00014
abbrev GLB.TICK_PHASE.PHASE_NS : Fld := ⟨GLB.TICK_PHASE.off, 15, 0⟩
/-- Offset of GLB.TICK_CTRL (R44). -/
abbrev GLB.TICK_CTRL.off : Nat := 0x00018
abbrev GLB.TICK_CTRL.MARK_DIV : Fld := ⟨GLB.TICK_CTRL.off, 15, 4⟩
abbrev GLB.TICK_CTRL.MARK_EN : Fld := ⟨GLB.TICK_CTRL.off, 0, 0⟩
/-- Offset of GLB.DSP_PERF (R44). -/
abbrev GLB.DSP_PERF.off : Nat := 0x00020
abbrev GLB.DSP_PERF.BUDGET : Fld := ⟨GLB.DSP_PERF.off, 31, 16⟩
abbrev GLB.DSP_PERF.POINT : Fld := ⟨GLB.DSP_PERF.off, 1, 0⟩
/-- Offset of GLB.DSP_LOADn (R44). `n` from 0 to 3. -/
abbrev GLB.DSP_LOAD.off (n : Nat) : Nat := 0x00030 + 0x4 * n
abbrev GLB.DSP_LOAD.PEAK (n : Nat) : Fld := ⟨GLB.DSP_LOAD.off n, 31, 16⟩
abbrev GLB.DSP_LOAD.ADMIT (n : Nat) : Fld := ⟨GLB.DSP_LOAD.off n, 15, 0⟩
/-- Offset of GLB.OVR_CNTn (R44). `n` from 0 to 3. -/
abbrev GLB.OVR_CNT.off (n : Nat) : Nat := 0x00040 + 0x4 * n
abbrev GLB.OVR_CNT.COUNT (n : Nat) : Fld := ⟨GLB.OVR_CNT.off n, 31, 0⟩
/-- Offset of GLB.OVR_LAST (R44). -/
abbrev GLB.OVR_LAST.off : Nat := 0x00050
abbrev GLB.OVR_LAST.TICK : Fld := ⟨GLB.OVR_LAST.off, 31, 16⟩
abbrev GLB.OVR_LAST.JOB : Fld := ⟨GLB.OVR_LAST.off, 15, 8⟩
abbrev GLB.OVR_LAST.CORE : Fld := ⟨GLB.OVR_LAST.off, 1, 0⟩
/-- Offset of GLB.OVR_STAT (R44). -/
abbrev GLB.OVR_STAT.off : Nat := 0x00054
abbrev GLB.OVR_STAT.CORE_OVR : Fld := ⟨GLB.OVR_STAT.off, 3, 0⟩
/-- Offset of GLB.FW_STAT (R625). -/
abbrev GLB.FW_STAT.off : Nat := 0x00060
abbrev GLB.FW_STAT.ALIVE : Fld := ⟨GLB.FW_STAT.off, 31, 16⟩
abbrev GLB.FW_STAT.LOST : Fld := ⟨GLB.FW_STAT.off, 8, 8⟩
abbrev GLB.FW_STAT.HALTED : Fld := ⟨GLB.FW_STAT.off, 1, 1⟩
abbrev GLB.FW_STAT.RUN : Fld := ⟨GLB.FW_STAT.off, 0, 0⟩
/-- Offset of GLB.FAULT_STAT (R625). -/
abbrev GLB.FAULT_STAT.off : Nat := 0x00064
abbrev GLB.FAULT_STAT.FAULT_N : Fld := ⟨GLB.FAULT_STAT.off, 31, 31⟩
abbrev GLB.FAULT_STAT.BOOT_WAIT : Fld := ⟨GLB.FAULT_STAT.off, 4, 4⟩
abbrev GLB.FAULT_STAT.RECORDER : Fld := ⟨GLB.FAULT_STAT.off, 3, 3⟩
abbrev GLB.FAULT_STAT.TAMPER : Fld := ⟨GLB.FAULT_STAT.off, 2, 2⟩
abbrev GLB.FAULT_STAT.BIST : Fld := ⟨GLB.FAULT_STAT.off, 1, 1⟩
abbrev GLB.FAULT_STAT.DECIK : Fld := ⟨GLB.FAULT_STAT.off, 0, 0⟩
/-- Offset of GLB.FAULT_EVT (R625). -/
abbrev GLB.FAULT_EVT.off : Nat := 0x00068
abbrev GLB.FAULT_EVT.BOOT_WAIT : Fld := ⟨GLB.FAULT_EVT.off, 4, 4⟩
abbrev GLB.FAULT_EVT.RECORDER : Fld := ⟨GLB.FAULT_EVT.off, 3, 3⟩
abbrev GLB.FAULT_EVT.TAMPER : Fld := ⟨GLB.FAULT_EVT.off, 2, 2⟩
abbrev GLB.FAULT_EVT.BIST : Fld := ⟨GLB.FAULT_EVT.off, 1, 1⟩
abbrev GLB.FAULT_EVT.DECIK : Fld := ⟨GLB.FAULT_EVT.off, 0, 0⟩
/-- Offset of GLB.STRAPS (R543). -/
abbrev GLB.STRAPS.off : Nat := 0x00100
abbrev GLB.STRAPS.I2C_ADR : Fld := ⟨GLB.STRAPS.off, 10, 8⟩
abbrev GLB.STRAPS.STACK_ROLE : Fld := ⟨GLB.STRAPS.off, 7, 6⟩
abbrev GLB.STRAPS.CAR_END : Fld := ⟨GLB.STRAPS.off, 4, 4⟩
abbrev GLB.STRAPS.HOST_SEL : Fld := ⟨GLB.STRAPS.off, 3, 2⟩
abbrev GLB.STRAPS.BOOT_SRC : Fld := ⟨GLB.STRAPS.off, 1, 0⟩
/-- Offset of GLB.RST_CAUSE (R543). -/
abbrev GLB.RST_CAUSE.off : Nat := 0x00104
abbrev GLB.RST_CAUSE.PREV : Fld := ⟨GLB.RST_CAUSE.off, 15, 8⟩
abbrev GLB.RST_CAUSE.CAUSE : Fld := ⟨GLB.RST_CAUSE.off, 7, 0⟩
/-- Offset of GLB.BOOT_STAT (R543). -/
abbrev GLB.BOOT_STAT.off : Nat := 0x00108
abbrev GLB.BOOT_STAT.FAIL_CAUSE : Fld := ⟨GLB.BOOT_STAT.off, 15, 12⟩
abbrev GLB.BOOT_STAT.RING_READY : Fld := ⟨GLB.BOOT_STAT.off, 8, 8⟩
abbrev GLB.BOOT_STAT.BIST_FAIL : Fld := ⟨GLB.BOOT_STAT.off, 7, 7⟩
abbrev GLB.BOOT_STAT.BIST_RUN : Fld := ⟨GLB.BOOT_STAT.off, 6, 6⟩
abbrev GLB.BOOT_STAT.COPY : Fld := ⟨GLB.BOOT_STAT.off, 5, 4⟩
abbrev GLB.BOOT_STAT.STATE : Fld := ⟨GLB.BOOT_STAT.off, 3, 0⟩
/-- Offset of GLB.BOOT_TIME (R543). -/
abbrev GLB.BOOT_TIME.off : Nat := 0x0010C
abbrev GLB.BOOT_TIME.DECIK_MS : Fld := ⟨GLB.BOOT_TIME.off, 31, 16⟩
abbrev GLB.BOOT_TIME.READY_MS : Fld := ⟨GLB.BOOT_TIME.off, 15, 0⟩
/-- Offset of GLB.BOOT_CTRL (R543). -/
abbrev GLB.BOOT_CTRL.off : Nat := 0x00110
abbrev GLB.BOOT_CTRL.GO : Fld := ⟨GLB.BOOT_CTRL.off, 31, 31⟩
abbrev GLB.BOOT_CTRL.SIZE_KIB : Fld := ⟨GLB.BOOT_CTRL.off, 13, 0⟩
/-- Offset of GLB.RST_CNT (R543). -/
abbrev GLB.RST_CNT.off : Nat := 0x00114
abbrev GLB.RST_CNT.NODE : Fld := ⟨GLB.RST_CNT.off, 31, 16⟩
abbrev GLB.RST_CNT.DECIK : Fld := ⟨GLB.RST_CNT.off, 15, 0⟩

/-! ## RING -/

/-- Offset of RING.PORT_CFG (R73). -/
abbrev RING.PORT_CFG.off : Nat := 0x03000
abbrev RING.PORT_CFG.LINE_EN : Fld := ⟨RING.PORT_CFG.off, 5, 4⟩
abbrev RING.PORT_CFG.CAR_END : Fld := ⟨RING.PORT_CFG.off, 0, 0⟩
/-- Offset of RING.LINK_QUAL (R73). -/
abbrev RING.LINK_QUAL.off : Nat := 0x03004
abbrev RING.LINK_QUAL.QUAL_MS : Fld := ⟨RING.LINK_QUAL.off, 9, 0⟩
/-- Offset of RING.LINK_CTRL (R73). -/
abbrev RING.LINK_CTRL.off : Nat := 0x03008
abbrev RING.LINK_CTRL.DISABLE : Fld := ⟨RING.LINK_CTRL.off, 11, 8⟩
abbrev RING.LINK_CTRL.RETRAIN : Fld := ⟨RING.LINK_CTRL.off, 3, 0⟩
/-- Offset of RING.LINK_EVT (R73). -/
abbrev RING.LINK_EVT.off : Nat := 0x0300C
abbrev RING.LINK_EVT.TEST_REFUSED : Fld := ⟨RING.LINK_EVT.off, 31, 24⟩
abbrev RING.LINK_EVT.LOST : Fld := ⟨RING.LINK_EVT.off, 7, 4⟩
abbrev RING.LINK_EVT.QUAL : Fld := ⟨RING.LINK_EVT.off, 3, 0⟩
/-- Offset of RING.LINKSTATn (R73). `n` from 0 to 3. -/
abbrev RING.LINKSTAT.off (n : Nat) : Nat := 0x03040 + 0x10 * n
abbrev RING.LINKSTAT.ROLE (n : Nat) : Fld := ⟨RING.LINKSTAT.off n, 9, 9⟩
abbrev RING.LINKSTAT.BLOCK_LOCK (n : Nat) : Fld := ⟨RING.LINKSTAT.off n, 8, 8⟩
abbrev RING.LINKSTAT.LOS (n : Nat) : Fld := ⟨RING.LINKSTAT.off n, 7, 7⟩
abbrev RING.LINKSTAT.LOOP (n : Nat) : Fld := ⟨RING.LINKSTAT.off n, 6, 6⟩
abbrev RING.LINKSTAT.PARTNER_QUAL (n : Nat) : Fld := ⟨RING.LINKSTAT.off n, 5, 5⟩
abbrev RING.LINKSTAT.STATE (n : Nat) : Fld := ⟨RING.LINKSTAT.off n, 3, 0⟩
/-- Offset of RING.LINKLATn (R73). `n` from 0 to 3. -/
abbrev RING.LINKLAT.off (n : Nat) : Nat := 0x03044 + 0x10 * n
abbrev RING.LINKLAT.LOOP_UI (n : Nat) : Fld := ⟨RING.LINKLAT.off n, 15, 8⟩
abbrev RING.LINKLAT.PT_UI (n : Nat) : Fld := ⟨RING.LINKLAT.off n, 7, 0⟩
/-- Offset of RING.LINKERRn (R73). `n` from 0 to 3. -/
abbrev RING.LINKERR.off (n : Nat) : Nat := 0x03048 + 0x10 * n
abbrev RING.LINKERR.QUAL_RESTART (n : Nat) : Fld := ⟨RING.LINKERR.off n, 31, 16⟩
abbrev RING.LINKERR.ERR_CNT (n : Nat) : Fld := ⟨RING.LINKERR.off n, 15, 0⟩
/-- Offset of RING.LINKLOSSn (R73). `n` from 0 to 3. -/
abbrev RING.LINKLOSS.off (n : Nat) : Nat := 0x0304C + 0x10 * n
abbrev RING.LINKLOSS.LOSS_CNT (n : Nat) : Fld := ⟨RING.LINKLOSS.off n, 15, 0⟩
/-- Offset of RING.TXEQn (R73). `n` from 0 to 3. -/
abbrev RING.TXEQ.off (n : Nat) : Nat := 0x03080 + 0x10 * n
abbrev RING.TXEQ.DEEMPH (n : Nat) : Fld := ⟨RING.TXEQ.off n, 7, 4⟩
abbrev RING.TXEQ.SWING (n : Nat) : Fld := ⟨RING.TXEQ.off n, 2, 0⟩
/-- Offset of RING.RXEQn (R73). `n` from 0 to 3. -/
abbrev RING.RXEQ.off (n : Nat) : Nat := 0x03084 + 0x10 * n
abbrev RING.RXEQ.EYE_W (n : Nat) : Fld := ⟨RING.RXEQ.off n, 31, 24⟩
abbrev RING.RXEQ.EYE_H (n : Nat) : Fld := ⟨RING.RXEQ.off n, 23, 16⟩
abbrev RING.RXEQ.CTLE_SET (n : Nat) : Fld := ⟨RING.RXEQ.off n, 11, 8⟩
abbrev RING.RXEQ.CTLE_FORCE (n : Nat) : Fld := ⟨RING.RXEQ.off n, 4, 4⟩
abbrev RING.RXEQ.CTLE_CODE (n : Nat) : Fld := ⟨RING.RXEQ.off n, 3, 0⟩
/-- Offset of RING.DFEn (R73). `n` from 0 to 3. -/
abbrev RING.DFE.off (n : Nat) : Nat := 0x03088 + 0x10 * n
abbrev RING.DFE.TAP5 (n : Nat) : Fld := ⟨RING.DFE.off n, 29, 24⟩
abbrev RING.DFE.TAP4 (n : Nat) : Fld := ⟨RING.DFE.off n, 23, 18⟩
abbrev RING.DFE.TAP3 (n : Nat) : Fld := ⟨RING.DFE.off n, 17, 12⟩
abbrev RING.DFE.TAP2 (n : Nat) : Fld := ⟨RING.DFE.off n, 11, 6⟩
abbrev RING.DFE.TAP1 (n : Nat) : Fld := ⟨RING.DFE.off n, 5, 0⟩
/-- Offset of RING.LTESTn (R73). `n` from 0 to 3. -/
abbrev RING.LTEST.off (n : Nat) : Nat := 0x030C0 + 0x10 * n
abbrev RING.LTEST.INJECT (n : Nat) : Fld := ⟨RING.LTEST.off n, 8, 8⟩
abbrev RING.LTEST.CHK_LOCK (n : Nat) : Fld := ⟨RING.LTEST.off n, 4, 4⟩
abbrev RING.LTEST.MODE (n : Nat) : Fld := ⟨RING.LTEST.off n, 1, 0⟩
/-- Offset of RING.PRBS_ERRn (R73). `n` from 0 to 3. -/
abbrev RING.PRBS_ERR.off (n : Nat) : Nat := 0x030C4 + 0x10 * n
abbrev RING.PRBS_ERR.ERR (n : Nat) : Fld := ⟨RING.PRBS_ERR.off n, 31, 0⟩
/-- Offset of RING.PRBS_BITSn (R73). `n` from 0 to 3. -/
abbrev RING.PRBS_BITS.off (n : Nat) : Nat := 0x030C8 + 0x10 * n
abbrev RING.PRBS_BITS.BITS (n : Nat) : Fld := ⟨RING.PRBS_BITS.off n, 31, 0⟩
/-- Offset of RING.ENG_STAT (R110). -/
abbrev RING.ENG_STAT.off : Nat := 0x03100
abbrev RING.ENG_STAT.TOPO : Fld := ⟨RING.ENG_STAT.off, 31, 16⟩
abbrev RING.ENG_STAT.POSITION : Fld := ⟨RING.ENG_STAT.off, 13, 8⟩
abbrev RING.ENG_STAT.ORIENT : Fld := ⟨RING.ENG_STAT.off, 4, 4⟩
abbrev RING.ENG_STAT.RELAY : Fld := ⟨RING.ENG_STAT.off, 3, 3⟩
abbrev RING.ENG_STAT.WRITE_EN : Fld := ⟨RING.ENG_STAT.off, 2, 2⟩
abbrev RING.ENG_STAT.ROLE : Fld := ⟨RING.ENG_STAT.off, 1, 0⟩
/-- Offset of RING.LAYOUT (R110). -/
abbrev RING.LAYOUT.off : Nat := 0x03104
abbrev RING.LAYOUT.LAYOUT_VER : Fld := ⟨RING.LAYOUT.off, 15, 0⟩
/-- Offset of RING.STG_STAT (R110). -/
abbrev RING.STG_STAT.off : Nat := 0x03108
abbrev RING.STG_STAT.LATE_CNT : Fld := ⟨RING.STG_STAT.off, 31, 16⟩
abbrev RING.STG_STAT.MARGIN_NS : Fld := ⟨RING.STG_STAT.off, 15, 0⟩
/-- Offset of RING.STG_LAST (R110). -/
abbrev RING.STG_LAST.off : Nat := 0x0310C
abbrev RING.STG_LAST.TICK : Fld := ⟨RING.STG_LAST.off, 31, 0⟩
/-- Offset of RING.LINE_STAT (R110). -/
abbrev RING.LINE_STAT.off : Nat := 0x03110
abbrev RING.LINE_STAT.DEG_EVT_B : Fld := ⟨RING.LINE_STAT.off, 9, 9⟩
abbrev RING.LINE_STAT.DEG_EVT_A : Fld := ⟨RING.LINE_STAT.off, 8, 8⟩
abbrev RING.LINE_STAT.DEGRADED_B : Fld := ⟨RING.LINE_STAT.off, 5, 5⟩
abbrev RING.LINE_STAT.DEGRADED_A : Fld := ⟨RING.LINE_STAT.off, 4, 4⟩
abbrev RING.LINE_STAT.FRAMES_B : Fld := ⟨RING.LINE_STAT.off, 1, 1⟩
abbrev RING.LINE_STAT.FRAMES_A : Fld := ⟨RING.LINE_STAT.off, 0, 0⟩
/-- Offset of RING.FRM_ERR_A (R110). -/
abbrev RING.FRM_ERR_A.off : Nat := 0x03114
abbrev RING.FRM_ERR_A.HDR_MISMATCH : Fld := ⟨RING.FRM_ERR_A.off, 31, 24⟩
abbrev RING.FRM_ERR_A.HDR_CHK : Fld := ⟨RING.FRM_ERR_A.off, 23, 16⟩
abbrev RING.FRM_ERR_A.TRUNC : Fld := ⟨RING.FRM_ERR_A.off, 15, 8⟩
abbrev RING.FRM_ERR_A.MISSING : Fld := ⟨RING.FRM_ERR_A.off, 7, 0⟩
/-- Offset of RING.FRM_ERR_B (R110). -/
abbrev RING.FRM_ERR_B.off : Nat := 0x03118
abbrev RING.FRM_ERR_B.HDR_MISMATCH : Fld := ⟨RING.FRM_ERR_B.off, 31, 24⟩
abbrev RING.FRM_ERR_B.HDR_CHK : Fld := ⟨RING.FRM_ERR_B.off, 23, 16⟩
abbrev RING.FRM_ERR_B.TRUNC : Fld := ⟨RING.FRM_ERR_B.off, 15, 8⟩
abbrev RING.FRM_ERR_B.MISSING : Fld := ⟨RING.FRM_ERR_B.off, 7, 0⟩
/-- Offset of RING.TRL_STAT (R110). -/
abbrev RING.TRL_STAT.off : Nat := 0x0311C
abbrev RING.TRL_STAT.END_POS_B : Fld := ⟨RING.TRL_STAT.off, 29, 24⟩
abbrev RING.TRL_STAT.END_POS_A : Fld := ⟨RING.TRL_STAT.off, 21, 16⟩
abbrev RING.TRL_STAT.BAD_POS_B : Fld := ⟨RING.TRL_STAT.off, 13, 8⟩
abbrev RING.TRL_STAT.BAD_POS_A : Fld := ⟨RING.TRL_STAT.off, 5, 0⟩
/-- Offset of RING.FAIL_MAP_A (R110). -/
abbrev RING.FAIL_MAP_A.off : Nat := 0x03120
abbrev RING.FAIL_MAP_A.MAP : Fld := ⟨RING.FAIL_MAP_A.off, 31, 0⟩
/-- Offset of RING.FAIL_MAP_B (R110). -/
abbrev RING.FAIL_MAP_B.off : Nat := 0x03124
abbrev RING.FAIL_MAP_B.MAP : Fld := ⟨RING.FAIL_MAP_B.off, 31, 0⟩
/-- Offset of RING.CONCEAL_MAP (R110). -/
abbrev RING.CONCEAL_MAP.off : Nat := 0x03128
abbrev RING.CONCEAL_MAP.MAP : Fld := ⟨RING.CONCEAL_MAP.off, 31, 0⟩
/-- Offset of RING.CONCEAL_EVT (R110). -/
abbrev RING.CONCEAL_EVT.off : Nat := 0x0312C
abbrev RING.CONCEAL_EVT.EVT : Fld := ⟨RING.CONCEAL_EVT.off, 31, 0⟩
/-- Offset of RING.MERGE_DIFF (R110). -/
abbrev RING.MERGE_DIFF.off : Nat := 0x03130
abbrev RING.MERGE_DIFF.TAG_AGE : Fld := ⟨RING.MERGE_DIFF.off, 31, 16⟩
abbrev RING.MERGE_DIFF.DIFF : Fld := ⟨RING.MERGE_DIFF.off, 15, 0⟩
/-- Offset of RING.RELAY (R110). -/
abbrev RING.RELAY.off : Nat := 0x03134
abbrev RING.RELAY.LATE_FAIL : Fld := ⟨RING.RELAY.off, 31, 16⟩
abbrev RING.RELAY.LATE_CHECK : Fld := ⟨RING.RELAY.off, 15, 0⟩
/-- Offset of RING.CELL_TX (R110). -/
abbrev RING.CELL_TX.off : Nat := 0x03140
abbrev RING.CELL_TX.EXPIRED : Fld := ⟨RING.CELL_TX.off, 31, 16⟩
abbrev RING.CELL_TX.PLACED : Fld := ⟨RING.CELL_TX.off, 15, 0⟩
/-- Offset of RING.CELL_RX (R110). -/
abbrev RING.CELL_RX.off : Nat := 0x03144
abbrev RING.CELL_RX.DUP : Fld := ⟨RING.CELL_RX.off, 31, 16⟩
abbrev RING.CELL_RX.DELIVERED : Fld := ⟨RING.CELL_RX.off, 15, 0⟩
/-- Offset of RING.CELL_ERR (R110). -/
abbrev RING.CELL_ERR.off : Nat := 0x03148
abbrev RING.CELL_ERR.REASM : Fld := ⟨RING.CELL_ERR.off, 31, 24⟩
abbrev RING.CELL_ERR.KIND : Fld := ⟨RING.CELL_ERR.off, 23, 16⟩
abbrev RING.CELL_ERR.TAG : Fld := ⟨RING.CELL_ERR.off, 15, 8⟩
abbrev RING.CELL_ERR.CHK : Fld := ⟨RING.CELL_ERR.off, 7, 0⟩
/-- Offset of RING.CELL_CFG (R110). -/
abbrev RING.CELL_CFG.off : Nat := 0x0314C
abbrev RING.CELL_CFG.ENC_REQ : Fld := ⟨RING.CELL_CFG.off, 6, 1⟩
/-- Offset of RING.NONCE (R110). -/
abbrev RING.NONCE.off : Nat := 0x03150
abbrev RING.NONCE.CTR : Fld := ⟨RING.NONCE.off, 31, 0⟩
/-- Offset of RING.RXHIST_BASE (R110). -/
abbrev RING.RXHIST_BASE.off : Nat := 0x03160
abbrev RING.RXHIST_BASE.BASE : Fld := ⟨RING.RXHIST_BASE.off, 31, 0⟩
/-- Offset of RING.RXHIST_SLOT (R110). -/
abbrev RING.RXHIST_SLOT.off : Nat := 0x03164
abbrev RING.RXHIST_SLOT.SLOT : Fld := ⟨RING.RXHIST_SLOT.off, 7, 0⟩
/-- Offset of RING.RCHKp (R110). `n` from 1 to 32. -/
abbrev RING.RCHK.off (n : Nat) : Nat := 0x03200 + 0x4 * (n - 1)
abbrev RING.RCHK.CONCEAL (n : Nat) : Fld := ⟨RING.RCHK.off n, 31, 16⟩
abbrev RING.RCHK.FAIL_B (n : Nat) : Fld := ⟨RING.RCHK.off n, 15, 8⟩
abbrev RING.RCHK.FAIL_A (n : Nat) : Fld := ⟨RING.RCHK.off n, 7, 0⟩
/-- Offset of RING.WAFER_OWNm (R110). `n` from 0 to 15. -/
abbrev RING.WAFER_OWN.off (n : Nat) : Nat := 0x03300 + 0x4 * n
abbrev RING.WAFER_OWN.OWN (n : Nat) : Fld := ⟨RING.WAFER_OWN.off n, 31, 0⟩
/-- Offset of RING.PU_OWNm (R110). `n` from 0 to 3. -/
abbrev RING.PU_OWN.off (n : Nat) : Nat := 0x03340 + 0x4 * n
abbrev RING.PU_OWN.OWN (n : Nat) : Fld := ⟨RING.PU_OWN.off n, 31, 0⟩
/-- Offset of RING.OWN_CNT (R110). -/
abbrev RING.OWN_CNT.off : Nat := 0x03350
abbrev RING.OWN_CNT.CTRL : Fld := ⟨RING.OWN_CNT.off, 16, 16⟩
abbrev RING.OWN_CNT.UNITS : Fld := ⟨RING.OWN_CNT.off, 15, 8⟩
abbrev RING.OWN_CNT.WAFERS : Fld := ⟨RING.OWN_CNT.off, 7, 0⟩
/-- Offset of RING.SYNC_OWN (R110). -/
abbrev RING.SYNC_OWN.off : Nat := 0x03354
abbrev RING.SYNC_OWN.SYNC_NODE : Fld := ⟨RING.SYNC_OWN.off, 4, 4⟩
abbrev RING.SYNC_OWN.ENTRY : Fld := ⟨RING.SYNC_OWN.off, 2, 0⟩
/-- Offset of RING.INAUG_STAT (R158). -/
abbrev RING.INAUG_STAT.off : Nat := 0x03400
abbrev RING.INAUG_STAT.COUNT_B : Fld := ⟨RING.INAUG_STAT.off, 29, 24⟩
abbrev RING.INAUG_STAT.COUNT_A : Fld := ⟨RING.INAUG_STAT.off, 21, 16⟩
abbrev RING.INAUG_STAT.ISTATE : Fld := ⟨RING.INAUG_STAT.off, 11, 8⟩
abbrev RING.INAUG_STAT.SW_PEND : Fld := ⟨RING.INAUG_STAT.off, 7, 7⟩
abbrev RING.INAUG_STAT.PHASE : Fld := ⟨RING.INAUG_STAT.off, 3, 0⟩
/-- Offset of RING.INAUG_CFG (R158). -/
abbrev RING.INAUG_CFG.off : Nat := 0x03404
abbrev RING.INAUG_CFG.SWITCH_LEAD : Fld := ⟨RING.INAUG_CFG.off, 15, 8⟩
abbrev RING.INAUG_CFG.RANK : Fld := ⟨RING.INAUG_CFG.off, 3, 0⟩
/-- Offset of RING.INAUG_EVT (R158). -/
abbrev RING.INAUG_EVT.off : Nat := 0x03408
abbrev RING.INAUG_EVT.TOO_MANY : Fld := ⟨RING.INAUG_EVT.off, 7, 7⟩
abbrev RING.INAUG_EVT.AUTH_REJECT : Fld := ⟨RING.INAUG_EVT.off, 6, 6⟩
abbrev RING.INAUG_EVT.DUP_UID : Fld := ⟨RING.INAUG_EVT.off, 5, 5⟩
abbrev RING.INAUG_EVT.MERGE : Fld := ⟨RING.INAUG_EVT.off, 4, 4⟩
abbrev RING.INAUG_EVT.SHRINK : Fld := ⟨RING.INAUG_EVT.off, 3, 3⟩
abbrev RING.INAUG_EVT.ABANDON : Fld := ⟨RING.INAUG_EVT.off, 2, 2⟩
abbrev RING.INAUG_EVT.DONE : Fld := ⟨RING.INAUG_EVT.off, 1, 1⟩
abbrev RING.INAUG_EVT.START : Fld := ⟨RING.INAUG_EVT.off, 0, 0⟩
/-- Offset of RING.INAUG_CNT (R158). -/
abbrev RING.INAUG_CNT.off : Nat := 0x0340C
abbrev RING.INAUG_CNT.ABANDONED : Fld := ⟨RING.INAUG_CNT.off, 31, 16⟩
abbrev RING.INAUG_CNT.COMPLETED : Fld := ⟨RING.INAUG_CNT.off, 15, 0⟩
/-- Offset of RING.INAUG_TIME (R158). -/
abbrev RING.INAUG_TIME.off : Nat := 0x03410
abbrev RING.INAUG_TIME.LIVE_TICKS : Fld := ⟨RING.INAUG_TIME.off, 31, 16⟩
abbrev RING.INAUG_TIME.COMPUTE : Fld := ⟨RING.INAUG_TIME.off, 15, 0⟩
/-- Offset of RING.SWITCH_TSEQ (R158). -/
abbrev RING.SWITCH_TSEQ.off : Nat := 0x03414
abbrev RING.SWITCH_TSEQ.TSEQ : Fld := ⟨RING.SWITCH_TSEQ.off, 31, 0⟩
/-- Offset of RING.PEND (R158). -/
abbrev RING.PEND.off : Nat := 0x03418
abbrev RING.PEND.NEW_TOPO : Fld := ⟨RING.PEND.off, 31, 16⟩
abbrev RING.PEND.NEW_LAYOUT : Fld := ⟨RING.PEND.off, 15, 0⟩
/-- Offset of RING.HOPIDX (R158). -/
abbrev RING.HOPIDX.off : Nat := 0x0341C
abbrev RING.HOPIDX.FACING_B : Fld := ⟨RING.HOPIDX.off, 15, 15⟩
abbrev RING.HOPIDX.HOPIDX_B : Fld := ⟨RING.HOPIDX.off, 13, 8⟩
abbrev RING.HOPIDX.FACING_A : Fld := ⟨RING.HOPIDX.off, 7, 7⟩
abbrev RING.HOPIDX.HOPIDX_A : Fld := ⟨RING.HOPIDX.off, 5, 0⟩
/-- Offset of RING.LOOP_A (R158). -/
abbrev RING.LOOP_A.off : Nat := 0x03420
abbrev RING.LOOP_A.LOOP_UI : Fld := ⟨RING.LOOP_A.off, 15, 0⟩
/-- Offset of RING.LOOP_B (R158). -/
abbrev RING.LOOP_B.off : Nat := 0x03424
abbrev RING.LOOP_B.LOOP_UI : Fld := ⟨RING.LOOP_B.off, 15, 0⟩
/-- Offset of RING.TIME_STEP (R158). -/
abbrev RING.TIME_STEP.off : Nat := 0x03428
abbrev RING.TIME_STEP.STEP_NS : Fld := ⟨RING.TIME_STEP.off, 31, 0⟩
/-- Offset of RING.DUP_UID_LO (R158). -/
abbrev RING.DUP_UID_LO.off : Nat := 0x0342C
abbrev RING.DUP_UID_LO.UID : Fld := ⟨RING.DUP_UID_LO.off, 31, 0⟩
/-- Offset of RING.DUP_UID_HI (R158). -/
abbrev RING.DUP_UID_HI.off : Nat := 0x03430
abbrev RING.DUP_UID_HI.UID : Fld := ⟨RING.DUP_UID_HI.off, 31, 0⟩
/-- Offset of RING.HOPDLYp (R158). `n` from 1 to 31. -/
abbrev RING.HOPDLY.off (n : Nat) : Nat := 0x03440 + 0x4 * (n - 1)
abbrev RING.HOPDLY.VALID (n : Nat) : Fld := ⟨RING.HOPDLY.off n, 31, 31⟩
abbrev RING.HOPDLY.DELAY (n : Nat) : Fld := ⟨RING.HOPDLY.off n, 15, 0⟩
/-- Offset of RING.MERGE_STAT (R158). -/
abbrev RING.MERGE_STAT.off : Nat := 0x034C0
abbrev RING.MERGE_STAT.ATTEMPTS : Fld := ⟨RING.MERGE_STAT.off, 31, 24⟩
abbrev RING.MERGE_STAT.PARTNER_COUNT : Fld := ⟨RING.MERGE_STAT.off, 23, 16⟩
abbrev RING.MERGE_STAT.RESULT : Fld := ⟨RING.MERGE_STAT.off, 7, 4⟩
abbrev RING.MERGE_STAT.LINK : Fld := ⟨RING.MERGE_STAT.off, 1, 0⟩
/-- Offset of RING.HS_CNT (R158). -/
abbrev RING.HS_CNT.off : Nat := 0x034C4
abbrev RING.HS_CNT.RX : Fld := ⟨RING.HS_CNT.off, 31, 16⟩
abbrev RING.HS_CNT.TX : Fld := ⟨RING.HS_CNT.off, 15, 0⟩
/-- Offset of RING.HS_ERR (R158). -/
abbrev RING.HS_ERR.off : Nat := 0x034C8
abbrev RING.HS_ERR.TAG : Fld := ⟨RING.HS_ERR.off, 15, 8⟩
abbrev RING.HS_ERR.CHK : Fld := ⟨RING.HS_ERR.off, 7, 0⟩

/-! ## SYNC -/

/-- Offset of SYNC.STAT (R184). -/
abbrev SYNC.STAT.off : Nat := 0x04000
abbrev SYNC.STAT.LOCK_CNT : Fld := ⟨SYNC.STAT.off, 21, 16⟩
abbrev SYNC.STAT.K : Fld := ⟨SYNC.STAT.off, 13, 12⟩
abbrev SYNC.STAT.N : Fld := ⟨SYNC.STAT.off, 11, 8⟩
abbrev SYNC.STAT.RATE_CLAMP : Fld := ⟨SYNC.STAT.off, 4, 4⟩
abbrev SYNC.STAT.WIDE : Fld := ⟨SYNC.STAT.off, 3, 3⟩
abbrev SYNC.STAT.HOLDOVER : Fld := ⟨SYNC.STAT.off, 2, 2⟩
abbrev SYNC.STAT.STATE : Fld := ⟨SYNC.STAT.off, 1, 0⟩
/-- Offset of SYNC.CFG (R184). -/
abbrev SYNC.CFG.off : Nat := 0x04004
abbrev SYNC.CFG.RG_SHIFT : Fld := ⟨SYNC.CFG.off, 30, 28⟩
abbrev SYNC.CFG.OUTLIER_NS : Fld := ⟨SYNC.CFG.off, 26, 16⟩
abbrev SYNC.CFG.LOCK_NS : Fld := ⟨SYNC.CFG.off, 9, 0⟩
/-- Offset of SYNC.HOLD (R184). -/
abbrev SYNC.HOLD.off : Nat := 0x04008
abbrev SYNC.HOLD.HOLD_ROUNDS : Fld := ⟨SYNC.HOLD.off, 9, 0⟩
/-- Offset of SYNC.OFFSET (R184). -/
abbrev SYNC.OFFSET.off : Nat := 0x04010
abbrev SYNC.OFFSET.RESULT : Fld := ⟨SYNC.OFFSET.off, 31, 0⟩
/-- Offset of SYNC.RATE (R184). -/
abbrev SYNC.RATE.off : Nat := 0x04014
abbrev SYNC.RATE.PPB : Fld := ⟨SYNC.RATE.off, 31, 0⟩
/-- Offset of SYNC.SLEW_REM (R184). -/
abbrev SYNC.SLEW_REM.off : Nat := 0x04018
abbrev SYNC.SLEW_REM.REM : Fld := ⟨SYNC.SLEW_REM.off, 31, 0⟩
/-- Offset of SYNC.TIME_LO (R184). -/
abbrev SYNC.TIME_LO.off : Nat := 0x04020
abbrev SYNC.TIME_LO.NS : Fld := ⟨SYNC.TIME_LO.off, 31, 0⟩
/-- Offset of SYNC.TIME_HI (R184). -/
abbrev SYNC.TIME_HI.off : Nat := 0x04024
abbrev SYNC.TIME_HI.NS : Fld := ⟨SYNC.TIME_HI.off, 31, 0⟩
/-- Offset of SYNC.EVT (R184). -/
abbrev SYNC.EVT.off : Nat := 0x04028
abbrev SYNC.EVT.STEP : Fld := ⟨SYNC.EVT.off, 2, 2⟩
abbrev SYNC.EVT.LOST : Fld := ⟨SYNC.EVT.off, 1, 1⟩
abbrev SYNC.EVT.LOCK : Fld := ⟨SYNC.EVT.off, 0, 0⟩
/-- Offset of SYNC.CNT (R184). -/
abbrev SYNC.CNT.off : Nat := 0x0402C
abbrev SYNC.CNT.LOST_CNT : Fld := ⟨SYNC.CNT.off, 31, 16⟩
abbrev SYNC.CNT.STEP_CNT : Fld := ⟨SYNC.CNT.off, 15, 0⟩
/-- Offset of SYNC.STEP_LAST (R184). -/
abbrev SYNC.STEP_LAST.off : Nat := 0x04030
abbrev SYNC.STEP_LAST.STEP_NS : Fld := ⟨SYNC.STEP_LAST.off, 31, 0⟩
/-- Offset of SYNC.ENT_DEVe (R184). `n` from 0 to 7. -/
abbrev SYNC.ENT_DEV.off (n : Nat) : Nat := 0x04040 + 0x10 * n
abbrev SYNC.ENT_DEV.DEV (n : Nat) : Fld := ⟨SYNC.ENT_DEV.off n, 31, 0⟩
/-- Offset of SYNC.ENT_STATe (R184). `n` from 0 to 7. -/
abbrev SYNC.ENT_STAT.off (n : Nat) : Nat := 0x04044 + 0x10 * n
abbrev SYNC.ENT_STAT.POS (n : Nat) : Fld := ⟨SYNC.ENT_STAT.off n, 21, 16⟩
abbrev SYNC.ENT_STAT.OUTLIER (n : Nat) : Fld := ⟨SYNC.ENT_STAT.off n, 10, 10⟩
abbrev SYNC.ENT_STAT.STATUS (n : Nat) : Fld := ⟨SYNC.ENT_STAT.off n, 9, 8⟩
abbrev SYNC.ENT_STAT.SAMPLES (n : Nat) : Fld := ⟨SYNC.ENT_STAT.off n, 5, 0⟩
/-- Offset of SYNC.ENT_CNTe (R184). `n` from 0 to 7. -/
abbrev SYNC.ENT_CNT.off (n : Nat) : Nat := 0x04048 + 0x10 * n
abbrev SYNC.ENT_CNT.OUTLIER_CNT (n : Nat) : Fld := ⟨SYNC.ENT_CNT.off n, 31, 16⟩
abbrev SYNC.ENT_CNT.CHK_FAIL (n : Nat) : Fld := ⟨SYNC.ENT_CNT.off n, 15, 0⟩
/-- Offset of SYNC.OUTLIER_EVT (R184). -/
abbrev SYNC.OUTLIER_EVT.off : Nat := 0x040C0
abbrev SYNC.OUTLIER_EVT.EVT : Fld := ⟨SYNC.OUTLIER_EVT.off, 7, 0⟩
/-- Offset of SYNC.PTP_CFG (R184). -/
abbrev SYNC.PTP_CFG.off : Nat := 0x040D0
abbrev SYNC.PTP_CFG.MODE : Fld := ⟨SYNC.PTP_CFG.off, 0, 0⟩
/-- Offset of SYNC.PTP_OFS_LO (R184). -/
abbrev SYNC.PTP_OFS_LO.off : Nat := 0x040D4
abbrev SYNC.PTP_OFS_LO.OFS : Fld := ⟨SYNC.PTP_OFS_LO.off, 31, 0⟩
/-- Offset of SYNC.PTP_OFS_HI (R184). -/
abbrev SYNC.PTP_OFS_HI.off : Nat := 0x040D8
abbrev SYNC.PTP_OFS_HI.OFS : Fld := ⟨SYNC.PTP_OFS_HI.off, 31, 0⟩
/-- Offset of SYNC.PTP_DIFF (R184). -/
abbrev SYNC.PTP_DIFF.off : Nat := 0x040DC
abbrev SYNC.PTP_DIFF.DIFF : Fld := ⟨SYNC.PTP_DIFF.off, 31, 0⟩
/-- Offset of SYNC.PTP_RATIO (R184). -/
abbrev SYNC.PTP_RATIO.off : Nat := 0x040E0
abbrev SYNC.PTP_RATIO.PPB : Fld := ⟨SYNC.PTP_RATIO.off, 31, 0⟩
/-- Offset of SYNC.MCLK_STAT (R184). -/
abbrev SYNC.MCLK_STAT.off : Nat := 0x040F0
abbrev SYNC.MCLK_STAT.PHASE_ERR : Fld := ⟨SYNC.MCLK_STAT.off, 15, 8⟩
abbrev SYNC.MCLK_STAT.PLL_LOCK : Fld := ⟨SYNC.MCLK_STAT.off, 0, 0⟩

/-! ## RED -/

/-- Offset of RED.STAT (R210). -/
abbrev RED.STAT.off : Nat := 0x05000
abbrev RED.STAT.PATH : Fld := ⟨RED.STAT.off, 13, 12⟩
abbrev RED.STAT.CAN_HB : Fld := ⟨RED.STAT.off, 11, 11⟩
abbrev RED.STAT.RING_HB : Fld := ⟨RED.STAT.off, 10, 10⟩
abbrev RED.STAT.SHORT_B : Fld := ⟨RED.STAT.off, 9, 9⟩
abbrev RED.STAT.SHORT_A : Fld := ⟨RED.STAT.off, 8, 8⟩
abbrev RED.STAT.HOT : Fld := ⟨RED.STAT.off, 6, 6⟩
abbrev RED.STAT.TWIN : Fld := ⟨RED.STAT.off, 5, 4⟩
abbrev RED.STAT.MROLE : Fld := ⟨RED.STAT.off, 1, 0⟩
/-- Offset of RED.EVT (R210). -/
abbrev RED.EVT.off : Nat := 0x05004
abbrev RED.EVT.HANDOVER : Fld := ⟨RED.EVT.off, 10, 10⟩
abbrev RED.EVT.TWIN_DIVERGE : Fld := ⟨RED.EVT.off, 9, 9⟩
abbrev RED.EVT.TWIN_SPLIT : Fld := ⟨RED.EVT.off, 8, 8⟩
abbrev RED.EVT.TWIN_LOSS : Fld := ⟨RED.EVT.off, 7, 7⟩
abbrev RED.EVT.SHORT : Fld := ⟨RED.EVT.off, 6, 6⟩
abbrev RED.EVT.CUT_OFF : Fld := ⟨RED.EVT.off, 5, 5⟩
abbrev RED.EVT.PATH_CAN : Fld := ⟨RED.EVT.off, 4, 4⟩
abbrev RED.EVT.PATH_RING : Fld := ⟨RED.EVT.off, 3, 3⟩
abbrev RED.EVT.DUAL_ACTIVE : Fld := ⟨RED.EVT.off, 2, 2⟩
abbrev RED.EVT.TAKEOVER : Fld := ⟨RED.EVT.off, 1, 1⟩
abbrev RED.EVT.MASTER_FAIL : Fld := ⟨RED.EVT.off, 0, 0⟩
/-- Offset of RED.HB (R210). -/
abbrev RED.HB.off : Nat := 0x05008
abbrev RED.HB.RING_SILENT : Fld := ⟨RED.HB.off, 31, 16⟩
abbrev RED.HB.CAN_SILENT : Fld := ⟨RED.HB.off, 15, 0⟩
/-- Offset of RED.MASTER_LO (R210). -/
abbrev RED.MASTER_LO.off : Nat := 0x0500C
abbrev RED.MASTER_LO.UID : Fld := ⟨RED.MASTER_LO.off, 31, 0⟩
/-- Offset of RED.MASTER_HI (R210). -/
abbrev RED.MASTER_HI.off : Nat := 0x05010
abbrev RED.MASTER_HI.UID : Fld := ⟨RED.MASTER_HI.off, 31, 0⟩
/-- Offset of RED.EPOCH (R210). -/
abbrev RED.EPOCH.off : Nat := 0x05014
abbrev RED.EPOCH.FOLLOWED : Fld := ⟨RED.EPOCH.off, 31, 16⟩
abbrev RED.EPOCH.SAVED : Fld := ⟨RED.EPOCH.off, 15, 0⟩
/-- Offset of RED.STANDBY_LO (R210). -/
abbrev RED.STANDBY_LO.off : Nat := 0x05018
abbrev RED.STANDBY_LO.UID : Fld := ⟨RED.STANDBY_LO.off, 31, 0⟩
/-- Offset of RED.STANDBY_HI (R210). -/
abbrev RED.STANDBY_HI.off : Nat := 0x0501C
abbrev RED.STANDBY_HI.UID : Fld := ⟨RED.STANDBY_HI.off, 31, 0⟩
/-- Offset of RED.REACH_A (R210). -/
abbrev RED.REACH_A.off : Nat := 0x05020
abbrev RED.REACH_A.MAP : Fld := ⟨RED.REACH_A.off, 31, 0⟩
/-- Offset of RED.REACH_B (R210). -/
abbrev RED.REACH_B.off : Nat := 0x05024
abbrev RED.REACH_B.MAP : Fld := ⟨RED.REACH_B.off, 31, 0⟩
/-- Offset of RED.TAKEOVER (R210). -/
abbrev RED.TAKEOVER.off : Nat := 0x05028
abbrev RED.TAKEOVER.GAP_TICKS : Fld := ⟨RED.TAKEOVER.off, 31, 16⟩
abbrev RED.TAKEOVER.LAUNCH_10US : Fld := ⟨RED.TAKEOVER.off, 15, 0⟩
/-- Offset of RED.DUAL (R210). -/
abbrev RED.DUAL.off : Nat := 0x0502C
abbrev RED.DUAL.CNT : Fld := ⟨RED.DUAL.off, 31, 16⟩
abbrev RED.DUAL.LAST_TICKS : Fld := ⟨RED.DUAL.off, 2, 0⟩
/-- Offset of RED.CNT (R210). -/
abbrev RED.CNT.off : Nat := 0x05030
abbrev RED.CNT.TAKEOVERS : Fld := ⟨RED.CNT.off, 31, 16⟩
abbrev RED.CNT.FAILS : Fld := ⟨RED.CNT.off, 15, 0⟩
/-- Offset of RED.PATH_CNT (R210). -/
abbrev RED.PATH_CNT.off : Nat := 0x05034
abbrev RED.PATH_CNT.RING_PATH : Fld := ⟨RED.PATH_CNT.off, 31, 16⟩
abbrev RED.PATH_CNT.CAN_PATH : Fld := ⟨RED.PATH_CNT.off, 15, 0⟩
/-- Offset of RED.TWIN_CFG (R210). -/
abbrev RED.TWIN_CFG.off : Nat := 0x05040
abbrev RED.TWIN_CFG.HOT : Fld := ⟨RED.TWIN_CFG.off, 2, 2⟩
abbrev RED.TWIN_CFG.LEAD : Fld := ⟨RED.TWIN_CFG.off, 1, 1⟩
abbrev RED.TWIN_CFG.EN : Fld := ⟨RED.TWIN_CFG.off, 0, 0⟩
/-- Offset of RED.TWIN_PART_LO (R210). -/
abbrev RED.TWIN_PART_LO.off : Nat := 0x05044
abbrev RED.TWIN_PART_LO.UID : Fld := ⟨RED.TWIN_PART_LO.off, 31, 0⟩
/-- Offset of RED.TWIN_PART_HI (R210). -/
abbrev RED.TWIN_PART_HI.off : Nat := 0x05048
abbrev RED.TWIN_PART_HI.UID : Fld := ⟨RED.TWIN_PART_HI.off, 31, 0⟩
/-- Offset of RED.TWIN_STAT (R210). -/
abbrev RED.TWIN_STAT.off : Nat := 0x0504C
abbrev RED.TWIN_STAT.REC_BYTES : Fld := ⟨RED.TWIN_STAT.off, 28, 16⟩
abbrev RED.TWIN_STAT.RESYNC : Fld := ⟨RED.TWIN_STAT.off, 4, 4⟩
abbrev RED.TWIN_STAT.RECORD_OK : Fld := ⟨RED.TWIN_STAT.off, 3, 3⟩
abbrev RED.TWIN_STAT.MIRROR : Fld := ⟨RED.TWIN_STAT.off, 2, 2⟩
abbrev RED.TWIN_STAT.PAIR1_UP : Fld := ⟨RED.TWIN_STAT.off, 1, 1⟩
abbrev RED.TWIN_STAT.PAIR0_UP : Fld := ⟨RED.TWIN_STAT.off, 0, 0⟩
/-- Offset of RED.TWIN_CNT (R210). -/
abbrev RED.TWIN_CNT.off : Nat := 0x05050
abbrev RED.TWIN_CNT.REC_MISS : Fld := ⟨RED.TWIN_CNT.off, 31, 16⟩
abbrev RED.TWIN_CNT.DIVERGE : Fld := ⟨RED.TWIN_CNT.off, 15, 0⟩
/-- Offset of RED.HANDOVER (R210). -/
abbrev RED.HANDOVER.off : Nat := 0x05060
abbrev RED.HANDOVER.TSEQ : Fld := ⟨RED.HANDOVER.off, 31, 0⟩

/-! ## AUD -/

/-- Offset of AUD.STAT (R257). -/
abbrev AUD.STAT.off : Nat := 0x06000
abbrev AUD.STAT.MCLK1_RUN : Fld := ⟨AUD.STAT.off, 17, 17⟩
abbrev AUD.STAT.MCLK0_RUN : Fld := ⟨AUD.STAT.off, 16, 16⟩
abbrev AUD.STAT.PORT_RUN : Fld := ⟨AUD.STAT.off, 15, 8⟩
abbrev AUD.STAT.MCLK_LOCK : Fld := ⟨AUD.STAT.off, 1, 1⟩
abbrev AUD.STAT.IO_ON : Fld := ⟨AUD.STAT.off, 0, 0⟩
/-- Offset of AUD.MCLK_CFG (R257). -/
abbrev AUD.MCLK_CFG.off : Nat := 0x06004
abbrev AUD.MCLK_CFG.MCLK1 : Fld := ⟨AUD.MCLK_CFG.off, 5, 4⟩
abbrev AUD.MCLK_CFG.MCLK0 : Fld := ⟨AUD.MCLK_CFG.off, 1, 0⟩
/-- Offset of AUD.TDM_CFGn (R257). `n` from 0 to 7. -/
abbrev AUD.TDM_CFG.off (n : Nat) : Nat := 0x06040 + 0x20 * n
abbrev AUD.TDM_CFG.TRISTATE (n : Nat) : Fld := ⟨AUD.TDM_CFG.off n, 11, 11⟩
abbrev AUD.TDM_CFG.FS_INV (n : Nat) : Fld := ⟨AUD.TDM_CFG.off n, 10, 10⟩
abbrev AUD.TDM_CFG.BCLK_INV (n : Nat) : Fld := ⟨AUD.TDM_CFG.off n, 9, 9⟩
abbrev AUD.TDM_CFG.FS_FORM (n : Nat) : Fld := ⟨AUD.TDM_CFG.off n, 8, 8⟩
abbrev AUD.TDM_CFG.DELAY (n : Nat) : Fld := ⟨AUD.TDM_CFG.off n, 7, 7⟩
abbrev AUD.TDM_CFG.SAMPLE_W (n : Nat) : Fld := ⟨AUD.TDM_CFG.off n, 6, 6⟩
abbrev AUD.TDM_CFG.SLOTS (n : Nat) : Fld := ⟨AUD.TDM_CFG.off n, 5, 4⟩
abbrev AUD.TDM_CFG.SYNC_MODE (n : Nat) : Fld := ⟨AUD.TDM_CFG.off n, 2, 2⟩
abbrev AUD.TDM_CFG.DIR (n : Nat) : Fld := ⟨AUD.TDM_CFG.off n, 1, 1⟩
abbrev AUD.TDM_CFG.EN (n : Nat) : Fld := ⟨AUD.TDM_CFG.off n, 0, 0⟩
/-- Offset of AUD.TDM_STATn (R257). `n` from 0 to 7. -/
abbrev AUD.TDM_STAT.off (n : Nat) : Nat := 0x06044 + 0x20 * n
abbrev AUD.TDM_STAT.ADJ_CNT (n : Nat) : Fld := ⟨AUD.TDM_STAT.off n, 31, 16⟩
abbrev AUD.TDM_STAT.PIN_FAULT (n : Nat) : Fld := ⟨AUD.TDM_STAT.off n, 2, 2⟩
abbrev AUD.TDM_STAT.RUN (n : Nat) : Fld := ⟨AUD.TDM_STAT.off n, 0, 0⟩
/-- Offset of AUD.TDM_ERRn (R257). `n` from 0 to 7. -/
abbrev AUD.TDM_ERR.off (n : Nat) : Nat := 0x06048 + 0x20 * n
abbrev AUD.TDM_ERR.PIN_FAULT_CNT (n : Nat) : Fld := ⟨AUD.TDM_ERR.off n, 31, 16⟩
abbrev AUD.TDM_ERR.IN_CLIP (n : Nat) : Fld := ⟨AUD.TDM_ERR.off n, 15, 0⟩
/-- Offset of AUD.PDM_CFG (R257). -/
abbrev AUD.PDM_CFG.off : Nat := 0x06140
abbrev AUD.PDM_CFG.HPF_EN : Fld := ⟨AUD.PDM_CFG.off, 16, 16⟩
abbrev AUD.PDM_CFG.MIC_EN : Fld := ⟨AUD.PDM_CFG.off, 15, 0⟩
/-- Offset of AUD.PDM_STAT (R257). -/
abbrev AUD.PDM_STAT.off : Nat := 0x06144
abbrev AUD.PDM_STAT.CLK_RUN : Fld := ⟨AUD.PDM_STAT.off, 19, 16⟩
abbrev AUD.PDM_STAT.MIC_STUCK : Fld := ⟨AUD.PDM_STAT.off, 15, 0⟩
/-- Offset of AUD.HDMA_CTRL (R257). -/
abbrev AUD.HDMA_CTRL.off : Nat := 0x06180
abbrev AUD.HDMA_CTRL.DEPTH : Fld := ⟨AUD.HDMA_CTRL.off, 27, 16⟩
abbrev AUD.HDMA_CTRL.CAP_EN : Fld := ⟨AUD.HDMA_CTRL.off, 1, 1⟩
abbrev AUD.HDMA_CTRL.PLAY_EN : Fld := ⟨AUD.HDMA_CTRL.off, 0, 0⟩
/-- Offset of AUD.HDMA_PLAY_LO (R257). -/
abbrev AUD.HDMA_PLAY_LO.off : Nat := 0x06184
abbrev AUD.HDMA_PLAY_LO.ADDR : Fld := ⟨AUD.HDMA_PLAY_LO.off, 31, 0⟩
/-- Offset of AUD.HDMA_PLAY_HI (R257). -/
abbrev AUD.HDMA_PLAY_HI.off : Nat := 0x06188
abbrev AUD.HDMA_PLAY_HI.ADDR : Fld := ⟨AUD.HDMA_PLAY_HI.off, 31, 0⟩
/-- Offset of AUD.HDMA_CAP_LO (R257). -/
abbrev AUD.HDMA_CAP_LO.off : Nat := 0x0618C
abbrev AUD.HDMA_CAP_LO.ADDR : Fld := ⟨AUD.HDMA_CAP_LO.off, 31, 0⟩
/-- Offset of AUD.HDMA_CAP_HI (R257). -/
abbrev AUD.HDMA_CAP_HI.off : Nat := 0x06190
abbrev AUD.HDMA_CAP_HI.ADDR : Fld := ⟨AUD.HDMA_CAP_HI.off, 31, 0⟩
/-- Offset of AUD.HDMA_PLAY_IDX (R257). -/
abbrev AUD.HDMA_PLAY_IDX.off : Nat := 0x06194
abbrev AUD.HDMA_PLAY_IDX.WR : Fld := ⟨AUD.HDMA_PLAY_IDX.off, 27, 16⟩
abbrev AUD.HDMA_PLAY_IDX.RD : Fld := ⟨AUD.HDMA_PLAY_IDX.off, 11, 0⟩
/-- Offset of AUD.HDMA_CAP_IDX (R257). -/
abbrev AUD.HDMA_CAP_IDX.off : Nat := 0x06198
abbrev AUD.HDMA_CAP_IDX.RD : Fld := ⟨AUD.HDMA_CAP_IDX.off, 27, 16⟩
abbrev AUD.HDMA_CAP_IDX.WR : Fld := ⟨AUD.HDMA_CAP_IDX.off, 11, 0⟩
/-- Offset of AUD.HDMA_CAP_TSEQ (R257). -/
abbrev AUD.HDMA_CAP_TSEQ.off : Nat := 0x0619C
abbrev AUD.HDMA_CAP_TSEQ.TSEQ : Fld := ⟨AUD.HDMA_CAP_TSEQ.off, 31, 0⟩
/-- Offset of AUD.HDMA_CNT (R257). -/
abbrev AUD.HDMA_CNT.off : Nat := 0x061A0
abbrev AUD.HDMA_CNT.UNDERRUN : Fld := ⟨AUD.HDMA_CNT.off, 31, 16⟩
abbrev AUD.HDMA_CNT.OVERRUN : Fld := ⟨AUD.HDMA_CNT.off, 15, 8⟩
abbrev AUD.HDMA_CNT.LATE : Fld := ⟨AUD.HDMA_CNT.off, 7, 0⟩
/-- Offset of AUD.PORT_EVT (R257). -/
abbrev AUD.PORT_EVT.off : Nat := 0x06200
abbrev AUD.PORT_EVT.MCLK_UNLOCK : Fld := ⟨AUD.PORT_EVT.off, 12, 12⟩
abbrev AUD.PORT_EVT.HDMA_LATE : Fld := ⟨AUD.PORT_EVT.off, 11, 11⟩
abbrev AUD.PORT_EVT.HDMA_OVERRUN : Fld := ⟨AUD.PORT_EVT.off, 10, 10⟩
abbrev AUD.PORT_EVT.HDMA_UNDERRUN : Fld := ⟨AUD.PORT_EVT.off, 9, 9⟩
abbrev AUD.PORT_EVT.MIC_STUCK : Fld := ⟨AUD.PORT_EVT.off, 8, 8⟩
abbrev AUD.PORT_EVT.PIN_FAULT : Fld := ⟨AUD.PORT_EVT.off, 7, 0⟩
/-- Offset of AUD.CLIP_EVT (R257). -/
abbrev AUD.CLIP_EVT.off : Nat := 0x06204
abbrev AUD.CLIP_EVT.ZONE : Fld := ⟨AUD.CLIP_EVT.off, 31, 16⟩
abbrev AUD.CLIP_EVT.OUT_PORT : Fld := ⟨AUD.CLIP_EVT.off, 15, 8⟩
abbrev AUD.CLIP_EVT.IN_PORT : Fld := ⟨AUD.CLIP_EVT.off, 7, 0⟩
/-- Offset of AUD.CLIP_EVT2 (R257). -/
abbrev AUD.CLIP_EVT2.off : Nat := 0x06208
abbrev AUD.CLIP_EVT2.SEND : Fld := ⟨AUD.CLIP_EVT2.off, 16, 16⟩
abbrev AUD.CLIP_EVT2.MIC : Fld := ⟨AUD.CLIP_EVT2.off, 15, 0⟩
/-- Offset of AUD.STALE_EVT (R257). -/
abbrev AUD.STALE_EVT.off : Nat := 0x0620C
abbrev AUD.STALE_EVT.HOST : Fld := ⟨AUD.STALE_EVT.off, 24, 24⟩
abbrev AUD.STALE_EVT.OUT_PORT : Fld := ⟨AUD.STALE_EVT.off, 23, 16⟩
abbrev AUD.STALE_EVT.ZONE : Fld := ⟨AUD.STALE_EVT.off, 15, 0⟩
/-- Offset of AUD.STALE_MAP (R257). -/
abbrev AUD.STALE_MAP.off : Nat := 0x06210
abbrev AUD.STALE_MAP.HOST : Fld := ⟨AUD.STALE_MAP.off, 24, 24⟩
abbrev AUD.STALE_MAP.OUT_PORT : Fld := ⟨AUD.STALE_MAP.off, 23, 16⟩
abbrev AUD.STALE_MAP.ZONE : Fld := ⟨AUD.STALE_MAP.off, 15, 0⟩
/-- Offset of AUD.SEND_CLIP (R257). -/
abbrev AUD.SEND_CLIP.off : Nat := 0x06214
abbrev AUD.SEND_CLIP.COUNT : Fld := ⟨AUD.SEND_CLIP.off, 31, 0⟩
/-- Offset of AUD.METER_TDMc (R257). `n` from 0 to 127. -/
abbrev AUD.METER_TDM.off (n : Nat) : Nat := 0x06400 + 0x4 * n
abbrev AUD.METER_TDM.PEAK (n : Nat) : Fld := ⟨AUD.METER_TDM.off n, 31, 16⟩
abbrev AUD.METER_TDM.RMS (n : Nat) : Fld := ⟨AUD.METER_TDM.off n, 15, 8⟩
abbrev AUD.METER_TDM.CLIP (n : Nat) : Fld := ⟨AUD.METER_TDM.off n, 7, 0⟩
/-- Offset of AUD.METER_MICm (R257). `n` from 0 to 15. -/
abbrev AUD.METER_MIC.off (n : Nat) : Nat := 0x06600 + 0x4 * n
abbrev AUD.METER_MIC.PEAK (n : Nat) : Fld := ⟨AUD.METER_MIC.off n, 31, 16⟩
abbrev AUD.METER_MIC.RMS (n : Nat) : Fld := ⟨AUD.METER_MIC.off n, 15, 8⟩
abbrev AUD.METER_MIC.CLIP (n : Nat) : Fld := ⟨AUD.METER_MIC.off n, 7, 0⟩
/-- Offset of AUD.ZONE_STATz (R257). `n` from 0 to 15. -/
abbrev AUD.ZONE_STAT.off (n : Nat) : Nat := 0x06640 + 0x8 * n
abbrev AUD.ZONE_STAT.CAND_ACTIVE (n : Nat) : Fld := ⟨AUD.ZONE_STAT.off n, 31, 16⟩
abbrev AUD.ZONE_STAT.STALE (n : Nat) : Fld := ⟨AUD.ZONE_STAT.off n, 7, 7⟩
abbrev AUD.ZONE_STAT.DUCKING (n : Nat) : Fld := ⟨AUD.ZONE_STAT.off n, 6, 6⟩
abbrev AUD.ZONE_STAT.HOLD (n : Nat) : Fld := ⟨AUD.ZONE_STAT.off n, 5, 5⟩
abbrev AUD.ZONE_STAT.ACTIVE (n : Nat) : Fld := ⟨AUD.ZONE_STAT.off n, 3, 3⟩
abbrev AUD.ZONE_STAT.WIN_PRIO (n : Nat) : Fld := ⟨AUD.ZONE_STAT.off n, 2, 0⟩
/-- Offset of AUD.ZONE_METERz (R257). `n` from 0 to 15. -/
abbrev AUD.ZONE_METER.off (n : Nat) : Nat := 0x06644 + 0x8 * n
abbrev AUD.ZONE_METER.PEAK (n : Nat) : Fld := ⟨AUD.ZONE_METER.off n, 31, 16⟩
abbrev AUD.ZONE_METER.GR (n : Nat) : Fld := ⟨AUD.ZONE_METER.off n, 15, 8⟩
abbrev AUD.ZONE_METER.LIM_CLIP (n : Nat) : Fld := ⟨AUD.ZONE_METER.off n, 7, 0⟩
/-- Offset of AUD.STALE_CNTz (R257). `n` from 0 to 15. -/
abbrev AUD.STALE_CNT.off (n : Nat) : Nat := 0x066C0 + 0x4 * n
abbrev AUD.STALE_CNT.TICKS (n : Nat) : Fld := ⟨AUD.STALE_CNT.off n, 31, 0⟩
/-- Offset of AUD.AEC_EVT (R295). -/
abbrev AUD.AEC_EVT.off : Nat := 0x06800
abbrev AUD.AEC_EVT.RESET : Fld := ⟨AUD.AEC_EVT.off, 15, 8⟩
abbrev AUD.AEC_EVT.DIVERGE : Fld := ⟨AUD.AEC_EVT.off, 7, 0⟩
/-- Offset of AUD.AEC_STATe (R295). `n` from 0 to 7. -/
abbrev AUD.AEC_STAT.off (n : Nat) : Nat := 0x06840 + 0x8 * n
abbrev AUD.AEC_STAT.ERLE (n : Nat) : Fld := ⟨AUD.AEC_STAT.off n, 31, 24⟩
abbrev AUD.AEC_STAT.DTALK (n : Nat) : Fld := ⟨AUD.AEC_STAT.off n, 2, 2⟩
abbrev AUD.AEC_STAT.CONVERGED (n : Nat) : Fld := ⟨AUD.AEC_STAT.off n, 1, 1⟩
abbrev AUD.AEC_STAT.RUN (n : Nat) : Fld := ⟨AUD.AEC_STAT.off n, 0, 0⟩
/-- Offset of AUD.AEC_CNTe (R295). `n` from 0 to 7. -/
abbrev AUD.AEC_CNT.off (n : Nat) : Nat := 0x06844 + 0x8 * n
abbrev AUD.AEC_CNT.RESETS (n : Nat) : Fld := ⟨AUD.AEC_CNT.off n, 31, 16⟩
abbrev AUD.AEC_CNT.ABANDONED (n : Nat) : Fld := ⟨AUD.AEC_CNT.off n, 15, 0⟩
/-- Offset of AUD.FB_EVT (R295). -/
abbrev AUD.FB_EVT.off : Nat := 0x06880
abbrev AUD.FB_EVT.HOWL : Fld := ⟨AUD.FB_EVT.off, 15, 0⟩
/-- Offset of AUD.FB_MICm (R295). `n` from 0 to 15. -/
abbrev AUD.FB_MIC.off (n : Nat) : Nat := 0x068C0 + 0x4 * n
abbrev AUD.FB_MIC.NOTCH_SETS (n : Nat) : Fld := ⟨AUD.FB_MIC.off n, 31, 16⟩
abbrev AUD.FB_MIC.NOTCHES (n : Nat) : Fld := ⟨AUD.FB_MIC.off n, 3, 0⟩
/-- Offset of AUD.PMON_EVT (R295). -/
abbrev AUD.PMON_EVT.off : Nat := 0x06900
abbrev AUD.PMON_EVT.RECOVER : Fld := ⟨AUD.PMON_EVT.off, 31, 16⟩
abbrev AUD.PMON_EVT.DEGRADE : Fld := ⟨AUD.PMON_EVT.off, 15, 0⟩
/-- Offset of AUD.PMON_MAP (R295). -/
abbrev AUD.PMON_MAP.off : Nat := 0x06904
abbrev AUD.PMON_MAP.DEGRADED : Fld := ⟨AUD.PMON_MAP.off, 15, 0⟩
/-- Offset of AUD.PMON_GAINz (R295). `n` from 0 to 15. -/
abbrev AUD.PMON_GAIN.off (n : Nat) : Nat := 0x06940 + 0x8 * n
abbrev AUD.PMON_GAIN.REL_GAIN (n : Nat) : Fld := ⟨AUD.PMON_GAIN.off n, 31, 16⟩
abbrev AUD.PMON_GAIN.DELAY (n : Nat) : Fld := ⟨AUD.PMON_GAIN.off n, 15, 0⟩
/-- Offset of AUD.PMON_STATz (R295). `n` from 0 to 15. -/
abbrev AUD.PMON_STAT.off (n : Nat) : Nat := 0x06944 + 0x8 * n
abbrev AUD.PMON_STAT.WINDOWS (n : Nat) : Fld := ⟨AUD.PMON_STAT.off n, 31, 16⟩
abbrev AUD.PMON_STAT.AGE_H (n : Nat) : Fld := ⟨AUD.PMON_STAT.off n, 15, 8⟩
abbrev AUD.PMON_STAT.VERDICT (n : Nat) : Fld := ⟨AUD.PMON_STAT.off n, 1, 0⟩
/-- Offset of AUD.NF_GAINz (R295). `n` from 0 to 15. -/
abbrev AUD.NF_GAIN.off (n : Nat) : Nat := 0x069C0 + 0x4 * n
abbrev AUD.NF_GAIN.NOISE (n : Nat) : Fld := ⟨AUD.NF_GAIN.off n, 31, 20⟩
abbrev AUD.NF_GAIN.FALLBACK (n : Nat) : Fld := ⟨AUD.NF_GAIN.off n, 19, 19⟩
abbrev AUD.NF_GAIN.HELD (n : Nat) : Fld := ⟨AUD.NF_GAIN.off n, 18, 18⟩
abbrev AUD.NF_GAIN.GAIN (n : Nat) : Fld := ⟨AUD.NF_GAIN.off n, 15, 0⟩
/-- Offset of AUD.PLAY_EVT (R295). -/
abbrev AUD.PLAY_EVT.off : Nat := 0x06A00
abbrev AUD.PLAY_EVT.END : Fld := ⟨AUD.PLAY_EVT.off, 31, 0⟩
/-- Offset of AUD.PLAY_RUN (R295). -/
abbrev AUD.PLAY_RUN.off : Nat := 0x06A04
abbrev AUD.PLAY_RUN.RUN : Fld := ⟨AUD.PLAY_RUN.off, 31, 0⟩
/-- Offset of AUD.PLAY_ERR (R295). -/
abbrev AUD.PLAY_ERR.off : Nat := 0x06A08
abbrev AUD.PLAY_ERR.ERR : Fld := ⟨AUD.PLAY_ERR.off, 31, 0⟩
/-- Offset of AUD.PLAY_STARTv (R295). `n` from 0 to 31. -/
abbrev AUD.PLAY_START.off (n : Nat) : Nat := 0x06A80 + 0x4 * n
abbrev AUD.PLAY_START.TSEQ (n : Nat) : Fld := ⟨AUD.PLAY_START.off n, 31, 0⟩
/-- Offset of AUD.CALL_EVT (R295). -/
abbrev AUD.CALL_EVT.off : Nat := 0x06B00
abbrev AUD.CALL_EVT.FB_WAIT : Fld := ⟨AUD.CALL_EVT.off, 23, 16⟩
abbrev AUD.CALL_EVT.FB : Fld := ⟨AUD.CALL_EVT.off, 15, 8⟩
abbrev AUD.CALL_EVT.STATE : Fld := ⟨AUD.CALL_EVT.off, 7, 0⟩
/-- Offset of AUD.CALL_STATi (R295). `n` from 0 to 7. -/
abbrev AUD.CALL_STAT.off (n : Nat) : Nat := 0x06B40 + 0x4 * n
abbrev AUD.CALL_STAT.FLOOR (n : Nat) : Fld := ⟨AUD.CALL_STAT.off n, 4, 4⟩
abbrev AUD.CALL_STAT.CAN_CH (n : Nat) : Fld := ⟨AUD.CALL_STAT.off n, 3, 3⟩
abbrev AUD.CALL_STAT.STATE (n : Nat) : Fld := ⟨AUD.CALL_STAT.off n, 2, 0⟩
/-- Offset of AUD.REC_STAT (R295). -/
abbrev AUD.REC_STAT.off : Nat := 0x06C00
abbrev AUD.REC_STAT.ACTIVE : Fld := ⟨AUD.REC_STAT.off, 31, 16⟩
abbrev AUD.REC_STAT.BANK_LOST : Fld := ⟨AUD.REC_STAT.off, 3, 3⟩
abbrev AUD.REC_STAT.LOCK_FULL : Fld := ⟨AUD.REC_STAT.off, 2, 2⟩
abbrev AUD.REC_STAT.ENC : Fld := ⟨AUD.REC_STAT.off, 1, 1⟩
abbrev AUD.REC_STAT.RUN : Fld := ⟨AUD.REC_STAT.off, 0, 0⟩
/-- Offset of AUD.REC_EVT (R295). -/
abbrev AUD.REC_EVT.off : Nat := 0x06C04
abbrev AUD.REC_EVT.OVERRUN : Fld := ⟨AUD.REC_EVT.off, 2, 2⟩
abbrev AUD.REC_EVT.LOCK_FULL : Fld := ⟨AUD.REC_EVT.off, 1, 1⟩
abbrev AUD.REC_EVT.BANK_LOST : Fld := ⟨AUD.REC_EVT.off, 0, 0⟩
/-- Offset of AUD.REC_HEAD (R295). -/
abbrev AUD.REC_HEAD.off : Nat := 0x06C08
abbrev AUD.REC_HEAD.UNIT : Fld := ⟨AUD.REC_HEAD.off, 31, 0⟩
/-- Offset of AUD.REC_LOCKED (R295). -/
abbrev AUD.REC_LOCKED.off : Nat := 0x06C0C
abbrev AUD.REC_LOCKED.UNITS : Fld := ⟨AUD.REC_LOCKED.off, 31, 0⟩
/-- Offset of AUD.REC_CNT (R295). -/
abbrev AUD.REC_CNT.off : Nat := 0x06C10
abbrev AUD.REC_CNT.STALE_UNITS : Fld := ⟨AUD.REC_CNT.off, 31, 16⟩
abbrev AUD.REC_CNT.LOST_UNITS : Fld := ⟨AUD.REC_CNT.off, 15, 0⟩
/-- Offset of AUD.STIPA_STAT (R295). -/
abbrev AUD.STIPA_STAT.off : Nat := 0x06D00
abbrev AUD.STIPA_STAT.ELAPSED : Fld := ⟨AUD.STIPA_STAT.off, 15, 8⟩
abbrev AUD.STIPA_STAT.STATE : Fld := ⟨AUD.STIPA_STAT.off, 3, 0⟩
/-- Offset of AUD.STIPA_RESULT (R295). -/
abbrev AUD.STIPA_RESULT.off : Nat := 0x06D04
abbrev AUD.STIPA_RESULT.LOW_SNR : Fld := ⟨AUD.STIPA_RESULT.off, 17, 17⟩
abbrev AUD.STIPA_RESULT.VALID : Fld := ⟨AUD.STIPA_RESULT.off, 16, 16⟩
abbrev AUD.STIPA_RESULT.STI : Fld := ⟨AUD.STIPA_RESULT.off, 7, 0⟩

/-! ## STORE -/

/-- Offset of STORE.CFG (R318). -/
abbrev STORE.CFG.off : Nat := 0x08000
abbrev STORE.CFG.CE_THRESH : Fld := ⟨STORE.CFG.off, 23, 8⟩
abbrev STORE.CFG.SCRUB_H : Fld := ⟨STORE.CFG.off, 7, 1⟩
abbrev STORE.CFG.SCRUB_EN : Fld := ⟨STORE.CFG.off, 0, 0⟩
/-- Offset of STORE.STAT (R318). -/
abbrev STORE.STAT.off : Nat := 0x08004
abbrev STORE.STAT.SCRUB_PCT : Fld := ⟨STORE.STAT.off, 31, 24⟩
abbrev STORE.STAT.WAKE_SCRUB : Fld := ⟨STORE.STAT.off, 16, 16⟩
abbrev STORE.STAT.INIT_DONE : Fld := ⟨STORE.STAT.off, 15, 0⟩
/-- Offset of STORE.BANK_STATi (R318). `n` from 0 to 1. -/
abbrev STORE.BANK_STAT.off (n : Nat) : Nat := 0x08008 + 0x4 * n
abbrev STORE.BANK_STAT.STATE (n : Nat) : Fld := ⟨STORE.BANK_STAT.off n, 31, 0⟩
/-- Offset of STORE.RET_MASK (R318). -/
abbrev STORE.RET_MASK.off : Nat := 0x08010
abbrev STORE.RET_MASK.MASK : Fld := ⟨STORE.RET_MASK.off, 15, 0⟩
/-- Offset of STORE.BANK_LOST (R318). -/
abbrev STORE.BANK_LOST.off : Nat := 0x08014
abbrev STORE.BANK_LOST.LOST : Fld := ⟨STORE.BANK_LOST.off, 15, 0⟩
/-- Offset of STORE.INIT_CTRL (R318). -/
abbrev STORE.INIT_CTRL.off : Nat := 0x08018
abbrev STORE.INIT_CTRL.START : Fld := ⟨STORE.INIT_CTRL.off, 15, 0⟩
/-- Offset of STORE.SLEEP_CNT (R318). -/
abbrev STORE.SLEEP_CNT.off : Nat := 0x08020
abbrev STORE.SLEEP_CNT.COUNT : Fld := ⟨STORE.SLEEP_CNT.off, 31, 0⟩
/-- Offset of STORE.WAKE_CHK (R318). -/
abbrev STORE.WAKE_CHK.off : Nat := 0x08024
abbrev STORE.WAKE_CHK.EXT_FAIL : Fld := ⟨STORE.WAKE_CHK.off, 31, 16⟩
abbrev STORE.WAKE_CHK.CANARY_FAIL : Fld := ⟨STORE.WAKE_CHK.off, 15, 0⟩
/-- Offset of STORE.WAKE_TIME (R318). -/
abbrev STORE.WAKE_TIME.off : Nat := 0x08028
abbrev STORE.WAKE_TIME.EXT_100US : Fld := ⟨STORE.WAKE_TIME.off, 31, 16⟩
abbrev STORE.WAKE_TIME.CANARY_US : Fld := ⟨STORE.WAKE_TIME.off, 15, 0⟩
/-- Offset of STORE.CE_CNT (R318). -/
abbrev STORE.CE_CNT.off : Nat := 0x08030
abbrev STORE.CE_CNT.CH1 : Fld := ⟨STORE.CE_CNT.off, 31, 16⟩
abbrev STORE.CE_CNT.CH0 : Fld := ⟨STORE.CE_CNT.off, 15, 0⟩
/-- Offset of STORE.UE_CNT (R318). -/
abbrev STORE.UE_CNT.off : Nat := 0x08034
abbrev STORE.UE_CNT.SCRUB : Fld := ⟨STORE.UE_CNT.off, 31, 16⟩
abbrev STORE.UE_CNT.ACCESS : Fld := ⟨STORE.UE_CNT.off, 15, 0⟩
/-- Offset of STORE.CE_LAST (R318). -/
abbrev STORE.CE_LAST.off : Nat := 0x08038
abbrev STORE.CE_LAST.ADDR : Fld := ⟨STORE.CE_LAST.off, 31, 0⟩
/-- Offset of STORE.CE_INFO (R318). -/
abbrev STORE.CE_INFO.off : Nat := 0x0803C
abbrev STORE.CE_INFO.INITIATOR : Fld := ⟨STORE.CE_INFO.off, 11, 8⟩
abbrev STORE.CE_INFO.SYNDROME : Fld := ⟨STORE.CE_INFO.off, 7, 0⟩
/-- Offset of STORE.ERR_EVT (R318). -/
abbrev STORE.ERR_EVT.off : Nat := 0x08040
abbrev STORE.ERR_EVT.UNINIT : Fld := ⟨STORE.ERR_EVT.off, 3, 3⟩
abbrev STORE.ERR_EVT.RESERVED : Fld := ⟨STORE.ERR_EVT.off, 2, 2⟩
abbrev STORE.ERR_EVT.CE_THRESH : Fld := ⟨STORE.ERR_EVT.off, 1, 1⟩
abbrev STORE.ERR_EVT.UE : Fld := ⟨STORE.ERR_EVT.off, 0, 0⟩
/-- Offset of STORE.UE_LOG_STAT (R318). -/
abbrev STORE.UE_LOG_STAT.off : Nat := 0x08044
abbrev STORE.UE_LOG_STAT.OVF : Fld := ⟨STORE.UE_LOG_STAT.off, 8, 8⟩
abbrev STORE.UE_LOG_STAT.NEXT : Fld := ⟨STORE.UE_LOG_STAT.off, 2, 0⟩
/-- Offset of STORE.SCRUB_ADDR (R318). -/
abbrev STORE.SCRUB_ADDR.off : Nat := 0x08048
abbrev STORE.SCRUB_ADDR.ADDR : Fld := ⟨STORE.SCRUB_ADDR.off, 31, 0⟩
/-- Offset of STORE.UE_ADDRj (R318). `n` from 0 to 7. -/
abbrev STORE.UE_ADDR.off (n : Nat) : Nat := 0x08080 + 0x10 * n
abbrev STORE.UE_ADDR.ADDR (n : Nat) : Fld := ⟨STORE.UE_ADDR.off n, 31, 0⟩
/-- Offset of STORE.UE_INFOj (R318). `n` from 0 to 7. -/
abbrev STORE.UE_INFO.off (n : Nat) : Nat := 0x08084 + 0x10 * n
abbrev STORE.UE_INFO.TICK (n : Nat) : Fld := ⟨STORE.UE_INFO.off n, 31, 16⟩
abbrev STORE.UE_INFO.INITIATOR (n : Nat) : Fld := ⟨STORE.UE_INFO.off n, 15, 12⟩
abbrev STORE.UE_INFO.BANK (n : Nat) : Fld := ⟨STORE.UE_INFO.off n, 11, 8⟩
abbrev STORE.UE_INFO.VALID (n : Nat) : Fld := ⟨STORE.UE_INFO.off n, 0, 0⟩
/-- Offset of STORE.RGN_BASEr (R318). `n` from 0 to 31. -/
abbrev STORE.RGN_BASE.off (n : Nat) : Nat := 0x08100 + 0x8 * n
abbrev STORE.RGN_BASE.BASE (n : Nat) : Fld := ⟨STORE.RGN_BASE.off n, 31, 0⟩
/-- Offset of STORE.RGN_INFOr (R318). `n` from 0 to 31. -/
abbrev STORE.RGN_INFO.off (n : Nat) : Nat := 0x08104 + 0x8 * n
abbrev STORE.RGN_INFO.PAGES (n : Nat) : Fld := ⟨STORE.RGN_INFO.off n, 31, 11⟩
abbrev STORE.RGN_INFO.RETAIN (n : Nat) : Fld := ⟨STORE.RGN_INFO.off n, 8, 8⟩
abbrev STORE.RGN_INFO.KIND (n : Nat) : Fld := ⟨STORE.RGN_INFO.off n, 3, 0⟩
/-- Offset of STORE.EXT_CRCb (R318). `n` from 0 to 15. -/
abbrev STORE.EXT_CRC.off (n : Nat) : Nat := 0x08200 + 0x4 * n
abbrev STORE.EXT_CRC.CRC (n : Nat) : Fld := ⟨STORE.EXT_CRC.off n, 31, 0⟩

/-! ## BRG -/

/-- Offset of BRG.HOST_STAT (R355). -/
abbrev BRG.HOST_STAT.off : Nat := 0x09000
abbrev BRG.HOST_STAT.I2C_ADDR : Fld := ⟨BRG.HOST_STAT.off, 22, 16⟩
abbrev BRG.HOST_STAT.LINK_SPEED : Fld := ⟨BRG.HOST_STAT.off, 7, 6⟩
abbrev BRG.HOST_STAT.LINK_WIDTH : Fld := ⟨BRG.HOST_STAT.off, 5, 4⟩
abbrev BRG.HOST_STAT.MSIX_EN : Fld := ⟨BRG.HOST_STAT.off, 3, 3⟩
abbrev BRG.HOST_STAT.LINK_UP : Fld := ⟨BRG.HOST_STAT.off, 2, 2⟩
abbrev BRG.HOST_STAT.HOST_SEL : Fld := ⟨BRG.HOST_STAT.off, 1, 0⟩
/-- Offset of BRG.HOST_EVT (R355). -/
abbrev BRG.HOST_EVT.off : Nat := 0x09004
abbrev BRG.HOST_EVT.I2C_WAKE : Fld := ⟨BRG.HOST_EVT.off, 2, 2⟩
abbrev BRG.HOST_EVT.SPI_ERR : Fld := ⟨BRG.HOST_EVT.off, 1, 1⟩
abbrev BRG.HOST_EVT.LINK_DOWN : Fld := ⟨BRG.HOST_EVT.off, 0, 0⟩
/-- Offset of BRG.SPI_CNT (R355). -/
abbrev BRG.SPI_CNT.off : Nat := 0x09008
abbrev BRG.SPI_CNT.FRAME_ERR : Fld := ⟨BRG.SPI_CNT.off, 31, 16⟩
abbrev BRG.SPI_CNT.CMD_ERR : Fld := ⟨BRG.SPI_CNT.off, 15, 0⟩
/-- Offset of BRG.I2C_CNT (R355). -/
abbrev BRG.I2C_CNT.off : Nat := 0x0900C
abbrev BRG.I2C_CNT.PEC_ERR : Fld := ⟨BRG.I2C_CNT.off, 31, 24⟩
abbrev BRG.I2C_CNT.NACK_BUSY : Fld := ⟨BRG.I2C_CNT.off, 23, 16⟩
abbrev BRG.I2C_CNT.WAKE_MATCH : Fld := ⟨BRG.I2C_CNT.off, 15, 0⟩
/-- Offset of BRG.LWIN_BASE (R355). -/
abbrev BRG.LWIN_BASE.off : Nat := 0x09010
abbrev BRG.LWIN_BASE.BASE : Fld := ⟨BRG.LWIN_BASE.off, 31, 20⟩
/-- Offset of BRG.LWIN_CTRL (R355). -/
abbrev BRG.LWIN_CTRL.off : Nat := 0x09014
abbrev BRG.LWIN_CTRL.EN : Fld := ⟨BRG.LWIN_CTRL.off, 0, 0⟩
/-- Offset of BRG.LWIN_STAT (R355). -/
abbrev BRG.LWIN_STAT.off : Nat := 0x09018
abbrev BRG.LWIN_STAT.WP_CNT : Fld := ⟨BRG.LWIN_STAT.off, 31, 16⟩
abbrev BRG.LWIN_STAT.ERR_CNT : Fld := ⟨BRG.LWIN_STAT.off, 15, 0⟩
/-- Offset of BRG.CFG (R355). -/
abbrev BRG.CFG.off : Nat := 0x09020
abbrev BRG.CFG.PF_AGE : Fld := ⟨BRG.CFG.off, 31, 24⟩
abbrev BRG.CFG.RSP_TIMEOUT : Fld := ⟨BRG.CFG.off, 8, 0⟩
/-- Offset of BRG.STAT (R355). -/
abbrev BRG.STAT.off : Nat := 0x09024
abbrev BRG.STAT.SEM_HELD : Fld := ⟨BRG.STAT.off, 17, 17⟩
abbrev BRG.STAT.CINCH_BUSY : Fld := ⟨BRG.STAT.off, 16, 16⟩
abbrev BRG.STAT.WR_OUT : Fld := ⟨BRG.STAT.off, 15, 8⟩
abbrev BRG.STAT.RD_OUT : Fld := ⟨BRG.STAT.off, 7, 0⟩
/-- Offset of BRG.EVT (R355). -/
abbrev BRG.EVT.off : Nat := 0x09028
abbrev BRG.EVT.RENUMBERED : Fld := ⟨BRG.EVT.off, 6, 6⟩
abbrev BRG.EVT.TIMEOUT : Fld := ⟨BRG.EVT.off, 5, 5⟩
abbrev BRG.EVT.LOCK_EXPIRED : Fld := ⟨BRG.EVT.off, 4, 4⟩
abbrev BRG.EVT.LOCK_UR : Fld := ⟨BRG.EVT.off, 3, 3⟩
abbrev BRG.EVT.PF_DISCARD : Fld := ⟨BRG.EVT.off, 2, 2⟩
abbrev BRG.EVT.POSTED_FAIL : Fld := ⟨BRG.EVT.off, 1, 1⟩
abbrev BRG.EVT.RD_FAIL : Fld := ⟨BRG.EVT.off, 0, 0⟩
/-- Offset of BRG.CNT (R355). -/
abbrev BRG.CNT.off : Nat := 0x0902C
abbrev BRG.CNT.RD_FAIL : Fld := ⟨BRG.CNT.off, 31, 16⟩
abbrev BRG.CNT.TIMEOUT : Fld := ⟨BRG.CNT.off, 15, 0⟩
/-- Offset of BRG.LOCK_LOG_A (R355). -/
abbrev BRG.LOCK_LOG_A.off : Nat := 0x09030
abbrev BRG.LOCK_LOG_A.WIN : Fld := ⟨BRG.LOCK_LOG_A.off, 31, 28⟩
abbrev BRG.LOCK_LOG_A.OFFSET : Fld := ⟨BRG.LOCK_LOG_A.off, 23, 0⟩
/-- Offset of BRG.LOCK_LOG_B (R355). -/
abbrev BRG.LOCK_LOG_B.off : Nat := 0x09034
abbrev BRG.LOCK_LOG_B.TICK : Fld := ⟨BRG.LOCK_LOG_B.off, 31, 16⟩
abbrev BRG.LOCK_LOG_B.ATTEMPTS : Fld := ⟨BRG.LOCK_LOG_B.off, 15, 8⟩
abbrev BRG.LOCK_LOG_B.MODE : Fld := ⟨BRG.LOCK_LOG_B.off, 7, 7⟩
abbrev BRG.LOCK_LOG_B.CAUSE : Fld := ⟨BRG.LOCK_LOG_B.off, 3, 0⟩
/-- Offset of BRG.LOCK_CNT (R355). -/
abbrev BRG.LOCK_CNT.off : Nat := 0x09038
abbrev BRG.LOCK_CNT.REFUSALS : Fld := ⟨BRG.LOCK_CNT.off, 31, 16⟩
abbrev BRG.LOCK_CNT.GIVEUPS : Fld := ⟨BRG.LOCK_CNT.off, 15, 0⟩
/-- Offset of BRG.ATOM_CNT (R355). -/
abbrev BRG.ATOM_CNT.off : Nat := 0x0903C
abbrev BRG.ATOM_CNT.CINCH : Fld := ⟨BRG.ATOM_CNT.off, 31, 16⟩
abbrev BRG.ATOM_CNT.SEM : Fld := ⟨BRG.ATOM_CNT.off, 15, 0⟩
/-- Offset of BRG.PFLOG_Aj (R355). `n` from 0 to 15. -/
abbrev BRG.PFLOG_A.off (n : Nat) : Nat := 0x09040 + 0x8 * n
abbrev BRG.PFLOG_A.WIN (n : Nat) : Fld := ⟨BRG.PFLOG_A.off n, 31, 28⟩
abbrev BRG.PFLOG_A.OFFSET (n : Nat) : Fld := ⟨BRG.PFLOG_A.off n, 23, 0⟩
/-- Offset of BRG.PFLOG_Bj (R355). `n` from 0 to 15. -/
abbrev BRG.PFLOG_B.off (n : Nat) : Nat := 0x09044 + 0x8 * n
abbrev BRG.PFLOG_B.TAG (n : Nat) : Fld := ⟨BRG.PFLOG_B.off n, 31, 20⟩
abbrev BRG.PFLOG_B.CAUSE (n : Nat) : Fld := ⟨BRG.PFLOG_B.off n, 19, 16⟩
abbrev BRG.PFLOG_B.TICK (n : Nat) : Fld := ⟨BRG.PFLOG_B.off n, 15, 8⟩
abbrev BRG.PFLOG_B.VALID (n : Nat) : Fld := ⟨BRG.PFLOG_B.off n, 0, 0⟩
/-- Offset of BRG.PFLOG_STAT (R355). -/
abbrev BRG.PFLOG_STAT.off : Nat := 0x090C0
abbrev BRG.PFLOG_STAT.OVF : Fld := ⟨BRG.PFLOG_STAT.off, 31, 16⟩
abbrev BRG.PFLOG_STAT.VALID : Fld := ⟨BRG.PFLOG_STAT.off, 15, 0⟩
/-- Offset of BRG.TWINn_CFG (R355). `n` from 0 to 15. -/
abbrev BRG.TWIN_CFG.off (n : Nat) : Nat := 0x09100 + 0x20 * n
abbrev BRG.TWIN_CFG.SUB (n : Nat) : Fld := ⟨BRG.TWIN_CFG.off n, 25, 24⟩
abbrev BRG.TWIN_CFG.POS (n : Nat) : Fld := ⟨BRG.TWIN_CFG.off n, 21, 16⟩
abbrev BRG.TWIN_CFG.SEM (n : Nat) : Fld := ⟨BRG.TWIN_CFG.off n, 12, 8⟩
abbrev BRG.TWIN_CFG.LOCKMODE (n : Nat) : Fld := ⟨BRG.TWIN_CFG.off n, 4, 3⟩
abbrev BRG.TWIN_CFG.PREFETCH (n : Nat) : Fld := ⟨BRG.TWIN_CFG.off n, 2, 2⟩
abbrev BRG.TWIN_CFG.TYPE (n : Nat) : Fld := ⟨BRG.TWIN_CFG.off n, 1, 1⟩
abbrev BRG.TWIN_CFG.EN (n : Nat) : Fld := ⟨BRG.TWIN_CFG.off n, 0, 0⟩
/-- Offset of BRG.TWINn_OFS (R355). `n` from 0 to 15. -/
abbrev BRG.TWIN_OFS.off (n : Nat) : Nat := 0x09104 + 0x20 * n
abbrev BRG.TWIN_OFS.BASE (n : Nat) : Fld := ⟨BRG.TWIN_OFS.off n, 31, 12⟩
/-- Offset of BRG.TWINn_UID_LO (R355). `n` from 0 to 15. -/
abbrev BRG.TWIN_UID_LO.off (n : Nat) : Nat := 0x09108 + 0x20 * n
abbrev BRG.TWIN_UID_LO.UID (n : Nat) : Fld := ⟨BRG.TWIN_UID_LO.off n, 31, 0⟩
/-- Offset of BRG.TWINn_UID_HI (R355). `n` from 0 to 15. -/
abbrev BRG.TWIN_UID_HI.off (n : Nat) : Nat := 0x0910C + 0x20 * n
abbrev BRG.TWIN_UID_HI.UID (n : Nat) : Fld := ⟨BRG.TWIN_UID_HI.off n, 31, 0⟩
/-- Offset of BRG.TWINn_STAT (R355). `n` from 0 to 15. -/
abbrev BRG.TWIN_STAT.off (n : Nat) : Nat := 0x09110 + 0x20 * n
abbrev BRG.TWIN_STAT.W_PEND (n : Nat) : Fld := ⟨BRG.TWIN_STAT.off n, 31, 24⟩
abbrev BRG.TWIN_STAT.RPOS (n : Nat) : Fld := ⟨BRG.TWIN_STAT.off n, 21, 16⟩
abbrev BRG.TWIN_STAT.PF_VALID (n : Nat) : Fld := ⟨BRG.TWIN_STAT.off n, 12, 12⟩
abbrev BRG.TWIN_STAT.FIRST_CAUSE (n : Nat) : Fld := ⟨BRG.TWIN_STAT.off n, 11, 8⟩
abbrev BRG.TWIN_STAT.RENUMBERED (n : Nat) : Fld := ⟨BRG.TWIN_STAT.off n, 1, 1⟩
abbrev BRG.TWIN_STAT.STICKY (n : Nat) : Fld := ⟨BRG.TWIN_STAT.off n, 0, 0⟩
/-- Offset of BRG.TWINn_WSEQ (R355). `n` from 0 to 15. -/
abbrev BRG.TWIN_WSEQ.off (n : Nat) : Nat := 0x09114 + 0x20 * n
abbrev BRG.TWIN_WSEQ.TAG (n : Nat) : Fld := ⟨BRG.TWIN_WSEQ.off n, 11, 0⟩
/-- Offset of BRG.TWINn_BAR (R355). `n` from 0 to 15. -/
abbrev BRG.TWIN_BAR.off (n : Nat) : Nat := 0x09118 + 0x20 * n
abbrev BRG.TWIN_BAR.FAIL (n : Nat) : Fld := ⟨BRG.TWIN_BAR.off n, 31, 31⟩
abbrev BRG.TWIN_BAR.CAUSE (n : Nat) : Fld := ⟨BRG.TWIN_BAR.off n, 27, 24⟩
abbrev BRG.TWIN_BAR.TAG (n : Nat) : Fld := ⟨BRG.TWIN_BAR.off n, 11, 0⟩
/-- Offset of BRG.TWINn_DISC (R355). `n` from 0 to 15. -/
abbrev BRG.TWIN_DISC.off (n : Nat) : Nat := 0x0911C + 0x20 * n
abbrev BRG.TWIN_DISC.CNT (n : Nat) : Fld := ⟨BRG.TWIN_DISC.off n, 31, 24⟩
abbrev BRG.TWIN_DISC.ADDR (n : Nat) : Fld := ⟨BRG.TWIN_DISC.off n, 23, 0⟩
/-- Offset of BRG.RACC_CTRL (R355). -/
abbrev BRG.RACC_CTRL.off : Nat := 0x09300
abbrev BRG.RACC_CTRL.CINCH_EN : Fld := ⟨BRG.RACC_CTRL.off, 2, 2⟩
abbrev BRG.RACC_CTRL.REG_RD : Fld := ⟨BRG.RACC_CTRL.off, 1, 1⟩
abbrev BRG.RACC_CTRL.EN : Fld := ⟨BRG.RACC_CTRL.off, 0, 0⟩
/-- Offset of BRG.RACCk_BASE (R355). `n` from 0 to 7. -/
abbrev BRG.RACC_BASE.off (n : Nat) : Nat := 0x09310 + 0x8 * n
abbrev BRG.RACC_BASE.BASE (n : Nat) : Fld := ⟨BRG.RACC_BASE.off n, 31, 12⟩
/-- Offset of BRG.RACCk_INFO (R355). `n` from 0 to 7. -/
abbrev BRG.RACC_INFO.off (n : Nat) : Nat := 0x09314 + 0x8 * n
abbrev BRG.RACC_INFO.PAGES (n : Nat) : Fld := ⟨BRG.RACC_INFO.off n, 31, 12⟩
abbrev BRG.RACC_INFO.LOCK (n : Nat) : Fld := ⟨BRG.RACC_INFO.off n, 2, 2⟩
abbrev BRG.RACC_INFO.W (n : Nat) : Fld := ⟨BRG.RACC_INFO.off n, 1, 1⟩
abbrev BRG.RACC_INFO.R (n : Nat) : Fld := ⟨BRG.RACC_INFO.off n, 0, 0⟩
/-- Offset of BRG.TGT_CNT (R355). -/
abbrev BRG.TGT_CNT.off : Nat := 0x09350
abbrev BRG.TGT_CNT.SERVED : Fld := ⟨BRG.TGT_CNT.off, 31, 16⟩
abbrev BRG.TGT_CNT.REFUSED : Fld := ⟨BRG.TGT_CNT.off, 15, 0⟩
/-- Offset of BRG.TGT_LOCK (R355). -/
abbrev BRG.TGT_LOCK.off : Nat := 0x09354
abbrev BRG.TGT_LOCK.REFUSED : Fld := ⟨BRG.TGT_LOCK.off, 31, 16⟩
abbrev BRG.TGT_LOCK.EXPIRED : Fld := ⟨BRG.TGT_LOCK.off, 15, 8⟩
abbrev BRG.TGT_LOCK.ACTIVE : Fld := ⟨BRG.TGT_LOCK.off, 3, 0⟩
/-- Offset of BRG.SEMs (R355). `n` from 0 to 31. -/
abbrev BRG.SEM.off (n : Nat) : Nat := 0x09380 + 0x4 * n
abbrev BRG.SEM.HELD (n : Nat) : Fld := ⟨BRG.SEM.off n, 31, 31⟩
abbrev BRG.SEM.LOCAL (n : Nat) : Fld := ⟨BRG.SEM.off n, 30, 30⟩
abbrev BRG.SEM.OWNER_POS (n : Nat) : Fld := ⟨BRG.SEM.off n, 29, 24⟩
abbrev BRG.SEM.OWNER_SUB (n : Nat) : Fld := ⟨BRG.SEM.off n, 23, 22⟩
abbrev BRG.SEM.LEASE (n : Nat) : Fld := ⟨BRG.SEM.off n, 15, 8⟩
abbrev BRG.SEM.REL (n : Nat) : Fld := ⟨BRG.SEM.off n, 1, 1⟩
abbrev BRG.SEM.GRANT (n : Nat) : Fld := ⟨BRG.SEM.off n, 0, 0⟩

/-! ## MBX -/

/-- Offset of MBX.STAT (R389). -/
abbrev MBX.STAT.off : Nat := 0x02000
abbrev MBX.STAT.HOST_CH : Fld := ⟨MBX.STAT.off, 2, 1⟩
abbrev MBX.STAT.DECIK_RUN : Fld := ⟨MBX.STAT.off, 0, 0⟩
/-- Offset of MBX.EVT (R389). -/
abbrev MBX.EVT.off : Nat := 0x02004
abbrev MBX.EVT.SUMMARY : Fld := ⟨MBX.EVT.off, 6, 6⟩
abbrev MBX.EVT.ERROR : Fld := ⟨MBX.EVT.off, 5, 5⟩
abbrev MBX.EVT.NOTIFY : Fld := ⟨MBX.EVT.off, 4, 4⟩
abbrev MBX.EVT.RESP : Fld := ⟨MBX.EVT.off, 3, 0⟩
/-- Offset of MBX.SUM_GEN (R389). -/
abbrev MBX.SUM_GEN.off : Nat := 0x02008
abbrev MBX.SUM_GEN.GEN : Fld := ⟨MBX.SUM_GEN.off, 31, 0⟩
/-- Offset of MBX.NOTE_CFG (R389). -/
abbrev MBX.NOTE_CFG.off : Nat := 0x0200C
abbrev MBX.NOTE_CFG.CLASS_EN : Fld := ⟨MBX.NOTE_CFG.off, 15, 0⟩
/-- Offset of MBX.CFG_VER (R389). -/
abbrev MBX.CFG_VER.off : Nat := 0x02010
abbrev MBX.CFG_VER.VER : Fld := ⟨MBX.CFG_VER.off, 31, 0⟩
/-- Offset of MBX.CFG_PREV (R389). -/
abbrev MBX.CFG_PREV.off : Nat := 0x02014
abbrev MBX.CFG_PREV.VER : Fld := ⟨MBX.CFG_PREV.off, 31, 0⟩
/-- Offset of MBX.CFG_PEND (R389). -/
abbrev MBX.CFG_PEND.off : Nat := 0x02018
abbrev MBX.CFG_PEND.VER : Fld := ⟨MBX.CFG_PEND.off, 31, 0⟩
/-- Offset of MBX.CFG_STAT (R389). -/
abbrev MBX.CFG_STAT.off : Nat := 0x0201C
abbrev MBX.CFG_STAT.CONFIRM_S : Fld := ⟨MBX.CFG_STAT.off, 31, 16⟩
abbrev MBX.CFG_STAT.TRIAL_STARTS : Fld := ⟨MBX.CFG_STAT.off, 9, 8⟩
abbrev MBX.CFG_STAT.STATE : Fld := ⟨MBX.CFG_STAT.off, 2, 0⟩
/-- Offset of MBX.CFG_TICK (R389). -/
abbrev MBX.CFG_TICK.off : Nat := 0x02020
abbrev MBX.CFG_TICK.TSEQ : Fld := ⟨MBX.CFG_TICK.off, 31, 0⟩
/-- Offset of MBX.CFG_EVT (R389). -/
abbrev MBX.CFG_EVT.off : Nat := 0x02024
abbrev MBX.CFG_EVT.CANCEL : Fld := ⟨MBX.CFG_EVT.off, 4, 4⟩
abbrev MBX.CFG_EVT.ROLLBACK_CMD : Fld := ⟨MBX.CFG_EVT.off, 3, 3⟩
abbrev MBX.CFG_EVT.ROLLBACK_AUTO : Fld := ⟨MBX.CFG_EVT.off, 2, 2⟩
abbrev MBX.CFG_EVT.CONFIRM : Fld := ⟨MBX.CFG_EVT.off, 1, 1⟩
abbrev MBX.CFG_EVT.COMMIT : Fld := ⟨MBX.CFG_EVT.off, 0, 0⟩
/-- Offset of MBX.UNIT_EVT (R389). -/
abbrev MBX.UNIT_EVT.off : Nat := 0x02028
abbrev MBX.UNIT_EVT.FAULTED : Fld := ⟨MBX.UNIT_EVT.off, 2, 2⟩
abbrev MBX.UNIT_EVT.DIVERGE : Fld := ⟨MBX.UNIT_EVT.off, 1, 1⟩
abbrev MBX.UNIT_EVT.STATE : Fld := ⟨MBX.UNIT_EVT.off, 0, 0⟩
/-- Offset of MBX.UNIT_CNT (R389). -/
abbrev MBX.UNIT_CNT.off : Nat := 0x0202C
abbrev MBX.UNIT_CNT.FAULTED : Fld := ⟨MBX.UNIT_CNT.off, 31, 24⟩
abbrev MBX.UNIT_CNT.DIVERGED : Fld := ⟨MBX.UNIT_CNT.off, 23, 16⟩
abbrev MBX.UNIT_CNT.DIV_CNT : Fld := ⟨MBX.UNIT_CNT.off, 15, 0⟩
/-- Offset of MBX.CHn_REQ_BASE (R389). `n` from 0 to 3. -/
abbrev MBX.CH_REQ_BASE.off (n : Nat) : Nat := 0x02040 + 0x20 * n
abbrev MBX.CH_REQ_BASE.BASE (n : Nat) : Fld := ⟨MBX.CH_REQ_BASE.off n, 31, 12⟩
/-- Offset of MBX.CHn_RSP_BASE (R389). `n` from 0 to 3. -/
abbrev MBX.CH_RSP_BASE.off (n : Nat) : Nat := 0x02044 + 0x20 * n
abbrev MBX.CH_RSP_BASE.BASE (n : Nat) : Fld := ⟨MBX.CH_RSP_BASE.off n, 31, 12⟩
/-- Offset of MBX.CHn_REQ_HEAD (R389). `n` from 0 to 3. -/
abbrev MBX.CH_REQ_HEAD.off (n : Nat) : Nat := 0x02048 + 0x20 * n
abbrev MBX.CH_REQ_HEAD.HEAD (n : Nat) : Fld := ⟨MBX.CH_REQ_HEAD.off n, 6, 0⟩
/-- Offset of MBX.CHn_REQ_TAIL (R389). `n` from 0 to 3. -/
abbrev MBX.CH_REQ_TAIL.off (n : Nat) : Nat := 0x0204C + 0x20 * n
abbrev MBX.CH_REQ_TAIL.TAIL (n : Nat) : Fld := ⟨MBX.CH_REQ_TAIL.off n, 6, 0⟩
/-- Offset of MBX.CHn_RSP_HEAD (R389). `n` from 0 to 3. -/
abbrev MBX.CH_RSP_HEAD.off (n : Nat) : Nat := 0x02050 + 0x20 * n
abbrev MBX.CH_RSP_HEAD.HEAD (n : Nat) : Fld := ⟨MBX.CH_RSP_HEAD.off n, 6, 0⟩
/-- Offset of MBX.CHn_RSP_TAIL (R389). `n` from 0 to 3. -/
abbrev MBX.CH_RSP_TAIL.off (n : Nat) : Nat := 0x02054 + 0x20 * n
abbrev MBX.CH_RSP_TAIL.TAIL (n : Nat) : Fld := ⟨MBX.CH_RSP_TAIL.off n, 6, 0⟩
/-- Offset of MBX.CHn_DB (R389). `n` from 0 to 3. -/
abbrev MBX.CH_DB.off (n : Nat) : Nat := 0x02058 + 0x20 * n
abbrev MBX.CH_DB.RING (n : Nat) : Fld := ⟨MBX.CH_DB.off n, 31, 0⟩
/-- Offset of MBX.CHn_STAT (R389). `n` from 0 to 3. -/
abbrev MBX.CH_STAT.off (n : Nat) : Nat := 0x0205C + 0x20 * n
abbrev MBX.CH_STAT.NOTE_LOST (n : Nat) : Fld := ⟨MBX.CH_STAT.off n, 31, 24⟩
abbrev MBX.CH_STAT.ERR_CNT (n : Nat) : Fld := ⟨MBX.CH_STAT.off n, 23, 16⟩
abbrev MBX.CH_STAT.OPEN (n : Nat) : Fld := ⟨MBX.CH_STAT.off n, 15, 8⟩
abbrev MBX.CH_STAT.RESET (n : Nat) : Fld := ⟨MBX.CH_STAT.off n, 1, 1⟩
abbrev MBX.CH_STAT.READY (n : Nat) : Fld := ⟨MBX.CH_STAT.off n, 0, 0⟩

/-! ## ETH -/

/-- Offset of ETHn.STAT (R448). -/
abbrev ETH.STAT.off (port : Nat) : Nat := 0x0A000 + 0x1000 * port
abbrev ETH.STAT.PRALINE_ARMED (port : Nat) : Fld := ⟨ETH.STAT.off port, 7, 7⟩
abbrev ETH.STAT.PAUSED (port : Nat) : Fld := ⟨ETH.STAT.off port, 6, 6⟩
abbrev ETH.STAT.LINK (port : Nat) : Fld := ⟨ETH.STAT.off port, 5, 5⟩
abbrev ETH.STAT.MODE (port : Nat) : Fld := ⟨ETH.STAT.off port, 2, 1⟩
abbrev ETH.STAT.RUN (port : Nat) : Fld := ⟨ETH.STAT.off port, 0, 0⟩
/-- Offset of ETHn.CFG (R448). -/
abbrev ETH.CFG.off (port : Nat) : Nat := 0x0A004 + 0x1000 * port
abbrev ETH.CFG.VID (port : Nat) : Fld := ⟨ETH.CFG.off port, 27, 16⟩
abbrev ETH.CFG.DEF_PCP (port : Nat) : Fld := ⟨ETH.CFG.off port, 7, 5⟩
abbrev ETH.CFG.PAUSE_IGN (port : Nat) : Fld := ⟨ETH.CFG.off port, 4, 4⟩
abbrev ETH.CFG.LANE_MODE (port : Nat) : Fld := ⟨ETH.CFG.off port, 2, 1⟩
abbrev ETH.CFG.EN (port : Nat) : Fld := ⟨ETH.CFG.off port, 0, 0⟩
/-- Offset of ETHn.MAC_LO (R448). -/
abbrev ETH.MAC_LO.off (port : Nat) : Nat := 0x0A008 + 0x1000 * port
abbrev ETH.MAC_LO.ADDR (port : Nat) : Fld := ⟨ETH.MAC_LO.off port, 31, 0⟩
/-- Offset of ETHn.MAC_HI (R448). -/
abbrev ETH.MAC_HI.off (port : Nat) : Nat := 0x0A00C + 0x1000 * port
abbrev ETH.MAC_HI.ADDR (port : Nat) : Fld := ⟨ETH.MAC_HI.off port, 15, 0⟩
/-- Offset of ETHn.IPV4 (R448). -/
abbrev ETH.IPV4.off (port : Nat) : Nat := 0x0A010 + 0x1000 * port
abbrev ETH.IPV4.ADDR (port : Nat) : Fld := ⟨ETH.IPV4.off port, 31, 0⟩
/-- Offset of ETHn.EVT (R448). -/
abbrev ETH.EVT.off (port : Nat) : Nat := 0x0A014 + 0x1000 * port
abbrev ETH.EVT.PRALINE (port : Nat) : Fld := ⟨ETH.EVT.off port, 3, 3⟩
abbrev ETH.EVT.SPEED_REFUSED (port : Nat) : Fld := ⟨ETH.EVT.off port, 2, 2⟩
abbrev ETH.EVT.LINK_DOWN (port : Nat) : Fld := ⟨ETH.EVT.off port, 1, 1⟩
abbrev ETH.EVT.LINK_UP (port : Nat) : Fld := ⟨ETH.EVT.off port, 0, 0⟩
/-- Offset of ETHn.ERR_EVT (R448). -/
abbrev ETH.ERR_EVT.off (port : Nat) : Nat := 0x0A018 + 0x1000 * port
abbrev ETH.ERR_EVT.TX_DROP (port : Nat) : Fld := ⟨ETH.ERR_EVT.off port, 5, 5⟩
abbrev ETH.ERR_EVT.RX_OVF (port : Nat) : Fld := ⟨ETH.ERR_EVT.off port, 4, 4⟩
abbrev ETH.ERR_EVT.GATE_DROP (port : Nat) : Fld := ⟨ETH.ERR_EVT.off port, 3, 3⟩
abbrev ETH.ERR_EVT.STREAM_LATE (port : Nat) : Fld := ⟨ETH.ERR_EVT.off port, 2, 2⟩
abbrev ETH.ERR_EVT.PAUSE_BAD (port : Nat) : Fld := ⟨ETH.ERR_EVT.off port, 1, 1⟩
abbrev ETH.ERR_EVT.WIRE (port : Nat) : Fld := ⟨ETH.ERR_EVT.off port, 0, 0⟩
/-- Offset of ETHn.PAUSE_STAT (R448). -/
abbrev ETH.PAUSE_STAT.off (port : Nat) : Nat := 0x0A01C + 0x1000 * port
abbrev ETH.PAUSE_STAT.REMAIN (port : Nat) : Fld := ⟨ETH.PAUSE_STAT.off port, 15, 0⟩
/-- Offset of ETHn.GATE_STAT (R448). -/
abbrev ETH.GATE_STAT.off (port : Nat) : Nat := 0x0A020 + 0x1000 * port
abbrev ETH.GATE_STAT.CYCLE (port : Nat) : Fld := ⟨ETH.GATE_STAT.off port, 28, 16⟩
abbrev ETH.GATE_STAT.GATES (port : Nat) : Fld := ⟨ETH.GATE_STAT.off port, 15, 8⟩
abbrev ETH.GATE_STAT.ENTRY (port : Nat) : Fld := ⟨ETH.GATE_STAT.off port, 6, 0⟩
/-- Offset of ETHn.GATE_ATICK (R448). -/
abbrev ETH.GATE_ATICK.off (port : Nat) : Nat := 0x0A024 + 0x1000 * port
abbrev ETH.GATE_ATICK.TSEQ (port : Nat) : Fld := ⟨ETH.GATE_ATICK.off port, 31, 0⟩
/-- Offset of ETHn.TSQ_STAT (R448). -/
abbrev ETH.TSQ_STAT.off (port : Nat) : Nat := 0x0A030 + 0x1000 * port
abbrev ETH.TSQ_STAT.LOST (port : Nat) : Fld := ⟨ETH.TSQ_STAT.off port, 31, 16⟩
abbrev ETH.TSQ_STAT.FILL (port : Nat) : Fld := ⟨ETH.TSQ_STAT.off port, 5, 0⟩
/-- Offset of ETHn.TSQ_FIRST (R448). -/
abbrev ETH.TSQ_FIRST.off (port : Nat) : Nat := 0x0A034 + 0x1000 * port
abbrev ETH.TSQ_FIRST.VALID (port : Nat) : Fld := ⟨ETH.TSQ_FIRST.off port, 16, 16⟩
abbrev ETH.TSQ_FIRST.SEQ (port : Nat) : Fld := ⟨ETH.TSQ_FIRST.off port, 15, 0⟩
/-- Offset of ETHn.TS_LAT (R448). -/
abbrev ETH.TS_LAT.off (port : Nat) : Nat := 0x0A038 + 0x1000 * port
abbrev ETH.TS_LAT.EGRESS (port : Nat) : Fld := ⟨ETH.TS_LAT.off port, 31, 16⟩
abbrev ETH.TS_LAT.INGRESS (port : Nat) : Fld := ⟨ETH.TS_LAT.off port, 15, 0⟩
/-- Offset of ETHn.HR_CTRL (R448). -/
abbrev ETH.HR_CTRL.off (port : Nat) : Nat := 0x0A040 + 0x1000 * port
abbrev ETH.HR_CTRL.DEPTH (port : Nat) : Fld := ⟨ETH.HR_CTRL.off port, 26, 16⟩
abbrev ETH.HR_CTRL.RX_EN (port : Nat) : Fld := ⟨ETH.HR_CTRL.off port, 1, 1⟩
abbrev ETH.HR_CTRL.TX_EN (port : Nat) : Fld := ⟨ETH.HR_CTRL.off port, 0, 0⟩
/-- Offset of ETHn.HTX_BASE (R448). -/
abbrev ETH.HTX_BASE.off (port : Nat) : Nat := 0x0A044 + 0x1000 * port
abbrev ETH.HTX_BASE.BASE (port : Nat) : Fld := ⟨ETH.HTX_BASE.off port, 31, 12⟩
/-- Offset of ETHn.HRX_BASE (R448). -/
abbrev ETH.HRX_BASE.off (port : Nat) : Nat := 0x0A048 + 0x1000 * port
abbrev ETH.HRX_BASE.BASE (port : Nat) : Fld := ⟨ETH.HRX_BASE.off port, 31, 12⟩
/-- Offset of ETHn.HTX_IDX (R448). -/
abbrev ETH.HTX_IDX.off (port : Nat) : Nat := 0x0A04C + 0x1000 * port
abbrev ETH.HTX_IDX.WR (port : Nat) : Fld := ⟨ETH.HTX_IDX.off port, 25, 16⟩
abbrev ETH.HTX_IDX.RD (port : Nat) : Fld := ⟨ETH.HTX_IDX.off port, 9, 0⟩
/-- Offset of ETHn.HRX_IDX (R448). -/
abbrev ETH.HRX_IDX.off (port : Nat) : Nat := 0x0A050 + 0x1000 * port
abbrev ETH.HRX_IDX.RD (port : Nat) : Fld := ⟨ETH.HRX_IDX.off port, 25, 16⟩
abbrev ETH.HRX_IDX.WR (port : Nat) : Fld := ⟨ETH.HRX_IDX.off port, 9, 0⟩
/-- Offset of ETHn.PRALINE_STAT (R448). -/
abbrev ETH.PRALINE_STAT.off (port : Nat) : Nat := 0x0A060 + 0x1000 * port
abbrev ETH.PRALINE_STAT.MATCH_CNT (port : Nat) : Fld := ⟨ETH.PRALINE_STAT.off port, 31, 16⟩
abbrev ETH.PRALINE_STAT.LAST_SLOT (port : Nat) : Fld := ⟨ETH.PRALINE_STAT.off port, 11, 8⟩
abbrev ETH.PRALINE_STAT.EN (port : Nat) : Fld := ⟨ETH.PRALINE_STAT.off port, 7, 0⟩
/-- Offset of ETHn.PRALINE_MASKk_0 (R448). `n` from 0 to 7. -/
abbrev ETH.PRALINE_MASK0.off (port : Nat) (n : Nat) : Nat := 0x0A080 + 0x1000 * port + 0x14 * n
abbrev ETH.PRALINE_MASK0.MASK (port : Nat) (n : Nat) : Fld := ⟨ETH.PRALINE_MASK0.off port n, 31, 0⟩
/-- Offset of ETHn.PRALINE_MASKk_1 (R448). `n` from 0 to 7. -/
abbrev ETH.PRALINE_MASK1.off (port : Nat) (n : Nat) : Nat := 0x0A084 + 0x1000 * port + 0x14 * n
abbrev ETH.PRALINE_MASK1.MASK (port : Nat) (n : Nat) : Fld := ⟨ETH.PRALINE_MASK1.off port n, 31, 0⟩
/-- Offset of ETHn.PRALINE_MASKk_2 (R448). `n` from 0 to 7. -/
abbrev ETH.PRALINE_MASK2.off (port : Nat) (n : Nat) : Nat := 0x0A088 + 0x1000 * port + 0x14 * n
abbrev ETH.PRALINE_MASK2.MASK (port : Nat) (n : Nat) : Fld := ⟨ETH.PRALINE_MASK2.off port n, 31, 0⟩
/-- Offset of ETHn.PRALINE_MASKk_3 (R448). `n` from 0 to 7. -/
abbrev ETH.PRALINE_MASK3.off (port : Nat) (n : Nat) : Nat := 0x0A08C + 0x1000 * port + 0x14 * n
abbrev ETH.PRALINE_MASK3.MASK (port : Nat) (n : Nat) : Fld := ⟨ETH.PRALINE_MASK3.off port n, 31, 0⟩
/-- Offset of ETHn.PRALINE_CRCk (R448). `n` from 0 to 7. -/
abbrev ETH.PRALINE_CRC.off (port : Nat) (n : Nat) : Nat := 0x0A090 + 0x1000 * port + 0x14 * n
abbrev ETH.PRALINE_CRC.MAGIC (port : Nat) (n : Nat) : Fld := ⟨ETH.PRALINE_CRC.off port n, 17, 17⟩
abbrev ETH.PRALINE_CRC.EN (port : Nat) (n : Nat) : Fld := ⟨ETH.PRALINE_CRC.off port n, 16, 16⟩
abbrev ETH.PRALINE_CRC.CRC (port : Nat) (n : Nat) : Fld := ⟨ETH.PRALINE_CRC.off port n, 15, 0⟩
/-- Offset of ETHn.CNTi (R448). `n` from 0 to 35. -/
abbrev ETH.CNT.off (port : Nat) (n : Nat) : Nat := 0x0A200 + 0x1000 * port + 0x4 * n
abbrev ETH.CNT.COUNT (port : Nat) (n : Nat) : Fld := ⟨ETH.CNT.off port n, 31, 0⟩

/-! ## PTP -/

/-- Offset of PTP.STAT (R449). -/
abbrev PTP.STAT.off : Nat := 0x0C000
abbrev PTP.STAT.CLASS : Fld := ⟨PTP.STAT.off, 23, 16⟩
abbrev PTP.STAT.SERVO_LOCK : Fld := ⟨PTP.STAT.off, 10, 10⟩
abbrev PTP.STAT.GM_SELF : Fld := ⟨PTP.STAT.off, 9, 9⟩
abbrev PTP.STAT.PORT1 : Fld := ⟨PTP.STAT.off, 7, 4⟩
abbrev PTP.STAT.PORT0 : Fld := ⟨PTP.STAT.off, 3, 0⟩
/-- Offset of PTP.EVT (R449). -/
abbrev PTP.EVT.off : Nat := 0x0C004
abbrev PTP.EVT.FOREIGN_GM : Fld := ⟨PTP.EVT.off, 3, 3⟩
abbrev PTP.EVT.STEP : Fld := ⟨PTP.EVT.off, 2, 2⟩
abbrev PTP.EVT.GM_CHG : Fld := ⟨PTP.EVT.off, 1, 1⟩
abbrev PTP.EVT.STATE : Fld := ⟨PTP.EVT.off, 0, 0⟩
/-- Offset of PTP.TIME_LO (R449). -/
abbrev PTP.TIME_LO.off : Nat := 0x0C008
abbrev PTP.TIME_LO.NS : Fld := ⟨PTP.TIME_LO.off, 31, 0⟩
/-- Offset of PTP.TIME_HI (R449). -/
abbrev PTP.TIME_HI.off : Nat := 0x0C00C
abbrev PTP.TIME_HI.NS : Fld := ⟨PTP.TIME_HI.off, 31, 0⟩
/-- Offset of PTP.GM_ID_LO (R449). -/
abbrev PTP.GM_ID_LO.off : Nat := 0x0C010
abbrev PTP.GM_ID_LO.ID : Fld := ⟨PTP.GM_ID_LO.off, 31, 0⟩
/-- Offset of PTP.GM_ID_HI (R449). -/
abbrev PTP.GM_ID_HI.off : Nat := 0x0C014
abbrev PTP.GM_ID_HI.ID : Fld := ⟨PTP.GM_ID_HI.off, 31, 0⟩
/-- Offset of PTP.OFS_MASTER (R449). -/
abbrev PTP.OFS_MASTER.off : Nat := 0x0C018
abbrev PTP.OFS_MASTER.NS : Fld := ⟨PTP.OFS_MASTER.off, 31, 0⟩
/-- Offset of PTP.MEAN_DELAY (R449). -/
abbrev PTP.MEAN_DELAY.off : Nat := 0x0C01C
abbrev PTP.MEAN_DELAY.NS : Fld := ⟨PTP.MEAN_DELAY.off, 31, 0⟩
/-- Offset of PTP.CNT (R449). -/
abbrev PTP.CNT.off : Nat := 0x0C020
abbrev PTP.CNT.STEPS : Fld := ⟨PTP.CNT.off, 31, 16⟩
abbrev PTP.CNT.ANN_TIMEOUT : Fld := ⟨PTP.CNT.off, 15, 0⟩
/-- Offset of PTP.STX_STATs (R449). `n` from 0 to 63. -/
abbrev PTP.STX_STAT.off (n : Nat) : Nat := 0x0C100 + 0x4 * n
abbrev PTP.STX_STAT.SLIPS (n : Nat) : Fld := ⟨PTP.STX_STAT.off n, 31, 24⟩
abbrev PTP.STX_STAT.LATE_DROP (n : Nat) : Fld := ⟨PTP.STX_STAT.off n, 23, 16⟩
abbrev PTP.STX_STAT.RUN (n : Nat) : Fld := ⟨PTP.STX_STAT.off n, 0, 0⟩
/-- Offset of PTP.SRX_STATs (R449). `n` from 0 to 63. -/
abbrev PTP.SRX_STAT.off (n : Nat) : Nat := 0x0C200 + 0x4 * n
abbrev PTP.SRX_STAT.SLIPS (n : Nat) : Fld := ⟨PTP.SRX_STAT.off n, 31, 24⟩
abbrev PTP.SRX_STAT.FILL (n : Nat) : Fld := ⟨PTP.SRX_STAT.off n, 12, 4⟩
abbrev PTP.SRX_STAT.ARRIVING (n : Nat) : Fld := ⟨PTP.SRX_STAT.off n, 1, 1⟩
abbrev PTP.SRX_STAT.RUN (n : Nat) : Fld := ⟨PTP.SRX_STAT.off n, 0, 0⟩
/-- Offset of PTP.SRX_CNTs (R449). `n` from 0 to 63. -/
abbrev PTP.SRX_CNT.off (n : Nat) : Nat := 0x0C300 + 0x4 * n
abbrev PTP.SRX_CNT.LOST (n : Nat) : Fld := ⟨PTP.SRX_CNT.off n, 31, 16⟩
abbrev PTP.SRX_CNT.LATE (n : Nat) : Fld := ⟨PTP.SRX_CNT.off n, 15, 8⟩
abbrev PTP.SRX_CNT.BAD (n : Nat) : Fld := ⟨PTP.SRX_CNT.off n, 7, 0⟩
/-- Offset of PTP.STRM_EVTw (R449). `n` from 0 to 3. -/
abbrev PTP.STRM_EVT.off (n : Nat) : Nat := 0x0C400 + 0x4 * n
abbrev PTP.STRM_EVT.EVT (n : Nat) : Fld := ⟨PTP.STRM_EVT.off n, 31, 0⟩

/-! ## CAN -/

/-- Offset of CAN.STAT (R478). -/
abbrev CAN.STAT.off : Nat := 0x10000
abbrev CAN.STAT.PHASE_US : Fld := ⟨CAN.STAT.off, 29, 16⟩
abbrev CAN.STAT.WIN : Fld := ⟨CAN.STAT.off, 13, 8⟩
abbrev CAN.STAT.EXCL_SUSP : Fld := ⟨CAN.STAT.off, 6, 6⟩
abbrev CAN.STAT.TSRC : Fld := ⟨CAN.STAT.off, 5, 4⟩
abbrev CAN.STAT.LISTEN : Fld := ⟨CAN.STAT.off, 3, 3⟩
abbrev CAN.STAT.RECOVERING : Fld := ⟨CAN.STAT.off, 2, 2⟩
abbrev CAN.STAT.ERR_STATE : Fld := ⟨CAN.STAT.off, 1, 0⟩
/-- Offset of CAN.CFG (R478). -/
abbrev CAN.CFG.off : Nat := 0x10004
abbrev CAN.CFG.TDC_OFS : Fld := ⟨CAN.CFG.off, 29, 24⟩
abbrev CAN.CFG.WIN_TOL : Fld := ⟨CAN.CFG.off, 23, 16⟩
abbrev CAN.CFG.GUARD : Fld := ⟨CAN.CFG.off, 15, 8⟩
abbrev CAN.CFG.DATA : Fld := ⟨CAN.CFG.off, 4, 3⟩
abbrev CAN.CFG.NOM : Fld := ⟨CAN.CFG.off, 2, 1⟩
abbrev CAN.CFG.EN : Fld := ⟨CAN.CFG.off, 0, 0⟩
/-- Offset of CAN.ID_BASE (R478). -/
abbrev CAN.ID_BASE.off : Nat := 0x10008
abbrev CAN.ID_BASE.BASE : Fld := ⟨CAN.ID_BASE.off, 10, 7⟩
/-- Offset of CAN.ERR (R478). -/
abbrev CAN.ERR.off : Nat := 0x1000C
abbrev CAN.ERR.PROTO_CNT : Fld := ⟨CAN.ERR.off, 31, 24⟩
abbrev CAN.ERR.BUSOFF_CNT : Fld := ⟨CAN.ERR.off, 23, 16⟩
abbrev CAN.ERR.REC : Fld := ⟨CAN.ERR.off, 15, 8⟩
abbrev CAN.ERR.TEC : Fld := ⟨CAN.ERR.off, 7, 0⟩
/-- Offset of CAN.EVT (R478). -/
abbrev CAN.EVT.off : Nat := 0x10010
abbrev CAN.EVT.WAKE : Fld := ⟨CAN.EVT.off, 7, 7⟩
abbrev CAN.EVT.VOICE : Fld := ⟨CAN.EVT.off, 6, 6⟩
abbrev CAN.EVT.WINDOW : Fld := ⟨CAN.EVT.off, 5, 5⟩
abbrev CAN.EVT.TSRC_CHG : Fld := ⟨CAN.EVT.off, 4, 4⟩
abbrev CAN.EVT.SUSPEND : Fld := ⟨CAN.EVT.off, 3, 3⟩
abbrev CAN.EVT.PROTO : Fld := ⟨CAN.EVT.off, 2, 2⟩
abbrev CAN.EVT.PASSIVE : Fld := ⟨CAN.EVT.off, 1, 1⟩
abbrev CAN.EVT.BUS_OFF : Fld := ⟨CAN.EVT.off, 0, 0⟩
/-- Offset of CAN.CYCLE (R478). -/
abbrev CAN.CYCLE.off : Nat := 0x10014
abbrev CAN.CYCLE.CNT : Fld := ⟨CAN.CYCLE.off, 31, 0⟩
/-- Offset of CAN.REF (R478). -/
abbrev CAN.REF.off : Nat := 0x10018
abbrev CAN.REF.MISS : Fld := ⟨CAN.REF.off, 31, 24⟩
abbrev CAN.REF.DIFF_US : Fld := ⟨CAN.REF.off, 15, 0⟩
/-- Offset of CAN.REF_UID_LO (R478). -/
abbrev CAN.REF_UID_LO.off : Nat := 0x1001C
abbrev CAN.REF_UID_LO.UID : Fld := ⟨CAN.REF_UID_LO.off, 31, 0⟩
/-- Offset of CAN.REF_UID_HI (R478). -/
abbrev CAN.REF_UID_HI.off : Nat := 0x10020
abbrev CAN.REF_UID_HI.UID : Fld := ⟨CAN.REF_UID_HI.off, 31, 0⟩
/-- Offset of CAN.BUF_BASE (R478). -/
abbrev CAN.BUF_BASE.off : Nat := 0x10024
abbrev CAN.BUF_BASE.BASE : Fld := ⟨CAN.BUF_BASE.off, 31, 12⟩
/-- Offset of CAN.VOICE_STAT (R478). -/
abbrev CAN.VOICE_STAT.off : Nat := 0x10028
abbrev CAN.VOICE_STAT.LATE : Fld := ⟨CAN.VOICE_STAT.off, 31, 16⟩
abbrev CAN.VOICE_STAT.CH1 : Fld := ⟨CAN.VOICE_STAT.off, 15, 8⟩
abbrev CAN.VOICE_STAT.CH0 : Fld := ⟨CAN.VOICE_STAT.off, 7, 0⟩
/-- Offset of CAN.VIOL_TOTAL (R478). -/
abbrev CAN.VIOL_TOTAL.off : Nat := 0x10030
abbrev CAN.VIOL_TOTAL.COUNT : Fld := ⟨CAN.VIOL_TOTAL.off, 31, 0⟩
/-- Offset of CAN.VIOLv_ID (R478). `n` from 0 to 7. -/
abbrev CAN.VIOL_ID.off (n : Nat) : Nat := 0x10040 + 0x8 * n
abbrev CAN.VIOL_ID.VALID (n : Nat) : Fld := ⟨CAN.VIOL_ID.off n, 31, 31⟩
abbrev CAN.VIOL_ID.XTD (n : Nat) : Fld := ⟨CAN.VIOL_ID.off n, 29, 29⟩
abbrev CAN.VIOL_ID.ID (n : Nat) : Fld := ⟨CAN.VIOL_ID.off n, 28, 0⟩
/-- Offset of CAN.VIOLv_CNT (R478). `n` from 0 to 7. -/
abbrev CAN.VIOL_CNT.off (n : Nat) : Nat := 0x10044 + 0x8 * n
abbrev CAN.VIOL_CNT.CNT (n : Nat) : Fld := ⟨CAN.VIOL_CNT.off n, 31, 16⟩
abbrev CAN.VIOL_CNT.LAST_OFS_US (n : Nat) : Fld := ⟨CAN.VIOL_CNT.off n, 15, 0⟩
/-- Offset of CAN.WAKE_CFG (R478). -/
abbrev CAN.WAKE_CFG.off : Nat := 0x10080
abbrev CAN.WAKE_CFG.MODE : Fld := ⟨CAN.WAKE_CFG.off, 0, 0⟩
/-- Offset of CAN.WAKE_LAST (R478). -/
abbrev CAN.WAKE_LAST.off : Nat := 0x10084
abbrev CAN.WAKE_LAST.XTD : Fld := ⟨CAN.WAKE_LAST.off, 29, 29⟩
abbrev CAN.WAKE_LAST.ID : Fld := ⟨CAN.WAKE_LAST.off, 28, 0⟩
/-- Offset of CAN.SCHED (R478). -/
abbrev CAN.SCHED.off : Nat := 0x10088
abbrev CAN.SCHED.NWIN : Fld := ⟨CAN.SCHED.off, 6, 0⟩
/-- Offset of CAN.SCHED_ATICK (R478). -/
abbrev CAN.SCHED_ATICK.off : Nat := 0x1008C
abbrev CAN.SCHED_ATICK.TSEQ : Fld := ⟨CAN.SCHED_ATICK.off, 31, 0⟩
/-- Offset of CAN.RX_EVTw (R478). `n` from 0 to 3. -/
abbrev CAN.RX_EVT.off (n : Nat) : Nat := 0x10100 + 0x4 * n
abbrev CAN.RX_EVT.EVT (n : Nat) : Fld := ⟨CAN.RX_EVT.off n, 31, 0⟩
/-- Offset of CAN.TX_EVTw (R478). `n` from 0 to 3. -/
abbrev CAN.TX_EVT.off (n : Nat) : Nat := 0x10110 + 0x4 * n
abbrev CAN.TX_EVT.EVT (n : Nat) : Fld := ⟨CAN.TX_EVT.off n, 31, 0⟩
/-- Offset of CAN.TX_FAILw (R478). `n` from 0 to 3. -/
abbrev CAN.TX_FAIL.off (n : Nat) : Nat := 0x10120 + 0x4 * n
abbrev CAN.TX_FAIL.EVT (n : Nat) : Fld := ⟨CAN.TX_FAIL.off n, 31, 0⟩
/-- Offset of CAN.WINx_T (R478). `n` from 0 to 63. -/
abbrev CAN.WIN_T.off (n : Nat) : Nat := 0x10400 + 0x8 * n
abbrev CAN.WIN_T.LEN_US (n : Nat) : Fld := ⟨CAN.WIN_T.off n, 29, 16⟩
abbrev CAN.WIN_T.START_US (n : Nat) : Fld := ⟨CAN.WIN_T.off n, 13, 0⟩
/-- Offset of CAN.WINx_O (R478). `n` from 0 to 63. -/
abbrev CAN.WIN_O.off (n : Nat) : Nat := 0x10404 + 0x8 * n
abbrev CAN.WIN_O.TYPE (n : Nat) : Fld := ⟨CAN.WIN_O.off n, 8, 8⟩
abbrev CAN.WIN_O.OWNER (n : Nat) : Fld := ⟨CAN.WIN_O.off n, 7, 0⟩
/-- Offset of CAN.OBJk_CFG (R478). `n` from 0 to 127. -/
abbrev CAN.OBJ_CFG.off (n : Nat) : Nat := 0x10800 + 0x10 * n
abbrev CAN.OBJ_CFG.EN (n : Nat) : Fld := ⟨CAN.OBJ_CFG.off n, 15, 15⟩
abbrev CAN.OBJ_CFG.DLC (n : Nat) : Fld := ⟨CAN.OBJ_CFG.off n, 11, 8⟩
abbrev CAN.OBJ_CFG.XTD (n : Nat) : Fld := ⟨CAN.OBJ_CFG.off n, 4, 4⟩
abbrev CAN.OBJ_CFG.ONESHOT (n : Nat) : Fld := ⟨CAN.OBJ_CFG.off n, 3, 3⟩
abbrev CAN.OBJ_CFG.BRS (n : Nat) : Fld := ⟨CAN.OBJ_CFG.off n, 2, 2⟩
abbrev CAN.OBJ_CFG.FD (n : Nat) : Fld := ⟨CAN.OBJ_CFG.off n, 1, 1⟩
abbrev CAN.OBJ_CFG.DIR (n : Nat) : Fld := ⟨CAN.OBJ_CFG.off n, 0, 0⟩
/-- Offset of CAN.OBJk_ID (R478). `n` from 0 to 127. -/
abbrev CAN.OBJ_ID.off (n : Nat) : Nat := 0x10804 + 0x10 * n
abbrev CAN.OBJ_ID.ID (n : Nat) : Fld := ⟨CAN.OBJ_ID.off n, 28, 0⟩
/-- Offset of CAN.OBJk_MASK (R478). `n` from 0 to 127. -/
abbrev CAN.OBJ_MASK.off (n : Nat) : Nat := 0x10808 + 0x10 * n
abbrev CAN.OBJ_MASK.MASK (n : Nat) : Fld := ⟨CAN.OBJ_MASK.off n, 28, 0⟩
/-- Offset of CAN.OBJk_STAT (R478). `n` from 0 to 127. -/
abbrev CAN.OBJ_STAT.off (n : Nat) : Nat := 0x1080C + 0x10 * n
abbrev CAN.OBJ_STAT.TX_CAUSE (n : Nat) : Fld := ⟨CAN.OBJ_STAT.off n, 20, 18⟩
abbrev CAN.OBJ_STAT.TX_PEND (n : Nat) : Fld := ⟨CAN.OBJ_STAT.off n, 17, 17⟩
abbrev CAN.OBJ_STAT.TX_REQ (n : Nat) : Fld := ⟨CAN.OBJ_STAT.off n, 16, 16⟩
abbrev CAN.OBJ_STAT.OVW (n : Nat) : Fld := ⟨CAN.OBJ_STAT.off n, 15, 8⟩
abbrev CAN.OBJ_STAT.RELEASE (n : Nat) : Fld := ⟨CAN.OBJ_STAT.off n, 4, 4⟩
abbrev CAN.OBJ_STAT.HOLD (n : Nat) : Fld := ⟨CAN.OBJ_STAT.off n, 3, 3⟩
abbrev CAN.OBJ_STAT.CUR (n : Nat) : Fld := ⟨CAN.OBJ_STAT.off n, 2, 2⟩
abbrev CAN.OBJ_STAT.HELD (n : Nat) : Fld := ⟨CAN.OBJ_STAT.off n, 1, 1⟩
abbrev CAN.OBJ_STAT.NEW (n : Nat) : Fld := ⟨CAN.OBJ_STAT.off n, 0, 0⟩

/-! ## STK -/

/-- Offset of STK.STAT (R495). -/
abbrev STK.STAT.off : Nat := 0x12000
abbrev STK.STAT.TWIN_USE : Fld := ⟨STK.STAT.off, 14, 14⟩
abbrev STK.STAT.CONFLICT : Fld := ⟨STK.STAT.off, 13, 13⟩
abbrev STK.STAT.TIME_LOCK : Fld := ⟨STK.STAT.off, 12, 12⟩
abbrev STK.STAT.MEMBERS : Fld := ⟨STK.STAT.off, 9, 8⟩
abbrev STK.STAT.SUB : Fld := ⟨STK.STAT.off, 5, 4⟩
abbrev STK.STAT.ROLE : Fld := ⟨STK.STAT.off, 1, 0⟩
/-- Offset of STK.EVT (R495). -/
abbrev STK.EVT.off : Nat := 0x12004
abbrev STK.EVT.IMG_LATE : Fld := ⟨STK.EVT.off, 6, 6⟩
abbrev STK.EVT.RECORD_LATE : Fld := ⟨STK.EVT.off, 5, 5⟩
abbrev STK.EVT.CONFLICT : Fld := ⟨STK.EVT.off, 4, 4⟩
abbrev STK.EVT.AUTH_FAIL : Fld := ⟨STK.EVT.off, 3, 3⟩
abbrev STK.EVT.HEAD_LOST : Fld := ⟨STK.EVT.off, 2, 2⟩
abbrev STK.EVT.MEMBER_LOST : Fld := ⟨STK.EVT.off, 1, 1⟩
abbrev STK.EVT.MEMBER_JOIN : Fld := ⟨STK.EVT.off, 0, 0⟩
/-- Offset of STK.MEMBER_MAP (R495). -/
abbrev STK.MEMBER_MAP.off : Nat := 0x12008
abbrev STK.MEMBER_MAP.AUTH_FAIL : Fld := ⟨STK.MEMBER_MAP.off, 10, 8⟩
abbrev STK.MEMBER_MAP.ADMITTED : Fld := ⟨STK.MEMBER_MAP.off, 6, 4⟩
abbrev STK.MEMBER_MAP.PRESENT : Fld := ⟨STK.MEMBER_MAP.off, 2, 0⟩
/-- Offset of STK.TIME (R495). -/
abbrev STK.TIME.off : Nat := 0x1200C
abbrev STK.TIME.HOP_DLY : Fld := ⟨STK.TIME.off, 31, 16⟩
abbrev STK.TIME.OFS_NS : Fld := ⟨STK.TIME.off, 15, 0⟩
/-- Offset of STK.LINKSTATp (R495). `n` from 0 to 1. -/
abbrev STK.LINKSTAT.off (n : Nat) : Nat := 0x12010 + 0x10 * n
abbrev STK.LINKSTAT.LAT_UI (n : Nat) : Fld := ⟨STK.LINKSTAT.off n, 23, 16⟩
abbrev STK.LINKSTAT.BLOCK_LOCK (n : Nat) : Fld := ⟨STK.LINKSTAT.off n, 8, 8⟩
abbrev STK.LINKSTAT.LOS (n : Nat) : Fld := ⟨STK.LINKSTAT.off n, 7, 7⟩
abbrev STK.LINKSTAT.STATE (n : Nat) : Fld := ⟨STK.LINKSTAT.off n, 3, 0⟩
/-- Offset of STK.LINKERRp (R495). `n` from 0 to 1. -/
abbrev STK.LINKERR.off (n : Nat) : Nat := 0x12014 + 0x10 * n
abbrev STK.LINKERR.LOSS_CNT (n : Nat) : Fld := ⟨STK.LINKERR.off n, 31, 16⟩
abbrev STK.LINKERR.ERR_CNT (n : Nat) : Fld := ⟨STK.LINKERR.off n, 15, 0⟩
/-- Offset of STK.TXEQp (R495). `n` from 0 to 1. -/
abbrev STK.TXEQ.off (n : Nat) : Nat := 0x12018 + 0x10 * n
abbrev STK.TXEQ.DEEMPH (n : Nat) : Fld := ⟨STK.TXEQ.off n, 7, 4⟩
abbrev STK.TXEQ.SWING (n : Nat) : Fld := ⟨STK.TXEQ.off n, 2, 0⟩
/-- Offset of STK.LTESTp (R495). `n` from 0 to 1. -/
abbrev STK.LTEST.off (n : Nat) : Nat := 0x1201C + 0x10 * n
abbrev STK.LTEST.INJECT (n : Nat) : Fld := ⟨STK.LTEST.off n, 8, 8⟩
abbrev STK.LTEST.CHK_LOCK (n : Nat) : Fld := ⟨STK.LTEST.off n, 4, 4⟩
abbrev STK.LTEST.MODE (n : Nat) : Fld := ⟨STK.LTEST.off n, 1, 0⟩
/-- Offset of STK.PRBS_ERRp (R495). `n` from 0 to 1. -/
abbrev STK.PRBS_ERR.off (n : Nat) : Nat := 0x12040 + 0x8 * n
abbrev STK.PRBS_ERR.ERR (n : Nat) : Fld := ⟨STK.PRBS_ERR.off n, 31, 0⟩
/-- Offset of STK.PRBS_BITSp (R495). `n` from 0 to 1. -/
abbrev STK.PRBS_BITS.off (n : Nat) : Nat := 0x12044 + 0x8 * n
abbrev STK.PRBS_BITS.BITS (n : Nat) : Fld := ⟨STK.PRBS_BITS.off n, 31, 0⟩
/-- Offset of STK.MEMBERs_STAT (R495). `n` from 1 to 3. -/
abbrev STK.MEMBER_STAT.off (n : Nat) : Nat := 0x12060 + 0x10 * (n - 1)
abbrev STK.MEMBER_STAT.REC_BYTES (n : Nat) : Fld := ⟨STK.MEMBER_STAT.off n, 27, 16⟩
abbrev STK.MEMBER_STAT.LOCKED (n : Nat) : Fld := ⟨STK.MEMBER_STAT.off n, 3, 3⟩
abbrev STK.MEMBER_STAT.AUTH_FAIL (n : Nat) : Fld := ⟨STK.MEMBER_STAT.off n, 2, 2⟩
abbrev STK.MEMBER_STAT.ADMITTED (n : Nat) : Fld := ⟨STK.MEMBER_STAT.off n, 1, 1⟩
abbrev STK.MEMBER_STAT.PRESENT (n : Nat) : Fld := ⟨STK.MEMBER_STAT.off n, 0, 0⟩
/-- Offset of STK.MEMBERs_UID_LO (R495). `n` from 1 to 3. -/
abbrev STK.MEMBER_UID_LO.off (n : Nat) : Nat := 0x12064 + 0x10 * (n - 1)
abbrev STK.MEMBER_UID_LO.UID (n : Nat) : Fld := ⟨STK.MEMBER_UID_LO.off n, 31, 0⟩
/-- Offset of STK.MEMBERs_UID_HI (R495). `n` from 1 to 3. -/
abbrev STK.MEMBER_UID_HI.off (n : Nat) : Nat := 0x12068 + 0x10 * (n - 1)
abbrev STK.MEMBER_UID_HI.UID (n : Nat) : Fld := ⟨STK.MEMBER_UID_HI.off n, 31, 0⟩
/-- Offset of STK.MEMBERs_CNT (R495). `n` from 1 to 3. -/
abbrev STK.MEMBER_CNT.off (n : Nat) : Nat := 0x1206C + 0x10 * (n - 1)
abbrev STK.MEMBER_CNT.LATE_CNT (n : Nat) : Fld := ⟨STK.MEMBER_CNT.off n, 31, 16⟩
abbrev STK.MEMBER_CNT.LOST_CNT (n : Nat) : Fld := ⟨STK.MEMBER_CNT.off n, 15, 0⟩

/-! ## PWR -/

/-- Offset of PWR.STAT (R523). -/
abbrev PWR.STAT.off : Nat := 0x13000
abbrev PWR.STAT.FAULT_N : Fld := ⟨PWR.STAT.off, 23, 23⟩
abbrev PWR.STAT.PDW : Fld := ⟨PWR.STAT.off, 22, 22⟩
abbrev PWR.STAT.VMAIN_OK : Fld := ⟨PWR.STAT.off, 21, 21⟩
abbrev PWR.STAT.MODE : Fld := ⟨PWR.STAT.off, 17, 16⟩
abbrev PWR.STAT.TARGET : Fld := ⟨PWR.STAT.off, 11, 8⟩
abbrev PWR.STAT.STATE : Fld := ⟨PWR.STAT.off, 3, 0⟩
/-- Offset of PWR.EVT (R523). -/
abbrev PWR.EVT.off : Nat := 0x13004
abbrev PWR.EVT.PDW : Fld := ⟨PWR.EVT.off, 4, 4⟩
abbrev PWR.EVT.RAIL_FAULT : Fld := ⟨PWR.EVT.off, 3, 3⟩
abbrev PWR.EVT.ORDER_ERR : Fld := ⟨PWR.EVT.off, 2, 2⟩
abbrev PWR.EVT.WAKE : Fld := ⟨PWR.EVT.off, 1, 1⟩
abbrev PWR.EVT.STATE_CHG : Fld := ⟨PWR.EVT.off, 0, 0⟩
/-- Offset of PWR.CFG (R523). -/
abbrev PWR.CFG.off : Nat := 0x13008
abbrev PWR.CFG.STBY_DWELL_S : Fld := ⟨PWR.CFG.off, 31, 16⟩
abbrev PWR.CFG.ALM_EN : Fld := ⟨PWR.CFG.off, 8, 8⟩
abbrev PWR.CFG.QUIET_POINT : Fld := ⟨PWR.CFG.off, 1, 0⟩
/-- Offset of PWR.PERF (R523). -/
abbrev PWR.PERF.off : Nat := 0x1300C
abbrev PWR.PERF.VOLT_READY : Fld := ⟨PWR.PERF.off, 8, 8⟩
abbrev PWR.PERF.VOLT_PT : Fld := ⟨PWR.PERF.off, 5, 4⟩
abbrev PWR.PERF.FREQ_PT : Fld := ⟨PWR.PERF.off, 1, 0⟩
/-- Offset of PWR.ERR (R523). -/
abbrev PWR.ERR.off : Nat := 0x13010
abbrev PWR.ERR.RAIL_FAULT_CNT : Fld := ⟨PWR.ERR.off, 31, 16⟩
abbrev PWR.ERR.ORDER_CNT : Fld := ⟨PWR.ERR.off, 15, 0⟩
/-- Offset of PWR.WAKE_SRC (R523). -/
abbrev PWR.WAKE_SRC.off : Nat := 0x13020
abbrev PWR.WAKE_SRC.ALSO : Fld := ⟨PWR.WAKE_SRC.off, 31, 16⟩
abbrev PWR.WAKE_SRC.DETAIL : Fld := ⟨PWR.WAKE_SRC.off, 15, 8⟩
abbrev PWR.WAKE_SRC.SRC : Fld := ⟨PWR.WAKE_SRC.off, 7, 0⟩
/-- Offset of PWR.WAKE_EN (R523). -/
abbrev PWR.WAKE_EN.off : Nat := 0x13024
abbrev PWR.WAKE_EN.EN : Fld := ⟨PWR.WAKE_EN.off, 10, 1⟩
/-- Offset of PWR.WAKE_TO0 (R523). -/
abbrev PWR.WAKE_TO0.off : Nat := 0x13028
abbrev PWR.WAKE_TO0.TO_OSC : Fld := ⟨PWR.WAKE_TO0.off, 31, 16⟩
abbrev PWR.WAKE_TO0.TO_REG : Fld := ⟨PWR.WAKE_TO0.off, 15, 0⟩
/-- Offset of PWR.WAKE_TO1 (R523). -/
abbrev PWR.WAKE_TO1.off : Nat := 0x1302C
abbrev PWR.WAKE_TO1.TO_LOGIC : Fld := ⟨PWR.WAKE_TO1.off, 31, 16⟩
abbrev PWR.WAKE_TO1.TO_STORE : Fld := ⟨PWR.WAKE_TO1.off, 15, 0⟩
/-- Offset of PWR.WAKE_CTRL (R523). -/
abbrev PWR.WAKE_CTRL.off : Nat := 0x13030
abbrev PWR.WAKE_CTRL.RETRIES : Fld := ⟨PWR.WAKE_CTRL.off, 2, 0⟩
/-- Offset of PWR.WAKE_STAT (R523). -/
abbrev PWR.WAKE_STAT.off : Nat := 0x13034
abbrev PWR.WAKE_STAT.ATTEMPTS : Fld := ⟨PWR.WAKE_STAT.off, 19, 16⟩
abbrev PWR.WAKE_STAT.LAST_DUR : Fld := ⟨PWR.WAKE_STAT.off, 15, 0⟩
/-- Offset of PWR.AO_FAULT (R523). -/
abbrev PWR.AO_FAULT.off : Nat := 0x13038
abbrev PWR.AO_FAULT.CAUSE : Fld := ⟨PWR.AO_FAULT.off, 31, 28⟩
abbrev PWR.AO_FAULT.STEP : Fld := ⟨PWR.AO_FAULT.off, 27, 24⟩
abbrev PWR.AO_FAULT.ATTEMPTS : Fld := ⟨PWR.AO_FAULT.off, 23, 20⟩
abbrev PWR.AO_FAULT.VALID : Fld := ⟨PWR.AO_FAULT.off, 16, 16⟩
abbrev PWR.AO_FAULT.RTC_S : Fld := ⟨PWR.AO_FAULT.off, 15, 0⟩
/-- Offset of PWR.WAKE_FAIL_CNT (R523). -/
abbrev PWR.WAKE_FAIL_CNT.off : Nat := 0x1303C
abbrev PWR.WAKE_FAIL_CNT.COUNT : Fld := ⟨PWR.WAKE_FAIL_CNT.off, 31, 0⟩
/-- Offset of PWR.WAKE_CNT (R523). -/
abbrev PWR.WAKE_CNT.off : Nat := 0x13040
abbrev PWR.WAKE_CNT.COUNT : Fld := ⟨PWR.WAKE_CNT.off, 31, 0⟩
/-- Offset of PWR.RTC_LO (R523). -/
abbrev PWR.RTC_LO.off : Nat := 0x13048
abbrev PWR.RTC_LO.NS : Fld := ⟨PWR.RTC_LO.off, 31, 0⟩
/-- Offset of PWR.RTC_HI (R523). -/
abbrev PWR.RTC_HI.off : Nat := 0x1304C
abbrev PWR.RTC_HI.NS : Fld := ⟨PWR.RTC_HI.off, 31, 0⟩
/-- Offset of PWR.RTC_ALM_LO (R523). -/
abbrev PWR.RTC_ALM_LO.off : Nat := 0x13050
abbrev PWR.RTC_ALM_LO.NS : Fld := ⟨PWR.RTC_ALM_LO.off, 31, 0⟩
/-- Offset of PWR.RTC_ALM_HI (R523). -/
abbrev PWR.RTC_ALM_HI.off : Nat := 0x13054
abbrev PWR.RTC_ALM_HI.NS : Fld := ⟨PWR.RTC_ALM_HI.off, 31, 0⟩
/-- Offset of PWR.VOTEd (R523). `n` from 0 to 11. -/
abbrev PWR.VOTE.off (n : Nat) : Nat := 0x13080 + 0x4 * n
abbrev PWR.VOTE.LEVEL (n : Nat) : Fld := ⟨PWR.VOTE.off n, 25, 24⟩
abbrev PWR.VOTE.DEP (n : Nat) : Fld := ⟨PWR.VOTE.off n, 16, 16⟩
abbrev PWR.VOTE.CLIENTS (n : Nat) : Fld := ⟨PWR.VOTE.off n, 8, 0⟩
/-- Offset of PWR.HOST_VOTE (R523). -/
abbrev PWR.HOST_VOTE.off : Nat := 0x130C0
abbrev PWR.HOST_VOTE.VOTE : Fld := ⟨PWR.HOST_VOTE.off, 11, 1⟩
/-- Offset of PWR.RES_ACTIVE (R523). -/
abbrev PWR.RES_ACTIVE.off : Nat := 0x130D0
abbrev PWR.RES_ACTIVE.SECONDS : Fld := ⟨PWR.RES_ACTIVE.off, 31, 0⟩
/-- Offset of PWR.RES_QUIET (R523). -/
abbrev PWR.RES_QUIET.off : Nat := 0x130D4
abbrev PWR.RES_QUIET.SECONDS : Fld := ⟨PWR.RES_QUIET.off, 31, 0⟩
/-- Offset of PWR.RES_STANDBY (R523). -/
abbrev PWR.RES_STANDBY.off : Nat := 0x130D8
abbrev PWR.RES_STANDBY.SECONDS : Fld := ⟨PWR.RES_STANDBY.off, 31, 0⟩
/-- Offset of PWR.RES_SLEEP (R523). -/
abbrev PWR.RES_SLEEP.off : Nat := 0x130DC
abbrev PWR.RES_SLEEP.SECONDS : Fld := ⟨PWR.RES_SLEEP.off, 31, 0⟩
/-- Offset of PWR.RAIL_STAT (R523). -/
abbrev PWR.RAIL_STAT.off : Nat := 0x13100
abbrev PWR.RAIL_STAT.SEQ_BUSY : Fld := ⟨PWR.RAIL_STAT.off, 24, 24⟩
abbrev PWR.RAIL_STAT.FAULT : Fld := ⟨PWR.RAIL_STAT.off, 23, 16⟩
abbrev PWR.RAIL_STAT.PG : Fld := ⟨PWR.RAIL_STAT.off, 15, 8⟩
abbrev PWR.RAIL_STAT.EN : Fld := ⟨PWR.RAIL_STAT.off, 7, 0⟩
/-- Offset of PWR.RAILr_CFG (R523). `n` from 0 to 7. -/
abbrev PWR.RAIL_CFG.off (n : Nat) : Nat := 0x13120 + 0x8 * n
abbrev PWR.RAIL_CFG.PG_TO_MS (n : Nat) : Fld := ⟨PWR.RAIL_CFG.off n, 25, 16⟩
abbrev PWR.RAIL_CFG.ON_DLY_MS (n : Nat) : Fld := ⟨PWR.RAIL_CFG.off n, 13, 4⟩
abbrev PWR.RAIL_CFG.STEP (n : Nat) : Fld := ⟨PWR.RAIL_CFG.off n, 2, 0⟩
/-- Offset of PWR.RAILr_OFF (R523). `n` from 0 to 7. -/
abbrev PWR.RAIL_OFF.off (n : Nat) : Nat := 0x13124 + 0x8 * n
abbrev PWR.RAIL_OFF.OFF_DLY_MS (n : Nat) : Fld := ⟨PWR.RAIL_OFF.off n, 9, 0⟩
/-- Offset of PWR.NET_STAT (R562). -/
abbrev PWR.NET_STAT.off : Nat := 0x13180
abbrev PWR.NET_STAT.HOLDERS : Fld := ⟨PWR.NET_STAT.off, 21, 16⟩
abbrev PWR.NET_STAT.REASON : Fld := ⟨PWR.NET_STAT.off, 14, 8⟩
abbrev PWR.NET_STAT.WAKE_PEND : Fld := ⟨PWR.NET_STAT.off, 5, 5⟩
abbrev PWR.NET_STAT.HOLD : Fld := ⟨PWR.NET_STAT.off, 4, 4⟩
abbrev PWR.NET_STAT.NSTATE : Fld := ⟨PWR.NET_STAT.off, 2, 0⟩
/-- Offset of PWR.NET_CFG (R562). -/
abbrev PWR.NET_CFG.off : Nat := 0x13184
abbrev PWR.NET_CFG.SLEEP_IDLE_S : Fld := ⟨PWR.NET_CFG.off, 31, 16⟩
abbrev PWR.NET_CFG.WAKE_VALID : Fld := ⟨PWR.NET_CFG.off, 15, 8⟩
abbrev PWR.NET_CFG.PULSE_10MS : Fld := ⟨PWR.NET_CFG.off, 7, 0⟩
/-- Offset of PWR.NET_TRAIN_SRC (R562). -/
abbrev PWR.NET_TRAIN_SRC.off : Nat := 0x13188
abbrev PWR.NET_TRAIN_SRC.EN : Fld := ⟨PWR.NET_TRAIN_SRC.off, 10, 1⟩
/-- Offset of PWR.HOST_HOLD (R562). -/
abbrev PWR.HOST_HOLD.off : Nat := 0x1318C
abbrev PWR.HOST_HOLD.SET : Fld := ⟨PWR.HOST_HOLD.off, 7, 7⟩
abbrev PWR.HOST_HOLD.REASON : Fld := ⟨PWR.HOST_HOLD.off, 6, 0⟩
/-- Offset of PWR.HOLD_MAP (R562). -/
abbrev PWR.HOLD_MAP.off : Nat := 0x13190
abbrev PWR.HOLD_MAP.ACTIVE : Fld := ⟨PWR.HOLD_MAP.off, 31, 1⟩
/-- Offset of PWR.IDLE_S (R562). -/
abbrev PWR.IDLE_S.off : Nat := 0x13194
abbrev PWR.IDLE_S.SECONDS : Fld := ⟨PWR.IDLE_S.off, 31, 0⟩
/-- Offset of PWR.NET_EVT (R562). -/
abbrev PWR.NET_EVT.off : Nat := 0x13198
abbrev PWR.NET_EVT.IN_STUCK : Fld := ⟨PWR.NET_EVT.off, 6, 6⟩
abbrev PWR.NET_EVT.LONE_SLEEP : Fld := ⟨PWR.NET_EVT.off, 5, 5⟩
abbrev PWR.NET_EVT.FALSE_WAKE : Fld := ⟨PWR.NET_EVT.off, 4, 4⟩
abbrev PWR.NET_EVT.HOLDER_REC : Fld := ⟨PWR.NET_EVT.off, 3, 3⟩
abbrev PWR.NET_EVT.WITHDRAW : Fld := ⟨PWR.NET_EVT.off, 2, 2⟩
abbrev PWR.NET_EVT.AGREED : Fld := ⟨PWR.NET_EVT.off, 1, 1⟩
abbrev PWR.NET_EVT.PROPOSED : Fld := ⟨PWR.NET_EVT.off, 0, 0⟩
/-- Offset of PWR.SLEEP_TSEQ (R562). -/
abbrev PWR.SLEEP_TSEQ.off : Nat := 0x1319C
abbrev PWR.SLEEP_TSEQ.TSEQ : Fld := ⟨PWR.SLEEP_TSEQ.off, 31, 0⟩
/-- Offset of PWR.FALSE_WAKE (R562). -/
abbrev PWR.FALSE_WAKE.off : Nat := 0x131A0
abbrev PWR.FALSE_WAKE.COUNT : Fld := ⟨PWR.FALSE_WAKE.off, 31, 16⟩
abbrev PWR.FALSE_WAKE.LAST_SRC : Fld := ⟨PWR.FALSE_WAKE.off, 7, 0⟩
/-- Offset of PWR.WAKE_OUT (R562). -/
abbrev PWR.WAKE_OUT.off : Nat := 0x131A4
abbrev PWR.WAKE_OUT.PULSES : Fld := ⟨PWR.WAKE_OUT.off, 31, 24⟩
abbrev PWR.WAKE_OUT.SUPPRESSED : Fld := ⟨PWR.WAKE_OUT.off, 23, 16⟩
abbrev PWR.WAKE_OUT.FILTERED : Fld := ⟨PWR.WAKE_OUT.off, 15, 8⟩
abbrev PWR.WAKE_OUT.LAST_REQ : Fld := ⟨PWR.WAKE_OUT.off, 2, 2⟩
abbrev PWR.WAKE_OUT.IN : Fld := ⟨PWR.WAKE_OUT.off, 1, 1⟩
abbrev PWR.WAKE_OUT.DRIVE : Fld := ⟨PWR.WAKE_OUT.off, 0, 0⟩
/-- Offset of PWR.HOLDER_MAP (R562). -/
abbrev PWR.HOLDER_MAP.off : Nat := 0x131A8
abbrev PWR.HOLDER_MAP.MAP : Fld := ⟨PWR.HOLDER_MAP.off, 31, 0⟩
/-- Offset of PWR.ACK_MAP (R562). -/
abbrev PWR.ACK_MAP.off : Nat := 0x131AC
abbrev PWR.ACK_MAP.MAP : Fld := ⟨PWR.ACK_MAP.off, 31, 0⟩
/-- Offset of PWR.HOLDER_LO (R562). -/
abbrev PWR.HOLDER_LO.off : Nat := 0x131B0
abbrev PWR.HOLDER_LO.UID : Fld := ⟨PWR.HOLDER_LO.off, 31, 0⟩
/-- Offset of PWR.HOLDER_HI (R562). -/
abbrev PWR.HOLDER_HI.off : Nat := 0x131B4
abbrev PWR.HOLDER_HI.UID : Fld := ⟨PWR.HOLDER_HI.off, 31, 0⟩
/-- Offset of PWR.HOLDER_STAT (R562). -/
abbrev PWR.HOLDER_STAT.off : Nat := 0x131B8
abbrev PWR.HOLDER_STAT.OMITTED : Fld := ⟨PWR.HOLDER_STAT.off, 31, 16⟩
abbrev PWR.HOLDER_STAT.HELD_MIN : Fld := ⟨PWR.HOLDER_STAT.off, 15, 0⟩

/-! ## SEC -/

/-- Offset of SEC.STAT (R586). -/
abbrev SEC.STAT.off : Nat := 0x14000
abbrev SEC.STAT.REVOKED : Fld := ⟨SEC.STAT.off, 17, 16⟩
abbrev SEC.STAT.CAUSE : Fld := ⟨SEC.STAT.off, 15, 8⟩
abbrev SEC.STAT.GEN_TX : Fld := ⟨SEC.STAT.off, 5, 5⟩
abbrev SEC.STAT.AUTH_T : Fld := ⟨SEC.STAT.off, 4, 4⟩
abbrev SEC.STAT.PRESENT : Fld := ⟨SEC.STAT.off, 3, 3⟩
abbrev SEC.STAT.HOLD : Fld := ⟨SEC.STAT.off, 2, 2⟩
abbrev SEC.STAT.TAMPER : Fld := ⟨SEC.STAT.off, 0, 0⟩
/-- Offset of SEC.EVT (R586). -/
abbrev SEC.EVT.off : Nat := 0x14004
abbrev SEC.EVT.UNBOUND : Fld := ⟨SEC.EVT.off, 6, 6⟩
abbrev SEC.EVT.LOAD_REFUSED : Fld := ⟨SEC.EVT.off, 5, 5⟩
abbrev SEC.EVT.AUTH_FAIL : Fld := ⟨SEC.EVT.off, 4, 4⟩
abbrev SEC.EVT.KEY_OP_FAIL : Fld := ⟨SEC.EVT.off, 3, 3⟩
abbrev SEC.EVT.KEY_OP_DONE : Fld := ⟨SEC.EVT.off, 2, 2⟩
abbrev SEC.EVT.CLEARED : Fld := ⟨SEC.EVT.off, 1, 1⟩
abbrev SEC.EVT.TAMPER : Fld := ⟨SEC.EVT.off, 0, 0⟩
/-- Offset of SEC.TMP_CFG (R586). -/
abbrev SEC.TMP_CFG.off : Nat := 0x14008
abbrev SEC.TMP_CFG.FILT1 : Fld := ⟨SEC.TMP_CFG.off, 15, 12⟩
abbrev SEC.TMP_CFG.FILT0 : Fld := ⟨SEC.TMP_CFG.off, 11, 8⟩
abbrev SEC.TMP_CFG.POL1 : Fld := ⟨SEC.TMP_CFG.off, 3, 3⟩
abbrev SEC.TMP_CFG.POL0 : Fld := ⟨SEC.TMP_CFG.off, 2, 2⟩
abbrev SEC.TMP_CFG.EN1 : Fld := ⟨SEC.TMP_CFG.off, 1, 1⟩
abbrev SEC.TMP_CFG.EN0 : Fld := ⟨SEC.TMP_CFG.off, 0, 0⟩
/-- Offset of SEC.TMP_CNT (R586). -/
abbrev SEC.TMP_CNT.off : Nat := 0x1400C
abbrev SEC.TMP_CNT.EVENTS : Fld := ⟨SEC.TMP_CNT.off, 15, 0⟩
/-- Offset of SEC.USE (R586). -/
abbrev SEC.USE.off : Nat := 0x14010
abbrev SEC.USE.SIGVER_SLOT : Fld := ⟨SEC.USE.off, 15, 12⟩
abbrev SEC.USE.HMAC_SLOT : Fld := ⟨SEC.USE.off, 11, 8⟩
abbrev SEC.USE.XTS_SLOT : Fld := ⟨SEC.USE.off, 7, 4⟩
abbrev SEC.USE.RING_SLOT : Fld := ⟨SEC.USE.off, 3, 0⟩
/-- Offset of SEC.KLOAD (R586). -/
abbrev SEC.KLOAD.off : Nat := 0x14014
abbrev SEC.KLOAD.GEN : Fld := ⟨SEC.KLOAD.off, 8, 8⟩
abbrev SEC.KLOAD.ENGINE : Fld := ⟨SEC.KLOAD.off, 7, 4⟩
abbrev SEC.KLOAD.SLOT : Fld := ⟨SEC.KLOAD.off, 3, 0⟩
/-- Offset of SEC.OP_STAT (R586). -/
abbrev SEC.OP_STAT.off : Nat := 0x14018
abbrev SEC.OP_STAT.RESULT : Fld := ⟨SEC.OP_STAT.off, 15, 12⟩
abbrev SEC.OP_STAT.SLOT : Fld := ⟨SEC.OP_STAT.off, 11, 8⟩
abbrev SEC.OP_STAT.STEP : Fld := ⟨SEC.OP_STAT.off, 2, 0⟩
/-- Offset of SEC.WRAP_CTR (R586). -/
abbrev SEC.WRAP_CTR.off : Nat := 0x1401C
abbrev SEC.WRAP_CTR.CTR : Fld := ⟨SEC.WRAP_CTR.off, 31, 0⟩
/-- Offset of SEC.AUTH_FAIL (R586). -/
abbrev SEC.AUTH_FAIL.off : Nat := 0x14020
abbrev SEC.AUTH_FAIL.WRAP : Fld := ⟨SEC.AUTH_FAIL.off, 31, 24⟩
abbrev SEC.AUTH_FAIL.SIG : Fld := ⟨SEC.AUTH_FAIL.off, 23, 16⟩
abbrev SEC.AUTH_FAIL.RING : Fld := ⟨SEC.AUTH_FAIL.off, 15, 8⟩
abbrev SEC.AUTH_FAIL.CMD : Fld := ⟨SEC.AUTH_FAIL.off, 7, 0⟩
/-- Offset of SEC.ENGe (R586). `n` from 0 to 3. -/
abbrev SEC.ENG.off (n : Nat) : Nat := 0x14030 + 0x4 * n
abbrev SEC.ENG.CUR_VER (n : Nat) : Fld := ⟨SEC.ENG.off n, 31, 16⟩
abbrev SEC.ENG.PREV_OK (n : Nat) : Fld := ⟨SEC.ENG.off n, 5, 5⟩
abbrev SEC.ENG.CUR_OK (n : Nat) : Fld := ⟨SEC.ENG.off n, 4, 4⟩
abbrev SEC.ENG.SLOT (n : Nat) : Fld := ⟨SEC.ENG.off n, 3, 0⟩
/-- Offset of SEC.SLOTk (R586). `n` from 0 to 15. -/
abbrev SEC.SLOT.off (n : Nat) : Nat := 0x14040 + 0x4 * n
abbrev SEC.SLOT.VERSION (n : Nat) : Fld := ⟨SEC.SLOT.off n, 31, 16⟩
abbrev SEC.SLOT.MASK (n : Nat) : Fld := ⟨SEC.SLOT.off n, 11, 8⟩
abbrev SEC.SLOT.PREV (n : Nat) : Fld := ⟨SEC.SLOT.off n, 3, 3⟩
abbrev SEC.SLOT.STATE (n : Nat) : Fld := ⟨SEC.SLOT.off n, 1, 0⟩
/-- Offset of SEC.KCVk (R586). `n` from 0 to 15. -/
abbrev SEC.KCV.off (n : Nat) : Nat := 0x14080 + 0x4 * n
abbrev SEC.KCV.KCV (n : Nat) : Fld := ⟨SEC.KCV.off n, 23, 0⟩

/-! ## EVR -/

/-- Offset of EVR.STAT (R602). -/
abbrev EVR.STAT.off : Nat := 0x15000
abbrev EVR.STAT.RETIRED : Fld := ⟨EVR.STAT.off, 13, 8⟩
abbrev EVR.STAT.STATE : Fld := ⟨EVR.STAT.off, 1, 0⟩
/-- Offset of EVR.EVT (R602). -/
abbrev EVR.EVT.off : Nat := 0x15004
abbrev EVR.EVT.SEVERE : Fld := ⟨EVR.EVT.off, 4, 4⟩
abbrev EVR.EVT.PEND_OVF : Fld := ⟨EVR.EVT.off, 3, 3⟩
abbrev EVR.EVT.CLEARED : Fld := ⟨EVR.EVT.off, 2, 2⟩
abbrev EVR.EVT.RETIRED : Fld := ⟨EVR.EVT.off, 1, 1⟩
abbrev EVR.EVT.MEDIA_FAULT : Fld := ⟨EVR.EVT.off, 0, 0⟩
/-- Offset of EVR.CFG (R602). -/
abbrev EVR.CFG.off : Nat := 0x15008
abbrev EVR.CFG.STORM : Fld := ⟨EVR.CFG.off, 15, 8⟩
abbrev EVR.CFG.IRQ_SEV : Fld := ⟨EVR.CFG.off, 2, 0⟩
/-- Offset of EVR.FIRST_SEQ (R602). -/
abbrev EVR.FIRST_SEQ.off : Nat := 0x1500C
abbrev EVR.FIRST_SEQ.SEQ : Fld := ⟨EVR.FIRST_SEQ.off, 31, 0⟩
/-- Offset of EVR.LAST_SEQ (R602). -/
abbrev EVR.LAST_SEQ.off : Nat := 0x15010
abbrev EVR.LAST_SEQ.SEQ : Fld := ⟨EVR.LAST_SEQ.off, 31, 0⟩
/-- Offset of EVR.OPTIME (R602). -/
abbrev EVR.OPTIME.off : Nat := 0x15014
abbrev EVR.OPTIME.SECONDS : Fld := ⟨EVR.OPTIME.off, 31, 0⟩
/-- Offset of EVR.PWRCYC (R602). -/
abbrev EVR.PWRCYC.off : Nat := 0x15018
abbrev EVR.PWRCYC.COUNT : Fld := ⟨EVR.PWRCYC.off, 31, 0⟩
/-- Offset of EVR.CNT (R602). -/
abbrev EVR.CNT.off : Nat := 0x1501C
abbrev EVR.CNT.SUPPRESSED : Fld := ⟨EVR.CNT.off, 31, 16⟩
abbrev EVR.CNT.CRC_SKIP : Fld := ⟨EVR.CNT.off, 15, 0⟩
/-- Offset of EVR.RETIRE_LO (R602). -/
abbrev EVR.RETIRE_LO.off : Nat := 0x15020
abbrev EVR.RETIRE_LO.MAP : Fld := ⟨EVR.RETIRE_LO.off, 31, 0⟩
/-- Offset of EVR.RETIRE_HI (R602). -/
abbrev EVR.RETIRE_HI.off : Nat := 0x15024
abbrev EVR.RETIRE_HI.MAP : Fld := ⟨EVR.RETIRE_HI.off, 31, 0⟩
/-- Offset of EVR.PEND_STAT (R602). -/
abbrev EVR.PEND_STAT.off : Nat := 0x15028
abbrev EVR.PEND_STAT.OVF : Fld := ⟨EVR.PEND_STAT.off, 31, 16⟩
abbrev EVR.PEND_STAT.FILL : Fld := ⟨EVR.PEND_STAT.off, 3, 0⟩
/-- Offset of EVR.LAST_REC (R602). -/
abbrev EVR.LAST_REC.off : Nat := 0x1502C
abbrev EVR.LAST_REC.CODE : Fld := ⟨EVR.LAST_REC.off, 31, 16⟩
abbrev EVR.LAST_REC.SEV : Fld := ⟨EVR.LAST_REC.off, 10, 8⟩
abbrev EVR.LAST_REC.SOURCE : Fld := ⟨EVR.LAST_REC.off, 7, 0⟩

/-! ## TST -/

/-- Offset of TST.BIST_STAT (R611). -/
abbrev TST.BIST_STAT.off : Nat := 0x16000
abbrev TST.BIST_STAT.DUR_MS : Fld := ⟨TST.BIST_STAT.off, 31, 16⟩
abbrev TST.BIST_STAT.VALID : Fld := ⟨TST.BIST_STAT.off, 9, 9⟩
abbrev TST.BIST_STAT.PASS : Fld := ⟨TST.BIST_STAT.off, 5, 4⟩
abbrev TST.BIST_STAT.KIND : Fld := ⟨TST.BIST_STAT.off, 1, 0⟩
/-- Offset of TST.EVT (R611). -/
abbrev TST.EVT.off : Nat := 0x16004
abbrev TST.EVT.STORE_DONE : Fld := ⟨TST.EVT.off, 1, 1⟩
abbrev TST.EVT.BIST_DONE : Fld := ⟨TST.EVT.off, 0, 0⟩
/-- Offset of TST.MISRk (R611). `n` from 0 to 3. -/
abbrev TST.MISR.off (n : Nat) : Nat := 0x16010 + 0x4 * n
abbrev TST.MISR.MISR (n : Nat) : Fld := ⟨TST.MISR.off n, 31, 0⟩
/-- Offset of TST.EXPk (R611). `n` from 0 to 3. -/
abbrev TST.EXP.off (n : Nat) : Nat := 0x16020 + 0x4 * n
abbrev TST.EXP.EXP (n : Nat) : Fld := ⟨TST.EXP.off n, 31, 0⟩
/-- Offset of TST.MBIST_FAIL (R611). -/
abbrev TST.MBIST_FAIL.off : Nat := 0x16030
abbrev TST.MBIST_FAIL.MAP : Fld := ⟨TST.MBIST_FAIL.off, 15, 0⟩
/-- Offset of TST.MBIST_CNT (R611). -/
abbrev TST.MBIST_CNT.off : Nat := 0x16034
abbrev TST.MBIST_CNT.COUNT : Fld := ⟨TST.MBIST_CNT.off, 15, 0⟩
/-- Offset of TST.STORE_STAT (R611). -/
abbrev TST.STORE_STAT.off : Nat := 0x16040
abbrev TST.STORE_STAT.PCT : Fld := ⟨TST.STORE_STAT.off, 31, 24⟩
abbrev TST.STORE_STAT.ABORTED : Fld := ⟨TST.STORE_STAT.off, 2, 2⟩
abbrev TST.STORE_STAT.PASS : Fld := ⟨TST.STORE_STAT.off, 1, 1⟩
abbrev TST.STORE_STAT.RUN : Fld := ⟨TST.STORE_STAT.off, 0, 0⟩
/-- Offset of TST.STORE_ERR (R611). -/
abbrev TST.STORE_ERR.off : Nat := 0x16044
abbrev TST.STORE_ERR.COUNT : Fld := ⟨TST.STORE_ERR.off, 31, 0⟩
/-- Offset of TST.STORE_FIRST (R611). -/
abbrev TST.STORE_FIRST.off : Nat := 0x16048
abbrev TST.STORE_FIRST.ADDR : Fld := ⟨TST.STORE_FIRST.off, 31, 0⟩
/-- Offset of TST.ELANEn (R611). `n` from 0 to 1. -/
abbrev TST.ELANE.off (n : Nat) : Nat := 0x16080 + 0x10 * n
abbrev TST.ELANE.INJECT (n : Nat) : Fld := ⟨TST.ELANE.off n, 8, 8⟩
abbrev TST.ELANE.CHK_LOCK (n : Nat) : Fld := ⟨TST.ELANE.off n, 4, 4⟩
abbrev TST.ELANE.MODE (n : Nat) : Fld := ⟨TST.ELANE.off n, 1, 0⟩
/-- Offset of TST.ELANE_ERRn (R611). `n` from 0 to 1. -/
abbrev TST.ELANE_ERR.off (n : Nat) : Nat := 0x16084 + 0x10 * n
abbrev TST.ELANE_ERR.ERR (n : Nat) : Fld := ⟨TST.ELANE_ERR.off n, 31, 0⟩
/-- Offset of TST.ELANE_BITSn (R611). `n` from 0 to 1. -/
abbrev TST.ELANE_BITS.off (n : Nat) : Nat := 0x16088 + 0x10 * n
abbrev TST.ELANE_BITS.BITS (n : Nat) : Fld := ⟨TST.ELANE_BITS.off n, 31, 0⟩

/-! ## DIO -/

/-- Offset of DIO.IN_RAW (R620). -/
abbrev DIO.IN_RAW.off : Nat := 0x17000
abbrev DIO.IN_RAW.LEVEL : Fld := ⟨DIO.IN_RAW.off, 31, 0⟩
/-- Offset of DIO.IN_STATE (R620). -/
abbrev DIO.IN_STATE.off : Nat := 0x17004
abbrev DIO.IN_STATE.VALUE : Fld := ⟨DIO.IN_STATE.off, 31, 0⟩
/-- Offset of DIO.CHATTER (R620). -/
abbrev DIO.CHATTER.off : Nat := 0x17008
abbrev DIO.CHATTER.FROZEN : Fld := ⟨DIO.CHATTER.off, 31, 0⟩
/-- Offset of DIO.STUCK (R620). -/
abbrev DIO.STUCK.off : Nat := 0x1700C
abbrev DIO.STUCK.STUCK : Fld := ⟨DIO.STUCK.off, 31, 0⟩
/-- Offset of DIO.EVT_CHG (R620). -/
abbrev DIO.EVT_CHG.off : Nat := 0x17010
abbrev DIO.EVT_CHG.EVT : Fld := ⟨DIO.EVT_CHG.off, 31, 0⟩
/-- Offset of DIO.EVT_CHAT (R620). -/
abbrev DIO.EVT_CHAT.off : Nat := 0x17014
abbrev DIO.EVT_CHAT.EVT : Fld := ⟨DIO.EVT_CHAT.off, 31, 0⟩
/-- Offset of DIO.EVT_STUCK (R620). -/
abbrev DIO.EVT_STUCK.off : Nat := 0x17018
abbrev DIO.EVT_STUCK.EVT : Fld := ⟨DIO.EVT_STUCK.off, 31, 0⟩
/-- Offset of DIO.OUT (R620). -/
abbrev DIO.OUT.off : Nat := 0x17020
abbrev DIO.OUT.LEVEL : Fld := ⟨DIO.OUT.off, 15, 0⟩
/-- Offset of DIO.OUT_SAFE (R620). -/
abbrev DIO.OUT_SAFE.off : Nat := 0x17024
abbrev DIO.OUT_SAFE.LEVEL : Fld := ⟨DIO.OUT_SAFE.off, 15, 0⟩
/-- Offset of DIO.OUT_STATE (R620). -/
abbrev DIO.OUT_STATE.off : Nat := 0x17028
abbrev DIO.OUT_STATE.LEVEL : Fld := ⟨DIO.OUT_STATE.off, 15, 0⟩
/-- Offset of DIO.INCFGi (R620). `n` from 0 to 31. -/
abbrev DIO.INCFG.off (n : Nat) : Nat := 0x17100 + 0x4 * n
abbrev DIO.INCFG.CHAT_N (n : Nat) : Fld := ⟨DIO.INCFG.off n, 31, 24⟩
abbrev DIO.INCFG.WAKE (n : Nat) : Fld := ⟨DIO.INCFG.off n, 13, 13⟩
abbrev DIO.INCFG.EDGE (n : Nat) : Fld := ⟨DIO.INCFG.off n, 12, 11⟩
abbrev DIO.INCFG.POL (n : Nat) : Fld := ⟨DIO.INCFG.off n, 10, 10⟩
abbrev DIO.INCFG.DEB (n : Nat) : Fld := ⟨DIO.INCFG.off n, 8, 0⟩
/-- Offset of DIO.INTIMi (R620). `n` from 0 to 31. -/
abbrev DIO.INTIM.off (n : Nat) : Nat := 0x17180 + 0x4 * n
abbrev DIO.INTIM.CHAT_WIN (n : Nat) : Fld := ⟨DIO.INTIM.off n, 31, 16⟩
abbrev DIO.INTIM.STUCK_S (n : Nat) : Fld := ⟨DIO.INTIM.off n, 15, 0⟩
/-- Offset of DIO.OUTSRCj (R620). `n` from 0 to 15. -/
abbrev DIO.OUTSRC.off (n : Nat) : Nat := 0x17200 + 0x4 * n
abbrev DIO.OUTSRC.BYTE (n : Nat) : Fld := ⟨DIO.OUTSRC.off n, 15, 12⟩
abbrev DIO.OUTSRC.UNIT (n : Nat) : Fld := ⟨DIO.OUTSRC.off n, 11, 5⟩
abbrev DIO.OUTSRC.BIT (n : Nat) : Fld := ⟨DIO.OUTSRC.off n, 4, 2⟩
abbrev DIO.OUTSRC.SRC (n : Nat) : Fld := ⟨DIO.OUTSRC.off n, 0, 0⟩

/-! ## INTC -/

/-- Offset of INTC.PEND_LO (R629). -/
abbrev INTC.PEND_LO.off : Nat := 0x01000
abbrev INTC.PEND_LO.PEND : Fld := ⟨INTC.PEND_LO.off, 31, 0⟩
/-- Offset of INTC.PEND_HI (R629). -/
abbrev INTC.PEND_HI.off : Nat := 0x01004
abbrev INTC.PEND_HI.PEND : Fld := ⟨INTC.PEND_HI.off, 31, 0⟩
/-- Offset of INTC.EN_LO (R629). -/
abbrev INTC.EN_LO.off : Nat := 0x01008
abbrev INTC.EN_LO.EN : Fld := ⟨INTC.EN_LO.off, 31, 0⟩
/-- Offset of INTC.EN_HI (R629). -/
abbrev INTC.EN_HI.off : Nat := 0x0100C
abbrev INTC.EN_HI.EN : Fld := ⟨INTC.EN_HI.off, 31, 0⟩
/-- Offset of INTC.STAT_LO (R629). -/
abbrev INTC.STAT_LO.off : Nat := 0x01010
abbrev INTC.STAT_LO.STAT : Fld := ⟨INTC.STAT_LO.off, 31, 0⟩
/-- Offset of INTC.STAT_HI (R629). -/
abbrev INTC.STAT_HI.off : Nat := 0x01014
abbrev INTC.STAT_HI.STAT : Fld := ⟨INTC.STAT_HI.off, 31, 0⟩
/-- Offset of INTC.FORCE_LO (R629). -/
abbrev INTC.FORCE_LO.off : Nat := 0x01018
abbrev INTC.FORCE_LO.FORCE : Fld := ⟨INTC.FORCE_LO.off, 31, 0⟩
/-- Offset of INTC.FORCE_HI (R629). -/
abbrev INTC.FORCE_HI.off : Nat := 0x0101C
abbrev INTC.FORCE_HI.FORCE : Fld := ⟨INTC.FORCE_HI.off, 31, 0⟩
/-- Offset of INTC.CTRL (R629). -/
abbrev INTC.CTRL.off : Nat := 0x01020
abbrev INTC.CTRL.INTX : Fld := ⟨INTC.CTRL.off, 2, 2⟩
abbrev INTC.CTRL.INT_N : Fld := ⟨INTC.CTRL.off, 1, 1⟩
abbrev INTC.CTRL.MSIX : Fld := ⟨INTC.CTRL.off, 0, 0⟩
/-- Offset of INTC.MISS (R629). -/
abbrev INTC.MISS.off : Nat := 0x01024
abbrev INTC.MISS.TICK_MARK : Fld := ⟨INTC.MISS.off, 31, 16⟩
abbrev INTC.MISS.MSG_RX : Fld := ⟨INTC.MISS.off, 15, 8⟩
abbrev INTC.MISS.MASTER : Fld := ⟨INTC.MISS.off, 7, 0⟩

/-! ## The table of access codes and reset values -/

def GLB.rows0 : List RegRow := [
  ⟨0x00000, 0x0, 1, [⟨31, 16, .ro, 0x6448⟩, ⟨15, 0, .ro, 0xb01⟩]⟩,
  ⟨0x00004, 0x0, 1, [⟨15, 0, .ro, 0⟩]⟩,
  ⟨0x00008, 0x0, 1, [⟨31, 0, .ro, 0⟩]⟩,
  ⟨0x0000C, 0x0, 1, [⟨31, 0, .ro, 0⟩]⟩,
  ⟨0x00010, 0x0, 1, [⟨31, 0, .ro, 0⟩]⟩,
  ⟨0x00014, 0x0, 1, [⟨15, 0, .ro, 0⟩]⟩,
  ⟨0x00018, 0x0, 1, [⟨15, 4, .rw, 0⟩, ⟨0, 0, .rw, 0⟩]⟩,
  ⟨0x00020, 0x0, 1, [⟨31, 16, .ro, 0x2bf2⟩, ⟨1, 0, .ro, 0⟩]⟩,
  ⟨0x00030, 0x4, 4, [⟨31, 16, .rc, 0⟩, ⟨15, 0, .ro, 0⟩]⟩,
  ⟨0x00040, 0x4, 4, [⟨31, 0, .rc, 0⟩]⟩,
  ⟨0x00050, 0x0, 1, [⟨31, 16, .ro, 0⟩, ⟨15, 8, .ro, 0⟩, ⟨1, 0, .ro, 0⟩]⟩,
  ⟨0x00054, 0x0, 1, [⟨3, 0, .w1c, 0⟩]⟩,
  ⟨0x00060, 0x0, 1, [⟨31, 16, .ro, 0⟩, ⟨8, 8, .w1c, 0⟩, ⟨1, 1, .ro, 0⟩, ⟨0, 0, .ro, 0⟩]⟩,
  ⟨0x00064, 0x0, 1, [⟨31, 31, .ro, 0⟩, ⟨4, 4, .ro, 0⟩, ⟨3, 3, .ro, 0⟩, ⟨2, 2, .ro, 0⟩, ⟨1, 1, .ro, 0⟩, ⟨0, 0, .ro, 0⟩]⟩,
  ⟨0x00068, 0x0, 1, [⟨4, 4, .w1c, 0⟩, ⟨3, 3, .w1c, 0⟩, ⟨2, 2, .w1c, 0⟩, ⟨1, 1, .w1c, 0⟩, ⟨0, 0, .w1c, 0⟩]⟩,
  ⟨0x00100, 0x0, 1, [⟨10, 8, .ro, 0⟩, ⟨7, 6, .ro, 0⟩, ⟨4, 4, .ro, 0⟩, ⟨3, 2, .ro, 0⟩, ⟨1, 0, .ro, 0⟩]⟩,
  ⟨0x00104, 0x0, 1, [⟨15, 8, .ro, 0⟩, ⟨7, 0, .ro, 1⟩]⟩,
  ⟨0x00108, 0x0, 1, [⟨15, 12, .ro, 0⟩, ⟨8, 8, .ro, 0⟩, ⟨7, 7, .ro, 0⟩, ⟨6, 6, .ro, 0⟩, ⟨5, 4, .ro, 0⟩, ⟨3, 0, .ro, 0⟩]⟩,
  ⟨0x0010C, 0x0, 1, [⟨31, 16, .ro, 0⟩, ⟨15, 0, .ro, 0⟩]⟩,
  ⟨0x00110, 0x0, 1, [⟨31, 31, .w1s, 0⟩, ⟨13, 0, .rw, 0⟩]⟩,
  ⟨0x00114, 0x0, 1, [⟨31, 16, .ro, 0⟩, ⟨15, 0, .ro, 0⟩]⟩]
/-- The GLB register table. -/
def GLB.rows : List RegRow := GLB.rows0

def RING.rows0 : List RegRow := [
  ⟨0x03000, 0x0, 1, [⟨5, 4, .rwl, 3⟩, ⟨0, 0, .ro, 0⟩]⟩,
  ⟨0x03004, 0x0, 1, [⟨9, 0, .rw, 0x32⟩]⟩,
  ⟨0x03008, 0x0, 1, [⟨11, 8, .rw, 0⟩, ⟨3, 0, .w1s, 0⟩]⟩,
  ⟨0x0300C, 0x0, 1, [⟨31, 24, .rc, 0⟩, ⟨7, 4, .w1c, 0⟩, ⟨3, 0, .w1c, 0⟩]⟩,
  ⟨0x03040, 0x10, 4, [⟨9, 9, .ro, 0⟩, ⟨8, 8, .ro, 0⟩, ⟨7, 7, .ro, 1⟩, ⟨6, 6, .ro, 1⟩, ⟨5, 5, .ro, 0⟩, ⟨3, 0, .ro, 0⟩]⟩,
  ⟨0x03044, 0x10, 4, [⟨15, 8, .ro, 0⟩, ⟨7, 0, .ro, 0⟩]⟩,
  ⟨0x03048, 0x10, 4, [⟨31, 16, .rc, 0⟩, ⟨15, 0, .rc, 0⟩]⟩,
  ⟨0x0304C, 0x10, 4, [⟨15, 0, .rc, 0⟩]⟩,
  ⟨0x03080, 0x10, 4, [⟨7, 4, .rw, 3⟩, ⟨2, 0, .rw, 4⟩]⟩,
  ⟨0x03084, 0x10, 4, [⟨31, 24, .ro, 0⟩, ⟨23, 16, .ro, 0⟩, ⟨11, 8, .rw, 0⟩, ⟨4, 4, .rw, 0⟩, ⟨3, 0, .ro, 0⟩]⟩,
  ⟨0x03088, 0x10, 4, [⟨29, 24, .ro, 0⟩, ⟨23, 18, .ro, 0⟩, ⟨17, 12, .ro, 0⟩, ⟨11, 6, .ro, 0⟩, ⟨5, 0, .ro, 0⟩]⟩,
  ⟨0x030C0, 0x10, 4, [⟨8, 8, .w1s, 0⟩, ⟨4, 4, .ro, 0⟩, ⟨1, 0, .rwl, 0⟩]⟩,
  ⟨0x030C4, 0x10, 4, [⟨31, 0, .ro, 0⟩]⟩,
  ⟨0x030C8, 0x10, 4, [⟨31, 0, .ro, 0⟩]⟩,
  ⟨0x03100, 0x0, 1, [⟨31, 16, .ro, 0⟩, ⟨13, 8, .ro, 0⟩, ⟨4, 4, .ro, 0⟩, ⟨3, 3, .ro, 0⟩, ⟨2, 2, .ro, 0⟩, ⟨1, 0, .ro, 3⟩]⟩,
  ⟨0x03104, 0x0, 1, [⟨15, 0, .ro, 0⟩]⟩,
  ⟨0x03108, 0x0, 1, [⟨31, 16, .rc, 0⟩, ⟨15, 0, .ro, 0xffff⟩]⟩,
  ⟨0x0310C, 0x0, 1, [⟨31, 0, .ro, 0⟩]⟩,
  ⟨0x03110, 0x0, 1, [⟨9, 9, .w1c, 0⟩, ⟨8, 8, .w1c, 0⟩, ⟨5, 5, .ro, 0⟩, ⟨4, 4, .ro, 0⟩, ⟨1, 1, .ro, 0⟩, ⟨0, 0, .ro, 0⟩]⟩,
  ⟨0x03114, 0x0, 1, [⟨31, 24, .rc, 0⟩, ⟨23, 16, .rc, 0⟩, ⟨15, 8, .rc, 0⟩, ⟨7, 0, .rc, 0⟩]⟩,
  ⟨0x03118, 0x0, 1, [⟨31, 24, .rc, 0⟩, ⟨23, 16, .rc, 0⟩, ⟨15, 8, .rc, 0⟩, ⟨7, 0, .rc, 0⟩]⟩,
  ⟨0x0311C, 0x0, 1, [⟨29, 24, .ro, 0⟩, ⟨21, 16, .ro, 0⟩, ⟨13, 8, .ro, 0⟩, ⟨5, 0, .ro, 0⟩]⟩,
  ⟨0x03120, 0x0, 1, [⟨31, 0, .ro, 0⟩]⟩,
  ⟨0x03124, 0x0, 1, [⟨31, 0, .ro, 0⟩]⟩]
def RING.rows1 : List RegRow := [
  ⟨0x03128, 0x0, 1, [⟨31, 0, .ro, 0⟩]⟩,
  ⟨0x0312C, 0x0, 1, [⟨31, 0, .w1c, 0⟩]⟩,
  ⟨0x03130, 0x0, 1, [⟨31, 16, .rc, 0⟩, ⟨15, 0, .rc, 0⟩]⟩,
  ⟨0x03134, 0x0, 1, [⟨31, 16, .rc, 0⟩, ⟨15, 0, .rc, 0⟩]⟩,
  ⟨0x03140, 0x0, 1, [⟨31, 16, .rc, 0⟩, ⟨15, 0, .rc, 0⟩]⟩,
  ⟨0x03144, 0x0, 1, [⟨31, 16, .rc, 0⟩, ⟨15, 0, .rc, 0⟩]⟩,
  ⟨0x03148, 0x0, 1, [⟨31, 24, .rc, 0⟩, ⟨23, 16, .rc, 0⟩, ⟨15, 8, .rc, 0⟩, ⟨7, 0, .rc, 0⟩]⟩,
  ⟨0x0314C, 0x0, 1, [⟨6, 1, .ro, 0⟩]⟩,
  ⟨0x03150, 0x0, 1, [⟨31, 0, .ro, 0⟩]⟩,
  ⟨0x03160, 0x0, 1, [⟨31, 0, .ro, 0⟩]⟩,
  ⟨0x03164, 0x0, 1, [⟨7, 0, .ro, 0⟩]⟩,
  ⟨0x03200, 0x4, 32, [⟨31, 16, .rc, 0⟩, ⟨15, 8, .rc, 0⟩, ⟨7, 0, .rc, 0⟩]⟩,
  ⟨0x03300, 0x4, 16, [⟨31, 0, .ro, 0⟩]⟩,
  ⟨0x03340, 0x4, 4, [⟨31, 0, .ro, 0⟩]⟩,
  ⟨0x03350, 0x0, 1, [⟨16, 16, .ro, 0⟩, ⟨15, 8, .ro, 0⟩, ⟨7, 0, .ro, 0⟩]⟩,
  ⟨0x03354, 0x0, 1, [⟨4, 4, .ro, 0⟩, ⟨2, 0, .ro, 0⟩]⟩,
  ⟨0x03400, 0x0, 1, [⟨29, 24, .ro, 0⟩, ⟨21, 16, .ro, 0⟩, ⟨11, 8, .ro, 0⟩, ⟨7, 7, .ro, 0⟩, ⟨3, 0, .ro, 0⟩]⟩,
  ⟨0x03404, 0x0, 1, [⟨15, 8, .rw, 0x30⟩, ⟨3, 0, .rwl, 0⟩]⟩,
  ⟨0x03408, 0x0, 1, [⟨7, 7, .w1c, 0⟩, ⟨6, 6, .w1c, 0⟩, ⟨5, 5, .w1c, 0⟩, ⟨4, 4, .w1c, 0⟩, ⟨3, 3, .w1c, 0⟩, ⟨2, 2, .w1c, 0⟩, ⟨1, 1, .w1c, 0⟩, ⟨0, 0, .w1c, 0⟩]⟩,
  ⟨0x0340C, 0x0, 1, [⟨31, 16, .rc, 0⟩, ⟨15, 0, .rc, 0⟩]⟩,
  ⟨0x03410, 0x0, 1, [⟨31, 16, .ro, 0⟩, ⟨15, 0, .ro, 0⟩]⟩,
  ⟨0x03414, 0x0, 1, [⟨31, 0, .ro, 0⟩]⟩,
  ⟨0x03418, 0x0, 1, [⟨31, 16, .ro, 0⟩, ⟨15, 0, .ro, 0⟩]⟩,
  ⟨0x0341C, 0x0, 1, [⟨15, 15, .ro, 0⟩, ⟨13, 8, .ro, 0⟩, ⟨7, 7, .ro, 0⟩, ⟨5, 0, .ro, 0⟩]⟩]
def RING.rows2 : List RegRow := [
  ⟨0x03420, 0x0, 1, [⟨15, 0, .ro, 0⟩]⟩,
  ⟨0x03424, 0x0, 1, [⟨15, 0, .ro, 0⟩]⟩,
  ⟨0x03428, 0x0, 1, [⟨31, 0, .ro, 0⟩]⟩,
  ⟨0x0342C, 0x0, 1, [⟨31, 0, .ro, 0⟩]⟩,
  ⟨0x03430, 0x0, 1, [⟨31, 0, .ro, 0⟩]⟩,
  ⟨0x03440, 0x4, 31, [⟨31, 31, .ro, 0⟩, ⟨15, 0, .ro, 0⟩]⟩,
  ⟨0x034C0, 0x0, 1, [⟨31, 24, .rc, 0⟩, ⟨23, 16, .ro, 0⟩, ⟨7, 4, .ro, 0⟩, ⟨1, 0, .ro, 0⟩]⟩,
  ⟨0x034C4, 0x0, 1, [⟨31, 16, .rc, 0⟩, ⟨15, 0, .rc, 0⟩]⟩,
  ⟨0x034C8, 0x0, 1, [⟨15, 8, .rc, 0⟩, ⟨7, 0, .rc, 0⟩]⟩]
/-- The RING register table. -/
def RING.rows : List RegRow := RING.rows0 ++ RING.rows1 ++ RING.rows2

def SYNC.rows0 : List RegRow := [
  ⟨0x04000, 0x0, 1, [⟨21, 16, .ro, 0⟩, ⟨13, 12, .ro, 0⟩, ⟨11, 8, .ro, 0⟩, ⟨4, 4, .ro, 0⟩, ⟨3, 3, .ro, 0⟩, ⟨2, 2, .ro, 0⟩, ⟨1, 0, .ro, 0⟩]⟩,
  ⟨0x04004, 0x0, 1, [⟨30, 28, .rw, 3⟩, ⟨26, 16, .rw, 0xc8⟩, ⟨9, 0, .rw, 0x64⟩]⟩,
  ⟨0x04008, 0x0, 1, [⟨9, 0, .rw, 0x40⟩]⟩,
  ⟨0x04010, 0x0, 1, [⟨31, 0, .ro, 0⟩]⟩,
  ⟨0x04014, 0x0, 1, [⟨31, 0, .ro, 0⟩]⟩,
  ⟨0x04018, 0x0, 1, [⟨31, 0, .ro, 0⟩]⟩,
  ⟨0x04020, 0x0, 1, [⟨31, 0, .ro, 0⟩]⟩,
  ⟨0x04024, 0x0, 1, [⟨31, 0, .ro, 0⟩]⟩,
  ⟨0x04028, 0x0, 1, [⟨2, 2, .w1c, 0⟩, ⟨1, 1, .w1c, 0⟩, ⟨0, 0, .w1c, 0⟩]⟩,
  ⟨0x0402C, 0x0, 1, [⟨31, 16, .rc, 0⟩, ⟨15, 0, .rc, 0⟩]⟩,
  ⟨0x04030, 0x0, 1, [⟨31, 0, .ro, 0⟩]⟩,
  ⟨0x04040, 0x10, 8, [⟨31, 0, .ro, 0⟩]⟩,
  ⟨0x04044, 0x10, 8, [⟨21, 16, .ro, 0⟩, ⟨10, 10, .ro, 0⟩, ⟨9, 8, .ro, 0⟩, ⟨5, 0, .ro, 0⟩]⟩,
  ⟨0x04048, 0x10, 8, [⟨31, 16, .rc, 0⟩, ⟨15, 0, .rc, 0⟩]⟩,
  ⟨0x040C0, 0x0, 1, [⟨7, 0, .w1c, 0⟩]⟩,
  ⟨0x040D0, 0x0, 1, [⟨0, 0, .rw, 0⟩]⟩,
  ⟨0x040D4, 0x0, 1, [⟨31, 0, .rw, 0⟩]⟩,
  ⟨0x040D8, 0x0, 1, [⟨31, 0, .rw, 0⟩]⟩,
  ⟨0x040DC, 0x0, 1, [⟨31, 0, .ro, 0⟩]⟩,
  ⟨0x040E0, 0x0, 1, [⟨31, 0, .ro, 0⟩]⟩,
  ⟨0x040F0, 0x0, 1, [⟨15, 8, .ro, 0⟩, ⟨0, 0, .ro, 0⟩]⟩]
/-- The SYNC register table. -/
def SYNC.rows : List RegRow := SYNC.rows0

def RED.rows0 : List RegRow := [
  ⟨0x05000, 0x0, 1, [⟨13, 12, .ro, 0⟩, ⟨11, 11, .ro, 0⟩, ⟨10, 10, .ro, 0⟩, ⟨9, 9, .ro, 0⟩, ⟨8, 8, .ro, 0⟩, ⟨6, 6, .ro, 0⟩, ⟨5, 4, .ro, 0⟩, ⟨1, 0, .ro, 0⟩]⟩,
  ⟨0x05004, 0x0, 1, [⟨10, 10, .w1c, 0⟩, ⟨9, 9, .w1c, 0⟩, ⟨8, 8, .w1c, 0⟩, ⟨7, 7, .w1c, 0⟩, ⟨6, 6, .w1c, 0⟩, ⟨5, 5, .w1c, 0⟩, ⟨4, 4, .w1c, 0⟩, ⟨3, 3, .w1c, 0⟩, ⟨2, 2, .w1c, 0⟩, ⟨1, 1, .w1c, 0⟩, ⟨0, 0, .w1c, 0⟩]⟩,
  ⟨0x05008, 0x0, 1, [⟨31, 16, .ro, 0⟩, ⟨15, 0, .ro, 0⟩]⟩,
  ⟨0x0500C, 0x0, 1, [⟨31, 0, .ro, 0⟩]⟩,
  ⟨0x05010, 0x0, 1, [⟨31, 0, .ro, 0⟩]⟩,
  ⟨0x05014, 0x0, 1, [⟨31, 16, .ro, 0⟩, ⟨15, 0, .ro, 0⟩]⟩,
  ⟨0x05018, 0x0, 1, [⟨31, 0, .ro, 0⟩]⟩,
  ⟨0x0501C, 0x0, 1, [⟨31, 0, .ro, 0⟩]⟩,
  ⟨0x05020, 0x0, 1, [⟨31, 0, .ro, 0⟩]⟩,
  ⟨0x05024, 0x0, 1, [⟨31, 0, .ro, 0⟩]⟩,
  ⟨0x05028, 0x0, 1, [⟨31, 16, .ro, 0⟩, ⟨15, 0, .ro, 0⟩]⟩,
  ⟨0x0502C, 0x0, 1, [⟨31, 16, .rc, 0⟩, ⟨2, 0, .ro, 0⟩]⟩,
  ⟨0x05030, 0x0, 1, [⟨31, 16, .rc, 0⟩, ⟨15, 0, .rc, 0⟩]⟩,
  ⟨0x05034, 0x0, 1, [⟨31, 16, .rc, 0⟩, ⟨15, 0, .rc, 0⟩]⟩,
  ⟨0x05040, 0x0, 1, [⟨2, 2, .ro, 0⟩, ⟨1, 1, .ro, 0⟩, ⟨0, 0, .ro, 0⟩]⟩,
  ⟨0x05044, 0x0, 1, [⟨31, 0, .ro, 0⟩]⟩,
  ⟨0x05048, 0x0, 1, [⟨31, 0, .ro, 0⟩]⟩,
  ⟨0x0504C, 0x0, 1, [⟨28, 16, .ro, 0⟩, ⟨4, 4, .ro, 0⟩, ⟨3, 3, .ro, 0⟩, ⟨2, 2, .ro, 0⟩, ⟨1, 1, .ro, 0⟩, ⟨0, 0, .ro, 0⟩]⟩,
  ⟨0x05050, 0x0, 1, [⟨31, 16, .rc, 0⟩, ⟨15, 0, .rc, 0⟩]⟩,
  ⟨0x05060, 0x0, 1, [⟨31, 0, .ro, 0⟩]⟩]
/-- The RED register table. -/
def RED.rows : List RegRow := RED.rows0

def AUD.rows0 : List RegRow := [
  ⟨0x06000, 0x0, 1, [⟨17, 17, .ro, 0⟩, ⟨16, 16, .ro, 0⟩, ⟨15, 8, .ro, 0⟩, ⟨1, 1, .ro, 0⟩, ⟨0, 0, .ro, 0⟩]⟩,
  ⟨0x06004, 0x0, 1, [⟨5, 4, .rw, 0⟩, ⟨1, 0, .rw, 0⟩]⟩,
  ⟨0x06040, 0x20, 8, [⟨11, 11, .rwl, 0⟩, ⟨10, 10, .rwl, 0⟩, ⟨9, 9, .rwl, 0⟩, ⟨8, 8, .rwl, 0⟩, ⟨7, 7, .rwl, 0⟩, ⟨6, 6, .rwl, 0⟩, ⟨5, 4, .rwl, 0⟩, ⟨2, 2, .rwl, 0⟩, ⟨1, 1, .rwl, 0⟩, ⟨0, 0, .rw, 0⟩]⟩,
  ⟨0x06044, 0x20, 8, [⟨31, 16, .rc, 0⟩, ⟨2, 2, .ro, 0⟩, ⟨0, 0, .ro, 0⟩]⟩,
  ⟨0x06048, 0x20, 8, [⟨31, 16, .rc, 0⟩, ⟨15, 0, .rc, 0⟩]⟩,
  ⟨0x06140, 0x0, 1, [⟨16, 16, .rw, 0⟩, ⟨15, 0, .rw, 0⟩]⟩,
  ⟨0x06144, 0x0, 1, [⟨19, 16, .ro, 0⟩, ⟨15, 0, .ro, 0⟩]⟩,
  ⟨0x06180, 0x0, 1, [⟨27, 16, .rwl, 0x100⟩, ⟨1, 1, .rw, 0⟩, ⟨0, 0, .rw, 0⟩]⟩,
  ⟨0x06184, 0x0, 1, [⟨31, 0, .rwl, 0⟩]⟩,
  ⟨0x06188, 0x0, 1, [⟨31, 0, .rwl, 0⟩]⟩,
  ⟨0x0618C, 0x0, 1, [⟨31, 0, .rwl, 0⟩]⟩,
  ⟨0x06190, 0x0, 1, [⟨31, 0, .rwl, 0⟩]⟩,
  ⟨0x06194, 0x0, 1, [⟨27, 16, .rw, 0⟩, ⟨11, 0, .ro, 0⟩]⟩,
  ⟨0x06198, 0x0, 1, [⟨27, 16, .rw, 0⟩, ⟨11, 0, .ro, 0⟩]⟩,
  ⟨0x0619C, 0x0, 1, [⟨31, 0, .ro, 0⟩]⟩,
  ⟨0x061A0, 0x0, 1, [⟨31, 16, .rc, 0⟩, ⟨15, 8, .rc, 0⟩, ⟨7, 0, .rc, 0⟩]⟩,
  ⟨0x06200, 0x0, 1, [⟨12, 12, .w1c, 0⟩, ⟨11, 11, .w1c, 0⟩, ⟨10, 10, .w1c, 0⟩, ⟨9, 9, .w1c, 0⟩, ⟨8, 8, .w1c, 0⟩, ⟨7, 0, .w1c, 0⟩]⟩,
  ⟨0x06204, 0x0, 1, [⟨31, 16, .w1c, 0⟩, ⟨15, 8, .w1c, 0⟩, ⟨7, 0, .w1c, 0⟩]⟩,
  ⟨0x06208, 0x0, 1, [⟨16, 16, .w1c, 0⟩, ⟨15, 0, .w1c, 0⟩]⟩,
  ⟨0x0620C, 0x0, 1, [⟨24, 24, .w1c, 0⟩, ⟨23, 16, .w1c, 0⟩, ⟨15, 0, .w1c, 0⟩]⟩,
  ⟨0x06210, 0x0, 1, [⟨24, 24, .ro, 0⟩, ⟨23, 16, .ro, 0⟩, ⟨15, 0, .ro, 0⟩]⟩,
  ⟨0x06214, 0x0, 1, [⟨31, 0, .rc, 0⟩]⟩,
  ⟨0x06400, 0x4, 128, [⟨31, 16, .rc, 0⟩, ⟨15, 8, .ro, 0xff⟩, ⟨7, 0, .rc, 0⟩]⟩,
  ⟨0x06600, 0x4, 16, [⟨31, 16, .rc, 0⟩, ⟨15, 8, .ro, 0xff⟩, ⟨7, 0, .rc, 0⟩]⟩]
def AUD.rows1 : List RegRow := [
  ⟨0x06640, 0x8, 16, [⟨31, 16, .ro, 0⟩, ⟨7, 7, .ro, 0⟩, ⟨6, 6, .ro, 0⟩, ⟨5, 5, .ro, 0⟩, ⟨3, 3, .ro, 0⟩, ⟨2, 0, .ro, 0⟩]⟩,
  ⟨0x06644, 0x8, 16, [⟨31, 16, .rc, 0⟩, ⟨15, 8, .rc, 0⟩, ⟨7, 0, .rc, 0⟩]⟩,
  ⟨0x066C0, 0x4, 16, [⟨31, 0, .rc, 0⟩]⟩,
  ⟨0x06800, 0x0, 1, [⟨15, 8, .w1c, 0⟩, ⟨7, 0, .w1c, 0⟩]⟩,
  ⟨0x06840, 0x8, 8, [⟨31, 24, .ro, 0⟩, ⟨2, 2, .ro, 0⟩, ⟨1, 1, .ro, 0⟩, ⟨0, 0, .ro, 0⟩]⟩,
  ⟨0x06844, 0x8, 8, [⟨31, 16, .rc, 0⟩, ⟨15, 0, .rc, 0⟩]⟩,
  ⟨0x06880, 0x0, 1, [⟨15, 0, .w1c, 0⟩]⟩,
  ⟨0x068C0, 0x4, 16, [⟨31, 16, .rc, 0⟩, ⟨3, 0, .ro, 0⟩]⟩,
  ⟨0x06900, 0x0, 1, [⟨31, 16, .w1c, 0⟩, ⟨15, 0, .w1c, 0⟩]⟩,
  ⟨0x06904, 0x0, 1, [⟨15, 0, .ro, 0⟩]⟩,
  ⟨0x06940, 0x8, 16, [⟨31, 16, .ro, 0⟩, ⟨15, 0, .ro, 0⟩]⟩,
  ⟨0x06944, 0x8, 16, [⟨31, 16, .rc, 0⟩, ⟨15, 8, .ro, 0xff⟩, ⟨1, 0, .ro, 3⟩]⟩,
  ⟨0x069C0, 0x4, 16, [⟨31, 20, .ro, 0⟩, ⟨19, 19, .ro, 0⟩, ⟨18, 18, .ro, 0⟩, ⟨15, 0, .ro, 0⟩]⟩,
  ⟨0x06A00, 0x0, 1, [⟨31, 0, .w1c, 0⟩]⟩,
  ⟨0x06A04, 0x0, 1, [⟨31, 0, .ro, 0⟩]⟩,
  ⟨0x06A08, 0x0, 1, [⟨31, 0, .w1c, 0⟩]⟩,
  ⟨0x06A80, 0x4, 32, [⟨31, 0, .ro, 0⟩]⟩,
  ⟨0x06B00, 0x0, 1, [⟨23, 16, .w1c, 0⟩, ⟨15, 8, .w1c, 0⟩, ⟨7, 0, .w1c, 0⟩]⟩,
  ⟨0x06B40, 0x4, 8, [⟨4, 4, .ro, 0⟩, ⟨3, 3, .ro, 0⟩, ⟨2, 0, .ro, 0⟩]⟩,
  ⟨0x06C00, 0x0, 1, [⟨31, 16, .ro, 0⟩, ⟨3, 3, .ro, 0⟩, ⟨2, 2, .ro, 0⟩, ⟨1, 1, .ro, 1⟩, ⟨0, 0, .ro, 0⟩]⟩,
  ⟨0x06C04, 0x0, 1, [⟨2, 2, .w1c, 0⟩, ⟨1, 1, .w1c, 0⟩, ⟨0, 0, .w1c, 0⟩]⟩,
  ⟨0x06C08, 0x0, 1, [⟨31, 0, .ro, 0⟩]⟩,
  ⟨0x06C0C, 0x0, 1, [⟨31, 0, .ro, 0⟩]⟩,
  ⟨0x06C10, 0x0, 1, [⟨31, 16, .rc, 0⟩, ⟨15, 0, .rc, 0⟩]⟩]
def AUD.rows2 : List RegRow := [
  ⟨0x06D00, 0x0, 1, [⟨15, 8, .ro, 0⟩, ⟨3, 0, .ro, 0⟩]⟩,
  ⟨0x06D04, 0x0, 1, [⟨17, 17, .ro, 0⟩, ⟨16, 16, .ro, 0⟩, ⟨7, 0, .ro, 0⟩]⟩]
/-- The AUD register table. -/
def AUD.rows : List RegRow := AUD.rows0 ++ AUD.rows1 ++ AUD.rows2

def STORE.rows0 : List RegRow := [
  ⟨0x08000, 0x0, 1, [⟨23, 8, .rw, 0x40⟩, ⟨7, 1, .rw, 6⟩, ⟨0, 0, .rw, 1⟩]⟩,
  ⟨0x08004, 0x0, 1, [⟨31, 24, .ro, 0⟩, ⟨16, 16, .ro, 0⟩, ⟨15, 0, .ro, 0⟩]⟩,
  ⟨0x08008, 0x4, 2, [⟨31, 0, .ro, 0⟩]⟩,
  ⟨0x08010, 0x0, 1, [⟨15, 0, .rwl, 0⟩]⟩,
  ⟨0x08014, 0x0, 1, [⟨15, 0, .w1c, 0⟩]⟩,
  ⟨0x08018, 0x0, 1, [⟨15, 0, .w1s, 0⟩]⟩,
  ⟨0x08020, 0x0, 1, [⟨31, 0, .ro, 0⟩]⟩,
  ⟨0x08024, 0x0, 1, [⟨31, 16, .ro, 0⟩, ⟨15, 0, .ro, 0⟩]⟩,
  ⟨0x08028, 0x0, 1, [⟨31, 16, .ro, 0⟩, ⟨15, 0, .ro, 0⟩]⟩,
  ⟨0x08030, 0x0, 1, [⟨31, 16, .rc, 0⟩, ⟨15, 0, .rc, 0⟩]⟩,
  ⟨0x08034, 0x0, 1, [⟨31, 16, .rc, 0⟩, ⟨15, 0, .rc, 0⟩]⟩,
  ⟨0x08038, 0x0, 1, [⟨31, 0, .ro, 0⟩]⟩,
  ⟨0x0803C, 0x0, 1, [⟨11, 8, .ro, 0⟩, ⟨7, 0, .ro, 0⟩]⟩,
  ⟨0x08040, 0x0, 1, [⟨3, 3, .w1c, 0⟩, ⟨2, 2, .w1c, 0⟩, ⟨1, 1, .w1c, 0⟩, ⟨0, 0, .w1c, 0⟩]⟩,
  ⟨0x08044, 0x0, 1, [⟨8, 8, .w1c, 0⟩, ⟨2, 0, .ro, 0⟩]⟩,
  ⟨0x08048, 0x0, 1, [⟨31, 0, .ro, 0⟩]⟩,
  ⟨0x08080, 0x10, 8, [⟨31, 0, .ro, 0⟩]⟩,
  ⟨0x08084, 0x10, 8, [⟨31, 16, .ro, 0⟩, ⟨15, 12, .ro, 0⟩, ⟨11, 8, .ro, 0⟩, ⟨0, 0, .w1c, 0⟩]⟩,
  ⟨0x08100, 0x8, 32, [⟨31, 0, .ro, 0⟩]⟩,
  ⟨0x08104, 0x8, 32, [⟨31, 11, .ro, 0⟩, ⟨8, 8, .ro, 0⟩, ⟨3, 0, .ro, 0⟩]⟩,
  ⟨0x08200, 0x4, 16, [⟨31, 0, .ro, 0⟩]⟩]
/-- The STORE register table. -/
def STORE.rows : List RegRow := STORE.rows0

def BRG.rows0 : List RegRow := [
  ⟨0x09000, 0x0, 1, [⟨22, 16, .ro, 0⟩, ⟨7, 6, .ro, 0⟩, ⟨5, 4, .ro, 0⟩, ⟨3, 3, .ro, 0⟩, ⟨2, 2, .ro, 0⟩, ⟨1, 0, .ro, 0⟩]⟩,
  ⟨0x09004, 0x0, 1, [⟨2, 2, .w1c, 0⟩, ⟨1, 1, .w1c, 0⟩, ⟨0, 0, .w1c, 0⟩]⟩,
  ⟨0x09008, 0x0, 1, [⟨31, 16, .rc, 0⟩, ⟨15, 0, .rc, 0⟩]⟩,
  ⟨0x0900C, 0x0, 1, [⟨31, 24, .rc, 0⟩, ⟨23, 16, .rc, 0⟩, ⟨15, 0, .rc, 0⟩]⟩,
  ⟨0x09010, 0x0, 1, [⟨31, 20, .rw, 0⟩]⟩,
  ⟨0x09014, 0x0, 1, [⟨0, 0, .rw, 1⟩]⟩,
  ⟨0x09018, 0x0, 1, [⟨31, 16, .rc, 0⟩, ⟨15, 0, .rc, 0⟩]⟩,
  ⟨0x09020, 0x0, 1, [⟨31, 24, .rw, 0x30⟩, ⟨8, 0, .rw, 0x60⟩]⟩,
  ⟨0x09024, 0x0, 1, [⟨17, 17, .ro, 0⟩, ⟨16, 16, .ro, 0⟩, ⟨15, 8, .ro, 0⟩, ⟨7, 0, .ro, 0⟩]⟩,
  ⟨0x09028, 0x0, 1, [⟨6, 6, .w1c, 0⟩, ⟨5, 5, .w1c, 0⟩, ⟨4, 4, .w1c, 0⟩, ⟨3, 3, .w1c, 0⟩, ⟨2, 2, .w1c, 0⟩, ⟨1, 1, .w1c, 0⟩, ⟨0, 0, .w1c, 0⟩]⟩,
  ⟨0x0902C, 0x0, 1, [⟨31, 16, .rc, 0⟩, ⟨15, 0, .rc, 0⟩]⟩,
  ⟨0x09030, 0x0, 1, [⟨31, 28, .ro, 0⟩, ⟨23, 0, .ro, 0⟩]⟩,
  ⟨0x09034, 0x0, 1, [⟨31, 16, .ro, 0⟩, ⟨15, 8, .ro, 0⟩, ⟨7, 7, .ro, 0⟩, ⟨3, 0, .ro, 0⟩]⟩,
  ⟨0x09038, 0x0, 1, [⟨31, 16, .rc, 0⟩, ⟨15, 0, .rc, 0⟩]⟩,
  ⟨0x0903C, 0x0, 1, [⟨31, 16, .rc, 0⟩, ⟨15, 0, .rc, 0⟩]⟩,
  ⟨0x09040, 0x8, 16, [⟨31, 28, .ro, 0⟩, ⟨23, 0, .ro, 0⟩]⟩,
  ⟨0x09044, 0x8, 16, [⟨31, 20, .ro, 0⟩, ⟨19, 16, .ro, 0⟩, ⟨15, 8, .ro, 0⟩, ⟨0, 0, .w1c, 0⟩]⟩,
  ⟨0x090C0, 0x0, 1, [⟨31, 16, .rc, 0⟩, ⟨15, 0, .ro, 0⟩]⟩,
  ⟨0x09100, 0x20, 16, [⟨25, 24, .rwl, 0⟩, ⟨21, 16, .rwl, 0⟩, ⟨12, 8, .rwl, 0⟩, ⟨4, 3, .rwl, 0⟩, ⟨2, 2, .rwl, 0⟩, ⟨1, 1, .rwl, 0⟩, ⟨0, 0, .rw, 0⟩]⟩,
  ⟨0x09104, 0x20, 16, [⟨31, 12, .rwl, 0⟩]⟩,
  ⟨0x09108, 0x20, 16, [⟨31, 0, .rwl, 0⟩]⟩,
  ⟨0x0910C, 0x20, 16, [⟨31, 0, .rwl, 0⟩]⟩,
  ⟨0x09110, 0x20, 16, [⟨31, 24, .ro, 0⟩, ⟨21, 16, .ro, 0⟩, ⟨12, 12, .ro, 0⟩, ⟨11, 8, .ro, 0⟩, ⟨1, 1, .w1c, 0⟩, ⟨0, 0, .w1c, 0⟩]⟩,
  ⟨0x09114, 0x20, 16, [⟨11, 0, .ro, 0⟩]⟩]
def BRG.rows1 : List RegRow := [
  ⟨0x09118, 0x20, 16, [⟨31, 31, .ro, 0⟩, ⟨27, 24, .ro, 0⟩, ⟨11, 0, .ro, 0⟩]⟩,
  ⟨0x0911C, 0x20, 16, [⟨31, 24, .rc, 0⟩, ⟨23, 0, .ro, 0⟩]⟩,
  ⟨0x09300, 0x0, 1, [⟨2, 2, .ro, 0⟩, ⟨1, 1, .ro, 0⟩, ⟨0, 0, .ro, 0⟩]⟩,
  ⟨0x09310, 0x8, 8, [⟨31, 12, .ro, 0⟩]⟩,
  ⟨0x09314, 0x8, 8, [⟨31, 12, .ro, 0⟩, ⟨2, 2, .ro, 0⟩, ⟨1, 1, .ro, 0⟩, ⟨0, 0, .ro, 0⟩]⟩,
  ⟨0x09350, 0x0, 1, [⟨31, 16, .rc, 0⟩, ⟨15, 0, .rc, 0⟩]⟩,
  ⟨0x09354, 0x0, 1, [⟨31, 16, .rc, 0⟩, ⟨15, 8, .rc, 0⟩, ⟨3, 0, .ro, 0⟩]⟩,
  ⟨0x09380, 0x4, 32, [⟨31, 31, .ro, 0⟩, ⟨30, 30, .ro, 0⟩, ⟨29, 24, .ro, 0⟩, ⟨23, 22, .ro, 0⟩, ⟨15, 8, .ro, 0⟩, ⟨1, 1, .w1s, 0⟩, ⟨0, 0, .ro, 0⟩]⟩]
/-- The BRG register table. -/
def BRG.rows : List RegRow := BRG.rows0 ++ BRG.rows1

def MBX.rows0 : List RegRow := [
  ⟨0x02000, 0x0, 1, [⟨2, 1, .ro, 0⟩, ⟨0, 0, .ro, 0⟩]⟩,
  ⟨0x02004, 0x0, 1, [⟨6, 6, .w1c, 0⟩, ⟨5, 5, .w1c, 0⟩, ⟨4, 4, .w1c, 0⟩, ⟨3, 0, .w1c, 0⟩]⟩,
  ⟨0x02008, 0x0, 1, [⟨31, 0, .ro, 0⟩]⟩,
  ⟨0x0200C, 0x0, 1, [⟨15, 0, .rw, 0xbe⟩]⟩,
  ⟨0x02010, 0x0, 1, [⟨31, 0, .ro, 0⟩]⟩,
  ⟨0x02014, 0x0, 1, [⟨31, 0, .ro, 0⟩]⟩,
  ⟨0x02018, 0x0, 1, [⟨31, 0, .ro, 0⟩]⟩,
  ⟨0x0201C, 0x0, 1, [⟨31, 16, .ro, 0⟩, ⟨9, 8, .ro, 0⟩, ⟨2, 0, .ro, 0⟩]⟩,
  ⟨0x02020, 0x0, 1, [⟨31, 0, .ro, 0⟩]⟩,
  ⟨0x02024, 0x0, 1, [⟨4, 4, .w1c, 0⟩, ⟨3, 3, .w1c, 0⟩, ⟨2, 2, .w1c, 0⟩, ⟨1, 1, .w1c, 0⟩, ⟨0, 0, .w1c, 0⟩]⟩,
  ⟨0x02028, 0x0, 1, [⟨2, 2, .w1c, 0⟩, ⟨1, 1, .w1c, 0⟩, ⟨0, 0, .w1c, 0⟩]⟩,
  ⟨0x0202C, 0x0, 1, [⟨31, 24, .ro, 0⟩, ⟨23, 16, .ro, 0⟩, ⟨15, 0, .rc, 0⟩]⟩,
  ⟨0x02040, 0x20, 4, [⟨31, 12, .ro, 0⟩]⟩,
  ⟨0x02044, 0x20, 4, [⟨31, 12, .ro, 0⟩]⟩,
  ⟨0x02048, 0x20, 4, [⟨6, 0, .rwl, 0⟩]⟩,
  ⟨0x0204C, 0x20, 4, [⟨6, 0, .ro, 0⟩]⟩,
  ⟨0x02050, 0x20, 4, [⟨6, 0, .ro, 0⟩]⟩,
  ⟨0x02054, 0x20, 4, [⟨6, 0, .rwl, 0⟩]⟩,
  ⟨0x02058, 0x20, 4, [⟨31, 0, .wo, 0⟩]⟩,
  ⟨0x0205C, 0x20, 4, [⟨31, 24, .rc, 0⟩, ⟨23, 16, .rc, 0⟩, ⟨15, 8, .ro, 0⟩, ⟨1, 1, .w1s, 0⟩, ⟨0, 0, .ro, 0⟩]⟩]
/-- The MBX register table. -/
def MBX.rows : List RegRow := MBX.rows0

def ETH.rows0 : List RegRow := [
  ⟨0x0A000, 0x0, 1, [⟨7, 7, .ro, 0⟩, ⟨6, 6, .ro, 0⟩, ⟨5, 5, .ro, 0⟩, ⟨2, 1, .ro, 0⟩, ⟨0, 0, .ro, 0⟩]⟩,
  ⟨0x0A004, 0x0, 1, [⟨27, 16, .rwl, 0⟩, ⟨7, 5, .rw, 0⟩, ⟨4, 4, .rw, 0⟩, ⟨2, 1, .rwl, 1⟩, ⟨0, 0, .rw, 0⟩]⟩,
  ⟨0x0A008, 0x0, 1, [⟨31, 0, .rwl, 0⟩]⟩,
  ⟨0x0A00C, 0x0, 1, [⟨15, 0, .rwl, 0⟩]⟩,
  ⟨0x0A010, 0x0, 1, [⟨31, 0, .rwl, 0⟩]⟩,
  ⟨0x0A014, 0x0, 1, [⟨3, 3, .w1c, 0⟩, ⟨2, 2, .w1c, 0⟩, ⟨1, 1, .w1c, 0⟩, ⟨0, 0, .w1c, 0⟩]⟩,
  ⟨0x0A018, 0x0, 1, [⟨5, 5, .w1c, 0⟩, ⟨4, 4, .w1c, 0⟩, ⟨3, 3, .w1c, 0⟩, ⟨2, 2, .w1c, 0⟩, ⟨1, 1, .w1c, 0⟩, ⟨0, 0, .w1c, 0⟩]⟩,
  ⟨0x0A01C, 0x0, 1, [⟨15, 0, .ro, 0⟩]⟩,
  ⟨0x0A020, 0x0, 1, [⟨28, 16, .ro, 1⟩, ⟨15, 8, .ro, 0xff⟩, ⟨6, 0, .ro, 0⟩]⟩,
  ⟨0x0A024, 0x0, 1, [⟨31, 0, .ro, 0⟩]⟩,
  ⟨0x0A030, 0x0, 1, [⟨31, 16, .rc, 0⟩, ⟨5, 0, .ro, 0⟩]⟩,
  ⟨0x0A034, 0x0, 1, [⟨16, 16, .ro, 0⟩, ⟨15, 0, .ro, 0⟩]⟩,
  ⟨0x0A038, 0x0, 1, [⟨31, 16, .rw, 0⟩, ⟨15, 0, .rw, 0⟩]⟩,
  ⟨0x0A040, 0x0, 1, [⟨26, 16, .rwl, 0x100⟩, ⟨1, 1, .rw, 0⟩, ⟨0, 0, .rw, 0⟩]⟩,
  ⟨0x0A044, 0x0, 1, [⟨31, 12, .rwl, 0⟩]⟩,
  ⟨0x0A048, 0x0, 1, [⟨31, 12, .rwl, 0⟩]⟩,
  ⟨0x0A04C, 0x0, 1, [⟨25, 16, .rw, 0⟩, ⟨9, 0, .ro, 0⟩]⟩,
  ⟨0x0A050, 0x0, 1, [⟨25, 16, .rw, 0⟩, ⟨9, 0, .ro, 0⟩]⟩,
  ⟨0x0A060, 0x0, 1, [⟨31, 16, .rc, 0⟩, ⟨11, 8, .ro, 0⟩, ⟨7, 0, .ro, 0⟩]⟩,
  ⟨0x0A080, 0x14, 8, [⟨31, 0, .ro, 0⟩]⟩,
  ⟨0x0A084, 0x14, 8, [⟨31, 0, .ro, 0⟩]⟩,
  ⟨0x0A088, 0x14, 8, [⟨31, 0, .ro, 0⟩]⟩,
  ⟨0x0A08C, 0x14, 8, [⟨31, 0, .ro, 0⟩]⟩,
  ⟨0x0A090, 0x14, 8, [⟨17, 17, .ro, 0⟩, ⟨16, 16, .ro, 0⟩, ⟨15, 0, .ro, 0⟩]⟩]
def ETH.rows1 : List RegRow := [
  ⟨0x0A200, 0x4, 36, [⟨31, 0, .rc, 0⟩]⟩]
/-- The ETH register table. -/
def ETH.rows : List RegRow := ETH.rows0 ++ ETH.rows1

def PTP.rows0 : List RegRow := [
  ⟨0x0C000, 0x0, 1, [⟨23, 16, .ro, 0xf8⟩, ⟨10, 10, .ro, 0⟩, ⟨9, 9, .ro, 0⟩, ⟨7, 4, .ro, 0⟩, ⟨3, 0, .ro, 0⟩]⟩,
  ⟨0x0C004, 0x0, 1, [⟨3, 3, .w1c, 0⟩, ⟨2, 2, .w1c, 0⟩, ⟨1, 1, .w1c, 0⟩, ⟨0, 0, .w1c, 0⟩]⟩,
  ⟨0x0C008, 0x0, 1, [⟨31, 0, .ro, 0⟩]⟩,
  ⟨0x0C00C, 0x0, 1, [⟨31, 0, .ro, 0⟩]⟩,
  ⟨0x0C010, 0x0, 1, [⟨31, 0, .ro, 0⟩]⟩,
  ⟨0x0C014, 0x0, 1, [⟨31, 0, .ro, 0⟩]⟩,
  ⟨0x0C018, 0x0, 1, [⟨31, 0, .ro, 0⟩]⟩,
  ⟨0x0C01C, 0x0, 1, [⟨31, 0, .ro, 0⟩]⟩,
  ⟨0x0C020, 0x0, 1, [⟨31, 16, .rc, 0⟩, ⟨15, 0, .rc, 0⟩]⟩,
  ⟨0x0C100, 0x4, 64, [⟨31, 24, .rc, 0⟩, ⟨23, 16, .rc, 0⟩, ⟨0, 0, .ro, 0⟩]⟩,
  ⟨0x0C200, 0x4, 64, [⟨31, 24, .rc, 0⟩, ⟨12, 4, .ro, 0⟩, ⟨1, 1, .ro, 0⟩, ⟨0, 0, .ro, 0⟩]⟩,
  ⟨0x0C300, 0x4, 64, [⟨31, 16, .rc, 0⟩, ⟨15, 8, .rc, 0⟩, ⟨7, 0, .rc, 0⟩]⟩,
  ⟨0x0C400, 0x4, 4, [⟨31, 0, .w1c, 0⟩]⟩]
/-- The PTP register table. -/
def PTP.rows : List RegRow := PTP.rows0

def CAN.rows0 : List RegRow := [
  ⟨0x10000, 0x0, 1, [⟨29, 16, .ro, 0⟩, ⟨13, 8, .ro, 0⟩, ⟨6, 6, .ro, 0⟩, ⟨5, 4, .ro, 0⟩, ⟨3, 3, .ro, 0⟩, ⟨2, 2, .ro, 0⟩, ⟨1, 0, .ro, 3⟩]⟩,
  ⟨0x10004, 0x0, 1, [⟨29, 24, .rwl, 0⟩, ⟨23, 16, .rw, 8⟩, ⟨15, 8, .rw, 0x28⟩, ⟨4, 3, .rwl, 1⟩, ⟨2, 1, .rwl, 0⟩, ⟨0, 0, .rw, 0⟩]⟩,
  ⟨0x10008, 0x0, 1, [⟨10, 7, .rwl, 2⟩]⟩,
  ⟨0x1000C, 0x0, 1, [⟨31, 24, .rc, 0⟩, ⟨23, 16, .rc, 0⟩, ⟨15, 8, .ro, 0⟩, ⟨7, 0, .ro, 0⟩]⟩,
  ⟨0x10010, 0x0, 1, [⟨7, 7, .w1c, 0⟩, ⟨6, 6, .w1c, 0⟩, ⟨5, 5, .w1c, 0⟩, ⟨4, 4, .w1c, 0⟩, ⟨3, 3, .w1c, 0⟩, ⟨2, 2, .w1c, 0⟩, ⟨1, 1, .w1c, 0⟩, ⟨0, 0, .w1c, 0⟩]⟩,
  ⟨0x10014, 0x0, 1, [⟨31, 0, .ro, 0⟩]⟩,
  ⟨0x10018, 0x0, 1, [⟨31, 24, .ro, 0⟩, ⟨15, 0, .ro, 0⟩]⟩,
  ⟨0x1001C, 0x0, 1, [⟨31, 0, .ro, 0⟩]⟩,
  ⟨0x10020, 0x0, 1, [⟨31, 0, .ro, 0⟩]⟩,
  ⟨0x10024, 0x0, 1, [⟨31, 12, .rwl, 0⟩]⟩,
  ⟨0x10028, 0x0, 1, [⟨31, 16, .rc, 0⟩, ⟨15, 8, .ro, 0⟩, ⟨7, 0, .ro, 0⟩]⟩,
  ⟨0x10030, 0x0, 1, [⟨31, 0, .rc, 0⟩]⟩,
  ⟨0x10040, 0x8, 8, [⟨31, 31, .w1c, 0⟩, ⟨29, 29, .ro, 0⟩, ⟨28, 0, .ro, 0⟩]⟩,
  ⟨0x10044, 0x8, 8, [⟨31, 16, .rc, 0⟩, ⟨15, 0, .ro, 0⟩]⟩,
  ⟨0x10080, 0x0, 1, [⟨0, 0, .ro, 0⟩]⟩,
  ⟨0x10084, 0x0, 1, [⟨29, 29, .ro, 0⟩, ⟨28, 0, .ro, 0⟩]⟩,
  ⟨0x10088, 0x0, 1, [⟨6, 0, .ro, 5⟩]⟩,
  ⟨0x1008C, 0x0, 1, [⟨31, 0, .ro, 0⟩]⟩,
  ⟨0x10100, 0x4, 4, [⟨31, 0, .w1c, 0⟩]⟩,
  ⟨0x10110, 0x4, 4, [⟨31, 0, .w1c, 0⟩]⟩,
  ⟨0x10120, 0x4, 4, [⟨31, 0, .w1c, 0⟩]⟩,
  ⟨0x10400, 0x8, 64, [⟨29, 16, .ro, 0⟩, ⟨13, 0, .ro, 0⟩]⟩,
  ⟨0x10404, 0x8, 64, [⟨8, 8, .ro, 0⟩, ⟨7, 0, .ro, 0⟩]⟩,
  ⟨0x10800, 0x10, 128, [⟨15, 15, .rw, 0⟩, ⟨11, 8, .rwl, 0⟩, ⟨4, 4, .rwl, 0⟩, ⟨3, 3, .rwl, 0⟩, ⟨2, 2, .rwl, 0⟩, ⟨1, 1, .rwl, 0⟩, ⟨0, 0, .rwl, 0⟩]⟩]
def CAN.rows1 : List RegRow := [
  ⟨0x10804, 0x10, 128, [⟨28, 0, .rwl, 0⟩]⟩,
  ⟨0x10808, 0x10, 128, [⟨28, 0, .rwl, 0⟩]⟩,
  ⟨0x1080C, 0x10, 128, [⟨20, 18, .ro, 0⟩, ⟨17, 17, .ro, 0⟩, ⟨16, 16, .w1s, 0⟩, ⟨15, 8, .rc, 0⟩, ⟨4, 4, .w1s, 0⟩, ⟨3, 3, .w1s, 0⟩, ⟨2, 2, .ro, 0⟩, ⟨1, 1, .ro, 0⟩, ⟨0, 0, .ro, 0⟩]⟩]
/-- The CAN register table. -/
def CAN.rows : List RegRow := CAN.rows0 ++ CAN.rows1

def STK.rows0 : List RegRow := [
  ⟨0x12000, 0x0, 1, [⟨14, 14, .ro, 0⟩, ⟨13, 13, .ro, 0⟩, ⟨12, 12, .ro, 0⟩, ⟨9, 8, .ro, 0⟩, ⟨5, 4, .ro, 0⟩, ⟨1, 0, .ro, 0⟩]⟩,
  ⟨0x12004, 0x0, 1, [⟨6, 6, .w1c, 0⟩, ⟨5, 5, .w1c, 0⟩, ⟨4, 4, .w1c, 0⟩, ⟨3, 3, .w1c, 0⟩, ⟨2, 2, .w1c, 0⟩, ⟨1, 1, .w1c, 0⟩, ⟨0, 0, .w1c, 0⟩]⟩,
  ⟨0x12008, 0x0, 1, [⟨10, 8, .ro, 0⟩, ⟨6, 4, .ro, 0⟩, ⟨2, 0, .ro, 0⟩]⟩,
  ⟨0x1200C, 0x0, 1, [⟨31, 16, .ro, 0⟩, ⟨15, 0, .ro, 0⟩]⟩,
  ⟨0x12010, 0x10, 2, [⟨23, 16, .ro, 0⟩, ⟨8, 8, .ro, 0⟩, ⟨7, 7, .ro, 1⟩, ⟨3, 0, .ro, 0⟩]⟩,
  ⟨0x12014, 0x10, 2, [⟨31, 16, .rc, 0⟩, ⟨15, 0, .rc, 0⟩]⟩,
  ⟨0x12018, 0x10, 2, [⟨7, 4, .rw, 3⟩, ⟨2, 0, .rw, 4⟩]⟩,
  ⟨0x1201C, 0x10, 2, [⟨8, 8, .w1s, 0⟩, ⟨4, 4, .ro, 0⟩, ⟨1, 0, .rwl, 0⟩]⟩,
  ⟨0x12040, 0x8, 2, [⟨31, 0, .ro, 0⟩]⟩,
  ⟨0x12044, 0x8, 2, [⟨31, 0, .ro, 0⟩]⟩,
  ⟨0x12060, 0x10, 3, [⟨27, 16, .ro, 0⟩, ⟨3, 3, .ro, 0⟩, ⟨2, 2, .ro, 0⟩, ⟨1, 1, .ro, 0⟩, ⟨0, 0, .ro, 0⟩]⟩,
  ⟨0x12064, 0x10, 3, [⟨31, 0, .ro, 0⟩]⟩,
  ⟨0x12068, 0x10, 3, [⟨31, 0, .ro, 0⟩]⟩,
  ⟨0x1206C, 0x10, 3, [⟨31, 16, .rc, 0⟩, ⟨15, 0, .rc, 0⟩]⟩]
/-- The STK register table. -/
def STK.rows : List RegRow := STK.rows0

def PWR.rows0 : List RegRow := [
  ⟨0x13000, 0x0, 1, [⟨23, 23, .ro, 0⟩, ⟨22, 22, .ro, 0⟩, ⟨21, 21, .ro, 0⟩, ⟨17, 16, .ro, 1⟩, ⟨11, 8, .ro, 0⟩, ⟨3, 0, .ro, 7⟩]⟩,
  ⟨0x13004, 0x0, 1, [⟨4, 4, .w1c, 0⟩, ⟨3, 3, .w1c, 0⟩, ⟨2, 2, .w1c, 0⟩, ⟨1, 1, .w1c, 0⟩, ⟨0, 0, .w1c, 0⟩]⟩,
  ⟨0x13008, 0x0, 1, [⟨31, 16, .rw, 0x1e⟩, ⟨8, 8, .rw, 0⟩, ⟨1, 0, .rw, 1⟩]⟩,
  ⟨0x1300C, 0x0, 1, [⟨8, 8, .ro, 1⟩, ⟨5, 4, .rwl, 0⟩, ⟨1, 0, .rwl, 0⟩]⟩,
  ⟨0x13010, 0x0, 1, [⟨31, 16, .rc, 0⟩, ⟨15, 0, .rc, 0⟩]⟩,
  ⟨0x13020, 0x0, 1, [⟨31, 16, .ro, 0⟩, ⟨15, 8, .ro, 0⟩, ⟨7, 0, .ro, 0⟩]⟩,
  ⟨0x13024, 0x0, 1, [⟨10, 1, .rw, 0x387⟩]⟩,
  ⟨0x13028, 0x0, 1, [⟨31, 16, .rw, 0x1f4⟩, ⟨15, 0, .rw, 0xc8⟩]⟩,
  ⟨0x1302C, 0x0, 1, [⟨31, 16, .rw, 0x32⟩, ⟨15, 0, .rw, 0x64⟩]⟩,
  ⟨0x13030, 0x0, 1, [⟨2, 0, .rw, 3⟩]⟩,
  ⟨0x13034, 0x0, 1, [⟨19, 16, .ro, 0⟩, ⟨15, 0, .ro, 0⟩]⟩,
  ⟨0x13038, 0x0, 1, [⟨31, 28, .ro, 0⟩, ⟨27, 24, .ro, 0⟩, ⟨23, 20, .ro, 0⟩, ⟨16, 16, .w1c, 0⟩, ⟨15, 0, .ro, 0⟩]⟩,
  ⟨0x1303C, 0x0, 1, [⟨31, 0, .ro, 0⟩]⟩,
  ⟨0x13040, 0x0, 1, [⟨31, 0, .ro, 0⟩]⟩,
  ⟨0x13048, 0x0, 1, [⟨31, 0, .ro, 0⟩]⟩,
  ⟨0x1304C, 0x0, 1, [⟨31, 0, .ro, 0⟩]⟩,
  ⟨0x13050, 0x0, 1, [⟨31, 0, .rw, 0⟩]⟩,
  ⟨0x13054, 0x0, 1, [⟨31, 0, .rw, 0⟩]⟩,
  ⟨0x13080, 0x4, 12, [⟨25, 24, .ro, 2⟩, ⟨16, 16, .ro, 0⟩, ⟨8, 0, .ro, 0⟩]⟩,
  ⟨0x130C0, 0x0, 1, [⟨11, 1, .rw, 0⟩]⟩,
  ⟨0x130D0, 0x0, 1, [⟨31, 0, .ro, 0⟩]⟩,
  ⟨0x130D4, 0x0, 1, [⟨31, 0, .ro, 0⟩]⟩,
  ⟨0x130D8, 0x0, 1, [⟨31, 0, .ro, 0⟩]⟩,
  ⟨0x130DC, 0x0, 1, [⟨31, 0, .ro, 0⟩]⟩]
def PWR.rows1 : List RegRow := [
  ⟨0x13100, 0x0, 1, [⟨24, 24, .ro, 0⟩, ⟨23, 16, .ro, 0⟩, ⟨15, 8, .ro, 0⟩, ⟨7, 0, .ro, 0⟩]⟩,
  ⟨0x13120, 0x8, 8, [⟨25, 16, .ro, 0⟩, ⟨13, 4, .ro, 0⟩, ⟨2, 0, .ro, 0⟩]⟩,
  ⟨0x13124, 0x8, 8, [⟨9, 0, .ro, 0⟩]⟩,
  ⟨0x13180, 0x0, 1, [⟨21, 16, .ro, 0⟩, ⟨14, 8, .ro, 0⟩, ⟨5, 5, .ro, 0⟩, ⟨4, 4, .ro, 0⟩, ⟨2, 0, .ro, 0⟩]⟩,
  ⟨0x13184, 0x0, 1, [⟨31, 16, .rw, 0x3c⟩, ⟨15, 8, .rw, 0x14⟩, ⟨7, 0, .rw, 2⟩]⟩,
  ⟨0x13188, 0x0, 1, [⟨10, 1, .rw, 0x40⟩]⟩,
  ⟨0x1318C, 0x0, 1, [⟨7, 7, .rw, 0⟩, ⟨6, 0, .rw, 0⟩]⟩,
  ⟨0x13190, 0x0, 1, [⟨31, 1, .ro, 0⟩]⟩,
  ⟨0x13194, 0x0, 1, [⟨31, 0, .ro, 0⟩]⟩,
  ⟨0x13198, 0x0, 1, [⟨6, 6, .w1c, 0⟩, ⟨5, 5, .w1c, 0⟩, ⟨4, 4, .w1c, 0⟩, ⟨3, 3, .w1c, 0⟩, ⟨2, 2, .w1c, 0⟩, ⟨1, 1, .w1c, 0⟩, ⟨0, 0, .w1c, 0⟩]⟩,
  ⟨0x1319C, 0x0, 1, [⟨31, 0, .ro, 0⟩]⟩,
  ⟨0x131A0, 0x0, 1, [⟨31, 16, .rc, 0⟩, ⟨7, 0, .ro, 0⟩]⟩,
  ⟨0x131A4, 0x0, 1, [⟨31, 24, .rc, 0⟩, ⟨23, 16, .rc, 0⟩, ⟨15, 8, .rc, 0⟩, ⟨2, 2, .ro, 0⟩, ⟨1, 1, .ro, 0⟩, ⟨0, 0, .ro, 0⟩]⟩,
  ⟨0x131A8, 0x0, 1, [⟨31, 0, .ro, 0⟩]⟩,
  ⟨0x131AC, 0x0, 1, [⟨31, 0, .ro, 0⟩]⟩,
  ⟨0x131B0, 0x0, 1, [⟨31, 0, .ro, 0⟩]⟩,
  ⟨0x131B4, 0x0, 1, [⟨31, 0, .ro, 0⟩]⟩,
  ⟨0x131B8, 0x0, 1, [⟨31, 16, .rc, 0⟩, ⟨15, 0, .ro, 0⟩]⟩]
/-- The PWR register table. -/
def PWR.rows : List RegRow := PWR.rows0 ++ PWR.rows1

def SEC.rows0 : List RegRow := [
  ⟨0x14000, 0x0, 1, [⟨17, 16, .ro, 0⟩, ⟨15, 8, .ro, 0⟩, ⟨5, 5, .ro, 0⟩, ⟨4, 4, .ro, 1⟩, ⟨3, 3, .ro, 0⟩, ⟨2, 2, .ro, 0⟩, ⟨0, 0, .ro, 0⟩]⟩,
  ⟨0x14004, 0x0, 1, [⟨6, 6, .w1c, 0⟩, ⟨5, 5, .w1c, 0⟩, ⟨4, 4, .w1c, 0⟩, ⟨3, 3, .w1c, 0⟩, ⟨2, 2, .w1c, 0⟩, ⟨1, 1, .w1c, 0⟩, ⟨0, 0, .w1c, 0⟩]⟩,
  ⟨0x14008, 0x0, 1, [⟨15, 12, .ro, 0⟩, ⟨11, 8, .ro, 0⟩, ⟨3, 3, .ro, 0⟩, ⟨2, 2, .ro, 0⟩, ⟨1, 1, .ro, 0⟩, ⟨0, 0, .ro, 0⟩]⟩,
  ⟨0x1400C, 0x0, 1, [⟨15, 0, .rc, 0⟩]⟩,
  ⟨0x14010, 0x0, 1, [⟨15, 12, .ro, 4⟩, ⟨11, 8, .ro, 3⟩, ⟨7, 4, .ro, 2⟩, ⟨3, 0, .ro, 1⟩]⟩,
  ⟨0x14014, 0x0, 1, [⟨8, 8, .wo, 0⟩, ⟨7, 4, .wo, 0⟩, ⟨3, 0, .wo, 0⟩]⟩,
  ⟨0x14018, 0x0, 1, [⟨15, 12, .ro, 0⟩, ⟨11, 8, .ro, 0⟩, ⟨2, 0, .ro, 0⟩]⟩,
  ⟨0x1401C, 0x0, 1, [⟨31, 0, .ro, 0⟩]⟩,
  ⟨0x14020, 0x0, 1, [⟨31, 24, .rc, 0⟩, ⟨23, 16, .rc, 0⟩, ⟨15, 8, .rc, 0⟩, ⟨7, 0, .rc, 0⟩]⟩,
  ⟨0x14030, 0x4, 4, [⟨31, 16, .ro, 0⟩, ⟨5, 5, .ro, 0⟩, ⟨4, 4, .ro, 0⟩, ⟨3, 0, .ro, 0⟩]⟩,
  ⟨0x14040, 0x4, 16, [⟨31, 16, .ro, 0⟩, ⟨11, 8, .ro, 0⟩, ⟨3, 3, .ro, 0⟩, ⟨1, 0, .ro, 0⟩]⟩,
  ⟨0x14080, 0x4, 16, [⟨23, 0, .ro, 0⟩]⟩]
/-- The SEC register table. -/
def SEC.rows : List RegRow := SEC.rows0

def EVR.rows0 : List RegRow := [
  ⟨0x15000, 0x0, 1, [⟨13, 8, .ro, 0⟩, ⟨1, 0, .ro, 0⟩]⟩,
  ⟨0x15004, 0x0, 1, [⟨4, 4, .w1c, 0⟩, ⟨3, 3, .w1c, 0⟩, ⟨2, 2, .w1c, 0⟩, ⟨1, 1, .w1c, 0⟩, ⟨0, 0, .w1c, 0⟩]⟩,
  ⟨0x15008, 0x0, 1, [⟨15, 8, .rw, 0x40⟩, ⟨2, 0, .rw, 6⟩]⟩,
  ⟨0x1500C, 0x0, 1, [⟨31, 0, .ro, 0⟩]⟩,
  ⟨0x15010, 0x0, 1, [⟨31, 0, .ro, 0⟩]⟩,
  ⟨0x15014, 0x0, 1, [⟨31, 0, .ro, 0⟩]⟩,
  ⟨0x15018, 0x0, 1, [⟨31, 0, .ro, 0⟩]⟩,
  ⟨0x1501C, 0x0, 1, [⟨31, 16, .rc, 0⟩, ⟨15, 0, .rc, 0⟩]⟩,
  ⟨0x15020, 0x0, 1, [⟨31, 0, .ro, 0⟩]⟩,
  ⟨0x15024, 0x0, 1, [⟨31, 0, .ro, 0⟩]⟩,
  ⟨0x15028, 0x0, 1, [⟨31, 16, .ro, 0⟩, ⟨3, 0, .ro, 0⟩]⟩,
  ⟨0x1502C, 0x0, 1, [⟨31, 16, .ro, 0⟩, ⟨10, 8, .ro, 0⟩, ⟨7, 0, .ro, 0⟩]⟩]
/-- The EVR register table. -/
def EVR.rows : List RegRow := EVR.rows0

def TST.rows0 : List RegRow := [
  ⟨0x16000, 0x0, 1, [⟨31, 16, .ro, 0⟩, ⟨9, 9, .ro, 0⟩, ⟨5, 4, .ro, 0⟩, ⟨1, 0, .ro, 0⟩]⟩,
  ⟨0x16004, 0x0, 1, [⟨1, 1, .w1c, 0⟩, ⟨0, 0, .w1c, 0⟩]⟩,
  ⟨0x16010, 0x4, 4, [⟨31, 0, .ro, 0⟩]⟩,
  ⟨0x16020, 0, 1, [⟨31, 0, .ro, 0x7D41C09E⟩]⟩,
  ⟨0x16024, 0, 1, [⟨31, 0, .ro, 0x25B36F18⟩]⟩,
  ⟨0x16028, 0, 1, [⟨31, 0, .ro, 0x9A06E4D2⟩]⟩,
  ⟨0x1602C, 0, 1, [⟨31, 0, .ro, 0x1C8F573B⟩]⟩,
  ⟨0x16030, 0x0, 1, [⟨15, 0, .ro, 0⟩]⟩,
  ⟨0x16034, 0x0, 1, [⟨15, 0, .ro, 0⟩]⟩,
  ⟨0x16040, 0x0, 1, [⟨31, 24, .ro, 0⟩, ⟨2, 2, .ro, 0⟩, ⟨1, 1, .ro, 0⟩, ⟨0, 0, .ro, 0⟩]⟩,
  ⟨0x16044, 0x0, 1, [⟨31, 0, .ro, 0⟩]⟩,
  ⟨0x16048, 0x0, 1, [⟨31, 0, .ro, 0⟩]⟩,
  ⟨0x16080, 0x10, 2, [⟨8, 8, .w1s, 0⟩, ⟨4, 4, .ro, 0⟩, ⟨1, 0, .rwl, 0⟩]⟩,
  ⟨0x16084, 0x10, 2, [⟨31, 0, .ro, 0⟩]⟩,
  ⟨0x16088, 0x10, 2, [⟨31, 0, .ro, 0⟩]⟩]
/-- The TST register table. -/
def TST.rows : List RegRow := TST.rows0

def DIO.rows0 : List RegRow := [
  ⟨0x17000, 0x0, 1, [⟨31, 0, .ro, 0⟩]⟩,
  ⟨0x17004, 0x0, 1, [⟨31, 0, .ro, 0⟩]⟩,
  ⟨0x17008, 0x0, 1, [⟨31, 0, .ro, 0⟩]⟩,
  ⟨0x1700C, 0x0, 1, [⟨31, 0, .ro, 0⟩]⟩,
  ⟨0x17010, 0x0, 1, [⟨31, 0, .w1c, 0⟩]⟩,
  ⟨0x17014, 0x0, 1, [⟨31, 0, .w1c, 0⟩]⟩,
  ⟨0x17018, 0x0, 1, [⟨31, 0, .w1c, 0⟩]⟩,
  ⟨0x17020, 0x0, 1, [⟨15, 0, .rw, 0⟩]⟩,
  ⟨0x17024, 0x0, 1, [⟨15, 0, .rw, 0⟩]⟩,
  ⟨0x17028, 0x0, 1, [⟨15, 0, .ro, 0⟩]⟩,
  ⟨0x17100, 0x4, 32, [⟨31, 24, .rw, 0⟩, ⟨13, 13, .rw, 0⟩, ⟨12, 11, .rw, 0⟩, ⟨10, 10, .rw, 0⟩, ⟨8, 0, .rw, 0x14⟩]⟩,
  ⟨0x17180, 0x4, 32, [⟨31, 16, .rw, 0x64⟩, ⟨15, 0, .rw, 0⟩]⟩,
  ⟨0x17200, 0x4, 16, [⟨15, 12, .rw, 0⟩, ⟨11, 5, .rw, 0⟩, ⟨4, 2, .rw, 0⟩, ⟨0, 0, .rw, 0⟩]⟩]
/-- The DIO register table. -/
def DIO.rows : List RegRow := DIO.rows0

def INTC.rows0 : List RegRow := [
  ⟨0x01000, 0x0, 1, [⟨31, 0, .w1c, 0⟩]⟩,
  ⟨0x01004, 0x0, 1, [⟨31, 0, .w1c, 0⟩]⟩,
  ⟨0x01008, 0x0, 1, [⟨31, 0, .rw, 0⟩]⟩,
  ⟨0x0100C, 0x0, 1, [⟨31, 0, .rw, 0⟩]⟩,
  ⟨0x01010, 0x0, 1, [⟨31, 0, .ro, 0⟩]⟩,
  ⟨0x01014, 0x0, 1, [⟨31, 0, .ro, 0⟩]⟩,
  ⟨0x01018, 0x0, 1, [⟨31, 0, .w1s, 0⟩]⟩,
  ⟨0x0101C, 0x0, 1, [⟨31, 0, .w1s, 0⟩]⟩,
  ⟨0x01020, 0x0, 1, [⟨2, 2, .ro, 0⟩, ⟨1, 1, .ro, 0⟩, ⟨0, 0, .ro, 0⟩]⟩,
  ⟨0x01024, 0x0, 1, [⟨31, 16, .rc, 0⟩, ⟨15, 8, .rc, 0⟩, ⟨7, 0, .rc, 0⟩]⟩]
/-- The INTC register table. -/
def INTC.rows : List RegRow := INTC.rows0

end Sys2Proof.Machine
end

