-- ==== Sys2Proof/Machine/Codes.lean ====
section
/-! DEFINITION. The code tables: interrupt sources (R626), event codes with their severities (R600), response status
codes (R371) and power domains (R498). -/

namespace Sys2Proof.Machine

/-- An event code of R600 with the severity the table gives it. -/
structure EvtCode where
  code : Nat
  sev : Nat
  deriving DecidableEq, Repr

/-! ## Interrupt sources (R626) -/
abbrev Src.TICK_OVERRUN : Nat := 0
abbrev Src.TICK_MARK : Nat := 1
abbrev Src.FAULT_SUMMARY : Nat := 2
abbrev Src.DIO_EVENT : Nat := 3
abbrev Src.DIVERGENCE : Nat := 4
abbrev Src.UNIT_STATE : Nat := 5
abbrev Src.CONFIG_COMMIT : Nat := 6
abbrev Src.CONFIG_ROLLBACK : Nat := 7
abbrev Src.MBX0_RESP : Nat := 8
abbrev Src.MBX1_RESP : Nat := 9
abbrev Src.MBX2_RESP : Nat := 10
abbrev Src.MBX3_RESP : Nat := 11
abbrev Src.MBX_NOTIFY : Nat := 12
abbrev Src.MBX_ERROR : Nat := 13
abbrev Src.SUMMARY_READY : Nat := 14
abbrev Src.FW_ALIVE_LOST : Nat := 15
abbrev Src.RING_LINK : Nat := 16
abbrev Src.RING_INAUG_START : Nat := 17
abbrev Src.RING_INAUG_DONE : Nat := 18
abbrev Src.RING_REGION_FAIL : Nat := 19
abbrev Src.RING_LINE_DEGRADED : Nat := 20
abbrev Src.RING_MASTER_CHANGE : Nat := 21
abbrev Src.RING_DUAL_ACTIVE : Nat := 22
abbrev Src.RING_MSG_RX : Nat := 23
abbrev Src.SYNC_LOCK : Nat := 24
abbrev Src.SYNC_LOST : Nat := 25
abbrev Src.SYNC_FTA_REJECT : Nat := 26
abbrev Src.SYNC_STEP : Nat := 27
abbrev Src.AUD_STALE : Nat := 28
abbrev Src.AUD_PORT_ERR : Nat := 29
abbrev Src.AUD_CLIP : Nat := 30
abbrev Src.AUD_PATH_MON : Nat := 31
abbrev Src.AUD_CALL : Nat := 32
abbrev Src.AUD_PLAYBACK : Nat := 33
abbrev Src.AUD_AEC_DIVERGE : Nat := 34
abbrev Src.AUD_RECORDER : Nat := 35
abbrev Src.ETH0_EVENT : Nat := 36
abbrev Src.ETH0_TS : Nat := 37
abbrev Src.ETH0_ERR : Nat := 38
abbrev Src.ETH1_EVENT : Nat := 39
abbrev Src.ETH1_TS : Nat := 40
abbrev Src.ETH1_ERR : Nat := 41
abbrev Src.AES67_STREAM : Nat := 42
abbrev Src.PTP_EVENT : Nat := 43
abbrev Src.CAN_RX : Nat := 44
abbrev Src.CAN_TX : Nat := 45
abbrev Src.CAN_ERR : Nat := 46
abbrev Src.CAN_WINDOW : Nat := 47
abbrev Src.CAN_VOICE : Nat := 48
abbrev Src.CAN_WAKE : Nat := 49
abbrev Src.BRIDGE_POSTED_FAIL : Nat := 50
abbrev Src.BRIDGE_PREFETCH_DISCARD : Nat := 51
abbrev Src.BRIDGE_LOCK : Nat := 52
abbrev Src.BRIDGE_TIMEOUT : Nat := 53
abbrev Src.PWR_STATE : Nat := 54
abbrev Src.PWR_WAKE : Nat := 55
abbrev Src.STORE_ECC_RETENTION : Nat := 56
abbrev Src.NET_SLEEP : Nat := 57
abbrev Src.SEC_TAMPER : Nat := 58
abbrev Src.SEC_KEY_OP : Nat := 59
abbrev Src.SEC_AUTH_FAIL : Nat := 60
abbrev Src.EVREC : Nat := 61
abbrev Src.BIST_DONE : Nat := 62
abbrev Src.STACK_EVENT : Nat := 63

/-! ## Event codes (R600) -/
abbrev Evt.START : EvtCode := ⟨0x0100, 2⟩
abbrev Evt.DECIK_STOP : EvtCode := ⟨0x0101, 6⟩
abbrev Evt.DECIK_HALTED : EvtCode := ⟨0x0102, 7⟩
abbrev Evt.TICK_OVERRUN : EvtCode := ⟨0x0103, 4⟩
abbrev Evt.TIMED_CANCELLED : EvtCode := ⟨0x0104, 3⟩
abbrev Evt.PDW : EvtCode := ⟨0x0105, 5⟩
abbrev Evt.PDW_RECOVERED : EvtCode := ⟨0x0106, 3⟩
abbrev Evt.BOOT_FALLBACK : EvtCode := ⟨0x0107, 5⟩
abbrev Evt.BOOT_STRAP_INVALID : EvtCode := ⟨0x0108, 5⟩
abbrev Evt.BIST_FAIL : EvtCode := ⟨0x0109, 6⟩
abbrev Evt.STARTUP_NO_RING : EvtCode := ⟨0x010A, 4⟩
abbrev Evt.CONFIG_MISSING : EvtCode := ⟨0x010B, 6⟩
abbrev Evt.DUPLICATE_UID : EvtCode := ⟨0x0201, 7⟩
abbrev Evt.TOO_MANY_POSITIONS : EvtCode := ⟨0x0202, 5⟩
abbrev Evt.AUTH_REJECTED : EvtCode := ⟨0x0203, 6⟩
abbrev Evt.CLAIM_MISSING : EvtCode := ⟨0x0204, 5⟩
abbrev Evt.LAYOUT_MISMATCH : EvtCode := ⟨0x0205, 5⟩
abbrev Evt.FAST_SHRINK : EvtCode := ⟨0x0206, 4⟩
abbrev Evt.MERGE_FAILED : EvtCode := ⟨0x0207, 5⟩
abbrev Evt.INAUG_ABANDONED : EvtCode := ⟨0x0208, 4⟩
abbrev Evt.CAB_CONFLICT : EvtCode := ⟨0x0209, 4⟩
abbrev Evt.SYNC_LOST : EvtCode := ⟨0x0301, 5⟩
abbrev Evt.MASTER_FAIL : EvtCode := ⟨0x0401, 6⟩
abbrev Evt.TAKEOVER : EvtCode := ⟨0x0402, 5⟩
abbrev Evt.DUAL_ACTIVE : EvtCode := ⟨0x0403, 6⟩
abbrev Evt.RING_PATH_FAULT : EvtCode := ⟨0x0404, 5⟩
abbrev Evt.CAN_PATH_FAULT : EvtCode := ⟨0x0405, 5⟩
abbrev Evt.RING_CUT_OFF : EvtCode := ⟨0x0406, 6⟩
abbrev Evt.LINE_SHORT : EvtCode := ⟨0x0407, 5⟩
abbrev Evt.TWIN_LOSS : EvtCode := ⟨0x0408, 6⟩
abbrev Evt.TWIN_SPLIT : EvtCode := ⟨0x0409, 6⟩
abbrev Evt.TWIN_LINK_DEGRADED : EvtCode := ⟨0x040A, 5⟩
abbrev Evt.PATH_DEGRADED : EvtCode := ⟨0x0501, 5⟩
abbrev Evt.LIBRARY_CLIP_LOST : EvtCode := ⟨0x0502, 5⟩
abbrev Evt.STORE_UE : EvtCode := ⟨0x0601, 6⟩
abbrev Evt.STORE_CE_HIGH : EvtCode := ⟨0x0602, 4⟩
abbrev Evt.STORE_BANK_LOST : EvtCode := ⟨0x0603, 6⟩
abbrev Evt.BRIDGE_LOCK_UR : EvtCode := ⟨0x0701, 4⟩
abbrev Evt.UNIT_DIVERGENCE : EvtCode := ⟨0x0801, 4⟩
abbrev Evt.UNIT_FAULTED : EvtCode := ⟨0x0802, 5⟩
abbrev Evt.CONFIG_COMMIT : EvtCode := ⟨0x0803, 3⟩
abbrev Evt.CONFIG_ROLLBACK : EvtCode := ⟨0x0804, 5⟩
abbrev Evt.PTP_FOREIGN_GM : EvtCode := ⟨0x0901, 4⟩
abbrev Evt.CAN_BUS_OFF : EvtCode := ⟨0x0A01, 4⟩
abbrev Evt.STACK_STRAP_INVALID : EvtCode := ⟨0x0B01, 5⟩
abbrev Evt.STACK_CONFLICT : EvtCode := ⟨0x0B02, 5⟩
abbrev Evt.STACK_AUTH_FAIL : EvtCode := ⟨0x0B03, 6⟩
abbrev Evt.STACK_MEMBER_LOST : EvtCode := ⟨0x0B04, 5⟩
abbrev Evt.PWR_ORDER_ERR : EvtCode := ⟨0x0C01, 4⟩
abbrev Evt.WAKE_TIMEOUT : EvtCode := ⟨0x0C02, 5⟩
abbrev Evt.WAKE_FAIL : EvtCode := ⟨0x0C03, 7⟩
abbrev Evt.AMP_RAIL_FAULT : EvtCode := ⟨0x0C04, 5⟩
abbrev Evt.SLEEP_AGREED : EvtCode := ⟨0x0C10, 2⟩
abbrev Evt.SLEEP_WITHDRAWN : EvtCode := ⟨0x0C11, 3⟩
abbrev Evt.SLEEP_NO_CTRL : EvtCode := ⟨0x0C12, 4⟩
abbrev Evt.SLEEP_HELD : EvtCode := ⟨0x0C13, 3⟩
abbrev Evt.SLEEP_UNANNOUNCED : EvtCode := ⟨0x0C14, 4⟩
abbrev Evt.WAKE_REQUEST : EvtCode := ⟨0x0C15, 3⟩
abbrev Evt.WAKE_IN_STUCK : EvtCode := ⟨0x0C16, 5⟩
abbrev Evt.FALSE_WAKE : EvtCode := ⟨0x0C17, 4⟩
abbrev Evt.LONE_SLEEP : EvtCode := ⟨0x0C18, 3⟩
abbrev Evt.TAMPER : EvtCode := ⟨0x0D01, 7⟩
abbrev Evt.TAMPER_CLEARED : EvtCode := ⟨0x0D02, 5⟩
abbrev Evt.TAMPER_HOLD : EvtCode := ⟨0x0D03, 6⟩
abbrev Evt.KEY_REPLACED : EvtCode := ⟨0x0D04, 3⟩
abbrev Evt.KEY_REPLACE_ABORTED : EvtCode := ⟨0x0D05, 5⟩
abbrev Evt.KEY_UNBOUND : EvtCode := ⟨0x0D06, 5⟩
abbrev Evt.KEY_LOAD_REFUSED : EvtCode := ⟨0x0D07, 5⟩
abbrev Evt.AUTH_BLOCK_FAILED : EvtCode := ⟨0x0D08, 4⟩
abbrev Evt.AUTH_LOCKOUT : EvtCode := ⟨0x0D09, 5⟩
abbrev Evt.EVR_CLEARED : EvtCode := ⟨0x0E01, 6⟩
abbrev Evt.SECTOR_RETIRED : EvtCode := ⟨0x0E02, 5⟩
abbrev Evt.RECORDER_MEDIA_FAULT : EvtCode := ⟨0x0E03, 7⟩
abbrev Evt.PENDING_OVERFLOW : EvtCode := ⟨0x0E04, 4⟩
abbrev Evt.EVR_SUPPRESSED : EvtCode := ⟨0x0E05, 3⟩
abbrev Evt.RECORDER_RESUMED : EvtCode := ⟨0x0E06, 4⟩

end Sys2Proof.Machine
end

