-- ==== Sys2Proof/Machine/Sparse.lean ====
section
/-! DEFINITION. Sparse tables in one canonical form: a list of (key, value) pairs with strictly rising keys, in which no
entry equals the value that an unlisted key reads as. The register file and the store are held so. -/

namespace Sys2Proof.Machine

/-- Does the list have strictly rising keys, all above `lo` where one is given? -/
def Sparse.risingFrom {α : Type} (lo : Option Nat) : List (Nat × α) → Bool
  | [] => true
  | (k, _) :: t => (match lo with | none => true | some b => decide (b < k)) && Sparse.risingFrom (some k) t

/-- The canonical form: keys strictly rising and no entry at its default. -/
def Sparse.wf {α : Type} [DecidableEq α] (dflt : Nat → α) (l : List (Nat × α)) : Bool :=
  Sparse.risingFrom none l && l.all (fun e => decide (e.2 ≠ dflt e.1))

/-- What key `a` reads as: its entry, or the default where it is unlisted. -/
def Sparse.get {α : Type} (dflt : Nat → α) : List (Nat × α) → Nat → α
  | [], a => dflt a
  | (k, v) :: t, a => if k = a then v else Sparse.get dflt t a

/-- Drop every entry of key `a`. -/
def Sparse.erase {α : Type} : List (Nat × α) → Nat → List (Nat × α)
  | [], _ => []
  | (k, v) :: t, a => if k = a then Sparse.erase t a else (k, v) :: Sparse.erase t a

/-- Put an entry in front of the first larger key. -/
def Sparse.insert {α : Type} : List (Nat × α) → Nat → α → List (Nat × α)
  | [], a, x => [(a, x)]
  | (k, v) :: t, a, x => if a < k then (a, x) :: (k, v) :: t else (k, v) :: Sparse.insert t a x

/-- Make key `a` read as `x`: writing the default removes the entry. -/
def Sparse.put {α : Type} [DecidableEq α] (dflt : Nat → α) (l : List (Nat × α)) (a : Nat) (x : α) : List (Nat × α) :=
  if x = dflt a then Sparse.erase l a else Sparse.insert (Sparse.erase l a) a x

end Sys2Proof.Machine
end

