-- ==== Sys2Proof/Machine/Bits.lean ====
section
/-! DEFINITION. Bytes, little-endian fields and the check codes (CRC-32C of R89). -/

namespace Sys2Proof

open Sys2Proof.Machine

/-- Byte `a` of sparse bytes. -/
def Bytes.at (b : Bytes) (a : Nat) : Nat := (Sparse.get (fun _ => (0 : Byte)) b a).toNat

/-- Write byte `a`. -/
def Bytes.setAt (b : Bytes) (a x : Nat) : Bytes := Sparse.put (fun _ => (0 : Byte)) b a (BitVec.ofNat 8 x)

/-- The little-endian number in the `n` bytes from `a`. -/
def Bytes.le (b : Bytes) (a : Nat) : Nat → Nat
  | 0 => 0
  | n + 1 => b.at a + 256 * Bytes.le b (a + 1) n

/-- Write `x` into the `n` bytes from `a`, little-endian. -/
def Bytes.setLe (b : Bytes) (a : Nat) : Nat → Nat → Bytes
  | 0, _ => b
  | n + 1, x => Bytes.setLe (b.setAt a (x % 256)) (a + 1) n (x / 256)

/-- The bytes of `[a, a + n)`, as a list. -/
def Bytes.slice (b : Bytes) (a : Nat) : Nat → List Nat
  | 0 => []
  | n + 1 => b.at a :: Bytes.slice b (a + 1) n

/-- Write a list of bytes from `a`. -/
def Bytes.setSlice (b : Bytes) (a : Nat) : List Nat → Bytes
  | [] => b
  | x :: t => Bytes.setSlice (b.setAt a x) (a + 1) t

/-- The listed bytes of `[a, a + n)`, moved to begin at `c`. -/
def Bytes.window (b : Bytes) (a n c : Nat) : Bytes :=
  (b.filter (fun e => decide (a ≤ e.1) && decide (e.1 < a + n))).map (fun e => (e.1 - a + c, e.2))

/-- Clear `[a, a + n)`. -/
def Bytes.clear (b : Bytes) (a n : Nat) : Bytes :=
  b.filter (fun e => !(decide (a ≤ e.1) && decide (e.1 < a + n)))

/-- Put every listed byte of `w` into `b`. -/
def Bytes.overlay (b w : Bytes) : Bytes := w.foldl (fun acc e => acc.setAt e.1 e.2.toNat) b

/-- Copy the bytes at the given offsets of `src` into `dst`. -/
def Bytes.copyAt (dst src : Bytes) (offs : List Nat) : Bytes :=
  offs.foldl (fun acc a => acc.setAt a (src.at a)) dst

/-- Do the two agree at every given offset? -/
def Bytes.agreeAt (x y : Bytes) (offs : List Nat) : Bool := offs.all (fun a => x.at a == y.at a)

/-- `n` little-endian bytes of `x`. -/
def leBytes : Nat → Nat → List Nat
  | 0, _ => []
  | n + 1, x => x % 256 :: leBytes n (x / 256)

/-- The number that little-endian bytes spell. -/
def leValue : List Nat → Nat
  | [] => 0
  | x :: t => x + 256 * leValue t

/-- One bit step of CRC-32C in reflected form (polynomial 0x1EDC_6F41 reflected is 0x82F6_3B78). -/
def crcBit (c : Nat) : Nat := if c % 2 = 1 then Nat.xor (c / 2) 0x82F63B78 else c / 2

/-- Eight bit steps over one byte. -/
def crcByte (c x : Nat) : Nat :=
  crcBit (crcBit (crcBit (crcBit (crcBit (crcBit (crcBit (crcBit (Nat.xor c x))))))))

/-- CRC-32C (R89): reflected, initial value and final XOR all ones. -/
def crc32c (bs : List Nat) : Nat := Nat.xor (bs.foldl crcByte 0xFFFFFFFF) 0xFFFFFFFF

/-- A counter of `w` bits that saturates at all ones (R13). -/
def satAdd (w x d : Nat) : Nat := min (x + d) (2 ^ w - 1)

/-- Is tick sequence number `a` later than `b` (R23, R593)? -/
def seqLater (a b : Nat) : Bool :=
  let d := (a + 2 ^ 32 - b) % 2 ^ 32
  decide (1 ≤ d) && decide (d ≤ 2 ^ 31 - 1)

/-- The signed value of a `w`-bit two's-complement number. -/
def toSigned (w x : Nat) : Int := if x < 2 ^ (w - 1) then (x : Int) else (x : Int) - (2 ^ w : Nat)

/-- The `w`-bit two's-complement pattern of an integer. -/
def ofSigned (w : Nat) (x : Int) : Nat := (x % ((2 ^ w : Nat) : Int)).toNat

/-- The integer limited to `w` bits, two's complement (saturating). -/
def satSigned (w : Nat) (x : Int) : Int :=
  max (-((2 ^ (w - 1) : Nat) : Int)) (min x (((2 ^ (w - 1) : Nat) : Int) - 1))

/-- Bit `i` of a number. -/
def bit (x i : Nat) : Bool := x / 2 ^ i % 2 == 1

/-- The number with bit `i` set. -/
def setBit (x i : Nat) : Nat := if bit x i then x else x + 2 ^ i

/-- The number with bit `i` clear. -/
def clrBit (x i : Nat) : Nat := if bit x i then x - 2 ^ i else x

/-- The number of bits set among the lowest `n`. -/
def popcount (n x : Nat) : Nat := ((List.range n).filter (fun i => bit x i)).length

/-- One as a number, for a flag. -/
def b2n (b : Bool) : Nat := if b then 1 else 0

/-! ## The header fields of a frame (R79, R81) -/

def Bytes.ftype (b : Bytes) : Nat := b.at 0
def Bytes.hTopo (b : Bytes) : Nat := b.le 2 2
def Bytes.hTseq (b : Bytes) : Nat := b.le 4 4
def Bytes.hLayout (b : Bytes) : Nat := b.le 8 2
def Bytes.hEpoch (b : Bytes) : Nat := b.le 10 2
def Bytes.hRank (b : Bytes) : Nat := b.at 12 % 16
def Bytes.hHopcnt (b : Bytes) : Nat := b.at 13
def Bytes.hFlags (b : Bytes) : Nat := b.le 14 2
def Bytes.hMaster (b : Bytes) : DWord := BitVec.ofNat 64 (b.le 16 8)
def Bytes.hLaunch (b : Bytes) : Nat := b.le 24 8
def Bytes.hEventTseq (b : Bytes) : Nat := b.le 32 4
def Bytes.hEventArg (b : Bytes) : Nat := b.le 36 2
def Bytes.hArm2 (b : Bytes) : Nat := b.le 38 4

/-- HDR_CHK is right over the header as it stands (R81). -/
def Bytes.hdrOk (b : Bytes) : Bool := b.le 6208 4 == crc32c (b.slice 0 64)

end Sys2Proof
end

