-- ==== Sys2Proof/Machine/State.lean ====
section
/-! DEFINITION. The state of the node: plain data. The register words of the BAR0 blocks are one sparse table of offsets
(every register of the spec's tables, at its reset value where unlisted); what the spec gives the machine behind the
registers stands in the structures below, chapter by chapter. -/

namespace Sys2Proof.Machine

/-- Why a step can stop with a fault. No command of this block stops so: the type is closed and holds the one reason the
spec gives a whole node, that its always-on supply is absent (R640, R655), which the meanings do not use: a command to
an unpowered node has no effect instead. Safe. -/
inductive Fault where
  | unpowered
  deriving DecidableEq, Repr

/-- Why a command is refused. -/
inductive Refusal where
  /-- No meaning yet: raised only by the dispatch's arm of that mnemonic. Safe. -/
  | notModelled (mnemonic : String)
  /-- A register write has a 1 in a reserved bit: its effect is undefined (R10). Raised by REGISTER_WRITE and the SPI writes.
  Safe. -/
  | reservedBits
  deriving DecidableEq, Repr

/-! ## Outputs -/

/-- How a host request completes: with data, as an Unsupported Request, or with Completer Abort. -/
inductive Cpl where
  | ok | ur | ca
  deriving DecidableEq, Repr

/-- What leaves the node: messages, frames and completions, in order. -/
inductive Output where
  | msix (vector : Nat)
  | inta (assert : Bool)
  | frame (l : Line) (fore : Bool) (bytes : Bytes)
  | cell (l : Line) (bytes : Bytes)
  | completion (tag : Nat) (st : Cpl) (bytes : List Nat)
  | hostRead (value : Nat)
  | spi (bytes : List Nat)
  | i2c (bytes : List Nat)
  | i2cNack
  | busRead (addr : Nat)
  | busWrite (addr : Nat) (bytes : List Nat)
  | can (id : Nat) (ext : Bool) (data : List Nat)
  | eth (port : Nat) (queue : Nat) (bytes : List Nat)
  | mdio (port phy reg : Nat) (write : Option Nat)
  | message (kind : Nat) (dstPos dstSub : Nat) (bytes : List Nat)
  | handshake (link : Nat) (bytes : Bytes)
  | twinRecord (tick : Nat) (bytes : Bytes)
  | stack (link : Nat) (bytes : List Nat)
  | tdm (port slot : Nat) (sample : Nat)
  | prbsInvert (lane : Nat)
  /-- a stack member is asked to reset (R414) -/
  | memberReset (sub : Nat)

  deriving DecidableEq, Repr

/-! ## Decik and the DSP cluster (chapter 01) -/

/-- What Decik and the tick overrun rules keep (R16, R17, R43). `upTicks` counts tick boundaries since power-on reset
and never wraps: spans such as the 10 s of R17 are measured with it. -/
structure DecikSt where
  upTicks : Nat
  lastStop : Option Nat
  /-- per core: overruns since the last overrun record, and the second (upTicks / 48,000) of that record (R43) -/
  ovrSince : List Nat
  ovrRecAt : List (Option Nat)
  deriving DecidableEq, Repr

/-- A DSP job of the image in force (R35 to R42). -/
structure Job where
  core : Nat
  cost : Nat
  block : Nat
  retained : Bool
  sinks : List Nat
  /-- the job has completed a slice since it was started (R42) -/
  ran : Bool
  /-- its current outputs are a repeat (R39, R41) -/
  stale : Bool
  /-- the block in progress was abandoned (R41) -/
  abandoned : Bool
  /-- the block that its outputs now come from was abandoned (R41) -/
  blockStale : Bool
  /-- what added it: 0 the image, else the command's opcode and the object's index -/
  owner : Nat
  /-- stopped in QUIET: its outputs fade as a repeat does (R37) -/
  stopped : Bool
  deriving DecidableEq, Repr

/-! ## Links (chapter 02) -/

/-- What a link keeps behind its registers (R57 to R69). -/
structure LinkSt where
  /-- the own qualified flag: the timer is held at QUAL_MS (R57, R59) -/
  ownQual : Bool
  /-- the partner's last reported state and UID bits (R57, R60) -/
  partnerState : Nat
  partnerUid : Option Nat
  /-- a loopback closure waits for the next idle gap (R65) -/
  closePend : Bool
  /-- swing and de-emphasis applied at the balls (R56) -/
  swing : Nat
  deemph : Nat
  deriving DecidableEq, Repr

/-! ## The cycle frame (chapter 03) -/

/-- One entry of a layout's node table (R130). -/
structure LayoutPos where
  uid : DWord
  twinUid : DWord
  hopIdx : Nat
  orient : Bool
  /-- 0 pass-through, 1 writer, 2 master -/
  role : Nat
  twin : Bool
  members : Nat
  noSlot : Bool
  /-- sync entry that it writes (R163) -/
  sync : Option Nat
  /-- delay of the hop to the next position in ps -/
  hopPs : Nat
  rank : Nat
  deriving DecidableEq, Repr

/-- One owned row of the wafer or process-unit table (R130): index, owner's position, stream identifier. -/
structure OwnRow where
  index : Nat
  pos : Nat
  stream : Nat
  deriving DecidableEq, Repr

/-- A layout: what every node of a train applies at a switch tick (R130, R133). -/
structure Layout where
  topo : Nat
  version : Nat
  epoch : Nat
  masterUid : DWord
  policy : Nat
  flags : Nat
  positions : List LayoutPos
  wafers : List OwnRow
  units : List OwnRow
  deriving DecidableEq, Repr

/-- One pass of one frame as the node received it on a line (R77, R82, R95). -/
structure RxCopy where
  tseq : Nat
  line : Line
  outPass : Bool
  accepted : Bool
  /-- node time in ns at which its first data block arrived (R166) -/
  arrival : Nat
  bytes : Bytes
  deriving DecidableEq, Repr

/-- A cell queued for one line (R105). -/
structure StagedCell where
  bytes : Bytes
  age : Nat
  deriving DecidableEq, Repr

/-- A message under reassembly (R107). -/
structure Partial where
  srcPos : Nat
  srcSub : Nat
  msgId : Nat
  kind : Nat
  frags : List (Nat × List Nat)
  lastFrag : Option Nat
  idle : Nat
  deriving DecidableEq, Repr

/-- The ring engine behind its registers. -/
structure RingSt where
  layout : Option Layout
  /-- UID and epoch of the master the node follows (R82, R205) -/
  followUid : DWord
  followEpoch : Nat
  /-- own bytes staged for the next frame, and whether staging is complete (R93) -/
  staging : Bytes
  stagingDone : Bool
  /-- the decision of R93 for the frame named: fresh or repeat, and the bytes -/
  decision : Option (Nat × Bool × Bytes)
  /-- a frame already counted as not written (R91) -/
  lateCounted : Option Nat
  /-- the region last written under the layout in force (R94) -/
  lastWritten : Option Bytes
  alive : Nat
  topoChg : Bool
  rx : List RxCopy
  /-- last good bytes of every owned region (R97) and of every process unit received VALID (R88) -/
  lastGood : Bytes
  lastPdata : Bytes
  /-- the merged image of the last merged frame -/
  merged : Bytes
  mergedTseq : Nat
  /-- consecutive ticks lost, and consecutive ticks without failure, per line (R98) -/
  failRunA : Nat
  failRunB : Nat
  okRunA : Nat
  okRunB : Nat
  /-- frames seen in the current tick, per line (R110 MISSING) -/
  seenA : Bool
  seenB : Bool
  /-- frames accepted in the current tick, per line -/
  gotA : Bool
  gotB : Bool
  /-- provisionally accepted relayed regions awaiting their check: position, line (R101) -/
  provisional : List (Nat × Line)
  /-- relay bytes for the next launched frame (R99) -/
  relay : Bytes
  cellsA : List StagedCell
  cellsB : List StagedCell
  cseq : Nat
  msgId : Nat
  /-- end of the reserved block of nonce values (R108) -/
  nonceEnd : Nat
  /-- CSEQ values accepted, per sender, with age in ticks (R107) -/
  seen : List (Nat × Nat × Nat × Nat)
  partials : List Partial
  lastServed : Nat
  /-- positions that a fast shrink has removed since the layout took effect (R145) -/
  departed : Nat
  /-- END_POS of the master's returned frames: line, tick, position (R145) -/
  ends : List (Line × Nat × Nat)
  /-- the UI count at which the master launched its last frame (R122), and the launch times sent: tick, ns (R143) -/
  launchUi : Nat
  deriving DecidableEq, Repr

/-! ## Interrupts and MSI-X (chapter 23) -/

/-- The MSI-X state in PCIe configuration space and the table (R630): entries not listed are all zero and masked. -/
structure MsixSt where
  enable : Bool
  functionMask : Bool
  addrLo : List (Nat × Nat)
  addrHi : List (Nat × Nat)
  data : List (Nat × Nat)
  unmasked : Nat
  pba : Nat
  deriving DecidableEq, Repr

/-! ## The event recorder (chapter 20) -/

/-- An event record (R588); CHK is computed from the other fields, and `good` says that the stored copy checks. -/
structure Record where
  seq : Nat
  optime : Nat
  pwrcyc : Nat
  tick : Nat
  code : Nat
  source : Nat
  sevflags : Nat
  data : List Nat
  good : Bool
  deriving DecidableEq, Repr

/-- The recorder: the durable area, the header, the mirror, the always-on pending buffer and the posted queue. -/
structure EvrSt where
  /-- records posted and not yet written (R591) -/
  posted : List Record
  /-- the durable area: slot index, record; slot s × 128 + i is record i of sector s -/
  area : List (Nat × Record)
  /-- slot that the next record takes, and the next SEQ -/
  nextSlot : Nat
  nextSeq : Nat
  firstSeq : Nat
  retired : Nat
  /-- records written while DEGRADED (R596) -/
  mirror : List Record
  pending : List Record
  /-- per code: records written in this second and suppressed in it (R594) -/
  storm : List (Nat × Nat × Nat)
  /-- saved operating seconds and power-cycle count in durable memory (R590) -/
  savedOptime : Nat
  savedPwrcyc : Nat
  /-- OPTIME is known (R597), and DEGRADED (R596) -/
  optimeKnown : Bool
  degraded : Bool
  deriving DecidableEq, Repr


/-- The ring engine at reset. -/
def RingSt.reset : RingSt where
  layout := none
  followUid := 0
  followEpoch := 0
  staging := []
  stagingDone := false
  decision := none
  lateCounted := none
  lastWritten := none
  alive := 0
  topoChg := false
  rx := []
  lastGood := []
  lastPdata := []
  merged := []
  mergedTseq := 0
  failRunA := 0
  failRunB := 0
  okRunA := 0
  okRunB := 0
  seenA := false
  seenB := false
  gotA := false
  gotB := false
  provisional := []
  relay := []
  cellsA := []
  cellsB := []
  cseq := 0
  msgId := 0
  nonceEnd := 0
  seen := []
  partials := []
  lastServed := 0
  departed := 0
  ends := []
  launchUi := 0

/-- The recorder at reset: no record, nothing pending. -/
def EvrSt.reset : EvrSt where
  posted := []
  area := []
  nextSlot := 0
  nextSeq := 0
  firstSeq := 0
  retired := 0
  mirror := []
  pending := []
  storm := []
  savedOptime := 0
  savedPwrcyc := 0
  optimeKnown := false
  degraded := false


/-! ## Inauguration (chapter 04) -/

/-- A member slot that the master has read in a claim pass (R125). -/
structure SlotRec where
  hop : Nat
  uid : DWord
  mflags : Nat
  rank : Nat
  ptOut : Nat
  ptBack : Nat
  loopUi : Nat
  claimId : Nat
  tagOk : Bool
  /-- the tag verified under the previous generation (R574) -/
  tagOld : Bool
  /-- the other twin's UID, from line B's slot of the same hop index (R125); zero if none -/
  twinUid : DWord
  deriving DecidableEq, Repr

/-- The outcome of R127 for a hop index. -/
inductive Admission where
  | admitted | tagWrong | noCtrl | noSlot | duplicate | claimMissing
  deriving DecidableEq, Repr

/-- What the partner of a QUALIFIED link reports in its HANDSHAKE frames (R113, R114, R148), and when the last intact one
came: its LAUNCH_TIME and TSEQ, and the node time of its arrival. -/
structure PartnerRec where
  hsState : Nat
  uid : DWord
  master : DWord
  epoch : Nat
  topo : Nat
  rank : Nat
  count : Nat
  tagOk : Bool
  launch : Nat
  tseq : Nat
  arrival : Nat
  deriving DecidableEq, Repr

/-- A pending fast shrink (R145): shrink tick, new TOPO, departed positions. -/
structure ShrinkRec where
  tick : Nat
  topo : Nat
  departed : Nat
  deriving DecidableEq, Repr

/-- The phases of a merge (R152). -/
inductive MergePhase where
  | idle | a | b | c | d | e | f
  deriving DecidableEq, Repr

/-- One row of the losing island's ISL_TABLE (R148): UID, position, flags, rank, hop delay in ps, claim identifier. -/
structure IslandRow where
  uid : DWord
  pos : Nat
  flags : Nat
  rank : Nat
  hopPs : Nat
  claimId : Nat
  deriving DecidableEq, Repr

/-- A merge in progress (R148 to R154). -/
structure MergeSt where
  phase : MergePhase
  link : Nat
  /-- this node's island won (R149) -/
  winner : Bool
  /-- HELLO exchanges averaged, and their sums in ns (R150) -/
  samples : Nat
  thetaSum : Int
  delaySum : Int
  /-- HS_STEP of the next HANDSHAKE, and what it carries (R148) -/
  hsStep : Nat
  mergeTick : Nat
  stepNs : Int
  switchTick : Nat
  xferOut : Nat
  xferIn : List (Nat × List Nat)
  partnerTable : List IslandRow
  partnerEpoch : Nat
  partnerTopo : Nat
  /-- the second attempt of R153 waits; attempts since the link qualified -/
  retryWait : Bool
  attempts : Nat
  /-- ring-sourced outputs are muted (R151), and the ticks left of the rise that follows (R253) -/
  muted : Bool
  rise : Nat
  deriving DecidableEq, Repr

/-- No merge in progress. -/
def MergeSt.idle : MergeSt where
  phase := .idle
  link := 0
  winner := false
  samples := 0
  thetaSum := 0
  delaySum := 0
  hsStep := 0
  mergeTick := 0
  stepNs := 0
  switchTick := 0
  xferOut := 0
  xferIn := []
  partnerTable := []
  partnerEpoch := 0
  partnerTopo := 0
  retryWait := false
  attempts := 0
  muted := false
  rise := 0

/-- Inauguration at the master (R156) and at a node (R157). The phase and the numbers the registers show are in RING. -/
structure InaugSt where
  settle : Nat
  phaseTicks : Nat
  countSet : Nat
  inaugTseq : Nat
  iround : Nat
  prevA : Nat
  prevB : Nat
  agreedA : Nat
  agreedB : Nat
  arm1End : Nat
  armLoop1 : Nat
  armDepart2 : Nat
  armLoop2 : Nat
  slots : List SlotRec
  admissions : List (Nat × Admission)
  claimCache : List Nat
  image : Option Layout
  frags : List (Nat × Nat)
  acked : List Nat
  excluded : Nat
  abandons : Nat
  backoff : Bool
  trigger : Bool
  readmit : List (Nat × Nat)
  lossWait : Bool
  reports : List (Nat × Nat)
  shrink : Option ShrinkRec
  /-- at a node: joined by an adopted header; counted; announcement seen -/
  adopted : Bool
  counted : Bool
  announced : Bool
  excludedSelf : Bool
  noFrame : Nat
  mismatch : Nat
  formingWait : Bool
  launching : Bool
  ringHold : Bool
  sent : List (Nat × Nat)
  partners : List (Nat × PartnerRec)
  merge : MergeSt
  /-- tick at which the link qualified that led to this inauguration (RING.INAUG_TIME.LIVE_TICKS) -/
  qualAt : Nat
  /-- per line: the UI count at which the first COUNT frame passed on the out lane (R122) -/
  outUiA : Nat
  outUiB : Nat
  /-- CLAIM frames of the pair still to launch (R125), and COUNT frames to verify a merge (R152) -/
  claimPair : Nat
  verify : Nat
  /-- a joining node has set its time (R124) -/
  joined : Bool
  /-- claim identifiers of the UIDs that wrote slots -/
  claimIds : List (Nat × Nat)
  /-- the CAB_ACTIVE input changed during an inauguration: the report goes out after the switch (R544) -/
  cabPend : Bool
  deriving DecidableEq, Repr

/-- What durable memory holds of the ring (R138, R108): layout, TOPO and epoch, the two-copy record's sequence number,
and the end of the nonce block reserved. -/
structure DurableRing where
  layout : Option Layout
  topo : Nat
  epoch : Nat
  seq : Nat
  saveDue : Bool
  deriving DecidableEq, Repr

/-- Inauguration at reset. -/
def InaugSt.reset : InaugSt where
  settle := 0
  phaseTicks := 0
  countSet := 0
  inaugTseq := 0
  iround := 0
  prevA := 0
  prevB := 0
  agreedA := 0
  agreedB := 0
  arm1End := 0
  armLoop1 := 0
  armDepart2 := 0
  armLoop2 := 0
  slots := []
  admissions := []
  claimCache := []
  image := none
  frags := []
  acked := []
  excluded := 0
  abandons := 0
  backoff := false
  trigger := false
  readmit := []
  lossWait := false
  reports := []
  shrink := none
  adopted := false
  counted := false
  announced := false
  excludedSelf := false
  noFrame := 0
  mismatch := 0
  formingWait := false
  launching := false
  ringHold := false
  sent := []
  partners := []
  merge := .idle
  qualAt := 0
  outUiA := 0
  outUiB := 0
  claimPair := 0
  verify := 0
  joined := false
  claimIds := []
  cabPend := false

/-! ## Train time (chapter 05) -/

/-- One sync entry's running sums of the averaging round (R166, R167). -/
structure EntryAcc where
  sum : Int
  samples : Nat
  deriving DecidableEq, Repr

/-- The settings of SYNC.CFG, SYNC.HOLD and SYNC.PTP_CFG in force: a write takes effect from the next round (R185). -/
structure SyncCfg where
  lockNs : Nat
  outlierNs : Nat
  rgShift : Nat
  holdRounds : Nat
  ptpExternal : Bool
  deriving DecidableEq, Repr

/-- Node time and the round in progress. Node time is kept in thirds of a nanosecond (R162); deviations in picoseconds. -/
structure ClockSt where
  /-- tick number n of the current tick -/
  n : Nat
  /-- node time at the last boundary or step, in thirds of a ns -/
  thirds : Nat
  /-- the node has taken a ring's time (R119, R140) -/
  ringTime : Bool
  entries : List EntryAcc
  /-- the deviations of the frame read in this tick (R174) -/
  tickDev : List (Nat × Int)
  noEntryRounds : Nat
  /-- the node's own entry counts in this round (R167) -/
  ownAtStart : Bool
  /-- the round in progress is discarded (table "events during an averaging round") -/
  roundVoid : Bool
  /-- a step waits for the next tick boundary, in ps (R173) -/
  stepDue : Option Int
  /-- a step happened in this tick (R174) -/
  stepped : Bool
  /-- own out-pass delay D of R124, in ps -/
  joinD : Nat
  /-- out-pass forwarding latency, in UI, of each position, from the claim slots (R165) -/
  ptOut : List (Nat × Nat)
  cfg : SyncCfg
  /-- the second half that the last read captured: register offset, value (R46, R185); any other access drops it -/
  cap : Option (Nat × Nat)
  /-- the offset of R182 in force -/
  ptpOfs : Int
  /-- PTP time minus node time in ns, and the rate of PTP time against node time in ppb (R182) -/
  ptpDiff : Int
  ptpRatio : Int
  deriving DecidableEq, Repr

/-! ## Keys (chapter 19), the part that the ring uses -/

/-- One engine's loaded keys: slot, current and previous key and their versions (R567, R570). -/
structure EngineSt where
  cur : Option Nat
  prev : Option Nat
  deriving DecidableEq, Repr


/-! ## Pins and claim facts -/

/-- Levels of input balls that the node keeps (R544, R553, R580). -/
structure PinsSt where
  cabActive : Bool
  wakeIn : Bool
  deriving DecidableEq, Repr

/-- The node's facts for its member slot, from the configuration image (R125, R163). -/
structure ClaimFacts where
  claimId : Nat
  syncCap : Bool
  deriving DecidableEq, Repr


/-! ## Redundancy (chapter 06) -/

/-- Redundancy behind the RED registers. -/
structure RedSt where
  /-- consecutive ticks in which a line's reach lacks a position of the other's, and in which both are equal (R187) -/
  shortRunA : Nat
  shortRunB : Nat
  equalRun : Nat
  /-- masters whose frames were seen, with ticks since (R205), and whether an episode of two is in progress -/
  seenMasters : List (DWord × Nat)
  dual : Bool
  dualTicks : Nat
  /-- reach map of the followed master's last CAN heartbeat (R197) -/
  canReach : Nat
  /-- classified as failed or cut off, and not yet cleared (R198) -/
  failed : Bool
  /-- sync entry 0 stays unused until the next switch tick (R200) -/
  noEntryZero : Bool
  /-- a handover in progress: the target's UID (R207) -/
  handover : Option DWord
  /-- twins: may the follower write line B; mismatches in a row; ticks without a valid record (R193, R194) -/
  twinWrites : Bool
  divergeRun : Nat
  missRun : Nat
  recSeq : Nat
  /-- own region checks of recent frames (R191) -/
  checks : List (Nat × Nat)
  /-- records that take effect at the boundary of their tick + 2 -/
  records : List TwinRecord
  deriving DecidableEq, Repr

/-- Redundancy at reset. -/
def RedSt.reset : RedSt where
  shortRunA := 0
  shortRunB := 0
  equalRun := 0
  seenMasters := []
  dual := false
  dualTicks := 0
  canReach := 0
  failed := false
  noEntryZero := false
  handover := none
  twinWrites := true
  divergeRun := 0
  missRun := 0
  recSeq := 0
  checks := []
  records := []


/-! ## Audio (chapter 07) -/

/-- One sample of a source with its flags (R212), and the factor num/den with which it contributes (R250). -/
structure Sample where
  value : Int
  valid : Bool
  stale : Bool
  prio : Nat
  num : Nat
  den : Nat
  /-- within the first 240 ticks of a stale run, or fresh: it counts as active where valid (R249) -/
  live : Bool
  deriving DecidableEq, Repr

/-- A matrix source: its samples by capture tick, newest first, and its stale run (R249, R250). -/
structure SourceSt where
  ix : Nat
  hist : List (Nat × Sample)
  run : Nat
  /-- length of the run that ended, and ticks of the recovery left -/
  ended : Nat
  recover : Nat
  deriving DecidableEq, Repr

/-- A crosspoint (R232, R233). Gains in 1/1,048,576 of 0.1 dB; none is off. -/
structure Xpoint where
  src : Nat
  sink : Nat
  target : Option Int
  applied : Option Int
  step : Int
  left : Nat
  deriving DecidableEq, Repr

/-- A zone candidate (R241, R243): duck gain in 1/1,048,576 dB (0 or below), ticks of hold left, ticks of forced mute done. -/
structure CandSt where
  tag : Bool
  prio : Nat
  duck : Int
  hold : Nat
  mute : Nat
  below : Bool
  deriving DecidableEq, Repr

/-- A candidate that nothing has set: FIXED at PRIO 0 (notes/assumptions/55.md). -/
def CandSt.reset : CandSt := ⟨false, 0, 0, 0, 0, false⟩

/-- A biquad section (R245): coefficients b0 b1 b2 a1 a2 in Q2.30, and x1 x2 y1 y2. -/
structure Biquad where
  b0 : Int
  b1 : Int
  b2 : Int
  a1 : Int
  a2 : Int
  x1 : Int
  x2 : Int
  y1 : Int
  y2 : Int
  deriving DecidableEq, Repr

/-- A zone (R241 to R248). Volume in 0.1 dB. Duck depth none is mute; times in ms; threshold in 0.1 dBFS, limiter attack in 0.1 ms. -/
structure ZoneSt where
  enabled : Bool
  mix : Bool
  depth : Option Nat
  attack : Nat
  hold : Nat
  release : Nat
  cands : List CandSt
  volume : Int
  biquads : List Biquad
  delay : Nat
  oldDelay : Nat
  fade : Nat
  line : List Int
  limThr : Int
  limAtt : Nat
  limRel : Nat
  gr : Nat
  map : List Nat
  nf : Int
  deriving DecidableEq, Repr

/-- When an owned stream's gate is open (R240). -/
inductive Gate where
  | always
  | command (isOpen : Bool)
  | input (n : Nat)
  deriving DecidableEq, Repr

/-- An owned stream (R239, R240): its identifier, PRIO (none is FOLLOW), gate, hold time in ms and ticks of it left. -/
structure StreamSt where
  ix : Nat
  id : Nat
  prio : Option Nat
  gate : Gate
  holdMs : Nat
  holdLeft : Nat
  deriving DecidableEq, Repr

/-- Test generator settings (R231): kind 0 silence, 1 sine, 2 white, 3 pink; level in 0.1 dBFS. -/
structure GenSt where
  kind : Nat
  freq : Nat
  level : Int
  start : Nat
  deriving DecidableEq, Repr

/-- A TDM port behind its registers (R219, R220): boundaries until it starts, frames of FSYNC mismatch and without. -/
structure TdmSt where
  startIn : Option Nat
  stopping : Bool
  bad : Nat
  good : Nat
  deriving DecidableEq, Repr

/-- A microphone (R225): consecutive ticks with constant bits, and with both values. -/
structure MicSt where
  const : Nat
  mixed : Nat
  deriving DecidableEq, Repr

/-- The audio engine. -/
structure AudSt where
  sources : List SourceSt
  /-- the last output of each sink: sink index, value, valid -/
  outs : List (Nat × Sample)
  xps : List Xpoint
  zones : List ZoneSt
  streams : List StreamSt
  gens : List GenSt
  tdm : List TdmSt
  mics : List MicSt
  /-- trims in 0.1 dB: source index, gain (R221, R224) -/
  trims : List (Nat × Int)
  /-- the ring stream table: ring input, stream identifier (R212) -/
  ringTable : List (Nat × Nat)
  /-- a playback read is outstanding in this tick; ticks that an underrun or loss has lasted (R227, R254) -/
  hdmaRead : Bool
  hdmaMiss : Nat
  /-- the last 48 values at a meter: meter index, newest first (R258) -/
  meters : List (Nat × List Int)
  deriving DecidableEq, Repr

/-- A flat biquad section. -/
def Biquad.flat : Biquad := ⟨2 ^ 30, 0, 0, 0, 0, 0, 0, 0, 0⟩

/-- A zone with the defaults of R243. -/
def ZoneSt.reset : ZoneSt where
  enabled := false
  mix := true
  depth := some 20
  attack := 10
  hold := 500
  release := 300
  cands := List.replicate 16 CandSt.reset
  volume := 0
  biquads := List.replicate 10 Biquad.flat
  delay := 0
  oldDelay := 0
  fade := 0
  line := []
  limThr := 0
  limAtt := 1
  limRel := 10
  gr := 0
  map := []
  nf := 0

/-- The audio engine at reset. -/
def AudSt.reset : AudSt where
  sources := []
  outs := []
  xps := []
  zones := List.replicate 16 ZoneSt.reset
  streams := []
  gens := List.replicate 8 ⟨0, 1000, 0, 0⟩
  tdm := List.replicate 8 ⟨none, false, 0, 0⟩
  mics := List.replicate 16 ⟨0, 0⟩
  trims := []
  ringTable := []
  hdmaRead := false
  hdmaMiss := 0
  meters := []


/-! ## Voice processing (chapter 08) -/

/-- An echo canceller (R259 to R262): tail in ms, bulk delay in 62.5 µs, suppression depth in dB; consecutive blocks with
ERLE of at least 20 dB. -/
structure AecSt where
  enabled : Bool
  tail : Nat
  bulk : Nat
  depth : Nat
  comfort : Bool
  goodBlocks : Nat
  deriving DecidableEq, Repr

/-- A notch (R264): centre frequency in Hz, depth in dB. -/
structure Notch where
  freq : Nat
  depth : Nat
  deriving DecidableEq, Repr

/-- Feedback suppression of a microphone (R263 to R265): notches oldest first; when it last held one. -/
structure FbSt where
  enabled : Bool
  notches : List Notch
  lastHeld : Option Nat
  deriving DecidableEq, Repr

/-- The class of a call (R266). -/
inductive CallClass where
  | pei | cab | ip
  deriving DecidableEq, Repr

/-- An open call (R266): what it names. -/
structure CallSt where
  ix : Nat
  id : Nat
  cls : CallClass
  mic : Nat
  aec : Option Nat
  own : Nat
  far : Nat
  sinks : List Nat
  recs : List Nat
  fallback : Bool
  codec : Option Nat
  isCab : Bool
  deriving DecidableEq, Repr

/-- Noise following of a zone (R274 to R276): slope in 0.1, gains in 0.01 dB, the noise frames of the last 30 s. -/
structure NfSt where
  enabled : Bool
  mics : List Nat
  slope : Nat
  nref : Nat
  fallback : Int
  gain : Int
  frames : List (Nat × Nat)
  falling : Bool
  deriving DecidableEq, Repr

/-- Path monitoring of a zone (R277 to R279): the reference of each microphone in durable memory (microphone, delay in
samples, energy in 0.1 dB), consecutive valid windows low and high, and a commissioning: microphone, windows left, sums. -/
structure PmonSt where
  refs : List (Nat × Nat × Int)
  low : Nat
  high : Nat
  commission : Option (List (Nat × Nat × Nat × Int))
  /-- the tick count at which a commissioning ends unfinished (R405) -/
  deadline : Nat
  deriving DecidableEq, Repr

/-- A library clip (R282 to R284): state 0 loading, 1 VERIFIED, 2 MISSING; where it lies in the store. -/
structure Clip where
  id : Nat
  version : Nat
  format : Nat
  rate : Nat
  length : Nat
  flags : Nat
  digest : List Nat
  state : Nat
  addr : Nat
  bytes : Nat
  loaded : Nat
  deleting : Bool
  deriving DecidableEq, Repr

/-- A playback voice (R285 to R287); `loops` 0 is unlimited. -/
structure Voice where
  ix : Nat
  clips : List (Nat × Nat)
  gain : Int
  loops : Nat
  start : Nat
  playing : Bool
  stopAt : Option (Nat × Nat)
  deriving DecidableEq, Repr

/-- A recorded unit's index entry (R289). -/
structure RecUnit where
  unit : Nat
  channel : Nat
  call : Nat
  tick : Nat
  stale : Nat
  overrun : Nat
  inactive : Nat
  keyVersion : Nat
  locked : Bool
  lost : Bool
  deriving DecidableEq, Repr

/-- A STIPA run (R280): the voice and its clip where the node plays the signal; times in s; when the phase began. -/
structure StipaSt where
  zone : Nat
  mic : Nat
  voice : Option Nat
  clip : Nat × Nat
  time : Nat
  noise : Nat
  since : Nat
  deriving DecidableEq, Repr

/-- Voice processing behind the registers. -/
structure VoxSt where
  aecs : List AecSt
  fb : List FbSt
  calls : List CallSt
  nf : List NfSt
  pmon : List PmonSt
  stipa : Option StipaSt
  clips : List Clip
  voices : List Voice
  recUnits : List RecUnit
  /-- per recorder channel: recording in mode ALWAYS -/
  recAlways : List Bool
  deriving DecidableEq, Repr

/-- Voice processing at reset. -/
def VoxSt.reset : VoxSt where
  aecs := List.replicate 8 ⟨false, 128, 0, 0, false, 0⟩
  fb := List.replicate 16 ⟨false, [], none⟩
  calls := []
  nf := List.replicate 16 ⟨false, [], 10, 60, 0, 0, [], false⟩
  pmon := List.replicate 16 ⟨[], 0, 0, none, 0⟩
  stipa := none
  clips := []
  voices := []
  recUnits := []
  recAlways := List.replicate 16 false


/-! ## The central store (chapter 09) -/

/-- A region of the map (R308): kind, pages held, retention class, and the base offset Decik gave it (R309). -/
structure Region where
  kind : Nat
  pages : Nat
  retain : Bool
  base : Nat
  deriving DecidableEq, Repr

/-- The store behind its registers. -/
structure StoreSt where
  /-- poisoned 64-byte lines (R303), and corrected words awaiting their write-back (R302) -/
  poisoned : List Nat
  writeBack : List Nat
  /-- correctable errors per bank in the scrub pass in progress (R305), and ticks of the pass -/
  scrubCe : List Nat
  scrubTicks : Nat
  /-- pages with an uncorrectable error, with its time in ticks since power-on, and pages retired (R303) -/
  pageUe : List (Nat × Nat)
  retired : List Nat
  /-- critical extents in durable memory: bank, first offset, pages (R311, R312), and the record's sequence number -/
  extents : List (Nat × Nat × Nat)
  extentSeq : Nat
  /-- per bank: the sleep count whose pattern its canary page holds (R313) -/
  canary : List (Nat × Nat)
  /-- the banks to keep in SLEEP, as RET_MASK stood at the entry (R504) -/
  mask : Nat
  /-- RET_MASK is locked, from the start of sleep entry to the end of the wake checks -/
  maskLocked : Bool
  /-- banks lost that Decik has not handled: bank, cause 0 canary, 1 extent, 2 uncorrectable (R315, R317) -/
  lost : List (Nat × Nat)
  /-- the region map in force, and a committed map that waits for the next start (R310) -/
  regions : List Region
  nextMap : Option (List Region)
  /-- ranges whose content the spec leaves undefined (R610): first offset, length, and the free value of the first byte -/
  undef : List (Nat × Nat × Nat)
  deriving DecidableEq, Repr

/-- The store at reset: no map, nothing retained. -/
def StoreSt.reset : StoreSt where
  poisoned := []
  writeBack := []
  scrubCe := List.replicate 16 0
  scrubTicks := 0
  pageUe := []
  retired := []
  extents := []
  extentSeq := 0
  canary := []
  mask := 0
  maskLocked := false
  lost := []
  regions := []
  nextMap := none
  undef := []


/-! ## The train-window bridge (chapter 10) -/

/-- A bridge request that waits for its answer (R340): the host operation it belongs to (its request tag), window, RTAG
sequence, OP, target offset, window offset, length, data; where it went, the MSGID of its last staging, and the tick
count of its first. -/
structure BrgReq where
  tag : Nat
  win : Nat
  seq : Nat
  op : Nat
  off : Nat
  winOff : Nat
  len : Nat
  kind : Nat
  data : List Nat
  prefetch : Bool
  pos : Nat
  sub : Nat
  msgId : Nat
  first : Nat
  deriving DecidableEq, Repr

/-- A host read of a train window in progress: what it asked for, the parts still out, the bytes that came back. -/
structure HostRead where
  tag : Nat
  win : Nat
  winOff : Nat
  off : Nat
  len : Nat
  left : Nat
  got : List (Nat × List Nat)
  deriving DecidableEq, Repr

/-- An AtomicOp to a train window (R350 to R353). -/
structure HostAtom where
  tag : Nat
  win : Nat
  off : Nat
  op : AtomicOp
  /-- semaphore fall-back in use -/
  sem : Bool
  /-- a remote semaphore is held -/
  held : Bool
  first : Nat
  sent : Nat
  refusals : Nat
  /-- OP of the request to re-stage, and the tick count at which (R350) -/
  retry : Option (Nat × Nat)
  old : Nat
  deriving DecidableEq, Repr

/-- A prefetch buffer (R343): target offset of the block, its bytes, the bytes not yet returned, ticks since it came. -/
structure PfBuf where
  win : Nat
  block : Nat
  data : List Nat
  unread : List Nat
  arrived : Nat
  deriving DecidableEq, Repr

/-- A request that arrived at this node as target (R349). -/
structure TgtReq where
  pos : Nat
  sub : Nat
  op : Nat
  regs : Bool
  prefetch : Bool
  rtag : Nat
  off : Nat
  len : Nat
  kind : Nat
  sem : Nat
  data : List Nat
  deriving DecidableEq, Repr

/-- An answer that arrived. -/
structure BrgRsp where
  pos : Nat
  sub : Nat
  op : Nat
  status : Nat
  rtag : Nat
  data : List Nat
  deriving DecidableEq, Repr

/-- A Cinch that the target holds (R351). -/
structure Cinch where
  req : TgtReq
  block : Nat
  granted : Nat
  deriving DecidableEq, Repr

/-- A host access of the train windows that waits for credits (R340). -/
inductive HeldAccess where
  | read (tag win off len : Nat)
  | write (win off : Nat) (bytes : List Nat)
  deriving DecidableEq, Repr

/-- A host access of the local store window that waits for a locked block (R351). -/
inductive HeldLocal where
  | read (tag off len : Nat)
  | write (off : Nat) (bytes : List (Option Nat))
  | atomic (tag : Nat) (op : AtomicOp)
  deriving DecidableEq, Repr

/-- The bridge and the host ports behind their registers. -/
structure BridgeSt where
  reqs : List BrgReq
  reads : List HostRead
  atom : Option HostAtom
  atomQ : List (Nat × Nat × AtomicOp)
  held : List HeldAccess
  heldLocal : List HeldLocal
  /-- completions that wait for the next tick boundary (R341) -/
  ready : List Output
  buffers : List PfBuf
  /-- read-barrier reads that wait: window, sequence numbers of the writes they wait for (R347) -/
  barWait : List (Nat × List Nat)
  seq : List Nat
  /-- as target: requests in delivery order, Cinches held -/
  inbox : List TgtReq
  cinches : List Cinch
  rsps : List BrgRsp
  /-- messages with an expired cell: line B?, MSGID (R340) -/
  expired : List (Bool × Nat)
  /-- UID last named by each window's POS.SUB (R338) -/
  known : List DWord
  deriving DecidableEq, Repr

/-- The bridge at reset. -/
def BridgeSt.reset : BridgeSt where
  reqs := []
  reads := []
  atom := none
  atomQ := []
  held := []
  heldLocal := []
  ready := []
  buffers := []
  barWait := []
  seq := List.replicate 16 0
  inbox := []
  cinches := []
  rsps := []
  expired := []
  known := List.replicate 16 0


/-! ## Mailbox, units and configuration (chapters 11 and 12) -/

/-- What a request that was answered PENDING waits for (R363). -/
inductive Pend where
  /-- in Decik's hands now -/
  | handling
  /-- answered, and its final response is held (R362, R367) -/
  | answered
  | unit (id : Nat) (enable : Bool) (tick : Nat)
  | apply
  | rollback
  | renumber (abandoned : Nat)
  | merge
  | clipDelete (id version : Nat)
  | pmon (zone : Nat)
  | stipa
  | keyOp
  | recExport (first count dest : Nat)
  | storeTest (offset length : Nat)
  | handover
  | resync
  /-- an MDIO access that waits for the PHY -/
  | mdio (port phy reg : Nat)
  /-- a request carried to another node (R369): where, its UID, the TAG used there, the last tick count at which a first
  response may come, the message, a re-send is due, and whether a first response has come -/
  | remote (pos sub : Nat) (uid : DWord) (tag deadline : Nat) (message : List Nat) (resend first : Bool)
  deriving DecidableEq, Repr

/-- An open request (R362), in order of consumption. A channel 3 request keeps where it came from. -/
structure OpenReq where
  ch : Nat
  idx : Nat
  tag : Nat
  opcode : Nat
  pend : Pend
  origin : Option (Nat × Nat × DWord)
  deriving DecidableEq, Repr

/-- An object in transfer (R397): the bytes so far, and the tick count of the last fragment. -/
structure Transfer where
  ch : Nat
  opcode : Nat
  total : Nat
  bytes : List Nat
  last : Nat
  deriving DecidableEq, Repr

/-- A change commanded for a tick (R394): the tick sequence number, or, while there is no ring time, the count of the
node's own ticks; the command and its data. -/
structure Timed where
  tick : Nat
  own : Option Nat
  opcode : Nat
  data : List Nat
  ch : Nat
  tag : Nat
  deriving DecidableEq, Repr

/-- The mailbox behind its registers. -/
structure MbxSt where
  opens : List OpenReq
  /-- responses held per channel, as ring entries (R367) -/
  held : List (List (List Nat))
  /-- per channel: the next notification carries NOTE_LOST -/
  noteLost : List Bool
  noteLevel : Nat
  /-- channel 3 ring entries: index, source position, sub-position -/
  origins : List (Nat × Nat × Nat)
  remoteTag : Nat
  transfers : List Transfer
  timed : List Timed
  /-- commanded changes for the twin record: tick, opcode and data (R192, R395) -/
  twinOut : List (Nat × List Nat)
  /-- the latest summary, and the reduced one (R376) -/
  saddle : List Nat
  reduced : List Nat
  deriving DecidableEq, Repr

/-- The mailbox at reset. -/
def MbxSt.reset : MbxSt where
  opens := []
  held := [[], [], [], []]
  noteLost := [false, false, false, false]
  noteLevel := 6
  origins := []
  remoteTag := 1
  transfers := []
  timed := []
  twinOut := []
  saddle := []
  reduced := []

/-- A unit (R372 to R377): management state 0 DISABLED, 1 STARTING, 2 ENABLED, 3 STOPPING, 4 FAULTED; the last data-path
state seen, the cause of the last FAULTED, the tick count of the last change of either view. -/
structure UnitSt where
  id : Nat
  mgmt : Nat
  restart : Bool
  diverged : Bool
  dp : Nat
  cause : Nat
  changed : Nat
  deriving DecidableEq, Repr

/-- The state of an image slot as the summary codes it (R376, R380): 0 EMPTY, 1 PREVIOUS, 2 PENDING, 3 REJECTED,
4 CANCELLED, 5 active. -/
structure ImageSlot where
  bytes : List Nat
  version : Nat
  state : Nat
  deriving DecidableEq, Repr

/-- Configuration images (R380 to R388): the two slots and the commit record in durable memory, the loaded image, the
contents of the image in force, and the monotonic deadline of the confirm timer in ticks. -/
structure CfgSt where
  slots : List ImageSlot
  active : Nat
  trial : Bool
  trialStarts : Nat
  confirmTime : Nat
  recSeq : Nat
  loaded : Option (List Nat)
  image : Config.Image
  confirmAt : Option Nat
  /-- a return to the PREVIOUS slot at MBX.CFG_TICK: commanded, or automatic (R385, R386) -/
  rollTo : Option (Nat × Bool)
  /-- the loaded image has been put on its way to the follower of a twin (R395) -/
  twinHas : Bool
  /-- an image is in force: that of the active slot -/
  inForce : Bool
  /-- durable memory does not answer (R541) -/
  mediaBad : Bool
  deriving DecidableEq, Repr

/-- Configuration at reset: no image in force. -/
def CfgSt.reset : CfgSt where
  slots := [⟨[], 0, 0⟩, ⟨[], 0, 0⟩]
  active := 0
  trial := false
  trialStarts := 0
  confirmTime := 0
  recSeq := 0
  loaded := none
  image := Config.Image.none
  confirmAt := none
  rollTo := none
  twinHas := false
  inForce := false
  mediaBad := false


/-! ## Ethernet, PTP and the streams (chapter 13) -/

/-- What a queued transmit frame is: a host slot and whether it asks for a timestamp (R422), a packet of a transmit stream
and the tick count of its queuing (R432), a PTP event message with its sequence number (R439), or another. -/
inductive TxKind where
  | host (slot : Nat) (ts : Bool)
  | stream (ix queued : Nat)
  | sync (seq : Nat)
  | delayReq (seq : Nat)
  | other
  deriving DecidableEq, Repr

/-- A frame in a transmit queue: from the destination address on, without FCS. -/
structure TxFrame where
  bytes : List Nat
  kind : TxKind
  deriving DecidableEq, Repr

/-- A gate list (R427): gate mask and duration in ns of each entry, and the cycle in ticks. -/
structure GateList where
  entries : List (Nat × Nat)
  cycle : Nat
  deriving DecidableEq, Repr

/-- What a foreign master's Announce said (R438; IEEE 1588): its port identity and its data set. -/
structure Announce where
  sender : Nat
  gm : Nat
  prio1 : Nat
  quality : Nat
  prio2 : Nat
  steps : Nat
  deriving DecidableEq, Repr

/-- A port's part of the PTP clock (R437, R438): role, the best foreign master heard, sequence numbers of Sync, Announce and
Delay_Req, and the times of the exchange in progress: ingress and number of the last Sync, egress of the last Delay_Req. -/
structure PtpPort where
  role : Nat
  foreign : Option Announce
  syncSeq : Nat
  annSeq : Nat
  reqSeq : Nat
  rxSync : Option (Nat × Int)
  reqSent : Option (Nat × Int)
  deriving DecidableEq, Repr

/-- A port behind its registers. -/
structure EthPort where
  queues : List (List TxFrame)
  /-- egress timestamps that Decik has not drained (R439) -/
  tsq : List (TxKind × Int)
  gates : GateList
  /-- a list that waits, and the tick number at which it takes effect (R429) -/
  gateNext : Option (GateList × Nat)
  /-- tick count of the cycle's start -/
  gateStart : Nat
  /-- the pause in force: quanta given, and thirds of a ns left at the last boundary (R430) -/
  pauseGiven : Nat
  pauseLeft : Nat
  /-- the next host slot to queue; slots done and not yet written back: slot, dropped, timestamp (R422) -/
  htxNext : Nat
  htxDone : List (Nat × Bool × Int)
  /-- running totals of the counters (R436) -/
  totals : List Nat
  igmpV2 : Bool
  /-- MSGIDs of relayed messages (R424) -/
  relayed : List Nat
  ptp : PtpPort
  deriving DecidableEq, Repr

/-- An AES67 or codec stream (R440 to R446, R273): type 0 AES67 L24, 1 A-law, 2 mu-law, 3 G.722; packet time in ticks. -/
structure RtpStream where
  ix : Nat
  tx : Bool
  type : Nat
  port : Nat
  channels : Nat
  ticks : Nat
  pt : Nat
  firstCh : Nat
  ip : Nat
  udp : Nat
  ssrc : Nat
  jitterMs : Nat
  mco : Nat
  armed : Bool
  /-- transmit: next sequence number, the media time that the next sample has by count, samples collected -/
  seq : Nat
  count : Option Nat
  txBuf : List (List Int)
  /-- receive: sequence numbers of the last 64 packets; samples waiting: media time, first of its packet, one per channel;
  media time of the sample that left last, samples missing in a row, tick count of the last packet in time -/
  seqs : List Nat
  buf : List (Nat × Bool × List Int)
  pos : Option Nat
  missing : Nat
  lastAt : Option Nat
  /-- codec receive: RTP timestamp and departure of a packet that sets the play-out, packets by departure, the last 10 ms,
  ticks concealed in a row, and the concealment counter (R273) -/
  anchor : Option (Nat × Nat)
  packets : List (Nat × List Nat × List Nat)
  last10 : List Int
  concealed : Nat
  concealCount : Nat
  deriving DecidableEq, Repr

/-- The PTP clock behind its registers (R437, R438). -/
structure PtpSt where
  domain : Nat
  prio1 : Nat
  prio2 : Nat
  /-- ticks out of sync (R182), and ticks with the offset within 1 us -/
  outTicks : Nat
  lockTicks : Nat
  /-- the fraction of the PTP difference, in 1e-9 thirds of a ns -/
  frac : Int
  /-- differences of the exchange in ns: master to slave, and mean delay -/
  delay : Int
  t1 : Int
  t2 : Int
  deriving DecidableEq, Repr

/-- Ethernet behind its registers. -/
structure EthSt where
  ports : List EthPort
  streams : List RtpStream
  ptp : PtpSt
  deriving DecidableEq, Repr

/-- A port after power-up of the ETH domain: one gate entry with all gates open (R427). -/
def EthPort.reset : EthPort where
  queues := List.replicate 8 []
  tsq := []
  gates := ⟨[(0xFF, 0)], 1⟩
  gateNext := none
  gateStart := 0
  pauseGiven := 0
  pauseLeft := 0
  htxNext := 0
  htxDone := []
  totals := List.replicate 36 0
  igmpV2 := false
  relayed := []
  ptp := ⟨0, none, 0, 0, 0, none, none⟩

/-- Ethernet at reset: the PTP defaults of R437. -/
def EthSt.reset : EthSt where
  ports := [EthPort.reset, EthPort.reset]
  streams := []
  ptp := ⟨0, 128, 128, 0, 0, 0, 0, 0, 0⟩


/-! ## Trainline CAN FD (chapter 14) -/

/-- A schedule window (R462): start and length in us, arbitrating or exclusive, owner. -/
structure CanWin where
  start : Nat
  len : Nat
  arb : Bool
  owner : Nat
  deriving DecidableEq, Repr

/-- One of Decik's frames that waits (R454, R458): its object, identifier and data. Kind by object: 0 master heartbeat,
1 node heartbeat, 2 ring-hold, 3 and 4 claim, 5 and 6 floor, 7 and 8 voice of channel 0 and 1. -/
structure CanOwn where
  obj : Nat
  id : Nat
  data : List Nat
  deriving DecidableEq, Repr

/-- A fallback channel (R472, R473): cycles since its last frame, the call it was granted to, the other side's UID, the holder
named last and the holder that owns the voice window, the samples of the block being encoded, the block that is ready with
the tick count from which it may be sent, and blocks received. -/
structure CanChan where
  silent : Nat
  call : Option Nat
  far : DWord
  named : DWord
  holder : DWord
  enc : List Int
  encBlock : Nat
  ready : Option (Nat × List Nat × Nat)
  blocks : List (Nat × List Nat)
  gate : Bool
  deriving DecidableEq, Repr

/-- The CAN controller and its schedule behind the registers. -/
structure CanSt where
  sched : List CanWin
  nextSched : Option (List CanWin × Nat)
  /-- cycle number, and the node time in thirds of a ns at which the cycle began (R460) -/
  cycle : Nat
  start : Int
  /-- a step at the next cycle start: the sender's start minus the own one in ns, and its cycle number (R461) -/
  step : Option (Int × Nat)
  stepped : Bool
  refSeen : Bool
  refGood : Nat
  refLock : Bool
  /-- the window in progress, and the frame being sent: its object -/
  win : Option Nat
  active : Option Nat
  own : List CanOwn
  holdSent : Bool
  /-- shadow copies that hold an unreleased frame (R457) -/
  shadow : List Nat
  chans : List CanChan
  /-- claims heard: call identifier, channel, cycles since; cycles that a call waits after a collision (R472, R474) -/
  claims : List (Nat × Nat × Nat)
  backoff : List (Nat × Nat)
  /-- node heartbeats heard: position, UID -/
  heard : List (Nat × DWord)
  /-- wake setting of CAN_WAKE_SET (R475): identifier, mask, data, data mask -/
  wake : Nat × Nat × List Nat × List Nat
  deriving DecidableEq, Repr

/-- The factory schedule (R465). -/
def factorySched : List CanWin :=
  [⟨0, 2300, false, 0x00⟩, ⟨2300, 2300, false, 0x40⟩, ⟨4600, 1900, false, 0xF0⟩, ⟨6500, 1900, false, 0xF1⟩, ⟨8400, 1600, true, 0xFF⟩]

/-- The CAN controller at reset. -/
def CanSt.reset : CanSt where
  sched := factorySched
  nextSched := none
  cycle := 0
  start := 0
  step := none
  stepped := false
  refSeen := false
  refGood := 0
  refLock := false
  win := none
  active := none
  own := []
  holdSent := false
  shadow := []
  chans := List.replicate 2 ⟨3, none, 0, 0, 0, [], 0, none, [], false⟩
  claims := []
  backoff := []
  heard := []
  wake := (0, 0, [], [])


/-! ## Car stacks (chapter 15) -/

/-- What the head keeps of a member (R487, R488): the wafers and process units of its last record (stream identifier, bytes), its
alarm bits, ticks without a valid record, and whether it is declared lost. -/
structure MemberSt where
  wafers : List (Nat × List Nat)
  units : List (Nat × List Nat)
  alarm : Nat
  missRun : Nat
  lost : Bool
  /-- its last record reported a hold (R544) -/
  hold : Bool
  deriving DecidableEq, Repr

/-- The stack behind its registers: the members at a head; at a member, consecutive ticks within 5 ns of the head (R493). -/
structure StackSt where
  members : List MemberSt
  timeRun : Nat
  /-- the sequence number of a member's next record (R486) -/
  recSeq : Nat
  /-- swing and de-emphasis applied at the stack ports -/
  eq : List (Nat × Nat)
  deriving DecidableEq, Repr

/-- The stack at reset. -/
def StackSt.reset : StackSt where
  members := List.replicate 3 ⟨[], [], 0, 0, false, false⟩
  timeRun := 0
  recSeq := 0
  eq := [(4, 3), (4, 3)]


/-! ## Power, start-up and network sleep (chapters 16 to 18) -/

/-- A rail sequence (R519, R520): its direction, the rails it starts or stops, the step it is at, and whether that step's
enables have changed. -/
structure RailSeq where
  up : Bool
  rails : Nat
  step : Nat
  moved : Bool
  deriving DecidableEq, Repr

/-- The power controller behind its registers. -/
structure PwrSt where
  /-- the wake step in progress (R514, codes 1 to 4); 5: the logic step is ready and the boot ROM may run; 0: none -/
  step : Nat
  attempt : Nat
  /-- the RTC at the wake event, in thirds of a ns -/
  began : Nat
  /-- the start in progress, or the last one, followed a wake (R559) -/
  wakeStart : Bool
  /-- the 10 ms of R515, and the first second of WAKE_FAIL (R516) -/
  waiting : Bool
  failHold : Bool
  vmainRose : Bool
  /-- wake events latched during an entry or that second: source, DETAIL (R508, R516) -/
  latched : List (Nat × Nat)
  /-- FAULT_N stays asserted from WAKE_FAIL until a start completes (R516) -/
  failed : Bool
  /-- a power-down warning stopped the entry: nothing is retained (R522) -/
  dropAll : Bool
  /-- a reset that waits: 2 for VMAIN, 3 for RST_N (R525); 0 none -/
  resetWait : Nat
  /-- the alarm in force, in ns (R513, R523) -/
  alarm : Nat
  /-- a frequency point waits for the next boundary (R510) -/
  freqNext : Bool
  /-- rail sequences, the running one first -/
  rails : List RailSeq
  /-- ticks since the last open request of channel 3 closed (R499) -/
  remoteIdle : Nat
  /-- start-up: tick count at the release of the reset, the copy being read or run (0 flash A, 1 flash B, 2 host, 3 store),
  the FAIL_CAUSE of copy A, the sizes of the two images in the firmware copy, the BIST kinds asked for, how the last BIST
  ended, and the restarts that keep the node in pass-through (R534) -/
  t0 : Nat
  copy : Nat
  copyAFail : Nat
  images : List Nat
  bist : Nat
  bistFailed : Bool
  /-- step 5 of a start has not ended: records to write there -/
  strapBad : Bool
  /-- the last wake began in SLEEP, or the start is cold (R310) -/
  fromSleep : Bool
  /-- a power-down warning ended the start (R541) -/
  stopped : Bool
  /-- I2C address matches of the wake in progress (R333) -/
  i2cMatches : Nat
  deriving DecidableEq, Repr

/-- The power controller at reset: the first step of the cold start. -/
def PwrSt.reset : PwrSt where
  step := 1
  attempt := 1
  began := 0
  wakeStart := false
  waiting := false
  failHold := false
  vmainRose := false
  latched := []
  failed := false
  dropAll := false
  resetWait := 0
  alarm := 0
  freqNext := false
  rails := []
  remoteIdle := 48000
  t0 := 0
  copy := 0
  copyAFail := 0
  images := []
  bist := 0
  bistFailed := false
  strapBad := false
  fromSleep := true
  stopped := false
  i2cMatches := 0

/-- Train-wide sleep behind its registers (R544 to R561). -/
structure NetSt where
  /-- the master's idle count and held time in ticks, and multiples of SLEEP_IDLE_S already recorded (R548, R558) -/
  idle : Nat
  held : Nat
  /-- the first proposal frame, by the tick count of its launch, and the tick announced (R549, R551) -/
  proposed : Option Nat
  announced : Option Nat
  /-- the sleep tick that the node holds (R551) -/
  agreed : Option Nat
  /-- the last accepted proposal frame: tick count, master (R549, R561); the last accepted frame was a proposal -/
  lastProposal : Option (Nat × DWord)
  underProposal : Bool
  /-- a wake request waits: its reason (R556); it is recorded after the start -/
  request : Option Nat
  requested : Option Nat
  /-- ticks left of the validation period, and the lone count in ticks (R559, R560) -/
  validate : Option Nat
  lone : Nat
  /-- tick count at which the last pulse began (R554) -/
  pulse : Option Nat
  /-- WAKE_IN is stuck (R555), and the RTC when the level fell while it was -/
  stuck : Bool
  lowFrom : Option Nat
  deriving DecidableEq, Repr

/-- Train-wide sleep at reset. -/
def NetSt.reset : NetSt where
  idle := 0
  held := 0
  proposed := none
  announced := none
  agreed := none
  lastProposal := none
  underProposal := false
  request := none
  requested := none
  validate := none
  lone := 0
  pulse := none
  stuck := false
  lowFrom := none


/-! ## Keys, authentication and tamper (chapter 19) -/

/-- A generation of a slot's key: its version and the key itself. -/
structure KeyGen where
  version : Nat
  key : Nat
  deriving DecidableEq, Repr

/-- A key slot in durable memory (R566): state 0 EMPTY, 1 BOUND, 2 UNBOUND; mask; the generations; the measurement under
whose KEK the areas are wrapped (R564); the sequence number of its commit record. -/
structure KeySlot where
  state : Nat
  mask : Nat
  cur : Option KeyGen
  prev : Option KeyGen
  wrapM : List Nat
  seq : Nat
  deriving DecidableEq, Repr

/-- A replacement in progress (R572): slot, mask, version, the blob and the key check value. -/
structure KeyOp where
  slot : Nat
  mask : Nat
  version : Nat
  blob : List Nat
  kcv : List Nat
  deriving DecidableEq, Repr

/-- A challenge (R396, R577): channel, requesting UID on channel 3, the nonce, the tick count at which it lapses. -/
structure Challenge where
  ch : Nat
  uid : DWord
  nonce : List Nat
  until_ : Nat
  deriving DecidableEq, Repr

/-- A source of authorised commands: consecutive failures, and the end of its lockout (R577). -/
structure AuthSource where
  ch : Nat
  uid : DWord
  fails : Nat
  lockUntil : Nat
  deriving DecidableEq, Repr

/-- The security block behind its registers: OTP, measurement, slots, challenges. -/
structure SecSt where
  /-- OTP: the firmware-key digests and their revocation bits (R563) -/
  digests : List (List Nat)
  revoked : Nat
  /-- M and the two values of H (R532) -/
  measurement : List Nat
  hashes : List (List Nat)
  slots : List KeySlot
  op : Option KeyOp
  /-- the wrap counter (R566) -/
  wrapCtr : Nat
  challenges : List Challenge
  sources : List AuthSource
  /-- the durable copy of the tamper latch: causes, 0 none (R582) -/
  durable : Nat
  /-- causes present now (R584) -/
  present : Nat
  /-- NONCE_CTR of the RING_GCM generation that RING.NONCE does not show (R575) -/
  otherNonce : Nat
  deriving DecidableEq, Repr

/-- A slot as the node leaves the factory: EMPTY (R568). -/
def KeySlot.empty : KeySlot := ⟨0, 0, none, none, [], 0⟩

/-- The security block at reset: slot 0 BOUND with the transport key, every other slot EMPTY (R568). -/
def SecSt.reset : SecSt where
  digests := [List.replicate 32 0, List.replicate 32 0]
  revoked := 0
  measurement := List.replicate 32 0
  hashes := [[], []]
  slots := ⟨1, 0, some ⟨0, 0⟩, none, [], 1⟩ :: List.replicate 15 KeySlot.empty
  op := none
  wrapCtr := 0
  challenges := []
  sources := []
  durable := 0
  present := 0
  otherNonce := 0


/-! ## Self-test and discrete inputs and outputs (chapters 21 and 22) -/

/-- A store test in progress (R607): first offset and length. -/
structure StoreTestSt where
  offset : Nat
  length : Nat
  deriving DecidableEq, Repr

/-- The discrete inputs behind their registers (R613 to R617): underlying debounced values, changes of each in its running
chatter window, and whether the outputs drive OUT_SAFE. -/
structure DioSt where
  under : Nat
  changes : List Nat
  /-- the outputs drive OUT_SAFE (R619) -/
  safe : Bool
  deriving DecidableEq, Repr

/-- The discrete inputs and outputs at power-on reset: OUT_SAFE is zero and drives every output low (R619). -/
def DioSt.reset : DioSt where
  under := 0
  changes := List.replicate 32 0
  safe := true

/-! ## The state -/

/-- The whole state of the node: plain data. -/
structure State where
  /-- commands waiting, first in, first out -/
  pending : List Instr
  /-- how many free values have been drawn (the model's own counter, not the spec's) -/
  free : Nat
  /-- the register words that differ from their reset value, by BAR0 offset -/
  regs : List (Nat × Word)
  /-- the central store: bytes that are not zero, by store offset -/
  store : List Host.Cell
  /-- what has left the node and no one has taken yet, oldest first -/
  outbox : List Output
  /-- the store controller behind its registers, and the region map -/
  mem : StoreSt
  /-- the train-window bridge and the host ports -/
  brg : BridgeSt
  /-- Decik's running totals by counter (R378): counter key, total -/
  totals : List (Nat × Nat)
  /-- the mailbox -/
  mbx : MbxSt
  /-- the units (R372); one not listed is DISABLED -/
  units : List UnitSt
  /-- configuration images -/
  cfg : CfgSt
  /-- the strap levels last sampled (R528) -/
  straps : Straps
  /-- the node's UID in OTP (R563) -/
  uid : DWord
  /-- Decik and the overrun records -/
  decik : DecikSt
  /-- the DSP jobs of the image in force, in its order -/
  jobs : List Job
  /-- the coupler links -/
  links : Vector LinkSt 4
  /-- the ring engine -/
  ring : RingSt
  /-- inauguration and merging -/
  inaug : InaugSt
  /-- the ring record in durable memory (R138) -/
  dring : DurableRing
  /-- redundancy -/
  red : RedSt
  /-- the audio engine -/
  aud : AudSt
  /-- voice processing -/
  vox : VoxSt
  /-- node time -/
  clk : ClockSt
  /-- the always-on real-time clock, in thirds of a ns since 1970 (R160, R523) -/
  rtc : Nat
  /-- input balls -/
  pins : PinsSt
  /-- claim facts of the image in force -/
  claim : ClaimFacts
  /-- the keys loaded in the four engines (R567) -/
  engines : Vector EngineSt 4
  /-- MSI-X -/
  msix : MsixSt
  /-- the event recorder -/
  evr : EvrSt
  /-- the Ethernet ports, the PTP clock and the streams -/
  eth : EthSt
  /-- the trainline CAN controller -/
  can : CanSt
  /-- the car stack -/
  stk : StackSt
  /-- the power controller and the start in progress -/
  pwr : PwrSt
  /-- train-wide sleep -/
  net : NetSt
  /-- keys, authentication and tamper -/
  sec : SecSt
  /-- a store test in progress -/
  storeTest : Option StoreTestSt
  /-- discrete inputs and outputs -/
  dio : DioSt
  deriving DecidableEq, Repr

/-- The node right after power-on reset (R525, R527): every register at the value its table gives, every other
piece of state at the value the spec or a log entry names. -/
def State.reset : State where
  pending := []
  free := 0
  regs := [(0x130C0, 0x42)]
  store := []
  outbox := []
  mem := StoreSt.reset
  brg := BridgeSt.reset
  totals := []
  mbx := MbxSt.reset
  units := []
  cfg := CfgSt.reset
  straps := ⟨false, 0, false, 0, 0⟩
  uid := 1
  decik := ⟨0, none, [0, 0, 0, 0], [none, none, none, none]⟩
  jobs := []
  links := Vector.replicate 4 ⟨false, 0, none, false, 4, 3⟩
  ring := RingSt.reset
  inaug := InaugSt.reset
  dring := ⟨none, 0, 0, 0, false⟩
  red := RedSt.reset
  aud := AudSt.reset
  vox := VoxSt.reset
  clk := ⟨0, 0, false, List.replicate 8 ⟨0, 0⟩, [], 0, false, false, none, false, 0, [], ⟨100, 200, 3, 64, false⟩, none, 0, 0, 0⟩
  rtc := 0
  pins := ⟨false, false⟩
  claim := ⟨0, false⟩
  engines := Vector.replicate 4 ⟨none, none⟩
  msix := ⟨false, false, [], [], [], 0, 0⟩
  evr := EvrSt.reset
  eth := EthSt.reset
  can := CanSt.reset
  stk := StackSt.reset
  pwr := PwrSt.reset
  net := NetSt.reset
  sec := SecSt.reset
  storeTest := none
  dio := DioSt.reset

end Sys2Proof.Machine
end

