-- ==== Sys2Proof/Machine/Ops.lean ====
section
/-! DEFINITION. The named operations over registers, the store, interrupts, FAULT_N and the event recorder. A block has no
exception entry: raising an interrupt line or an error flag is the effect of a command on the state. -/

namespace Sys2Proof.Machine

/-! ## The register table (R9, R11, R12) -/

/-- Does the row name the register at `off`? -/
def RegRow.covers (r : RegRow) (off : Nat) : Bool :=
  if r.count ≤ 1 then off == r.base
  else decide (r.base ≤ off) && (off - r.base) % r.stride == 0 && decide ((off - r.base) / r.stride < r.count)

/-- The register table of the block that holds `off` (R622), and the offset to look up in it: ETH1 repeats ETH0. -/
def blockRows (off : Nat) : List RegRow × Nat :=
  match off / 0x1000 with
  | 0x00 => (GLB.rows, off)
  | 0x01 => (INTC.rows, off)
  | 0x02 => (MBX.rows, off)
  | 0x03 => (RING.rows, off)
  | 0x04 => (SYNC.rows, off)
  | 0x05 => (RED.rows, off)
  | 0x06 => (AUD.rows, off)
  | 0x07 => (AUD.rows, off)
  | 0x08 => (STORE.rows, off)
  | 0x09 => (BRG.rows, off)
  | 0x0A => (ETH.rows, off)
  | 0x0B => (ETH.rows, off - 0x1000)
  | 0x0C => (PTP.rows, off)
  | 0x10 => (CAN.rows, off)
  | 0x11 => (CAN.rows, off)
  | 0x12 => (STK.rows, off)
  | 0x13 => (PWR.rows, off)
  | 0x14 => (SEC.rows, off)
  | 0x15 => (EVR.rows, off)
  | 0x16 => (TST.rows, off)
  | 0x17 => (DIO.rows, off)
  | _ => ([], off)

/-- The fields of the register at `off`; none where no register is defined (R12). -/
def fieldsAt (off : Nat) : List FieldSpec :=
  let (rows, o) := blockRows off
  match rows.find? (fun r => r.covers o) with
  | some r => r.flds
  | none => []

/-- The reset value of the register at `off`. -/
def resetWord (off : Nat) : Word :=
  (fieldsAt off).foldl (fun w f => w ||| (BitVec.ofNat 32 f.rst <<< f.lo)) 0

/-! ## Fields -/

/-- The mask of bits `hi` down to `lo`. -/
def maskBits (hi lo : Nat) : Word := (BitVec.ofNat 32 (2 ^ (hi + 1 - lo) - 1)) <<< lo

/-- The number in bits `hi` down to `lo`. -/
def bitsOf (w : Word) (hi lo : Nat) : Nat := w.toNat / 2 ^ lo % 2 ^ (hi + 1 - lo)

/-- The word with bits `hi` down to `lo` replaced by the low bits of `x`. -/
def putBits (w : Word) (hi lo x : Nat) : Word :=
  (w &&& ~~~ maskBits hi lo) ||| ((BitVec.ofNat 32 x <<< lo) &&& maskBits hi lo)

/-- The width of a field. -/
def Fld.width (f : Fld) : Nat := f.hi + 1 - f.lo

/-- The stored word of the register at `off`. -/
def State.word (s : State) (off : Nat) : Word := Sparse.get resetWord s.regs off

/-- Store a whole register word. -/
def State.setWord (s : State) (off : Nat) (w : Word) : State := { s with regs := Sparse.put resetWord s.regs off w }

/-- The value of a register field. -/
def State.get (s : State) (f : Fld) : Nat := bitsOf (s.word f.off) f.hi f.lo

/-- Give a register field a value; no other field of any register changes. -/
def State.set (s : State) (f : Fld) (x : Nat) : State := s.setWord f.off (putBits (s.word f.off) f.hi f.lo x)

/-- Is a one-bit field set? -/
def State.flag (s : State) (f : Fld) : Bool := s.get f != 0

/-- Give a one-bit field a truth value. -/
def State.setFlag (s : State) (f : Fld) (b : Bool) : State := s.set f (b2n b)

/-- Add to one of Decik's running totals (R378). -/
def State.tally (s : State) (key d : Nat) : State :=
  { s with totals := Sparse.put (fun _ => 0) s.totals key (Sparse.get (fun _ => 0) s.totals key + d) }

/-- The key of a counter field among the running totals. -/
def Fld.key (f : Fld) : Nat := f.off * 32 + f.lo

/-- One of Decik's running totals: it saturates at 0xFFFF_FFFF (R378). -/
def State.total (s : State) (key : Nat) : Nat := min (Sparse.get (fun _ => 0) s.totals key) 0xFFFFFFFF

/-- Add to a counter field, which saturates at all ones (R13), and to Decik's running total of it. -/
def State.count (s : State) (f : Fld) (d : Nat) : State := (s.set f (satAdd f.width (s.get f) d)).tally f.key d

/-- Add one to a field that wraps. -/
def State.wrapInc (s : State) (f : Fld) : State := s.set f ((s.get f + 1) % 2 ^ f.width)

/-- Bit `i` of a field. -/
def State.getBit (s : State) (f : Fld) (i : Nat) : Bool := bit (s.get f) i

/-- Give bit `i` of a field a truth value. -/
def State.putBit (s : State) (f : Fld) (i : Nat) (b : Bool) : State :=
  s.set f (if b then setBit (s.get f) i else clrBit (s.get f) i)

/-- Put every register in `[lo, hi)` back to its reset value. -/
def State.resetRegs (s : State) (lo hi : Nat) : State :=
  { s with regs := s.regs.filter (fun e => !(decide (lo ≤ e.1) && decide (e.1 < hi))) }

/-- The 64-bit value of a LO, HI register pair. -/
def State.get64 (s : State) (lo hi : Fld) : Nat := s.get lo + 2 ^ 32 * s.get hi

/-- Write a LO, HI register pair. -/
def State.set64 (s : State) (lo hi : Fld) (x : Nat) : State := (s.set lo (x % 2 ^ 32)).set hi (x / 2 ^ 32 % 2 ^ 32)

/-! ## Power domains (R497) -/

abbrev Dom.ao : Nat := 0
abbrev Dom.core : Nat := 1
abbrev Dom.dsp : Nat := 2
abbrev Dom.ring : Nat := 3
abbrev Dom.stack : Nat := 4
abbrev Dom.eth : Nat := 5
abbrev Dom.pcie : Nat := 6
abbrev Dom.can : Nat := 7
abbrev Dom.audioIo : Nat := 8
abbrev Dom.storeCtl : Nat := 9
abbrev Dom.storeArray : Nat := 10
abbrev Dom.sec : Nat := 11

/-- Is the domain at ON? -/
def State.domOn (s : State) (d : Nat) : Bool := d == Dom.ao || s.get (PWR.VOTE.LEVEL d) == 2

/-- Registers of AUD that follow the DSP domain (R258, R296). -/
def dspReg (off : Nat) : Bool :=
  (decide (0x06640 ≤ off) && decide (off < 0x066C0) && off % 8 == 0) || (decide (0x066C0 ≤ off) && decide (off < 0x06700)) ||
    (decide (0x06800 ≤ off) && decide (off < 0x08000))

/-- Do the registers of AUD outside the DSP domain hold the offset? -/
def audioIoReg (off : Nat) : Bool := decide (0x06000 ≤ off) && decide (off < 0x08000) && !dspReg off

/-- The domain of the register at an offset (R622). -/
def regDomain (off : Nat) : Nat :=
  if off == PWR.PERF.off || (decide (0x13100 ≤ off) && decide (off < 0x13160)) then Dom.core
  else if off == SEC.TMP_CFG.off || off == SEC.TMP_CNT.off || off == CAN.WAKE_LAST.off then Dom.ao
  else match off / 0x1000 with
  | 0x00 => Dom.core
  | 0x01 => Dom.core
  | 0x02 => Dom.core
  | 0x03 => Dom.ring
  | 0x04 => Dom.ring
  | 0x05 => Dom.ring
  | 0x06 => if dspReg off then Dom.dsp else Dom.audioIo
  | 0x07 => if dspReg off then Dom.dsp else Dom.audioIo
  | 0x08 => Dom.storeCtl
  | 0x09 => Dom.core
  | 0x0A => Dom.eth
  | 0x0B => Dom.eth
  | 0x0C => Dom.eth
  | 0x10 => Dom.can
  | 0x11 => Dom.can
  | 0x12 => Dom.stack
  | 0x14 => Dom.sec
  | 0x15 => Dom.core
  | 0x16 => if off < 0x16040 then Dom.core else if off < 0x16080 then Dom.storeCtl else Dom.eth
  | 0x3F => Dom.pcie
  | _ => Dom.ao

/-- A host access of a register: it drops a captured second half (R46, R185), and has no effect where the register's domain, or
CORE with the host port, is down (R524, R623). -/
def State.access (s : State) (off : Nat) (f : State → State) : State :=
  let s := { s with clk := { s.clk with cap := none } }
  if s.domOn Dom.core && s.domOn (regDomain off) then f s else s

/-! ## Free values and outputs -/

/-- Draw a free value: a value the spec leaves open. -/
def State.fresh (s : State) : Nat × State := (Config.freeValue s.free, { s with free := s.free + 1 })

/-- Something leaves the node. -/
def State.emit (s : State) (o : Output) : State := { s with outbox := s.outbox ++ [o] }

/-! ## The store -/

/-- What a store byte that is not listed reads as: initialisation writes zeros (R304). -/
def memDflt : Nat → Byte := fun _ => 0

/-- The canonical form of the store (notes/assumptions/5.md). -/
def Memory.wf (m : List Host.Cell) : Bool := Sparse.wf memDflt m

/-- Take `[a, a + n)` out of ranges of undefined content. -/
def cutRanges (a n : Nat) (l : List (Nat × Nat × Nat)) : List (Nat × Nat × Nat) :=
  (l.flatMap (fun (r : Nat × Nat × Nat) => [(r.1, min (a - r.1) r.2.1, r.2.2),
    (max r.1 (a + n), r.1 + r.2.1 - max r.1 (a + n), r.2.2 + (max r.1 (a + n) - r.1))])).filter (fun r => r.2.1 != 0)

/-- The range of undefined content that holds a byte. -/
def undefAt (l : List (Nat × Nat × Nat)) (a : Nat) : Option (Nat × Nat × Nat) :=
  l.find? (fun r => decide (r.1 ≤ a) && decide (a < r.1 + r.2.1))

/-- One byte of the store; a free value where the spec leaves the content undefined (R610). -/
def State.memByte (s : State) (a : Nat) : Byte :=
  match undefAt s.mem.undef a with
  | some r => BitVec.ofNat 8 (Config.freeValue (r.2.2 + (a - r.1)))
  | none => Sparse.get memDflt s.store a

/-- The bytes `[a, a + n)` are defined again. -/
def State.define (s : State) (a n : Nat) : State := { s with mem := { s.mem with undef := cutRanges a n s.mem.undef } }

/-- The bytes `[a, a + n)` hold what no one knows: free values (R610). -/
def State.undefine (s : State) (a n : Nat) : State :=
  let s := s.define a n
  { s with mem := { s.mem with undef := s.mem.undef ++ [(a, n, s.free)] }, free := s.free + n }

/-- Write one byte of the store. -/
def State.putByte (s : State) (a : Nat) (x : Byte) : State := { s.define a 1 with store := Sparse.put memDflt s.store a x }

/-- Write bytes from `a` on. -/
def State.putBytes (s : State) (a : Nat) : List Nat → State
  | [] => s
  | x :: t => State.putBytes (s.putByte a (BitVec.ofNat 8 x)) (a + 1) t

/-- The `n` bytes from `a`. -/
def State.bytesAt (s : State) (a : Nat) : Nat → List Nat
  | 0 => []
  | n + 1 => (s.memByte a).toNat :: State.bytesAt s (a + 1) n

/-- Make `[a, a + n)` of the store hold exactly the sparse bytes `b` (offsets from 0). -/
def State.putBlock (s : State) (a n : Nat) (b : Bytes) : State :=
  let cleared := (s.store.filter (fun e => decide (a ≤ e.1) && decide (e.1 < a + n))).foldl
    (fun m e => Sparse.put memDflt m e.1 0) s.store
  { s.define a n with store := (b.filter (fun e => decide (e.1 < n))).foldl (fun m e => Sparse.put memDflt m (a + e.1) e.2) cleared }

/-! ## Interrupts (R626 to R631) -/

/-- The pending bit of a source. -/
def pendFld (n : Nat) : Fld := if n < 32 then INTC.PEND_LO.PEND else INTC.PEND_HI.PEND
/-- The enable bit of a source. -/
def enFld (n : Nat) : Fld := if n < 32 then INTC.EN_LO.EN else INTC.EN_HI.EN

/-- Is the source pending? -/
def State.isPend (s : State) (n : Nat) : Bool := s.getBit (pendFld n) (n % 32)
/-- Is the source enabled? -/
def State.isEn (s : State) (n : Nat) : Bool := s.getBit (enFld n) (n % 32)
/-- STAT bit n: PEND AND EN (R629). -/
def State.isStat (s : State) (n : Nat) : Bool := s.isPend n && s.isEn n

/-- The STAT word of 32 sources: PEND AND EN. -/
def State.statWord (s : State) (hi : Bool) : Nat :=
  if hi then Nat.land (s.get INTC.PEND_HI.PEND) (s.get INTC.EN_HI.EN)
  else Nat.land (s.get INTC.PEND_LO.PEND) (s.get INTC.EN_LO.EN)

/-- Is MSI-X delivery in force: enabled, and the host is PCIe (R323, R630)? -/
def State.msixOn (s : State) : Bool := s.msix.enable && !s.straps.hostSpi

/-- Can vector `n` be sent now: its mask and the function mask clear, and the PCIe link up (R630, R631)? -/
def State.vectorOpen (s : State) (n : Nat) : Bool :=
  bit s.msix.unmasked n && !s.msix.functionMask && s.flag BRG.HOST_STAT.LINK_UP

/-- A setting of STAT bit `n` (R630): the message, or the pending-bit array. -/
def State.statSet (s : State) (n : Nat) : State :=
  if s.msixOn then
    if s.vectorOpen n then s.emit (.msix n)
    else { s with msix := { s.msix with pba := setBit s.msix.pba n } }
  else s

/-- INT_N and INTA follow the STAT bits while MSI-X is not in force (R323, R630); pending-bit array bits clear with
their STAT bits (R630). -/
def State.irqLevel (s : State) : State :=
  let any := s.statWord false != 0 || s.statWord true != 0
  let level := any && !s.msixOn
  let s := s.setFlag INTC.CTRL.INT_N level
  let inta := level && s.flag BRG.HOST_STAT.LINK_UP
  let s := if inta != s.flag INTC.CTRL.INTX then (s.setFlag INTC.CTRL.INTX inta).emit (.inta inta) else s
  { s with msix := { s.msix with
      pba := Nat.land s.msix.pba (s.statWord false + 2 ^ 32 * s.statWord true) } }

/-- Is the source set by Decik alone (R628)? Sources 4 to 14 are those of MBX and SUMMARY_READY. -/
def decikSource (n : Nat) : Bool := decide (4 ≤ n) && decide (n ≤ 14)

/-- Is Decik running? -/
def State.decikRuns (s : State) : Bool := s.flag GLB.FW_STAT.RUN

/-- The pending bit of a source is set. -/
def State.setPend (s : State) (n : Nat) : State :=
  let s := s.putBit (pendFld n) (n % 32) true
  (if s.isEn n then s.statSet n else s).irqLevel

/-- Set the pending bit of a source (R626): not while the source is already pending, nor a Decik source while Decik is
stopped, nor any while CORE is down (R628). -/
def State.pend (s : State) (n : Nat) : State :=
  if s.isPend n || (decikSource n && !s.decikRuns) || !s.domOn Dom.core then s
  else s.setPend n

/-- Set bits of an event field; a 0-to-1 change of any of them sets the pending bit of the source (R626). -/
def State.evt (s : State) (f : Fld) (mask src : Nat) : State :=
  let old := s.get f
  let new := Nat.lor old mask
  if new = old then s else (s.set f new).pend src

/-- Set one bit of an event field. -/
def State.evtBit (s : State) (f : Fld) (i src : Nat) : State := s.evt f (2 ^ i) src

/-- A directly set source (R627): the setting is counted in INTC.MISS where the bit is already pending. -/
def State.pendDirect (s : State) (n : Nat) (miss : Fld) : State :=
  if s.isPend n then s.count miss 1 else s.pend n

/-! ## FAULT_N (R625) -/

/-- FAULT_N is asserted while any cause bit is set, and from WAKE_FAIL until a start completes (R516); GLB and PWR show it. -/
def State.showFault (s : State) : State :=
  let any := s.flag GLB.FAULT_STAT.BOOT_WAIT || s.flag GLB.FAULT_STAT.RECORDER || s.flag GLB.FAULT_STAT.TAMPER ||
    s.flag GLB.FAULT_STAT.BIST || s.flag GLB.FAULT_STAT.DECIK || s.pwr.failed
  (s.setFlag GLB.FAULT_STAT.FAULT_N any).setFlag PWR.STAT.FAULT_N any

/-- Set or clear a cause of GLB.FAULT_STAT; its onset sets the event bit and raises FAULT_SUMMARY. FAULT_N is asserted
while any cause is set. -/
def State.faultCause (s : State) (cause evtF : Fld) (on : Bool) : State :=
  let was := s.flag cause
  let s := s.setFlag cause on
  let s := if on && !was then s.evt evtF 1 Src.FAULT_SUMMARY else s
  s.showFault

/-! ## The event recorder (R588 to R600) -/

/-- The writer codes of R588. -/
inductive Writer where
  | decik | power | security | bootRom | recorder
  deriving DecidableEq, Repr

/-- The number of a writer in SOURCE bits [7:5]. -/
def Writer.code : Writer → Nat
  | .decik => 0
  | .power => 1
  | .security => 2
  | .bootRom => 3
  | .recorder => 4

/-- The tick sequence number a record or log carries: 0 while GLB.TICK_SEQ reads zero. -/
def State.tickSeq (s : State) : Nat := s.get GLB.TICK_SEQ.SEQ

/-- A record as it is posted: SEQ is given when it is written (R588). While OPTIME is unknown it carries the RTC in seconds and
RTC_TIME (R597). -/
def State.record (s : State) (e : EvtCode) (w : Writer) (inst : Nat) (data : List Nat) : Record where
  seq := 0
  optime := if s.evr.optimeKnown then s.get EVR.OPTIME.SECONDS else s.rtc / 3000000000 % 2 ^ 32
  pwrcyc := s.get EVR.PWRCYC.COUNT
  tick := s.tickSeq
  code := e.code
  source := w.code * 32 + inst % 32
  sevflags := e.sev + (if s.evr.optimeKnown then 0 else 16)
  data := (data ++ List.replicate 8 0).take 8
  good := true

/-- The record's 28 bytes before CHK (R588). -/
def Record.body (r : Record) : List Nat :=
  leBytes 4 r.seq ++ leBytes 4 r.optime ++ leBytes 4 r.pwrcyc ++ leBytes 4 r.tick ++ leBytes 2 r.code ++
  [r.source, r.sevflags] ++ r.data

/-- The record's 32 bytes, CHK included; a copy that does not check ends with its CHK inverted. -/
def Record.bytes (r : Record) : List Nat :=
  let c := crc32c r.body
  r.body ++ leBytes 4 (if r.good then c else Nat.xor c 0xFFFFFFFF)

/-- Post a record to the always-on pending buffer (R597): 8 records, a further one is dropped and counted. -/
def State.pendingPost (s : State) (r : Record) : State :=
  if s.evr.pending.length < 8 then
    let s := { s with evr := { s.evr with pending := s.evr.pending ++ [r] } }
    s.set EVR.PEND_STAT.FILL s.evr.pending.length
  else (s.count EVR.PEND_STAT.OVF 1).evt EVR.EVT.PEND_OVF 1 Src.EVREC

/-- The key of an event code among the running totals. -/
def evtKey (e : EvtCode) : Nat := 2 ^ 24 + e.code

/-- Post an event record (R591): queued for the recorder while Decik runs; the hardware writers post to the pending
buffer otherwise (R597), and Decik's own records do not arise then. -/
def State.postBy (s : State) (w : Writer) (e : EvtCode) (inst : Nat) (data : List Nat) : State :=
  let s := s.tally (evtKey e) 1
  if s.decikRuns then { s with evr := { s.evr with posted := s.evr.posted ++ [s.record e w inst data] } }
  else match w with
    | .decik => s
    | _ => s.pendingPost (s.record e w inst data)

/-- Post a record that Decik writes. -/
def State.post (s : State) (e : EvtCode) (inst : Nat) (data : List Nat) : State := s.postBy .decik e inst data

end Sys2Proof.Machine
end

