-- ==== Sys2Proof/Machine/FrameOps.lean ====
section
/-! DEFINITION. The cycle frame (chapter 03): where its fields lie (R78, R79), what a position owns (R86, R89), region
checks, staging and the repeat region (R92 to R94). -/

namespace Sys2Proof.Machine

/-! ## The segment map (R78) -/

/-- Offset of sync entry `e`. -/
def syncOff (e : Nat) : Nat := 64 + 16 * e
/-- Offset of position `p`'s control word. -/
def ctrlOff (p : Nat) : Nat := 192 + 8 * (p - 1)
/-- Offset of wafer `w`. -/
def waferOff (w : Nat) : Nat := 448 + 4 * w
/-- Offset of process unit `u`. -/
def unitOff (u : Nat) : Nat := 2496 + 16 * u
/-- Offset of cell `c`. -/
def cellOff (c : Nat) : Nat := 4544 + 256 * c
/-- Offset of position `p`'s check entry. -/
def checkOff (p : Nat) : Nat := 6080 + 4 * (p - 1)

/-- The `n` offsets from `a`. -/
def span (a n : Nat) : List Nat := (List.range n).map (a + ·)

/-! ## The header and the trailer (R79 to R82): the field accessors stand in Machine/Bits.lean -/

/-- FTYPE is one of the four of R79's table. -/
def ftypeValid (t : Nat) : Bool := decide (1 ≤ t) && decide (t ≤ 4)

/-! ## Layout and ownership (R86, R89) -/

/-- The layout in force. -/
def State.layout? (s : State) : Option Layout := s.ring.layout

/-- The entry of position `p` (1 to 32). -/
def Layout.pos (l : Layout) (p : Nat) : Option LayoutPos := if p = 0 then none else l.positions[p - 1]?

/-- The number of positions. -/
def Layout.size (l : Layout) : Nat := l.positions.length

/-- The position of a UID; 0 where it has none. -/
def Layout.posOf (l : Layout) (u : DWord) : Nat :=
  match l.positions.findIdx? (fun q => q.uid == u) with
  | some i => i + 1
  | none => 0

/-- The wafers that position `p` writes, ascending (R86). -/
def Layout.wafersOf (l : Layout) (p : Nat) : List Nat := (l.wafers.filter (fun r => r.pos == p)).map (·.index)

/-- The process units that position `p` writes, ascending (R88). -/
def Layout.unitsOf (l : Layout) (p : Nat) : List Nat := (l.units.filter (fun r => r.pos == p)).map (·.index)

/-- Does position `p` hold the writer or master role, and so own its bytes (R127)? -/
def Layout.owns (l : Layout) (p : Nat) : Bool :=
  match l.pos p with
  | some q => q.role != 0
  | none => false

/-- The offsets that position `p` owns, in ascending frame offset (R89): control word, wafers, process units. -/
def Layout.owned (l : Layout) (p : Nat) : List Nat :=
  span (ctrlOff p) 8 ++ (l.wafersOf p).flatMap (fun w => span (waferOff w) 4) ++
    (l.unitsOf p).flatMap (fun u => span (unitOff u) 16)

/-- The region check of R89: CRC-32C over the prefix and the owned bytes. -/
def regionCheck (tseq topo ver : Nat) (b : Bytes) (offs : List Nat) : Nat :=
  crc32c (leBytes 4 tseq ++ leBytes 2 topo ++ leBytes 2 ver ++ offs.map b.at)

/-- Is position `p`'s region intact in the bytes, as a region of frame `tseq` (R89, R96)? -/
def regionIntact (l : Layout) (tseq p : Nat) (b : Bytes) : Bool :=
  b.le (checkOff p) 4 == regionCheck tseq l.topo l.version b (l.owned p)

/-! ## The node's place in the ring -/

/-- ROLE: 0 pass-through, 1 writer, 2 master, 3 not in a ring. -/
def State.role (s : State) : Nat := s.get RING.ENG_STAT.ROLE
/-- The node's ring position; 0 while it has none. -/
def State.position (s : State) : Nat := s.get RING.ENG_STAT.POSITION
/-- Does the node hold the writer or master role? -/
def State.writes (s : State) : Bool := s.role == 1 || s.role == 2
/-- In sync: SYNC.STAT.STATE is LOCKED, with or without a sync entry. -/
def State.inSync (s : State) : Bool := s.get SYNC.STAT.STATE == 2 || s.get SYNC.STAT.STATE == 3

/-- The link on a line of a port (R47). -/
def linkOf (l : Line) (fore : Bool) : LinkIx :=
  match l, fore with
  | .a, true => 0
  | .b, true => 1
  | .a, false => 2
  | .b, false => 3

/-- The line of a link. -/
def lineOf (n : LinkIx) : Line := if n.val % 2 = 0 then .a else .b

/-- The link's state (RING.LINKSTATn.STATE). -/
def State.linkState (s : State) (n : Nat) : Nat := s.get (RING.LINKSTAT.STATE n)

/-- Is a link in the ring? -/
def State.inRing (s : State) (n : Nat) : Bool := s.linkState n == 6

/-- Does the line carry frames at this node: one of its links is in the ring? -/
def State.lineCarries (s : State) (l : Line) : Bool :=
  match l with
  | .a => s.inRing 0 || s.inRing 2
  | .b => s.inRing 1 || s.inRing 3

/-- Does a frame that arrives on this port run on its out pass (R49)? Both receive lanes of a launching node are back lanes. -/
def State.outPass (s : State) (l : Line) (fore : Bool) : Bool :=
  s.role != 2 && !s.inaug.launching && !s.flag (RING.LINKSTAT.ROLE (linkOf l fore).val)

/-! ## Staging (R93, R94) -/

/-- A wafer word marked STALE where it is VALID (R94, R97). -/
def staleWafer (x : Nat) : Nat := if bit x 7 then setBit x 6 else x

/-- A PTAG marked STALE where it is VALID (R94, R97). -/
def stalePtag (x : Nat) : Nat := if bit x 7 then setBit x 6 else x

/-- Owned wafers and units marked STALE where VALID. -/
def staleRegion (l : Layout) (p : Nat) (b : Bytes) : Bytes :=
  let b := (l.wafersOf p).foldl (fun acc w => acc.setAt (waferOff w) (staleWafer (acc.at (waferOff w)))) b
  (l.unitsOf p).foldl (fun acc u => acc.setAt (unitOff u + 15) (stalePtag (acc.at (unitOff u + 15)))) b

/-- The node state of the control word (R83): CONTROL_LOST while Decik is stopped, SYNC_LOST out of sync. -/
def State.nodeState (s : State) : Nat :=
  if !s.decikRuns then 3 else if s.inSync then 1 else 2

/-- The repeat region of R94. -/
def State.repeatRegion (s : State) (l : Layout) (p : Nat) : Bytes :=
  match s.ring.lastWritten with
  | some b =>
    let b := staleRegion l p b
    b.setAt (ctrlOff p + 1) (setBit (b.at (ctrlOff p + 1)) 4)
  | none =>
    ((Bytes.setAt [] (ctrlOff p + 1) (16 + s.nodeState)).setLe (ctrlOff p + 6) 2 (s.get RED.EPOCH.FOLLOWED))

end Sys2Proof.Machine
end

