-- ==== Sys2Proof/Machine/RingOps.lean ====
section
/-! DEFINITION. Shared operations of the ring: the topology-change marker, triggers and abandons of an inauguration
(R84, R112, R156), a link's qualification and loss (R59, R61), roles and the layout in force (R133). -/

namespace Sys2Proof.Machine

/-! ## Phases (RING.INAUG_STAT.PHASE, R156) -/

abbrev Phase.idle : Nat := 0
abbrev Phase.settle : Nat := 1
abbrev Phase.count : Nat := 2
abbrev Phase.acquire : Nat := 3
abbrev Phase.claim : Nat := 4
abbrev Phase.compute : Nat := 5
abbrev Phase.distribute : Nat := 6
abbrev Phase.announced : Nat := 7
abbrev Phase.merge : Nat := 8
abbrev Phase.shrink : Nat := 9

/-- The inauguration phase. -/
def State.phase (s : State) : Nat := s.get RING.INAUG_STAT.PHASE

/-- Enter a phase and restart its tick count. -/
def State.toPhase (s : State) (p : Nat) : State :=
  let s := s.set RING.INAUG_STAT.PHASE p
  { s with inaug := { s.inaug with phaseTicks := 0 } }

/-- HS_STATE values (R113). -/
abbrev Hs.free : Nat := 0
abbrev Hs.forming : Nat := 1
abbrev Hs.running : Nat := 2
abbrev Hs.dupHold : Nat := 3

/-- The node's own HS_STATE (RING.INAUG_STAT.ISTATE). -/
def State.istate (s : State) : Nat := s.get RING.INAUG_STAT.ISTATE

/-- Is the node the master? -/
def State.isMaster (s : State) : Bool := s.role == 2

/-- Does the node launch frames: as master, or as a forming candidate? -/
def State.launches (s : State) : Bool := s.isMaster || s.inaug.launching

/-! ## What train-wide sleep asks of the ring (R551, R552, R559) -/

/-- The node holds the agreement on sleep tick `t` (R551). -/
def State.agreeSleep (s : State) (t : Nat) : State :=
  if s.net.agreed.isSome then s
  else
    let s := { s with net := { s.net with agreed := some t, underProposal := false } }
    ((s.set PWR.SLEEP_TSEQ.TSEQ t).set PWR.NET_STAT.NSTATE 2).evt PWR.NET_EVT.AGREED 1 Src.NET_SLEEP

/-- Valid communication (R559, R560): it ends the validation period, and LONE. -/
def State.validComm (s : State) : State :=
  let n := s.get PWR.NET_STAT.NSTATE
  if n == 3 || n == 4 then { s.set PWR.NET_STAT.NSTATE 0 with net := { s.net with validate := none, lone := 0 } } else s

/-- The idle count and the held time start again: at every switch tick and fast shrink, and when the node becomes master
(R548, R558). -/
def State.netRestart (s : State) : State := { s with net := { s.net with idle := 0, held := 0, proposed := none } }

/-- Is the node in the entry to STANDBY (R505)? -/
def State.isEntering (s : State) : Bool := s.get PWR.STAT.STATE == 4

/-- Start the settle timer where a trigger may act: at the master with Decik running, nothing in progress and no back-off
(R112, R156, R659); otherwise the trigger waits (R155). None starts after the agreement on a sleep tick (R561). -/
def State.inaugTrigger (s : State) : State :=
  if !s.isMaster || s.net.agreed.isSome then s
  else if s.phase == Phase.idle && s.decikRuns && !s.inaug.backoff then
    let s := s.toPhase Phase.settle
    { s with inaug := { s.inaug with settle := 0, trigger := false, qualAt := s.decik.upTicks } }
  else { s with inaug := { s.inaug with trigger := true } }

/-- TOPO_CHG in the first control word staged after a link qualifies or is lost (R84); at the master it is a
trigger. Not after the agreement on a sleep tick (R552, R561). -/
def State.topoChange (s : State) : State :=
  if s.net.agreed.isSome then s
  else State.inaugTrigger { s with ring := { s.ring with topoChg := true } }

/-- Does the node take part with control (R18, R127, R534, R535, R542)? Decik runs, step 6 of the start has ended, no BIST has failed
and the service mode is not RECOVERY. -/
def State.controls (s : State) : Bool :=
  let b := s.get GLB.BOOT_STAT.STATE
  s.decikRuns && (b == 6 || b == 7) && s.get PWR.STAT.MODE != 3 && !s.pwr.bistFailed

/-- Forget what an inauguration in progress holds; the running layout stays (R156, R157). -/
def State.inaugForget (s : State) : State :=
  let s := s.setFlag RING.INAUG_STAT.SW_PEND false
  { s with inaug := { s.inaug with
      phaseTicks := 0, countSet := 0, iround := 0, prevA := 0, prevB := 0, agreedA := 0, agreedB := 0,
      slots := [], admissions := [], image := none, frags := [], acked := [], excluded := 0,
      claimPair := 0, counted := false, announced := false, excludedSelf := false, joined := false } }

/-- The master abandons (R156): the announcement is withdrawn, the running layout kept, the abandon counted and recorded;
after 3 in a row the next start waits 100 ms. -/
def State.inaugAbandon (s : State) : State :=
  let ph := s.phase
  let n := s.inaug.abandons + 1
  let s := (s.count RING.INAUG_CNT.ABANDONED 1).evt RING.INAUG_EVT.ABANDON 1 Src.RING_INAUG_DONE
  let s := s.post Evt.INAUG_ABANDONED 0 [ph, n]
  let s := (s.inaugForget.toPhase Phase.idle).set RED.HANDOVER.TSEQ 0
  { s with red := { s.red with handover := none }, inaug := { s.inaug with abandons := n, backoff := decide (3 ≤ n), trigger := true } }

/-- May the announced switch still be withdrawn: only before the launch of frame s − 4 (R134)? -/
def State.revocable (s : State) : Bool :=
  if s.flag RING.INAUG_STAT.SW_PEND then
    let sw := s.get RING.SWITCH_TSEQ.TSEQ
    decide (s.tickSeq + 4 < sw)
  else true

/-- A loss, a changed count or a later epoch while the master runs an inauguration (R156). -/
def State.inaugDisturbed (s : State) : State :=
  if s.isMaster && decide (Phase.settle ≤ s.phase) && decide (s.phase ≤ Phase.announced) && s.revocable then s.inaugAbandon
  else s

/-! ## Links (R59 to R61) -/

/-- Link states of R59. -/
abbrev Lk.disabled : Nat := 0
abbrev Lk.detect : Nat := 1
abbrev Lk.train : Nat := 2
abbrev Lk.lock : Nat := 3
abbrev Lk.qualifying : Nat := 4
abbrev Lk.qualified : Nat := 5
abbrev Lk.inRing : Nat := 6
abbrev Lk.test : Nat := 7

/-- The hidden part of a link. -/
def State.link (s : State) (n : LinkIx) : LinkSt := s.links[n]

/-- Replace the hidden part of a link. -/
def State.setLink (s : State) (n : LinkIx) (l : LinkSt) : State := { s with links := s.links.set n l }

/-- Enter a link state; what holds only in some states is cleared (R49, R57): ROLE outside IN_RING, the qualified flag
below QUALIFYING, what the partner said below LOCK. -/
def State.linkTo (s : State) (n : LinkIx) (st : Nat) : State :=
  let s := s.set (RING.LINKSTAT.STATE n) st
  let s := if st == Lk.inRing then s else s.setFlag (RING.LINKSTAT.ROLE n) false
  let s := if st < Lk.lock then s.setFlag (RING.LINKSTAT.PARTNER_QUAL n) false else s
  let s := s.putBit RING.LINK_CTRL.RETRAIN n.val (st == Lk.detect && s.getBit RING.LINK_CTRL.RETRAIN n.val)
  let l := s.link n
  s.setLink n { l with
    ownQual := l.ownQual && decide (Lk.qualifying ≤ st) && decide (st ≤ Lk.inRing),
    partnerState := if st < Lk.lock then 0 else l.partnerState,
    partnerUid := if st < Lk.lock then none else l.partnerUid }

/-- Count a qualification restart (R59). -/
def State.qualRestart (s : State) (n : LinkIx) : State := s.count (RING.LINKERR.QUAL_RESTART n) 1

/-- The link qualifies: QUAL bit, RING_LINK, the topology-change marker (R59, R84). -/
def State.linkQualified (s : State) (n : LinkIx) : State :=
  ((s.linkTo n Lk.qualified).evtBit RING.LINK_EVT.QUAL n.val Src.RING_LINK).validComm.topoChange

/-- A QUALIFIED or IN_RING link is lost (R59, R61): LOST bit, RING_LINK, the loss counted, the loopback to close at the
next idle gap (R65), the marker raised; at the master an inauguration that it disturbs is abandoned (R156), and the next
COUNT frame waits for a complete return (R115). During an entry nothing is reported or recorded (R552). -/
def State.linkLost (s : State) (n : LinkIx) (goal : Nat) : State :=
  if s.isEntering then
    let s := s.linkTo n goal
    s.setLink n { s.link n with closePend := true, ownQual := false }
  else
  let inSet := bit s.inaug.countSet n.val || s.inRing n.val
  let s := s.count (RING.LINKLOSS.LOSS_CNT n) 1
  let s := s.linkTo n goal
  let l := s.link n
  let s := s.setLink n { l with closePend := true, ownQual := false }
  let s := s.evtBit RING.LINK_EVT.LOST n.val Src.RING_LINK
  let s := { s with inaug := { s.inaug with
    lossWait := true, partners := s.inaug.partners.filter (fun p => p.1 != n.val) } }
  (if inSet then s.inaugDisturbed else s).topoChange

/-- Is a link in a state that a loss ends (R61)? -/
def State.linkUp (s : State) (n : LinkIx) : Bool := s.linkState n == Lk.qualified || s.linkState n == Lk.inRing

/-- The line of a link is enabled, and the link is not held down (R59). -/
def State.linkEnabled (s : State) (n : LinkIx) : Bool :=
  s.getBit RING.PORT_CFG.LINE_EN (n.val % 2) && !s.getBit RING.LINK_CTRL.DISABLE n.val

/-- LOCK with the partner at LOCK or later starts the qualification timer (R59). -/
def State.linkLockCheck (s : State) (n : LinkIx) : State :=
  let l := s.link n
  if s.linkState n == Lk.lock && decide (Lk.lock ≤ l.partnerState) && decide (l.partnerState ≤ Lk.inRing) then
    let s := s.linkTo n Lk.qualifying
    s.setLink n { s.link n with ownQual := false }
  else s

/-- QUALIFYING with the timer at QUAL_MS and the partner's qualified flag set: QUALIFIED (R59, R60). -/
def State.linkQualCheck (s : State) (n : LinkIx) : State :=
  if s.linkState n == Lk.qualifying && (s.link n).ownQual && s.flag (RING.LINKSTAT.PARTNER_QUAL n) then s.linkQualified n
  else s

/-- A receive error in QUALIFYING (R59, R60): the restart counted, the own flag cleared, back to TRAIN if lock is still
held, else to DETECT. -/
def State.linkQualError (s : State) (n : LinkIx) (lockHeld : Bool) : State :=
  let s := s.qualRestart n
  let s := s.linkTo n (if lockHeld then Lk.train else Lk.detect)
  s.setLink n { s.link n with ownQual := false }

/-! ## Roles and the layout in force (R110, R133) -/

/-- WRITE_EN: the node may write its owned bytes (R91). -/
def State.updateWriteEn (s : State) : State := s.setFlag RING.ENG_STAT.WRITE_EN (s.writes && s.inSync)

/-- Take the pass-through role; nothing is owned (R127, R135, R136). -/
def State.passThrough (s : State) : State :=
  let s := (s.set RING.ENG_STAT.ROLE 0).updateWriteEn
  { s with ring := { s.ring with staging := [], stagingDone := false, decision := none, lastWritten := none } }

/-- The master's position in a layout (role 2); 0 where it has none. -/
def Layout.masterPos (l : Layout) : Nat :=
  match l.positions.findIdx? (fun q => q.role == 2) with
  | some i => i + 1
  | none => 0

end Sys2Proof.Machine
end

