-- ==== Sys2Proof/Machine/Frames.lean ====
section
/-! DEFINITION. Frames as they pass and as they are merged (chapter 03): writing on the out pass (R91 to R94), the header
check (R81), acceptance (R82), forwarding and loopback (R63, R657), the line merge (R96 to R98), the ring history (R109). -/

namespace Sys2Proof.Machine

/-! ## Per-line registers -/

def frmTrunc (l : Line) : Fld := match l with | .a => RING.FRM_ERR_A.TRUNC | .b => RING.FRM_ERR_B.TRUNC
def frmHdr (l : Line) : Fld := match l with | .a => RING.FRM_ERR_A.HDR_CHK | .b => RING.FRM_ERR_B.HDR_CHK
def frmMismatch (l : Line) : Fld := match l with | .a => RING.FRM_ERR_A.HDR_MISMATCH | .b => RING.FRM_ERR_B.HDR_MISMATCH
def frmMissing (l : Line) : Fld := match l with | .a => RING.FRM_ERR_A.MISSING | .b => RING.FRM_ERR_B.MISSING
def endPosFld (l : Line) : Fld := match l with | .a => RING.TRL_STAT.END_POS_A | .b => RING.TRL_STAT.END_POS_B
def badPosFld (l : Line) : Fld := match l with | .a => RING.TRL_STAT.BAD_POS_A | .b => RING.TRL_STAT.BAD_POS_B
def framesFld (l : Line) : Fld := match l with | .a => RING.LINE_STAT.FRAMES_A | .b => RING.LINE_STAT.FRAMES_B
def degradedFld (l : Line) : Fld := match l with | .a => RING.LINE_STAT.DEGRADED_A | .b => RING.LINE_STAT.DEGRADED_B
def degEvtFld (l : Line) : Fld := match l with | .a => RING.LINE_STAT.DEG_EVT_A | .b => RING.LINE_STAT.DEG_EVT_B
def hopIdxFld (l : Line) : Fld := match l with | .a => RING.HOPIDX.HOPIDX_A | .b => RING.HOPIDX.HOPIDX_B
def facingFld (l : Line) : Fld := match l with | .a => RING.HOPIDX.FACING_A | .b => RING.HOPIDX.FACING_B

/-! ## Writing on the out pass -/

/-- Do the received header's values let the node write (R91): own TOPO and LAYOUT, and FTYPE NORMAL, INAUG or SLEEP? -/
def State.headerMine (s : State) (b : Bytes) : Bool :=
  b.hTopo == s.get RING.ENG_STAT.TOPO && b.hLayout == s.get RING.LAYOUT.LAYOUT_VER &&
    (b.ftype == 1 || b.ftype == 2 || b.ftype == 4)

/-- The region the node writes into frame `tseq`: fresh staging where it was complete in time, else the repeat region;
out of sync only the control word (R87). The flag says whether it is late. -/
def State.regionFor (s : State) (l : Layout) (p : Nat) : Bytes × Bool :=
  let (b, late) := if s.ring.stagingDone then (s.ring.staging, false) else (s.repeatRegion l p, true)
  if s.inSync then (b, late)
  else ((Bytes.copyAt [] b (span (ctrlOff p) 8)), late)

/-- Decide the region of frame `tseq` (R93): a late staging is counted and logged (R94). -/
def State.decideNow (s : State) (l : Layout) (p tseq : Nat) : State :=
  let r := s.regionFor l p
  let late := r.2
  let s := if late then (s.count RING.STG_STAT.LATE_CNT 1).set RING.STG_LAST.TICK tseq else s
  let b := r.1.setLe (checkOff p) 4 (regionCheck tseq l.topo l.version r.1 (l.owned p))
  let checks := (s.red.checks ++ [(tseq, b.le (checkOff p) 4)])
  { s with
    ring := { s.ring with
      decision := some (tseq, !late, b), lastWritten := some b, staging := [], stagingDone := false,
      alive := if late then s.ring.alive else b.at (ctrlOff p) },
    red := { s.red with checks := checks.drop (checks.length - 8) } }

/-- The staging decision of R93, once per frame for both lines. -/
def State.decideStaging (s : State) (l : Layout) (p tseq : Nat) : State :=
  match s.ring.decision with
  | some (t, _, _) => if t = tseq then s else s.decideNow l p tseq
  | none => s.decideNow l p tseq

/-- The bytes decided for the frame. -/
def State.decided (s : State) (tseq : Nat) : Bytes :=
  match s.ring.decision with
  | some (t, _, b) => if t = tseq then b else []
  | none => []

/-- A node with a role that does not write a frame counts the tick once (R91). -/
def State.countNotWritten (s : State) (tseq : Nat) : State :=
  if s.ring.lateCounted == some tseq then s
  else
    let s := s.count RING.STG_STAT.LATE_CNT 1
    { s with ring := { s.ring with lateCounted := some tseq } }

/-- The sync entry that the node writes, SCHK included (R83, R164). -/
def State.writeSyncEntry (s : State) (b : Bytes) (timeNs : Nat) : Bytes :=
  if s.flag RING.SYNC_OWN.SYNC_NODE && s.get SYNC.STAT.STATE == 3 then
    let a := syncOff (s.get RING.SYNC_OWN.ENTRY)
    let b := ((b.setLe a 8 timeNs).setAt (a + 8) s.position).setAt (a + 9) 3
    b.setLe (a + 12) 4 (crc32c (b.slice a 12))
  else b

/-- The queue of staged cells of a line. -/
def RingSt.queue (r : RingSt) (l : Line) : List StagedCell := match l with | .a => r.cellsA | .b => r.cellsB
/-- Replace the queue of a line. -/
def RingSt.setQueue (r : RingSt) (l : Line) (q : List StagedCell) : RingSt :=
  match l with | .a => { r with cellsA := q } | .b => { r with cellsB := q }

/-- May the node claim a free cell with this PREF (R104): its own position, 0, or a position that the frame has passed on
its out pass? -/
def prefAllows (me master pref : Nat) : Bool :=
  pref == me || pref == 0 ||
    (if master < me then decide (master ≤ pref) && decide (pref < me) else decide (me < pref) && decide (pref ≤ master))

/-- May a staged cell be placed? In twin mode a cell staged in tick k is placed from the boundary of tick k + 2 on, by both
twins (R191). -/
def State.cellReady (s : State) (c : StagedCell) : Bool :=
  !s.flag RED.TWIN_CFG.EN || s.get RED.STAT.TWIN == 3 || decide (2 ≤ c.age)

/-- Claim the free cells 1 to 5 of a passing frame, oldest staged cell first (R104, R105). -/
def State.claimCells (s : State) (l : Line) (b : Bytes) (me master : Nat) : Nat → Bytes × State
  | 0 => (b, s)
  | k + 1 =>
    let (b, s) := State.claimCells s l b me master k
    let a := cellOff (k + 1)
    match s.ring.queue l with
    | [] => (b, s)
    | c :: rest =>
      if b.at a / 64 = 0 && s.cellReady c && prefAllows me master (b.at (a + 1)) then
        let b := (b.clear a 256).overlay (c.bytes.map (fun e => (e.1 + a, e.2)))
        let s := s.count RING.CELL_TX.PLACED 1
        (b, { s with ring := s.ring.setQueue l rest })
      else (b, s)

/-- The message segment holds cells, not the inauguration format (R125): its first byte has bits [7:6] ≠ 0b11. -/
def cellFormat (b : Bytes) : Bool := b.at 4544 / 64 != 3

/-- What the node writes into a frame on its out pass (R91): owned bytes, check entry, sync entry and claimed cells. -/
def State.writePass (s : State) (f : RxFrame) (b : Bytes) : Bytes × State :=
  match s.layout? with
  | none => (b, s)
  | some l =>
    let p := s.position
    let may := s.red.twinWrites || f.line == .a
    if s.writes && s.headerMine b && may && b.hMaster == s.ring.followUid then
      let s := s.decideStaging l p b.hTseq
      let reg := s.decided b.hTseq
      let b := b.copyAt reg (l.owned p ++ span (checkOff p) 4)
      let b := s.writeSyncEntry b f.arrivalNs
      if s.inSync && cellFormat b then s.claimCells f.line b p l.masterPos 5 else (b, s)
    else if s.writes then (b, s.countNotWritten b.hTseq)
    else (b, s)

/-- HDR_CHK written afresh (R81): complemented, with HDR_BAD_POS, where the received value was wrong. -/
def State.rewriteCheck (s : State) (b : Bytes) (wasOk : Bool) : Bytes :=
  let c := crc32c (b.slice 0 64)
  if wasOk then b.setLe 6208 4 c
  else
    let b := b.setLe 6208 4 (Nat.xor c 0xFFFFFFFF)
    if b.at 6216 = 0 then b.setAt 6216 s.position else b

/-! ## Forwarding -/

/-- Does a link carry this frame type: IN_RING always; a count-set link carries INAUG frames only (R66, R119)? -/
def State.carries (s : State) (n : LinkIx) (ftype : Nat) : Bool :=
  s.inRing n.val || (ftype == 2 && bit s.inaug.countSet n.val && s.linkState n == Lk.qualified)

/-- Forward a frame that arrived on one port (R48 to R50, R63, R657): through the other port where its link carries it;
looped back through the same port on the out pass, with END_POS; absorbed on a back lane. The master forwards its
first arm's return to its second arm and ends the frame at its final return. -/
def State.forward (s : State) (f : RxFrame) (b : Bytes) : State :=
  let onward := linkOf f.line (!f.fore)
  let absorbs := (s.launches && b.hMaster != s.uid) || s.istate == Hs.dupHold
  if absorbs then s
  else if s.launches then
    if f.fore && s.carries onward b.ftype then s.emit (.frame f.line false b) else s
  else if s.carries onward b.ftype then s.emit (.frame f.line (!f.fore) b)
  else if s.outPass f.line f.fore then s.emit (.frame f.line f.fore (b.setAt 6217 s.position))
  else s

/-- Is this the master's final return of the frame (R50)? -/
def State.finalReturn (s : State) (f : RxFrame) : Bool :=
  s.launches && !(f.fore && s.carries (linkOf f.line false) f.bytes.ftype)

/-! ## Acceptance (R82) -/

/-- Does the node accept its copy of the frame (R82)? -/
def State.accepts (s : State) (f : RxFrame) : Bool :=
  !f.truncated && ftypeValid f.bytes.ftype && f.bytes.hdrOk && f.bytes.hTseq == s.tickSeq &&
    f.bytes.le 6212 4 == s.tickSeq && f.bytes.hTopo == s.get RING.ENG_STAT.TOPO &&
    f.bytes.hLayout == s.get RING.LAYOUT.LAYOUT_VER && f.bytes.hMaster == s.ring.followUid &&
    f.bytes.hEpoch == s.ring.followEpoch

/-- Count why a copy is refused (R82). -/
def State.countRefusal (s : State) (f : RxFrame) : State :=
  if f.truncated then s.count (frmTrunc f.line) 1
  else if !f.bytes.hdrOk then s.count (frmHdr f.line) 1
  else s.count (frmMismatch f.line) 1

/-- Mark a line as seen in this tick. -/
def State.markSeen (s : State) (l : Line) : State :=
  { s with ring := match l with | .a => { s.ring with seenA := true } | .b => { s.ring with seenB := true } }

/-! ## The line merge (R96, R97) -/

/-- Was position `p` passed before the node on the out pass, so that its region is read there (R95)? -/
def upstream (me master p : Nat) : Bool :=
  if master < me then decide (master ≤ p) && decide (p < me)
  else decide (me < p) && decide (p ≤ master)

/-- Does the node read `p` from the relay of the next frame: it is in the first arm and `p` in the second (R100)? The
first arm is the side that the master's Fore port faces; RELAY is set in both arms' frames. -/
def State.readsRelay (s : State) (l : Layout) (p : Nat) : Bool :=
  let m := l.masterPos
  let me := s.position
  s.flag RING.ENG_STAT.RELAY && s.role != 2 && m != 0 && ((decide (me < m) && decide (m < p)) || (decide (m < me) && decide (p < m)))

/-! ### Where a frame is on its way (R165) -/

/-- The first arm holds the positions below the master where the master's Fore port faces position 1. -/
def Layout.inSecondArm (l : Layout) (p : Nat) : Bool :=
  let m := l.masterPos
  let foreDown := match l.pos m with | some r => !r.orient | none => true
  let twoArms := decide (1 < m) && decide (m < l.size)
  twoArms && (if foreDown then decide (m < p) else decide (p < m))

/-- The delay in ps of the hop from position `i` to `i + 1`. -/
def Layout.hop (l : Layout) (i : Nat) : Nat := match l.pos i with | some q => q.hopPs | none => 0

/-- The out-pass forwarding latency of a position in ps; silent nodes count as zero (R658). -/
def State.ptOutPs (s : State) (p : Nat) : Nat :=
  match s.clk.ptOut.find? (fun e => e.1 == p) with | some e => e.2 * 320 | none => 0

/-- The out offset of position `p` in ps (R165); `arm2` is the header's ARM2_DEPART. -/
def State.outOf (s : State) (l : Layout) (p arm2 : Nat) : Nat :=
  let m := l.masterPos
  let lo := min m p
  let hi := max m p
  let hops := (List.range (hi - lo)).foldl (fun a i => a + l.hop (lo + i)) 0
  let pts := (List.range (hi - lo - 1)).foldl (fun a i => a + s.ptOutPs (lo + 1 + i)) 0
  hops + pts + (if l.inSecondArm p then arm2 else 0)

/-- Does the relayed check table reach this node after the boundary of tick f + 2: is its out-pass delay from the master above
4.40 µs (R101)? -/
def State.deepReader (s : State) (l : Layout) : Bool := decide (4400000 < s.outOf l s.position 0)

/-- The bytes that carry position `p`'s region of frame `tseq` on a line, where an accepted copy holds them. -/
def State.regionCopy (s : State) (l : Layout) (line : Line) (tseq p : Nat) : Option Bytes :=
  let relay := s.readsRelay l p
  let want := if relay then (tseq + 1) % 2 ^ 32 else tseq
  let up := upstream s.position l.masterPos p
  let c := s.ring.rx.find? (fun c => c.tseq == want && c.line == line && c.accepted &&
    (s.isMaster || (if relay || up then c.outPass else !c.outPass)))
  -- the end node has no back pass: it reads everything on the out pass
  let c := match c with
    | some c => some c
    | none => s.ring.rx.find? (fun c => c.tseq == want && c.line == line && c.accepted && up)
  c.map (·.bytes)

/-- The intact copy of a region on a line (R96): accepted, and its check matches. -/
def State.intactCopy (s : State) (l : Layout) (line : Line) (tseq p : Nat) : Option Bytes :=
  match s.regionCopy l line tseq p with
  | some b => if regionIntact l tseq p b then some b else none
  | none => none

/-- Wafers of a fresh region whose TSEQ is not (f − 1) mod 8 are treated as STALE and counted (R85). -/
def checkAges (l : Layout) (tseq p : Nat) (b : Bytes) : Bytes × Nat :=
  (l.wafersOf p).foldl (fun (acc : Bytes × Nat) w =>
    let x := acc.1.at (waferOff w)
    if bit x 7 && !bit x 6 && x % 8 != (tseq + 7) % 8 then (acc.1.setAt (waferOff w) (setBit x 6), acc.2 + 1) else acc) (b, 0)

/-- Keep the last PDATA received VALID of every unit of a region (R88). -/
def keepPdata (l : Layout) (p : Nat) (region last : Bytes) : Bytes :=
  (l.unitsOf p).foldl (fun acc u =>
    if bit (region.at (unitOff u + 15)) 7 then acc.copyAt region (span (unitOff u) 16) else acc) last

/-- Merge position `p`'s checked region of frame `tseq` into the image (table "line merge per region"). -/
def State.mergeChecked (s : State) (l : Layout) (tseq p : Nat) : State :=
  let offs := l.owned p ++ span (checkOff p) 4
  let a := s.intactCopy l .a tseq p
  let b := s.intactCopy l .b tseq p
  let put (s : State) (src : Bytes) : State :=
    let reg := Bytes.copyAt [] src offs
    let (reg, aged) := checkAges l tseq p reg
    let s := if aged = 0 then s else s.count RING.MERGE_DIFF.TAG_AGE aged
    { s with ring := { s.ring with
        merged := s.ring.merged.copyAt reg offs, lastGood := s.ring.lastGood.copyAt reg offs,
        lastPdata := keepPdata l p reg s.ring.lastPdata } }
  match a, b with
  | some x, some y => put (if Bytes.agreeAt x y offs then s else s.count RING.MERGE_DIFF.DIFF 1) x
  | some x, none =>
    put ((s.count (RING.RCHK.FAIL_B p) 1).putBit RING.FAIL_MAP_B.MAP (p - 1) true) x
  | none, some y =>
    put ((s.count (RING.RCHK.FAIL_A p) 1).putBit RING.FAIL_MAP_A.MAP (p - 1) true) y
  | none, none =>
    let s := ((s.count (RING.RCHK.FAIL_A p) 1).count (RING.RCHK.FAIL_B p) 1).count (RING.RCHK.CONCEAL p) 1
    let s := (s.putBit RING.FAIL_MAP_A.MAP (p - 1) true).putBit RING.FAIL_MAP_B.MAP (p - 1) true
    let s := (s.putBit RING.CONCEAL_MAP.MAP (p - 1) true).evtBit RING.CONCEAL_EVT.EVT (p - 1) Src.RING_REGION_FAIL
    let reg := staleRegion l p s.ring.lastGood
    { s with ring := { s.ring with merged := s.ring.merged.copyAt reg offs } }

/-- The offsets of a region's wafers. -/
def Layout.waferBytes (l : Layout) (p : Nat) : List Nat := (l.wafersOf p).flatMap (fun w => span (waferOff w) 4)

/-- A deep reader's relayed region at the boundary (R101): its wafers are accepted where the lines' copies are identical, or from
the only line that delivered them; every acceptance is counted, and the check follows. -/
def State.mergeDeep (s : State) (l : Layout) (tseq p : Nat) : State :=
  let offs := l.waferBytes p
  let accept (s : State) (b : Bytes) (lines : List Line) : State :=
    let (reg, aged) := checkAges l tseq p (Bytes.copyAt [] b offs)
    let s := if aged = 0 then s else s.count RING.MERGE_DIFF.TAG_AGE aged
    let s := s.count RING.RELAY.LATE_CHECK 1
    { s with ring := { s.ring with
        merged := s.ring.merged.copyAt reg offs,
        provisional := s.ring.provisional ++ lines.map (fun ln => (p, ln)) } }
  match s.regionCopy l .a tseq p, s.regionCopy l .b tseq p with
  | some x, some y => if Bytes.agreeAt x y offs then accept s x [.a, .b] else s.mergeChecked l tseq p
  | some x, none => accept s x [.a]
  | none, some y => accept s y [.b]
  | none, none => s.mergeChecked l tseq p

/-- Merge position `p`'s region of frame `tseq` (R96, R101). -/
def State.mergeRegion (s : State) (l : Layout) (tseq p : Nat) : State :=
  if s.readsRelay l p && s.deepReader l then s.mergeDeep l tseq p else s.mergeChecked l tseq p

/-- Positions whose regions a reader merges: in the layout, owning a region, not its own, not departed. -/
def State.readPositions (s : State) (l : Layout) : List Nat :=
  (List.range l.size).map (· + 1) |>.filter (fun p => l.owns p && p != s.position)

/-- Did the line's copy of the frame fail, or lose a region (R98)? -/
def State.lineFailed (s : State) (l : Line) : Bool :=
  s.get (match l with | .a => RING.FAIL_MAP_A.MAP | .b => RING.FAIL_MAP_B.MAP) != 0

/-- The degraded state of a line (R98): 8 consecutive ticks of loss beside an intact other line. -/
def State.degrade (s : State) (l : Line) (failed otherOk : Bool) : State :=
  let run := match l with | .a => s.ring.failRunA | .b => s.ring.failRunB
  let ok := match l with | .a => s.ring.okRunA | .b => s.ring.okRunB
  let run := if failed && otherOk then run + 1 else 0
  let ok := if failed then 0 else ok + 1
  let s := { s with ring := match l with
    | .a => { s.ring with failRunA := run, okRunA := ok }
    | .b => { s.ring with failRunB := run, okRunB := ok } }
  if run = 8 && !s.flag (degradedFld l) then
    (s.setFlag (degradedFld l) true).evt (degEvtFld l) 1 Src.RING_LINE_DEGRADED
  else s

/-- The history slot of R109: merged image, line map, conceal map and tick, at the next of 256 slots. -/
def State.writeHistory (s : State) (tseq : Nat) : State :=
  let slot := (s.get RING.RXHIST_SLOT.SLOT + 1) % 256
  let b := s.ring.merged.filter (fun e => decide (e.1 < 6240))
  let fromB := Nat.land (s.get RING.FAIL_MAP_A.MAP) (Nat.xor (s.get RING.FAIL_MAP_B.MAP) 0xFFFFFFFF)
  let b := ((Bytes.setLe b 6240 4 fromB).setLe 6244 4 (s.get RING.CONCEAL_MAP.MAP)).setLe 6248 4 tseq
  (s.putBlock (s.get RING.RXHIST_BASE.BASE + 8192 * slot) 8192 b).set RING.RXHIST_SLOT.SLOT slot

/-- The bytes outside every region: header, sync, message segment and trailer, of line A's copy or else line B's. -/
def State.mergeBase (s : State) (tseq : Nat) : Bytes :=
  let pick (l : Line) := (s.ring.rx.filter (fun c => c.tseq == tseq && c.line == l && c.accepted)).getLast?
  let base : Bytes := match pick .a with
    | some c => c.bytes
    | none => match pick .b with
      | some c => c.bytes
      | none => []
  base.filter (fun e => decide (e.1 < 192) || (decide (4544 ≤ e.1) && decide (e.1 < 6080)) || decide (6208 ≤ e.1))

/-- The line merge of frame `tseq` (R96 to R98, R109). -/
def State.mergeFrame (s : State) (tseq : Nat) : State :=
  match s.layout? with
  | none => s
  | some l =>
    let s := ((s.set RING.FAIL_MAP_A.MAP 0).set RING.FAIL_MAP_B.MAP 0).set RING.CONCEAL_MAP.MAP 0
    let own := match s.ring.lastWritten with | some b => b | none => []
    let s := { s with ring := { s.ring with
      merged := (s.mergeBase tseq).copyAt own (if s.writes then l.owned s.position ++ span (checkOff s.position) 4 else []),
      mergedTseq := tseq } }
    let s := (s.readPositions l).foldl (fun s p => s.mergeRegion l tseq p) s
    let fa := s.lineFailed .a
    let fb := s.lineFailed .b
    let s := (s.degrade .a fa (!fb)).degrade .b fb (!fa)
    let s := s.writeHistory tseq
    { s with ring := { s.ring with rx := s.ring.rx.filter (fun c => seqLater c.tseq tseq) } }

/-- LINE_DEGRADED_CLEAR (R98): 48 consecutive ticks without failure clear the degraded state; leaving it is an event. -/
def execLineDegradedClear (l : Line) (s : State) : Host.Outcome State Fault Refusal :=
  let ok := match l with | .a => s.ring.okRunA | .b => s.ring.okRunB
  .next (if s.flag (degradedFld l) && decide (48 ≤ ok) then
      (s.setFlag (degradedFld l) false).evt (degEvtFld l) 1 Src.RING_LINE_DEGRADED
    else s)

/-- A provisionally accepted region proves intact (R101): control word and process units are committed, and the whole region is the
last good one. -/
def State.commitLate (s : State) (l : Layout) (p : Nat) (b : Bytes) : State :=
  let offs := l.owned p ++ span (checkOff p) 4
  let reg := Bytes.copyAt [] b offs
  { s with ring := { s.ring with
      merged := s.ring.merged.copyAt reg (offs.filter (fun o => !(l.waferBytes p).contains o)),
      lastGood := s.ring.lastGood.copyAt reg offs,
      lastPdata := keepPdata l p reg s.ring.lastPdata } }

/-- RELAY_LATE_CHECK (R101): the regions accepted provisionally on a line are checked when the check table arrives; a
failure is counted, and only checked control words and process units are committed. -/
def execRelayLateCheck (l : Line) (tseq : Nat) (s : State) : Host.Outcome State Fault Refusal :=
  match s.layout? with
  | none => .next s
  | some lay =>
    let mine := s.ring.provisional.filter (fun e => e.2 == l)
    let s := mine.foldl (fun (s : State) (e : Nat × Line) =>
      match s.intactCopy lay l tseq e.1 with
      | some b => s.commitLate lay e.1 b
      | none => s.count RING.RELAY.LATE_FAIL 1) s
    .next { s with ring := { s.ring with provisional := s.ring.provisional.filter (fun e => e.2 != l) } }

end Sys2Proof.Machine
end

