-- ==== Sys2Proof/Machine/Cells.lean ====
section
/-! DEFINITION. Message cells (R102 to R108): staging, expiry, acceptance, reassembly. -/

namespace Sys2Proof.Machine

/-- Cell kinds (table of R102). -/
abbrev Kind.mailbox : Nat := 1
abbrev Kind.eth : Nat := 2
abbrev Kind.bridgeReq : Nat := 3
abbrev Kind.bridgeRsp : Nat := 4
abbrev Kind.inaug : Nat := 5
abbrev Kind.layout : Nat := 6

/-- The RING_GCM key that encrypts: the generation in use as G (R574). -/
def State.txKey (s : State) : Option Nat :=
  let e := s.engines[(0 : Fin 4)]
  if s.flag SEC.STAT.GEN_TX then (match e.prev with | some k => some k | none => e.cur) else e.cur

/-- Adopt a generation as G (R574, R575): RING.NONCE shows its counter, and the other one's is kept. -/
def State.setGen (s : State) (previous : Bool) : State :=
  if s.flag SEC.STAT.GEN_TX == previous then s
  else
    let ctr := s.get RING.NONCE.CTR
    let s := (s.setFlag SEC.STAT.GEN_TX previous).set RING.NONCE.CTR s.sec.otherNonce
    { s with sec := { s.sec with otherNonce := ctr }, ring := { s.ring with nonceEnd := 0 } }

/-- The RING_GCM keys that a reader tries: current, then previous (R570). -/
def State.rxKeys (s : State) : List Nat :=
  let e := s.engines[(0 : Fin 4)]
  e.cur.toList ++ e.prev.toList

/-- The nonce of a cell, slot or HANDSHAKE (R106, R126, R148): UID and counter. -/
def gcmNonce (uid : DWord) (ctr : Nat) : List Nat := leBytes 8 uid.toNat ++ leBytes 4 ctr

/-- Decik reserves nonce values in blocks of 2^20 in durable memory (R108). -/
def State.reserveNonce (s : State) : State :=
  if s.get RING.NONCE.CTR < s.ring.nonceEnd then s
  else { s with ring := { s.ring with nonceEnd := s.get RING.NONCE.CTR + 2 ^ 20 } }

/-- Do cells travel in INAUG frames now, so that PREF, SRC_POS and DST_POS carry hop indexes (R131)? -/
def State.hopCells (s : State) : Bool := decide (Phase.count ≤ s.phase) && decide (s.phase ≤ Phase.announced)

/-- The node's own hop index: 1 at a launching node. -/
def State.hopIndex (s : State) : Nat :=
  if s.launches then 1
  else if s.get RING.HOPIDX.HOPIDX_A != 0 then s.get RING.HOPIDX.HOPIDX_A else s.get RING.HOPIDX.HOPIDX_B

/-- The node's own address in a cell. -/
def State.cellAddr (s : State) : Nat := if s.hopCells then s.hopIndex else s.position

/-- The address of a position in a cell: its hop index, from the running layout, while cells travel in INAUG frames. The
messages of an inauguration name hop indexes themselves. -/
def State.cellDst (s : State) (kind p : Nat) : Nat :=
  if !s.hopCells || p == 0xFF || kind == Kind.inaug || kind == Kind.layout then p
  else match s.layout? with
    | some l => match l.pos p with | some q => q.hopIdx | none => p
    | none => p

/-- The 252 bytes of a cell before CCHK, unencrypted. -/
def State.cellPlain (s : State) (ctype dstPos dstSub msgId frag : Nat) (last : Bool) (payload : List Nat) : Bytes :=
  let b := Bytes.setSlice [] 0 [ctype, 0, s.cellAddr, s.get STK.STAT.SUB, s.cellDst (ctype % 32) dstPos % 256, dstSub % 256]
  let b := (((b.setLe 6 2 s.ring.cseq).setLe 8 2 payload.length).setLe 10 2 (frag % 256 + (if last then 0x8000 else 0)))
  let b := (b.setLe 12 2 (s.get RING.ENG_STAT.TOPO)).setLe 14 2 msgId
  b.setSlice 20 payload

/-- Queue a finished cell for each line that carries frames (R105). -/
def State.queueCell (s : State) (b : Bytes) : State :=
  let b := b.setLe 252 4 (crc32c (b.slice 0 252))
  -- a member's cells travel in its records (R486, R489)
  let record (l : Line) := s.get STK.STAT.ROLE == 1 && l == .a
  let add (l : Line) (q : List StagedCell) := if s.lineCarries l || record l then q ++ [⟨b, 0⟩] else q
  { s with ring := { s.ring with
      cellsA := add .a s.ring.cellsA, cellsB := add .b s.ring.cellsB, cseq := (s.ring.cseq + 1) % 2 ^ 16 } }

/-- Must cells of this KIND be encrypted (RING.CELL_CFG.ENC_REQ)? -/
def State.encRequired (s : State) (kind : Nat) : Bool :=
  decide (1 ≤ kind) && decide (kind ≤ 6) && s.getBit RING.CELL_CFG.ENC_REQ (kind - 1)

/-- Stage one cell (R105, R106, R108). An encrypted cell is not staged once the counter has reached 0xFFF0_0000 or while
no RING_GCM key is loaded. LAYOUT and ANNOUNCE cells are always encrypted (R574). -/
def State.stageCell (s : State) (kind dstPos dstSub msgId frag : Nat) (last encrypt : Bool) (payload : List Nat) : State :=
  let payload := payload.take 212
  if encrypt || s.encRequired kind || kind == Kind.layout || (kind == Kind.inaug && payload.head? == some 8) then
    match s.txKey with
    | none => s
    | some k =>
      if 0xFFF00000 ≤ s.get RING.NONCE.CTR then s
      else
        let s := s.reserveNonce
        let ctr := s.get RING.NONCE.CTR
        let b := (s.cellPlain (0x60 + kind % 32) dstPos dstSub msgId frag last payload).setLe 16 4 ctr
        let nonce := gcmNonce s.uid ctr
        let ct := Config.gcmCrypt k nonce (b.slice 20 212)
        let b := b.setSlice 20 (ct.take 212)
        let b := b.setLe 232 16 (Config.gcmTag k nonce (b.slice 0 20) (b.slice 20 212))
        (s.set RING.NONCE.CTR (ctr + 1)).queueCell b
  else s.queueCell (s.cellPlain (0x40 + kind % 32) dstPos dstSub msgId frag last payload)

/-- Cut a message into fragments of 212 bytes (R105). -/
def chunks (n : Nat) : Nat → List Nat → List (List Nat)
  | 0, _ => []
  | fuel + 1, l => if l.length ≤ n then [l] else l.take n :: chunks n fuel (l.drop n)

/-- Stage the fragments from index `i` on. -/
def State.stageFrags (s : State) (kind dstPos dstSub msgId : Nat) (encrypt : Bool) (i : Nat) : List (List Nat) → State
  | [] => s
  | [c] => s.stageCell kind dstPos dstSub msgId i true encrypt c
  | c :: t => State.stageFrags (s.stageCell kind dstPos dstSub msgId i false encrypt c) kind dstPos dstSub msgId encrypt (i + 1) t

/-- Stage a whole message under a new MSGID (R105): at most 256 fragments. -/
def State.stageMessage (s : State) (kind dstPos dstSub : Nat) (payload : List Nat) : State :=
  let id := s.ring.msgId
  let s := { s with ring := { s.ring with msgId := (id + 1) % 2 ^ 16 } }
  s.stageFrags kind dstPos dstSub id false 0 (chunks 212 256 payload)

/-- CELL_STAGE (R105, R108). -/
def execCellStage (kind dstPos dstSub frag : Nat) (last : Bool) (msgId : Nat) (encrypt : Bool) (payload : List Nat)
    (s : State) : Host.Outcome State Fault Refusal :=
  .next (s.stageCell kind dstPos dstSub msgId frag last encrypt payload)

/-! ## Reading cells -/

/-- A message delivered whole (R107). -/
structure Message where
  kind : Nat
  srcPos : Nat
  srcSub : Nat
  bytes : List Nat
  deriving DecidableEq, Repr

/-- The UID of a position's node in the layout in force. -/
def State.uidAt (s : State) (p : Nat) : DWord :=
  match s.layout? with
  | some l => match l.pos p with | some q => q.uid | none => 0
  | none => 0

/-- The position that a cell's SRC_POS names: a hop index while cells travel in INAUG frames (R131). -/
def State.srcPosition (s : State) (a : Nat) : Nat :=
  if s.hopCells then
    match s.layout? with
    | some l => match l.positions.findIdx? (fun q => q.hopIdx == a) with | some i => i + 1 | none => 0
    | none => 0
  else a

/-- The payload of an encrypted cell under the first key whose tag matches (R106, R570). -/
def State.openCell (s : State) (c : Bytes) : Option (List Nat) :=
  let nonce := gcmNonce (s.uidAt (s.srcPosition (c.at 2))) (c.le 16 4)
  (s.rxKeys.find? (fun k => Config.gcmTag k nonce (c.slice 0 20) (c.slice 20 212) == c.le 232 16)).map
    (fun k => Config.gcmCrypt k nonce (c.slice 20 212))

/-- Did the cell verify under the previous key alone (R574)? -/
def State.cellOld (s : State) (c : Bytes) : Bool :=
  let nonce := gcmNonce (s.uidAt (s.srcPosition (c.at 2))) (c.le 16 4)
  let e := s.engines[(0 : Fin 4)]
  let ok (k : Nat) : Bool := Config.gcmTag k nonce (c.slice 0 20) (c.slice 20 212) == c.le 232 16
  !e.cur.any ok && e.prev.any ok

/-- Is the cell addressed to this node, or broadcast (R106)? -/
def State.cellForMe (s : State) (c : Bytes) : Bool :=
  c.at 4 == 0xFF || (c.at 4 == s.cellAddr && c.at 4 != 0 && (c.at 5 == 0xFF || c.at 5 == s.get STK.STAT.SUB))

/-- Put a fragment into its message; all fragments in place up to LAST deliver it (R107). -/
def State.reassemble (s : State) (c : Bytes) (payload : List Nat) : State × Option Message :=
  let kind := c.at 0 % 32
  let srcPos := c.at 2
  let srcSub := c.at 3
  let id := c.le 14 2
  let frag := c.le 10 2 % 256
  let lastHere := bit (c.le 10 2) 15
  let same (p : Partial) : Bool := p.srcPos == srcPos && p.srcSub == srcSub && p.msgId == id
  let cur : Partial := match s.ring.partials.find? same with
    | some p => p
    | none => ⟨srcPos, srcSub, id, kind, [], none, 0⟩
  let cur := { cur with
    frags := Sparse.insert (Sparse.erase cur.frags frag) frag (payload.take (c.le 8 2)), idle := 0,
    lastFrag := if lastHere then some frag else cur.lastFrag }
  let rest := s.ring.partials.filter (fun p => !same p)
  match cur.lastFrag with
  | some n =>
    if cur.frags.length = n + 1 then
      ({ s with ring := { s.ring with partials := rest } },
        some ⟨kind, srcPos, srcSub, cur.frags.flatMap (·.2)⟩)
    else ({ s with ring := { s.ring with partials := rest ++ [cur] } }, none)
  | none => ({ s with ring := { s.ring with partials := rest ++ [cur] } }, none)

/-- A cell that failed its tag (R106, R579): discarded and counted, SEC_AUTH_FAIL raised. -/
def State.ringAuthFail (s : State) : State :=
  (s.count SEC.AUTH_FAIL.RING 1).evt SEC.EVT.AUTH_FAIL 1 Src.SEC_AUTH_FAIL

/-- A reader handles one cell (R106, R107): checked, decrypted, duplicates discarded, reassembled; a whole message raises
RING_MSG_RX. The generation of a layout cell becomes G (R574). -/
def State.readCell (s : State) (c : Bytes) : State × Option Message :=
  if c.le 252 4 != crc32c (c.slice 0 252) then (s.count RING.CELL_ERR.CHK 1, none)
  else
    let st := c.at 0 / 64
    let kind := c.at 0 % 32
    if !(st == 1 || st == 2) || c.le 12 2 != s.get RING.ENG_STAT.TOPO || !s.cellForMe c || kind == 0 then (s, none)
    else if 7 ≤ kind || (s.encRequired kind && !bit (c.at 0) 5) then (s.count RING.CELL_ERR.KIND 1, none)
    else
      let key := (c.at 2, c.at 3, c.le 6 2)
      let plain := if bit (c.at 0) 5 then s.openCell c else some (c.slice 20 212)
      match plain with
      | none => ((s.count RING.CELL_ERR.TAG 1).ringAuthFail, none)
      | some payload =>
        if s.ring.seen.any (fun e => (e.1, e.2.1, e.2.2.1) == key) then (s.count RING.CELL_RX.DUP 1, none)
        else
          let s := s.count RING.CELL_RX.DELIVERED 1
          let s := if kind == Kind.layout && bit (c.at 0) 5 then s.setGen (s.cellOld c) else s
          let s := { s with ring := { s.ring with seen := s.ring.seen ++ [(key.1, key.2.1, key.2.2, 0)] } }
          let (s, m) := s.reassemble c payload
          match m with
          | some m => (s.pendDirect Src.RING_MSG_RX INTC.MISS.MSG_RX, some m)
          | none => (s, none)

/-- REASM_TIMEOUT (R107): a partial message is discarded and counted. -/
def execReasmTimeout (srcPos srcSub msgId : Nat) (s : State) : Host.Outcome State Fault Refusal :=
  let hit (p : Partial) : Bool := p.srcPos == srcPos && p.srcSub == srcSub && p.msgId == msgId
  .next (if s.ring.partials.any hit then
      let s := s.count RING.CELL_ERR.REASM 1
      { s with ring := { s.ring with partials := s.ring.partials.filter (fun p => !hit p) } }
    else s)

/-- At each tick the staged cells and the CSEQ memory age; CSEQ values are kept 32 ticks (R105, R107). -/
def State.tickCells (s : State) : State :=
  let older (q : List StagedCell) := q.map (fun c => { c with age := c.age + 1 })
  { s with ring := { s.ring with
      cellsA := older s.ring.cellsA, cellsB := older s.ring.cellsB,
      seen := (s.ring.seen.map (fun e => (e.1, e.2.1, e.2.2.1, e.2.2.2 + 1))).filter (fun e => decide (e.2.2.2 < 32)),
      partials := s.ring.partials.map (fun p => { p with idle := p.idle + 1 }) } }

/-- A change of the topology counter discards every partial message, and counts each (R107). -/
def State.dropPartials (s : State) : State :=
  let s := s.count RING.CELL_ERR.REASM s.ring.partials.length
  { s with ring := { s.ring with partials := [] } }

end Sys2Proof.Machine
end

