-- ==== Sys2Proof/Machine/Inaug.lean ====
section
/-! DEFINITION. Inauguration at the master and at a node (chapter 04): the counting pass, claims and admission, the layout
image, the switch, fast shrink and forming. -/

namespace Sys2Proof.Machine

/-! ## The layout image (R130) -/

/-- The 24 bytes of a node-table entry. -/
def LayoutPos.bytes (q : LayoutPos) (pos : Nat) : List Nat :=
  leBytes 8 q.uid.toNat ++ leBytes 8 q.twinUid.toNat ++
  [q.hopIdx, pos, b2n q.orient + 2 * q.role + 8 * b2n q.twin + 16 * q.members + 64 * b2n q.sync.isSome + 128 * b2n q.noSlot,
   match q.sync with | some e => e + 128 | none => 0] ++ leBytes 4 q.hopPs

/-- The rows of an ownership table, 4 bytes each: the unowned rows read 0xFF. -/
def ownTable (n : Nat) (rows : List OwnRow) (b : Bytes) (base : Nat) : Bytes :=
  (List.range n).foldl (fun acc i =>
    match rows.find? (fun r => r.index == i) with
    | some r => acc.setSlice (base + 4 * i) ((r.pos - 1) :: leBytes 3 r.stream)
    | none => acc.setAt (base + 4 * i) 0xFF) b

/-- The first 4,092 bytes of the layout image. -/
def Layout.body (l : Layout) : Bytes :=
  let b := ((((Bytes.setLe [] 0 2 1).setLe 2 2 l.topo).setLe 4 2 l.version).setLe 6 2 l.epoch).setLe 8 8 l.masterUid.toNat
  let b := (((b.setAt 16 l.size).setAt 17 (match l.pos 1 with | some q => q.hopIdx | none => 0)).setLe 18 2 l.flags).setLe 20 4 l.policy
  let b := (List.range l.size).foldl (fun acc i =>
    match l.pos (i + 1) with
    | some q => (acc.setSlice (64 + 24 * i) (q.bytes (i + 1))).setAt (3392 + i) q.rank
    | none => acc) b
  ownTable 128 l.units (ownTable 512 l.wafers b 832) 2880

/-- LCHK: CRC-32C over bytes 0 to 4,091 (R130). -/
def Layout.lchk (l : Layout) : Nat := crc32c (l.body.slice 0 4092)

/-- The whole image. -/
def Layout.image (l : Layout) : Bytes := l.body.setLe 4092 4 l.lchk

/-- Read the owned rows of a table of an image. -/
def readTable (b : Bytes) (base n : Nat) : List OwnRow :=
  (List.range n).filterMap (fun i =>
    let a := base + 4 * i
    if b.at a = 0xFF then none else some ⟨i, b.at a + 1, b.le (a + 1) 3⟩)

/-- Read a layout image whose LCHK is right (R131). -/
def Layout.ofImage (b : Bytes) : Option Layout :=
  if b.le 4092 4 != crc32c (b.slice 0 4092) || b.le 0 2 != 1 then none
  else some {
    topo := b.le 2 2, version := b.le 4 2, epoch := b.le 6 2, masterUid := BitVec.ofNat 64 (b.le 8 8),
    policy := b.le 20 4, flags := b.le 18 2,
    positions := (List.range (min (b.at 16) 32)).map (fun i =>
      let a := 64 + 24 * i
      let fl := b.at (a + 18)
      { uid := BitVec.ofNat 64 (b.le a 8), twinUid := BitVec.ofNat 64 (b.le (a + 8) 8), hopIdx := b.at (a + 16),
        orient := bit fl 0, role := fl / 2 % 4, twin := bit fl 3, members := fl / 16 % 4, noSlot := bit fl 7,
        sync := if bit (b.at (a + 19)) 7 then some (b.at (a + 19) % 8) else none,
        hopPs := b.le (a + 20) 4, rank := b.at (3392 + i) % 16 }),
    wafers := readTable b 832 512, units := readTable b 2880 128 }

/-- Is some owned stream identifier bound to two rows (R660)? -/
def dupStream : List OwnRow → Bool
  | [] => false
  | r :: t => t.any (fun q => q.stream == r.stream) || dupStream t

/-- An image that binds a stream to two wafers or two units is invalid (R660). -/
def Layout.valid (l : Layout) : Bool := !dupStream l.wafers && !dupStream l.units

/-! ## Applying a layout (R110, R133) -/

/-- The bit map, in 32-bit words from word 0, of a list of indexes. -/
def mapWord (ix : List Nat) (m : Nat) : Nat :=
  ix.foldl (fun acc i => if i / 32 = m then setBit acc (i % 32) else acc) 0

/-- Write the ownership registers for the bytes that position `p` owns (R110). -/
def State.setOwnership (s : State) (l : Layout) (p : Nat) : State :=
  let own := l.owns p
  let w := if own then l.wafersOf p else []
  let u := if own then l.unitsOf p else []
  let s := (List.range 16).foldl (fun s m => s.set (RING.WAFER_OWN.OWN m) (mapWord w m)) s
  let s := (List.range 4).foldl (fun s m => s.set (RING.PU_OWN.OWN m) (mapWord u m)) s
  let s := ((s.setFlag RING.OWN_CNT.CTRL own).set RING.OWN_CNT.UNITS u.length).set RING.OWN_CNT.WAFERS w.length
  match (if own then (l.pos p).bind (·.sync) else none) with
  | some e => (s.setFlag RING.SYNC_OWN.SYNC_NODE true).set RING.SYNC_OWN.ENTRY e
  | none => (s.setFlag RING.SYNC_OWN.SYNC_NODE false).set RING.SYNC_OWN.ENTRY 0

/-- Every node writes the hop delays at the switch tick (R123, R658): units of 10 ps; the last hop into a silent end node
is not valid. -/
def State.setHops (s : State) (l : Layout) : State :=
  (List.range 31).foldl (fun s i =>
    match l.pos (i + 1), l.pos (i + 2) with
    | some q, some r =>
      let endSilent := i + 2 = l.size && r.noSlot || i = 0 && q.noSlot
      (s.setFlag (RING.HOPDLY.VALID (i + 1)) (!endSilent)).set (RING.HOPDLY.DELAY (i + 1)) (if endSilent then 0 else q.hopPs / 10)
    | _, _ => (s.setFlag (RING.HOPDLY.VALID (i + 1)) false).set (RING.HOPDLY.DELAY (i + 1)) 0) s

/-- The position of each sync entry's writer (SYNC.ENT_STATe.POS). -/
def State.setEntryPos (s : State) (l : Layout) : State :=
  (List.range 8).foldl (fun s e =>
    let p := match l.positions.findIdx? (fun q => q.sync == some e) with | some i => i + 1 | none => 0
    s.set (SYNC.ENT_STAT.POS e) p) s

/-- The links of the count set enter the ring and their loopbacks open (R66, R133). -/
def State.openCountSet (s : State) : State :=
  ([0, 1, 2, 3] : List (Fin 4)).foldl (fun (s : State) (n : LinkIx) =>
    if bit s.inaug.countSet n.val && s.linkState n == Lk.qualified then
      (s.linkTo n Lk.inRing).setFlag (RING.LINKSTAT.LOOP n) false
    else s) s

/-- Lane roles (R49, R201): at the master both receive lanes are back lanes; elsewhere the lane of the port that faces the
master is the out lane. `foreFaces`: the Fore port faces the master. -/
def State.setLaneRoles (s : State) (foreFaces : Bool) : State :=
  ([0, 1, 2, 3] : List (Fin 4)).foldl (fun (s : State) (n : LinkIx) =>
    if s.inRing n then
      let fore := decide (n.val < 2)
      s.setFlag (RING.LINKSTAT.ROLE n) (s.isMaster || fore != foreFaces)
    else s) s

/-- Does the node's Fore port face the master? A node with ORIENT 0 has its Fore port towards position 1 (R129). -/
def foreFacesMaster (orient : Bool) (me master : Nat) : Bool := if master < me then !orient else orient

/-- The role register values that a layout gives the node at position `p` (R49, R99, R100, R129). -/
def State.takeRole (s : State) (l : Layout) (p : Nat) : State :=
  match l.pos p with
  | none => ((s.set RING.ENG_STAT.ROLE 0).set RING.ENG_STAT.POSITION 0).setFlag RING.ENG_STAT.RELAY false
  | some q =>
    let m := l.masterPos
    let twoArms := decide (1 < m) && decide (m < l.size)
    let masterFore1 := match l.pos m with | some r => !r.orient | none => true
    let firstArm := if masterFore1 then decide (p < m) else decide (m < p)
    let s := ((s.set RING.ENG_STAT.ROLE q.role).set RING.ENG_STAT.POSITION p).setFlag RING.ENG_STAT.ORIENT q.orient
    let s := s.setFlag RING.ENG_STAT.RELAY (twoArms && (p == m || firstArm))
    s.setLaneRoles (foreFacesMaster q.orient p m)

/-- Is candidate `a` better than `b`: higher rank, then lower UID (R141, R195)? -/
def betterRank (ra : Nat) (ua : DWord) (rb : Nat) (ub : DWord) : Bool :=
  decide (rb < ra) || (ra == rb && decide (ua.toNat < ub.toNat))

/-- The designated standby (R195): among the admitted candidates other than the master, the best. -/
def Layout.standby (l : Layout) : Option LayoutPos :=
  (l.positions.filter (fun q => q.role == 1 && q.rank != 0)).foldl (fun b q =>
    match b with
    | none => some q
    | some x => if betterRank q.rank q.uid x.rank x.uid then some q else b) none

/-- The registers that follow from the layout's roles (R195, R210): MROLE and the standby's UID. -/
def State.updateMrole (s : State) : State :=
  match s.layout? with
  | none => ((s.set RED.STAT.MROLE (if s.isMaster then 1 else 0)).set RED.STANDBY_LO.UID 0).set RED.STANDBY_HI.UID 0
  | some l =>
    let sb := l.standby
    let sbUid : DWord := match sb with | some q => q.uid | none => 0
    let mine := match l.pos (l.posOf s.uid) with | some q => q.role == 1 && q.rank != 0 | none => false
    let mrole := if s.isMaster then 1 else if sb.isSome && sbUid == s.uid then 2 else if mine then 3 else 0
    (s.set RED.STAT.MROLE mrole).set64 RED.STANDBY_LO.UID RED.STANDBY_HI.UID sbUid.toNat

/-- The forwarding latencies of the layout's positions, from the claim slots, else as known by UID before (R165). -/
def State.latencies (s : State) (l : Layout) : List (Nat × Nat) :=
  (List.range l.size).filterMap (fun i =>
    match l.pos (i + 1) with
    | none => none
    | some q =>
      match s.inaug.slots.find? (fun x => x.hop == q.hopIdx && x.uid == q.uid) with
      | some x => some (i + 1, x.ptOut)
      | none =>
        let oldPos := match s.layout? with | some o => o.posOf q.uid | none => 0
        (s.clk.ptOut.find? (fun e => e.1 == oldPos && oldPos != 0)).map (fun e => (i + 1, e.2)))

/-- Put a layout in force (R133): TOPO, LAYOUT, role, ownership, hop delays; partial messages end with the old topology
counter (R107); process units of other owners start from zero (R88). -/
def State.applyLayout (s : State) (l : Layout) : State :=
  let topoChanged := l.topo != s.get RING.ENG_STAT.TOPO
  let s := if topoChanged then s.dropPartials else s
  let old := s.layout?
  let moved := l.units.filter (fun r =>
    match old with
    | some o => match o.units.find? (fun x => x.index == r.index) with
      | some x => (match o.pos x.pos, l.pos r.pos with | some a, some b => a.uid != b.uid | _, _ => true)
      | none => true
    | none => true)
  let s := { s with
    clk := { s.clk with
      ptOut := s.latencies l, entries := List.replicate 8 ⟨0, 0⟩, tickDev := [], roundVoid := true },
    red := { s.red with noEntryZero := false, handover := none } }
  let s := { s with ring := { s.ring with
    layout := some l, followUid := l.masterUid, followEpoch := l.epoch, departed := 0, ends := [],
    staging := [], stagingDone := false, decision := none, lastWritten := none,
    lastPdata := moved.foldl (fun (b : Bytes) (r : OwnRow) => b.clear (unitOff r.index) 16) s.ring.lastPdata } }
  let s := (s.set RING.ENG_STAT.TOPO l.topo).set RING.LAYOUT.LAYOUT_VER l.version
  let p := l.posOf s.uid
  let s := (((s.takeRole l p).setOwnership l p).setHops l).setEntryPos l
  let s := (s.set RED.EPOCH.FOLLOWED l.epoch).set64 RED.MASTER_LO.UID RED.MASTER_HI.UID l.masterUid.toNat
  let s := if s.get SYNC.STAT.STATE == 3 && !s.flag RING.SYNC_OWN.SYNC_NODE then s.set SYNC.STAT.STATE 2
    else if s.get SYNC.STAT.STATE == 2 && s.flag RING.SYNC_OWN.SYNC_NODE then s.set SYNC.STAT.STATE 3 else s
  (s.set RED.HANDOVER.TSEQ 0).updateWriteEn.updateMrole

/-! ## The counting pass (R115 to R121) -/

/-- Is topology counter `a` later than `b` (R137)? -/
def topoLater (a b : Nat) : Bool :=
  let d := (a + 2 ^ 16 - b) % 2 ^ 16
  decide (1 ≤ d) && decide (d ≤ 2 ^ 15 - 1)

/-- The later of two 16-bit counters (R137). -/
def laterOf (a b : Nat) : Nat := if topoLater a b then a else b

/-- NEW_TOPO (R137): the later of the running and the saved TOPO, plus 1. -/
def State.newTopo (s : State) : Nat := (laterOf (s.get RING.ENG_STAT.TOPO) s.dring.topo + 1) % 2 ^ 16

/-- NEW_LAYOUT (R137): the running version plus 1, which skips 0. -/
def State.newLayout (s : State) : Nat :=
  let v := (s.get RING.LAYOUT.LAYOUT_VER + 1) % 2 ^ 16
  if v = 0 then 1 else v

/-- May a QUALIFIED link join the count set (R114, R115): the partner is FREE, FORMING, or RUNNING under the node's own
master and epoch? -/
def State.eligible (s : State) (n : Nat) : Bool :=
  s.linkState n == Lk.qualified &&
  match s.inaug.partners.find? (fun p => p.1 == n) with
  | some (_, r) => r.hsState == Hs.free || r.hsState == Hs.forming ||
      (r.hsState == Hs.running && r.master == s.ring.followUid && r.epoch == s.ring.followEpoch)
  | none => false

/-- The count set: the bit map of the eligible links. -/
def State.freezeCountSet (s : State) : Nat :=
  (List.range 4).foldl (fun m n => if s.eligible n then setBit m n else m) 0

/-- Launch COUNT frames: freeze the count set, set NEW_TOPO, raise RING_INAUG_START (R115, R156). -/
def State.startCount (s : State) (newTopo newLayout : Nat) : State :=
  let s := s.toPhase Phase.count
  let s := (s.set RING.PEND.NEW_TOPO newTopo).set RING.PEND.NEW_LAYOUT newLayout
  let s := s.evt RING.INAUG_EVT.START 1 Src.RING_INAUG_START
  { s with inaug := { s.inaug with
      countSet := s.freezeCountSet, inaugTseq := (s.tickSeq + 1) % 2 ^ 32, iround := 0, prevA := 0, prevB := 0,
      agreedA := 0, agreedB := 0, slots := [], admissions := [], image := none, acked := [],
      excluded := 0, trigger := false } }

/-- INAUG_SETTLE_END (R115, R156): the settle condition holds; not before a frame launched after a loss has returned. -/
def execInaugSettleEnd (s : State) : Host.Outcome State Fault Refusal :=
  .next (if s.isMaster && s.phase == Phase.settle && s.decikRuns && !s.inaug.lossWait then
      s.startCount s.newTopo s.newLayout
    else s)

/-- The counts are in (R120): above 32 the extension links leave the count set and the master counts again; else the
acquire phase begins. -/
def State.countAgreed (s : State) : State :=
  let n := max s.inaug.agreedA s.inaug.agreedB
  if 32 < n then
    let s := (s.post Evt.TOO_MANY_POSITIONS 0 [n]).evt RING.INAUG_EVT.TOO_MANY 1 Src.RING_INAUG_DONE
    let s := s.toPhase Phase.count
    { s with inaug := { s.inaug with countSet := 0, prevA := 0, prevB := 0, agreedA := 0, agreedB := 0 } }
  else
    s.toPhase Phase.acquire

/-- A COUNT frame's final return on a line (R118, R120): two equal counts in a row agree. -/
def State.countReturn (s : State) (l : Line) (n : Nat) : State :=
  let prev := match l with | .a => s.inaug.prevA | .b => s.inaug.prevB
  let hit := prev == n && n != 0
  let s := if hit then s.set (match l with | .a => RING.INAUG_STAT.COUNT_A | .b => RING.INAUG_STAT.COUNT_B) (n % 64) else s
  let s := { s with inaug := match l with
    | .a => { s.inaug with prevA := n, agreedA := if hit then n else s.inaug.agreedA }
    | .b => { s.inaug with prevB := n, agreedB := if hit then n else s.inaug.agreedB } }
  let needA := s.lineCarries .a
  let needB := s.lineCarries .b
  if (s.inaug.agreedA != 0 || s.inaug.agreedB != 0) && (!needA || s.inaug.agreedA != 0) && (!needB || s.inaug.agreedB != 0)
  then s.countAgreed else s

/-- COUNT_TIMEOUT (R120): 8 ticks after the first COUNT frame the lines agreed by then decide, or the master abandons. -/
def execCountTimeout (s : State) : Host.Outcome State Fault Refusal :=
  .next (if s.launches && s.phase == Phase.count then
      if s.inaug.agreedA != 0 || s.inaug.agreedB != 0 then s.countAgreed else s.inaugAbandon
    else s)

/-- CLAIM_PAIR_LAUNCH (R125): a pair of CLAIM frames; the first enters the claim phase. -/
def execClaimPairLaunch (s : State) : Host.Outcome State Fault Refusal :=
  .next (if s.launches && (s.phase == Phase.acquire || s.phase == Phase.claim) then
      let s := if s.phase == Phase.acquire then s.set RING.INAUG_STAT.PHASE Phase.claim else s
      { s with inaug := { s.inaug with iround := min (s.inaug.iround + 1) 255, claimPair := 2 } }
    else s)

/-! ## Admission (R127) -/

/-- The hop indexes counted. -/
def State.countedHops (s : State) : List Nat :=
  (List.range (max s.inaug.agreedA s.inaug.agreedB)).map (· + 1)

/-- The outcome of a hop index: the first condition that holds, in the order of R127. -/
def admissionOf (slots : List SlotRec) (missing : List Nat) (h : Nat) : Admission :=
  match slots.find? (fun x => x.hop == h) with
  | none => .noSlot
  | some x =>
    if bit x.mflags 6 then .noCtrl
    else if !x.tagOk then .tagWrong
    else if slots.any (fun y => y.hop != h && y.tagOk && y.uid == x.uid) then .duplicate
    else if missing.contains h then .claimMissing
    else .admitted

/-- What R127 records for an outcome. -/
def State.recordAdmission (s : State) (h : Nat) (a : Admission) : State :=
  let uid := match s.inaug.slots.find? (fun x => x.hop == h) with | some x => x.uid | none => 0
  let cid := match s.inaug.slots.find? (fun x => x.hop == h) with | some x => x.claimId | none => 0
  match a with
  | .admitted => s
  | .noCtrl => s
  | .tagWrong =>
    ((s.post Evt.AUTH_REJECTED (h - 1) (leBytes 8 uid.toNat)).evt RING.INAUG_EVT.AUTH_REJECT 1 Src.RING_INAUG_DONE).ringAuthFail
  | .noSlot => (s.post Evt.AUTH_REJECTED (h - 1) (leBytes 8 0)).evt RING.INAUG_EVT.AUTH_REJECT 1 Src.RING_INAUG_DONE
  | .duplicate =>
    let firstOfPair := !(s.inaug.slots.any (fun y => y.hop < h && y.tagOk && y.uid == uid))
    let s := s.set64 RING.DUP_UID_LO.UID RING.DUP_UID_HI.UID uid.toNat
    let s := s.evt RING.INAUG_EVT.DUP_UID 1 Src.RING_INAUG_DONE
    if firstOfPair then s.post Evt.DUPLICATE_UID 0 (leBytes 8 uid.toNat) else s
  | .claimMissing => s.post Evt.CLAIM_MISSING (h - 1) (leBytes 4 cid)

/-- CLAIM_WINDOW_END (R125 to R127, R130, R574): tags are verified, which sets G, and the claim tables not cached are
requested. -/
def execClaimWindowEnd (s : State) : Host.Outcome State Fault Refusal :=
  .next (if s.launches && s.phase == Phase.claim then
      let s := s.toPhase Phase.compute
      let fresh := s.inaug.slots.filter (fun x => !s.inaug.claimIds.any (fun e => e.1 == x.uid.toNat))
      let ids := s.inaug.claimIds ++ fresh.map (fun x => (x.uid.toNat, x.claimId))
      let s := { s with inaug := { s.inaug with claimIds := ids } }
      let s := s.setGen (s.inaug.slots.any (fun x => x.tagOk && x.tagOld))
      let wanted := s.inaug.slots.filter (fun x => x.tagOk && !bit x.mflags 6 && !s.inaug.claimCache.contains x.claimId)
      wanted.foldl (fun s x => s.stageMessage Kind.inaug x.hop 0xFF (2 :: leBytes 4 x.claimId)) s
    else s)

/-! ## The layout (R123, R128 to R130, R658) -/

/-- The nodes in train order (R128): first arm in descending hop index, the master, the second arm ascending. -/
def trainOrder (arm1End count : Nat) : List Nat :=
  let first := (List.range (arm1End - 1)).map (fun i => arm1End - i)
  first ++ [1] ++ (List.range (count - max arm1End 1)).map (fun i => max arm1End 1 + 1 + i)

/-- The slot of a hop index. -/
def slotOf (slots : List SlotRec) (h : Nat) : Option SlotRec := slots.find? (fun x => x.hop == h)

/-- The delay in ps of the hop from hop index `h` outward (R123), from UI of 320 ps; a silent neighbour shares the span of
R658 over its two hops. -/
def hopDelay (slots : List SlotRec) (h : Nat) : Nat :=
  match slotOf slots h, slotOf slots (h + 1) with
  | some x, some y => ((x.loopUi : Int) - y.loopUi - x.ptOut - y.ptBack).toNat * 320 / 2
  | some x, none => match slotOf slots (h + 2) with
    | some z => ((x.loopUi : Int) - z.loopUi - x.ptOut - z.ptBack).toNat * 320 / 4
    | none => 0
  | none, some y => match slotOf slots (h - 1) with
    | some x => ((x.loopUi : Int) - y.loopUi - x.ptOut - y.ptBack).toNat * 320 / 4
    | none => 0
  | none, none => 0

/-- Which end is the reference end (R128): true where the train order is reversed, so that position 1 is its last node.
An active cab takes the nearer end; none takes the end that the master's Fore port faces. -/
def referenceReversed (slots : List SlotRec) (adm : Nat → Admission) (order : List Nat) : Bool :=
  let cabs := slots.filter (fun x => bit x.mflags 1 && adm x.hop == .admitted)
  match cabs with
  | [] => order.head? == some 1 && decide (1 < order.length)
  | c :: t =>
    let best := t.foldl (fun b x => if x.uid.toNat < b.uid.toNat then x else b) c
    let i := order.findIdx (· == best.hop)
    let n := order.length
    if n - 1 - i = i then bit best.mflags 0 else decide (n - 1 - i < i)

/-- The layout that the plan and the slots give (R123, R127 to R130, R139). -/
def State.computeLayout (s : State) (plan : LayoutPlan) (epoch : Nat) : Layout :=
  let slots := s.inaug.slots
  let adm := admissionOf slots plan.missing
  let count := max (max s.inaug.agreedA s.inaug.agreedB) 1
  let order := trainOrder s.inaug.arm1End count
  let rev := referenceReversed slots adm order
  let order := if rev then order.reverse else order
  let mpos := order.findIdx (· == 1)
  let cabs := slots.filter (fun x => bit x.mflags 1 && adm x.hop == .admitted)
  let posOf (h : Nat) : Nat := order.findIdx (· == h) + 1
  let entry (i h : Nat) : LayoutPos :=
    let sl := slotOf slots h
    let facing := match sl with | some x => bit x.mflags 0 | none => false
    let next := order[i + 1]?
    let ps := match next with
      | none => 0
      | some k =>
        -- the hop between two neighbours in train order starts at the one nearer the master
        if h = 1 || k = 1 then hopDelay slots 1
        else hopDelay slots (min h k)
    { uid := match sl with | some x => x.uid | none => 0
      twinUid := match sl with | some x => x.twinUid | none => 0
      hopIdx := h
      orient := if h = 1 then decide (0 < mpos) && rev else if mpos < i then facing else !facing
      role := if h = 1 then 2 else if adm h == .admitted then 1 else 0
      twin := match sl with | some x => bit x.mflags 2 | none => false
      members := match sl with | some x => x.mflags / 8 % 4 | none => 0
      noSlot := sl.isNone
      sync := (plan.sync.find? (fun e => e.2 == h)).map (·.1)
      hopPs := ps
      rank := match sl with | some x => x.rank | none => 0 }
  { topo := s.get RING.PEND.NEW_TOPO, version := s.get RING.PEND.NEW_LAYOUT, epoch := epoch, masterUid := s.uid,
    policy := plan.policy, flags := b2n (decide (1 < cabs.length)) + 2 * b2n cabs.isEmpty,
    positions := (List.range order.length).map (fun i => entry i (order.getD i 0)),
    wafers := plan.wafers.map (fun r => ⟨r.1, posOf r.2.1, r.2.2⟩),
    units := plan.units.map (fun r => ⟨r.1, posOf r.2.1, r.2.2⟩) }

/-- The EPOCH the master launches under. -/
def State.ownEpoch (s : State) : Nat := s.ring.followEpoch

/-- COMPUTE_TIMEOUT (R130): more than 10 ms abandons the inauguration. -/
def execComputeTimeout (s : State) : Host.Outcome State Fault Refusal :=
  .next (if s.launches && s.phase == Phase.compute then s.inaugAbandon else s)

/-- LAYOUT_FRAGMENT_RESEND (R131): a fragment not acknowledged is sent again. -/
def execLayoutFragmentResend (frag : Nat) (s : State) : Host.Outcome State Fault Refusal :=
  .next (match s.phase == Phase.distribute, s.inaug.image with
    | true, some l =>
      match (chunks 212 256 (l.image.slice 0 4096))[frag]? with
      | some c => s.stageCell Kind.layout 0xFF 0xFF ((s.ring.msgId + 2 ^ 16 - 1) % 2 ^ 16) frag (frag == 19) false c
      | none => s
    | _, _ => s)

/-- DISTRIBUTE_END (R131, R132): the switch tick is announced; admitted hop indexes without an acknowledgement are excluded. -/
def execDistributeEnd (s : State) : Host.Outcome State Fault Refusal :=
  .next (if s.launches && s.phase == Phase.distribute then
      let late := s.inaug.admissions.filter (fun e => e.2 == .admitted && !s.inaug.acked.contains e.1)
      let map := late.foldl (fun m e => setBit m (e.1 - 1)) 0
      let s := s.toPhase Phase.announced
      let sw := (s.tickSeq + 1 + s.get RING.INAUG_CFG.SWITCH_LEAD) % 2 ^ 32
      let s := (s.setFlag RING.INAUG_STAT.SW_PEND true).set RING.SWITCH_TSEQ.TSEQ sw
      let s := if s.red.handover.isSome then s.set RED.HANDOVER.TSEQ sw else s
      { s with
        ring := { s.ring with topoChg := false },
        inaug := { s.inaug with excluded := map, announced := true } }
    else s)

/-- INAUG_BACKOFF_EXPIRY (R156): the 100 ms wait ends; a waiting trigger acts. -/
def execInaugBackoffExpiry (s : State) : Host.Outcome State Fault Refusal :=
  let s := { s with inaug := { s.inaug with backoff := false } }
  .next (if s.inaug.trigger then s.inaugTrigger else s)

/-! ## The switch (R133 to R138) -/

/-- After the switch: events, the save to come, a waiting trigger (R133, R138, R155). -/
def State.switchDone (s : State) (oldMaster : DWord) : State :=
  let s := (s.evt RING.INAUG_EVT.DONE 1 Src.RING_INAUG_DONE).count RING.INAUG_CNT.COMPLETED 1
  let s := if s.ring.followUid != oldMaster then s.pendDirect Src.RING_MASTER_CHANGE INTC.MISS.MASTER else s
  let s := if s.isMaster then s.set RING.INAUG_TIME.LIVE_TICKS (min (s.decik.upTicks - s.inaug.qualAt) 0xFFFF) else s
  let m := s.inaug.merge
  let merged := m.phase == .d || m.phase == .f
  let s := if merged then
      let s := (s.evt RING.INAUG_EVT.MERGE 1 Src.RING_INAUG_DONE).set RING.MERGE_STAT.RESULT (if m.winner then 1 else 2)
      { s with inaug := { s.inaug with
          verify := if m.winner then 2 else 0,
          merge := { MergeSt.idle with link := m.link, muted := m.muted, rise := m.rise } } }
    else s
  let again := s.inaug.trigger
  let s := (s.inaugForget.toPhase Phase.idle).set RING.INAUG_STAT.ISTATE Hs.running
  let s := { s with
    dring := { s.dring with saveDue := true },
    inaug := { s.inaug with abandons := 0, adopted := false, launching := false, formingWait := false, trigger := false } }
  if again then s.inaugTrigger else s

/-- The excluded nodes that a further inauguration may allow: at most once in 480,000 ticks for the same hop (R136). -/
def State.readmitNow (s : State) : Bool :=
  let lacking := (List.range 32).filter (fun h => bit s.inaug.excluded h)
  lacking.any (fun h => match s.inaug.readmit.find? (fun e => e.1 == h) with
    | some e => decide (e.2 + 480000 ≤ s.decik.upTicks)
    | none => true)

/-- The switch (R133, R136): a node with a checked image that saw the announcement applies it; a node without the
image, or excluded, takes the pass-through role under the new TOPO and LAYOUT; the count-set links go IN_RING; the master
starts a further inauguration for the nodes that lacked the image. -/
def State.layoutSwitch (s : State) : State :=
  if !s.flag RING.INAUG_STAT.SW_PEND && !s.inaug.announced then s
  else
    let oldMaster := s.ring.followUid
    let further := s.launches && s.readmitNow
    let lacking := (List.range 32).filter (fun h => bit s.inaug.excluded h)
    let s := if s.launches then
        let more := if further then lacking.map (fun h => (h, s.decik.upTicks)) else []
        { s with inaug := { s.inaug with readmit := s.inaug.readmit.filter (fun e => !lacking.contains e.1) ++ more } }
      else s
    let s := s.openCountSet
    let s := match s.inaug.image with
      | some l =>
        if s.inaug.excludedSelf || !l.valid then
          let s := (s.set RING.ENG_STAT.TOPO l.topo).set RING.LAYOUT.LAYOUT_VER l.version
          s.passThrough
        else s.applyLayout l
      | none =>
        let s := s.dropPartials
        let s := (s.set RING.ENG_STAT.TOPO (s.get RING.PEND.NEW_TOPO)).set RING.LAYOUT.LAYOUT_VER (s.get RING.PEND.NEW_LAYOUT)
        s.passThrough
    let s := s.switchDone oldMaster
    if further then s.inaugTrigger else s

/-- LAYOUT_SAVE (R138): layout, TOPO and epoch go to durable memory as a two-copy record with the next sequence number. -/
def execLayoutSave (s : State) : Host.Outcome State Fault Refusal :=
  .next (if s.dring.saveDue then
      let s := s.set RED.EPOCH.SAVED s.ring.followEpoch
      { s with dring := {
          layout := s.ring.layout, topo := s.get RING.ENG_STAT.TOPO, epoch := s.ring.followEpoch,
          seq := s.dring.seq + 1, saveDue := false } }
    else s)

/-- JOIN_DISCARD (R157): a joining node with no accepted frame for 8 ticks discards adopted state and is FREE. -/
def execJoinDiscard (s : State) : Host.Outcome State Fault Refusal :=
  .next (if s.inaug.adopted then
      let s := (s.inaugForget.toPhase Phase.idle).set RING.INAUG_STAT.ISTATE Hs.free
      let s := ((s.set RING.ENG_STAT.ROLE 3).set RING.ENG_STAT.TOPO 0).set RING.LAYOUT.LAYOUT_VER 0
      { s with
        inaug := { s.inaug with adopted := false, noFrame := 0 },
        ring := { s.ring with layout := none, followUid := 0, followEpoch := 0 } }
    else s)

/-! ## Forming and fast shrink (R140 to R145) -/

/-- May the node start as a forming candidate (R140, R143): a candidate with control, no INAUG frame for 8 ticks, no
RUNNING partner, no ring-hold, not in DUP_HOLD and not already in a ring? -/
def State.mayForm (s : State) : Bool :=
  s.get RING.INAUG_CFG.RANK != 0 && s.controls && decide (8 ≤ s.inaug.noFrame) && !s.inaug.ringHold &&
    s.istate != Hs.dupHold && s.istate != Hs.running && !s.inaug.partners.any (fun p => p.2.hsState == Hs.running)

/-- Start the wait of (16 − RANK) × 4 ticks (R140). -/
def State.formingStart (s : State) : State :=
  if s.mayForm && !s.inaug.formingWait && !s.inaug.launching then
    { s with inaug := { s.inaug with formingWait := true } }.set RING.INAUG_STAT.ISTATE Hs.forming
  else s

/-- A forming candidate stops launching (R141 to R143). -/
def State.stopForming (s : State) : State :=
  if s.inaug.launching && !s.isMaster then
    let s := s.inaugForget.toPhase Phase.idle
    { s with inaug := { s.inaug with launching := false, formingWait := false } }
  else s

/-- A duplicate UID at a candidate (R143): it stops, enters DUP_HOLD, records the UID. -/
def State.duplicateUid (s : State) : State :=
  let s := s.stopForming
  let s := (s.set RING.INAUG_STAT.ISTATE Hs.dupHold).set64 RING.DUP_UID_LO.UID RING.DUP_UID_HI.UID s.uid.toNat
  let s := s.evt RING.INAUG_EVT.DUP_UID 1 Src.RING_INAUG_DONE
  s.post Evt.DUPLICATE_UID 0 (leBytes 8 s.uid.toNat)

/-- Set the candidate rank, locked while the node is master or an inauguration runs; 0 ends DUP_HOLD. -/
def State.rankSet (s : State) (rank : Nat) : State :=
  if s.isMaster || s.phase != Phase.idle then s
  else
    let s := s.set RING.INAUG_CFG.RANK rank
    if rank = 0 && s.istate == Hs.dupHold then s.set RING.INAUG_STAT.ISTATE Hs.free else s

/-- RANK_WRITE (R143, R158). -/
def execRankWrite (rank : Fin 16) (s : State) : Host.Outcome State Fault Refusal :=
  .next (s.access RING.INAUG_CFG.off (fun s => s.rankSet rank.val))

/-- RING_HOLD_EXPIRE (R143): 100 ms without a ring-hold message lift the restraint on forming. -/
def execRingHoldExpire (s : State) : Host.Outcome State Fault Refusal :=
  .next (State.formingStart { s with inaug := { s.inaug with ringHold := false } })

/-- The map of positions of the layout that lie outside `[lo, hi]`. -/
def outsideMap (size lo hi : Nat) : Nat :=
  (List.range size).foldl (fun m i => if i + 1 < lo || hi < i + 1 then setBit m i else m) 0

/-- A fast shrink starts at the master (R145): frames t + 4 and t + 5 will carry FAST_SHRINK; the shrink tick is t + 6,
where the frame that showed the loss is t + 2. The ring engine does it without Decik (R659). -/
def State.shrinkStart (s : State) (seen departed : Nat) : State :=
  if s.inaug.shrink.isSome || departed = 0 then s
  else
    let tick := (seen + 4) % 2 ^ 32
    let topo := s.newTopo
    let s := (s.setFlag RING.INAUG_STAT.SW_PEND true).set RING.SWITCH_TSEQ.TSEQ tick
    let s := (s.set RING.PEND.NEW_TOPO topo).toPhase Phase.shrink
    { s with
      ring := { s.ring with topoChg := false },
      inaug := { s.inaug with shrink := some ⟨tick, topo, departed⟩ } }

/-- The fast shrink (R145): from the shrink tick on TOPO is NEW_TOPO, LAYOUT unchanged, and the departed positions'
regions are ignored; the master records FAST_SHRINK, and starts an inauguration where position 1 has departed. -/
def State.fastShrink (s : State) : State :=
  match s.inaug.shrink with
  | none => s
  | some r =>
    let s := s.dropPartials
    let s := s.set RING.ENG_STAT.TOPO r.topo
    let s := s.setFlag RING.INAUG_STAT.SW_PEND false
    let s := match s.ring.layout with
      | some l => { s with ring := { s.ring with layout := some { l with
          topo := r.topo,
          positions := (List.range l.positions.length).filterMap (fun i =>
            (l.positions[i]?).map (fun (q : LayoutPos) => if bit r.departed i then { q with role := 0, sync := none } else q)) } } }
      | none => s
    let s := if s.isMaster then s.post Evt.FAST_SHRINK 0 (leBytes 4 r.departed ++ leBytes 2 r.topo) else s
    let s := (s.evt RING.INAUG_EVT.SHRINK 1 Src.RING_INAUG_DONE).count RING.INAUG_CNT.COMPLETED 1
    let s := s.toPhase Phase.idle
    let s := { s with
      inaug := { s.inaug with shrink := none, lossWait := false },
      ring := { s.ring with departed := Nat.lor s.ring.departed r.departed, ends := [], decision := none, lastWritten := none },
      dring := { s.dring with saveDue := true } }
    if s.isMaster && (bit r.departed 0 || s.inaug.trigger) then s.inaugTrigger else s

end Sys2Proof.Machine
end

