-- ==== Sys2Proof/Machine/Sync.lean ====
section
/-! DEFINITION. Train time (chapter 05): node time and its steps, the deviations of sync entries, the averaging round, the
sync state, the media clock. Deviations and round results are kept in picoseconds; registers show 1/16 ns. -/

namespace Sys2Proof.Machine

/-! ## Arithmetic -/

/-- The nearest integer to `a / b`. -/
def roundDiv (a : Int) (b : Nat) : Int := (2 * a + b) / (2 * b)

/-- Picoseconds as a signed 32-bit register value in 1/16 ns, saturating. -/
def sixteenths (ps : Int) : Nat := ofSigned 32 (satSigned 32 (roundDiv (ps * 16) 1000))

/-- Picoseconds as signed nanoseconds, saturating at ±(2^31 − 1). -/
def satNs (ps : Int) : Int := max (-((2 ^ 31 - 1 : Nat) : Int)) (min (roundDiv ps 1000) ((2 ^ 31 - 1 : Nat) : Int))

/-! ## Node time (R160 to R162) -/

/-- Node time in ns at the current boundary or step. -/
def State.nodeNs (s : State) : Nat := s.clk.thirds / 3

/-- The tick length in thirds of a ns: 62,500 / 3 ns. -/
abbrev tickThirds : Nat := 62500

/-- A tick number after a step of the numbering. -/
def shiftTick (d : Int) (n : Nat) : Nat := ((n : Int) + d).toNat

/-- What the node holds by tick number moves with a step of the numbering (R162, R180): samples under way, playing voices and
generators. A schedule or gate list that waits takes the first cycle start at or after its moment. -/
def State.renumber (s : State) (d : Int) : State :=
  if d = 0 then s
  else
    let src (x : SourceSt) : SourceSt := { x with hist := x.hist.map (fun (e : Nat × Sample) => (shiftTick d e.1, e.2)) }
    let voice (x : Voice) : Voice := { x with
      start := if x.playing then shiftTick d x.start else x.start,
      stopAt := x.stopAt.map (fun (e : Nat × Nat) => (shiftTick d e.1, e.2)) }
    let gate (x : EthPort) : EthPort := { x with
      gateNext := x.gateNext.map (fun (e : GateList × Nat) =>
        (e.1, (shiftTick d e.2 + e.1.cycle - 1) / max e.1.cycle 1 * e.1.cycle)) }
    { s with
      aud := { s.aud with
        sources := s.aud.sources.map src,
        gens := s.aud.gens.map (fun (g : GenSt) => { g with start := shiftTick d g.start }) },
      vox := { s.vox with voices := s.vox.voices.map voice },
      can := { s.can with nextSched := s.can.nextSched.map (fun e => (e.1, shiftTick d e.2)) },
      eth := { s.eth with ports := s.eth.ports.map gate } }

/-- Set node time; ticks are renumbered with it (R162). -/
def State.setNodeTime (s : State) (thirds : Nat) : State :=
  let n := thirds / tickThirds
  let s := s.renumber ((n : Int) - (s.clk.n : Int))
  ({ s with clk := { s.clk with thirds := thirds, n := n, ringTime := true } }).set GLB.TICK_SEQ.SEQ (n % 2 ^ 32)

/-- Discard the round in progress; the next begins at the next 1 ms boundary (table "events during an averaging round"). -/
def State.discardRound (s : State) : State :=
  { s with clk := { s.clk with entries := List.replicate 8 ⟨0, 0⟩, tickDev := [], roundVoid := true } }

/-- A step of node time shortens or lengthens the TDM frame in which it falls, at every running port (R180, R221). -/
def State.tdmAdjustBy (s : State) (thirds : Int) : State :=
  if roundDiv (thirds * 512) tickThirds = 0 then s
  else (List.range 8).foldl (fun s n => if s.flag (AUD.TDM_STAT.RUN n) then s.count (AUD.TDM_STAT.ADJ_CNT n) 1 else s) s

/-- A step of node time (R173): by `thirds` of a ns; SYNC_STEP, STEP_CNT, STEP_LAST; the round in progress is discarded. -/
def State.stepTime (s : State) (thirds : Int) : State :=
  let s := s.tdmAdjustBy thirds
  let s := s.setNodeTime ((s.clk.thirds : Int) + thirds).toNat
  let s := (s.evt SYNC.EVT.STEP 1 Src.SYNC_STEP).count SYNC.CNT.STEP_CNT 1
  let s := s.set SYNC.STEP_LAST.STEP_NS (ofSigned 32 (satNs (thirds * 1000 / 3)))
  let s := s.discardRound
  { s with clk := { s.clk with stepped := true } }

/-! ## The sync state (R174 to R177) -/

/-- SYNC.STAT.STATE: 0 LOST, 1 ACQUIRING, 2 LOCKED, 3 LOCKED and holding a sync entry. -/
def State.syncState (s : State) : Nat := s.get SYNC.STAT.STATE

/-- Enter LOCKED: SYNC_LOCK, and writing resumes (R91, R174). -/
def State.enterLocked (s : State) : State :=
  let s := s.set SYNC.STAT.STATE (if s.flag RING.SYNC_OWN.SYNC_NODE then 3 else 2)
  let s := s.evt SYNC.EVT.LOCK 1 Src.SYNC_LOCK
  s.updateWriteEn

/-- Leave LOCKED for another state: writing stops (R87), SYNC_LOST is raised and recorded with its cause, the departure
counted (R174, R600). -/
def State.leaveLocked (s : State) (goal cause : Nat) : State :=
  let s := ((s.set SYNC.STAT.STATE goal).set SYNC.STAT.LOCK_CNT 0).setFlag SYNC.STAT.HOLDOVER false
  let s := (s.setFlag SYNC.STAT.WIDE false).count SYNC.CNT.LOST_CNT 1
  let s := s.evt SYNC.EVT.LOST 1 Src.SYNC_LOST
  (s.post Evt.SYNC_LOST 0 (leBytes 4 (ofSigned 32 (toSigned 32 (s.get SYNC.OFFSET.RESULT) / 16)) ++ [cause])).updateWriteEn

/-- A node that begins to launch as master, and a forming candidate, is LOCKED with lock count 48 (R174). -/
def State.lockAsMaster (s : State) : State :=
  let s := s.set SYNC.STAT.LOCK_CNT 48
  if s.inSync then s else s.enterLocked

/-- A join puts the node in ACQUIRING with its lock count at zero, whatever its state was (R124, R174). -/
def State.joinAcquire (s : State) : State :=
  if s.inSync then s.leaveLocked 1 0 else (s.set SYNC.STAT.STATE 1).set SYNC.STAT.LOCK_CNT 0

/-! ## Entry deviations (R165, R166) -/

/-- The deviation in ps of an entry (R166): the writer's estimate of the launch less the reader's. -/
def entryDeviation (timeNs outQ arrivalNs outR : Nat) : Int :=
  ((timeNs : Int) * 1000 - outQ) - ((arrivalNs : Int) * 1000 - outR)

/-- Is the sync entry in the bytes correct under SCHK, and VALID and IN_SYNC (R83, R166)? -/
def entryChecked (b : Bytes) (e : Nat) : Bool := b.le (syncOff e + 12) 4 == crc32c (b.slice (syncOff e) 12)
def entryUsable (b : Bytes) (e : Nat) : Bool := bit (b.at (syncOff e + 9)) 0 && bit (b.at (syncOff e + 9)) 1

/-- Add an accepted deviation to the round and to the tick's estimate. -/
def State.addDeviation (s : State) (e : Nat) (d : Int) : State :=
  let upd := (List.range s.clk.entries.length).filterMap (fun i =>
    (s.clk.entries[i]?).map (fun x => if i = e then ⟨x.sum + d, x.samples + 1⟩ else x))
  { s with clk := { s.clk with entries := upd, tickDev := s.clk.tickDev ++ [(e, d)] } }

/-- The copies of frame `tseq` that a line delivered. -/
def State.copiesOn (s : State) (l : Line) (tseq : Nat) : List RxCopy :=
  s.ring.rx.filter (fun c => c.tseq == tseq && c.line == l)

/-- The copy from which a position's bytes are read on a line: the out pass where it lies upstream, else the back pass
(R95); the master, and the end node, have one pass. -/
def passCopy (cs : List RxCopy) (up : Bool) : Option RxCopy :=
  match cs.find? (fun c => c.outPass == up) with
  | some c => some c
  | none => cs.head?

/-- Read one assigned entry of frame `tseq` (R83, R166): line A's copy where its SCHK is correct, else line B's. -/
def State.readEntry (s : State) (l : Layout) (tseq e q : Nat) : State :=
  let up := upstream s.position l.masterPos q
  let try_ (ln : Line) : Option (RxCopy × RxCopy) :=
    let cs := s.copiesOn ln tseq
    match passCopy cs up, passCopy cs true with
    | some c, some o => if entryChecked c.bytes e then some (c, o) else none
    | _, _ => none
  let got := match try_ .a with | some x => some x | none => try_ .b
  match got with
  | none => if (s.copiesOn .a tseq).isEmpty && (s.copiesOn .b tseq).isEmpty then s else s.count (SYNC.ENT_CNT.CHK_FAIL e) 1
  | some (c, o) =>
    if entryUsable c.bytes e then
      let arm2 := c.bytes.hArm2
      let mine := if s.isMaster then 0 else s.outOf l s.position arm2
      let tr := if s.isMaster then c.bytes.hLaunch else o.arrival
      s.addDeviation e (entryDeviation (c.bytes.le (syncOff e) 8) (s.outOf l q arm2) tr mine)
    else s

/-- Read the sync segment of frame `tseq` (R166): every entry assigned to another position. -/
def State.readSync (s : State) (tseq : Nat) : State :=
  match s.layout? with
  | none => s
  | some l => (List.range 8).foldl (fun s e =>
      let q := s.get (SYNC.ENT_STAT.POS e)
      if q = 0 || q = s.position then s else s.readEntry l tseq e q) s

/-- A joining node averages entry 0 alone, with OUT(r) = D (R124). -/
def State.readJoinEntry (s : State) (f : RxFrame) : State :=
  if entryChecked f.bytes 0 && entryUsable f.bytes 0 then
    s.addDeviation 0 (entryDeviation (f.bytes.le (syncOff 0) 8) 0 f.arrivalNs s.clk.joinD)
  else s

/-! ## The averaging round (R167 to R172) -/

/-- Insert into a list that rises in value; equal values keep their order. -/
def insertDev (x : Nat × Int) : List (Nat × Int) → List (Nat × Int)
  | [] => [x]
  | y :: t => if x.2 < y.2 then x :: y :: t else y :: insertDev x t

/-- The deviations in rising order. -/
def sortDevs (l : List (Nat × Int)) : List (Nat × Int) := l.foldl (fun acc x => insertDev x acc) []

/-- The discard count k for n entries (table of R168). -/
def discardCount (n : Nat) : Nat := if n ≤ 3 then 0 else if n ≤ 6 then 1 else 2

/-- The entries averaged: the k largest and the k smallest discarded (R168). -/
def keptDevs (l : List (Nat × Int)) : List (Nat × Int) :=
  let k := discardCount l.length
  ((sortDevs l).drop k).take (l.length - 2 * k)

/-- The mean of the entries averaged, in ps (R168). -/
def averageDevs (l : List (Nat × Int)) : Int :=
  let kept := keptDevs l
  roundDiv (kept.foldl (fun a x => a + x.2) 0) kept.length

/-- The entries taking part in the round (R167): accepted in at least 24 frames; the node's own counts with deviation 0. -/
def State.roundEntries (s : State) : List (Nat × Int) :=
  let own := s.get RING.SYNC_OWN.ENTRY
  (List.range 8).filterMap (fun e =>
    if s.clk.ownAtStart && e = own then some (e, 0)
    else match s.clk.entries[e]? with
      | some x => if 24 ≤ x.samples then some (e, roundDiv x.sum x.samples) else none
      | none => none)

/-- Show the round's entries in SYNC.ENT_DEVe and ENT_STATe. -/
def State.showEntries (s : State) (part kept : List (Nat × Int)) : State :=
  let own := s.get RING.SYNC_OWN.ENTRY
  let isOwn := s.clk.ownAtStart
  (List.range 8).foldl (fun s e =>
    let n := match s.clk.entries[e]? with | some x => min x.samples 48 | none => 0
    let s := s.set (SYNC.ENT_STAT.SAMPLES e) n
    match part.find? (fun x => x.1 == e) with
    | none => (s.set (SYNC.ENT_DEV.DEV e) 0).set (SYNC.ENT_STAT.STATUS e) 0
    | some x =>
      let st := if isOwn && e = own then 3 else if kept.any (fun y => y.1 == e) then 1 else 2
      (s.set (SYNC.ENT_DEV.DEV e) (sixteenths x.2)).set (SYNC.ENT_STAT.STATUS e) st) s

/-- Outliers (R170): an entry of the round that differs from its result by more than OUTLIER_NS. -/
def State.markOutliers (s : State) (part : List (Nat × Int)) (result : Int) : State :=
  let lim : Int := (s.clk.cfg.outlierNs : Int) * 1000
  (List.range 8).foldl (fun s e =>
    match part.find? (fun x => x.1 == e) with
    | some x =>
      if lim < x.2 - result || x.2 - result < -lim then
        ((s.setFlag (SYNC.ENT_STAT.OUTLIER e) true).count (SYNC.ENT_CNT.OUTLIER_CNT e) 1).evtBit SYNC.OUTLIER_EVT.EVT e
          Src.SYNC_FTA_REJECT
      else s.setFlag (SYNC.ENT_STAT.OUTLIER e) false
    | none => s.setFlag (SYNC.ENT_STAT.OUTLIER e) false) s

/-- The rate update (R172): RATE plus round(result × 1,000 / 2^RG_SHIFT) ppb, held at ±250,000 with RATE_CLAMP. -/
def State.updateRate (s : State) (result : Int) : State :=
  let sh := max s.clk.cfg.rgShift 1
  let raw := toSigned 32 (s.get SYNC.RATE.PPB) + roundDiv result (2 ^ sh)
  let lim := max (-250000) (min raw 250000)
  (s.set SYNC.RATE.PPB (ofSigned 32 lim)).setFlag SYNC.STAT.RATE_CLAMP (lim != raw)

/-- |result| exceeds a bound in ns. -/
def beyond (ps : Int) (ns : Nat) : Bool := decide ((ns : Int) * 1000 < ps) || decide (ps < -((ns : Int) * 1000))

/-- A round with entries (R168 to R174). -/
def State.roundResult (s : State) (part : List (Nat × Int)) : State :=
  let kept := keptDevs part
  let result := averageDevs part
  let s := (s.showEntries part kept).markOutliers part result
  let s := ((s.set SYNC.STAT.N part.length).set SYNC.STAT.K (discardCount part.length)).set SYNC.OFFSET.RESULT (sixteenths result)
  let s := { s with clk := { s.clk with noEntryRounds := 0 } }
  let s := s.setFlag SYNC.STAT.HOLDOVER false
  if s.syncState == 1 && beyond result 2000 then
    { s with clk := { s.clk with stepDue := some result } }
  else
    let rem := satSigned 32 (toSigned 32 (s.get SYNC.SLEW_REM.REM) + roundDiv (result * 16) 1000)
    let s := (s.set SYNC.SLEW_REM.REM (ofSigned 32 rem)).updateRate result
    if s.syncState == 0 then (s.set SYNC.STAT.STATE 1).set SYNC.STAT.LOCK_CNT 0
    else if s.inSync then
      if beyond result 2000 || s.flag SYNC.STAT.RATE_CLAMP then s.leaveLocked 1 (if beyond result 2000 then 0 else 1)
      else s.setFlag SYNC.STAT.WIDE (beyond result s.clk.cfg.lockNs)
    else s

/-- A round without entries (R174, R175): a LOCKED node enters holdover, with RATE held and nothing slewed. -/
def State.roundEmpty (s : State) : State :=
  let s := s.showEntries [] []
  let s := (s.set SYNC.STAT.N 0).set SYNC.STAT.K 0
  let s := { s with clk := { s.clk with noEntryRounds := s.clk.noEntryRounds + 1 } }
  if s.inSync then (s.setFlag SYNC.STAT.HOLDOVER true).set SYNC.SLEW_REM.REM 0 else s

/-- The settings that a write gave take effect from the next round (R185). -/
def State.loadSyncCfg (s : State) : State :=
  { s with clk := { s.clk with cfg := ⟨s.get SYNC.CFG.LOCK_NS, s.get SYNC.CFG.OUTLIER_NS, s.get SYNC.CFG.RG_SHIFT,
      s.get SYNC.HOLD.HOLD_ROUNDS, s.flag SYNC.PTP_CFG.MODE⟩ } }

/-- In EXTERNAL mode each round writes PTP_DIFF and PTP_RATIO (R182); both read 0 in RING_SOURCE mode. -/
def State.roundPtp (s : State) : State :=
  if s.clk.cfg.ptpExternal then
    (s.set SYNC.PTP_DIFF.DIFF (ofSigned 32 (satSigned 32 s.clk.ptpDiff))).set SYNC.PTP_RATIO.PPB (ofSigned 32 s.clk.ptpRatio)
  else (s.set SYNC.PTP_DIFF.DIFF 0).set SYNC.PTP_RATIO.PPB 0

/-- Begin a round. -/
def State.startRound (s : State) : State :=
  let s := s.loadSyncCfg
  { s with clk := { s.clk with
      entries := List.replicate 8 ⟨0, 0⟩, roundVoid := false, ownAtStart := s.syncState == 3 } }

/-- ROUND_END (R167 to R172, R174, R177): the round that ends is evaluated unless an event discarded it;
a stack member that follows its head's markers has none (R493). -/
def execRoundEnd (s : State) : Host.Outcome State Fault Refusal :=
  let s := if s.clk.roundVoid || (s.get STK.STAT.ROLE == 1 && s.flag STK.STAT.TIME_LOCK) then s
    else
      let part := s.roundEntries
      if part.isEmpty then s.roundEmpty else s.roundResult part
  .next s.startRound.roundPtp

/-- ACQUIRE_STEP (R173, R174): in ACQUIRING the node steps by the whole result, the slew remainder cleared, the lock count
restarted. -/
def execAcquireStep (s : State) : Host.Outcome State Fault Refusal :=
  .next (match s.clk.stepDue with
    | some d =>
      let s := { s with clk := { s.clk with stepDue := none } }
      if s.syncState == 1 then
        ((s.stepTime (roundDiv (d * 3) 1000)).set SYNC.SLEW_REM.REM 0).set SYNC.STAT.LOCK_CNT 0
      else s
    | none => s)

/-- SYNC_LOCK (R174): a lock count of 48 in ACQUIRING enters LOCKED. -/
def execSyncLock (s : State) : Host.Outcome State Fault Refusal :=
  .next (if s.syncState == 1 && decide (48 ≤ s.get SYNC.STAT.LOCK_CNT) then s.enterLocked else s)

/-- HOLDOVER_EXPIRE (R174, R175): HOLD_ROUNDS consecutive rounds without entries end in LOST. -/
def execHoldoverExpire (s : State) : Host.Outcome State Fault Refusal :=
  .next (if s.clk.cfg.holdRounds ≤ s.clk.noEntryRounds then
      if s.inSync then s.leaveLocked 0 2
      else if s.syncState == 1 then (s.set SYNC.STAT.STATE 0).set SYNC.STAT.LOCK_CNT 0
      else s
    else s)

/-- The media-clock PLL's lock, and its copy in AUD.STAT (R185, R257). -/
def State.mclkLock (s : State) (on : Bool) : State := (s.setFlag SYNC.MCLK_STAT.PLL_LOCK on).setFlag AUD.STAT.MCLK_LOCK on

/-- MCLK_UNLOCK (R179, R222): the media-clock PLL loses lock. -/
def execMclkUnlock (s : State) : Host.Outcome State Fault Refusal :=
  .next ((s.mclkLock false).evt AUD.PORT_EVT.MCLK_UNLOCK 1 Src.AUD_PORT_ERR)

/-- MCLK_PLL_LOCK (R219): the PLL locks where its domain is on; ports that are due may start. -/
def execMclkPllLock (s : State) : Host.Outcome State Fault Refusal :=
  .next (if s.domOn Dom.ring then s.mclkLock true else s)

/-! ## At the tick boundary -/

/-- The slew of one tick (R171): the remainder or 20 ns (320 sixteenths), whichever is smaller; nothing in holdover. -/
def State.slewTick (s : State) : State :=
  let r := toSigned 32 (s.get SYNC.SLEW_REM.REM)
  let d := max (-320) (min r 320)
  s.set SYNC.SLEW_REM.REM (ofSigned 32 (r - d))

/-- The lock count of a tick in ACQUIRING (R174): the estimate of the frame read in it lies within ±LOCK_NS, RATE_CLAMP
is clear and no step happened. -/
def State.lockTick (s : State) : State :=
  let s := if s.syncState == 1 then
      let good := !s.clk.tickDev.isEmpty && !beyond (averageDevs s.clk.tickDev) s.clk.cfg.lockNs &&
        !s.flag SYNC.STAT.RATE_CLAMP && !s.clk.stepped
      s.set SYNC.STAT.LOCK_CNT (if good then min (s.get SYNC.STAT.LOCK_CNT + 1) 48 else 0)
    else s
  { s with clk := { s.clk with tickDev := [], stepped := false } }

/-- Node time reaches the next boundary (R162); the sequence number is n modulo 2^32, and reads zero while the node has no ring
time (R44). -/
def State.advanceTick (s : State) : State :=
  let n := s.clk.n + 1
  let s := { s with clk := { s.clk with n := n, thirds := n * tickThirds } }
  if s.clk.ringTime then s.set GLB.TICK_SEQ.SEQ (n % 2 ^ 32) else s

end Sys2Proof.Machine
end

