-- ==== Sys2Proof/Machine/Red.lean ====
section
/-! DEFINITION. Line, twin and master redundancy (chapter 06, R186 to R211). -/

namespace Sys2Proof.Machine

/-! ## Reach and short lines (R187) -/

/-- Did position `p`'s region of frame `tseq` arrive on the line, intact or not: an accepted copy carries a control word
that some node wrote (its node state is never 0)? -/
def State.arrivedOn (s : State) (l : Layout) (line : Line) (tseq p : Nat) : Bool :=
  match s.regionCopy l line tseq p with
  | some b => b.at (ctrlOff p + 1) % 16 != 0
  | none => false

/-- The reach map of a line in frame `tseq`; a node that writes reaches itself on a line that carries frames. -/
def State.reachMap (s : State) (l : Layout) (line : Line) (tseq : Nat) : Nat :=
  (List.range l.size).foldl (fun m i =>
    let p := i + 1
    let own := p == s.position && s.lineCarries line && !(s.copiesOn line tseq).isEmpty
    if own || (l.owns p && s.arrivedOn l line tseq p) then setBit m i else m) 0

/-- The lowest and the highest position of a map. -/
def mapEnds (m : Nat) : Nat × Nat :=
  let ps := (List.range 32).filter (fun i => bit m i)
  (match ps.head? with | some i => i + 1 | none => 0, match ps.getLast? with | some i => i + 1 | none => 0)

/-- The onset of a short line (R187): STAT, EVT.SHORT, and at the master the LINE_SHORT record. -/
def State.shortOnset (s : State) (fld : Fld) (line missing : Nat) : State :=
  if s.flag fld then s
  else
    let s := (s.setFlag fld true).evt RED.EVT.SHORT 1 Src.RING_LINE_DEGRADED
    let e := mapEnds missing
    if s.isMaster then s.post Evt.LINE_SHORT 0 [line, e.1, e.2] else s

/-- The reach registers and the short runs of a tick (R187). -/
def State.tickReach (s : State) (l : Layout) (tseq : Nat) : State :=
  let a := s.reachMap l .a tseq
  let b := s.reachMap l .b tseq
  let s := (s.set RED.REACH_A.MAP a).set RED.REACH_B.MAP b
  let missA := Nat.land b (Nat.xor a 0xFFFFFFFF)
  let missB := Nat.land a (Nat.xor b 0xFFFFFFFF)
  let s := { s with red := { s.red with
    shortRunA := if missA = 0 then 0 else s.red.shortRunA + 1,
    shortRunB := if missB = 0 then 0 else s.red.shortRunB + 1,
    equalRun := if a = b then s.red.equalRun + 1 else 0 } }
  let s := if 8 ≤ s.red.shortRunA then s.shortOnset RED.STAT.SHORT_A 0 missA else s
  if 8 ≤ s.red.shortRunB then s.shortOnset RED.STAT.SHORT_B 1 missB else s

/-- LINE_SHORT_CLEAR (R187): 48 consecutive ticks with equal reaches clear the bits. -/
def execLineShortClear (s : State) : Host.Outcome State Fault Refusal :=
  .next (if 48 ≤ s.red.equalRun then (s.setFlag RED.STAT.SHORT_A false).setFlag RED.STAT.SHORT_B false else s)

/-! ## Heartbeats (R197, R198) -/

/-- An accepted frame of the followed master on either line: the ring heartbeat. -/
def State.ringHeartbeat (s : State) : State :=
  let s := (s.setFlag RED.STAT.RING_HB true).set RED.HB.RING_SILENT 0
  if s.flag RED.STAT.CAN_HB then
    { s.set RED.STAT.PATH 0 with red := { s.red with failed := false } }
  else s

/-- The last accepted proposal frame was the followed master's and less than 100 ms ago, with no announcement seen (R561). -/
def State.proposedLately (s : State) : Bool :=
  match s.net.lastProposal with
  | some (t, m) => s.net.agreed.isNone && m == s.ring.followUid && decide (s.decik.upTicks < t + 4800)
  | none => false

/-- The ring falls silent after a proposal (R561): no takeover; the node enters SLEEP and records SLEEP_UNANNOUNCED. -/
def State.sleepUnannounced (s : State) : State :=
  if s.get PWR.STAT.TARGET == 3 then s else (s.set PWR.STAT.TARGET 3).post Evt.SLEEP_UNANNOUNCED 0 []

/-- Both heartbeats lost: master failed, recorded once at its onset (R198). A node that holds a sleep agreement enters at its
tick and none takes over (R561). -/
def State.masterFailed (s : State) : State :=
  if s.net.agreed.isSome then s
  else if s.proposedLately then s.sleepUnannounced
  else if s.red.failed && s.get RED.STAT.PATH == 3 then s
  else
    let s := (s.set RED.STAT.PATH 3).evt RED.EVT.MASTER_FAIL 1 Src.RING_MASTER_CHANGE
    let s := (s.count RED.CNT.FAILS 1).post Evt.MASTER_FAIL 0 (leBytes 8 s.ring.followUid.toNat)
    { s with red := { s.red with failed := true } }

/-- A heartbeat whose reach map includes the node's position, with the ring lost: a ring path fault (R198). -/
def State.ringPathFault (s : State) : State :=
  if s.get RED.STAT.PATH == 1 then s
  else (((s.set RED.STAT.PATH 1).evt RED.EVT.PATH_RING 1 Src.FAULT_SUMMARY).count RED.PATH_CNT.RING_PATH 1).post
    Evt.RING_PATH_FAULT 0 []

/-- A heartbeat whose reach map excludes the node's position, with the ring lost: cut off (R198). -/
def State.ringCutOff (s : State) : State :=
  if s.net.agreed.isSome || s.get RED.STAT.PATH == 3 then s
  else
    let s := (s.set RED.STAT.PATH 3).evt RED.EVT.CUT_OFF 1 Src.RING_MASTER_CHANGE
    let s := s.post Evt.RING_CUT_OFF 0 (leBytes 4 s.red.canReach)
    { s with red := { s.red with failed := true } }

/-- The ring present and CAN lost: a CAN path fault (R198). -/
def State.canPathFault (s : State) : State :=
  if s.get RED.STAT.PATH == 2 then s
  else (((s.set RED.STAT.PATH 2).evt RED.EVT.PATH_CAN 1 Src.FAULT_SUMMARY).count RED.PATH_CNT.CAN_PATH 1).post
    Evt.CAN_PATH_FAULT 0 []

/-- RING_HB_LOST (R197, R198): with CAN lost too the master has failed; while CAN is not lost the next CAN heartbeat
decides. -/
def execRingHbLost (s : State) : Host.Outcome State Fault Refusal :=
  .next (if s.flag RED.STAT.RING_HB then
      let s := s.setFlag RED.STAT.RING_HB false
      if s.flag RED.STAT.CAN_HB then s else s.masterFailed
    else s)

/-- CAN_HB_LOST (R197, R198): the ring present makes it a CAN path fault, the ring lost a failed master. -/
def execCanHbLost (s : State) : Host.Outcome State Fault Refusal :=
  .next (if s.flag RED.STAT.CAN_HB then
      let s := s.setFlag RED.STAT.CAN_HB false
      if s.flag RED.STAT.RING_HB then s.canPathFault else s.masterFailed
    else s)

/-- A CAN heartbeat of the followed master arrives with its reach map (R197, R198). -/
def State.canHeartbeat (s : State) (reach : Nat) : State :=
  let s := (s.setFlag RED.STAT.CAN_HB true).set RED.HB.CAN_SILENT 0
  let s := { s with red := { s.red with canReach := reach } }
  if s.flag RED.STAT.RING_HB then { s.set RED.STAT.PATH 0 with red := { s.red with failed := false } }
  else if s.position != 0 && bit reach (s.position - 1) then s.ringPathFault
  else s.ringCutOff

/-! ## Two masters (R204 to R206) -/

/-- Master X is better than master Y (R204): later EPOCH, then higher RANK, then lower UID. -/
def betterMaster (ex rx : Nat) (ux : DWord) (ey ry : Nat) (uy : DWord) : Bool :=
  if ex = ey then betterRank rx ux ry uy else topoLater ex ey

/-- The rank of the master that the node follows, from the layout in force. -/
def State.followRank (s : State) : Nat :=
  if s.ring.followUid == s.uid then s.get RING.INAUG_CFG.RANK
  else match s.layout? with
    | some l => match l.pos (l.posOf s.ring.followUid) with | some q => q.rank | none => 0
    | none => 0

/-- Make position `p` the master of the layout in force; the old master stays a writer (R201). -/
def Layout.withMaster (l : Layout) (p : Nat) : Layout :=
  { l with positions := (List.range l.positions.length).filterMap (fun i =>
      (l.positions[i]?).map (fun (q : LayoutPos) =>
        if i + 1 = p then { q with role := 2 } else if q.role == 2 then { q with role := 1 } else q)) }

/-- A new master at another position (R201): OUT values, lane roles and relay role follow from its place at once; the
averaging round in progress is discarded. -/
def State.relocateMaster (s : State) (uid : DWord) : State :=
  match s.layout? with
  | none => s
  | some l =>
    let p := l.posOf uid
    if p = 0 || p = l.masterPos then s
    else
      let l := l.withMaster p
      let s := { s with ring := { s.ring with layout := some l } }
      (((s.takeRole l (l.posOf s.uid)).discardRound).updateWriteEn).updateMrole

/-- Follow another master from this frame on (R205): HB_EPOCH, RED.MASTER and RING_MASTER_CHANGE; its CAN silence counts
from here (R197). -/
def State.followMaster (s : State) (uid : DWord) (epoch : Nat) : State :=
  let gap := s.get RED.HB.RING_SILENT
  let s := { s with ring := { s.ring with followUid := uid, followEpoch := epoch } }
  let s := (s.set RED.EPOCH.FOLLOWED epoch).set64 RED.MASTER_LO.UID RED.MASTER_HI.UID uid.toNat
  let s := ((s.set RED.TAKEOVER.GAP_TICKS gap).set RED.HB.CAN_SILENT 0).setFlag RED.STAT.CAN_HB true
  let s := s.pendDirect Src.RING_MASTER_CHANGE INTC.MISS.MASTER
  s.relocateMaster uid

/-- Frames of two masters within 8 ticks: DUAL_ACTIVE (R205). -/
def State.noteMaster (s : State) (uid : DWord) : State :=
  let others := s.red.seenMasters.filter (fun e => e.1 != uid)
  let s := { s with red := { s.red with seenMasters := others ++ [(uid, 0)] } }
  if !others.isEmpty && !s.red.dual then
    let s := (s.evt RED.EVT.DUAL_ACTIVE 1 Src.RING_DUAL_ACTIVE).count RED.DUAL.CNT 1
    let s := s.set RED.DUAL.LAST_TICKS 0
    { s with red := { s.red with dual := true } }
  else s

/-- A launching master yields to a better one heard in tick `t` (R206): it launches no frame later than t + 3, forwards from
then on, takes the pass-through role with TOPO_CHG and records DUAL_ACTIVE. -/
def State.dualYield (s : State) (uid : DWord) (epoch : Nat) : State :=
  let ticks := min (max s.red.dualTicks 1) 4
  let s := (s.set RED.DUAL.LAST_TICKS ticks).post Evt.DUAL_ACTIVE 0 ([ticks] ++ leBytes 2 epoch)
  let s := s.followMaster uid epoch
  let s := s.passThrough
  let s := (s.inaugForget.toPhase Phase.idle).updateMrole
  { s with
    ring := { s.ring with topoChg := true },
    inaug := { s.inaug with launching := false, shrink := none },
    red := { s.red with dualTicks := 0 } }

/-- A frame of a master other than the one followed (R205, R206): it must have a correct HDR_CHK, a valid FTYPE and the
local tick number. -/
def State.otherMaster (s : State) (b : Bytes) : State :=
  if s.ring.followUid == 0 || !b.hdrOk || !ftypeValid b.ftype || b.hTseq != s.tickSeq ||
      (b.hMaster == s.ring.followUid && b.hEpoch == s.ring.followEpoch) then s
  else
    let handed := s.red.handover == some b.hMaster && b.hTseq == s.get RING.SWITCH_TSEQ.TSEQ
    let s := if handed || b.hMaster == s.ring.followUid then s
      else (s.noteMaster s.ring.followUid).noteMaster b.hMaster
    if betterMaster b.hEpoch b.hRank b.hMaster s.ring.followEpoch s.followRank s.ring.followUid then
      (if s.isMaster && b.hMaster != s.uid then s.dualYield b.hMaster b.hEpoch else s.followMaster b.hMaster b.hEpoch)
    else s

/-! ## Takeover (R199, R200, R203) -/

/-- Take over as master from the layout in force (R200), or from the durable copy where that is gone. -/
def State.takeOver (s : State) (us10 : Nat) : State :=
  let lay := match s.ring.layout with | some l => some l | none => s.dring.layout
  match lay with
  | none => s
  | some l =>
    let s := s.netRestart
    let p := l.posOf s.uid
    let epoch := (laterOf s.ring.followEpoch s.dring.epoch + 1) % 2 ^ 16
    let gap := s.get RED.HB.RING_SILENT
    let l := l.withMaster p
    let s := { s with
      ring := { s.ring with layout := some l, followUid := s.uid, followEpoch := epoch },
      red := { s.red with noEntryZero := true, failed := false } }
    let s := (s.set RING.ENG_STAT.TOPO l.topo).set RING.LAYOUT.LAYOUT_VER l.version
    let s := (s.inaugForget.toPhase Phase.idle).takeRole l p
    let s := (s.set RED.EPOCH.FOLLOWED epoch).set64 RED.MASTER_LO.UID RED.MASTER_HI.UID s.uid.toNat
    let s := ((s.set RED.TAKEOVER.GAP_TICKS gap).set RED.TAKEOVER.LAUNCH_10US (min us10 0xFFFF)).count RED.CNT.TAKEOVERS 1
    let s := s.evt RED.EVT.TAKEOVER 1 Src.RING_MASTER_CHANGE
    let s := s.post Evt.TAKEOVER (p - 1) (leBytes 4 gap ++ leBytes 2 epoch)
    s.discardRound.lockAsMaster.updateMrole

/-- COLD_TAKEOVER_LAUNCH (R199, R200): the designated standby, affected by a failure or cut off, launches. -/
def execColdTakeoverLaunch (us10 : Nat) (s : State) : Host.Outcome State Fault Refusal :=
  .next (if s.red.failed && s.net.agreed.isNone && s.get RED.STAT.MROLE == 2 then s.takeOver us10 else s)

/-- RESERVE_TAKEOVER (R199): a reserve candidate with no new master's frame in 40 ms takes over from the layout in force;
one without a layout acts as a forming candidate, treating its links as having no RUNNING partner. -/
def execReserveTakeover (us10 : Nat) (s : State) : Host.Outcome State Fault Refusal :=
  .next (if s.red.failed && s.net.agreed.isNone && !s.isMaster then
      match s.ring.layout with
      | some _ => if s.get RED.STAT.MROLE == 3 then s.takeOver us10 else s
      | none =>
        let ps := s.inaug.partners.map (fun p =>
          (p.1, if p.2.hsState == Hs.running then { p.2 with hsState := Hs.free } else p.2))
        State.formingStart { s with inaug := { s.inaug with partners := ps } }
    else s)

/-! ## Twins (R188 to R194) -/

/-- Is the node a twin? -/
def State.twinOn (s : State) : Bool := s.flag RED.TWIN_CFG.EN
/-- Is it the lead? -/
def State.twinLead (s : State) : Bool := s.flag RED.TWIN_CFG.LEAD
/-- RED.STAT.TWIN: 0 none, 1 lead, 2 follower, 3 sole. -/
def State.twinState (s : State) : Nat := s.get RED.STAT.TWIN

/-- OUT_ACTIVE is discrete output 15 (R194): high at the lead, and at a sole twin. -/
def State.driveOutActive (s : State) : State :=
  if s.twinOn then s.putBit DIO.OUT_STATE.LEVEL 15 (s.twinState == 1 || s.twinState == 3) else s

/-- Does the node drive its TDM outputs, its transmit streams and its fallback voice (R194)? -/
def State.drivesOutputs (s : State) : Bool := !s.twinOn || s.twinState == 1 || s.twinState == 3

/-- Divergence (R193): after 8 mismatches in a row, TWIN_DIVERGE; the follower stops writing line B and resynchronises. -/
def State.twinDiverge (s : State) : State :=
  let s := (s.evt RED.EVT.TWIN_DIVERGE 1 Src.STACK_EVENT).setFlag RED.TWIN_STAT.RESYNC true
  if s.twinState == 2 then { s with red := { s.red with twinWrites := false } } else s

/-- TWIN_RECORD_RECEIVE (R191, R193): a good record is kept until the boundary of its tick + 2, and its region check is
compared with the own one of that frame; a failed record counts as missing. The follower holds the lead's changes until
their ticks (R192). -/
def execTwinRecordReceive (r : TwinRecord) (s : State) : Host.Outcome State Fault Refusal :=
  .next (if !s.twinOn || !s.flag RED.TWIN_STAT.PAIR1_UP || !r.good then s
    else
      let s := s.setFlag RED.TWIN_STAT.RECORD_OK true
      let s := { s with red := { s.red with records := s.red.records ++ [r], missRun := 0 } }
      let taken : List Timed := if s.twinState = 2 then
          r.changes.map (fun c => ⟨c.1, none, leValue (c.2.take 2), c.2.drop 4, 3, 0⟩) else []
      let s := { s with mbx := { s.mbx with timed := s.mbx.timed ++ taken } }
      match s.red.checks.find? (fun c => c.1 == r.tick) with
      | some c =>
        if c.2 == r.regionCheck then { s with red := { s.red with divergeRun := 0 } }
        else
          let s := s.count RED.TWIN_CNT.DIVERGE 1
          let run := s.red.divergeRun + 1
          let s := { s with red := { s.red with divergeRun := run } }
          if run = 8 then s.twinDiverge else s
      | none => s)

/-- The follower resumes writing at the tick named by the lead (R193). -/
def State.twinResume (s : State) : State :=
  if s.twinOn && s.flag RED.TWIN_STAT.RESYNC then
    let s := s.setFlag RED.TWIN_STAT.RESYNC false
    { s with red := { s.red with twinWrites := true, divergeRun := 0 } }
  else s

/-- A hot master's surviving twin goes on launching with its own UID and EPOCH one later (R203). -/
def State.hotTakeover (s : State) : State :=
  if s.net.agreed.isSome then s
  else
  let s := s.netRestart
  let epoch := (s.ring.followEpoch + 1) % 2 ^ 16
  let s := { s with ring := { s.ring with followUid := s.uid, followEpoch := epoch } }
  let s := (s.set RED.EPOCH.FOLLOWED epoch).set64 RED.MASTER_LO.UID RED.MASTER_HI.UID s.uid.toNat
  let s := (s.evt RED.EVT.TAKEOVER 1 Src.RING_MASTER_CHANGE).count RED.CNT.TAKEOVERS 1
  s.post Evt.TAKEOVER (s.position - 1) (leBytes 4 0 ++ leBytes 2 epoch)

/-- TWIN_PARTNER_LOSS (R194, R203): no valid record for 2 ticks, or both pairs lost: the survivor is sole and drives its
outputs. -/
def execTwinPartnerLoss (pairsLost : Bool) (s : State) : Host.Outcome State Fault Refusal :=
  .next (if s.twinOn && s.twinState != 3 && s.twinState != 0 then
      let s := if pairsLost then (s.setFlag RED.TWIN_STAT.PAIR0_UP false).setFlag RED.TWIN_STAT.PAIR1_UP false else s
      let s := ((s.setFlag RED.TWIN_STAT.MIRROR false).setFlag RED.TWIN_STAT.RECORD_OK false).set RED.STAT.TWIN 3
      let s := s.evt RED.EVT.TWIN_LOSS 1 Src.STACK_EVENT
      let s := s.post Evt.TWIN_LOSS 0 (leBytes 8 (s.get64 RED.TWIN_PART_LO.UID RED.TWIN_PART_HI.UID))
      let s := { s with red := { s.red with twinWrites := true } }
      let s := s.driveOutActive
      if s.isMaster && s.flag RED.TWIN_CFG.HOT then s.hotTakeover else s
    else s)

/-- The partner's CAN heartbeat shows it alive while this twin is sole with both pairs lost: a split (R194). -/
def State.twinSeenAlive (s : State) (uid : Nat) : State :=
  if s.twinOn && s.twinState == 3 && uid == s.get64 RED.TWIN_PART_LO.UID RED.TWIN_PART_HI.UID &&
      !s.flag RED.TWIN_STAT.PAIR0_UP && !s.flag RED.TWIN_STAT.PAIR1_UP && !s.flag RED.EVT.TWIN_SPLIT then
    (s.evt RED.EVT.TWIN_SPLIT 1 Src.STACK_EVENT).post Evt.TWIN_SPLIT 0 []
  else s

/-- TWIN_PAIR_FAIL (R194): pair 0 stops the mirror; pair 1 stops the records, and the follower stops writing line B. -/
def execTwinPairFail (pair : Fin 2) (s : State) : Host.Outcome State Fault Refusal :=
  .next (if s.twinOn then
      let s := s.post Evt.TWIN_LINK_DEGRADED pair.val []
      if pair.val = 0 then (s.setFlag RED.TWIN_STAT.PAIR0_UP false).setFlag RED.TWIN_STAT.MIRROR false
      else
        let s := (s.setFlag RED.TWIN_STAT.PAIR1_UP false).setFlag RED.TWIN_STAT.RECORD_OK false
        if s.twinState == 2 then { s with red := { s.red with twinWrites := false } } else s
    else s)

/-- Assemble and send the record of the tick that ends (R191): region check, the lead's staged cells and changes; RECORD_OK
shows the last tick alone, and a tick without a valid record is counted. -/
def State.tickTwin (s : State) (host aes : List (Nat × Nat)) (changes : List (Nat × List Nat)) : State :=
  if !s.twinOn || s.twinState == 3 then s
  else
    let tick := s.tickSeq
    let check := match s.red.checks.find? (fun c => c.1 == tick) with | some c => c.2 | none => 0
    let lead := s.twinState == 1
    let cells := if lead then (s.ring.cellsA.filter (fun c => c.age == 0)).map (·.bytes) else []
    let body := leBytes 4 tick ++ leBytes 4 s.red.recSeq ++ leBytes 8 s.uid.toNat ++ leBytes 4 check ++
      (if lead then (host.take 64).flatMap (fun x => leBytes 4 x.2) else []) ++ (aes.take 256).flatMap (fun x => leBytes 4 x.2) ++
      (cells.take 5).flatMap (fun c => c.slice 0 256) ++ (if lead then changes.flatMap (fun c => leBytes 4 c.1 ++ c.2) else [])
    let body := body.take 4092
    let bytes := body ++ leBytes 4 (crc32c body)
    let s := s.set RED.TWIN_STAT.REC_BYTES bytes.length
    let s := { s with red := { s.red with recSeq := (s.red.recSeq + 1) % 2 ^ 32 } }
    let s := if s.flag RED.TWIN_STAT.PAIR1_UP then s.emit (.twinRecord tick (Bytes.setSlice [] 0 bytes)) else s
    let s := if s.flag RED.TWIN_STAT.RECORD_OK then s
      else { s.count RED.TWIN_CNT.REC_MISS 1 with red := { s.red with missRun := s.red.missRun + 1 } }
    s.setFlag RED.TWIN_STAT.RECORD_OK false

/-- The heartbeat counters of a tick (R197): ticks of ring silence; a ms of CAN silence every 48 ticks. -/
def State.tickHeartbeats (s : State) : State :=
  let s := s.count RED.HB.RING_SILENT 1
  let s := if s.decik.upTicks % 48 = 0 then s.count RED.HB.CAN_SILENT 1 else s
  let seen := (s.red.seenMasters.map (fun e => (e.1, e.2 + 1))).filter (fun e => decide (e.2 < 8))
  { s with red := { s.red with
      seenMasters := seen, dual := s.red.dual && decide (1 < seen.length),
      dualTicks := if decide (1 < seen.length) && s.isMaster then s.red.dualTicks + 1 else 0 } }

end Sys2Proof.Machine
end

