-- ==== Sys2Proof/Machine/Merge.lean ====
section
/-! DEFINITION. HANDSHAKE frames, forming, and the merge of running islands (R113, R114, R140 to R143, R148 to R154). -/

namespace Sys2Proof.Machine

/-- FORMING_WAIT_END (R140, R160, R174): the candidate launches COUNT frames with a later epoch and saved TOPO plus 1,
LAYOUT 0; its node time starts from the real-time clock, and it is LOCKED. -/
def execFormingWaitEnd (s : State) : Host.Outcome State Fault Refusal :=
  .next (if s.mayForm && s.inaug.formingWait then
      let epoch := if s.ring.followUid = 0 then (s.dring.epoch + 1) % 2 ^ 16
        else (laterOf s.dring.epoch s.ring.followEpoch + 1) % 2 ^ 16
      let s := s.setNodeTime s.rtc
      let s := { s with
        ring := { s.ring with followUid := s.uid, followEpoch := epoch },
        inaug := { s.inaug with launching := true, formingWait := false } }
      let s := (s.set RING.INAUG_STAT.ISTATE Hs.forming).set RING.ENG_STAT.TOPO ((s.dring.topo + 1) % 2 ^ 16)
      let s := (s.set RING.LAYOUT.LAYOUT_VER 0).lockAsMaster
      s.startCount s.newTopo 1
    else s)

/-! ## HANDSHAKE frames (R113, R148) -/

/-- The bytes that TAG covers beside the nonce: header 0 to 37, body 64 to 123 and 140 to 1,931. -/
def hsAad (b : Bytes) : List Nat := b.slice 0 38 ++ b.slice 64 60 ++ b.slice 140 1792

/-- Does the TAG verify under a loaded RING_GCM key (R148, R149)? -/
def State.hsTagOk (s : State) (b : Bytes) : Bool :=
  let nonce := gcmNonce (BitVec.ofNat 64 (b.le 68 8)) (b.le 120 4)
  s.rxKeys.any (fun k => Config.gcmTag k nonce (hsAad b) [] == b.le 124 16)

/-- The island table row of a position (R148). -/
def LayoutPos.islandRow (q : LayoutPos) (pos claimId : Nat) : List Nat :=
  leBytes 8 q.uid.toNat ++ [pos, b2n q.orient + 2 * b2n (q.role == 0) + 4 * b2n (q.rank != 0) + 8 * b2n q.twin +
    16 * q.members, q.rank, 0] ++ leBytes 4 q.hopPs ++ leBytes 4 claimId ++ leBytes 4 0

/-- The claim identifier known for a UID. -/
def State.claimIdOf (s : State) (u : DWord) : Nat :=
  if u == s.uid then s.claim.claimId
  else match s.inaug.claimIds.find? (fun e => e.1 == u.toNat) with | some e => e.2 | none => 0

/-- ISL_TABLE: 32 entries of 24 bytes. -/
def State.islandTable (s : State) : List Nat :=
  match s.layout? with
  | some l => (List.range l.size).flatMap (fun i =>
      match l.pos (i + 1) with | some q => q.islandRow (i + 1) (s.claimIdOf q.uid) | none => [])
  | none => []

/-- Read an ISL_TABLE. -/
def readIsland (bs : Bytes) (base n : Nat) : List IslandRow :=
  (List.range n).map (fun i =>
    let a := base + 24 * i
    ⟨BitVec.ofNat 64 (bs.le a 8), bs.at (a + 8), bs.at (a + 9), bs.at (a + 10), bs.le (a + 12) 4, bs.le (a + 16) 4⟩)

/-- The XFER fragment that a merge sends next: the layout image in 4 fragments from the winner, the island table from the
loser (R152). -/
def State.xferBytes (s : State) : List Nat × Bool :=
  let m := s.inaug.merge
  let all := if m.winner then (match s.inaug.image with | some l => l.image.slice 0 4096 | none => []) else s.islandTable
  let n := (all.length + 1023) / 1024
  ((all.drop (1024 * m.xferOut)).take 1024, decide (n ≤ m.xferOut + 1))

/-- The HANDSHAKE frame that a QUALIFIED link sends in this tick (R113, R148). -/
def State.handshakeFrame (s : State) (n : LinkIx) (launchNs : Nat) : Bytes :=
  let free := s.istate == Hs.free
  let isl (x : Nat) : Nat := if free then 0 else x
  let b := Bytes.setSlice [] 0 [3, 16 + n.val % 2]
  let b := (((b.setLe 2 2 (isl (s.get RING.ENG_STAT.TOPO))).setLe 4 4 s.tickSeq).setLe 8 2 (isl (s.get RING.LAYOUT.LAYOUT_VER)))
  let b := ((b.setLe 10 2 (isl s.ring.followEpoch)).setAt 12 (if free then s.get RING.INAUG_CFG.RANK else s.followRank)).setLe
    16 8 (isl s.ring.followUid.toNat)
  let b := b.setLe 24 8 launchNs
  let m := s.inaug.merge
  let mine := m.phase != .idle && m.link % 4 == n.val
  let p := s.inaug.partners.find? (fun e => e.1 == n.val)
  let size := match s.layout? with | some l => l.size | none => 0
  let b := b.setSlice 64 [s.istate, if mine then m.hsStep else 0, size % 256, if free then 0 else s.position]
  let b := b.setLe 68 8 s.uid.toNat
  let b := match p with
    | some (_, r) => ((b.setLe 76 8 r.launch).setLe 84 8 r.arrival).setLe 92 4 r.tseq
    | none => b
  let b := if mine then
      let b := ((b.setLe 96 4 m.mergeTick).setLe 100 8 (ofSigned 64 m.stepNs)).setLe 108 4 m.switchTick
      let b := (b.setLe 112 2 (s.get RING.PEND.NEW_TOPO)).setLe 114 2 (s.get RING.PEND.NEW_LAYOUT)
      if m.hsStep == 3 then
        let (x, last) := s.xferBytes
        ((b.setLe 116 2 (m.xferOut + (if last then 0x8000 else 0))).setLe 118 2 x.length).setSlice 908 x
      else b
    else b
  let b := b.setSlice 140 s.islandTable
  let ctr := s.get RING.NONCE.CTR
  let b := b.setLe 120 4 ctr
  let b := match s.txKey with
    | some k => b.setLe 124 16 (Config.gcmTag k (gcmNonce s.uid ctr) (hsAad b) [])
    | none => b
  (b.setLe 6208 4 (crc32c (b.slice 0 64))).setLe 6212 4 s.tickSeq

/-- Send one HANDSHAKE on every QUALIFIED link (R113): each takes a nonce, and is counted. -/
def State.sendHandshakes (s : State) (launchNs : Nat) : State :=
  ([0, 1, 2, 3] : List (Fin 4)).foldl (fun (s : State) (n : LinkIx) =>
    if s.linkState n == Lk.qualified then
      let b := s.handshakeFrame n launchNs
      let s := s.reserveNonce
      let s := s.set RING.NONCE.CTR (s.get RING.NONCE.CTR + 1)
      let s := (s.count RING.HS_CNT.TX 1).emit (.handshake n.val b)
      let m := s.inaug.merge
      let sends := m.phase != .idle && m.link % 4 == n.val && m.hsStep == 3
      if sends then
        let last := s.xferBytes.2
        { s with inaug := { s.inaug with merge := { m with
            xferOut := if last then 0 else m.xferOut + 1, hsStep := if last then 0 else 3 } } }
      else if m.phase != .idle && m.link % 4 == n.val && m.hsStep == 2 then
        -- ACCEPT is followed by the losing island's table
        { s with inaug := { s.inaug with merge := { m with hsStep := 3, xferOut := 0 } } }
      else s
    else s) s

/-! ## A merge (R148 to R154) -/

/-- RING.MERGE_STAT.RESULT values. -/
abbrev MergeResult.won : Nat := 1
abbrev MergeResult.lost : Nat := 2
abbrev MergeResult.tag : Nat := 3
abbrev MergeResult.size : Nat := 4
abbrev MergeResult.time : Nat := 5

/-- An attempt ends without effect on either island (R153); after two failed attempts MERGE_FAILED is recorded. -/
def State.mergeEnd (s : State) (result : Nat) : State :=
  let m := s.inaug.merge
  let s := s.set RING.MERGE_STAT.RESULT result
  let s := if s.phase == Phase.merge then s.toPhase Phase.idle else s
  let again := result == MergeResult.time && decide (m.attempts < 2)
  let s := { s with inaug := { s.inaug with merge :=
    { MergeSt.idle with link := m.link, attempts := m.attempts, retryWait := again, muted := m.muted, rise := m.rise } } }
  if again || result == MergeResult.size then s else s.post Evt.MERGE_FAILED m.link [result]

/-- Start an attempt on a link (phase A, R152); none starts after the agreement on a sleep tick (R561). -/
def State.mergeStart (s : State) (n count : Nat) : State :=
  if s.net.agreed.isSome then s
  else
  let s := ((s.count RING.MERGE_STAT.ATTEMPTS 1).set RING.MERGE_STAT.LINK n).set RING.MERGE_STAT.PARTNER_COUNT (count % 256)
  { s with inaug := { s.inaug with merge := { MergeSt.idle with
      phase := .a, link := n, attempts := s.inaug.merge.attempts + 1, muted := s.inaug.merge.muted,
      rise := s.inaug.merge.rise } } }

/-- Both masters hold the HELLO: the better master wins (R149); more than 32 positions are refused (R154). -/
def State.mergeDecide (s : State) (r : PartnerRec) : State :=
  let size := match s.layout? with | some l => l.size | none => 1
  if 32 < size + r.count then
    let s := (s.post Evt.TOO_MANY_POSITIONS 0 [(size + r.count) % 256]).evt RING.INAUG_EVT.TOO_MANY 1 Src.RING_INAUG_DONE
    s.mergeEnd MergeResult.size
  else
    let win := betterRank (s.get RING.INAUG_CFG.RANK) s.uid r.rank r.master
    { s with inaug := { s.inaug with merge := { s.inaug.merge with
        phase := .b, winner := win, partnerEpoch := r.epoch, partnerTopo := r.topo } } }

/-- One HELLO exchange is averaged at the winner (R150): `a` is RX_TIME at L − LAUNCH at W, `b` RX_TIME at W − LAUNCH at L. -/
def MergeSt.sample (m : MergeSt) (a b : Int) : MergeSt :=
  { m with samples := m.samples + 1, thetaSum := m.thetaSum + (a - b), delaySum := m.delaySum + (a + b) }

/-- The merged layout (R128, R130, R152): the winner's positions, then the losing island's, which lies beyond the winner's
end on the joining link's side. -/
def State.mergedLayout (s : State) (plan : LayoutPlan) : Option Layout :=
  match s.layout? with
  | none => none
  | some l =>
    let m := s.inaug.merge
    let other : List LayoutPos := m.partnerTable.map (fun (r : IslandRow) =>
      { uid := r.uid, twinUid := 0, hopIdx := 0, orient := bit r.flags 0, role := if bit r.flags 1 then 0 else 1,
        twin := bit r.flags 3, members := r.flags / 16 % 4, noSlot := decide (r.uid.toNat = 0), sync := none, hopPs := r.hopPs,
        rank := r.rank })
    let all := l.positions ++ other
    some { topo := s.get RING.PEND.NEW_TOPO, version := s.get RING.PEND.NEW_LAYOUT,
           epoch := (laterOf s.ring.followEpoch m.partnerEpoch + 1) % 2 ^ 16, masterUid := s.uid,
           policy := plan.policy, flags := l.flags, positions := all.take 32,
           wafers := plan.wafers.map (fun r => ⟨r.1, r.2.1, r.2.2⟩),
           units := plan.units.map (fun r => ⟨r.1, r.2.1, r.2.2⟩) }

/-- The links of the joining hop: both lines of the port (R152). -/
def joinLinks (n : Nat) : Nat := if n % 4 < 2 then 3 else 12

/-- A merge message reaches a master: from its own link or in a MERGE_CTRL cell of its end node (R149 to R152). `a` and `b`
are the two one-way times of R150. -/
def State.mergeMessage (s : State) (n step : Nat) (r : PartnerRec) (body : Bytes) (a b : Int) : State :=
  let m := s.inaug.merge
  if step == 4 then (if m.phase == .idle then s else s.mergeEnd MergeResult.time)
  else if m.phase == .idle then
    (if s.isMaster && !m.retryWait && decide (m.attempts < 2) then (s.mergeStart n r.count).mergeDecide r else s)
  else if step == 0 && m.phase == .a then s.mergeDecide r
  else if step == 0 && m.phase == .b && m.winner then { s with inaug := { s.inaug with merge := m.sample a b } }
  else if step == 1 && m.phase == .b && !m.winner && s.phase == Phase.idle then
    -- PLAN waits while an inauguration runs on either side (R155)
    let tick := body.le 96 4
    let stepNs := toSigned 64 (body.le 100 8)
    let s := s.toPhase Phase.merge
    let s := s.stageMessage Kind.inaug 0xFF 0xFF (6 :: leBytes 4 tick ++ leBytes 8 (ofSigned 64 stepNs))
    { s with inaug := { s.inaug with merge := { m with phase := .c, hsStep := 2, mergeTick := tick, stepNs := stepNs } } }
  else if step == 2 && m.phase == .b && m.winner then
    { s.toPhase Phase.merge with inaug := { s.inaug with phaseTicks := 0, merge := { m with phase := .c, hsStep := 0 } } }
  else if step == 3 then
    let idx := body.le 116 2
    let frag := body.slice 908 (min (body.le 118 2) 1024)
    let xs := Sparse.insert (Sparse.erase m.xferIn (idx % 256)) (idx % 256) frag
    let s := { s with inaug := { s.inaug with merge := { m with xferIn := xs } } }
    if bit idx 15 && xs.length == idx % 256 + 1 then
      let bytes := Bytes.setSlice [] 0 (xs.flatMap (·.2))
      if m.winner then
        { s with inaug := { s.inaug with merge := { m with
            phase := .d, xferIn := [], partnerTable := readIsland bytes 0 (min r.count 32) } } }
      else
        let sw := body.le 108 4
        let s := (s.set RING.PEND.NEW_TOPO (body.le 112 2)).set RING.PEND.NEW_LAYOUT (body.le 114 2)
        let s := (s.setFlag RING.INAUG_STAT.SW_PEND true).set RING.SWITCH_TSEQ.TSEQ sw
        let img := Layout.ofImage bytes
        let s := s.stageMessage Kind.layout 0xFF 0xFF (bytes.slice 0 4096)
        let s := { s with ring := { s.ring with topoChg := false } }
        { s with inaug := { s.inaug with
            image := img, announced := true, countSet := Nat.lor s.inaug.countSet (joinLinks m.link),
            merge := { m with phase := .f, xferIn := [], switchTick := sw } } }
    else s
  else s

/-- The 20 LAYOUT cells of an image (R131). -/
def State.sendLayout (s : State) (l : Layout) : State :=
  let s := s.stageFrags Kind.layout 0xFF 0xFF s.ring.msgId false 0 (chunks 212 256 (l.image.slice 0 4096))
  { s with ring := { s.ring with msgId := (s.ring.msgId + 1) % 2 ^ 16 } }

/-- The merged layout is ready at the winner (R152): sent across the link in XFER fragments and to the own island, with one
switch tick that both masters announce. -/
def State.mergeComputed (s : State) (plan : LayoutPlan) : State :=
  match s.mergedLayout plan with
  | none => s
  | some l =>
    let m := s.inaug.merge
    let base := if seqLater m.mergeTick s.tickSeq then m.mergeTick else s.tickSeq
    let sw := (base + 8 + s.get RING.INAUG_CFG.SWITCH_LEAD) % 2 ^ 32
    let s := (s.sendLayout l).setFlag RING.INAUG_STAT.SW_PEND true
    let s := State.set { s with ring := { s.ring with topoChg := false } } RING.SWITCH_TSEQ.TSEQ sw
    { s with inaug := { s.inaug with
        image := some l, announced := true, countSet := Nat.lor s.inaug.countSet (joinLinks m.link),
        merge := { m with phase := .f, hsStep := 3, xferOut := 0, switchTick := sw } } }

/-- LAYOUT_COMPUTE_DONE (R127, R130, R131, R152): the outcomes are recorded, and the image goes out in 20 LAYOUT cells. -/
def execLayoutComputeDone (plan : LayoutPlan) (s : State) : Host.Outcome State Fault Refusal :=
  .next (if s.launches && s.phase == Phase.compute then
      let hops := s.countedHops
      let adm := hops.map (fun h => (h, admissionOf s.inaug.slots plan.missing h))
      let s := adm.foldl (fun s e => s.recordAdmission e.1 e.2) s
      let l := s.computeLayout plan s.ownEpoch
      let s := if bit l.flags 0 then
          let cabs := s.inaug.slots.filter (fun x => bit x.mflags 1)
          let uid := cabs.foldl (fun b x => min b x.uid.toNat) (2 ^ 64 - 1)
          s.post Evt.CAB_CONFLICT 0 (leBytes 8 uid)
        else s
      let s := s.set RING.INAUG_TIME.COMPUTE (min (s.inaug.phaseTicks * 10 / 48) 0xFFFF)
      let s := s.toPhase Phase.distribute
      let s := s.sendLayout l
      { s with
        inaug := { s.inaug with
          image := some l, admissions := adm, acked := [1], frags := (List.range 20).map (fun i => (i, 0)) } }
    else if s.isMaster && s.inaug.merge.phase == .d && s.inaug.merge.winner then s.mergeComputed plan
    else s)


/-- What a node on the running side tells its master of a partner, in a LINK_REPORT cell (R113, table of subtypes). -/
def State.linkReport (s : State) (n : LinkIx) (r : PartnerRec) : State :=
  if s.isMaster || s.istate != Hs.running then s
  else match s.layout? with
    | some l => s.stageMessage Kind.inaug l.masterPos 0xFF
        ([1, n.val, s.linkState n, r.hsState] ++ leBytes 8 r.uid.toNat ++ leBytes 8 r.master.toNat ++ [r.rank, r.count])
    | none => s

/-- Read what a HANDSHAKE says of its sender. -/
def State.readHandshake (b : Bytes) (tagOk : Bool) (arrival : Nat) : PartnerRec where
  hsState := b.at 64 % 16
  uid := BitVec.ofNat 64 (b.le 68 8)
  master := b.hMaster
  epoch := b.hEpoch
  topo := b.hTopo
  rank := b.hRank
  count := b.at 66
  tagOk := tagOk
  launch := b.hLaunch
  tseq := b.hTseq
  arrival := arrival

/-- HANDSHAKE_RECEIVE (R113, R114, R143, R149): counted; a wrong HDR_CHK ends it; a failed tag leaves only its HS_STATE. A
duplicate UID, a merge with another running island, and the report to the master follow. -/
def execHandshakeReceive (n : LinkIx) (b : Bytes) (arrivalNs : Nat) (s : State) : Host.Outcome State Fault Refusal :=
  .next (if s.linkState n != Lk.qualified || b.ftype != 3 then s
    else if !b.hdrOk then s.count RING.HS_ERR.CHK 1
    else
      let s := s.count RING.HS_CNT.RX 1
      let tagOk := s.hsTagOk b
      let s := if tagOk then s else s.count RING.HS_ERR.TAG 1
      let old := s.inaug.partners.find? (fun e => e.1 == n.val)
      let r := State.readHandshake b tagOk arrivalNs
      let s := { s with inaug := { s.inaug with
        partners := s.inaug.partners.filter (fun e => e.1 != n.val) ++ [(n.val, r)] } }
      let changed := match old with
        | some (_, o) => o.hsState != r.hsState || o.uid != r.uid || o.master != r.master
        | none => true
      let s := if changed then s.linkReport n r else s
      if tagOk && r.uid == s.uid && s.get RING.INAUG_CFG.RANK != 0 then
        (if s.istate == Hs.dupHold then s else s.duplicateUid)
      else if tagOk && s.istate == Hs.running && r.hsState == Hs.running &&
          !(r.master == s.ring.followUid && r.epoch == s.ring.followEpoch) then
        let aTime : Int := (b.le 84 8 : Int) - (b.le 76 8 : Int)
        let bTime : Int := (arrivalNs : Int) - (r.launch : Int)
        let step := b.at 65
        if s.isMaster then s.mergeMessage n.val step r b aTime bTime
        else match s.layout? with
          | some l => s.stageMessage Kind.inaug l.masterPos 0xFF ([6, 0xFF, n.val] ++ b.slice 0 124)
          | none => s
      else s)

/-- MERGE_MEASURE_DONE (R150, R151): the winner has averaged 96 exchanges and sends PLAN: MERGE_TSEQ at least 96 ticks on,
STEP_NS the negated offset. Tick boundaries derive from node time, so that step alone puts them on the winner's (DEDUCED). -/
def execMergeMeasureDone (lead : Nat) (s : State) : Host.Outcome State Fault Refusal :=
  let m := s.inaug.merge
  .next (if m.phase == .b && m.winner && decide (96 ≤ m.samples) && s.phase == Phase.idle then
      let theta := roundDiv m.thetaSum (2 * m.samples)
      let s := s.set RING.PEND.NEW_TOPO ((laterOf (laterOf (s.get RING.ENG_STAT.TOPO) s.dring.topo) m.partnerTopo + 1) % 2 ^ 16)
      let s := s.set RING.PEND.NEW_LAYOUT s.newLayout
      { s with inaug := { s.inaug with merge := { m with
          hsStep := 1, mergeTick := (s.tickSeq + max lead 96) % 2 ^ 32, stepNs := -theta } } }
    else s)

/-- Does a merge step wait at this node, of the losing island (R151)? -/
def State.stepWaits (s : State) : Bool :=
  let m := s.inaug.merge
  m.phase != .idle && !m.winner && m.mergeTick != 0 && !m.muted

/-- The merge step (R151): at MERGE_TSEQ the losing island's nodes step their time, number their ticks in the winner's numbering
and mute their ring-sourced outputs for 8 ticks. -/
def State.mergeStep (s : State) : State :=
  let m := s.inaug.merge
  let s := s.stepTime (m.stepNs * 3)
  let s := s.set RING.TIME_STEP.STEP_NS (ofSigned 32 (satNs (m.stepNs * 1000)))
  { s with inaug := { s.inaug with merge := { m with phase := .e, muted := true } } }

/-- MERGE_MUTE_END (R151, R253): after 8 ticks the ring-input contributions rise again over 48 ticks. -/
def execMergeMuteEnd (s : State) : Host.Outcome State Fault Refusal :=
  let m := s.inaug.merge
  .next (if m.muted then
      { s with inaug := { s.inaug with merge := { m with
          muted := false, rise := 48, phase := if m.phase == .e then .f else m.phase } } }
    else s)

/-- MERGE_TAG_REFUSE (R149): the partner's tag failed for 480 ticks: the merge is refused, recorded, and SEC_AUTH_FAIL
raised; the link stays QUALIFIED. -/
def execMergeTagRefuse (n : LinkIx) (s : State) : Host.Outcome State Fault Refusal :=
  let failing := match s.inaug.partners.find? (fun e => e.1 == n.val) with | some (_, r) => !r.tagOk | none => false
  .next (if s.linkState n == Lk.qualified && failing then
      ((s.set RING.MERGE_STAT.LINK n.val).mergeEnd MergeResult.tag).ringAuthFail
    else s)

/-- MERGE_PHASE_TIMEOUT (R153): a phase past its maximum, or an ABORT, ends the attempt without effect. -/
def execMergePhaseTimeout (s : State) : Host.Outcome State Fault Refusal :=
  .next (if s.inaug.merge.phase == .idle then s
    else
      let s := s.setFlag RING.INAUG_STAT.SW_PEND false
      s.mergeEnd MergeResult.time)

/-- MERGE_RETRY (R153): the second attempt, 100 ms after the failed one. -/
def execMergeRetry (s : State) : Host.Outcome State Fault Refusal :=
  let m := s.inaug.merge
  .next (if m.retryWait then
      let s := { s with inaug := { s.inaug with merge := { m with retryWait := false } } }
      match s.inaug.partners.find? (fun e => e.1 == m.link) with
      | some (_, r) => if r.hsState == Hs.running then s.mergeStart m.link r.count else s
      | none => s
    else s)

end Sys2Proof.Machine
end

