-- ==== Sys2Proof/Machine/Launch.lean ====
section
/-! DEFINITION. Frames at the master and INAUG frames at a node: the launch (R76, R79, R99, R103, R117), member slots (R125),
the passing of a frame, the counting pass (R118 to R124), what an announcement does (R132 to R136), and the master's
returns (R99, R102, R120, R145). -/

namespace Sys2Proof.Machine

/-! ## Member slots (R125, R126) -/

/-- Offset of the slot of hop index `h`. -/
def slotOff (h : Nat) : Nat := 4672 + 44 * (h - 1)

/-- Is the message segment an inauguration control block with this mark (0xC1 COUNT, 0xC2 CLAIM) and a right ICHK? -/
def imark (b : Bytes) (m : Nat) : Bool := b.ftype == 2 && b.at 4544 == m && b.le 4668 4 == crc32c (b.slice 4544 124)

/-- The bytes of TAG's additional data: slot bytes 0 to 19 and NEW_TOPO (R126). -/
def slotAad (b : Bytes) (a : Nat) : List Nat := b.slice a 20 ++ b.slice 4546 2

/-- The node writes its slot into a CLAIM frame (R125): as a counted node in sync, or with NO_CTRL while it has no control.
`loops`: the node loops the frame. -/
def State.writeSlot (s : State) (f : RxFrame) (b : Bytes) (loops : Bool) : Bytes × State :=
  let h := if s.launches then 1 else s.get (hopIdxFld f.line)
  if h = 0 || 32 < h || !(s.inSync || !s.controls) then (b, s)
  else
    let a := slotOff h
    let lat := s.get (RING.LINKLAT.PT_UI (linkOf f.line f.fore).val)
    let back := s.get (RING.LINKLAT.PT_UI (linkOf f.line (!f.fore)).val)
    let loop := if loops then s.get (RING.LINKLAT.LOOP_UI (linkOf f.line f.fore).val)
      else s.get (match f.line with | .a => RING.LOOP_A.LOOP_UI | .b => RING.LOOP_B.LOOP_UI)
    let flags := if s.controls then
        b2n (s.flag (facingFld f.line)) + 2 * b2n s.pins.cabActive + 4 * b2n s.twinOn + 8 * s.get STK.STAT.MEMBERS +
        32 * b2n s.claim.syncCap + 128 * b2n loops
      else 64
    let b := (b.clear a 44).setSlice a (leBytes 8 s.uid.toNat ++ [h, flags, if s.controls then s.get RING.INAUG_CFG.RANK else 0,
      lat, if loops then 0 else back, 0] ++ leBytes 2 loop)
    if !s.controls then (b.setLe (a + 40) 4 (crc32c (b.slice a 40)), s)
    else
      let s := s.reserveNonce
      let g := s.flag SEC.STAT.GEN_TX
      let ctr := if g then s.sec.otherNonce else s.get RING.NONCE.CTR
      let b := (b.setLe (a + 16) 4 s.claim.claimId).setLe (a + 20) 4 ctr
      let b := match s.engines[(0 : Fin 4)].cur with
        | some k => b.setLe (a + 24) 16 (Config.gcmTag k (gcmNonce s.uid ctr) (slotAad b a) [])
        | none => b
      let b := b.setLe (a + 40) 4 (crc32c (b.slice a 40))
      (b, if g then { s with sec := { s.sec with otherNonce := ctr + 1 } } else s.set RING.NONCE.CTR (ctr + 1))

/-- Read one slot (R125): intact under MCHK and not empty; its tag is verified under a loaded key (R126). -/
def State.readSlot (s : State) (b : Bytes) (h : Nat) : Option SlotRec :=
  let a := slotOff h
  let uid : DWord := BitVec.ofNat 64 (b.le a 8)
  if b.le (a + 40) 4 != crc32c (b.slice a 40) || uid.toNat = 0 || b.at (a + 8) != h then none
  else
    let nonce := gcmNonce uid (b.le (a + 20) 4)
    let right (k : Nat) : Bool := Config.gcmTag k nonce (slotAad b a) [] == b.le (a + 24) 16
    let e := s.engines[(0 : Fin 4)]
    let ok := e.cur.any right || e.prev.any right
    some ⟨h, uid, b.at (a + 9), b.at (a + 10) % 16, b.at (a + 11), b.at (a + 12), b.le (a + 14) 2, b.le (a + 16) 4, ok,
      !e.cur.any right && e.prev.any right, 0⟩

/-- Take the slots of a CLAIM frame: line A's copy replaces, line B's fills in; a twin's other UID is noted (R125). -/
def State.readSlots (s : State) (l : Line) (b : Bytes) : State :=
  let slots := (List.range 32).foldl (fun (acc : List SlotRec) i =>
    match s.readSlot b (i + 1) with
    | none => acc
    | some x =>
      match acc.find? (fun y => y.hop == x.hop) with
      | none => acc ++ [x]
      | some y =>
        let z := if l == .a then { x with twinUid := if y.uid != x.uid && bit x.mflags 2 then y.uid else y.twinUid }
          else { y with twinUid := if y.uid != x.uid && bit x.mflags 2 then x.uid else y.twinUid }
        acc.map (fun w => if w.hop == x.hop then z else w)) s.inaug.slots
  { s with inaug := { s.inaug with slots := slots } }

/-! ## A frame passes the node (R77 to R95, R118) -/

/-- Does the node loop a frame that arrives here: no onward link carries it, and it runs on its out pass? -/
def State.loopsHere (s : State) (f : RxFrame) : Bool :=
  !s.launches && s.outPass f.line f.fore && !s.carries (linkOf f.line (!f.fore)) f.bytes.ftype

/-- A frame passes the node: written on the out pass, its check rewritten, forwarded, and its copy read (R77 to R95). -/
def State.framePass (s : State) (f : RxFrame) : State :=
  let s := s.markSeen f.line
  let out := s.outPass f.line f.fore
  if f.truncated then (s.countRefusal f).forward f f.bytes
  else
    let ok := f.bytes.hdrOk
    let acc := s.accepts f
    let b := f.bytes
    -- HOPCNT of an INAUG frame on the out pass (R118)
    let counts := out && b.ftype == 2 && !s.launches
    let b := if counts then b.setAt 13 (b.hHopcnt + 1) else b
    let s := if counts then
        (s.set (hopIdxFld f.line) (b.hHopcnt % 64)).setFlag (facingFld f.line) (!f.fore)
      else s
    let (b, s) := if out then s.writePass f b else (b, s)
    let (b, s) := if counts && s.inaug.counted && imark b 0xC2 then s.writeSlot f b (s.loopsHere f) else (b, s)
    let b := s.rewriteCheck b ok
    let s := s.forward f b
    if acc then
      let s := s.set (endPosFld f.line) (f.bytes.at 6217 % 64)
      let s := { s with ring := match f.line with | .a => { s.ring with gotA := true } | .b => { s.ring with gotB := true } }
      let s := if f.bytes.at 6216 != 0 then s.set (badPosFld f.line) (f.bytes.at 6216 % 64) else s
      let copy : RxCopy := ⟨f.bytes.hTseq, f.line, out, true, f.arrivalNs, f.bytes⟩
      { s with ring := { s.ring with rx := s.ring.rx ++ [copy] } }
    else s.countRefusal f

/-! ## INAUG frames at a node that does not launch (R119, R122, R124, R157) -/

/-- A FREE node adopts the header of its first good INAUG frame (R119): its node time puts the frame's arrival half a tick
after the master's launch; the setting is no step, and leaves the node out of sync. -/
def State.adoptHeader (s : State) (f : RxFrame) : State :=
  let b := f.bytes
  let s := (s.set RING.ENG_STAT.TOPO b.hTopo).set RING.LAYOUT.LAYOUT_VER b.hLayout
  let s := s.setNodeTime ((b.hLaunch + 10417) * 3)
  let s := s.set GLB.TICK_SEQ.SEQ b.hTseq
  let s := (s.set RING.ENG_STAT.ROLE 0).set RING.INAUG_STAT.ISTATE Hs.forming
  let s := (s.set RED.EPOCH.FOLLOWED b.hEpoch).set64 RED.MASTER_LO.UID RED.MASTER_HI.UID b.hMaster.toNat
  { s with
    ring := { s.ring with followUid := b.hMaster, followEpoch := b.hEpoch },
    inaug := { s.inaug with
      adopted := true, counted := false, joined := false, formingWait := false, countSet := s.freezeCountSet } }

/-- The loop time on a line (R122): from the out lane to the back lane; at the node that loops, its loopback latency. -/
def State.measureLoop (s : State) (f : RxFrame) (out : Bool) : State :=
  let fld := match f.line with | .a => RING.LOOP_A.LOOP_UI | .b => RING.LOOP_B.LOOP_UI
  if out then
    let s := { s with inaug := match f.line with
      | .a => { s.inaug with outUiA := f.arrivalUi }
      | .b => { s.inaug with outUiB := f.arrivalUi } }
    if s.loopsHere f then s.set fld (s.get (RING.LINKLAT.LOOP_UI (linkOf f.line f.fore).val)) else s
  else
    let start := match f.line with | .a => s.inaug.outUiA | .b => s.inaug.outUiB
    s.set fld (min (f.arrivalUi - start) 0xFFFF)

/-- A joining node sets its time from the second COUNT frame (R124): LAUNCH_TIME + D, tick number TSEQ, ACQUIRING. -/
def State.joinTime (s : State) (f : RxFrame) : State :=
  let b := f.bytes
  let h := b.hHopcnt + 1
  let arm1 := b.at 4553
  let second := arm1 != 0 && decide (arm1 < h)
  let armLoop := if second then b.le 4564 4 else b.le 4556 4
  let depart := if second then b.le 4560 4 else 0
  let loop := s.get (match f.line with | .a => RING.LOOP_A.LOOP_UI | .b => RING.LOOP_B.LOOP_UI)
  let ptBack := if s.loopsHere f then 0 else s.get (RING.LINKLAT.PT_UI (linkOf f.line (!f.fore)).val)
  let d := depart + (armLoop - 320 * loop - 320 * ptBack) / 2
  let target : Int := ((b.hLaunch * 1000 + d) * 3 / 1000 : Nat)
  let step := target - s.clk.thirds
  let s := (s.stepTime step).set RING.TIME_STEP.STEP_NS (ofSigned 32 (satNs (step * 1000 / 3)))
  let s := (s.set GLB.TICK_SEQ.SEQ b.hTseq).joinAcquire
  { s with
    clk := { s.clk with joinD := d },
    inaug := { s.inaug with joined := true } }

/-- A COUNT frame at a node (R118 to R124, R157). -/
def State.countFrame (s : State) (f : RxFrame) (out : Bool) : State :=
  let round := f.bytes.at 4545
  let s := if !s.inaug.counted then
      let s := s.set RING.INAUG_STAT.PHASE Phase.count
      { s with inaug := { s.inaug with counted := true, countSet := s.freezeCountSet, slots := [] } }
    else s
  let s := s.set RING.PEND.NEW_TOPO (f.bytes.le 4546 2)
  let s := if round == 1 then s.measureLoop f out else s
  if out && s.inaug.adopted && !s.inaug.joined && decide (2 ≤ round) then s.joinTime f else s

/-- The phase that a non-master shows follows the frames it accepts (R158). -/
def State.followPhase (s : State) (b : Bytes) : State :=
  if imark b 0xC2 then (if s.phase == Phase.distribute then s else s.set RING.INAUG_STAT.PHASE Phase.claim)
  else if imark b 0xC1 then s
  else if s.phase == Phase.count then s.set RING.INAUG_STAT.PHASE Phase.acquire
  else s

/-- Withdrawal, or NORMAL frames with the running layout: pending state is discarded; a joining node is FREE (R157). -/
def State.discardPending (s : State) : State :=
  let s := s.inaugForget.toPhase Phase.idle
  if s.inaug.adopted then
    let s := (s.set RING.INAUG_STAT.ISTATE Hs.free).set RING.ENG_STAT.ROLE 3
    { s with
      inaug := { s.inaug with adopted := false },
      ring := { s.ring with followUid := 0, followEpoch := 0 } }
  else s

/-- The announcement or the fast-shrink flag of a header (R132, R134, R145). -/
def State.headerEvent (s : State) (b : Bytes) : State :=
  -- the marker stands until the node stages for the frame that carries the announcement (R84)
  let s := if (bit b.hFlags 1 || (bit b.hFlags 0 && b.ftype != 4)) && !s.flag RING.INAUG_STAT.SW_PEND then
      { s with ring := { s.ring with topoChg := false } }
    else s
  if bit b.hFlags 1 then
    let s := (s.setFlag RING.INAUG_STAT.SW_PEND true).set RING.SWITCH_TSEQ.TSEQ b.hEventTseq
    s.set RING.INAUG_STAT.PHASE Phase.shrink
  else if bit b.hFlags 0 && b.ftype != 4 then
    let s := (s.setFlag RING.INAUG_STAT.SW_PEND true).set RING.SWITCH_TSEQ.TSEQ b.hEventTseq
    let s := (s.set RING.PEND.NEW_LAYOUT b.hEventArg).set RING.INAUG_STAT.PHASE Phase.announced
    { s with inaug := { s.inaug with announced := true } }
  else if s.inaug.announced && decide (b.hTseq + 4 ≤ s.get RING.SWITCH_TSEQ.TSEQ) then s.discardPending
  else s

/-- Frames of the own master whose TOPO or LAYOUT differs (R135): after 8 in a row, pass-through, TOPO_CHG and a record. -/
def State.mismatchCheck (s : State) (b : Bytes) : State :=
  if b.hTopo == s.get RING.ENG_STAT.TOPO && b.hLayout == s.get RING.LAYOUT.LAYOUT_VER then
    { s with inaug := { s.inaug with mismatch := 0 } }
  else
    let n := s.inaug.mismatch + 1
    let s := { s with inaug := { s.inaug with mismatch := n } }
    if n = 8 then
      let s := (s.passThrough.post Evt.LAYOUT_MISMATCH 0 (leBytes 2 b.hTopo ++ leBytes 2 b.hLayout)).updateMrole
      { s with ring := { s.ring with topoChg := true } }
    else s

/-- A node that missed the announcement takes TOPO and LAYOUT from its master's first frame after the switch (R136). -/
def State.takeHeaderValues (s : State) (b : Bytes) : State :=
  if s.role == 0 && s.phase == Phase.idle && b.ftype == 1 && !s.inaug.counted then
    (s.set RING.ENG_STAT.TOPO b.hTopo).set RING.LAYOUT.LAYOUT_VER b.hLayout
  else s

/-- The frames of the followed master at a node (R119 to R136, R157). -/
def State.followerFrame (s : State) (f : RxFrame) (out : Bool) : State :=
  let b := f.bytes
  if f.truncated || !b.hdrOk then s
  else if b.ftype == 2 && s.ring.followUid == 0 && s.istate != Hs.dupHold then
    let s := s.adoptHeader f
    let s := { s with inaug := { s.inaug with noFrame := 0 } }
    if imark b 0xC1 then s.countFrame f out else s
  else if b.hMaster != s.ring.followUid || b.hEpoch != s.ring.followEpoch then s
  else
    let s := { s with inaug := { s.inaug with noFrame := 0 } }
    let s := s.mismatchCheck b
    let s := if b.ftype == 2 then
        let s := if imark b 0xC1 then s.countFrame f out else if imark b 0xC2 && !out then s.readSlots f.line b else s
        let s := s.followPhase b
        if out && s.inaug.adopted && s.inaug.joined then s.readJoinEntry f else s
      else if b.ftype == 1 && s.inaug.counted && !s.inaug.announced && b.hLayout == s.get RING.LAYOUT.LAYOUT_VER then
        s.discardPending
      else s.takeHeaderValues b
    s.headerEvent b

/-! ## A candidate and the frames of others (R141 to R143) -/

/-- An INAUG frame of another launcher at a node that launches as a forming candidate, or with its own UID. -/
def State.rivalFrame (s : State) (f : RxFrame) : State :=
  let b := f.bytes
  if f.truncated || !b.hdrOk || b.ftype != 2 then s
  else if b.hMaster == s.uid then
    (if s.launches && !s.inaug.sent.any (fun e => e.1 == b.hTseq && e.2 == b.hLaunch) then s.duplicateUid else s)
  else if s.inaug.launching && !s.isMaster then
    if b.hLayout != 0 || betterRank b.hRank b.hMaster (s.get RING.INAUG_CFG.RANK) s.uid then
      let s := s.stopForming
      let s := s.set RING.INAUG_STAT.ISTATE Hs.free
      { s with ring := { s.ring with followUid := 0, followEpoch := 0 } }
    else s
  else s

/-! ## The master's returns (R99, R102, R118, R120, R122, R125, R145) -/

/-- The offsets that the master relays from a final return (R99): second-arm control words, wafers, units, check entries and
sync entries. -/
def Layout.relayOffsets (l : Layout) : List Nat :=
  ((List.range l.size).map (· + 1)).flatMap (fun p =>
    if l.inSecondArm p && l.owns p then
      l.owned p ++ span (checkOff p) 4 ++ (match (l.pos p).bind (·.sync) with | some e => span (syncOff e) 16 | none => [])
    else [])

/-- Cells of second-arm nodes for the first arm, or broadcast, go into the master's own staging (R102). -/
def State.relayCells (s : State) (l : Layout) (ln : Line) (b : Bytes) : State :=
  [1, 2, 3, 4, 5].foldl (fun (s : State) (c : Nat) =>
    let a := cellOff c
    let src := b.at (a + 2)
    let dst := b.at (a + 4)
    if b.at a / 64 = 1 && l.inSecondArm src && (dst == 0xFF || !l.inSecondArm dst) && dst != s.position then
      let cell := (b.filter (fun e => decide (a ≤ e.1) && decide (e.1 < a + 256))).map (fun e => (e.1 - a, e.2))
      { s with ring := s.ring.setQueue ln (s.ring.queue ln ++ [⟨cell, 0⟩]) }
    else s) s

/-- A frame of its own returns to the launching node (R50, R118, R120, R122). -/
def State.masterReturn (s : State) (f : RxFrame) : State :=
  let b := f.bytes
  let ui := f.arrivalUi - s.ring.launchUi
  let first := f.fore && s.carries (linkOf f.line false) b.ftype
  let endPos := b.at 6217
  let s := if endPos != 0 && b.hTseq == s.tickSeq then
      { s with ring := { s.ring with ends := s.ring.ends ++ [(f.line, b.hTseq, endPos)] } }
    else s
  if first then
    -- the first arm's return goes on into the second arm
    let pt := s.get (RING.LINKLAT.PT_UI (linkOf f.line true).val)
    let s := { s with inaug := { s.inaug with armLoop1 := ui * 320, armDepart2 := (ui + pt) * 320 } }
    if b.ftype == 2 then { s with inaug := { s.inaug with arm1End := b.hHopcnt } } else s
  else
    let s := { s with inaug := { s.inaug with lossWait := false } }
    let s := if s.flag RING.ENG_STAT.RELAY then
        { s with inaug := { s.inaug with armLoop2 := ui * 320 - s.inaug.armDepart2 } }
      else if b.ftype == 2 then { s with inaug := { s.inaug with armLoop1 := ui * 320, armDepart2 := 0, armLoop2 := 0, arm1End := 0 } }
      else s
    let s := match s.layout? with
      | some l =>
        if s.flag RING.ENG_STAT.RELAY then
          let s := { s with ring := { s.ring with relay := Bytes.copyAt [] b l.relayOffsets } }
          if cellFormat b then s.relayCells l f.line b else s
        else { s with ring := { s.ring with relay := [] } }
      | none => s
    if imark b 0xC1 && s.phase == Phase.count then s.countReturn f.line b.hHopcnt
    else if imark b 0xC1 && decide (0 < s.inaug.verify) then
      let size := match s.layout? with | some l => l.size | none => 0
      let s := { s with inaug := { s.inaug with verify := s.inaug.verify - 1 } }
      if b.hHopcnt == size then s else s.inaugTrigger
    else if imark b 0xC2 then s.readSlots f.line b
    else s

/-- Positions that a returned frame reached: between the master and each END_POS of the line. -/
def reachOf (m : Nat) (ends : List Nat) (size : Nat) : Nat :=
  (List.range size).foldl (fun acc i =>
    let p := i + 1
    if p == m || ends.any (fun e => (decide (m ≤ p) && decide (p ≤ e)) || (decide (e ≤ p) && decide (p ≤ m))) then setBit acc i
    else acc) 0

/-- Positions of the layout unreachable on every line that returned frame `tseq` complete; none where none returned (R145). -/
def State.unreachable (s : State) (l : Layout) (tseq : Nat) : Nat :=
  let onLine (ln : Line) : List Nat := (s.ring.ends.filter (fun e => e.1 == ln && e.2.1 == tseq)).map (·.2.2)
  let a := onLine .a
  let b := onLine .b
  if a.isEmpty && b.isEmpty then 0
  else
    let reach := Nat.lor (if a.isEmpty then 0 else reachOf l.masterPos a l.size) (if b.isEmpty then 0 else reachOf l.masterPos b l.size)
    (List.range l.size).foldl (fun m i => if bit reach i || bit s.ring.departed i then m else setBit m i) 0

/-- The master's fast shrink starts where positions are unreachable on every line (R145, R659); an inauguration that can
still be withdrawn is abandoned first (R155). -/
def State.shrinkCheck (s : State) (tseq : Nat) : State :=
  match s.layout? with
  | none => s
  | some l =>
    if !s.isMaster then s
    else
      let gone := s.unreachable l tseq
      let s := { s with ring := { s.ring with ends := s.ring.ends.filter (fun e => seqLater e.2.1 tseq) } }
      if gone = 0 then s else s.inaugDisturbed.shrinkStart tseq gone

/-! ## The launch (R76, R79, R99, R103, R117, R125, R132, R145) -/

/-- Does the launched frame carry the INAUG type: from the first COUNT frame to the frame before the switch tick (R117)? -/
def State.launchesInaug (s : State) : Bool :=
  s.hopCells || decide (0 < s.inaug.verify)

/-- The mark of the frame to launch: COUNT, CLAIM, or none for the cell format (R117, R125). -/
def State.launchMark (s : State) : Option Nat :=
  if s.phase == Phase.count || decide (0 < s.inaug.verify) then some 0xC1
  else if s.phase == Phase.claim && decide (0 < s.inaug.claimPair) then some 0xC2
  else none

/-- The inauguration control block (R125). -/
def State.controlBlock (s : State) (mark : Nat) (l : Line) (b : Bytes) : Bytes :=
  let prev := match l with | .a => s.inaug.prevA | .b => s.inaug.prevB
  let b := (b.setSlice 4544 ([mark, s.inaug.iround] ++ leBytes 2 (s.get RING.PEND.NEW_TOPO) ++ leBytes 4 s.inaug.inaugTseq ++
    [prev, s.inaug.arm1End]))
  let b := ((b.setLe 4556 4 s.inaug.armLoop1).setLe 4560 4 s.inaug.armDepart2).setLe 4564 4 s.inaug.armLoop2
  b.setLe 4668 4 (crc32c (b.slice 4544 124))

/-- The positions whose MSG_PEND was set in the last merged control segment, from the one after the position served last
(R103). -/
def State.pendPositions (s : State) (l : Layout) : List Nat :=
  let all := ((List.range l.size).map (· + 1)).filter (fun p => bit (s.ring.merged.at (ctrlOff p + 1)) 6)
  all.filter (fun p => decide (s.ring.lastServed < p)) ++ all.filter (fun p => decide (p ≤ s.ring.lastServed))

/-- A finished cell, its CCHK written. -/
def sealCell (c : Bytes) : Bytes := c.setLe 252 4 (crc32c (c.slice 0 252))

/-- Cell 0 of the frame to launch (R103, R132, R145): the SHRINK or ANNOUNCE cell where one is due, else empty; always in
state MASTER. -/
def State.cellZero (s : State) : Bytes × Bool × State :=
  let plain (payload : List Nat) : Bytes := sealCell ((s.cellPlain (0x80 + Kind.inaug) 0xFF 0xFF s.ring.msgId 0 true payload))
  let empty := sealCell (s.cellPlain 0x80 0xFF 0xFF 0 0 false [])
  match s.inaug.shrink with
  | some r => (plain (5 :: leBytes 2 r.topo ++ leBytes 4 r.departed ++ leBytes 4 r.tick), true, s)
  | none =>
    if s.phase == Phase.announced then
      match s.txKey with
      | none => (empty, false, s)
      | some k =>
        let s := s.reserveNonce
        let ctr := s.get RING.NONCE.CTR
        let b := (s.cellPlain (0xA0 + Kind.inaug) 0xFF 0xFF s.ring.msgId 0 true
          (8 :: leBytes 2 (s.get RING.PEND.NEW_TOPO) ++ leBytes 2 (s.get RING.PEND.NEW_LAYOUT) ++
            leBytes 4 (s.get RING.SWITCH_TSEQ.TSEQ) ++ leBytes 4 s.inaug.excluded)).setLe 16 4 ctr
        let nonce := gcmNonce s.uid ctr
        let b := b.setSlice 20 ((Config.gcmCrypt k nonce (b.slice 20 212)).take 212)
        let b := b.setLe 232 16 (Config.gcmTag k nonce (b.slice 0 20) (b.slice 20 212))
        (sealCell b, true, s.set RING.NONCE.CTR (ctr + 1))
    else (empty, false, s)

/-- The message segment in cell format (R103, R131): cell 0 MASTER, taking a waiting unencrypted cell where nothing else is
due; cells 1 to 5 FREE with their PREF, then claimed by the master as the first node on the out pass. -/
def State.launchCells (s : State) (ln : Line) (b : Bytes) : Bytes × State :=
  let (c0, busy, s) := s.cellZero
  let (c0, s) := if busy then (c0, s) else
    match s.ring.queue ln with
    | c :: rest =>
      if bit (c.bytes.at 0) 5 || !s.cellReady c then (c0, s)
      else (sealCell (c.bytes.setAt 0 (0x80 + c.bytes.at 0 % 64)),
        { s.count RING.CELL_TX.PLACED 1 with ring := s.ring.setQueue ln rest })
    | [] => (c0, s)
  let b := b.overlay (c0.map (fun e => (e.1 + cellOff 0, e.2)))
  let prefs := match s.layout? with | some l => s.pendPositions l | none => []
  let b := [1, 2, 3, 4, 5].foldl (fun (b : Bytes) (c : Nat) =>
    let p := prefs.getD (c - 1) 0
    b.overlay ((sealCell (Bytes.setAt [] 1 (s.cellDst 0 p))).map (fun e => (e.1 + cellOff c, e.2)))) b
  let served := (prefs.take 5).getLast?
  let s := { s with ring := { s.ring with lastServed := served.getD s.ring.lastServed } }
  s.claimCells ln b s.cellAddr s.cellAddr 5

/-- The header of the frame to launch (R79, R117, R132, R145). `sleep`: SLEEP frames with this sleep tick, where the
announcement stands. -/
def State.launchHeader (s : State) (ln : Line) (launchNs : Nat) (sleep : Option (Option Nat)) : Bytes :=
  let inaug := s.launchesInaug
  let ft := if inaug then 2 else if sleep.isSome then 4 else 1
  let shrink := s.inaug.shrink.isSome
  let ev := shrink || (s.phase == Phase.announced) || (s.flag RING.INAUG_STAT.SW_PEND) || (match sleep with | some (some _) => true | _ => false)
  let evTick := if s.flag RING.INAUG_STAT.SW_PEND then s.get RING.SWITCH_TSEQ.TSEQ
    else match sleep with | some (some t) => t | _ => 0
  let evArg := if s.flag RING.INAUG_STAT.SW_PEND && !shrink then s.get RING.PEND.NEW_LAYOUT else 0
  let relay := s.flag RING.ENG_STAT.RELAY
  let b := Bytes.setSlice [] 0 [ft, 16 + (match ln with | .a => 0 | .b => 1)]
  let b := (((b.setLe 2 2 (s.get RING.ENG_STAT.TOPO)).setLe 4 4 s.tickSeq).setLe 8 2 (s.get RING.LAYOUT.LAYOUT_VER)).setLe 10 2
    s.ring.followEpoch
  let b := (b.setAt 12 (s.get RING.INAUG_CFG.RANK)).setAt 13 (if inaug then 1 else 0)
  let b := (b.setLe 14 2 (b2n ev + 2 * b2n shrink + 4 * b2n relay)).setLe 16 8 s.ring.followUid.toNat
  let b := ((b.setLe 24 8 launchNs).setLe 32 4 evTick).setLe 36 2 evArg
  b.setLe 38 4 (if relay then s.inaug.armDepart2 else 0)

/-- The master's sync entry at launch (R163, R164, R200): entry 0, or the own entry of a cold standby until the next switch. -/
def State.launchSync (s : State) (b : Bytes) (launchNs : Nat) : Bytes :=
  let own := s.flag RING.SYNC_OWN.SYNC_NODE
  if s.layout?.isSome && s.red.noEntryZero && !own then b
  else
    let e := if s.layout?.isSome && own then s.get RING.SYNC_OWN.ENTRY else 0
    let a := syncOff e
    let b := ((b.setLe a 8 launchNs).setAt (a + 8) s.position).setAt (a + 9) (1 + 2 * b2n s.inSync)
    b.setLe (a + 12) 4 (crc32c (b.slice a 12))

/-- The bytes that the master owns in its own frame: its region, where a layout is in force (R79, R93). -/
def State.launchRegion (s : State) (b : Bytes) : Bytes × State :=
  match s.layout? with
  | none => (b, s)
  | some l =>
    let p := s.position
    let s := s.decideStaging l p s.tickSeq
    (b.copyAt (s.decided s.tickSeq) (l.owned p ++ span (checkOff p) 4), s)

/-- Launch one line's frame. -/
def State.launchLine (s : State) (ln : Line) (launchNs : Nat) (sleep : Option (Option Nat)) : State :=
  let b := (s.launchHeader ln launchNs sleep).overlay s.ring.relay
  let (b, s) := s.launchRegion b
  let b := s.launchSync b launchNs
  let (b, s) := match s.launchMark with
    | some m =>
      let b := s.controlBlock m ln b
      if m == 0xC2 then s.writeSlot ⟨ln, true, b, false, launchNs, 0⟩ b false else (b, s)
    | none => s.launchCells ln b
  let b := (b.setLe 6208 4 (crc32c (b.slice 0 64))).setLe 6212 4 s.tickSeq
  let fore := s.carries (linkOf ln true) b.ftype || !s.carries (linkOf ln false) b.ftype
  s.emit (.frame ln fore b)

/-- Launch the frame of this tick on every enabled line (R76, R117, R145): the SHRINK cell travels in the two frames before
the shrink tick. A master that yields launches nothing (R206). -/
def State.launchFrame (s : State) (launchNs launchUi : Nat) (sleep : Option (Option Nat)) : State :=
  if !s.launches then s
  else
    let s := { s with
      ring := { s.ring with launchUi := launchUi },
      inaug := { s.inaug with sent := (s.inaug.sent ++ [(s.tickSeq, launchNs)]).drop (s.inaug.sent.length - 15) } }
    let s := if s.phase == Phase.count then
        { s with inaug := { s.inaug with iround := min (s.inaug.iround + 1) 255 } }
      else s
    let s := if s.getBit RING.PORT_CFG.LINE_EN 0 then s.launchLine .a launchNs sleep else s
    let s := if s.getBit RING.PORT_CFG.LINE_EN 1 then s.launchLine .b launchNs sleep else s
    let s := { s with ring := { s.ring with cseq := (s.ring.cseq + 1) % 2 ^ 16 } }
    if s.phase == Phase.claim then { s with inaug := { s.inaug with claimPair := s.inaug.claimPair - 1 } } else s

/-! ## What an INAUG or LAYOUT message does (R113, R130, R131, R136, R145, R151, R660) -/

/-- An INAUG message (table "INAUG cell subtypes"). -/
def State.inaugMessage (s : State) (m : Message) : State :=
  let b := Bytes.setSlice [] 0 m.bytes
  match b.at 0 with
  | 1 =>
    if s.isMaster then
      let s := { s with inaug := { s.inaug with
        reports := s.inaug.reports.filter (fun e => e != (m.srcPos, b.at 1)) ++ [(m.srcPos, b.at 1)] } }
      if b.at 3 ≤ Hs.forming then s.inaugTrigger else s
    else s
  | 2 =>
    if b.le 1 4 == s.claim.claimId then s.stageMessage Kind.inaug 1 0xFF (3 :: leBytes 4 s.claim.claimId) else s
  | 3 =>
    if s.inaug.claimCache.contains (b.le 1 4) then s
    else { s with inaug := { s.inaug with claimCache := s.inaug.claimCache ++ [b.le 1 4] } }
  | 4 =>
    match s.inaug.image with
    | some l =>
      if s.launches && b.le 1 2 == l.version && b.le 3 4 == l.lchk && !s.inaug.acked.contains m.srcPos then
        { s with inaug := { s.inaug with acked := s.inaug.acked ++ [m.srcPos] } }
      else s
    | none => s
  | 5 =>
    let tick := b.le 7 4
    let s := s.set RING.PEND.NEW_TOPO (b.le 1 2)
    if s.isMaster then s
    else { s with inaug := { s.inaug with shrink := some ⟨tick, b.le 1 2, b.le 3 4⟩ } }
  | 6 =>
    if b.at 1 == 0xFF && s.isMaster then
      let body : Bytes := (b.filter (fun e => decide (3 ≤ e.1))).map (fun e => (e.1 - 3, e.2))
      let r := State.readHandshake body true 0
      s.mergeMessage (b.at 2) (body.at 65) r body 0 0
    else if s.isMaster then s
    else
      let s := s.set RING.INAUG_STAT.PHASE Phase.merge
      { s with inaug := { s.inaug with merge := { s.inaug.merge with
          phase := .d, winner := false, mergeTick := b.le 1 4, stepNs := toSigned 64 (b.le 5 8) } } }
  | 7 => s.inaugTrigger
  | 8 =>
    let h := s.hopIndex
    { s with inaug := { s.inaug with excludedSelf := decide (0 < h) && bit (b.le 9 4) (h - 1) } }
  | _ => s

/-- A LAYOUT message (R131, R660): an image whose LCHK is right and that binds no stream twice is acknowledged and held. -/
def State.layoutMessage (s : State) (m : Message) : State :=
  let s := if s.launches then s else s.set RING.INAUG_STAT.PHASE Phase.distribute
  match Layout.ofImage (Bytes.setSlice [] 0 m.bytes) with
  | some l =>
    if s.launches then s
    else
      let s := { s with inaug := { s.inaug with image := some l } }
      if l.valid then
        (s.set RING.PEND.NEW_LAYOUT l.version).stageMessage Kind.inaug 1 0xFF (4 :: leBytes 2 l.version ++ leBytes 4 l.lchk)
      else s
  | none => s

end Sys2Proof.Machine
end

