-- ==== Sys2Proof/Machine/Audio.lean ====
section
/-! DEFINITION. Audio ports, the routing matrix and the zones (chapter 07, R212 to R258). Rounding that the spec does not
state comes from Config (notes/assumptions/3.md); exact cases are exact here. -/

namespace Sys2Proof.Machine

/-! ## Arithmetic -/

/-- Saturate to 24 bits. -/
def sat24 (x : Int) : Int := satSigned 24 x

/-- Does the value exceed 24 bits? -/
def over24 (x : Int) : Bool := sat24 x != x

/-- A quotient: exact where it is, else as the hardware rounds it. -/
def ratio (num : Int) (den : Nat) : Int :=
  if den = 0 then 0 else if num % den = 0 then num / den else Config.roundRatio num den

/-- Fixed-point units of gain: 1/1,048,576 of 0.1 dB. -/
abbrev gainUnit : Int := 1048576

/-- A sample under a gain: unchanged at 0 dB. -/
def underGain (g x : Int) : Int := if g = 0 then x else Config.gainScaled g x

/-- The magnitude of a level: full scale at 0 dBFS. -/
def levelMag (tenths : Int) : Nat := if tenths = 0 then 2 ^ 23 - 1 else Config.levelOf tenths

/-! ## Sources (R212, R249, R250) -/

/-- Index ranges of the sources (R212). -/
abbrev srcTdm : Nat := 0x200
abbrev srcMic : Nat := 0x280
abbrev srcHost : Nat := 0x290
abbrev srcAes : Nat := 0x2D0
abbrev srcVoice : Nat := 0x3D0
abbrev srcGen : Nat := 0x3F0
abbrev srcAec : Nat := 0x400
abbrev srcZone : Nat := 0x410

/-- Is the index one of R212's table? -/
def srcDefined (i : Nat) : Bool := decide (i < 0x3F8) || (decide (0x400 ≤ i) && decide (i ≤ 0x407)) || (decide (0x410 ≤ i) && decide (i ≤ 0x41F))

/-- No sample: silence, inactive. -/
def Sample.none : Sample := ⟨0, false, false, 0, 1, 1, false⟩

/-- A fresh sample. -/
def Sample.fresh (v : Int) (prio : Nat) : Sample := ⟨v, true, false, prio, 1, 1, true⟩

/-- Does the sample make its source active (R249)? -/
def Sample.active (x : Sample) : Bool := x.valid && x.live

/-- The sample's contribution (R249, R250). -/
def Sample.contrib (x : Sample) : Int := if x.valid then ratio (x.value * x.num) x.den else 0

/-- A source's record; a source that has delivered nothing has an empty history. -/
def AudSt.source (a : AudSt) (i : Nat) : SourceSt :=
  match a.sources.find? (fun x => x.ix == i) with | some x => x | none => ⟨i, [], 0, 0, 0⟩

/-- Deliver a sample of capture tick `n` to a source: the stale run and its recovery follow (R249, R250). -/
def SourceSt.deliver (x : SourceSt) (n : Nat) (p : Sample) : SourceSt :=
  if p.valid && p.stale then
    let q := { p with num := 240 - min x.run 240, den := 240, live := decide (x.run < 240) }
    { x with hist := ((n, q) :: x.hist).take 8, run := x.run + 1, ended := min (x.run + 1) 240, recover := 48 }
  else if p.valid && x.recover != 0 then
    let left := x.recover - 1
    let f := 240 - (x.ended - 1)
    let q := { p with num := f * 48 + (240 - f) * (48 - left), den := 240 * 48, live := true }
    { x with hist := ((n, q) :: x.hist).take 8, run := 0, recover := left }
  else { x with hist := ((n, { p with num := 1, den := 1, live := p.valid }) :: x.hist).take 8, run := 0, recover := if p.valid then x.recover else 0 }

/-- Deliver a sample to a source. -/
def State.deliver (s : State) (i n : Nat) (p : Sample) : State :=
  let x := (s.aud.source i).deliver n p
  { s with aud := { s.aud with sources := s.aud.sources.filter (fun (y : SourceSt) => y.ix != i) ++ [x] } }

/-- The last sample a source delivered. -/
def State.lastSample (s : State) (i : Nat) : Sample :=
  match (s.aud.source i).hist with | (_, p) :: _ => p | [] => .none

/-- A STALE repeat of a source's last sample, or no sample where that had none (R221, R227). -/
def State.deliverRepeat (s : State) (i n : Nat) : State :=
  let p := s.lastSample i
  s.deliver i n (if p.valid then { p with stale := true } else .none)

/-- A source's sample of capture tick `n`. -/
def State.sampleAt (s : State) (i n : Nat) : Sample :=
  match (s.aud.source i).hist.find? (fun e => e.1 == n) with | some e => e.2 | none => .none

/-- The 24-bit value of raw bits under a trim, saturated (R221, R224). -/
def State.trimmed (s : State) (i raw : Nat) : Int :=
  let x := toSigned 24 (raw % 2 ^ 24)
  match s.aud.trims.find? (fun t => t.1 == i) with
  | some t => sat24 (underGain (t.2 * gainUnit) x)
  | none => x

/-! ## Meters (R258) -/

/-- The meter registers of an index: TDM channel 0 to 127, microphone 128 to 143. -/
def meterFlds (i : Nat) : Fld × Fld × Fld :=
  if i < 128 then (AUD.METER_TDM.PEAK i, AUD.METER_TDM.RMS i, AUD.METER_TDM.CLIP i)
  else (AUD.METER_MIC.PEAK (i - 128), AUD.METER_MIC.RMS (i - 128), AUD.METER_MIC.CLIP (i - 128))

/-- A sample at full scale. -/
def atFullScale (x : Int) : Bool := x == 2 ^ 23 - 1 || x == -(2 ^ 23 : Int)

/-- A sample passes a meter. -/
def State.meter (s : State) (i : Nat) (x : Int) : State :=
  let (pk, rms, clip) := meterFlds i
  let s := s.set pk (max (s.get pk) (x.natAbs / 256))
  let s := if atFullScale x then s.count clip 1 else s
  let old := match s.aud.meters.find? (fun e => e.1 == i) with | some e => e.2 | none => []
  let win := (x :: old).take 48
  let sq := win.foldl (fun a y => a + y.natAbs * y.natAbs) 0
  let s := { s with aud := { s.aud with meters := s.aud.meters.filter (fun (e : Nat × List Int) => e.1 != i) ++ [(i, win)] } }
  s.set rms (if sq = 0 then 0xFF else min (Config.rmsSteps sq) 0xFF)

/-! ## TDM ports (R215 to R221) -/

/-- Slots per frame of a port (R215). -/
def State.tdmSlots (s : State) (n : Nat) : Nat := 2 * 2 ^ s.get (AUD.TDM_CFG.SLOTS n)
/-- Is the port an output? -/
def State.tdmOut (s : State) (n : Nat) : Bool := s.flag (AUD.TDM_CFG.DIR n)
/-- Is the port running? -/
def State.tdmRuns (s : State) (n : Nat) : Bool := s.flag (AUD.TDM_STAT.RUN n)

/-- The hidden part of a port. -/
def AudSt.port (a : AudSt) (n : Nat) : TdmSt := a.tdm.getD n ⟨none, false, 0, 0⟩
/-- Replace it. -/
def State.setPort (s : State) (n : Nat) (p : TdmSt) : State :=
  { s with aud := { s.aud with tdm := s.aud.tdm.set n p } }

/-- Show RUN and the copy in AUD.STAT.PORT_RUN. -/
def State.setTdmRun (s : State) (n : Nat) (on : Bool) : State :=
  (s.setFlag (AUD.TDM_STAT.RUN n) on).putBit AUD.STAT.PORT_RUN n on

/-- Writing EN from 0 to 1 starts the port at the second boundary after the write (R219). -/
def State.tdmEnable (s : State) (n : Nat) : State :=
  if s.flag (AUD.TDM_CFG.EN n) then s
  else (s.setFlag (AUD.TDM_CFG.EN n) true).setPort n ⟨some 2, false, 0, 0⟩

/-- Writing EN from 1 to 0 stops the port at the end of the frame in progress (R219). -/
def State.tdmDisable (s : State) (n : Nat) : State :=
  if !s.flag (AUD.TDM_CFG.EN n) then s
  else
    let s := s.setFlag (AUD.TDM_CFG.EN n) false
    s.setPort n { s.aud.port n with startIn := none, stopping := s.tdmRuns n }

/-- TDM_PORT_ENABLE (R219). -/
def execTdmPortEnable (n : Fin 8) (s : State) : Host.Outcome State Fault Refusal := 
  .next (s.access (AUD.TDM_CFG.off n) (fun s => s.tdmEnable n.val))

/-- The port starts where it is due and the media-clock PLL is locked (R219). -/
def State.tdmStart (s : State) (n : Nat) : State :=
  let p := s.aud.port n
  if s.flag (AUD.TDM_CFG.EN n) && p.startIn == some 0 && s.flag SYNC.MCLK_STAT.PLL_LOCK then
    (s.setTdmRun n true).setPort n { p with startIn := none }
  else s

/-- TDM_PORT_START (R219): the enabled port starts driving frames at the second boundary after the write. -/
def execTdmPortStart (n : Fin 8) (s : State) : Host.Outcome State Fault Refusal := .next (s.tdmStart n.val)

/-- TDM_PORT_DISABLE (R219). -/
def execTdmPortDisable (n : Fin 8) (s : State) : Host.Outcome State Fault Refusal := 
  .next (s.access (AUD.TDM_CFG.off n) (fun s => s.tdmDisable n.val))

/-- A port stops at the end of its frame: its channels read VALID = 0 from the following tick (R219). -/
def State.tdmStop (s : State) (n : Nat) : State :=
  let p := s.aud.port n
  if p.stopping then (s.setTdmRun n false).setPort n { p with stopping := false, bad := 0, good := 0 } else s

/-- One frame's FSYNC read-back (R220): 3 mismatches in a row set PIN_FAULT; 48 frames without clear it. -/
def State.tdmReadback (s : State) (n : Nat) (mismatch : Bool) : State :=
  let p := s.aud.port n
  if mismatch then
    let s := s.setPort n { p with bad := p.bad + 1, good := 0 }
    if p.bad + 1 = 3 && !s.flag (AUD.TDM_STAT.PIN_FAULT n) then
      ((s.setFlag (AUD.TDM_STAT.PIN_FAULT n) true).count (AUD.TDM_ERR.PIN_FAULT_CNT n) 1).evtBit AUD.PORT_EVT.PIN_FAULT n
        Src.AUD_PORT_ERR
    else s
  else
    let s := s.setPort n { p with bad := 0, good := p.good + 1 }
    if 48 ≤ p.good + 1 then s.setFlag (AUD.TDM_STAT.PIN_FAULT n) false else s

/-- The boundaries that a waiting start counts down. -/
def State.tdmCountdown (s : State) (n : Nat) : State :=
  let p := s.aud.port n
  match p.startIn with
  | some (k + 1) => s.setPort n { p with startIn := some k }
  | _ => s

/-- An input port's frame (R216, R217, R221): samples of capture tick `n`; slots not reached by a shortened frame repeat. -/
def State.tdmInput (s : State) (n port : Nat) (slots : List Nat) : State :=
  if !s.tdmRuns port || s.tdmOut port then s
  else
    let cap := if s.flag (AUD.TDM_CFG.SYNC_MODE port) then n + 1 else n
    (List.range (s.tdmSlots port)).foldl (fun (s : State) (k : Nat) =>
      let i := srcTdm + 16 * port + k
      match slots[k]? with
      | some raw =>
        let raw := if s.flag (AUD.TDM_CFG.SAMPLE_W port) then raw / 256 % 2 ^ 16 * 256 else raw
        let x := s.trimmed i raw
        let s := (s.deliver i cap (.fresh x 0)).meter (16 * port + k) x
        if atFullScale x then (s.count (AUD.TDM_ERR.IN_CLIP port) 1).evtBit AUD.CLIP_EVT.IN_PORT port Src.AUD_CLIP else s
      | none => s.deliverRepeat i cap) s

/-! ## Microphones (R223 to R225) -/

/-- One tick of a microphone: `raw` after the decimator; `flat`: all its bits were equal. -/
def State.micTick (s : State) (n m : Nat) (raw : Nat) (flat : Bool) : State :=
  if !s.getBit AUD.PDM_CFG.MIC_EN m then s
  else
    let x := s.aud.mics.getD m ⟨0, 0⟩
    let x : MicSt := if flat then ⟨x.const + 1, 0⟩ else ⟨0, x.mixed + 1⟩
    let s := { s with aud := { s.aud with mics := s.aud.mics.set m x } }
    let was := s.getBit AUD.PDM_STAT.MIC_STUCK m
    let s := if x.const = 48 && !was then
        (s.putBit AUD.PDM_STAT.MIC_STUCK m true).evt AUD.PORT_EVT.MIC_STUCK 1 Src.AUD_PORT_ERR
      else if 48 ≤ x.mixed then s.putBit AUD.PDM_STAT.MIC_STUCK m false
      else s
    let i := srcMic + m
    if s.getBit AUD.PDM_STAT.MIC_STUCK m then s.deliver i n .none
    else
      let v := s.trimmed i raw
      let s := (s.deliver i n (.fresh v 0)).meter (128 + m) v
      if atFullScale v then s.evtBit AUD.CLIP_EVT2.MIC m Src.AUD_CLIP else s

/-- The PDM clocks run while a microphone of their lines is enabled (R223). -/
def State.pdmClocks (s : State) : State :=
  (List.range 4).foldl (fun (s : State) (m : Nat) =>
    s.putBit AUD.PDM_STAT.CLK_RUN m (s.get AUD.PDM_CFG.MIC_EN / 2 ^ (4 * m) % 16 != 0)) s

/-! ## Host audio channels (R226 to R229) -/

/-- The 64-bit address of a ring base register pair. -/
def State.ringBase (s : State) (lo hi : Fld) : Nat := s.get lo / 256 * 256 + 2 ^ 32 * s.get hi

/-- All host playback channels repeat (R227). -/
def State.hostRepeat (s : State) (n : Nat) : State :=
  (List.range 64).foldl (fun (s : State) (h : Nat) =>
    if (s.lastSample (srcHost + h)).valid then s.deliverRepeat (srcHost + h) n else s) s

/-- The playback ring at a boundary (R227): an outstanding read, or an underrun. -/
def State.hdmaPlay (s : State) (n : Nat) : State :=
  if !s.flag AUD.HDMA_CTRL.PLAY_EN || s.straps.hostSpi then s
  else
    let rd := s.get AUD.HDMA_PLAY_IDX.RD
    if rd = s.get AUD.HDMA_PLAY_IDX.WR then
      let s := (s.count AUD.HDMA_CNT.UNDERRUN 1).evt AUD.PORT_EVT.HDMA_UNDERRUN 1 Src.AUD_PORT_ERR
      { s.hostRepeat n with aud := { (s.hostRepeat n).aud with hdmaMiss := s.aud.hdmaMiss + 1 } }
    else
      let s := s.emit (.busRead (s.ringBase AUD.HDMA_PLAY_LO.ADDR AUD.HDMA_PLAY_HI.ADDR + 256 * rd))
      let s := s.set AUD.HDMA_PLAY_IDX.RD ((rd + 1) % max (s.get AUD.HDMA_CTRL.DEPTH) 1)
      { s with aud := { s.aud with hdmaRead := true } }

/-- HDMA_READ_COMPLETE (R227): in time, by 18.0 µs, the words are the tick's samples; later they are lost and counted. -/
def execHdmaReadComplete (words : List Nat) (phaseNs : Nat) (s : State) : Host.Outcome State Fault Refusal :=
  .next (if !s.aud.hdmaRead then s
    else
      let s := { s with aud := { s.aud with hdmaRead := false } }
      -- in twin mode one tick later (R192)
      let n := s.clk.n + b2n s.twinOn
      if phaseNs ≤ 18000 then
        let s := { s with aud := { s.aud with hdmaMiss := 0 } }
        (List.range 64).foldl (fun (s : State) (h : Nat) =>
          let w := words.getD h 0
          s.deliver (srcHost + h) n (if bit w 7 then .fresh (toSigned 24 (w / 256 % 2 ^ 24)) 0 else .none)) s
      else
        let s := (s.count AUD.HDMA_CNT.LATE 1).evt AUD.PORT_EVT.HDMA_LATE 1 Src.AUD_PORT_ERR
        let s := { s with aud := { s.aud with hdmaMiss := s.aud.hdmaMiss + 1 } }
        s.hostRepeat n)

/-- The last output of a sink. -/
def State.sinkOut (s : State) (k : Nat) : Sample :=
  match s.aud.outs.find? (fun e => e.1 == k) with | some e => e.2 | none => .none

/-- The capture ring (R226, R228): tick `n`'s send-stage outputs of the 64 host capture channels go into slot WR. -/
def State.hdmaCapture (s : State) (n : Nat) : State :=
  if !s.flag AUD.HDMA_CTRL.CAP_EN || s.straps.hostSpi then s
  else
    let wr := s.get AUD.HDMA_CAP_IDX.WR
    let next := (wr + 1) % max (s.get AUD.HDMA_CTRL.DEPTH) 1
    if next = s.get AUD.HDMA_CAP_IDX.RD then
      (s.count AUD.HDMA_CNT.OVERRUN 1).evt AUD.PORT_EVT.HDMA_OVERRUN 1 Src.AUD_PORT_ERR
    else
      let bytes := (List.range 64).flatMap (fun h =>
        let p := s.sinkOut (0x210 + h)
        leBytes 4 (ofSigned 24 p.value * 256 + 128 * b2n p.valid + 64 * b2n p.stale + n % 8))
      let s := s.emit (.busWrite (s.ringBase AUD.HDMA_CAP_LO.ADDR AUD.HDMA_CAP_HI.ADDR + 256 * wr) bytes)
      (s.set AUD.HDMA_CAP_IDX.WR next).set AUD.HDMA_CAP_TSEQ.TSEQ (n % 2 ^ 32)

/-! ## The matrix (R232 to R236) -/

/-- Is the sink of the send stage (R213)? -/
def sendSink (k : Nat) : Bool := decide (0x190 ≤ k)

/-- Set a crosspoint's target and ramp, from the gain then applied (R232, R233). The ramp time is in ms. -/
def Xpoint.aim (x : Xpoint) (target : Option Int) (ms : Nat) : Xpoint :=
  let ticks := 48 * ms
  let fromG := match x.applied with | some g => g | none => -1200 * gainUnit
  let toG := match target with | some t => t * gainUnit | none => -1200 * gainUnit
  if ticks = 0 then { x with target := target, applied := target.map (· * gainUnit), step := 0, left := 0 }
  else { x with target := target, applied := some fromG, step := (toG - fromG) / ticks, left := ticks }

/-- One tick of a ramp. -/
def Xpoint.tick (x : Xpoint) : Xpoint :=
  if x.left = 0 then x
  else if x.left = 1 then { x with applied := x.target.map (· * gainUnit), step := 0, left := 0 }
  else { x with applied := x.applied.map (· + x.step), left := x.left - 1 }

/-- The age of a source at a send sink (R235): 3 ticks for a ring input, 1 for every other. -/
def srcAge (i : Nat) : Nat := if i < 0x200 then 3 else 1

/-- Ring inputs are muted at a merge, and rise after it (R253). -/
def State.mergeGain (s : State) (i : Nat) (x : Int) : Int :=
  if 0x200 ≤ i then x
  else if s.inaug.merge.muted then 0
  else if s.inaug.merge.rise = 0 then x
  else ratio (x * (48 - s.inaug.merge.rise : Nat)) 48

/-- The crosspoints of a sink. -/
def AudSt.feeds (a : AudSt) (k : Nat) : List Xpoint := a.xps.filter (fun x => x.sink == k)

/-- The exact sum of a sink's crosspoints at capture tick `c`, and whether a source is active (R234, R251). -/
def State.sumSink (s : State) (k c : Nat) : Int × Bool :=
  (s.aud.feeds k).foldl (fun (acc : Int × Bool) x =>
    let p := s.sampleAt x.src c
    match x.applied with
    | some g => (acc.1 + underGain g (s.mergeGain x.src p.contrib), acc.2 || p.active)
    | none => acc) (0, false)

/-- Is the sink a direct route (R236): one crosspoint at 0.0 dB, no ramp, whose source is no ring input and no zone? -/
def State.directRoute (s : State) (k : Nat) : Option Nat :=
  if 0x190 ≤ k && k < 0x210 then
    match s.aud.feeds k with
    | [x] => if x.applied == some 0 && x.left == 0 && decide (0x200 ≤ x.src) && decide (x.src < srcZone) then some x.src else none
    | _ => none
  else none

/-- Has the job that feeds the sink overrun, so that its output repeats with STALE (R39, R251)? -/
def State.sinkOverran (s : State) (k : Nat) : Bool := s.jobs.any (fun j => j.stale && j.sinks.contains k)

/-- What an overrun job publishes (R39, R42): its previous output with STALE, or silence with STALE where it has not run yet. -/
def State.overrunOut (s : State) (k : Nat) (last : Sample) : Sample :=
  if s.jobs.any (fun (j : Job) => j.stale && !j.ran && j.sinks.contains k) then ⟨0, true, true, 0, 1, 1, true⟩
  else { last with stale := true }

/-- Store a sink's output. -/
def State.setOut (s : State) (k : Nat) (p : Sample) : State :=
  { s with aud := { s.aud with outs := s.aud.outs.filter (fun (e : Nat × Sample) => e.1 != k) ++ [(k, p)] } }

/-- A mixed sink's output (R234, R251), or the STALE repeat of an overrun job. The flag says that the sum saturated. -/
def State.mixSink (s : State) (k c : Nat) : State × Bool :=
  if s.sinkOverran k then (s.setOut k (s.overrunOut k (s.sinkOut k)), false)
  else
    let (v, act) := s.sumSink k c
    (s.setOut k ⟨sat24 v, act, false, 0, 1, 1, act⟩, over24 v)

/-- The sinks that some crosspoint feeds, each once. -/
def AudSt.fedSinks (a : AudSt) : List Nat :=
  a.xps.foldl (fun acc x => if acc.contains x.sink then acc else acc ++ [x.sink]) []

/-- The send stage of tick `n` (R234, R235): sources aligned at the largest age. -/
def State.sendStage (s : State) (n : Nat) : State :=
  (s.aud.fedSinks.filter sendSink).foldl (fun (s : State) (k : Nat) =>
    match s.directRoute k with
    | some src => s.setOut k (s.sampleAt src n)
    | none =>
      let age := (s.aud.feeds k).foldl (fun a x => max a (srcAge x.src)) 1
      let (s, clip) := s.mixSink k (n - age)
      if clip then (s.count AUD.SEND_CLIP.COUNT 1).evt AUD.CLIP_EVT2.SEND 1 Src.AUD_CLIP else s) s

/-! ## Zones (R241 to R248) -/

/-- The zone. -/
def AudSt.zone (a : AudSt) (z : Nat) : ZoneSt := a.zones.getD z ZoneSt.reset
/-- Replace it. -/
def State.setZone (s : State) (z : Nat) (x : ZoneSt) : State :=
  { s with aud := { s.aud with zones := s.aud.zones.set z x } }

/-- The sink of a zone candidate. -/
def candSink (z c : Nat) : Nat := 0x080 + 16 * z + c

/-- A candidate in a tick: whether it is active, its PRIO, whether an active source is in a stale run, and whether its
sources' stale fade ended (R241, R242, R249). -/
structure CandNow where
  active : Bool
  prio : Nat
  stale : Bool
  faded : Bool
  deriving DecidableEq, Repr

/-- Look at a candidate's sources at capture tick `c`. -/
def State.candNow (s : State) (z i : Nat) (x : CandSt) (c : Nat) : CandNow :=
  let ps := (s.aud.feeds (candSink z i)).map (fun f => (f.src, s.sampleAt f.src c))
  let act := ps.filter (fun e => e.2.active)
  let tag := (act.filter (fun e => decide (e.1 < 0x200))).foldl (fun m e => max m e.2.prio) 0
  ⟨!act.isEmpty, if x.tag then tag else x.prio, act.any (fun e => e.2.stale),
    ps.any (fun e => e.2.valid && e.2.stale && !e.2.live)⟩

/-- Fixed-point units of duck gain: 1/1,048,576 dB. -/
abbrev duckUnit : Int := 1048576

/-- One tick of a candidate's duck gain (R243). `forced`: muted whatever the depth. -/
def CandSt.duckTick (x : CandSt) (z : ZoneSt) (below forced : Bool) : CandSt :=
  let depth : Int := match z.depth with | some d => -(d : Int) * duckUnit | none => -120 * duckUnit
  let x := { x with mute := if forced then min (x.mute + 1) 48 else 0 }
  if below then
    let ticks := max (48 * z.attack) 1
    { x with duck := max depth (x.duck + depth / ticks), hold := 48 * z.hold, below := true }
  else if x.hold != 0 && x.duck < 0 then { x with hold := x.hold - 1, below := false }
  else
    let ticks := max (48 * z.release) 1
    { x with duck := min 0 (x.duck - depth / ticks), hold := 0, below := false }

/-- A candidate that becomes the winner by its own activity plays at full level from its first sample (R243). -/
def CandSt.raise (x : CandSt) : CandSt := { x with duck := 0, hold := 0, mute := 0 }

/-- One biquad section (R245): direct form I in Q2.30. -/
def Biquad.run (q : Biquad) (x : Int) : Int × Biquad :=
  let y := sat24 (ratio (q.b0 * x + q.b1 * q.x1 + q.b2 * q.x2 - q.a1 * q.y1 - q.a2 * q.y2) (2 ^ 30))
  (y, { q with x1 := x, x2 := q.x1, y1 := y, y2 := q.y1 })

/-- The ten sections in series. -/
def runBiquads : Int → List Biquad → Int × List Biquad
  | x, [] => (x, [])
  | x, q :: t =>
    let (y, q) := q.run x
    let (r, t) := runBiquads y t
    (r, q :: t)

/-- The alignment delay (R246): a change cross-fades over 48 ticks. -/
def ZoneSt.delayed (z : ZoneSt) (x : Int) : Int × ZoneSt :=
  let line := (x :: z.line).take 2401
  let tap (d : Nat) : Int := line.getD d 0
  let y := if z.fade = 0 then tap z.delay else ratio (tap z.oldDelay * z.fade + tap z.delay * (48 - z.fade : Nat)) 48
  let fade := z.fade - 1
  (y, { z with line := line, fade := fade, oldDelay := if fade = 0 then z.delay else z.oldDelay })

/-- The limiter (R247): no reduction below the threshold; what exceeds the ceiling, 1.0 dB above it, is clipped there. -/
def ZoneSt.limit (z : ZoneSt) (x : Int) : Int × ZoneSt × Bool :=
  let thr := levelMag z.limThr
  let gr := if x.natAbs ≤ thr && z.gr = 0 then 0 else Config.limiterGain z.limThr z.limAtt z.limRel z.gr x
  let y := if gr = 0 then x else Config.limited gr x
  let ceil : Int := levelMag (z.limThr + 10)
  if ceil < y then (ceil, { z with gr := gr }, true)
  else if y < -ceil then (-ceil, { z with gr := gr }, true)
  else (y, { z with gr := gr }, false)

/-- Arbitration, ducking and the chain of one zone in tick `n` (R242 to R248, R254). -/
def State.zoneTick (s : State) (n z : Nat) : State :=
  let zs := s.aud.zone z
  if !zs.enabled then s
  else
    let c := n - 3
    let idx := List.range 16
    let now := idx.map (fun i => s.candNow z i (zs.cands.getD i CandSt.reset) c)
    let at_ (i : Nat) : CandNow := now.getD i ⟨false, 0, false, false⟩
    let any := now.any (·.active)
    let p := now.foldl (fun m x => if x.active then max m x.prio else m) 0
    let wasP := s.get (AUD.ZONE_STAT.WIN_PRIO z)
    let wasAny := s.flag (AUD.ZONE_STAT.ACTIVE z)
    let wasAct := s.get (AUD.ZONE_STAT.CAND_ACTIVE z)
    let first := (idx.find? (fun i => (at_ i).active && (at_ i).prio == p)).getD 16
    let plays (i : Nat) : Bool := (at_ i).active && (at_ i).prio == p && (zs.mix || i == first)
    let cands := idx.map (fun i =>
      let x := zs.cands.getD i CandSt.reset
      let a := at_ i
      let below := any && decide (a.prio < p)
      let forced := below && (p == 7 || a.prio == 0)
      let ownActivity := a.active && a.prio == p && (!bit wasAct i || !wasAny || decide (wasP < p))
      if ownActivity then x.raise else x.duckTick zs below forced)
    let mixOne (i : Nat) : Int :=
      let a := at_ i
      let x := cands.getD i CandSt.reset
      if !a.active then 0
      else if a.prio == p && !plays i then 0
      else
        let v := underGain (x.duck * 10) (s.sumSink (candSink z i) c).1
        if x.mute = 0 then v else ratio (v * (48 - x.mute : Nat)) 48
    let mix := if any then idx.foldl (fun acc i => acc + mixOne i) 0 else 0
    let zs := { zs with cands := cands }
    let vol := underGain (zs.volume * gainUnit) mix
    let clip1 := over24 vol
    let nf := underGain (zs.nf * gainUnit) (sat24 vol)
    let clip2 := over24 nf
    let (y, bqs) := runBiquads (sat24 nf) zs.biquads
    let (y, zs) := ({ zs with biquads := bqs }).delayed y
    let (y, zs, lim) := zs.limit y
    let s := s.setZone z zs
    let s := if lim then s.count (AUD.ZONE_METER.LIM_CLIP z) 1 else s
    let s := if lim || clip1 || clip2 then s.evtBit AUD.CLIP_EVT.ZONE z Src.AUD_CLIP else s
    let s := s.set (AUD.ZONE_METER.PEAK z) (max (s.get (AUD.ZONE_METER.PEAK z)) (y.natAbs / 256))
    let s := s.set (AUD.ZONE_METER.GR z) (max (s.get (AUD.ZONE_METER.GR z)) (min zs.gr 255))
    let winStale := idx.any (fun i => plays i && (at_ i).stale)
    let s := s.set (AUD.ZONE_STAT.CAND_ACTIVE z) (idx.foldl (fun m i => if (at_ i).active then setBit m i else m) 0)
    let s := (s.setFlag (AUD.ZONE_STAT.STALE z) winStale).setFlag (AUD.ZONE_STAT.DUCKING z) (cands.any (fun x => decide (x.duck < 0)))
    let s := (s.setFlag (AUD.ZONE_STAT.HOLD z) (cands.any (fun x => !x.below && x.hold != 0 && decide (x.duck < 0)))).setFlag
      (AUD.ZONE_STAT.ACTIVE z) any
    let s := s.set (AUD.ZONE_STAT.WIN_PRIO z) p
    let s := if winStale then s.count (AUD.STALE_CNT.TICKS z) 1 else s
    let out : Sample := if s.sinkOverran (candSink z 0) then s.overrunOut (candSink z 0) (s.lastSample (srcZone + z))
      else ⟨y, any, false, 0, 1, 1, any⟩
    -- a production tick is the capture tick of a zone output (R212)
    let s := s.deliver (srcZone + z) n out
    zs.map.foldl (fun (s : State) (k : Nat) => s.setOut k out) s

/-- STALE_FADE_END (R254): a run of 240 ticks has faded out in the winning class of a zone, at an output port, or in the
host playback: `where_` names the bit of AUD.STALE_EVT (0 to 15 zone, 16 to 23 port, 24 host). -/
def staleFadeEnd (s : State) (where_ : Nat) : State :=
  let f := if where_ < 16 then (AUD.STALE_EVT.ZONE, AUD.STALE_MAP.ZONE, where_)
    else if where_ < 24 then (AUD.STALE_EVT.OUT_PORT, AUD.STALE_MAP.OUT_PORT, where_ - 16)
    else (AUD.STALE_EVT.HOST, AUD.STALE_MAP.HOST, 0)
  (s.putBit f.2.1 f.2.2 true).evtBit f.1 f.2.2 Src.AUD_STALE

/-- STALE_FADE_END (R254). -/
def execStaleFadeEnd (place : Fin 25) (s : State) : Host.Outcome State Fault Refusal := .next (staleFadeEnd s place.val)

/-- AUD.STALE_MAP shows the conditions that still held in the last tick (R254). -/
def State.staleMap (s : State) (n : Nat) : State :=
  let s := s.setFlag AUD.STALE_MAP.HOST (s.flag AUD.STALE_MAP.HOST && decide (240 ≤ s.aud.hdmaMiss))
  let s := (List.range 8).foldl (fun (s : State) (p : Nat) =>
    s.putBit AUD.STALE_MAP.OUT_PORT p (s.getBit AUD.STALE_MAP.OUT_PORT p &&
      (List.range 16).any (fun k => (s.sinkOut (16 * p + k)).stale))) s
  (List.range 16).foldl (fun (s : State) (z : Nat) =>
    s.putBit AUD.STALE_MAP.ZONE z (s.getBit AUD.STALE_MAP.ZONE z &&
      (List.range 16).any (fun i => (s.candNow z i ((s.aud.zone z).cands.getD i CandSt.reset) (n - 3)).faded))) s

/-! ## The play stage and the output ports (R234, R235, R252) -/

/-- The play-stage sinks of TDM outputs and the echo-canceller inputs, then the zones (R235). -/
def State.playStage (s : State) (n : Nat) : State :=
  let direct := s.aud.fedSinks.filter (fun k => !sendSink k && (decide (k < 0x080) || decide (0x180 ≤ k)))
  let s := direct.foldl (fun (s : State) (k : Nat) =>
    let (s, clip) := s.mixSink k (n - 3)
    if clip && decide (k < 0x080) then s.evtBit AUD.CLIP_EVT.OUT_PORT (k / 16) Src.AUD_CLIP else s) s
  (List.range 16).foldl (fun (s : State) (z : Nat) => s.zoneTick n z) s

/-- What the output ports drive in the next frame (R194, R216, R218, R252): a stale repeat fades like a source. -/
def State.tdmOutput (s : State) (n : Nat) : State :=
  (List.range 8).foldl (fun (s : State) (p : Nat) =>
    if s.tdmRuns p && s.tdmOut p && s.drivesOutputs then
      (List.range (s.tdmSlots p)).foldl (fun (s : State) (k : Nat) =>
        let i := 16 * p + k
        let fed := s.aud.outs.any (fun e => e.1 == i)
        if !fed && s.flag (AUD.TDM_CFG.TRISTATE p) then s
        else
          let src := (((s.aud.source (0x800 + i))).deliver n (s.sinkOut i))
          let v := (match src.hist with | (_, q) :: _ => q.contrib | [] => 0)
          let s := { s with aud := { s.aud with sources := s.aud.sources.filter (fun (y : SourceSt) => y.ix != 0x800 + i) ++ [src] } }
          let v := if s.flag (AUD.TDM_CFG.SAMPLE_W p) then v / 256 * 256 else v
          (s.meter i v).emit (.tdm p k (ofSigned 24 v))) s
    else s) s

/-! ## Owned streams and ring inputs (R139, R212, R239, R240) -/

/-- The wafer of a stream in the layout in force. -/
def Layout.waferOf (l : Layout) (stream : Nat) : Option Nat := (l.wafers.find? (fun r => r.stream == stream)).map (·.index)

/-- Read every ring input from the merged image of frame `tseq` (R212): capture tick tseq − 1. -/
def State.readRing (s : State) (n : Nat) : State :=
  match s.layout? with
  | none => s
  | some l => s.aud.ringTable.foldl (fun (s : State) (e : Nat × Nat) =>
      match l.waferOf e.2 with
      | none => s.deliver e.1 n .none
      | some w =>
        let x := s.ring.merged.le (waferOff w) 4
        if bit x 7 then
          s.deliver e.1 n { Sample.fresh (toSigned 24 (x / 256)) (x / 8 % 8) with stale := bit x 6 }
        else s.deliver e.1 n .none) s

/-- The PRIO of an owned stream (R240). -/
def State.streamPrio (s : State) (o : StreamSt) (n : Nat) : Nat :=
  match o.prio with
  | some p => p
  | none =>
    let fs := s.aud.feeds (0x190 + o.ix)
    let age := fs.foldl (fun a x => max a (srcAge x.src)) 1
    fs.foldl (fun m x => let p := s.sampleAt x.src (n - age)
      if decide (x.src < 0x200) && p.active then max m p.prio else m) 0

/-- Is the stream's gate condition open (R240)? -/
def State.gateOpen (s : State) (o : StreamSt) : Bool :=
  match o.gate with
  | .always => true
  | .command b => b
  | .input i => s.getBit DIO.IN_STATE.VALUE i

/-- The wafer word of an owned stream for capture tick `n` (R85, R87, R240, R251). -/
def State.streamWafer (s : State) (o : StreamSt) (n : Nat) : Nat :=
  let p := s.sinkOut (0x190 + o.ix)
  let opened := s.gateOpen o || o.holdLeft != 0
  let valid := opened && p.valid && (p.live || !p.stale)
  ofSigned 24 p.value * 256 + (if valid then 128 + 64 * b2n p.stale else 0) + 8 * s.streamPrio o n + n % 8

/-- The hold times of the gates run after their condition ends (R240). -/
def State.gateTick (s : State) : State :=
  let f (o : StreamSt) : StreamSt :=
    if s.gateOpen o then { o with holdLeft := 48 * o.holdMs } else { o with holdLeft := o.holdLeft - 1 }
  { s with aud := { s.aud with streams := s.aud.streams.map f } }

/-- Test generators (R231): production tick is the capture tick. -/
def State.genTick (s : State) (n : Nat) : State :=
  (List.range 8).foldl (fun (s : State) (g : Nat) =>
    match s.aud.gens[g]? with
    | some x =>
      if s.sinkOverran (srcGen + g) then s.deliverRepeat (srcGen + g) n
      else if x.start ≤ n then s.deliver (srcGen + g) n (.fresh (if x.kind = 0 then 0 else Config.generator x.kind x.freq x.level (n - x.start)) 0)
      else s
    | none => s) s

/-- One tick of every ramp (R233), and of the rise after a merge (R253). A crosspoint whose ramp to off ends is none (R403). -/
def State.rampTick (s : State) : State :=
  { s with
    aud := { s.aud with xps := (s.aud.xps.filter (fun x => !(x.left == 1 && x.target.isNone))).map Xpoint.tick },
    inaug := { s.inaug with merge := { s.inaug.merge with rise := s.inaug.merge.rise - 1 } } }

end Sys2Proof.Machine
end

