-- ==== Sys2Proof/Machine/Operands.lean ====
section
/-! DEFINITION. What the operands of a command stand for: the results and encodings of AtomicOps. -/

namespace Sys2Proof

/-! ## Operands of an AtomicOp (R322) -/

/-- The result that an AtomicOp writes. -/
def AtomicOp.result (a : AtomicOp) (old : Nat) : Nat :=
  match a.kind with
  | .fetchAdd => (old + a.operand) % 2 ^ (8 * a.width)
  | .swap => a.operand % 2 ^ (8 * a.width)
  | .cas => if old = a.compare % 2 ^ (8 * a.width) then a.operand % 2 ^ (8 * a.width) else old

/-- The kind code of a CINCH request. -/
def AtomicOp.code (a : AtomicOp) : Nat :=
  (match a.kind with | .fetchAdd => 1 | .swap => 2 | .cas => 3) + (if a.width = 8 then 0x80 else 0)

/-- The operand bytes of a CINCH request: for CAS, the compare value, then the swap value. -/
def AtomicOp.bytes (a : AtomicOp) : List Nat :=
  match a.kind with
  | .cas => leBytes a.width a.compare ++ leBytes a.width a.operand
  | _ => leBytes a.width a.operand

/-! ## Data of a mailbox request (R360) -/

/-- The data of a request: LEN bytes; an operand that is shorter is filled with zeros. -/
def Request.body (r : Request) : List Nat := (r.data.map (· % 256) ++ List.replicate r.len 0).take r.len

end Sys2Proof
end

