-- ==== Sys2Proof/Machine/Mailbox.lean ====
section
/-! DEFINITION. The mailbox core (R357 to R371): rings, headers, responses, held responses, notifications, open requests.
The commands and the order of checks of R361 stand in the command files. -/

namespace Sys2Proof.Machine

/-! ## Status codes (R371) -/

abbrev Status.ok : Nat := 0x0000
abbrev Status.pending : Nat := 0x0001
abbrev Status.busy : Nat := 0x0002
abbrev Status.badOpcode : Nat := 0x0003
abbrev Status.badLength : Nat := 0x0004
abbrev Status.badParam : Nat := 0x0005
abbrev Status.notPermitted : Nat := 0x0006
abbrev Status.wrongState : Nat := 0x0007
abbrev Status.versionMismatch : Nat := 0x0008
abbrev Status.noResource : Nat := 0x0009
abbrev Status.timeout : Nat := 0x000A
abbrev Status.authFailed : Nat := 0x000B
abbrev Status.mediaFault : Nat := 0x000C
abbrev Status.remoteFault : Nat := 0x000D
abbrev Status.tamperLock : Nat := 0x000E
abbrev Status.aborted : Nat := 0x000F

/-! ## Notification classes (R366) -/

abbrev Note.unit : Nat := 1
abbrev Note.config : Nat := 2
abbrev Note.call : Nat := 3
abbrev Note.playback : Nat := 4
abbrev Note.ring : Nat := 5
abbrev Note.event : Nat := 6
abbrev Note.summary : Nat := 7

/-! ## Rings (R357 to R359) -/

/-- The host's channel: 0 for PCIe, 1 for SPI (R321). -/
def State.hostCh (s : State) : Nat := if s.straps.hostSpi then 1 else 0

/-- Entries that a ring holds: (HEAD − TAIL) modulo 128. -/
def ringFill (head tail : Nat) : Nat := (head + 128 - tail) % 128

/-- Entries in the request ring of a channel. -/
def State.reqFill (s : State) (ch : Nat) : Nat := ringFill (s.get (MBX.CH_REQ_HEAD.HEAD ch)) (s.get (MBX.CH_REQ_TAIL.TAIL ch))

/-- Entries in the response ring of a channel. -/
def State.rspFill (s : State) (ch : Nat) : Nat := ringFill (s.get (MBX.CH_RSP_HEAD.HEAD ch)) (s.get (MBX.CH_RSP_TAIL.TAIL ch))

/-- The store offset of entry `i` of a channel's request ring. -/
def State.reqEntry (s : State) (ch i : Nat) : Nat := s.get (MBX.CH_REQ_BASE.BASE ch) * 4096 + 4096 * (i % 64)

/-- The store offset of entry `i` of a channel's response ring. -/
def State.rspEntry (s : State) (ch i : Nat) : Nat := s.get (MBX.CH_RSP_BASE.BASE ch) * 4096 + 4096 * (i % 64)

/-! ## Responses (R360, R363, R367) -/

/-- The bytes of a response entry. -/
def State.rspBytes (s : State) (opcode tag status idx rflags cls : Nat) (data : List Nat) : List Nat :=
  leBytes 2 opcode ++ leBytes 2 tag ++ leBytes 2 data.length ++ leBytes 2 status ++ leBytes 4 (s.get MBX.CFG_VER.VER) ++
  [idx % 64, rflags] ++ leBytes 2 cls ++ data

/-- The interrupt source of a channel's responses. -/
def mbxSrc (ch : Nat) : Nat := Src.MBX0_RESP + ch % 4

/-- Write an entry into the response ring and advance RSP_HEAD. -/
def State.putEntry (s : State) (ch : Nat) (bytes : List Nat) : State :=
  let h := s.get (MBX.CH_RSP_HEAD.HEAD ch)
  (s.putBytes (s.rspEntry ch h) bytes).set (MBX.CH_RSP_HEAD.HEAD ch) ((h + 1) % 128)

/-- Write a response entry: MBXn_RESP is raised. -/
def State.putResponse (s : State) (ch : Nat) (bytes : List Nat) : State :=
  (s.putEntry ch bytes).evtBit MBX.EVT.RESP ch (mbxSrc ch)

/-- Is the response ring of a channel full? -/
def State.rspFull (s : State) (ch : Nat) : Bool := decide (64 ≤ s.rspFill ch)

/-- The responses held for a channel. -/
def State.heldOf (s : State) (ch : Nat) : List (List Nat) := s.mbx.held.getD ch []

/-- A response is never dropped (R367): it is written, or held behind those that are held. -/
def State.sendResponse (s : State) (ch : Nat) (bytes : List Nat) : State :=
  if !s.rspFull ch && (s.heldOf ch).isEmpty then s.putResponse ch bytes
  else { s with mbx := { s.mbx with held := s.mbx.held.modify ch (· ++ [bytes]) } }

/-- Show the number of open requests. -/
def State.showOpen (s : State) (ch : Nat) : State :=
  s.set (MBX.CH_STAT.OPEN ch) (s.mbx.opens.filter (fun r => r.ch == ch)).length

/-- Would a response of a channel be held now? -/
def State.holds (s : State) (ch : Nat) : Bool := s.rspFull ch || !(s.heldOf ch).isEmpty

/-- A held final response is written: its request is no longer open (R362). -/
def State.closeHeld (s : State) (ch : Nat) (bytes : List Nat) : State :=
  if bit (bytes.getD 13 0) 0 then
    State.showOpen { s with mbx := { s.mbx with opens := s.mbx.opens.filter (fun (r : OpenReq) =>
      !(r.ch == ch && r.pend == Pend.answered && r.idx % 64 == bytes.getD 12 0 && leValue ((bytes.drop 2).take 2) == r.tag)) } } ch
  else s

/-- Held responses are written in order as entries become free (R367). -/
def State.flushHeld (s : State) (ch : Nat) : Nat → State
  | 0 => s
  | n + 1 =>
    match s.heldOf ch with
    | b :: t =>
      if s.rspFull ch then s
      else State.flushHeld (({ s with mbx := { s.mbx with held := s.mbx.held.set ch t } }.putResponse ch b).closeHeld ch b) ch n
    | [] => s

/-- The position to which a channel 3 response goes: that of the asking node's UID in the layout in force; 0 where it is
absent (R370). -/
def State.originPos (s : State) (pos : Nat) (uid : DWord) : Nat :=
  if uid = 0 then pos
  else match s.layout? with
    | some l => l.posOf uid
    | none => 0

/-- Answer a request. On channel 3 the ring engine carries the entry into a MAILBOX message to the node that asked; the
response is discarded where that node is absent (R370). -/
def State.answerReq (s : State) (r : OpenReq) (status : Nat) (final : Bool) (data : List Nat) : State :=
  let bytes := s.rspBytes r.opcode r.tag status r.idx (b2n final) 0 data
  match r.origin with
  | none => s.sendResponse r.ch bytes
  | some (pos, sub, uid) =>
    let s := (s.putEntry 3 bytes).evtBit MBX.EVT.RESP 3 (mbxSrc 3)
    let s := s.set (MBX.CH_RSP_TAIL.TAIL 3) (s.get (MBX.CH_RSP_HEAD.HEAD 3))
    let p := s.originPos pos uid
    if p = 0 then s else s.stageMessage Kind.mailbox p sub bytes

/-- The final response of a request that Decik has just consumed: it stays open only while that response is held (R362). -/
def State.reply (s : State) (r : OpenReq) (status : Nat) (data : List Nat) : State :=
  let keep := r.origin.isNone && s.holds r.ch
  let s := s.answerReq r status true data
  if keep then State.showOpen { s with mbx := { s.mbx with opens := s.mbx.opens ++ [{ r with pend := Pend.answered }] } } r.ch else s

/-- Answer PENDING: the request stays open and waits (R363). -/
def State.wait (s : State) (r : OpenReq) (p : Pend) : State :=
  let s := s.answerReq r Status.pending false []
  State.showOpen { s with mbx := { s.mbx with opens := s.mbx.opens ++ [{ r with pend := p }] } } r.ch

/-- Complete an open request with its final response (R363). -/
def State.finish (s : State) (r : OpenReq) (status : Nat) (data : List Nat) : State :=
  let keep := r.origin.isNone && s.holds r.ch
  let opens := if keep then s.mbx.opens.map (fun (x : OpenReq) => if x == r then { x with pend := Pend.answered } else x)
    else s.mbx.opens.filter (fun x => x != r)
  let s := { s with mbx := { s.mbx with opens := opens } }
  (s.answerReq r status true data).showOpen r.ch

/-- Complete every open request that waits for something and has no final response yet. -/
def State.finishAll (s : State) (p : Pend → Bool) (status : Nat) (data : List Nat) : State :=
  (s.mbx.opens.filter (fun r => p r.pend && r.pend != Pend.answered)).foldl (fun (s : State) (r : OpenReq) => s.finish r status data) s

/-! ## Notifications (R366, R367) -/

/-- Write a notification of a class to the host's channel: only for an enabled class, only while Decik runs, dropped and
counted where the ring is full after the held responses. -/
def State.notify (s : State) (cls : Nat) (data : List Nat) : State :=
  let ch := s.hostCh
  if !s.decikRuns || !s.getBit MBX.NOTE_CFG.CLASS_EN cls then s
  else if s.rspFull ch || !(s.heldOf ch).isEmpty then
    { s.count (MBX.CH_STAT.NOTE_LOST ch) 1 with mbx := { s.mbx with noteLost := s.mbx.noteLost.set ch true } }
  else
    let lost := s.mbx.noteLost.getD ch false
    let bytes := s.rspBytes 0 0 Status.ok 0 (1 + 2 + (if lost then 4 else 0)) cls data
    let s := { s with mbx := { s.mbx with noteLost := s.mbx.noteLost.set ch false } }
    (s.putEntry ch bytes).evt MBX.EVT.NOTIFY 1 Src.MBX_NOTIFY

/-! ## Index writes of the host (R357, R359, R389) -/

/-- An index write that is ignored: counted, MBX_ERROR raised. -/
def State.indexError (s : State) (ch : Nat) : State := (s.count (MBX.CH_STAT.ERR_CNT ch) 1).evt MBX.EVT.ERROR 1 Src.MBX_ERROR

/-- Are the index registers of a channel writable: the host's channel, and not in reset? -/
def State.chWritable (s : State) (ch : Nat) : Bool := ch == s.hostCh && !s.flag (MBX.CH_STAT.RESET ch)

/-- A write of REQ_HEAD. -/
def State.reqHeadWrite (s : State) (ch head : Nat) : State :=
  if !s.chWritable ch then s
  else if 64 < ringFill (head % 128) (s.get (MBX.CH_REQ_TAIL.TAIL ch)) then s.indexError ch
  else s.set (MBX.CH_REQ_HEAD.HEAD ch) head

/-- MBX_REQ_HEAD_WRITE (R359). -/
def execMbxReqHeadWrite (ch : Fin 4) (head : Nat) (s : State) : Host.Outcome State Fault Refusal :=
  .next (s.access (MBX.CH_REQ_HEAD.off ch) (fun s => s.reqHeadWrite ch.val head))

/-- A write of RSP_TAIL: one that passes RSP_HEAD is ignored; entries that become free take held responses. -/
def State.rspTailWrite (s : State) (ch tail : Nat) : State :=
  if !s.chWritable ch then s
  else
    let old := s.get (MBX.CH_RSP_TAIL.TAIL ch)
    if s.rspFill ch < ringFill (tail % 128) old then s.indexError ch
    else (s.set (MBX.CH_RSP_TAIL.TAIL ch) tail).flushHeld ch 64

/-- MBX_RSP_TAIL_WRITE (R359, R367). -/
def execMbxRspTailWrite (ch : Fin 4) (tail : Nat) (s : State) : Host.Outcome State Fault Refusal :=
  .next (s.access (MBX.CH_RSP_TAIL.off ch) (fun s => s.rspTailWrite ch.val tail))

/-- Writing RESET on the host's channel (R368): every open request ends and its response is discarded, the rings are
empty, the indexes zero. RESET reads 0 again. -/
def State.chReset (s : State) (ch : Nat) : State :=
  if ch != s.hostCh then s
  else
    let s := { s with mbx := { s.mbx with
      opens := s.mbx.opens.filter (fun r => r.ch != ch)
      held := s.mbx.held.set ch []
      transfers := s.mbx.transfers.filter (fun t => t.ch != ch) } }
    let s := (s.set (MBX.CH_REQ_HEAD.HEAD ch) 0).set (MBX.CH_REQ_TAIL.TAIL ch) 0
    ((s.set (MBX.CH_RSP_HEAD.HEAD ch) 0).set (MBX.CH_RSP_TAIL.TAIL ch) 0).showOpen ch

/-- Writing RESET of a channel (R368): Decik carries it out; while Decik is stopped it stays set. -/
def State.chResetWrite (s : State) (ch : Nat) : State :=
  if ch != s.hostCh then s
  else if s.decikRuns then s.chReset ch
  else s.setFlag (MBX.CH_STAT.RESET ch) true

/-- MBX_CHANNEL_RESET (R368). -/
def execMbxChannelReset (ch : Fin 4) (s : State) : Host.Outcome State Fault Refusal :=
  .next (s.access (MBX.CH_STAT.off ch) (fun s => s.chResetWrite ch.val))

end Sys2Proof.Machine
end

