-- ==== Sys2Proof/Machine/Store.lean ====
section
/-! DEFINITION. The central store (chapter 09, R297 to R319): banks, access, error handling, scrub, retention checks and
the region map. -/

namespace Sys2Proof.Machine

/-! ## Banks (R306) -/

abbrev Bank.down : Nat := 0
abbrev Bank.init : Nat := 1
abbrev Bank.ready : Nat := 2
abbrev Bank.retained : Nat := 3
abbrev Bank.checking : Nat := 4
abbrev Bank.provisional : Nat := 5
abbrev Bank.lost : Nat := 6

/-- The state nibble of a bank in STORE.BANK_STAT0 and BANK_STAT1. -/
def bankFld (b : Nat) : Fld := ⟨STORE.BANK_STAT.off (b / 8), 4 * (b % 8) + 3, 4 * (b % 8)⟩

/-- The state of a bank. -/
def State.bank (s : State) (b : Nat) : Nat := s.get (bankFld b)

/-- Change it. -/
def State.setBank (s : State) (b st : Nat) : State := s.set (bankFld b) st

/-- Only READY and PROVISIONAL banks are usable. -/
def State.bankUsable (s : State) (b : Nat) : Bool := s.bank b == Bank.ready || s.bank b == Bank.provisional

/-- The bank of a store offset (R298). -/
def bankOf (a : Nat) : Nat := a / 2 ^ 28 % 16

/-- The channel of a store offset (R298). -/
def channelOf (a : Nat) : Nat := a / 256 % 2

/-- Is the offset in a canary page (R299)? -/
def inCanary (a : Nat) : Bool := decide (0xFFFF000 ≤ a % 2 ^ 28)

/-- Word `i` of the canary page of bank `b` for a sleep count (R313). -/
def canaryWord (count b i : Nat) : Nat :=
  let w := (count * 0x9E3779B9 + b * 0x01000193 + i * 0x01010101) % 2 ^ 32
  if i % 2 = 1 then Nat.xor w 0x5A5A5A5A else w

/-! ## Access (R299, R303, R304) -/

/-- Read `n` bytes for an initiator other than the controller: the bytes, whether the read ends with an error, and the
state with the events it sets. A canary page reads zero; an unusable bank reads zero with an error; a poisoned line is an
error. -/
def State.storeRead (s : State) (a n : Nat) : List Nat × Bool × State :=
  let offs := (List.range n).map (fun i => (a + i) % 2 ^ 32)
  let unusable := offs.any (fun x => !s.bankUsable (bankOf x))
  let poisoned := offs.any (fun x => s.mem.poisoned.contains (x / 64))
  let canary := offs.any inCanary
  let s1 := if unusable then s.evt STORE.ERR_EVT.UNINIT 1 Src.STORE_ECC_RETENTION else s
  let s1 := if canary then s1.evt STORE.ERR_EVT.RESERVED 1 Src.STORE_ECC_RETENTION else s1
  (offs.map (fun x => if unusable || poisoned || inCanary x then 0 else (s.memByte x).toNat), unusable || poisoned, s1)

/-- Write bytes for an initiator other than the controller: a canary page and an unusable bank discard them; a poisoned
line written in full holds data again. -/
def State.storeWrite (s : State) (a : Nat) (bytes : List Nat) : State :=
  let cells := (List.range bytes.length).map (fun i => ((a + i) % 2 ^ 32, bytes.getD i 0))
  let unusable := cells.any (fun c => !s.bankUsable (bankOf c.1))
  let canary := cells.any (fun c => inCanary c.1)
  let s1 := if unusable then s.evt STORE.ERR_EVT.UNINIT 1 Src.STORE_ECC_RETENTION else s
  let s1 := if canary then s1.evt STORE.ERR_EVT.RESERVED 1 Src.STORE_ECC_RETENTION else s1
  let ok := cells.filter (fun c => s.bankUsable (bankOf c.1) && !inCanary c.1)
  let s1 := ok.foldl (fun (t : State) (c : Nat × Nat) => t.putByte c.1 (BitVec.ofNat 8 c.2)) s1
  let whole (l : Nat) : Bool := decide (a ≤ 64 * l) && decide (64 * l + 64 ≤ a + bytes.length)
  { s1 with mem := { s1.mem with poisoned := s1.mem.poisoned.filter (fun l => !whole l) } }

/-! ## The region map (R308 to R310) -/

/-- The offset of page `k` of the pages outside the canary pages. -/
def pageOffset (k : Nat) : Nat := k / 65535 * 2 ^ 28 + k % 65535 * 4096

/-- The page number, canary pages not counted, of an offset. -/
def pageIndex (a : Nat) : Nat := a / 2 ^ 28 * 65535 + a % 2 ^ 28 / 4096

/-- The offset of byte `x` of a region: a region skips the canary pages that it crosses. -/
def Region.at (r : Region) (x : Nat) : Nat := pageOffset (pageIndex r.base + x / 4096) + x % 4096

/-- The banks that hold any page of a region. -/
def Region.inBank (r : Region) (b : Nat) : Bool :=
  decide (0 < r.pages) && decide (bankOf r.base ≤ b) && decide (b ≤ bankOf (r.at (4096 * (r.pages - 1))))

/-- Pages for regions in the whole store (R299). -/
abbrev allPages : Nat := 1048560

/-- Place a map (R309): RETAIN regions in image order from offset 0 upward, DROP regions in image order from the top
downward. -/
def placeMap (rs : List Region) : List Region :=
  (rs.foldl (fun (acc : List Region × Nat × Nat) (r : Region) =>
    if r.retain then (acc.1 ++ [{ r with base := pageOffset acc.2.1 }], acc.2.1 + r.pages, acc.2.2)
    else (acc.1 ++ [{ r with base := pageOffset (acc.2.2 - r.pages) }], acc.2.1, acc.2.2 - r.pages)) ([], 0, allPages)).1

/-- Does a map fit? -/
def mapFits (rs : List Region) : Bool :=
  decide (rs.length ≤ 32) && decide ((rs.map (·.pages)).foldl (· + ·) 0 ≤ allPages)

/-- The first region of a kind. -/
def State.region (s : State) (kind : Nat) : Option Region := s.mem.regions.find? (fun r => r.kind == kind)

/-- The offset of byte `x` of the first region of a kind. -/
def State.regionAt (s : State) (kind x : Nat) : Nat := match s.region kind with | some r => r.at x | none => x

/-- Put a placed map in force: STORE.RGN_BASEr, RGN_INFOr and RET_MASK. -/
def State.applyMap (s : State) (rs : List Region) : State :=
  let rs := placeMap rs
  let s := { s with mem := { s.mem with regions := rs, nextMap := none } }
  let s := (List.range 32).foldl (fun (s : State) (i : Nat) =>
    match rs[i]? with
    | some r => (((s.set (STORE.RGN_BASE.BASE i) r.base).set (STORE.RGN_INFO.PAGES i) r.pages).setFlag (STORE.RGN_INFO.RETAIN i) r.retain).set
        (STORE.RGN_INFO.KIND i) r.kind
    | none => (((s.set (STORE.RGN_BASE.BASE i) 0).set (STORE.RGN_INFO.PAGES i) 0).set (STORE.RGN_INFO.RETAIN i) 0).set
        (STORE.RGN_INFO.KIND i) 0) s
  let mask := (List.range 16).foldl (fun m b => if rs.any (fun r => r.retain && r.inBank b) then setBit m b else m) 0
  s.set STORE.RET_MASK.MASK mask

/-- At a start, a map that waits is applied (R310). A region whose base or size changes loses its content: its bytes are
cleared and the refill is what the other chapters do with an empty region. -/
def State.startMap (s : State) : State :=
  match s.mem.nextMap with
  | some rs =>
    let old := s.mem.regions
    let s := s.applyMap rs
    let moved := s.mem.regions.filter (fun r => !old.contains r)
    let gone (a : Nat) : Bool := moved.any (fun r => decide (r.base ≤ a) && decide (a < r.at (4096 * r.pages)))
    { s with store := s.store.filter (fun e => !gone e.1) }
  | none => s

/-! ## Initialisation (R304, R306) -/

/-- Start initialisation of the banks of a mask; only DOWN and LOST banks take it. The bits of INIT_CTRL.START read 1
until the bank is READY. -/
def State.storeInit (s : State) (mask : Nat) : State :=
  (List.range 16).foldl (fun (s : State) (b : Nat) =>
    if bit mask b && (s.bank b == Bank.down || s.bank b == Bank.lost) then
      let s := ((s.setBank b Bank.init).putBit STORE.INIT_CTRL.START b true).define (b * 2 ^ 28) (2 ^ 28)
      { s with
        store := s.store.filter (fun e => bankOf e.1 != b)
        mem := { s.mem with poisoned := s.mem.poisoned.filter (fun l => bankOf (64 * l) != b) } }
    else s) s

/-- STORE_INIT_START: a write of INIT_CTRL.START. A store without its domain takes no write (R623). -/
def execStoreInitStart (mask : Nat) (s : State) : Host.Outcome State Fault Refusal :=
  .next (s.access STORE.INIT_CTRL.off (fun s => s.storeInit mask))

/-- With bank 0 ready the boot ROM of a cold start reads the bundle, or waits for the host's (R529, R533). -/
def State.romReads (s : State) : State :=
  if s.get PWR.STAT.STATE = 7 && s.pwr.step = 0 && !s.decikRuns && s.get GLB.BOOT_STAT.STATE = 0 then
    s.set GLB.BOOT_STAT.STATE (if s.pwr.copy = 2 then 1 else 2)
  else s

/-- BANK_INIT_DONE: the bank is written with zeros and valid check bits. -/
def execBankInitDone (b : Fin 16) (s : State) : Host.Outcome State Fault Refusal :=
  .next (if s.bank b == Bank.init then
      let s := ((s.setBank b Bank.ready).putBit STORE.STAT.INIT_DONE b.val true).putBit STORE.INIT_CTRL.START b.val false
      if b.val = 0 then s.romReads else s
    else s)

/-! ## Lost banks (R315, R316) -/

/-- Does a clip have a byte in the bank? Its pages skip the canary pages. -/
def Clip.inBank (c : Clip) (b : Nat) : Bool :=
  decide (bankOf c.addr ≤ b) && decide (b ≤ bankOf (pageOffset (pageIndex c.addr + (c.bytes - 1) / 4096)))

/-- The most units that may be locked (R291). -/
abbrev recLockMax : Nat := 112500

/-- The recorder's registers follow its index: units locked, the limit, units lost (R291, R292). -/
def State.recCounts (s : State) : State :=
  let n := (s.vox.recUnits.filter (fun (r : RecUnit) => r.locked && !r.lost)).length
  ((s.set AUD.REC_LOCKED.UNITS n).setFlag AUD.REC_STAT.LOCK_FULL (decide (recLockMax ≤ n))).setFlag AUD.REC_STAT.BANK_LOST
    (s.vox.recUnits.any (fun (r : RecUnit) => r.lost))

/-- Decik handles a lost bank: the record, the clips and units it held (R284, R292), the mirror, and its initialisation. -/
def State.handleLost (s : State) (b cause : Nat) : State :=
  let s := s.post Evt.STORE_BANK_LOST b [cause]
  let hit := s.vox.clips.filter (fun c => c.inBank b && c.state != 2)
  let clips := s.vox.clips.map (fun (c : Clip) => if c.inBank b then { c with state := 2 } else c)
  let s := { s with vox := { s.vox with clips := clips } }
  let s := if hit.isEmpty then s else s.post Evt.LIBRARY_CLIP_LOST b (leBytes 2 hit.length)
  let unitIn (r : RecUnit) : Bool := bankOf (s.regionAt 5 (4096 * r.unit)) == b
  let lostUnits : Nat := (s.vox.recUnits.filter (fun (r : RecUnit) => unitIn r && !r.lost)).length
  let units := s.vox.recUnits.map (fun (r : RecUnit) => if unitIn r then { r with lost := true } else r)
  let s := { s with vox := { s.vox with recUnits := units } }
  let s := if lostUnits = 0 then s
    else ((s.count AUD.REC_CNT.LOST_UNITS lostUnits).evt AUD.REC_EVT.BANK_LOST 1 Src.AUD_RECORDER).recCounts
  let s := if s.mem.regions.any (fun r => r.kind == 3 && r.inBank b) then { s with evr := { s.evr with mirror := [] } } else s
  s.storeInit (2 ^ b)

/-! ## The store test (R607, R610) -/

/-- The store test stops or ends: its result, the range as zeros where it completed, undefined where
it was stopped, and the event (R607, R610). -/
def State.storeTestEnd (s : State) (errors first : Nat) (aborted : Bool) : State :=
  match s.storeTest with
  | none => s
  | some t =>
    let s := { s with storeTest := none }
    let s := if aborted then s.undefine t.offset t.length else s.putBlock t.offset t.length []
    let s := (s.setFlag TST.STORE_STAT.RUN false).setFlag TST.STORE_STAT.ABORTED aborted
    let s := (s.setFlag TST.STORE_STAT.PASS (errors == 0 && !aborted)).set TST.STORE_ERR.COUNT (min errors 0xFFFFFFFF)
    let s := s.set TST.STORE_FIRST.ADDR (first / 8 * 8)
    let s := if aborted then s else s.set TST.STORE_STAT.PCT 100
    s.evt TST.EVT.STORE_DONE 1 Src.BIST_DONE

/-- A store test begins over a range of the HOST region. -/
def State.storeTestStart (s : State) (offset length : Nat) : State :=
  let s := { s with storeTest := some ⟨offset, length⟩ }
  let s := ((s.setFlag TST.STORE_STAT.RUN true).setFlag TST.STORE_STAT.PASS false).setFlag TST.STORE_STAT.ABORTED false
  (s.set TST.STORE_STAT.PCT 0).set TST.STORE_ERR.COUNT 0

/-- A test in progress stops with ABORTED, and so does its command (R610). -/
def State.storeTestStop (s : State) : State :=
  if s.storeTest.isNone then s
  else (s.storeTestEnd 0 0 true).finishAll (fun p => match p with | .storeTest _ _ => true | _ => false) Status.aborted []

/-- A bank is lost: the controller marks it; Decik handles it at once where it runs, else when it runs again (R317). A store test
over the bank stops (R610). -/
def State.bankLost (s : State) (b cause : Nat) : State :=
  let s := match s.storeTest with
    | some t => if bankOf t.offset ≤ b && b ≤ bankOf (t.offset + (t.length - 1)) then s.storeTestStop else s
    | none => s
  let s := ((s.setBank b Bank.lost).putBit STORE.STAT.INIT_DONE b false).evtBit STORE.BANK_LOST.LOST b Src.STORE_ECC_RETENTION
  if s.decikRuns then s.handleLost b cause
  else { s with mem := { s.mem with lost := s.mem.lost ++ [(b, cause)] } }

/-- Decik runs again: banks lost meanwhile are handled. -/
def State.handleLostBanks (s : State) : State :=
  let l := s.mem.lost
  l.foldl (fun (s : State) (e : Nat × Nat) => s.handleLost e.1 e.2) { s with mem := { s.mem with lost := [] } }

/-! ## Errors (R302, R303, R305) -/

/-- STORE_CORRECTABLE_ERROR (R302): counted for the channel, shown in CE_LAST and CE_INFO, and scheduled for write-back. -/
def execStoreCorrectableError (offset initiator syndrome : Nat) (s : State) : Host.Outcome State Fault Refusal :=
  let a := offset % 2 ^ 32
  let b := bankOf a
  .next (if s.bankUsable b || s.bank b == Bank.checking then
      let s := s.count (if channelOf a = 0 then STORE.CE_CNT.CH0 else STORE.CE_CNT.CH1) 1
      let s := ((s.set STORE.CE_LAST.ADDR (a / 8 * 8)).set STORE.CE_INFO.INITIATOR initiator).set STORE.CE_INFO.SYNDROME syndrome
      let s := { s with mem := { s.mem with writeBack := s.mem.writeBack.filter (· != a / 8 * 8) ++ [a / 8 * 8] } }
      if initiator = 0 then { s with mem := { s.mem with scrubCe := s.mem.scrubCe.modify b (· + 1) } } else s
    else s)

/-- CE_WRITEBACK: the word is written back corrected. -/
def execCeWriteback (offset : Nat) (s : State) : Host.Outcome State Fault Refusal :=
  .next { s with mem := { s.mem with writeBack := s.mem.writeBack.filter (· != offset % 2 ^ 32 / 8 * 8) } }

/-- Write an entry of the uncorrectable error log. -/
def State.ueLog (s : State) (a initiator : Nat) : State :=
  let j := s.get STORE.UE_LOG_STAT.NEXT
  let full := (List.range 8).all (fun i => s.flag (STORE.UE_INFO.VALID i))
  let s := if full then s.setFlag STORE.UE_LOG_STAT.OVF true else s
  let s := (s.set (STORE.UE_ADDR.ADDR j) (a / 8 * 8)).set (STORE.UE_INFO.TICK j) s.tickSeq
  let s := ((s.set (STORE.UE_INFO.INITIATOR j) initiator).set (STORE.UE_INFO.BANK j) (bankOf a)).set (STORE.UE_INFO.VALID j) 1
  s.set STORE.UE_LOG_STAT.NEXT ((j + 1) % 8)

/-- A second uncorrectable error of a page within 24 h retires it (R303). -/
def State.pageError (s : State) (a : Nat) : State :=
  let p := a / 4096
  let now := s.decik.upTicks
  let again := s.mem.pageUe.any (fun e => e.1 == p && decide (now ≤ e.2 + 24 * 3600 * 48000))
  let retired := if again && !s.mem.retired.contains p then s.mem.retired ++ [p] else s.mem.retired
  { s with mem := { s.mem with pageUe := s.mem.pageUe.filter (fun e => e.1 != p) ++ [(p, now)], retired := retired } }

/-- STORE_UNCORRECTABLE_ERROR (R303, R306, R315). `affected` names the matrix sources whose samples the word held. -/
def execStoreUncorrectableError (offset initiator : Nat) (affected : List Nat) (s : State) : Host.Outcome State Fault Refusal :=
  let a := offset % 2 ^ 32
  let b := bankOf a
  .next (if s.bankUsable b || s.bank b == Bank.checking then
      let s := { s with mem := { s.mem with poisoned := s.mem.poisoned.filter (· != a / 64) ++ [a / 64] } }
      let s := s.count (if initiator = 0 || initiator = 0xA then STORE.UE_CNT.SCRUB else STORE.UE_CNT.ACCESS) 1
      let s := (s.ueLog a initiator).evt STORE.ERR_EVT.UE 1 Src.STORE_ECC_RETENTION
      let s := s.post Evt.STORE_UE b (leBytes 4 a ++ [initiator])
      let s := if s.decikRuns then s.pageError a else s
      let s := if initiator = 1 then { s with ring := { s.ring with stagingDone := false } } else s
      let s := if initiator = 2 then affected.foldl (fun (s : State) (i : Nat) => s.deliverRepeat i s.clk.n) s else s
      if s.bank b == Bank.ready then s else s.bankLost b 2
    else s)

/-- SCRUB_PASS_END (R305): banks above the threshold are reported; the next pass begins. -/
def execScrubPassEnd (s : State) : Host.Outcome State Fault Refusal :=
  let th := s.get STORE.CFG.CE_THRESH
  let high := (List.range 16).filter (fun b => decide (th < s.mem.scrubCe.getD b 0))
  .next (
    let s := if high.isEmpty then s else s.evt STORE.ERR_EVT.CE_THRESH 1 Src.STORE_ECC_RETENTION
    let s := high.foldl (fun (s : State) (b : Nat) => s.post Evt.STORE_CE_HIGH b (leBytes 4 (s.mem.scrubCe.getD b 0))) s
    let s := (s.set STORE.STAT.SCRUB_PCT 0).set STORE.SCRUB_ADDR.ADDR 0
    { s with mem := { s.mem with scrubCe := List.replicate 16 0, scrubTicks := 0 } })

/-- Progress of the background scrub in a tick (R305): uniform over SCRUB_H hours. -/
def State.scrubTick (s : State) : State :=
  if s.flag STORE.CFG.SCRUB_EN && s.domOn Dom.storeCtl && !s.flag STORE.STAT.WAKE_SCRUB then
    let pass := s.get STORE.CFG.SCRUB_H * 3600 * 48000
    let t := min (s.mem.scrubTicks + 1) pass
    let s := { s with mem := { s.mem with scrubTicks := t } }
    let s := s.set STORE.STAT.SCRUB_PCT (100 * t / max pass 1)
    s.set STORE.SCRUB_ADDR.ADDR (min (2 ^ 32 * t / max pass 1) (2 ^ 32 - 8) / 8 * 8)
  else s

/-! ## Retention (R311 to R314) -/

/-- The CRC-32C over a bank's critical extents, in the order listed (R311). -/
def State.extentCrc (s : State) (b : Nat) : Nat :=
  crc32c ((s.mem.extents.filter (fun e => e.1 == b)).flatMap (fun (e : Nat × Nat × Nat) => s.bytesAt e.2.1 (4096 * e.2.2)))

/-- Cut an extent list to 8 extents and 4,096 pages (16 MiB) (R312). -/
def cutExtents : Nat → Nat → List (Nat × Nat × Nat) → List (Nat × Nat × Nat)
  | 0, _, _ => []
  | _, _, [] => []
  | n + 1, room, e :: t => if room = 0 then [] else (e.1, e.2.1, min e.2.2 room) :: cutExtents n (room - min e.2.2 room) t

/-- The critical extents of a bank that Decik lists (R312): whole FIRMWARE, CONFIG and EVMIRROR regions, and the index
pages at the end of LIBRARY and RECORDER, as far as they lie in the bank. -/
def State.listExtents (s : State) (b : Nat) : List (Nat × Nat × Nat) :=
  let want := s.mem.regions.filterMap (fun (r : Region) =>
    if !r.inBank b then none
    else
      let first := if r.kind = 1 || r.kind = 2 || r.kind = 3 then some 0
        else if r.kind = 4 then some (r.pages - min r.pages 1)
        else if r.kind = 5 then some (r.pages - min r.pages 3516)
        else none
      match first with
      | none => none
      | some f =>
        let lo := max (pageIndex r.base + f) (65535 * b)
        let hi := min (pageIndex r.base + r.pages) (65535 * (b + 1))
        if lo < hi then some (b, pageOffset lo, hi - lo) else none)
  cutExtents 8 4096 want

/-- Entry to STANDBY at the store (R311, R504): the extent list to durable memory, the count, the canaries and the extent
checks of every usable bank, then self-refresh. A bank that is not usable is dropped. -/
def State.storeSleep (s : State) : State :=
  let keep := (List.range 16).filter s.bankUsable
  let mem := { s.mem with
    extents := keep.flatMap s.listExtents
    extentSeq := s.mem.extentSeq + 1
    mask := s.get STORE.RET_MASK.MASK
    maskLocked := true }
  let s := { s with mem := mem }.wrapInc STORE.SLEEP_CNT.COUNT
  let n := s.get STORE.SLEEP_CNT.COUNT
  let s := { s with mem := { s.mem with canary := keep.map (fun b => (b, n)) } }
  let s := keep.foldl (fun (s : State) (b : Nat) => s.set (STORE.EXT_CRC.CRC b) (s.extentCrc b)) s
  (List.range 16).foldl (fun (s : State) (b : Nat) => s.setBank b (if keep.contains b then Bank.retained else Bank.down)) s

/-- Banks leave self-refresh: what they held is gone. -/
def State.dropBanks (s : State) (keep : Nat) : State :=
  let s := (List.range 16).foldl (fun (s : State) (b : Nat) => if bit keep b then s else (s.setBank b Bank.down).define (b * 2 ^ 28) (2 ^ 28)) s
  { s with
    store := s.store.filter (fun e => bit keep (bankOf e.1))
    mem := { s.mem with poisoned := s.mem.poisoned.filter (fun l => bit keep (bankOf (64 * l))) } }

/-- The STORE_CTL domain drops (R319): its registers read as at reset; SLEEP_CNT and EXT_CRCb stay, and the array keeps the
bank states. -/
def State.storeCtlDown (s : State) : State :=
  let kept := s.regs.filter (fun e => (decide (STORE.CFG.off ≤ e.1) && decide (e.1 < STORE.CFG.off + 0x1000)) &&
    (e.1 == STORE.SLEEP_CNT.off || decide (STORE.EXT_CRC.off 0 ≤ e.1) || e.1 == STORE.BANK_STAT.off 0 || e.1 == STORE.BANK_STAT.off 1))
  let s := s.resetRegs STORE.CFG.off (STORE.CFG.off + 0x1000)
  { kept.foldl (fun (s : State) (e : Nat × Word) => s.setWord e.1 e.2) s with
    mem := { s.mem with writeBack := [], scrubCe := List.replicate 16 0, scrubTicks := 0 } }

/-- The checks are over (R314): the wake scrub starts over PROVISIONAL banks, DOWN banks are initialised, and RET_MASK is
writable again. -/
def State.wakeChecksOver (s : State) : State :=
  if (List.range 16).any (fun b => s.bank b == Bank.checking || s.bank b == Bank.retained) then s
  else
    let prov := (List.range 16).any (fun b => s.bank b == Bank.provisional)
    let down := (List.range 16).foldl (fun m b => if s.bank b == Bank.down then setBit m b else m) 0
    let s := (s.setFlag STORE.STAT.WAKE_SCRUB prov).storeInit down
    { s with mem := { s.mem with maskLocked := false } }

/-- WAKE_CANARY_CHECK (R314): `decayed` names the banks whose page does not hold its words any more; `us` is the time the
checks took. -/
def execWakeCanaryCheck (decayed us : Nat) (s : State) : Host.Outcome State Fault Refusal :=
  .next (if (List.range 16).any (fun b => s.bank b == Bank.retained) then
      let n := s.get STORE.SLEEP_CNT.COUNT
      let s := ((s.set STORE.WAKE_CHK.EXT_FAIL 0).set STORE.WAKE_CHK.CANARY_FAIL 0).set STORE.WAKE_TIME.CANARY_US (min us 0xFFFF)
      let s := (List.range 16).foldl (fun (s : State) (b : Nat) =>
        if s.bank b == Bank.retained then
          if s.mem.canary.contains (b, n) && !bit decayed b then s.setBank b Bank.checking
          else (s.putBit STORE.WAKE_CHK.CANARY_FAIL b true).bankLost b 0
        else s) s
      s.wakeChecksOver
    else s)

/-- EXTENT_CHECK_DONE (R314, R315): `crc` is what the extents of the bank give now. -/
def execExtentCheckDone (b : Fin 16) (crc time100us : Nat) (s : State) : Host.Outcome State Fault Refusal :=
  .next (if s.bank b == Bank.checking then
      let s := s.set STORE.WAKE_TIME.EXT_100US (min time100us 0xFFFF)
      let s := if crc = s.get (STORE.EXT_CRC.CRC b) then s.setBank b Bank.provisional
        else (s.putBit STORE.WAKE_CHK.EXT_FAIL b.val true).bankLost b 1
      s.wakeChecksOver
    else s)

/-- WAKE_SCRUB_BANK_DONE (R306, R314): the bank is READY; after the last one the scrub returns to its usual rate. -/
def execWakeScrubBankDone (b : Fin 16) (s : State) : Host.Outcome State Fault Refusal :=
  .next (if s.bank b == Bank.provisional then
      let s := s.setBank b Bank.ready
      s.setFlag STORE.STAT.WAKE_SCRUB ((List.range 16).any (fun k => s.bank k == Bank.provisional))
    else s)

end Sys2Proof.Machine
end

