-- ==== Sys2Proof/Machine/Bridge.lean ====
section
/-! DEFINITION. The local store window and the train-window bridge (chapter 10, R334 to R356), requester and target side. -/

namespace Sys2Proof.Machine

/-! ## Local store window (R334 to R336) -/

/-- The store offset of offset `o` of the local window. -/
def State.localOffset (s : State) (o : Nat) : Nat := s.get BRG.LWIN_BASE.BASE * 0x100000 + o % 2 ^ 28

/-- May the host write this byte: it lies in a region of kind MAILBOX or HOST (R335)? -/
def State.hostWritable (s : State) (a : Nat) : Bool :=
  if s.get GLB.BOOT_STAT.STATE = 1 then decide (a < 0x800000)
  else s.mem.regions.any (fun r => (r.kind == 6 || r.kind == 0xF) && decide (r.base ≤ a) && decide (0 < r.pages) &&
    decide (a ≤ r.at (4096 * r.pages - 1))) && !inCanary a

/-- Does an access touch a block that a Cinch holds (R351)? -/
def State.cinchHolds (s : State) (a n : Nat) : Bool :=
  s.brg.cinches.any (fun (c : Cinch) => decide (a < c.block + 256) && decide (c.block < a + n))

/-- A host read of the local window. -/
def State.localRead (s : State) (tag o len : Nat) : State :=
  if !s.flag BRG.LWIN_CTRL.EN then s.emit (.completion tag .ur [])
  else
    let a := s.localOffset o
    if s.cinchHolds a len then { s with brg := { s.brg with heldLocal := s.brg.heldLocal ++ [.read tag o len] } }
    else
      let (bytes, err, s) := s.storeRead a len
      if err then (s.count BRG.LWIN_STAT.ERR_CNT 1).emit (.completion tag .ca [])
      else s.emit (.completion tag .ok bytes)

/-- The runs of enabled bytes: offset and bytes. -/
def enabledRuns (a : Nat) : List (Option Nat) → List (Nat × List Nat)
  | [] => []
  | none :: t => enabledRuns (a + 1) t
  | some x :: t =>
    match enabledRuns (a + 1) t with
    | (b, l) :: r => if b = a + 1 then (a, x :: l) :: r else (a, [x]) :: (b, l) :: r
    | [] => [(a, [x])]

/-- What a write of the local window came to: done, discarded by R335, or an unusable bank. -/
inductive WinWrite where
  | done | refused | error | closed
  deriving DecidableEq, Repr

/-- A host write of the local window. -/
def State.localWrite (s : State) (o : Nat) (bytes : List (Option Nat)) : WinWrite × State :=
  if !s.flag BRG.LWIN_CTRL.EN then (.closed, s)
  else
    let a := s.localOffset o
    let runs := enabledRuns a bytes
    let touched := runs.flatMap (fun r => (List.range r.2.length).map (r.1 + ·))
    if touched.any (fun x => !s.hostWritable x) then (.refused, s.count BRG.LWIN_STAT.WP_CNT 1)
    else if s.cinchHolds a bytes.length then
      (.done, { s with brg := { s.brg with heldLocal := s.brg.heldLocal ++ [.write o bytes] } })
    else
      let bad := touched.any (fun x => !s.bankUsable (bankOf x))
      let s := runs.foldl (fun (s : State) (r : Nat × List Nat) => s.storeWrite r.1 r.2) s
      if bad then (.error, s.count BRG.LWIN_STAT.ERR_CNT 1) else (.done, s)

/-- An AtomicOp of the local window (R336): 128-bit CAS is an Unsupported Request (R324). -/
def State.localAtomic (s : State) (tag : Nat) (op : AtomicOp) : State :=
  if !s.flag BRG.LWIN_CTRL.EN || !(op.width == 4 || op.width == 8) then s.emit (.completion tag .ur [])
  else
    let a := s.localOffset op.off
    if (List.range op.width).any (fun i => !s.hostWritable (a + i)) then s.emit (.completion tag .ca [])
    else if s.cinchHolds a op.width then { s with brg := { s.brg with heldLocal := s.brg.heldLocal ++ [.atomic tag op] } }
    else
      let (bytes, err, s) := s.storeRead a op.width
      if err then (s.count BRG.LWIN_STAT.ERR_CNT 1).emit (.completion tag .ca [])
      else
        let old := leValue bytes
        (s.storeWrite a (leBytes op.width (op.result old))).emit (.completion tag .ok (leBytes op.width old))

/-- BAR0_ATOMICOP (R324). -/
def execBar0Atomicop (tag : Nat) (_op : AtomicOp) (s : State) : Host.Outcome State Fault Refusal :=
  .next (s.emit (.completion tag .ur []))

/-- LOCAL_WINDOW_READ (R334, R336). -/
def execLocalWindowRead (tag off len : Nat) (s : State) : Host.Outcome State Fault Refusal := .next (s.localRead tag off len)

/-- LOCAL_WINDOW_WRITE (R334, R335): posted. -/
def execLocalWindowWrite (off : Nat) (bytes : List (Option Nat)) (s : State) : Host.Outcome State Fault Refusal :=
  .next (s.localWrite off bytes).2

/-- LOCAL_WINDOW_ATOMIC (R336). -/
def execLocalWindowAtomic (tag : Nat) (op : AtomicOp) (s : State) : Host.Outcome State Fault Refusal := .next (s.localAtomic tag op)

/-- A locked block is free again: the accesses that waited are carried out in order. -/
def State.releaseHeld (s : State) : State :=
  let q := s.brg.heldLocal
  q.foldl (fun (s : State) (h : HeldLocal) =>
    match h with
    | .read tag o len => s.localRead tag o len
    | .write o bytes => (s.localWrite o bytes).2
    | .atomic tag op => s.localAtomic tag op) { s with brg := { s.brg with heldLocal := [] } }

/-! ## Bridge messages -/

abbrev BrgOp.read : Nat := 1
abbrev BrgOp.write : Nat := 2
abbrev BrgOp.cinch : Nat := 3
abbrev BrgOp.semAcq : Nat := 4
abbrev BrgOp.readSem : Nat := 5
abbrev BrgOp.writeRel : Nat := 6
abbrev BrgOp.semRel : Nat := 7

/-- Status and cause codes. -/
abbrev BrgSt.ok : Nat := 0
abbrev BrgSt.notPresent : Nat := 1
abbrev BrgSt.notPermitted : Nat := 2
abbrev BrgSt.unusable : Nat := 3
abbrev BrgSt.poisoned : Nat := 4
abbrev BrgSt.timeout : Nat := 5
abbrev BrgSt.topology : Nat := 6
abbrev BrgSt.lockRefused : Nat := 7
abbrev BrgSt.lockExpired : Nat := 8
abbrev BrgSt.notLockable : Nat := 9
abbrev BrgSt.busy : Nat := 0x80
abbrev BrgSt.locked : Nat := 0x81

/-- The message of a request: the 16-byte header, then the data. -/
def State.reqBytes (s : State) (r : BrgReq) : List Nat :=
  [r.op, (if s.flag (BRG.TWIN_CFG.TYPE r.win) then 1 else 0) + (if r.prefetch then 2 else 0)] ++
  leBytes 2 (r.win * 4096 + r.seq) ++ leBytes 4 r.off ++ leBytes 2 r.len ++
  [r.kind, s.get (BRG.TWIN_CFG.SEM r.win)] ++ leBytes 4 0 ++ r.data

/-- A request as the target reads it. -/
def tgtReq (pos sub : Nat) (m : List Nat) : TgtReq where
  pos := pos
  sub := sub
  op := m.getD 0 0
  regs := bit (m.getD 1 0) 0
  prefetch := bit (m.getD 1 0) 1
  rtag := leValue ((m.drop 2).take 2)
  off := leValue ((m.drop 4).take 4)
  len := leValue ((m.drop 8).take 2)
  kind := m.getD 10 0
  sem := m.getD 11 0 % 32
  data := m.drop 16

/-- The message of an answer. -/
def brgRspBytes (r : TgtReq) (status : Nat) (data : List Nat) : List Nat :=
  [r.op, status] ++ leBytes 2 r.rtag ++ leBytes 4 r.off ++ leBytes 2 data.length ++ [0, 0] ++ leBytes 4 0 ++ data

/-- An answer as the requester reads it. -/
def brgRsp (pos sub : Nat) (m : List Nat) : BrgRsp where
  pos := pos
  sub := sub
  op := m.getD 0 0
  status := m.getD 1 0
  rtag := leValue ((m.drop 2).take 2)
  data := (m.drop 16).take (leValue ((m.drop 8).take 2))

/-! ## Windows (R337, R338) -/

/-- The UID that a window expects; zero for none. -/
def State.winUid (s : State) (w : Nat) : DWord :=
  BitVec.ofNat 64 (s.get64 (BRG.TWIN_UID_LO.UID w) (BRG.TWIN_UID_HI.UID w))

/-- Does the layout have POS.SUB with a node that serves: not absent, not pass-through? -/
def Layout.serves (l : Layout) (departed p sub : Nat) : Bool :=
  match l.pos p with
  | some q => q.role != 0 && !bit departed p && (sub == 0 || bit q.members sub)
  | none => false

/-- The position and sub-position to which a window's requests go, where its target is present (R338). -/
def State.resolve (s : State) (w : Nat) : Option (Nat × Nat) :=
  match s.layout? with
  | none => none
  | some l =>
    let u := s.winUid w
    let p := if u = 0 then s.get (BRG.TWIN_CFG.POS w) else l.posOf u
    let sub := s.get (BRG.TWIN_CFG.SUB w)
    if l.serves s.ring.departed p sub then some (p, sub) else none

/-- Show in the registers what is outstanding (BRG.STAT, TWINn_STAT). -/
def State.brgShow (s : State) : State :=
  let writes := s.brg.reqs.filter (fun r => r.op == BrgOp.write)
  let atoms := if s.brg.atom.isSome then 1 else 0
  let s := s.set BRG.STAT.WR_OUT writes.length
  let s := s.set BRG.STAT.RD_OUT (s.brg.reads.length + atoms)
  let s := s.setFlag BRG.STAT.CINCH_BUSY s.brg.atom.isSome
  let s := s.setFlag BRG.STAT.SEM_HELD (match s.brg.atom with | some a => a.held | none => false)
  (List.range 16).foldl (fun (s : State) (w : Nat) =>
    (s.set (BRG.TWIN_STAT.W_PEND w) (writes.filter (fun r => r.win == w)).length).setFlag (BRG.TWIN_STAT.PF_VALID w)
      (s.brg.buffers.any (fun b => b.win == w))) s

/-- Remember the UID that each window's POS.SUB names, and RPOS (R338). -/
def State.brgNames (s : State) : State :=
  let named (w : Nat) : DWord := match s.layout? with
    | some l => match l.pos (s.get (BRG.TWIN_CFG.POS w)) with | some q => q.uid | none => 0
    | none => 0
  let s := { s with brg := { s.brg with known := (List.range 16).map named } }
  (List.range 16).foldl (fun (s : State) (w : Nat) =>
    if s.flag (BRG.TWIN_CFG.EN w) then s.set (BRG.TWIN_STAT.RPOS w) (match s.resolve w with | some p => p.1 | none => 0) else s) s

/-! ## Prefetch (R343 to R345) -/

/-- Register blocks of 256 bytes that are never buffered: all of MBX, and blocks with a FIFO-pop register (R344, R624). -/
def neverPrefetched (block : Nat) : Bool :=
  block / 0x1000 == 2 ||
  [GLB.TICK_SEQ.off, SYNC.TIME_LO.off, PTP.TIME_LO.off, PWR.RTC_LO.off, ETH.TSQ_STAT.off 0, ETH.TSQ_STAT.off 1].any
    (fun o => o / 256 == block / 256) ||
  (List.range 16).any (fun w => BRG.TWIN_BAR.off w / 256 == block / 256) ||
  (List.range 32).any (fun k => BRG.SEM.off k / 256 == block / 256)

/-- A window's buffer leaves; one with unread bytes is counted and raises BRIDGE_PREFETCH_DISCARD. -/
def State.pfDiscard (s : State) (w : Nat) : State :=
  match s.brg.buffers.find? (fun b => b.win == w) with
  | none => s
  | some b =>
    let s := { s with brg := { s.brg with buffers := s.brg.buffers.filter (fun x => x.win != w) } }
    let s := s.setFlag (BRG.TWIN_STAT.PF_VALID w) false
    if b.unread.isEmpty then s
    else
      let base := if s.flag (BRG.TWIN_CFG.TYPE w) then 0 else s.get (BRG.TWIN_OFS.BASE w) * 0x1000
      let s := (s.count (BRG.TWIN_DISC.CNT w) 1).set (BRG.TWIN_DISC.ADDR w) (b.block - base)
      s.evt BRG.EVT.PF_DISCARD 1 Src.BRIDGE_PREFETCH_DISCARD

/-- PREFETCH_AGE_EXPIRE (R345). -/
def execPrefetchAgeExpire (win : Fin 16) (s : State) : Host.Outcome State Fault Refusal := .next (s.pfDiscard win.val)

/-- A buffered block that reached PF_AGE ticks is discarded (0 acts as 1). -/
def State.pfTick (s : State) : State :=
  let age := max 1 (s.get BRG.CFG.PF_AGE)
  let old := s.brg.buffers.filter (fun b => decide (b.arrived + age ≤ s.decik.upTicks))
  old.foldl (fun (s : State) (b : PfBuf) => s.pfDiscard b.win) s

/-! ## Outcomes (R342, R346, R350, R353) -/

/-- A read fails: Completer Abort at the boundary, counted. -/
def State.readFailed (s : State) (tag cause : Nat) : State :=
  let s := s.count BRG.CNT.RD_FAIL 1
  let s := s.setFlag BRG.EVT.RD_FAIL true
  let s := if cause = BrgSt.timeout then (s.count BRG.CNT.TIMEOUT 1).evt BRG.EVT.TIMEOUT 1 Src.BRIDGE_TIMEOUT else s
  { s with brg := { s.brg with
      reads := s.brg.reads.filter (fun r => r.tag != tag)
      reqs := s.brg.reqs.filter (fun r => !(r.tag == tag && r.op == BrgOp.read))
      ready := s.brg.ready ++ [.completion tag .ca []] } }

/-- A posted write fails (R346): logged, STICKY with the first cause, BRIDGE_POSTED_FAIL. -/
def State.postFailed (s : State) (w winOff tag cause : Nat) : State :=
  let s := s.tally (BRG.PFLOG_A.WIN 0).key 1
  let s := match (List.range 16).find? (fun j => !s.flag (BRG.PFLOG_B.VALID j)) with
    | some j =>
      let s := (s.set (BRG.PFLOG_A.WIN j) w).set (BRG.PFLOG_A.OFFSET j) winOff
      let s := ((s.set (BRG.PFLOG_B.TAG j) tag).set (BRG.PFLOG_B.CAUSE j) cause).set (BRG.PFLOG_B.TICK j) s.tickSeq
      (s.setFlag (BRG.PFLOG_B.VALID j) true).putBit BRG.PFLOG_STAT.VALID j true
    | none => s.count BRG.PFLOG_STAT.OVF 1
  let s := if s.flag (BRG.TWIN_STAT.STICKY w) then s
    else (s.setFlag (BRG.TWIN_STAT.STICKY w) true).set (BRG.TWIN_STAT.FIRST_CAUSE w) cause
  let s := if cause = BrgSt.timeout then (s.count BRG.CNT.TIMEOUT 1).evt BRG.EVT.TIMEOUT 1 Src.BRIDGE_TIMEOUT else s
  s.evt BRG.EVT.POSTED_FAIL 1 Src.BRIDGE_POSTED_FAIL

/-- What a read of BRG.TWINn_BAR returns (R347). -/
def State.barValue (s : State) (w : Nat) : Nat :=
  s.get (BRG.TWIN_BAR.TAG w) + (if s.flag (BRG.TWIN_STAT.STICKY w) then 2 ^ 31 + 2 ^ 24 * s.get (BRG.TWIN_STAT.FIRST_CAUSE w) else 0)

/-- Barrier reads whose writes are all answered complete. -/
def State.barCheck (s : State) : State :=
  let open_ (e : Nat × List Nat) : Bool :=
    s.brg.reqs.any (fun r => r.op == BrgOp.write && r.win == e.1 && e.2.contains r.seq)
  let done := s.brg.barWait.filter (fun e => !open_ e)
  let s := { s with brg := { s.brg with barWait := s.brg.barWait.filter open_ } }
  done.foldl (fun (s : State) (e : Nat × List Nat) => s.emit (.hostRead (s.barValue e.1))) s

/-- TWIN_BAR_READ (R347). -/
def execTwinBarRead (win : Fin 16) (s : State) : Host.Outcome State Fault Refusal :=
  .next (s.access (BRG.TWIN_BAR.off win) (fun s =>
    let open_ := (s.brg.reqs.filter (fun r => r.op == BrgOp.write && r.win == win.val)).map (·.seq)
    if open_.isEmpty then s.emit (.hostRead (s.barValue win.val))
    else { s with brg := { s.brg with barWait := s.brg.barWait ++ [(win.val, open_)] } }))

/-- An AtomicOp leaves; a further one may begin. -/
def State.atomGone (s : State) (out : Output) : State :=
  { s with brg := { s.brg with atom := none, ready := s.brg.ready ++ [out], reqs := s.brg.reqs.filter (fun r =>
      r.op == BrgOp.read || r.op == BrgOp.write) } }

/-- An AtomicOp ends with Completer Abort (R353). -/
def State.atomAbort (s : State) (a : HostAtom) (cause : Nat) : State :=
  let s := (s.count BRG.CNT.RD_FAIL 1).setFlag BRG.EVT.RD_FAIL true
  let s := if cause = BrgSt.timeout then (s.count BRG.CNT.TIMEOUT 1).evt BRG.EVT.TIMEOUT 1 Src.BRIDGE_TIMEOUT else s
  let s := if cause = BrgSt.lockExpired then s.evt BRG.EVT.LOCK_EXPIRED 1 Src.BRIDGE_LOCK else s
  s.atomGone (.completion a.tag .ca [])

/-- An AtomicOp ends as an Unsupported Request, with the log of R350 step 3. -/
def State.atomRefused (s : State) (a : HostAtom) (cause : Nat) : State :=
  let s := (s.set BRG.LOCK_LOG_A.WIN a.win).set BRG.LOCK_LOG_A.OFFSET a.op.off
  let s := (s.set BRG.LOCK_LOG_B.TICK s.tickSeq).set BRG.LOCK_LOG_B.ATTEMPTS (min a.sent 255)
  let s := (s.setFlag BRG.LOCK_LOG_B.MODE a.sem).set BRG.LOCK_LOG_B.CAUSE cause
  let s := (s.count BRG.LOCK_CNT.GIVEUPS 1).evt BRG.EVT.LOCK_UR 1 Src.BRIDGE_LOCK
  let s := s.post Evt.BRIDGE_LOCK_UR a.win (leBytes 4 a.op.off ++ [cause])
  s.atomGone (.completion a.tag .ur [])

/-! ## The target side (R348 to R352) -/

/-- Does an extent of the remote-access map with the permissions hold the bytes wholly (R348)? -/
def State.raccAllows (s : State) (off len : Nat) (r w lock : Bool) : Bool :=
  (List.range 8).any (fun k =>
    let base := s.get (BRG.RACC_BASE.BASE k) * 0x1000
    let pages := s.get (BRG.RACC_INFO.PAGES k)
    decide (base ≤ off) && decide (off + len ≤ base + 0x1000 * pages) && decide (0 < pages) &&
    (!r || s.flag (BRG.RACC_INFO.R k)) && (!w || s.flag (BRG.RACC_INFO.W k)) && (!lock || s.flag (BRG.RACC_INFO.LOCK k)))

/-- What serving a request gives: a status, data, and the state. -/
structure Served where
  status : Nat
  data : List Nat
  state : State
  deriving DecidableEq, Repr

/-- Count what was served or refused (R348). -/
def Served.counted (x : Served) : Served :=
  if x.status = BrgSt.notPermitted then { x with state := x.state.count BRG.TGT_CNT.REFUSED 1 }
  else { x with state := x.state.count BRG.TGT_CNT.SERVED 1 }

/-- Read the target's store under the map. -/
def State.tgtRead (s : State) (off len : Nat) : Served :=
  if !s.flag BRG.RACC_CTRL.EN || !s.raccAllows off len true false false then ⟨BrgSt.notPermitted, [], s⟩
  else if (List.range len).any (fun i => !s.bankUsable (bankOf (off + i))) then
    ⟨BrgSt.unusable, [], s.evt STORE.ERR_EVT.UNINIT 1 Src.STORE_ECC_RETENTION⟩
  else
    let (bytes, err, s) := s.storeRead off len
    if err then ⟨BrgSt.poisoned, [], s⟩ else ⟨BrgSt.ok, bytes, s⟩

/-- Write the target's store under the map. -/
def State.tgtWrite (s : State) (off : Nat) (data : List Nat) : Served :=
  if !s.flag BRG.RACC_CTRL.EN || !s.raccAllows off data.length false true false then ⟨BrgSt.notPermitted, [], s⟩
  else if (List.range data.length).any (fun i => !s.bankUsable (bankOf (off + i))) then
    ⟨BrgSt.unusable, [], s.evt STORE.ERR_EVT.UNINIT 1 Src.STORE_ECC_RETENTION⟩
  else ⟨BrgSt.ok, [], s.storeWrite off data⟩

/-- WRITE at the target: one through TYPE = 1 is refused (R348). -/
def State.serveWrite (s : State) (r : TgtReq) : Served :=
  if r.regs then ⟨BrgSt.notPermitted, [], s⟩ else s.tgtWrite r.off r.data

/-- The AtomicOp that a CINCH request carries. -/
def TgtReq.atom (r : TgtReq) : AtomicOp :=
  let w := if bit r.kind 7 then 8 else 4
  let k := if r.kind % 4 = 1 then AtomKind.fetchAdd else if r.kind % 4 = 2 then AtomKind.swap else AtomKind.cas
  if r.kind % 4 = 3 then ⟨r.off, k, w, leValue ((r.data.drop w).take w), leValue (r.data.take w)⟩
  else ⟨r.off, k, w, leValue (r.data.take w), 0⟩

/-- Carry out the operation of a granted Cinch: a bank that is not usable ends it without a write. -/
def State.cinchRun (s : State) (r : TgtReq) : Served :=
  let a := r.atom
  if (List.range a.width).any (fun i => !s.bankUsable (bankOf (a.off + i))) then ⟨BrgSt.unusable, [], s⟩
  else
    let (bytes, err, s) := s.storeRead a.off a.width
    if err then ⟨BrgSt.poisoned, [], s⟩
    else ⟨BrgSt.ok, bytes, s.storeWrite a.off (leBytes a.width (a.result (leValue bytes)))⟩

/-- May a Cinch be granted (R351)? `none` grants it. -/
def State.cinchRefusal (s : State) (r : TgtReq) : Option Nat :=
  let a := r.atom
  if !s.flag BRG.RACC_CTRL.EN then some BrgSt.notPermitted
  else if !s.flag BRG.RACC_CTRL.CINCH_EN || !s.raccAllows a.off a.width false true true || r.regs then some BrgSt.notLockable
  else if s.cinchHolds (a.off / 256 * 256) 256 || 8 ≤ s.brg.cinches.length then some BrgSt.locked
  else none

/-- Is the semaphore held under a live lease by this sender (R352)? -/
def State.semHeldBy (s : State) (r : TgtReq) : Bool :=
  s.flag (BRG.SEM.HELD r.sem) && !s.flag (BRG.SEM.LOCAL r.sem) && s.get (BRG.SEM.OWNER_POS r.sem) == r.pos &&
  s.get (BRG.SEM.OWNER_SUB r.sem) == r.sub % 4

/-- A semaphore is free. -/
def State.semFree (s : State) (k : Nat) : State := s.setWord (BRG.SEM.off k) 0

/-- SEM_ACQ at the target: a free semaphore is granted for a lease of 32 ticks. -/
def State.serveSemAcq (s : State) (r : TgtReq) : Served :=
  if !s.flag BRG.RACC_CTRL.EN then ⟨BrgSt.notPermitted, [], s⟩
  else if s.flag (BRG.SEM.HELD r.sem) then ⟨BrgSt.locked, [], s.count BRG.TGT_LOCK.REFUSED 1⟩
  else
    let s := ((s.setFlag (BRG.SEM.HELD r.sem) true).setFlag (BRG.SEM.LOCAL r.sem) false).set (BRG.SEM.OWNER_POS r.sem) r.pos
    ⟨BrgSt.ok, [], (s.set (BRG.SEM.OWNER_SUB r.sem) r.sub).set (BRG.SEM.LEASE r.sem) 32⟩

/-- READ_SEM at the target. -/
def State.serveReadSem (s : State) (r : TgtReq) : Served :=
  if !s.flag BRG.RACC_CTRL.EN || r.regs then ⟨BrgSt.notPermitted, [], s⟩
  else if !s.semHeldBy r then ⟨BrgSt.lockExpired, [], s⟩
  else s.tgtRead r.off r.len

/-- WRITE_REL at the target: the write and the release in one request. -/
def State.serveWriteRel (s : State) (r : TgtReq) : Served :=
  if !s.flag BRG.RACC_CTRL.EN || r.regs then ⟨BrgSt.notPermitted, [], s⟩
  else if !s.semHeldBy r then ⟨BrgSt.lockExpired, [], s⟩
  else
    let x := s.tgtWrite r.off r.data
    { x with state := x.state.semFree r.sem }

/-- SEM_REL at the target. -/
def State.serveSemRel (s : State) (r : TgtReq) : Served :=
  if !s.flag BRG.RACC_CTRL.EN then ⟨BrgSt.notPermitted, [], s⟩
  else if s.semHeldBy r then ⟨BrgSt.ok, [], s.semFree r.sem⟩
  else ⟨BrgSt.lockExpired, [], s⟩

/-- Answer a request. A request of the node's own bridge (position 0 stands for it) is answered without cells (R339). -/
def State.answer (s : State) (r : TgtReq) (status : Nat) (data : List Nat) : State :=
  if r.pos = 0 then { s with brg := { s.brg with rsps := s.brg.rsps ++ [⟨0, 0, r.op, status, r.rtag, data⟩] } }
  else s.stageMessage Kind.bridgeRsp r.pos r.sub (brgRspBytes r status data)

/-- A request reaches the target (R349): queued, or answered BUSY where 64 wait. -/
def State.brgDeliver (s : State) (r : TgtReq) : State :=
  if s.brg.inbox.length < 64 then { s with brg := { s.brg with inbox := s.brg.inbox ++ [r] } }
  else s.answer r BrgSt.busy []

/-- Serve the request at the front of the queue where it is of the OP, and its block is not held by a Cinch. -/
def State.serveFront (s : State) (op : Nat) (f : State → TgtReq → Served) : State :=
  match s.brg.inbox with
  | r :: rest =>
    if r.op == op && !(!r.regs && (op == BrgOp.read || op == BrgOp.write || op == BrgOp.readSem || op == BrgOp.writeRel) &&
        s.cinchHolds r.off (max r.len r.data.length)) then
      let x := (f { s with brg := { s.brg with inbox := rest } } r).counted
      x.state.answer r x.status x.data
    else s
  | [] => s

/-- BRIDGE_WRITE_SERVE (R348, R349): the request at the front of the target's queue. -/
def execBridgeWriteServe (s : State) : Host.Outcome State Fault Refusal := .next (s.serveFront BrgOp.write State.serveWrite)

/-- SEM_ACQ_SERVE (R352). -/
def execSemAcqServe (s : State) : Host.Outcome State Fault Refusal := .next (s.serveFront BrgOp.semAcq State.serveSemAcq)

/-- READ_SEM_SERVE (R352). -/
def execReadSemServe (s : State) : Host.Outcome State Fault Refusal := .next (s.serveFront BrgOp.readSem State.serveReadSem)

/-- WRITE_REL_SERVE (R352). -/
def execWriteRelServe (s : State) : Host.Outcome State Fault Refusal := .next (s.serveFront BrgOp.writeRel State.serveWriteRel)

/-- SEM_REL_SERVE (R352). -/
def execSemRelServe (s : State) : Host.Outcome State Fault Refusal := .next (s.serveFront BrgOp.semRel State.serveSemRel)

/-- A granted Cinch ends: the block is free and the answer goes out. -/
def State.cinchEnd (s : State) (c : Cinch) (status : Nat) (data : List Nat) : State :=
  let s := { s with brg := { s.brg with cinches := s.brg.cinches.filter (fun x => x.block != c.block) } }
  let s := s.set BRG.TGT_LOCK.ACTIVE s.brg.cinches.length
  (s.answer c.req status data).releaseHeld

/-- A held Cinch finishes its sequence. -/
def State.cinchFinish (s : State) (block : Nat) : State :=
  match s.brg.cinches.find? (fun c => c.block == block) with
  | some c => let x := (s.cinchRun c.req).counted; x.state.cinchEnd c x.status x.data
  | none => s

/-- CINCH_SERVE (R351): granted or refused. A Cinch that the store holds up (`stalled`) keeps its block locked; any other
completes in this step. -/
def execCinchServe (stalled : Bool) (s : State) : Host.Outcome State Fault Refusal :=
  .next (match s.brg.inbox with
    | r :: rest =>
      if r.op == BrgOp.cinch then
        let s := { s with brg := { s.brg with inbox := rest } }
        match s.cinchRefusal r with
        | some st =>
          let s := if st = BrgSt.notPermitted then s.count BRG.TGT_CNT.REFUSED 1 else s.count BRG.TGT_LOCK.REFUSED 1
          s.answer r st []
        | none =>
          let c : Cinch := ⟨r, r.off / 256 * 256, s.decik.upTicks⟩
          let s := { s with brg := { s.brg with cinches := s.brg.cinches ++ [c] } }
          let s := s.set BRG.TGT_LOCK.ACTIVE s.brg.cinches.length
          if stalled then s else s.cinchFinish c.block
      else s
    | [] => s)

/-- CINCH_EXPIRE (R351): aborted without a write, LOCK_EXPIRED, counted. -/
def execCinchExpire (block : Nat) (s : State) : Host.Outcome State Fault Refusal :=
  .next (match s.brg.cinches.find? (fun c => c.block == block) with
    | some c => (s.count BRG.TGT_LOCK.EXPIRED 1).cinchEnd c BrgSt.lockExpired []
    | none => s)

/-- A lease lapses: counted, the semaphore is free. -/
def State.semLapse (s : State) (k : Nat) : State :=
  if s.flag (BRG.SEM.HELD k) then (s.count BRG.TGT_LOCK.EXPIRED 1).semFree k else s

/-- SEM_LEASE_LAPSE (R352). -/
def execSemLeaseLapse (sem : Fin 32) (s : State) : Host.Outcome State Fault Refusal := .next (s.semLapse sem.val)

/-- One tick of every lease. -/
def State.semTick (s : State) : State :=
  (List.range 32).foldl (fun (s : State) (k : Nat) =>
    if s.flag (BRG.SEM.HELD k) then
      let n := s.get (BRG.SEM.LEASE k)
      if n ≤ 1 then s.semLapse k else s.set (BRG.SEM.LEASE k) (n - 1)
    else s) s

/-- A read of BRG.SEMs by local software (R352): acquires a free semaphore or renews a local lease; GRANT is returned as 1
where it is held locally after the read. -/
def State.semRead (s : State) (k : Nat) : Nat × State :=
  let s := if !s.flag (BRG.SEM.HELD k) then
      ((s.setFlag (BRG.SEM.HELD k) true).setFlag (BRG.SEM.LOCAL k) true).set (BRG.SEM.LEASE k) 32
    else if s.flag (BRG.SEM.LOCAL k) then s.set (BRG.SEM.LEASE k) 32
    else s
  ((s.word (BRG.SEM.off k)).toNat + b2n (s.flag (BRG.SEM.LOCAL k)), s)

/-- SEM_READ (R352). -/
def execSemRead (sem : Fin 32) (s : State) : Host.Outcome State Fault Refusal :=
  .next (s.access (BRG.SEM.off sem) (fun s =>
    let r := s.semRead sem.val
    r.2.emit (.hostRead r.1)))

/-- Writing REL releases a locally held semaphore. -/
def State.semRelease (s : State) (k : Nat) : State := if s.flag (BRG.SEM.LOCAL k) then s.semFree k else s

/-- SEM_RELEASE_WRITE (R352). -/
def execSemReleaseWrite (sem : Fin 32) (s : State) : Host.Outcome State Fault Refusal := 
  .next (s.access (BRG.SEM.off sem) (fun s => s.semRelease sem.val))

/-! ## The requester side -/

/-- Does a window go to the node itself (R339)? -/
def State.winIsSelf (s : State) (p : Nat × Nat) : Bool := p.1 == s.position && p.2 == s.get STK.STAT.SUB && s.position != 0

/-- Stage a request's message and put the request among those that wait. Where the window's target is the node itself the
request goes to the own queue. -/
def State.brgStage (s : State) (r : BrgReq) (p : Nat × Nat) : State :=
  let r := { r with pos := p.1, sub := p.2, msgId := s.ring.msgId }
  let s := { s with brg := { s.brg with reqs := s.brg.reqs ++ [r] } }
  if s.winIsSelf p then s.brgDeliver (tgtReq 0 0 (s.reqBytes r))
  else s.stageMessage Kind.bridgeReq p.1 p.2 (s.reqBytes r)

/-- The next RTAG sequence of a window. -/
def State.nextSeq (s : State) (w : Nat) : Nat × State :=
  let n := (s.brg.seq.getD w 0 + 1) % 4096
  (n, { s with brg := { s.brg with seq := s.brg.seq.set w n } })

/-- The target offset of a window offset, where the access does not pass the end of the space (R337). -/
def State.winTarget (s : State) (w off len : Nat) : Option Nat :=
  if s.flag (BRG.TWIN_CFG.TYPE w) then (if off + len ≤ 0x40000 then some off else none)
  else
    let a := s.get (BRG.TWIN_OFS.BASE w) * 0x1000 + off
    if a + len ≤ 2 ^ 32 then some a else none

/-- A host read of a window that has room for it (R341 to R344). -/
def State.winRead (s : State) (tag w off len : Nat) : State :=
  match s.winTarget w off len with
  | none => s.readFailed tag BrgSt.notPermitted
  | some a =>
    let inBuf := s.brg.buffers.find? (fun b => b.win == w && decide (b.block ≤ a) && decide (a + len ≤ b.block + 256))
    match inBuf with
    | some b =>
      let b' := { b with unread := b.unread.filter (fun x => !(decide (a - b.block ≤ x) && decide (x < a - b.block + len))) }
      let s := { s with brg := { s.brg with buffers := s.brg.buffers.map (fun (x : PfBuf) => if x.win == w then b' else x) } }
      s.emit (.completion tag .ok ((b.data.drop (a - b.block)).take len))
    | none =>
      let s := s.pfDiscard w
      if s.flag (BRG.TWIN_CFG.TYPE w) && !(len == 4 && a % 4 == 0) then s.readFailed tag BrgSt.notPermitted
      else match s.resolve w with
        | none => s.readFailed tag BrgSt.notPresent
        | some p =>
          let block := a / 256 * 256
          let regs := s.flag (BRG.TWIN_CFG.TYPE w)
          let pf := s.flag (BRG.TWIN_CFG.PREFETCH w) && decide (a + len ≤ block + 256) && !(regs && neverPrefetched block)
          let parts := if pf then [(block, 256)]
            else if a + len ≤ block + 256 then [(a, len)] else [(a, block + 256 - a), (block + 256, a + len - (block + 256))]
          let s := { s with brg := { s.brg with reads := s.brg.reads ++ [⟨tag, w, off, a, len, parts.length, []⟩] } }
          parts.foldl (fun (s : State) (x : Nat × Nat) =>
            let (n, s) := s.nextSeq w
            s.brgStage ⟨tag, w, n, BrgOp.read, x.1, off, x.2, 0, [], pf, 0, 0, 0, s.decik.upTicks⟩ p) s

/-- A host write to a window that has room for it (R346): posted under the window's next tag. -/
def State.winWrite (s : State) (w off : Nat) (bytes : List Nat) : State :=
  let tag := (s.get (BRG.TWIN_WSEQ.TAG w) + 1) % 4096
  let s := s.set (BRG.TWIN_WSEQ.TAG w) tag
  match s.winTarget w off bytes.length with
  | none => s.postFailed w off tag BrgSt.notPermitted
  | some a =>
    let touches := s.brg.buffers.any (fun b => b.win == w && decide (a < b.block + 256) && decide (b.block < a + bytes.length))
    let s := if touches then s.pfDiscard w else s
    match s.resolve w with
    | none => s.postFailed w off tag BrgSt.notPresent
    | some p => s.brgStage ⟨0, w, tag, BrgOp.write, a, off, bytes.length, 0, bytes, false, 0, 0, 0, s.decik.upTicks⟩ p

/-- At most 32 reads and atomics, and 128 posted writes, are outstanding; further accesses wait for credits, in order. -/
def State.brgAdmit (s : State) : Nat → State
  | 0 => s
  | n + 1 =>
    match s.brg.held with
    | .read tag w off len :: t =>
      if s.brg.reads.length + (if s.brg.atom.isSome then 1 else 0) < 32 then
        State.brgAdmit ({ s with brg := { s.brg with held := t } }.winRead tag w off len) n
      else s
    | .write w off bytes :: t =>
      if (s.brg.reqs.filter (fun r => r.op == BrgOp.write)).length < 128 then
        State.brgAdmit ({ s with brg := { s.brg with held := t } }.winWrite w off bytes) n
      else s
    | [] => s

/-- TRAIN_WINDOW_READ (R324, R341 to R345). -/
def execTrainWindowRead (tag : Nat) (win : Fin 16) (off len : Nat) (s : State) : Host.Outcome State Fault Refusal :=
  .next (if !s.flag (BRG.TWIN_CFG.EN win) then s.emit (.completion tag .ur [])
    else (State.brgAdmit { s with brg := { s.brg with held := s.brg.held ++ [.read tag win.val off len] } } 256).brgShow)

/-- TRAIN_WINDOW_WRITE (R324, R346). A write to a disabled window is an Unsupported Request: nothing is sent. -/
def execTrainWindowWrite (win : Fin 16) (off : Nat) (bytes : List Nat) (s : State) : Host.Outcome State Fault Refusal :=
  .next (if !s.flag (BRG.TWIN_CFG.EN win) then s
    else (State.brgAdmit { s with brg := { s.brg with held := s.brg.held ++ [.write win.val off bytes] } } 256).brgShow)

/-- Send the next request of an AtomicOp. -/
def State.atomSend (s : State) (a : HostAtom) (op : Nat) : State :=
  match s.winTarget a.win a.op.off a.op.width with
  | none => s.atomAbort a BrgSt.notPermitted
  | some off =>
    match s.resolve a.win with
    | none => s.atomAbort a BrgSt.notPresent
    | some p =>
      let (n, s) := s.nextSeq a.win
      let data := if op = BrgOp.cinch then a.op.bytes else if op = BrgOp.writeRel then leBytes a.op.width (a.op.result a.old) else []
      let s := { s with brg := { s.brg with atom := some { a with sent := a.sent + 1, retry := none } } }
      s.brgStage ⟨a.tag, a.win, n, op, off, a.op.off, a.op.width, if op = BrgOp.cinch then a.op.code else 0, data, false, 0, 0, 0,
        s.decik.upTicks⟩ p

/-- Start an AtomicOp under the window's LOCKMODE (R350 to R353). -/
def State.atomStart (s : State) (tag w : Nat) (op : AtomicOp) : State :=
  let a : HostAtom := ⟨tag, w, op.off, op, s.get (BRG.TWIN_CFG.LOCKMODE w) == 2, false, s.decik.upTicks, 0, 0, none, 0⟩
  let touches := match s.winTarget w op.off op.width with
    | some x => s.brg.buffers.any (fun b => b.win == w && decide (x < b.block + 256) && decide (b.block < x + op.width))
    | none => false
  let s := if touches then s.pfDiscard w else s
  if s.get (BRG.TWIN_CFG.LOCKMODE w) = 3 then s.atomRefused a BrgSt.notLockable
  else s.atomSend a (if a.sem then BrgOp.semAcq else BrgOp.cinch)

/-- Begin the AtomicOps that wait, one after another (R350). -/
def State.atomNext (s : State) : Nat → State
  | 0 => s
  | n + 1 =>
    if s.brg.atom.isSome then s
    else match s.brg.atomQ with
      | (tag, w, op) :: t => State.atomNext ({ s with brg := { s.brg with atomQ := t } }.atomStart tag w op) n
      | [] => s

/-- TRAIN_WINDOW_ATOMIC (R324, R350 to R353). -/
def execTrainWindowAtomic (tag : Nat) (win : Fin 16) (op : AtomicOp) (s : State) : Host.Outcome State Fault Refusal :=
  .next (if !s.flag (BRG.TWIN_CFG.EN win) || !(op.width == 4 || op.width == 8) then s.emit (.completion tag .ur [])
    else (State.atomNext { s with brg := { s.brg with atomQ := s.brg.atomQ ++ [(tag, win.val, op)] } } 64).brgShow)

/-- LOCKED: back off for w ticks, 1 to 2^min(r, 5); which is open (R350). -/
def State.atomLocked (s : State) (a : HostAtom) (op : Nat) : State :=
  let r := a.refusals + 1
  let s := s.count BRG.LOCK_CNT.REFUSALS 1
  let (x, s) := s.fresh
  let w := 1 + x % 2 ^ min r 5
  { s with brg := { s.brg with atom := some { a with refusals := r, retry := some (op, s.decik.upTicks + w) } } }

/-- LOCK_BACKOFF_EXPIRY (R350): the request is staged again, or given up after 64 ticks. -/
def execLockBackoffExpiry (s : State) : Host.Outcome State Fault Refusal :=
  .next (match s.brg.atom with
    | some a =>
      match a.retry with
      | some (op, _) =>
        let s := if a.first + 64 ≤ s.decik.upTicks then s.atomRefused a BrgSt.lockRefused else s.atomSend a op
        (s.atomNext 64).brgShow
      | none => s
    | none => s)

/-- Complete an AtomicOp with the value before it. -/
def State.atomDone (s : State) (a : HostAtom) (old : Nat) (cnt : Fld) : State :=
  (s.count cnt 1).atomGone (.completion a.tag .ok (leBytes a.op.width old))

/-- The answer to a request of the AtomicOp in progress (R350 to R353). -/
def State.atomAnswer (s : State) (a : HostAtom) (op status : Nat) (data : List Nat) : State :=
  if status = BrgSt.locked then s.atomLocked a op
  else if op = BrgOp.cinch then
    if status = BrgSt.ok then s.atomDone a (leValue data) BRG.ATOM_CNT.CINCH
    else if status = BrgSt.notLockable then
      if s.get (BRG.TWIN_CFG.LOCKMODE a.win) = 0 then s.atomSend { a with sem := true } BrgOp.semAcq
      else s.atomRefused a BrgSt.notLockable
    else s.atomAbort a status
  else if op = BrgOp.semAcq then
    if status = BrgSt.ok then s.atomSend { a with held := true } BrgOp.readSem else s.atomAbort a status
  else if op = BrgOp.readSem then
    if status = BrgSt.ok then s.atomSend { a with old := leValue data } BrgOp.writeRel
    else if status = BrgSt.lockExpired then s.atomAbort a status
    else (s.atomSend a BrgOp.semRel).atomAbort a status
  else if op = BrgOp.writeRel then
    if status = BrgSt.ok then s.atomDone a a.old BRG.ATOM_CNT.SEM else s.atomAbort a status
  else s

/-- A part of a read came back; the last one completes the read at the next boundary and fills the buffer (R341, R343). -/
def State.readAnswer (s : State) (q : BrgReq) (data : List Nat) : State :=
  match s.brg.reads.find? (fun r => r.tag == q.tag) with
  | none => s
  | some r =>
    let got := r.got ++ [(q.off, data)]
    if r.left ≤ 1 then
      let at_ (x : Nat) : Nat := match got.find? (fun g => decide (g.1 ≤ x) && decide (x < g.1 + g.2.length)) with
        | some g => g.2.getD (x - g.1) 0
        | none => 0
      let bytes := (List.range r.len).map (fun i => at_ (r.off + i))
      let buf : List PfBuf := if q.prefetch then
          [⟨q.win, q.off, data, (List.range 256).filter (fun x => !(decide (r.off - q.off ≤ x) && decide (x < r.off - q.off + r.len))),
            s.decik.upTicks⟩]
        else []
      { s with brg := { s.brg with
          reads := s.brg.reads.filter (fun x => x.tag != q.tag)
          ready := s.brg.ready ++ [.completion q.tag .ok bytes]
          buffers := (if q.prefetch then s.brg.buffers.filter (fun b => b.win != q.win) else s.brg.buffers) ++ buf } }
    else
      let r := { r with left := r.left - 1, got := got }
      { s with brg := { s.brg with reads := s.brg.reads.map (fun x => if x.tag == q.tag then r else x) } }

/-- The first answer that waits is taken: BUSY sends the request again, any other ends it. -/
def State.takeAnswer (s : State) : State :=
  match s.brg.rsps with
  | [] => s
  | a :: rest =>
    let s := { s with brg := { s.brg with rsps := rest } }
    match s.brg.reqs.find? (fun r => r.win * 4096 + r.seq == a.rtag && r.op == a.op) with
    | none => s
    | some q =>
      let s := { s with brg := { s.brg with reqs := s.brg.reqs.filter (fun r => !(r.win == q.win && r.seq == q.seq && r.op == q.op)) } }
      if a.status = BrgSt.busy then s.brgStage q (q.pos, q.sub)
      else if q.op = BrgOp.read then
        if a.status = BrgSt.ok then s.readAnswer q a.data else s.readFailed q.tag a.status
      else if q.op = BrgOp.write then
        let s := s.set (BRG.TWIN_BAR.TAG q.win) q.seq
        if a.status = BrgSt.ok then s else s.postFailed q.win q.winOff q.seq a.status
      else match s.brg.atom with
        | some h => if h.tag == q.tag then s.atomAnswer h q.op a.status a.data else s
        | none => s

/-- BRIDGE_RSP_RECEIVE (R340, R341, R346, R350): the first answer that waits. -/
def execBridgeRspReceive (s : State) : Host.Outcome State Fault Refusal :=
  .next (((s.takeAnswer.atomNext 64).brgAdmit 256).barCheck).brgShow

/-- A request has failed at the requester with a cause (R340, R354). -/
def State.requestFailed (s : State) (q : BrgReq) (cause : Nat) : State :=
  let s := { s with brg := { s.brg with reqs := s.brg.reqs.filter (fun r => !(r.win == q.win && r.seq == q.seq && r.op == q.op)) } }
  if q.op = BrgOp.read then s.readFailed q.tag cause
  else if q.op = BrgOp.write then s.postFailed q.win q.winOff q.seq cause
  else match s.brg.atom with
    | some h => if h.tag == q.tag then s.atomAbort h cause else s
    | none => s

/-- BRIDGE_TIMEOUT (R340). -/
def execBridgeTimeout (win : Fin 16) (seq op : Nat) (s : State) : Host.Outcome State Fault Refusal :=
  .next (match s.brg.reqs.find? (fun r => r.win == win.val && r.seq == seq && r.op == op) with
    | some q => ((((s.requestFailed q BrgSt.timeout).atomNext 64).brgAdmit 256).barCheck).brgShow
    | none => s)

/-- At a layout switch or fast shrink (R338, R345, R354): outstanding requests fail with TOPOLOGY, buffers are discarded,
and unchecked windows that name another node now are RENUMBERED. -/
def State.brgTopology (s : State) : State :=
  let s := s.brg.reqs.foldl (fun (s : State) (q : BrgReq) => s.requestFailed q BrgSt.topology) s
  let s := match s.brg.atom with | some a => s.atomAbort a BrgSt.topology | none => s
  let s := (List.range 16).foldl (fun (s : State) (w : Nat) => s.pfDiscard w) s
  let old := s.brg.known
  let s := s.brgNames
  let s := (List.range 16).foldl (fun (s : State) (w : Nat) =>
    let u := s.brg.known.getD w 0
    if s.flag (BRG.TWIN_CFG.EN w) && s.winUid w == 0 && u != 0 && u != old.getD w 0 then
      (s.setFlag (BRG.TWIN_STAT.RENUMBERED w) true).setFlag BRG.EVT.RENUMBERED true
    else s) s
  (((s.atomNext 64).brgAdmit 256).barCheck).brgShow

/-- The cells of a request expired on every line that was given them: it was never sent, and is staged again (R340). -/
def State.brgExpired (s : State) (lineB : Bool) (ids : List Nat) : State :=
  let exp := s.brg.expired ++ ids.map (fun i => (lineB, i))
  let both (i : Nat) : Bool :=
    (exp.contains (false, i) || !s.lineCarries .a) && (exp.contains (true, i) || !s.lineCarries .b)
  let again := s.brg.reqs.filter (fun r => ids.contains r.msgId && both r.msgId)
  let s := { s with brg := { s.brg with
    expired := (exp.filter (fun e => !both e.2)).drop (exp.length - 64)
    reqs := s.brg.reqs.filter (fun r => !again.contains r) } }
  again.foldl (fun (s : State) (r : BrgReq) => s.brgStage r (r.pos, r.sub)) s

/-- MSGIDs of the cells of a KIND in a line's queue that are 16 ticks old. -/
def State.agedIds (s : State) (l : Line) (kind : Nat) : List Nat :=
  ((s.ring.queue l).filter (fun c => !decide (c.age < 16) && c.bytes.at 0 % 32 == kind)).map (fun c => c.bytes.le 14 2)

/-- Cells not placed on the line within 16 ticks leave its queue and are counted; bridge requests that were never sent are
staged again (R105, R340). -/
def State.cellsExpire (s : State) (l : Line) : State :=
  let q := s.ring.queue l
  let keep := q.filter (fun c => decide (c.age < 16))
  let ids := s.agedIds l Kind.bridgeReq
  let s := s.count RING.CELL_TX.EXPIRED (q.length - keep.length)
  { s with ring := s.ring.setQueue l keep }.brgExpired (decide (l = Line.b)) ids

/-- At a tick boundary the completions of the tick before are given to the host (R341). -/
def State.brgTick (s : State) : State :=
  let out := s.brg.ready
  let s := out.foldl (fun (s : State) (o : Output) => s.emit o) { s with brg := { s.brg with ready := [] } }
  (s.pfTick.semTick.brgAdmit 256).brgShow

/-- TWIN_WINDOW_ENABLE (R337, R345): a write of EN. EN = 1 with POS outside 1 to 32 is ignored; EN = 0 discards the buffer. -/
def State.winEnable (s : State) (w : Nat) (on : Bool) : State :=
  let p := s.get (BRG.TWIN_CFG.POS w)
  if on && !(decide (1 ≤ p) && decide (p ≤ 32)) then s
  else
    let s := s.setFlag (BRG.TWIN_CFG.EN w) on
    if on then s.brgNames else s.pfDiscard w

def execTwinWindowEnable (win : Fin 16) (on : Bool) (s : State) : Host.Outcome State Fault Refusal := 
  .next (s.access (BRG.TWIN_CFG.off win) (fun s => s.winEnable win.val on))

/-! ## The PCIe link (R322, R323, R354, R630) -/

/-- The PCIe link goes down: the event, and the host's outstanding reads and atomics lose their completions (R354). -/
def State.pcieDown (s : State) : State :=
  let s := ((s.setFlag BRG.HOST_STAT.LINK_UP false).set BRG.HOST_STAT.LINK_SPEED 0).set BRG.HOST_STAT.LINK_WIDTH 0
  let s := s.evt BRG.HOST_EVT.LINK_DOWN 1 Src.FAULT_SUMMARY
  let s := { s with brg := { s.brg with
    reads := []
    atom := none
    atomQ := []
    held := []
    ready := []
    barWait := []
    reqs := s.brg.reqs.filter (fun r => r.op == BrgOp.write) } }
  s.irqLevel.brgShow

/-- PCIE_LINK_DOWN (R354, R355). -/
def execPcieLinkDown (s : State) : Host.Outcome State Fault Refusal :=
  .next (if s.flag BRG.HOST_STAT.LINK_UP then s.pcieDown else s)

/-- Send the messages that the pending-bit array holds and that may be sent now, in ascending order (R630, R631). -/
def State.msixFlush (s : State) : State :=
  (List.range 64).foldl (fun (s : State) (n : Nat) =>
    if bit s.msix.pba n && s.msixOn && s.vectorOpen n && s.isStat n then
      { s with msix := { s.msix with pba := clrBit s.msix.pba n } }.emit (.msix n)
    else s) s

/-- PCIE_LINK_UP (R322): the link as trained; messages held during the outage go out (R631). A selected SPI host holds the
PCIe port in reset (R320). -/
def execPcieLinkUp (speed width : Fin 4) (s : State) : Host.Outcome State Fault Refusal :=
  .next (if s.straps.hostSpi || !s.domOn Dom.pcie then s
    else
      let s := ((s.setFlag BRG.HOST_STAT.LINK_UP true).set BRG.HOST_STAT.LINK_SPEED speed).set BRG.HOST_STAT.LINK_WIDTH width
      s.irqLevel.msixFlush)

/-- Bits 15 and 14 of Message Control (R630): MSI-X Enable and Function Mask. -/
def State.msixControl (s : State) (enable functionMask : Bool) : State :=
  let s := { s with msix := { s.msix with enable := enable, functionMask := functionMask } }
  let s := (s.setFlag BRG.HOST_STAT.MSIX_EN enable).setFlag INTC.CTRL.MSIX enable
  s.irqLevel.msixFlush

/-- MSIX_ENABLE_WRITE (R323, R630). -/
def execMsixEnableWrite (enable functionMask : Bool) (s : State) : Host.Outcome State Fault Refusal :=
  .next (if s.straps.hostSpi then s else s.msixControl enable functionMask)

end Sys2Proof.Machine
end

