-- ==== Sys2Proof/Machine/Intc.lean ====
section
/-! DEFINITION. The interrupt controller's registers and MSI-X masks (R626 to R631). -/

namespace Sys2Proof.Machine

/-- The event bits of each source (table "interrupt sources"), as register offset and mask. TICK_MARK and RING_MSG_RX have
none. -/
def srcEvents (n : Nat) : List (Nat × Nat) :=
  match n with
  | 0 => [(GLB.OVR_STAT.off, 0xF)]
  | 2 => [(GLB.FAULT_EVT.off, 0x1F), (BRG.HOST_EVT.off, 1), (RED.EVT.off, 0x18), (PWR.EVT.off, 0x18)]
  | 3 => [(DIO.EVT_CHG.off, 0xFFFFFFFF), (DIO.EVT_CHAT.off, 0xFFFFFFFF), (DIO.EVT_STUCK.off, 0xFFFFFFFF)]
  | 4 => [(MBX.UNIT_EVT.off, 6)]
  | 5 => [(MBX.UNIT_EVT.off, 1)]
  | 6 => [(MBX.CFG_EVT.off, 3)]
  | 7 => [(MBX.CFG_EVT.off, 0x1C)]
  | 8 => [(MBX.EVT.off, 1)]
  | 9 => [(MBX.EVT.off, 2)]
  | 10 => [(MBX.EVT.off, 4)]
  | 11 => [(MBX.EVT.off, 8)]
  | 12 => [(MBX.EVT.off, 0x10)]
  | 13 => [(MBX.EVT.off, 0x20)]
  | 14 => [(MBX.EVT.off, 0x40)]
  | 15 => [(GLB.FW_STAT.off, 0x100)]
  | 16 => [(RING.LINK_EVT.off, 0xFF)]
  | 17 => [(RING.INAUG_EVT.off, 1)]
  | 18 => [(RING.INAUG_EVT.off, 0xFE)]
  | 19 => [(RING.CONCEAL_EVT.off, 0xFFFFFFFF)]
  | 20 => [(RING.LINE_STAT.off, 0x300), (RED.EVT.off, 0x40)]
  | 21 => [(RED.EVT.off, 0x423)]
  | 22 => [(RED.EVT.off, 4)]
  | 24 => [(SYNC.EVT.off, 1)]
  | 25 => [(SYNC.EVT.off, 2)]
  | 26 => [(SYNC.OUTLIER_EVT.off, 0xFF)]
  | 27 => [(SYNC.EVT.off, 4)]
  | 28 => [(AUD.STALE_EVT.off, 0x1FFFFFF)]
  | 29 => [(AUD.PORT_EVT.off, 0x1FFF)]
  | 30 => [(AUD.CLIP_EVT.off, 0xFFFFFFFF), (AUD.CLIP_EVT2.off, 0x1FFFF)]
  | 31 => [(AUD.FB_EVT.off, 0xFFFF), (AUD.PMON_EVT.off, 0xFFFFFFFF)]
  | 32 => [(AUD.CALL_EVT.off, 0xFFFFFF)]
  | 33 => [(AUD.PLAY_EVT.off, 0xFFFFFFFF), (AUD.PLAY_ERR.off, 0xFFFFFFFF)]
  | 34 => [(AUD.AEC_EVT.off, 0xFFFF)]
  | 35 => [(AUD.REC_EVT.off, 7)]
  | 36 => [(ETH.EVT.off 0, 0xF)]
  | 37 => [(ETH.TSQ_FIRST.off 0, 0x10000)]
  | 38 => [(ETH.ERR_EVT.off 0, 0x3F)]
  | 39 => [(ETH.EVT.off 1, 0xF)]
  | 40 => [(ETH.TSQ_FIRST.off 1, 0x10000)]
  | 41 => [(ETH.ERR_EVT.off 1, 0x3F)]
  | 42 => [(PTP.STRM_EVT.off 0, 0xFFFFFFFF), (PTP.STRM_EVT.off 1, 0xFFFFFFFF), (PTP.STRM_EVT.off 2, 0xFFFFFFFF), (PTP.STRM_EVT.off 3, 0xFFFFFFFF)]
  | 43 => [(PTP.EVT.off, 0xF)]
  | 44 => [(CAN.RX_EVT.off 0, 0xFFFFFFFF), (CAN.RX_EVT.off 1, 0xFFFFFFFF), (CAN.RX_EVT.off 2, 0xFFFFFFFF), (CAN.RX_EVT.off 3, 0xFFFFFFFF)]
  | 45 => [(CAN.TX_EVT.off 0, 0xFFFFFFFF), (CAN.TX_EVT.off 1, 0xFFFFFFFF), (CAN.TX_EVT.off 2, 0xFFFFFFFF), (CAN.TX_EVT.off 3, 0xFFFFFFFF)]
  | 46 => [(CAN.EVT.off, 0x1F), (CAN.TX_FAIL.off 0, 0xFFFFFFFF), (CAN.TX_FAIL.off 1, 0xFFFFFFFF), (CAN.TX_FAIL.off 2, 0xFFFFFFFF),
      (CAN.TX_FAIL.off 3, 0xFFFFFFFF)]
  | 47 => [(CAN.EVT.off, 0x20)]
  | 48 => [(CAN.EVT.off, 0x40)]
  | 49 => [(CAN.EVT.off, 0x80)]
  | 50 => [(BRG.EVT.off, 2)]
  | 51 => [(BRG.EVT.off, 4)]
  | 52 => [(BRG.EVT.off, 0x18)]
  | 53 => [(BRG.EVT.off, 0x20)]
  | 54 => [(PWR.EVT.off, 5)]
  | 55 => [(PWR.EVT.off, 2)]
  | 56 => [(STORE.ERR_EVT.off, 0xF), (STORE.BANK_LOST.off, 0xFFFF)]
  | 57 => [(PWR.NET_EVT.off, 0x7F)]
  | 58 => [(SEC.EVT.off, 3)]
  | 59 => [(SEC.EVT.off, 0x6C)]
  | 60 => [(SEC.EVT.off, 0x10)]
  | 61 => [(EVR.EVT.off, 0x1F)]
  | 62 => [(TST.EVT.off, 3)]
  | 63 => [(STK.EVT.off, 0x7F), (RED.EVT.off, 0x380)]
  | _ => []

/-- Is any event bit of the source set? -/
def State.srcEvent (s : State) (n : Nat) : Bool := (srcEvents n).any (fun e => Nat.land (s.word e.1).toNat e.2 != 0)

/-- The sources of one 32-bit register that a word names, ascending. -/
def namedSources (hi : Bool) (w : Nat) : List Nat := ((List.range 32).filter (fun i => bit w i)).map (· + (if hi then 32 else 0))

/-- A write of INTC.PEND (R627): the named bits clear; a source with an event bit still set is pending again, which is a new
setting. -/
def State.pendWrite (s : State) (hi : Bool) (w : Nat) : State :=
  let l := namedSources hi w
  let s := State.irqLevel (l.foldl (fun (s : State) (n : Nat) => s.putBit (pendFld n) (n % 32) false) s)
  l.foldl (fun (s : State) (n : Nat) => if s.srcEvent n then s.pend n else s) s

/-- INTC_PEND_WRITE. -/
def execIntcPendWrite (hi : Bool) (w : Word) (s : State) : Host.Outcome State Fault Refusal :=
  .next (s.access INTC.PEND_LO.off (fun s => s.pendWrite hi w.toNat))

/-- A write of INTC.EN (R630): enabling a pending source is a setting of its STAT bit (DEDUCED: a bit already 1 is not set
again, notes/assumptions/48.md). -/
def State.enWrite (s : State) (hi : Bool) (w : Nat) : State :=
  let f := if hi then INTC.EN_HI.EN else INTC.EN_LO.EN
  let old := s.get f
  let s := s.set f w
  let new := (namedSources hi w).filter (fun n => !bit old (n % 32) && s.isPend n)
  State.irqLevel (new.foldl (fun (s : State) (n : Nat) => s.statSet n) s)

/-- INTC_EN_WRITE. -/
def execIntcEnWrite (hi : Bool) (w : Word) (s : State) : Host.Outcome State Fault Refusal :=
  .next (s.access INTC.EN_LO.off (fun s => s.enWrite hi w.toNat))

/-- A write of INTC.FORCE (R629): sets pending bits in service mode TEST only. -/
def State.forceWrite (s : State) (hi : Bool) (w : Nat) : State :=
  if s.get PWR.STAT.MODE != 2 then s
  else (namedSources hi w).foldl (fun (s : State) (n : Nat) => if s.isPend n then s else s.setPend n) s

/-- INTC_FORCE_WRITE. -/
def execIntcForceWrite (hi : Bool) (w : Word) (s : State) : Host.Outcome State Fault Refusal :=
  .next (s.access INTC.FORCE_LO.off (fun s => s.forceWrite hi w.toNat))

/-- A vector's mask bit in its table entry (R630). -/
def State.vectorMask (s : State) (n : Nat) (masked : Bool) : State :=
  State.msixFlush { s with msix := { s.msix with unmasked := if masked then clrBit s.msix.unmasked n else setBit s.msix.unmasked n } }

/-- MSIX_UNMASK (R630): the mask of a vector, or the function's, clears; held messages whose STAT bit is still set go out in
ascending order. -/
def execMsixUnmask (vector : Option (Fin 64)) (s : State) : Host.Outcome State Fault Refusal :=
  .next (if s.straps.hostSpi || !s.domOn Dom.pcie then s
    else match vector with
      | some n => s.vectorMask n.val false
      | none => s.msixControl s.msix.enable false)

/-- Step 5 of a start (R628): every source that has an event bit set is pending. -/
def State.pendAll (s : State) : State := (List.range 64).foldl (fun (s : State) (n : Nat) => if s.srcEvent n then s.pend n else s) s

end Sys2Proof.Machine
end

