-- ==== Sys2Proof/Machine/Voice.lean ====
section
/-! DEFINITION. Voice processing (chapter 08, R259 to R296): echo cancellers, feedback suppression, calls, noise following,
path monitoring, STIPA, playback and the call recorder. What a filter computes comes from Config or from the event that
reports it; the counters, verdicts and states are the spec's. -/

namespace Sys2Proof.Machine

/-! ## Echo cancellation (R259 to R262) -/

/-- AEC_DIVERGE (R262): the taps to zero, DIVERGE and RESET set, RESETS counted; the instance converges again from zero. -/
def execAecDiverge (e : Fin 8) (s : State) : Host.Outcome State Fault Refusal :=
  .next (if s.flag (AUD.AEC_STAT.RUN e) then
      let s := s.evtBit AUD.AEC_EVT.DIVERGE e.val Src.AUD_AEC_DIVERGE
      let s := s.evtBit AUD.AEC_EVT.RESET e.val Src.AUD_AEC_DIVERGE
      let s := ((s.count (AUD.AEC_CNT.RESETS e) 1).setFlag (AUD.AEC_STAT.CONVERGED e) false).set (AUD.AEC_STAT.ERLE e) 0
      { s with vox := { s.vox with aecs := s.vox.aecs.modify e.val (fun x => { x with goodBlocks := 0 }) } }
    else s)

/-- A block of an instance ends (R260, R262): ERLE in 0.5 dB steps, double talk; 1,000 blocks of at least 20 dB are
CONVERGED. An abandoned block is counted (R41). -/
def State.aecBlock (s : State) (e erle : Nat) (dtalk abandoned : Bool) : State :=
  if !s.flag (AUD.AEC_STAT.RUN e) then s
  else if abandoned then s.count (AUD.AEC_CNT.ABANDONED e) 1
  else
    let s := (s.set (AUD.AEC_STAT.ERLE e) (min erle 255)).setFlag (AUD.AEC_STAT.DTALK e) dtalk
    let s := { s with vox := { s.vox with aecs := s.vox.aecs.modify e (fun x =>
      { x with goodBlocks := if 40 ≤ erle then min (x.goodBlocks + 1) 1000 else 0 }) } }
    let g := match s.vox.aecs[e]? with | some x => x.goodBlocks | none => 0
    s.setFlag (AUD.AEC_STAT.CONVERGED e) (decide (1000 ≤ g))

/-- The outputs of tick `n` (R260, R261): for microphone capture tick n − 96; VALID while the microphone is active; an
overrun block repeats with STALE. -/
def State.aecOutputs (s : State) (n : Nat) : State :=
  (List.range 8).foldl (fun (s : State) (e : Nat) =>
    if s.flag (AUD.AEC_STAT.RUN e) then
      let mic := s.sinkOut (0x188 + e)
      if s.sinkOverran (0x188 + e) then s.deliverRepeat (srcAec + e) n
      else s.deliver (srcAec + e) n (if mic.valid then .fresh (sat24 (Config.echoOut e (n - 96))) 0 else .none)
    else s) s

/-! ## Feedback suppression (R263 to R265) -/

/-- The suppressor of a microphone. -/
def VoxSt.fbOf (v : VoxSt) (m : Nat) : FbSt := v.fb.getD m ⟨false, [], none⟩

/-- Replace it, and show the number of notches. -/
def State.setFb (s : State) (m : Nat) (x : FbSt) : State :=
  { s with vox := { s.vox with fb := s.vox.fb.set m x } }.set (AUD.FB_MIC.NOTCHES m) x.notches.length

/-- HOWL_DETECT (R264, R265): a −6 dB notch; a ninth replaces the oldest; the first on a microphone that has held none for
60 s is an event. -/
def execHowlDetect (m : Fin 16) (freq : Nat) (s : State) : Host.Outcome State Fault Refusal :=
  .next (let x := s.vox.fbOf m.val
    if !x.enabled then s
    else
      let quiet := x.notches.isEmpty && (match x.lastHeld with | some t => decide (t + 60 * 48000 ≤ s.decik.upTicks) | none => true)
      let kept := if x.notches.length < 8 then x.notches else x.notches.drop 1
      let s := s.setFb m.val { x with notches := kept ++ [⟨freq, 6⟩], lastHeld := some s.decik.upTicks }
      let s := s.count (AUD.FB_MIC.NOTCH_SETS m) 1
      if quiet then s.evtBit AUD.FB_EVT.HOWL m.val Src.AUD_PATH_MON else s)

/-- NOTCH_DEEPEN (R264): 3 dB deeper, to at most −18 dB; counted. -/
def execNotchDeepen (m : Fin 16) (freq : Nat) (s : State) : Host.Outcome State Fault Refusal :=
  .next (let x := s.vox.fbOf m.val
    if x.notches.any (fun q => q.freq == freq && decide (q.depth < 18)) then
      let ns := x.notches.map (fun q => if q.freq == freq then { q with depth := min (q.depth + 3) 18 } else q)
      (s.setFb m.val { x with notches := ns, lastHeld := some s.decik.upTicks }).count (AUD.FB_MIC.NOTCH_SETS m) 1
    else s)

/-- NOTCH_DECAY (R264): a notch not re-triggered rises by 3 dB; one that reaches 0 dB is removed. -/
def execNotchDecay (m : Fin 16) (freq : Nat) (s : State) : Host.Outcome State Fault Refusal :=
  .next (let x := s.vox.fbOf m.val
    let ns := (x.notches.map (fun q => if q.freq == freq then { q with depth := q.depth - 3 } else q)).filter (fun q => q.depth != 0)
    s.setFb m.val { x with notches := ns, lastHeld := if x.notches.isEmpty then x.lastHeld else some s.decik.upTicks })

/-- The signal of a microphone with suppression: one tick later than without (R263). -/
def State.fbDeliver (s : State) (n m : Nat) : State :=
  let x := s.vox.fbOf m
  if x.enabled then
    let p := s.sampleAt (srcMic + m) n
    let v := if x.notches.isEmpty then p.value else sat24 (Config.suppressed m n p.value)
    let src := s.aud.source (srcMic + m)
    let hist := src.hist.map (fun e => if e.1 == n then (n + 1, { e.2 with value := v }) else e)
    { s with aud := { s.aud with sources := s.aud.sources.filter (fun (y : SourceSt) => y.ix != srcMic + m) ++ [{ src with hist := hist }] } }
  else s

/-! ## Calls (R266 to R271) -/

/-- Call states. -/
abbrev CallState.closed : Nat := 0
abbrev CallState.ring : Nat := 1
abbrev CallState.wait : Nat := 2
abbrev CallState.can : Nat := 3

/-- The state of a call. -/
def State.callState (s : State) (i : Nat) : Nat := s.get (AUD.CALL_STAT.STATE i)

/-- The open call of an index. -/
def VoxSt.call (v : VoxSt) (i : Nat) : Option CallSt := v.calls.find? (fun c => c.ix == i)

/-- Change a call's state: its bit of AUD.CALL_EVT.STATE raises AUD_CALL, and the host is notified (R267, R366). -/
def State.callTo (s : State) (i st : Nat) : State :=
  let id := match s.vox.call i with | some c => c.id | none => 0
  ((s.set (AUD.CALL_STAT.STATE i) st).evtBit AUD.CALL_EVT.STATE i Src.AUD_CALL).notify Note.call ([i] ++ leBytes 4 id ++ [st])

/-- The ring input that carries a stream. -/
def AudSt.ringInputOf (a : AudSt) (stream : Nat) : Option Nat := (a.ringTable.find? (fun e => e.2 == stream)).map (·.1)

/-- Move the crosspoints of a call's sinks from one source to another, with a 48-tick cross-fade (R269). -/
def State.moveFar (s : State) (c : CallSt) (fromSrc toSrc : Nat) : State :=
  let gone := s.aud.xps.map (fun x => if x.src == fromSrc && c.sinks.contains x.sink then x.aim none 1 else x)
  let had := s.aud.xps.filter (fun x => x.src == fromSrc && c.sinks.contains x.sink)
  let new := had.map (fun x => (Xpoint.aim { x with src := toSrc, applied := none } x.target 1))
  { s with aud := { s.aud with xps := gone ++ new } }

/-- The receive index of a call's G.726 decoder: the two fallback channels take the last two receive indexes. -/
def fallbackSrc (ch : Nat) : Nat := 0x3CE + ch % 2

/-- The far party is missing, fallback is allowed and the class is not IP: a channel is requested (R267, R268). -/
def State.callWait (s : State) (i : Nat) : State :=
  match s.vox.call i with
  | some c =>
    if s.callState i == CallState.ring && c.fallback && c.cls != .ip then
      (s.callTo i CallState.wait).evtBit AUD.CALL_EVT.FB_WAIT i Src.AUD_CALL
    else s
  | none => s

/-- The source and the send sink of a fallback channel's encoder (R269): the microphone path, or the echo canceller's
output; the two channels take the last two transmit indexes. -/
def CallSt.talk (c : CallSt) : Nat := match c.aec with | some e => 0x400 + e | none => c.mic
def fallbackSink (ch : Nat) : Nat := 0x34E + ch % 2

/-- Feed the encoder's sink, or take the feed away again, with a 48-tick fade (R269). -/
def State.feedEncoder (s : State) (c : CallSt) (ch : Nat) (on : Bool) : State :=
  let mine (x : Xpoint) : Bool := x.src == c.talk && x.sink == fallbackSink ch
  let rest := s.aud.xps.filter (fun (x : Xpoint) => !mine x)
  let had := (s.aud.xps.find? mine).getD ⟨c.talk, fallbackSink ch, none, none, 0, 0⟩
  { s with aud := { s.aud with xps := rest ++ [had.aim (if on then some 0 else none) 1] } }

/-- CALL_RING_RETURN (R267): the far stream fresh for 48 ticks in FB_WAIT withdraws the request. -/
def execCallRingReturn (i : Fin 8) (s : State) : Host.Outcome State Fault Refusal :=
  .next (if s.callState i.val == CallState.wait then s.callTo i.val CallState.ring else s)

/-- A channel is granted to a waiting call (R267, R269, R270): the call moves to the CAN path; in class PEI the non-cab
side holds the floor, in class CAB no side does yet (R472). -/
def State.callToCan (s : State) (i ch : Nat) : State :=
  match s.vox.call i with
  | some c =>
    if s.callState i == CallState.wait then
      let s := (s.callTo i CallState.can).evtBit AUD.CALL_EVT.FB i Src.AUD_CALL
      let s := (s.set (AUD.CALL_STAT.CAN_CH i) (ch % 2)).setFlag (AUD.CALL_STAT.FLOOR i) (decide (c.cls = .pei) && !c.isCab)
      let s := s.feedEncoder c ch true
      match s.aud.ringInputOf c.far with
      | some r => s.moveFar c r (fallbackSrc ch)
      | none => s
    else s
  | none => s

/-- CALL_CAN_RETURN (R267, R269): the far stream fresh for 1 s in CAN_PATH: back to the ring, the channel released. -/
def execCallCanReturn (i : Fin 8) (s : State) : Host.Outcome State Fault Refusal :=
  .next (match s.vox.call i.val with
    | some c =>
      if s.callState i.val == CallState.can then
        let ch := s.get (AUD.CALL_STAT.CAN_CH i)
        let s := (s.callTo i.val CallState.ring).evtBit AUD.CALL_EVT.FB i.val Src.AUD_CALL
        let s := (s.setFlag (AUD.CALL_STAT.FLOOR i) false).feedEncoder c ch false
        match s.aud.ringInputOf c.far with
        | some r => s.moveFar c (fallbackSrc ch) r
        | none => s
      else s
    | none => s)

/-! ## Noise following (R274 to R276) -/

/-- Move a gain towards a goal by at most `up` or `down`. -/
def approach (x goal up down : Int) : Int := if x < goal then min goal (x + up) else max goal (x - down)

/-- NOISE_FRAME_END (R274 to R276): `level` is the frame's noise level in 0.1 dB SPL where it counts as noise. A 10 ms
frame moves the gain by at most 0.01 dB upward and 0.02 dB downward. -/
def execNoiseFrameEnd (z : Fin 16) (level : Option Nat) (s : State) : Host.Outcome State Fault Refusal :=
  .next (match s.vox.nf[z.val]? with
    | none => s
    | some x =>
      if !x.enabled then s
      else
        let now := s.decik.upTicks
        let frames : List (Nat × Nat) := x.frames.filter (fun (f : Nat × Nat) => decide (now < f.1 + 30 * 48000))
        let frames := match level with | some v => frames ++ [(now, v)] | none => frames
        let falling := x.falling && level.isNone
        let n : Nat := if frames.isEmpty then s.get (AUD.NF_GAIN.NOISE z) else min (Config.energyMean (frames.map (·.2))) 4095
        let busy := s.flag (AUD.ZONE_STAT.ACTIVE z) && decide (3 ≤ s.get (AUD.ZONE_STAT.WIN_PRIO z))
        let few := decide (frames.length < 100)
        let goal : Int := max (-600) (min 1200 ((x.slope : Int) * ((n : Int) - 10 * x.nref)))
        let gain := if busy then x.gain
          else if falling then approach x.gain x.fallback 1 1
          else if few then x.gain
          else approach x.gain goal 1 2
        let s := ((s.set (AUD.NF_GAIN.NOISE z) n).setFlag (AUD.NF_GAIN.HELD z) (busy || (few && !falling))).setFlag
          (AUD.NF_GAIN.FALLBACK z) falling
        let s := s.set (AUD.NF_GAIN.GAIN z) (ofSigned 16 (gain / 10))
        let s := s.setZone z.val { s.aud.zone z.val with nf := gain / 10 }
        { s with vox := { s.vox with nf := s.vox.nf.set z.val { x with frames := frames, gain := gain, falling := falling } } })

/-- NF_FALLBACK (R276): no noise frame for 300 s: the gain moves to the fallback gain. -/
def execNfFallback (z : Fin 16) (s : State) : Host.Outcome State Fault Refusal :=
  .next (match s.vox.nf[z.val]? with
    | some x =>
      if x.enabled then
        let s := (s.setFlag (AUD.NF_GAIN.FALLBACK z) true).setFlag (AUD.NF_GAIN.HELD z) false
        { s with vox := { s.vox with nf := s.vox.nf.set z.val { x with falling := true } } }
      else s
    | none => s)

/-! ## Path monitoring (R277 to R279) -/

/-- Verdicts of AUD.PMON_STATz. -/
abbrev Verdict.unknown : Nat := 0
abbrev Verdict.ok : Nat := 1
abbrev Verdict.degraded : Nat := 2
abbrev Verdict.notCommissioned : Nat := 3

/-- Change a zone's verdict (R279). -/
def State.verdictTo (s : State) (z v : Nat) : State :=
  let old := s.get (AUD.PMON_STAT.VERDICT z)
  let s := (s.set (AUD.PMON_STAT.VERDICT z) v).putBit AUD.PMON_MAP.DEGRADED z (v == Verdict.degraded)
  if v == Verdict.degraded && old != v then
    (s.evtBit AUD.PMON_EVT.DEGRADE z Src.AUD_PATH_MON).post Evt.PATH_DEGRADED z (leBytes 2 (s.get (AUD.PMON_GAIN.REL_GAIN z)))
  else if v == Verdict.ok && old == Verdict.degraded then s.evtBit AUD.PMON_EVT.RECOVER z Src.AUD_PATH_MON
  else s

/-- The windows of a zone's microphones that count towards a commissioning: 20 of each. -/
def pmonTake (c : List (Nat × Nat × Nat × Int)) (rs : List (Nat × Nat × Int)) : List (Nat × Nat × Nat × Int) :=
  c.map (fun (x : Nat × Nat × Nat × Int) => match rs.find? (fun (r : Nat × Nat × Int) => r.1 == x.1) with
    | some r => if x.2.1 = 0 then x else (x.1, x.2.1 - 1, x.2.2.1 + r.2.1, x.2.2.2 + r.2.2)
    | none => x)

/-- The commissioning has its windows: the means are the reference (R278). -/
def State.pmonDone (s : State) (z : Nat) (x : PmonSt) (c : List (Nat × Nat × Nat × Int)) : State :=
  let refs := c.map (fun (m : Nat × Nat × Nat × Int) => (m.1, m.2.2.1 / 20, ratio m.2.2.2 20))
  let s := { s with vox := { s.vox with pmon := s.vox.pmon.set z { x with refs := refs, commission := none, low := 0, high := 0 } } }
  let s := s.finishAll (fun p => p == .pmon z) Status.ok
    (refs.flatMap (fun (r : Nat × Nat × Int) => leBytes 2 r.2.1 ++ leBytes 2 (ofSigned 16 r.2.2)))
  s.verdictTo z Verdict.unknown

/-- The relative gains of a window's microphones, and the delay of each (R277). -/
def PmonSt.rel (x : PmonSt) (rs : List (Nat × Nat × Int)) : List (Int × Nat) :=
  rs.filterMap (fun (r : Nat × Nat × Int) => (x.refs.find? (fun (e : Nat × Nat × Int) => e.1 == r.1)).map
    (fun (e : Nat × Nat × Int) => (r.2.2 - e.2.2, r.2.1)))

/-- PMON_WINDOW_END (R277 to R279): the valid windows of the zone's microphones report delay and energy in 0.1 dB; of two
relative gains the higher counts; five windows in a row at −10.0 dB or lower, or at −7.0 dB or higher, change the verdict; a
commissioning takes the means of 20. A window during a STIPA run of the zone is not valid (R294). -/
def execPmonWindowEnd (z : Fin 16) (windows : List (Nat × Nat × Int)) (s : State) : Host.Outcome State Fault Refusal :=
  .next (match s.vox.pmon[z.val]? with
    | none => s
    | some x =>
      let measuring := match s.vox.stipa with | some r => r.zone == z.val | none => false
      let ws := windows.filter (fun w => s.cfg.image.pmonMics.contains (z.val, w.1))
      if ws.isEmpty || measuring then s
      else
        let s := (s.count (AUD.PMON_STAT.WINDOWS z) 1).set (AUD.PMON_STAT.AGE_H z) 0
        match x.commission with
        | some c =>
          let c := pmonTake c ws
          if c.all (fun m => m.2.1 == 0) then s.pmonDone z.val x c
          else { s with vox := { s.vox with pmon := s.vox.pmon.set z.val { x with commission := some c } } }
        | none =>
          match x.rel ws with
          | [] => s
          | g :: gs =>
            let best := gs.foldl (fun (b e : Int × Nat) => if b.1 < e.1 then e else b) g
            let rel := best.1
            let s := (s.set (AUD.PMON_GAIN.DELAY z) (min best.2 0xFFFF)).set (AUD.PMON_GAIN.REL_GAIN z) (ofSigned 16 (satSigned 16 rel))
            let low := if rel ≤ -100 then x.low + 1 else 0
            let high := if -70 ≤ rel then x.high + 1 else 0
            let s := { s with vox := { s.vox with pmon := s.vox.pmon.set z.val { x with low := low, high := high } } }
            let v := s.get (AUD.PMON_STAT.VERDICT z)
            if 5 ≤ low && (v == Verdict.unknown || v == Verdict.ok) then s.verdictTo z.val Verdict.degraded
            else if 5 ≤ high && (v == Verdict.unknown || v == Verdict.degraded) then s.verdictTo z.val Verdict.ok
            else s)

/-- PMON_AGE_OUT (R279): no valid window for 24 h: OK or DEGRADED returns to UNKNOWN. -/
def execPmonAgeOut (z : Fin 16) (s : State) : Host.Outcome State Fault Refusal :=
  let v := s.get (AUD.PMON_STAT.VERDICT z)
  .next (if v == Verdict.ok || v == Verdict.degraded then
      { s.verdictTo z.val Verdict.unknown with
        vox := { s.vox with pmon := s.vox.pmon.modify z.val (fun x => { x with low := 0, high := 0 }) } }
    else s)

/-! ## The clip library and playback (R282 to R287) -/

/-- The VERIFIED clip of an identifier, the newest version (R283). -/
def VoxSt.clip (v : VoxSt) (id : Nat) : Option Clip :=
  (v.clips.filter (fun c => c.id == id && c.state == 1)).getLast?

/-- A voice by index. -/
def VoxSt.voice (v : VoxSt) (i : Nat) : Option Voice := v.voices.find? (fun x => x.ix == i)

/-- Is a clip version played or waited for by a voice? -/
def VoxSt.inUse (v : VoxSt) (id ver : Nat) : Bool := v.voices.any (fun x => x.clips.any (fun c => c == (id, ver)))

/-- Old versions and deleted clips that no voice plays leave the library (R283). -/
def State.clipSweep (s : State) : State :=
  { s with vox := { s.vox with clips := s.vox.clips.filter (fun c => !c.deleting || s.vox.inUse c.id c.version) } }

/-- CLIP_DELETE_COMPLETE (R283): the last voice playing the clip has ended, and the pending delete completes. -/
def execClipDeleteComplete (id : Nat) (s : State) : Host.Outcome State Fault Refusal :=
  .next (if s.vox.clips.any (fun c => c.id == id && c.deleting && !s.vox.inUse c.id c.version) then
      let s := { s with vox := { s.vox with
        clips := s.vox.clips.filter (fun c => !(c.id == id && c.deleting && !s.vox.inUse c.id c.version)) } }
      s.finishAll (fun p => match p with | .clipDelete i _ => i == id | _ => false) Status.ok []
    else s)

/-- The ticks that a clip plays at 48 kHz (R230, R285): its samples by the ratio of its rate, a part of a tick counted whole. -/
def Clip.ticks (c : Clip) : Nat :=
  match c.rate with
  | 0 => c.length * 6
  | 1 => c.length * 3
  | 2 => (c.length * 3 + 1) / 2
  | 3 => (c.length * 160 + 146) / 147
  | _ => c.length

/-- The group delay of a clip's converter, in ticks (R230). -/
def Clip.delay (c : Clip) : Nat := match c.rate with | 0 => 48 | 1 => 24 | 2 => 12 | 3 => 16 | _ => 0

/-- The DSP cycles of a clip's conversion (R230). -/
def Clip.convCost (c : Clip) : Nat := match c.rate with | 0 => 60 | 1 => 70 | 2 => 90 | 3 => 120 | _ => 0

/-- The lengths of a voice's clips, in queue order. -/
def VoxSt.queueTicks (v : VoxSt) (x : Voice) : List Nat :=
  x.clips.map (fun (c : Nat × Nat) => match v.clips.find? (fun (e : Clip) => e.id == c.1 && e.version == c.2) with
    | some e => e.ticks | none => 0)

/-- Which clip of a queue an offset falls in, and the offset in it. -/
def queueAt : List Nat → Nat → Nat × Nat
  | [], o => (0, o)
  | l :: rest, o => if o < l then (0, o) else let r := queueAt rest (o - l); (r.1 + 1, r.2)

/-- Where a voice reads in tick `n` (R285): queue index, offset in the clip, loops done; none past the last loop. -/
def VoxSt.readAt (v : VoxSt) (x : Voice) (n : Nat) : Option (Nat × Nat × Nat) :=
  let ls := v.queueTicks x
  let total := ls.foldl (· + ·) 0
  let o := n - x.start
  if total = 0 || (x.loops != 0 && decide (x.loops * total ≤ o)) then none
  else
    let r := queueAt ls (o % total)
    some (r.1, r.2, o / total)

/-- The sample that a voice produces in tick `n`: a stop fades over its time (R285, R287). -/
def VoxSt.voiceValue (v : VoxSt) (x : Voice) (n : Nat) : Int :=
  let y := match v.readAt x n with
    | some (i, o, _) => let c := x.clips.getD i (0, 0); sat24 (Config.voiceSample c.1 c.2 x.gain o)
    | none => 0
  match x.stopAt with
  | some (t, fade) => if n < t then y else if fade ≤ n - t then 0 else ratio (y * (fade - (n - t) : Nat)) fade
  | none => y

/-- VOICE_START_TICK (R285): the voice produces its first sample at its start tick. -/
def execVoiceStartTick (v : Fin 32) (s : State) : Host.Outcome State Fault Refusal :=
  .next (match s.vox.voice v.val with
    | some x =>
      if x.playing then s
      else
        let vs := s.vox.voices.map (fun (y : Voice) => if y.ix == v.val then { y with playing := true } else y)
        let s := { s with vox := { s.vox with voices := vs } }
        let s := s.set (AUD.PLAY_START.TSEQ v) (x.start % 2 ^ 32)
        s.deliver (srcVoice + v.val) x.start (.fresh (s.vox.voiceValue x x.start) 0)
    | none => s)

/-- A voice leaves: 0 ended, 1 stopped (END), or 2 by a fault, 3 cancelled by a merge (ERR) (R287, R294, R366). -/
def State.voiceGone (s : State) (v cause : Nat) : State :=
  match s.vox.voice v with
  | some x =>
    let s := { s with
      vox := { s.vox with voices := s.vox.voices.filter (fun y => y.ix != v) }
      jobs := s.jobs.filter (fun (j : Job) => j.owner != 0x0504 * 65536 + v) }
    let s := s.putBit AUD.PLAY_RUN.RUN v false
    let s := if 2 ≤ cause then s.evtBit AUD.PLAY_ERR.ERR v Src.AUD_PLAYBACK else s.evtBit AUD.PLAY_EVT.END v Src.AUD_PLAYBACK
    let clip := match x.clips with | c :: _ => c.1 | [] => 0
    s.notify Note.playback ([v] ++ leBytes 4 clip ++ [cause])
  | none => s

/-- VOICE_END (R287). -/
def execVoiceEnd (v : Fin 32) (fault : Bool) (s : State) : Host.Outcome State Fault Refusal :=
  .next (match s.vox.voice v.val with
    | some x => (s.voiceGone v.val (if fault then 2 else if x.stopAt.isSome then 1 else 0)).clipSweep
    | none => s)

/-- One tick of every playing voice (R285): its read position is tick − s. -/
def State.voiceTick (s : State) (n : Nat) : State :=
  s.vox.voices.foldl (fun (s : State) (x : Voice) =>
    if x.playing && x.start ≤ n then
      (if s.sinkOverran (srcVoice + x.ix) then s.deliverRepeat (srcVoice + x.ix) n
       else s.deliver (srcVoice + x.ix) n (.fresh (s.vox.voiceValue x n) 0))
    else s) s

/-- Pending starts and stops at or after MERGE_TSEQ are cancelled at a merge (R294). -/
def State.voiceMerge (s : State) (mergeTick : Nat) : State :=
  let waiting := s.vox.voices.filter (fun x => !x.playing && decide (mergeTick ≤ x.start))
  let s := waiting.foldl (fun (s : State) (x : Voice) => s.voiceGone x.ix 3) s
  { s with vox := { s.vox with voices := s.vox.voices.map (fun x =>
      match x.stopAt with | some (t, _) => if mergeTick ≤ t then { x with stopAt := none } else x | none => x) } }

/-! ## The call recorder (R288 to R292) -/

/-- Units of the recorder region. -/
abbrev recUnits : Nat := 450000
/-- Does a channel record now: mode ALWAYS, or an open call that names it (R288)? -/
def State.recActive (s : State) (c : Nat) : Bool :=
  s.vox.recAlways.getD c false || s.vox.calls.any (fun x => x.recs.contains c && s.callState x.ix != CallState.closed)

/-- AUD.REC_STAT.ACTIVE follows the calls and the modes; the recorder does not run while tamper is latched (R581). -/
def State.recShow (s : State) : State :=
  let m := (List.range 16).foldl (fun m c => if s.recActive c then setBit m c else m) 0
  (s.set AUD.REC_STAT.ACTIVE m).setFlag AUD.REC_STAT.RUN (m != 0 && !s.flag SEC.STAT.TAMPER)

/-- The next unit to write: from the head on, the first that is not locked (R291). -/
def State.recNext (s : State) : Option Nat :=
  let h := s.get AUD.REC_HEAD.UNIT
  let locked (u : Nat) : Bool := s.vox.recUnits.any (fun r => r.unit == u && r.locked)
  let n := (s.vox.recUnits.filter (fun r => r.locked)).length
  (List.range (n + 1)).map (fun k => (h + k) % recUnits) |>.find? (fun u => !locked u)

/-- REC_UNIT_COMPLETE (R288 to R291): a channel's unit of 2,048 samples is encrypted under STORE_XTS where ENC is set, and
written to the recorder region with its index entry. `tick` is the capture tick of its first sample. -/
def execRecUnitComplete (channel : Fin 16) (tick stale overrun inactive : Nat) (data : List Nat) (s : State) :
    Host.Outcome State Fault Refusal :=
  .next (if !s.recActive channel.val || s.flag SEC.STAT.TAMPER then s
    else match s.recNext with
      | none => s.evt AUD.REC_EVT.OVERRUN 1 Src.AUD_RECORDER
      | some u =>
        let call := match s.vox.calls.find? (fun x => x.recs.contains channel.val) with | some x => x.id | none => 0
        let key := match s.engines[(1 : Fin 4)].cur with | some k => k | none => 0
        let enc := s.flag AUD.REC_STAT.ENC
        let bytes := (data ++ List.replicate 4096 0).take 4096
        let bytes := if enc then (Config.xts key u bytes).take 4096 else bytes
        let s := s.putBytes (s.regionAt 5 (4096 * u)) bytes
        let entry : RecUnit := ⟨u, channel.val, call, tick, stale, overrun, inactive, if enc then s.get (SEC.ENG.CUR_VER 1) else 0, false, false⟩
        let s := { s with vox := { s.vox with recUnits := s.vox.recUnits.filter (fun (r : RecUnit) => r.unit != u) ++ [entry] } }
        let s := (s.set AUD.REC_HEAD.UNIT ((u + 1) % recUnits)).recCounts
        if stale != 0 || overrun != 0 then s.count AUD.REC_CNT.STALE_UNITS 1 else s)

/-! ## STIPA (R280, R281) -/

/-- STIPA states of AUD.STIPA_STAT. -/
abbrev Stipa.idle : Nat := 0
abbrev Stipa.noise : Nat := 1
abbrev Stipa.signal : Nat := 2
abbrev Stipa.done : Nat := 3
abbrev Stipa.interrupted : Nat := 4
abbrev Stipa.fault : Nat := 5

/-- The response data of a completed run (R281, R405). -/
def State.stipaData (s : State) (ti : List Nat) (signal noise : Nat) : List Nat :=
  [s.get AUD.STIPA_RESULT.STI, s.get AUD.STIPA_STAT.STATE, b2n (s.flag AUD.STIPA_RESULT.LOW_SNR), 0] ++
  (ti ++ List.replicate 7 0).take 7 ++ [0] ++ leBytes 2 signal ++ leBytes 2 noise

/-- Start a voice: it waits for its tick (R285). -/
def State.voiceStart (s : State) (x : Voice) : State :=
  State.putBit { s with vox := { s.vox with voices := s.vox.voices ++ [x] } } AUD.PLAY_RUN.RUN x.ix true

/-- The tick in the numbering of the samples: the tick number n of node time (R162, R176). -/
def State.audTick (s : State) : Nat := s.clk.n

/-- The signal phase of a run begins: a named voice plays its clip over and over (R280). -/
def State.stipaSignal (s : State) (r : StipaSt) : State :=
  let s := (s.set AUD.STIPA_STAT.STATE Stipa.signal).set AUD.STIPA_STAT.ELAPSED 0
  let s := { s with vox := { s.vox with stipa := some { r with since := s.decik.upTicks } } }
  match r.voice with
  | some v => s.voiceStart ⟨v, [r.clip], 0, 0, s.audTick + 1, false, none⟩
  | none => s

/-- The run ends in a state; its voice and its job end, and its request completes. -/
def State.stipaEnd (s : State) (f : Nat) (ok : Bool) (data : List Nat) : State :=
  let s := (s.set AUD.STIPA_STAT.STATE f).setFlag AUD.STIPA_RESULT.VALID ok
  let s := match s.vox.stipa with
    | some r => (match r.voice with | some v => s.voiceGone v 1 | none => s)
    | none => s
  let s := { s with
    vox := { s.vox with stipa := none }
    jobs := s.jobs.filter (fun (j : Job) => j.owner != 0x0607 * 65536) }
  s.finishAll (fun p => p == .stipa) (if ok then Status.ok else Status.aborted) data

/-- STIPA_PHASE_END (R280, R281): the noise phase is followed by the signal phase; the signal phase completes the run with
its index; a higher candidate interrupts it, a stuck or inactive microphone is a fault. -/
def execStipaPhaseEnd (sti : Nat) (lowSnr interrupted micFault : Bool) (ti : List Nat) (signal noise : Nat) (s : State) :
    Host.Outcome State Fault Refusal :=
  .next (match s.vox.stipa with
    | none => s
    | some r =>
      let st := s.get AUD.STIPA_STAT.STATE
      if micFault then s.stipaEnd Stipa.fault false []
      else if interrupted then s.stipaEnd Stipa.interrupted false []
      else if st == Stipa.noise then s.stipaSignal r
      else if st == Stipa.signal then
        let s := (s.set AUD.STIPA_RESULT.STI (min sti 100)).setFlag AUD.STIPA_RESULT.LOW_SNR lowSnr
        let s := s.set AUD.STIPA_STAT.STATE Stipa.done
        s.stipaEnd Stipa.done true (s.stipaData ti signal noise)
      else s)

end Sys2Proof.Machine
end

