-- ==== Sys2Proof/Machine/Can.lean ====
section
/-! DEFINITION. Trainline CAN FD (chapter 14, R451 to R479). -/

namespace Sys2Proof.Machine

/-! ## Rates and frame durations (R451, R453) -/

/-- A nominal and a data bit in ns. -/
def canNomNs (nom : Nat) : Nat := [16000, 8000, 4000, 2000].getD nom 16000
def canDataNs (nom data : Nat) : Nat := if data = 1 then 1000 else if data = 2 then 500 else canNomNs nom

/-- Worst-case duration in ns of a frame of `b` data bytes (R453). -/
def canDuration (nom data : Nat) (fd brs ext : Bool) (b : Nat) : Nat :=
  let fn := canNomNs nom
  if fd then
    let fdNs := if brs then canDataNs nom data else fn
    let c := if b ≤ 16 then 17 + 6 else 21 + 7
    (if ext then 57 else 34) * fn + (5 + 8 * b + (4 + 8 * b) / 4 + 4 + c) * fdNs
  else (if ext then 67 + 8 * b + (53 + 8 * b) / 4 else 47 + 8 * b + (33 + 8 * b) / 4) * fn

/-- The duration at the rates in force. -/
def State.canDur (s : State) (fd brs ext : Bool) (b : Nat) : Nat :=
  canDuration (s.get CAN.CFG.NOM) (s.get CAN.CFG.DATA) fd brs ext b

/-- The guard and the window tolerance in ns (R463, R467). -/
def State.canGuard (s : State) : Nat := s.get CAN.CFG.GUARD * canNomNs (s.get CAN.CFG.NOM)
def State.canTol (s : State) : Nat := s.get CAN.CFG.WIN_TOL * canNomNs (s.get CAN.CFG.NOM)

/-- Bytes of a DLC, and the smallest DLC that holds `n` bytes. -/
def dlcBytes (fd : Bool) (dlc : Nat) : Nat :=
  if dlc ≤ 8 then dlc else if fd then [12, 16, 20, 24, 32, 48, 64].getD (dlc - 9) 64 else 8
def dlcFor (n : Nat) : Nat := if n ≤ 8 then n else 9 + ([12, 16, 20, 24, 32, 48].filter (fun x => decide (x < n))).length

/-! ## Events and state of the controller (R459) -/

/-- Set an event bit of CAN.EVT that raises CAN_ERR. -/
def State.canErr (s : State) (f : Fld) : State := s.evt f 1 Src.CAN_ERR

/-- Is the controller on the bus, and may it send? -/
def State.canOn (s : State) : Bool := s.domOn Dom.can && s.flag CAN.CFG.EN && decide (s.get CAN.STAT.ERR_STATE < 2)
def State.canSends (s : State) : Bool := s.canOn && !s.flag CAN.STAT.LISTEN

abbrev Tsrc.none : Nat := 0
abbrev Tsrc.reference : Nat := 1
abbrev Tsrc.ring : Nat := 2

def State.tsrc (s : State) : Nat := s.get CAN.STAT.TSRC

/-- The source of CAN time follows the sync state and reference lock (R460). -/
def State.canTsrc (s : State) : State :=
  let t := if s.inSync then Tsrc.ring else if s.can.refLock then Tsrc.reference else Tsrc.none
  if t = s.tsrc then s else (s.set CAN.STAT.TSRC t).canErr CAN.EVT.TSRC_CHG

/-- CAN time in thirds of a ns at the last tick boundary (R460). -/
def State.canThirds (s : State) : Int := (s.can.cycle : Int) * 30000000 + ((s.clk.thirds : Int) - s.can.start)

/-- Channel of the fallback voice. -/
def State.chan (s : State) (c : Nat) : CanChan := s.can.chans.getD c ⟨3, none, 0, 0, 0, [], 0, none, [], false⟩
def State.setChan (s : State) (c : Nat) (x : CanChan) : State := { s with can := { s.can with chans := s.can.chans.set c x } }

/-! ## The schedule (R462, R465, R466) -/

/-- The windows in force, as far as NWIN shows them. -/
def State.canWin (s : State) (x : Nat) : Option CanWin := s.can.sched[x]?

/-- Show a schedule in the WINx registers. -/
def State.showSched (s : State) : State :=
  let s := s.set CAN.SCHED.NWIN s.can.sched.length
  (List.range 64).foldl (fun (s : State) (x : Nat) =>
    let w := s.can.sched.getD x ⟨0, 0, false, 0⟩
    let s := (s.set (CAN.WIN_T.START_US x) w.start).set (CAN.WIN_T.LEN_US x) w.len
    (s.setFlag (CAN.WIN_O.TYPE x) w.arb).set (CAN.WIN_O.OWNER x) w.owner) s

/-- Bytes of the frame that an exclusive window carries, and how many of them it must hold (R466). -/
def CanWin.needs (w : CanWin) : Nat × Nat :=
  if w.owner = 0 then (24, 2) else if w.owner = 0xF0 || w.owner = 0xF1 then (64, 1) else (24, 1)

/-- Do the windows tile the cycle: no overlap, no gap, none beyond 10,000 us? -/
def tiles : Nat → List CanWin → Bool
  | at_, [] => at_ == 10000
  | at_, w :: t => w.start == at_ && decide (0 < w.len) && tiles (at_ + w.len) t

/-- Does a schedule pass R466 at a rate pair and guard? -/
def schedValid (nom data guardNs : Nat) (l : List CanWin) : Bool :=
  let excl (o : Nat) := (l.filter (fun w => !w.arb && w.owner == o)).length
  tiles 0 l && decide (1 ≤ excl 0) && decide (excl 0xF0 ≤ 1) && decide (excl 0xF1 ≤ 1) &&
  l.all (fun w => w.arb || decide (w.needs.2 * canDuration nom data true true false w.needs.1 + guardNs ≤ 1000 * w.len))

/-- The positions that own the window in cycle `c`: rotating windows go round the 32 positions (R462). -/
def State.rotOwner (s : State) (w : CanWin) (c : Nat) : Nat :=
  let k := (s.can.sched.filter (fun v => !v.arb && decide (0x40 ≤ v.owner) && decide (v.owner < 0x80))).length
  1 + (c * k + (w.owner - 0x40)) % 32

/-- A rotating heartbeat window? -/
def CanWin.rotating (w : CanWin) : Bool := !w.arb && decide (0x40 ≤ w.owner) && decide (w.owner < 0x80)

/-- Set a schedule that takes effect at the first cycle start at or after tick number `n` (R466). -/
def State.schedSet (s : State) (l : List CanWin) (n : Nat) : State := { s with can := { s.can with nextSched := some (l, n) } }

/-! ## Identifiers (R454) -/

def State.idBase (s : State) : Nat := s.get CAN.ID_BASE.BASE * 0x80

/-- Does an identifier belong to the node's own range? -/
def State.ownId (s : State) (id : Nat) (ext : Bool) : Bool := !ext && decide (s.idBase ≤ id) && decide (id < s.idBase + 0x80)

/-- May a frame with this identifier use the window: the exclusive one that the identifier table assigns it to, or an
arbitrating one (R463)? `c` is the cycle. -/
def State.winFor (s : State) (id : Nat) (ext : Bool) (c : Nat) (w : CanWin) : Bool :=
  let o := id - s.idBase
  if s.ownId id ext then
    if o ≤ 0x0E then !w.arb && w.owner == 0
    else if decide (0x10 ≤ o) && decide (o < 0x20) then !w.arb && w.owner == 0xF0 + (o - 0x10) / 8
    else if 0x40 ≤ o then w.rotating && s.rotOwner w c == 1 + (o - 0x40) / 2
    else w.arb
  else w.arb

/-! ## Heartbeats, ring-hold, claims and floor: the frames (R469 to R472) -/

/-- The heartbeat of this node: SOF in us after its cycle start. -/
def State.heartbeat (s : State) (master : Bool) (sofUs : Nat) : List Nat :=
  let b0 := (if master then 1 else 2) + (if s.inSync then 4 else 0) + (if s.get RING.INAUG_CFG.RANK != 0 then 8 else 0) +
    (if s.twinOn && s.twinState == 2 then 16 else 0) + (if s.twinOn && s.flag RED.TWIN_CFG.HOT then 32 else 0)
  [b0, s.position] ++ leBytes 8 s.uid.toNat ++ leBytes 2 s.ring.followEpoch ++ leBytes 2 (s.get RING.ENG_STAT.TOPO) ++
  leBytes 2 s.tickSeq ++
  leBytes 4 (if master then Nat.lor (s.get RED.REACH_A.MAP) (s.get RED.REACH_B.MAP) else 0) ++
  leBytes 2 sofUs ++ leBytes 2 s.can.cycle

/-- Put one of Decik's frames in its object: a newer one takes the place of one that waits. -/
def State.canQueue (s : State) (obj id : Nat) (data : List Nat) : State :=
  let own := s.can.own.filter (fun (f : CanOwn) => f.obj != obj) ++ [⟨obj, s.idBase + id, data⟩]
  { s with can := { s.can with own := own } }.setFlag (CAN.OBJ_STAT.TX_PEND obj) true

/-- Take a frame out of its object. -/
def State.canUnqueue (s : State) (obj : Nat) : State :=
  let own := s.can.own.filter (fun (f : CanOwn) => f.obj != obj)
  { s with can := { s.can with own := own } }.setFlag (CAN.OBJ_STAT.TX_PEND obj) false

/-- Does this node send claims, floor and voice (R474)? -/
def State.canVoiceOut (s : State) : Bool := s.drivesOutputs

/-- The call of this node on a channel. -/
def State.chanCall (s : State) (c : Nat) : Option CallSt :=
  s.vox.calls.find? (fun (x : CallSt) => s.callState x.ix == CallState.can && s.get (AUD.CALL_STAT.CAN_CH x.ix) == c)

/-- Does the node believe the channel free (R472)? -/
def State.chanFree (s : State) (c : Nat) : Bool := decide (3 ≤ (s.chan c).silent)

/-- The channel's byte of VOICE_STAT. -/
def State.showChan (s : State) (c : Nat) : State :=
  let x := s.chan c
  let v := (if s.chanFree c then 0 else 0x80) + (if (s.chanCall c).isSome then 0x40 else 0) +
    (if (s.chanCall c).isSome && x.holder == s.uid then 0x20 else 0)
  s.set (if c = 0 then CAN.VOICE_STAT.CH0 else CAN.VOICE_STAT.CH1) v

/-- A claim, floor or voice frame of a channel was received or sent. -/
def State.chanHeard (s : State) (c : Nat) : State := (s.setChan c { s.chan c with silent := 0 }).showChan c

/-- The grant of a channel to a call of this node that waits (R472): PEI's non-cab side holds the floor. -/
def State.chanGrant (s : State) (i c : Nat) : State :=
  match s.vox.call i with
  | none => s
  | some x =>
    if s.callState i != CallState.wait then s
    else
      let s := s.callToCan i c
      let mine := decide (x.cls = .pei) && !x.isCab
      let open_ := match s.aud.streams.find? (fun (o : StreamSt) => o.ix == x.own) with | some o => s.gateOpen o | none => false
      let s := s.setChan c { s.chan c with
        call := some x.id, far := 0, named := if mine then s.uid else 0, holder := if mine then s.uid else 0,
        enc := [], ready := none, blocks := [], gate := if mine then open_ else false }
      let s := (s.canUnqueue (3 + c)).showChan c
      s.evt CAN.EVT.VOICE 1 Src.CAN_VOICE

/-- A claim appears on the bus (R472): a call of its CALL_ID that waits is granted the channel; one that does not wait yet may
use the claim for 3 cycles. -/
def State.claimSeen (s : State) (callId c : Nat) : State :=
  let s := s.chanHeard c
  let s := { s with can := { s.can with
    claims := s.can.claims.filter (fun (e : Nat × Nat × Nat) => e.1 != callId) ++ [(callId, c, 0)] } }
  (s.vox.calls.filter (fun (x : CallSt) => x.id == callId)).foldl (fun (s : State) (x : CallSt) => s.chanGrant x.ix c) s

/-- CALL_FB_WAIT (R267, R472): a claim for the call heard at most 3 cycles ago grants it at once. -/
def execCallFbWait (i : Fin 8) (s : State) : Host.Outcome State Fault Refusal :=
  let s := s.callWait i
  .next (match s.vox.call i with
    | none => s
    | some x =>
      match s.can.claims.find? (fun (e : Nat × Nat × Nat) => e.1 == x.id && decide (e.2.2 ≤ 3)) with
      | some e => s.chanGrant i e.2.1
      | none => s)

/-- A floor frame appears on the bus (R472): it names the holder, who owns the voice window from the next cycle start. -/
def State.floorSeen (s : State) (callId c : Nat) (holder : DWord) : State :=
  let s := s.chanHeard c
  let x := s.chan c
  if x.call != some callId then s
  else
    let far := if holder != s.uid then holder else x.far
    (s.setChan c { x with named := holder, far := far }).evt CAN.EVT.VOICE 1 Src.CAN_VOICE

/-- The UID of the other side of a channel's call: named by a floor frame, or the last node heartbeat of the position whose
row carries the far stream (R472). -/
def State.farUid (s : State) (c : Nat) (x : CallSt) : DWord :=
  if (s.chan c).far != 0 then (s.chan c).far
  else match s.layout? with
    | none => 0
    | some l =>
      match l.wafers.find? (fun r => r.stream == x.far) with
      | none => 0
      | some r => match s.can.heard.find? (fun (h : Nat × DWord) => h.1 == r.pos) with | some h => h.2 | none => 0

/-- FLOOR_SEND (R472): the gate of the call's owned stream opens or, at a cab side in class PEI, closes. -/
def State.floorTick (s : State) (c : Nat) : State :=
  match s.chanCall c with
  | none => s
  | some x =>
    let open_ := match s.aud.streams.find? (fun (o : StreamSt) => o.ix == x.own) with | some o => s.gateOpen o | none => false
    let ch := s.chan c
    if open_ = ch.gate then s
    else
      let s := s.setChan c { ch with gate := open_ }
      let holder := if open_ then some s.uid else if x.isCab && decide (x.cls = .pei) then some (s.farUid c x) else none
      match holder with
      | some u => if s.canVoiceOut then s.canQueue (5 + c) (0x22 + c) (leBytes 4 x.id ++ leBytes 8 u.toNat) else s
      | none => s

/-! ## Encoder and decoder (R269, R271, R473) -/

/-- The encoder of a channel takes a sample; a block that ends is ready 48 ticks later. -/
def State.encodeTick (s : State) (c : Nat) : State :=
  match s.chanCall c with
  | none => s
  | some _ =>
    let ch := s.chan c
    let t := s.canThirds / 62500
    let b := (t / 768).toNat
    let p := s.sinkOut (fallbackSink c)
    let v := if p.valid then p.value else 0
    if b = ch.encBlock then s.setChan c { ch with enc := ch.enc ++ [v] }
    else
      let ready := if ch.enc.isEmpty then ch.ready else some (ch.encBlock, Config.encoded 4 ch.enc, s.decik.upTicks + 48)
      s.setChan c { ch with enc := [v], encBlock := b, ready := ready }

/-- VOICE_BLOCK_PLAY (R271, R473): the block whose first sample plays 1,728 ticks after b × 16 ms; lost or late blocks are
counted and play VALID = 0. -/
def State.decodeTick (s : State) (c n : Nat) : State :=
  match s.chanCall c with
  | none => s
  | some _ =>
    let ch := s.chan c
    if ch.holder == s.uid || ch.holder == 0 then s.deliver (fallbackSrc c) n .none
    else
      let t := s.canThirds / 62500 - 1728
      let b := (t / 768).toNat
      let off := (t % 768).toNat
      match ch.blocks.find? (fun (e : Nat × List Nat) => e.1 == b) with
      | some e =>
        let s := s.setChan c { ch with blocks := ch.blocks.filter (fun (e : Nat × List Nat) => decide (b ≤ e.1)) }
        s.deliver (fallbackSrc c) n (.fresh (Config.decoded 4 e.2 [] off) 0)
      | none =>
        let s := if off = 0 then s.count CAN.VOICE_STAT.LATE 1 else s
        s.deliver (fallbackSrc c) n .none

/-- A voice frame (R473): the greatest block number not beyond the own current one with the residue. -/
def State.voiceSeen (s : State) (c r : Nat) (data : List Nat) : State :=
  let s := s.chanHeard c
  match s.chanCall c with
  | none => s
  | some _ =>
    let cur := (s.canThirds / 48000000).toNat
    let b := cur - (cur + 8 - r) % 8
    let ch := s.chan c
    if (b : Int) * 48000000 + 108000000 < s.canThirds then s.count CAN.VOICE_STAT.LATE 1
    else s.setChan c { ch with blocks := ch.blocks ++ [(b, data)] }

/-! ## Starting frames (R458, R463) -/

/-- Is a host object's frame queued? -/
def State.hostTx (s : State) (k : Nat) : Bool :=
  decide (16 ≤ k) && s.flag (CAN.OBJ_CFG.EN k) && s.flag (CAN.OBJ_CFG.DIR k) && s.flag (CAN.OBJ_STAT.TX_PEND k)

/-- Identifier, format and duration of the frame of an object. -/
def State.objFrame (s : State) (k : Nat) : Nat × Bool × Nat :=
  if k < 16 then
    match s.can.own.find? (fun (f : CanOwn) => f.obj == k) with
    | some f => (f.id, false, s.canDur true true false f.data.length)
    | none => (0, false, 0)
  else
    let fd := s.flag (CAN.OBJ_CFG.FD k)
    let ext := s.flag (CAN.OBJ_CFG.XTD k)
    (s.get (CAN.OBJ_ID.ID k), ext, s.canDur fd (s.flag (CAN.OBJ_CFG.BRS k)) ext (dlcBytes fd (s.get (CAN.OBJ_CFG.DLC k))))

/-- The order of arbitration: the lower identifier wins, a base frame before an extended one with the same first 11 bits. -/
def arbKey (id : Nat) (ext : Bool) : Nat := if ext then id * 2 + 1 else id * 2 ^ 19

/-- The objects that wait for the bus. -/
def State.txWaiting (s : State) : List Nat :=
  s.can.own.map (fun (f : CanOwn) => f.obj) ++ ((List.range 128).filter (fun k => s.hostTx k))

/-- Start the frame that wins, of those that may start now in the window in progress: SOF + D + GUARD ≤ window end. -/
def State.canStart (s : State) (nowUs : Nat) : State :=
  match s.can.win with
  | none => s
  | some x =>
    match s.canWin x with
    | none => s
    | some w =>
      let ok (k : Nat) : Bool :=
        let (id, ext, d) := s.objFrame k
        s.winFor id ext s.can.cycle w && (w.arb || !s.flag CAN.STAT.EXCL_SUSP) &&
          decide (1000 * nowUs + d + s.canGuard ≤ 1000 * (w.start + w.len))
      let best := (s.txWaiting.filter ok).foldl (fun (b : Option Nat) (k : Nat) =>
        match b with
        | none => some k
        | some j => if arbKey (s.objFrame k).1 (s.objFrame k).2.1 < arbKey (s.objFrame j).1 (s.objFrame j).2.1 then some k else b) none
      let s := { s with can := { s.can with active := if s.canSends then best else none } }
      match s.can.active with
      | some 0 => s.canQueue 0 (15 - s.get RING.INAUG_CFG.RANK) (s.heartbeat true nowUs)
      | some 1 => s.canQueue 1 (0x40 + 2 * (s.position - 1) + b2n (s.twinOn && s.twinState == 2)) (s.heartbeat false nowUs)
      | _ => s

/-- Claims of the calls that wait (R472): the lowest free channel; a call in back-off waits. -/
def State.claimSend (s : State) : State :=
  let s := [0, 1].foldl (fun (s : State) (c : Nat) => s.canUnqueue (3 + c)) s
  let waiting := s.vox.calls.filter (fun (x : CallSt) => s.callState x.ix == CallState.wait &&
    !s.can.backoff.any (fun (b : Nat × Nat) => b.1 == x.ix))
  match waiting, [0, 1].find? (fun c => s.chanFree c) with
  | x :: _, some c => if s.canVoiceOut then s.canQueue (3 + c) (0x20 + c) (leBytes 4 x.id ++ [c, 0, 0, 0]) else s
  | _, _ => s

/-- VOICE_FRAME_SEND (R473): the block ready most recently before the window. -/
def State.voiceSend (s : State) (c : Nat) : State :=
  let ch := s.chan c
  match s.chanCall c, ch.ready with
  | some _, some (b, data, at_) =>
    if ch.holder == s.uid && decide (at_ ≤ s.decik.upTicks) && s.canVoiceOut then
      (s.setChan c { ch with ready := none }).canQueue (7 + c) (0x10 + 8 * c + b % 8) data
    else s
  | _, _ => s

/-- CAN_WINDOW_OPEN (R462, R463, R470 to R473). -/
def State.windowOpen (s : State) (x : Nat) : State :=
  match s.canWin x with
  | none => s
  | some w =>
    let s := { s.set CAN.STAT.WIN x with can := { s.can with win := some x, active := none } }
    if !s.canOn then s
    else
      let s :=
        if w.arb then
          let s := if s.istate == Hs.dupHold && !s.can.holdSent then
              { s with can := { s.can with holdSent := true } }.canQueue 2 0x0F (leBytes 8 s.uid.toNat)
            else s
          s.claimSend
        else if s.flag CAN.STAT.EXCL_SUSP then s
        else if w.owner = 0 then
          if s.launches && !(s.twinOn && s.flag RED.TWIN_CFG.HOT && s.twinState == 2) then
            s.canQueue 0 (15 - s.get RING.INAUG_CFG.RANK) (s.heartbeat true w.start)
          else s
        else if w.rotating && s.position != 0 && s.rotOwner w s.can.cycle == s.position then
          s.canQueue 1 (0x40 + 2 * (s.position - 1) + b2n (s.twinOn && s.twinState == 2)) (s.heartbeat false w.start)
        else if w.owner = 0xF0 then s.voiceSend 0
        else if w.owner = 0xF1 then s.voiceSend 1
        else s
      s.canStart w.start

def execCanWindowOpen (win : Fin 64) (s : State) : Host.Outcome State Fault Refusal := .next (s.windowOpen win.val)

/-! ## Objects (R455 to R458) -/

/-- The store offset of a copy of a host object (R456). -/
def State.objCopy (s : State) (k c : Nat) : Nat := s.get CAN.BUF_BASE.BASE * 4096 + 256 * (k - 16) + 128 * c

/-- The first 16 bytes of a copy. -/
def copyHead (id : Nat) (ext fd brs esi : Bool) (dlc : Nat) (t : Int) : List Nat :=
  leBytes 4 (id + (if ext then 2 ^ 29 else 0) + (if fd then 2 ^ 30 else 0) + (if brs then 2 ^ 31 else 0)) ++
  [dlc + (if esi then 16 else 0), 0, 0, 0] ++ leBytes 8 (ofSigned 64 t)

/-- CAN time in ns of a SOF given from the cycle start. -/
def State.canSof (s : State) (sofNs : Nat) : Int := (s.can.cycle : Int) * 10000000 + sofNs

/-- Does the object accept the frame (R455)? -/
def State.objAccepts (s : State) (f : CanRx) (k : Nat) : Bool :=
  s.flag (CAN.OBJ_CFG.EN k) && !s.flag (CAN.OBJ_CFG.DIR k) && s.flag (CAN.OBJ_CFG.XTD k) == f.ext &&
  Nat.land f.id (s.get (CAN.OBJ_MASK.MASK k)) == Nat.land (s.get (CAN.OBJ_ID.ID k)) (s.get (CAN.OBJ_MASK.MASK k))

/-- A receive object takes a frame (R457): the current copy, or the shadow copy of a held one. -/
def State.objTake (s : State) (f : CanRx) (k : Nat) : State :=
  let cur := s.get (CAN.OBJ_STAT.CUR k)
  let bytes := copyHead f.id f.ext f.fd f.brs f.esi (dlcFor f.data.length) (s.canSof f.sofNs) ++
    (f.data ++ List.replicate 64 0).take 64
  let s := if s.flag (CAN.OBJ_STAT.HELD k) then
      let s := if s.can.shadow.contains k then s.count (CAN.OBJ_STAT.OVW k) 1
        else { s with can := { s.can with shadow := k :: s.can.shadow } }
      s.storeWrite (s.objCopy k (1 - cur)) bytes
    else (s.storeWrite (s.objCopy k cur) bytes).setFlag (CAN.OBJ_STAT.NEW k) true
  s.evtBit (CAN.RX_EVT.EVT (k / 32)) (k % 32) Src.CAN_RX

/-- Write HOLD, and RELEASE (R457). -/
def State.objHold (s : State) (k : Nat) : State := s.setFlag (CAN.OBJ_STAT.HELD k) true

def State.objRelease (s : State) (k : Nat) : State :=
  let s := (s.setFlag (CAN.OBJ_STAT.HELD k) false).setFlag (CAN.OBJ_STAT.NEW k) false
  if s.can.shadow.contains k then
    let s := { s with can := { s.can with shadow := s.can.shadow.filter (fun j => j != k) } }
    (s.set (CAN.OBJ_STAT.CUR k) (1 - s.get (CAN.OBJ_STAT.CUR k))).setFlag (CAN.OBJ_STAT.NEW k) true
  else s

/-- Queue a transmit object's frame (R458). -/
def State.objSend (s : State) (k : Nat) : State :=
  if s.flag (CAN.OBJ_CFG.EN k) && s.flag (CAN.OBJ_CFG.DIR k) then
    (s.setFlag (CAN.OBJ_STAT.TX_PEND k) true).set (CAN.OBJ_STAT.TX_CAUSE k) 0
  else s

/-- Disable an object: a queued frame is aborted, cause 3. -/
def State.objDisable (s : State) (k : Nat) : State :=
  let s := if s.flag (CAN.OBJ_STAT.TX_PEND k) then (s.setFlag (CAN.OBJ_STAT.TX_PEND k) false).set (CAN.OBJ_STAT.TX_CAUSE k) 3 else s
  s.setFlag (CAN.OBJ_CFG.EN k) false

/-! ## Frames sent and failed -/

/-- What follows from a frame of the node's own that was on the bus. -/
def State.ownSent (s : State) (f : CanOwn) : State :=
  if f.obj = 3 || f.obj = 4 then s.claimSeen (leValue (f.data.take 4)) (f.obj - 3)
  else if f.obj = 5 || f.obj = 6 then s.floorSeen (leValue (f.data.take 4)) (f.obj - 5) (BitVec.ofNat 64 (leValue (f.data.drop 4)))
  else if f.obj = 7 || f.obj = 8 then s.chanHeard (f.obj - 7)
  else s

/-- CAN_FRAME_SENT (R458): TX_EVT, and for a host object the fields that the node fills in. -/
def execCanFrameSent (obj : Fin 128) (sofNs endUs : Nat) (s : State) : Host.Outcome State Fault Refusal :=
  .next (if s.can.active != some obj.val then s
    else
      let k := obj.val
      let s := { s with can := { s.can with active := none } }
      let s := s.set CAN.ERR.TEC (s.get CAN.ERR.TEC - 1)
      let s := if k < 16 then
          match s.can.own.find? (fun (f : CanOwn) => f.obj == k) with
          | some f => (((s.emit (.can f.id false f.data)).canUnqueue k).ownSent f)
          | none => s
        else
          let fd := s.flag (CAN.OBJ_CFG.FD k)
          let ext := s.flag (CAN.OBJ_CFG.XTD k)
          let dlc := s.get (CAN.OBJ_CFG.DLC k)
          let (data, _, s) := s.storeRead (s.objCopy k 0 + 16) (dlcBytes fd dlc)
          let id := s.get (CAN.OBJ_ID.ID k)
          let s := s.emit (.can id ext data)
          let brs := s.flag (CAN.OBJ_CFG.BRS k) && s.get CAN.CFG.DATA != 0
          let s := s.storeWrite (s.objCopy k 0) (copyHead id ext fd brs (s.get CAN.STAT.ERR_STATE == 1) dlc (s.canSof sofNs))
          (s.setFlag (CAN.OBJ_STAT.TX_PEND k) false).set (CAN.OBJ_STAT.TX_CAUSE k) 0
      (s.evtBit (CAN.TX_EVT.EVT (k / 32)) (k % 32) Src.CAN_TX).canStart endUs)

/-- A protocol error (R452, R459; the counters of ISO 11898-1). -/
def State.canProtoError (s : State) : State :=
  let t := min (s.get CAN.ERR.TEC + 8) 255
  let s := ((s.set CAN.ERR.TEC t).count CAN.ERR.PROTO_CNT 1).canErr CAN.EVT.PROTO
  if decide (128 ≤ t) && s.get CAN.STAT.ERR_STATE == 0 then (s.set CAN.STAT.ERR_STATE 1).canErr CAN.EVT.PASSIVE else s

/-- Is the object one-shot: Decik's heartbeat and voice objects are (R458)? -/
def State.oneShot (s : State) (k : Nat) (error : Bool) : Bool :=
  if k < 16 then k == 1 || k == 7 || k == 8 || (k == 0 && error) else s.flag (CAN.OBJ_CFG.ONESHOT k)

/-- A one-shot object fails: TX_PEND clear, the cause recorded, TX_FAIL set. -/
def State.txFail (s : State) (k cause : Nat) : State :=
  let s := if k < 16 then s.canUnqueue k else s.setFlag (CAN.OBJ_STAT.TX_PEND k) false
  (s.set (CAN.OBJ_STAT.TX_CAUSE k) cause).evtBit (CAN.TX_FAIL.EVT (k / 32)) (k % 32) Src.CAN_ERR

/-- CAN_TX_FAIL (R458). -/
def execCanTxFail (obj : Fin 128) (error : Bool) (s : State) : Host.Outcome State Fault Refusal :=
  .next (if s.can.active != some obj.val then s
    else
      let s := { s with can := { s.can with active := none } }
      let s := if error then s.canProtoError else s
      if s.oneShot obj error then s.txFail obj (if error then 2 else 1) else s)

/-- CAN_BUS_OFF (R459): recovery starts at once; queued one-shot frames fail with cause error. -/
def execCanBusOff (s : State) : Host.Outcome State Fault Refusal :=
  .next (if !s.canOn then s
    else
      let s := { s with can := { s.can with active := none } }
      let s := ((s.set CAN.STAT.ERR_STATE 2).setFlag CAN.STAT.RECOVERING true).count CAN.ERR.BUSOFF_CNT 1
      let s := (s.canErr CAN.EVT.BUS_OFF).post Evt.CAN_BUS_OFF 0 [s.get CAN.ERR.TEC, s.get CAN.ERR.REC]
      (s.txWaiting.filter (fun k => s.oneShot k true)).foldl (fun (s : State) (k : Nat) => s.txFail k 2) s)

/-- CAN_BUSOFF_RECOVERED (R459). -/
def execCanBusoffRecovered (s : State) : Host.Outcome State Fault Refusal :=
  .next (if s.flag CAN.STAT.RECOVERING then
      let s := (s.set CAN.STAT.ERR_STATE 0).setFlag CAN.STAT.RECOVERING false
      (s.set CAN.ERR.TEC 0).set CAN.ERR.REC 0
    else s)

/-- The controller is switched on or off under the unit state machine, or by a write of CFG.EN. -/
def State.canEnable (s : State) (on : Bool) : State :=
  if !s.domOn Dom.can then s
  else
    let s := { s with can := { s.can with active := none } }
    let s := (s.setFlag CAN.CFG.EN on).setFlag CAN.STAT.RECOVERING false
    if on then ((s.set CAN.STAT.ERR_STATE 0).set CAN.ERR.TEC 0).set CAN.ERR.REC 0 else s.set CAN.STAT.ERR_STATE 3

/-! ## Receiving (R457, R461, R467, R468) -/

/-- The distance in ns by which a SOF lies outside a window, tolerance included; 0 inside (R467). -/
def State.outside (s : State) (w : CanWin) (sofNs : Nat) : Int :=
  let lo : Int := (1000 * w.start : Nat) - (s.canTol : Int)
  let hi : Int := (1000 * (w.start + w.len) : Nat) - (s.canGuard : Int) + (s.canTol : Int)
  if (sofNs : Int) < lo then sofNs - lo else if hi < (sofNs : Int) then sofNs - hi else 0

/-- The smaller distance. -/
def nearer (a b : Int) : Int := if b.natAbs < a.natAbs then b else a

/-- Enter a violation (R468). -/
def State.violation (s : State) (id : Nat) (ext : Bool) (us : Int) : State :=
  let s := (s.count CAN.VIOL_TOTAL.COUNT 1).evt CAN.EVT.WINDOW 1 Src.CAN_WINDOW
  let has (v : Nat) : Bool := s.flag (CAN.VIOL_ID.VALID v) && s.get (CAN.VIOL_ID.ID v) == id && s.flag (CAN.VIOL_ID.XTD v) == ext
  let slots := List.range 8
  match slots.find? has with
  | some v => (s.count (CAN.VIOL_CNT.CNT v) 1).set (CAN.VIOL_CNT.LAST_OFS_US v) (ofSigned 16 us)
  | none =>
    let v := match slots.find? (fun v => !s.flag (CAN.VIOL_ID.VALID v)) with
      | some v => v
      | none => slots.foldl (fun b v => if s.get (CAN.VIOL_CNT.CNT v) < s.get (CAN.VIOL_CNT.CNT b) then v else b) 0
    let s := ((s.setFlag (CAN.VIOL_ID.VALID v) true).set (CAN.VIOL_ID.ID v) id).setFlag (CAN.VIOL_ID.XTD v) ext
    (s.set (CAN.VIOL_CNT.CNT v) 1).set (CAN.VIOL_CNT.LAST_OFS_US v) (ofSigned 16 us)

/-- CAN_WINDOW_VIOLATION (R467, R468): judged where the time source is not NONE and no step fell in the cycle. The distance
of a heartbeat whose position owns no window is a free value. -/
def State.judge (s : State) (f : CanRx) : State :=
  if s.tsrc = Tsrc.none || s.can.stepped then s
  else
    match s.can.sched.filter (fun w => s.winFor f.id f.ext s.can.cycle w) with
    | [] =>
      if s.ownId f.id f.ext && decide (0x40 ≤ f.id - s.idBase) then
        let (v, s) := s.fresh
        s.violation f.id f.ext (toSigned 16 (v % 65536))
      else s
    | w :: t =>
      let d := t.foldl (fun d v => nearer d (s.outside v f.sofNs)) (s.outside w f.sofNs)
      if d = 0 then s else s.violation f.id f.ext (d / 1000)

/-- The value nearest `own` whose low 16 bits are `x`. -/
def extend16 (own x : Nat) : Nat :=
  let d := toSigned 16 ((x + 65536 - own % 65536) % 65536)
  ((own : Int) + d).toNat

/-- CAN_REFERENCE_ACCEPT (R461): the first reference of a cycle. -/
def State.reference (s : State) (f : CanRx) : State :=
  if s.can.refSeen then s
  else
    let diff : Int := (f.sofNs : Int) - 1000 * leValue ((f.data.drop 20).take 2)
    let c := extend16 s.can.cycle (leValue ((f.data.drop 22).take 2))
    let s := (s.set CAN.REF.DIFF_US (ofSigned 16 (satSigned 16 (diff / 1000)))).set64 CAN.REF_UID_LO.UID CAN.REF_UID_HI.UID
      (leValue ((f.data.drop 2).take 8))
    let near := decide (diff.natAbs ≤ s.canTol)
    let good := if near then s.can.refGood + 1 else 0
    let s := { s with can := { s.can with refSeen := true, refGood := good } }
    if s.tsrc = Tsrc.ring then s
    else
      let s := { s with can := { s.can with step := some (diff, c), refLock := s.can.refLock || decide (2 ≤ good) } }
      s.canTsrc

/-- A master heartbeat (R197, R461, R469); one of another node is valid communication (R559). -/
def State.masterBeat (s : State) (f : CanRx) : State :=
  let uid := BitVec.ofNat 64 (leValue ((f.data.drop 2).take 8))
  let s := s.reference f
  let s := if uid != s.uid then s.validComm else s
  if uid == s.ring.followUid && uid != 0 then s.canHeartbeat (leValue ((f.data.drop 16).take 4)) else s

/-- A node heartbeat (R194, R469, R559). -/
def State.nodeBeat (s : State) (f : CanRx) : State :=
  let uid := leValue ((f.data.drop 2).take 8)
  let pos := f.data.getD 1 0
  let s := { s with can := { s.can with heard := s.can.heard.filter (fun (h : Nat × DWord) => h.1 != pos) ++ [(pos, BitVec.ofNat 64 uid)] } }
  (if uid != s.uid.toNat then s.validComm else s).twinSeenAlive uid

/-- RING_HOLD_RECEIVE (R143, R471): the restraint on forming; a candidate that launches with LAYOUT = 0 stops. -/
def State.ringHoldSeen (s : State) : State := State.stopForming { s with inaug := { s.inaug with ringHold := true } }

/-- A frame of the node identifiers goes to Decik's objects. -/
def State.canOwnRx (s : State) (f : CanRx) : State :=
  let o := f.id - s.idBase
  if o ≤ 0x0E then s.masterBeat f
  else if o = 0x0F then s.ringHoldSeen
  else if decide (0x10 ≤ o) && decide (o < 0x20) then s.voiceSeen ((o - 0x10) / 8) (o % 8) f.data
  else if o = 0x20 || o = 0x21 then s.claimSeen (leValue (f.data.take 4)) (o - 0x20)
  else if o = 0x22 || o = 0x23 then
    s.floorSeen (leValue (f.data.take 4)) (o - 0x22) (BitVec.ofNat 64 (leValue ((f.data.drop 4).take 8)))
  else if 0x40 ≤ o then s.nodeBeat f
  else s

/-- CAN_FRAME_RECEIVE (R457, R467): judged, delivered; frames that wait start again where they may. -/
def execCanFrameReceive (f : CanRx) (s : State) : Host.Outcome State Fault Refusal :=
  .next (if !s.canOn || s.flag CAN.STAT.LISTEN then s
    else
      let s := (s.set CAN.ERR.REC (s.get CAN.ERR.REC - 1)).judge f
      let s := if s.ownId f.id f.ext then (if s.decikRuns then s.canOwnRx f else s)
        else match (List.range 112).find? (fun j => s.objAccepts f (j + 16)) with
          | some j => s.objTake f (j + 16)
          | none => s
      if s.can.active.isSome then s.canStart f.endUs else s)

/-! ## The cycle (R460, R461, R464) -/

/-- The cycle's number and start: in RING every 480 ticks of node time; else the step of a reference, or one more. -/
def State.cycleTime (s : State) (phaseNs : Nat) : State :=
  let now : Int := (s.clk.thirds : Int) + 3 * phaseNs
  if s.tsrc = Tsrc.ring then
    let c := (now + 15000000) / 30000000
    { s with can := { s.can with cycle := c.toNat, start := c * 30000000, stepped := false, step := none } }
  else match s.can.step with
    | some (d, c) => { s with can := { s.can with cycle := c + 1, start := now + 3 * d, stepped := decide (d ≠ 0), step := none } }
    | none => { s with can := { s.can with cycle := s.can.cycle + 1, start := now, stepped := false } }

/-- CAN_EXCL_SUSPEND (R464). -/
def State.canSuspend (s : State) : State :=
  if s.tsrc = Tsrc.none then
    if s.flag CAN.STAT.EXCL_SUSP then s else (s.setFlag CAN.STAT.EXCL_SUSP true).canErr CAN.EVT.SUSPEND
  else s.setFlag CAN.STAT.EXCL_SUSP false

/-- A waiting schedule takes effect (R466). -/
def State.schedApply (s : State) : State :=
  match s.can.nextSched with
  | some (l, n) =>
    if n ≤ s.clk.n then
      ({ s with can := { s.can with sched := l, nextSched := none } }.set CAN.SCHED_ATICK.TSEQ s.tickSeq).showSched
    else s
  | none => s

/-- What a channel does at a cycle start: its silence counts, the holder named owns the voice window (R472). -/
def State.chanCycle (s : State) (c : Nat) : State :=
  let x := s.chan c
  let s := s.setChan c { x with silent := min (x.silent + 1) 255, holder := x.named }
  let s := match s.chanCall c with
    | some call => s.setFlag (AUD.CALL_STAT.FLOOR call.ix) ((s.chan c).holder == s.uid)
    | none => s
  s.showChan c

/-- CAN_CYCLE_START (R460 to R466). -/
def execCanCycleStart (phaseNs : Nat) (s : State) : Host.Outcome State Fault Refusal :=
  .next (if !s.domOn Dom.can then s
    else
      let s := s.canTsrc
      let miss := if s.can.refSeen then 0 else min (s.get CAN.REF.MISS + 1) 255
      let s := s.set CAN.REF.MISS miss
      let s := if s.can.refSeen then s else { s with can := { s.can with refGood := 0 } }
      let s := s.cycleTime phaseNs
      let s := (s.set CAN.CYCLE.CNT (s.can.cycle % 2 ^ 32)).canSuspend.schedApply
      let s := { s with can := { s.can with
        refSeen := false, holdSent := false, win := none, active := none,
        claims := (s.can.claims.map (fun (e : Nat × Nat × Nat) => (e.1, e.2.1, e.2.2 + 1))).filter
          (fun (e : Nat × Nat × Nat) => decide (e.2.2 ≤ 3)),
        backoff := (s.can.backoff.map (fun (e : Nat × Nat) => (e.1, e.2 - 1))).filter (fun (e : Nat × Nat) => decide (0 < e.2)) } }
      (s.chanCycle 0).chanCycle 1)

/-- CAN_REF_LOCK_LOST (R461): 4 cycles without an accepted reference. -/
def execCanRefLockLost (s : State) : Host.Outcome State Fault Refusal :=
  .next (if 4 ≤ s.get CAN.REF.MISS then
      State.canTsrc { s with can := { s.can with refLock := false, refGood := 0 } }
    else s)

/-- CAN_CHANNEL_RELEASE (R472): free after 3 silent cycles. -/
def execCanChannelRelease (ch : Fin 2) (s : State) : Host.Outcome State Fault Refusal :=
  .next (let x := s.chan ch
    let s := s.setChan ch (if (s.chanCall ch).isSome then { x with silent := 3 }
      else { x with silent := 3, call := none, far := 0, named := 0, holder := 0, enc := [], ready := none, blocks := [] })
    (s.showChan ch).evt CAN.EVT.VOICE 1 Src.CAN_VOICE)

/-- CAN_CLAIM_BACKOFF (R472): after a claim collision the node waits w cycles, w drawn from 1 to 4, and claims again. -/
def execCanClaimBackoff (i : Fin 8) (s : State) : Host.Outcome State Fault Refusal :=
  .next (if s.callState i != CallState.wait then s
    else
      let (v, s) := s.fresh
      let s := (s.canUnqueue 3).canUnqueue 4
      { s with can := { s.can with
        active := none,
        backoff := s.can.backoff.filter (fun (e : Nat × Nat) => e.1 != i.val) ++ [(i.val, 1 + v % 4)] } })

/-! ## The tick and the domain -/

/-- The per-tick work: time source, floor, encoders and decoders (R460, R472, R473). -/
def State.canTick (s : State) (n : Nat) : State :=
  if !s.domOn Dom.can then s
  else
    let s := s.canTsrc
    [0, 1].foldl (fun (s : State) (c : Nat) => ((s.floorTick c).encodeTick c).decodeTick c n) s

/-- The CAN domain comes up: Decik loads the schedule (R479). -/
def State.canUp (s : State) : State := s.showSched

/-- The CAN domain loses power: its registers reset but WAKE_LAST (R479). -/
def State.canDown (s : State) : State :=
  let s := (s.resetRegs 0x10000 0x10084).resetRegs 0x10088 0x12000
  { s with can := { CanSt.reset with wake := s.can.wake } }

end Sys2Proof.Machine
end

