-- ==== Sys2Proof/Machine/Eth.lean ====
section
/-! DEFINITION. Ethernet ports, the PTP clock and the streams (chapter 13, R416 to R450). -/

namespace Sys2Proof.Machine

/-! ## Big-endian fields and checks of Ethernet, IPv4 and UDP (IEEE 802.3, RFC 791, RFC 768) -/

/-- The big-endian number that bytes spell. -/
def beValue (l : List Nat) : Nat := l.foldl (fun a x => a * 256 + x) 0

/-- `n` bytes of `x`, big-endian. -/
def beBytes (n x : Nat) : List Nat := (leBytes n x).reverse

/-- The big-endian number in the `n` bytes from `a`; missing bytes are zero. -/
def beAt (l : List Nat) (a n : Nat) : Nat := beValue ((List.range n).map (fun i => l.getD (a + i) 0))

/-- The checksum of the Internet protocols: the ones' complement of the ones' complement sum of 16-bit words. -/
def inetSum (l : List Nat) : Nat :=
  let s := (List.range ((l.length + 1) / 2)).foldl (fun a i => a + beAt l (2 * i) 2) 0
  let s := s / 65536 + s % 65536
  0xFFFF - (s / 65536 + s % 65536)

/-- One bit and one byte of the CRC-32 of IEEE 802.3. -/
def fcsBit (c : Nat) : Nat := if c % 2 = 1 then Nat.xor (c / 2) 0xEDB88320 else c / 2
def fcsByte (c x : Nat) : Nat := fcsBit (fcsBit (fcsBit (fcsBit (fcsBit (fcsBit (fcsBit (fcsBit (Nat.xor c x))))))))

/-- The frame check sequence. -/
def fcsOf (l : List Nat) : List Nat := leBytes 4 (Nat.xor (l.foldl fcsByte 0xFFFFFFFF) 0xFFFFFFFF)

/-- One bit and one byte of CRC-16/CCITT (R433): polynomial 0x1021, not reflected. -/
def ccittBit (c : Nat) : Nat := if 0x8000 ≤ c then Nat.xor (c * 2 % 65536) 0x1021 else c * 2
def ccittByte (c x : Nat) : Nat :=
  ccittBit (ccittBit (ccittBit (ccittBit (ccittBit (ccittBit (ccittBit (ccittBit (Nat.xor c (x * 256)))))))))

/-- CRC-16/CCITT with initial value 0xFFFF and no final XOR. -/
def crc16 (l : List Nat) : Nat := l.foldl ccittByte 0xFFFF

/-! ## A frame's headers -/

/-- Is the frame tagged? -/
def ethTagged (f : List Nat) : Bool := beAt f 12 2 == 0x8100
def ethDst (f : List Nat) : Nat := beAt f 0 6
def ethSrc (f : List Nat) : Nat := beAt f 6 6
def ethVid (f : List Nat) : Nat := beAt f 14 2 % 4096
/-- Where the payload of layer 3 begins. -/
def ethL3 (f : List Nat) : Nat := if ethTagged f then 18 else 14
def ethType (f : List Nat) : Nat := beAt f (ethL3 f - 2) 2
def ethBroadcast : Nat := 0xFFFFFFFFFFFF
def ethGroup (f : List Nat) : Bool := f.getD 0 0 % 2 == 1

def isIpv4 (f : List Nat) : Bool := ethType f == 0x0800 && f.getD (ethL3 f) 0 / 16 == 4
def ipHead (f : List Nat) : Nat := 4 * (f.getD (ethL3 f) 0 % 16)
def ipProto (f : List Nat) : Nat := f.getD (ethL3 f + 9) 0
def ipSrc (f : List Nat) : Nat := beAt f (ethL3 f + 12) 4
def ipDst (f : List Nat) : Nat := beAt f (ethL3 f + 16) 4
/-- The bytes of the IPv4 payload. -/
def ipBody (f : List Nat) : List Nat := ((f.drop (ethL3 f)).take (beAt f (ethL3 f + 2) 2)).drop (ipHead f)

def isUdp (f : List Nat) : Bool := isIpv4 f && ipProto f == 17
def udpSrcPort (f : List Nat) : Nat := beAt (ipBody f) 0 2
def udpDstPort (f : List Nat) : Nat := beAt (ipBody f) 2 2
def udpData (f : List Nat) : List Nat := ((ipBody f).take (beAt (ipBody f) 4 2)).drop 8

/-! ## Ports -/

/-- A port behind its registers. -/
def State.ethPort (s : State) (p : Nat) : EthPort := s.eth.ports.getD p EthPort.reset

def State.setEthPort (s : State) (p : Nat) (x : EthPort) : State := { s with eth := { s.eth with ports := s.eth.ports.set p x } }

/-- The interrupt sources of a port: ETHn_EVENT, ETHn_TS, ETHn_ERR. -/
def ethSrcEvent (p : Nat) : Nat := Src.ETH0_EVENT + 3 * p
def ethSrcTs (p : Nat) : Nat := Src.ETH0_TS + 3 * p
def ethSrcErr (p : Nat) : Nat := Src.ETH0_ERR + 3 * p

/-- Count in a port counter and in its running total (R436). -/
def State.ethCount (s : State) (p i d : Nat) : State :=
  let s := s.count (ETH.CNT.COUNT p i) d
  let x := s.ethPort p
  s.setEthPort p { x with totals := x.totals.modify i (fun t => (t + d) % 2 ^ 64) }

/-- The MAC runs: the ETH domain is up and the port enabled. -/
def State.ethRuns (s : State) (p : Nat) : Bool := s.domOn Dom.eth && s.flag (ETH.CFG.EN p)

/-- The port can carry frames. -/
def State.ethUp (s : State) (p : Nat) : Bool := s.ethRuns p && s.flag (ETH.STAT.LINK p)

/-- The port's MAC and IPv4 addresses. -/
def State.ethMac (s : State) (p : Nat) : Nat := s.get (ETH.MAC_HI.ADDR p) * 2 ^ 32 + s.get (ETH.MAC_LO.ADDR p)
def State.ethIp (s : State) (p : Nat) : Nat := s.get (ETH.IPV4.ADDR p)

/-- Is PTP in EXTERNAL mode (R182)? -/
def State.ptpExternal (s : State) : Bool := s.clk.cfg.ptpExternal

/-- PTP time at the last tick boundary, in thirds of a ns (R182). -/
def State.ptpThirds (s : State) : Int :=
  (s.clk.thirds : Int) + 3 * (if s.ptpExternal then s.clk.ptpDiff else s.clk.ptpOfs)

/-- PTP time in ns at a time since the tick boundary. -/
def State.ptpNs (s : State) (phaseNs : Nat) : Int := s.ptpThirds / 3 + phaseNs

/-- A PTP time as the 64 bits of a slot or register hold it. -/
def ptpBits (t : Int) : Nat := ofSigned 64 t

/-! ## Host frame rings (R421, R422) -/

/-- The store offset of a transmit and of a receive slot. -/
def State.htxSlot (s : State) (p i : Nat) : Nat := s.get (ETH.HTX_BASE.BASE p) * 4096 + 2048 * i
def State.hrxSlot (s : State) (p i : Nat) : Nat := s.get (ETH.HRX_BASE.BASE p) * 4096 + 2048 * i
def State.hostDepth (s : State) (p : Nat) : Nat := s.get (ETH.HR_CTRL.DEPTH p)

/-- Write back the slots that are done, in order from RD on, and advance RD. -/
def State.htxRetire (s : State) (p : Nat) : Nat → State
  | 0 => s
  | fuel + 1 =>
    let x := s.ethPort p
    let rd := s.get (ETH.HTX_IDX.RD p)
    match x.htxDone.find? (fun d => d.1 == rd) with
    | none => s
    | some d =>
      let a := s.htxSlot p rd
      let w := leValue (s.bytesAt a 4)
      let w := setBit w 15
      let w := if d.2.1 then setBit w 16 else w
      let s := (s.storeWrite a (leBytes 4 w)).storeWrite (a + 8) (leBytes 8 (ptpBits d.2.2))
      let s := s.setEthPort p { x with htxDone := x.htxDone.filter (fun y => y != d) }
      State.htxRetire (s.set (ETH.HTX_IDX.RD p) ((rd + 1) % max (s.hostDepth p) 1)) p fuel

/-- A host slot is done: sent, or dropped. -/
def State.htxFinish (s : State) (p slot : Nat) (dropped : Bool) (ts : Int) : State :=
  let x := s.ethPort p
  (s.setEthPort p { x with htxDone := x.htxDone ++ [(slot, dropped, ts)] }).htxRetire p 1024

/-- A frame leaves its queue unsent; a host slot is written back DROPPED. -/
def State.txDiscard (s : State) (p : Nat) (f : TxFrame) : State :=
  match f.kind with
  | .host slot _ => s.htxFinish p slot true 0
  | _ => s

/-- A frame is dropped on arrival at its queue (R424, R426). -/
def State.txDrop (s : State) (p : Nat) (f : TxFrame) : State :=
  ((s.ethCount p 31 1).evt (ETH.ERR_EVT.TX_DROP p) 1 (ethSrcErr p)).txDiscard p f

/-- Put a frame into a transmit queue (R426): 256 frames or 1 MiB; dropped where the port's link is down (R424, R447). -/
def State.txEnqueue (s : State) (p q : Nat) (f : TxFrame) : State :=
  let x := s.ethPort p
  let l := x.queues.getD q []
  let held := (l.map (fun (g : TxFrame) => g.bytes.length)).sum
  if !s.ethUp p || decide (256 ≤ l.length) || decide (2 ^ 20 < held + f.bytes.length) then s.txDrop p f
  else s.setEthPort p { x with queues := x.queues.modify q (· ++ [f]) }

/-- Pad a frame to 60 bytes (R422). -/
def padFrame (b : List Nat) : List Nat := b ++ List.replicate (60 - b.length) 0

/-- Queue the host slots from the next one up to WR: the slot names its queue and whether it asks for a timestamp. A slot
whose LEN lies outside 14 to 1,518, or that cannot be read, is written back DROPPED (notes/assumptions/40.md). -/
def State.htxFetch (s : State) (p : Nat) : Nat → State
  | 0 => s
  | fuel + 1 =>
    let x := s.ethPort p
    let i := x.htxNext
    if !s.flag (ETH.HR_CTRL.TX_EN p) || i == s.get (ETH.HTX_IDX.WR p) then s
    else
      let a := s.htxSlot p i
      let (h, err, s) := s.storeRead a 16
      let w := leValue (h.take 4)
      let len := w % 2 ^ 11
      let s := s.setEthPort p { x with htxNext := (i + 1) % max (s.hostDepth p) 1 }
      let (body, err2, s) := s.storeRead (a + 16) (if decide (14 ≤ len) && decide (len ≤ 1518) then len else 0)
      let s := if err || err2 || decide (len < 14) || decide (1518 < len) then s.htxFinish p i true 0
        else s.txEnqueue p (w / 2 ^ 11 % 8) ⟨padFrame body, .host i (bit w 14)⟩
      State.htxFetch s p fuel

/-- A write of HTX_IDX.WR: outside 0 to DEPTH − 1 it is ignored. -/
def State.htxWrWrite (s : State) (p wr : Nat) : State :=
  if !s.domOn Dom.eth || decide (s.hostDepth p ≤ wr) then s
  else (s.set (ETH.HTX_IDX.WR p) wr).htxFetch p 1024

/-- HTX_WR_WRITE (R422). -/
def execHtxWrWrite (port : Fin 2) (wr : Nat) (s : State) : Host.Outcome State Fault Refusal := 
  .next (s.access (ETH.HTX_IDX.off port) (fun s => s.htxWrWrite port.val wr))

/-- A write of HRX_IDX.RD, under the same rule. -/
def State.hrxRdWrite (s : State) (p rd : Nat) : State :=
  if !s.domOn Dom.eth || decide (s.hostDepth p ≤ rd) then s else s.set (ETH.HRX_IDX.RD p) rd

/-- A write of TX_EN and RX_EN (R421): a ring that is enabled again fetches from RD on. -/
def State.hrEnable (s : State) (p : Nat) (tx rx : Bool) : State :=
  let s := (s.setFlag (ETH.HR_CTRL.TX_EN p) tx).setFlag (ETH.HR_CTRL.RX_EN p) rx
  if tx then s.htxFetch p 1024 else s

/-- Write a received frame into the host receive ring (R422): dropped and counted where the ring is full. -/
def State.hostRx (s : State) (p : Nat) (f : EthRx) : State :=
  let wr := s.get (ETH.HRX_IDX.WR p)
  let next := (wr + 1) % max (s.hostDepth p) 1
  if next = s.get (ETH.HRX_IDX.RD p) then (s.ethCount p 20 1).evt (ETH.ERR_EVT.RX_OVF p) 1 (ethSrcErr p)
  else
    let a := s.hrxSlot p wr
    let ts := s.ptpNs f.phaseNs + toSigned 16 (s.get (ETH.TS_LAT.INGRESS p))
    let head := leBytes 4 (f.bytes.length % 2 ^ 11 + (if ethTagged f.bytes then 2 ^ 11 else 0)) ++ leBytes 4 s.tickSeq ++
      leBytes 8 (ptpBits ts)
    ((s.storeWrite a (head ++ f.bytes)).set (ETH.HRX_IDX.WR p) next).ethCount p 23 1

/-! ## Frames that the node originates (R425) -/

/-- Queue of the node's own traffic: 0 PTP, 1 AES67 media, 2 codec RTP, 3 control; the image may change it. -/
def State.ethQueue (s : State) (traffic : Nat) : Nat :=
  s.cfg.image.ethQueues.getD traffic ([7, 6, 5, 4].getD traffic 0) % 8

/-- DSCP of the node's own traffic. -/
def ethDscp (traffic : Nat) : Nat := [46, 34, 34, 0].getD traffic 0

/-- An Ethernet frame of the port: tagged with CFG.VID and the queue as PCP where VID is not 0. -/
def State.ethFrame (s : State) (p q dst type : Nat) (payload : List Nat) : List Nat :=
  let vid := s.get (ETH.CFG.VID p)
  let tag := if vid = 0 then [] else beBytes 2 0x8100 ++ beBytes 2 (q * 8192 + vid)
  padFrame (beBytes 6 dst ++ beBytes 6 (s.ethMac p) ++ tag ++ beBytes 2 type ++ payload)

/-- The destination MAC of an IPv4 address: group addresses map to 01-00-5E (RFC 1112). -/
def State.ipMac (_s : State) (p ip : Nat) : Nat :=
  if ip = 0xFFFFFFFF then ethBroadcast
  else if ip / 2 ^ 28 = 14 then 0x01005E000000 + ip % 2 ^ 23
  else Config.nextHop p ip

/-- An IPv4 packet from the port; identification and time to live are left open. -/
def State.ipPacket (s : State) (p traffic proto dst : Nat) (options body : List Nat) : List Nat × State :=
  let (id, s) := s.fresh
  let hl := 5 + options.length / 4
  let head (sum : Nat) := [4 * 16 + hl, ethDscp traffic * 4] ++ beBytes 2 (4 * hl + body.length) ++ beBytes 2 (id % 65536) ++
    beBytes 2 0 ++ [Config.ipTtl traffic % 256, proto] ++ beBytes 2 sum ++ beBytes 4 (s.ethIp p) ++ beBytes 4 dst ++ options
  (head (inetSum (head 0)) ++ body, s)

/-- A UDP datagram of the port, its checksum included. -/
def State.udpPacket (s : State) (p dst sport dport : Nat) (data : List Nat) : List Nat :=
  let len := 8 + data.length
  let pseudo := beBytes 4 (s.ethIp p) ++ beBytes 4 dst ++ [0, 17] ++ beBytes 2 len
  let head (sum : Nat) := beBytes 2 sport ++ beBytes 2 dport ++ beBytes 2 len ++ beBytes 2 sum
  let c := inetSum (pseudo ++ head 0 ++ data)
  head (if c = 0 then 0xFFFF else c) ++ data

/-- Queue a UDP datagram of a traffic class. -/
def State.sendUdp (s : State) (p traffic dst sport dport : Nat) (data : List Nat) (kind : TxKind) : State :=
  let q := s.ethQueue traffic
  let (pkt, s) := s.ipPacket p traffic 17 dst [] (s.udpPacket p dst sport dport data)
  s.txEnqueue p q ⟨s.ethFrame p q (s.ipMac p dst) 0x0800 pkt, kind⟩

/-! ## Gate lists (R427 to R429) -/

/-- Duration in ns of each entry of a list: the last runs to the end of the cycle. -/
def GateList.spans (g : GateList) : List (Nat × Nat) :=
  let total := g.cycle * 62500 / 3
  let before := (g.entries.dropLast.map (·.2)).sum
  match g.entries.getLast? with
  | some e => g.entries.dropLast ++ [(e.1, total - before)]
  | none => [(0xFF, total)]

/-- Time from the start of entry `i` at which queue `q` closes next: none where it never does. The entries of the cycle
after follow on. -/
def GateList.openFor (g : GateList) (q i : Nat) : Option Nat :=
  let l := g.spans.drop i ++ g.spans
  if g.spans.all (fun e => bit e.1 q) then none
  else some ((l.takeWhile (fun e => bit e.1 q)).map (·.2)).sum

/-- Can a frame of this wire time ever be sent from queue `q`: is some window of the list as long? -/
def GateList.everFits (g : GateList) (q ns : Nat) : Bool :=
  (List.range g.spans.length).any (fun i => match g.openFor q i with | none => true | some w => decide (ns ≤ w))

/-- Show the list in force and its running entry. -/
def State.showGate (s : State) (p entry : Nat) : State :=
  let g := (s.ethPort p).gates
  ((s.set (ETH.GATE_STAT.CYCLE p) g.cycle).set (ETH.GATE_STAT.GATES p) (g.spans.getD entry (0xFF, 0)).1).set
    (ETH.GATE_STAT.ENTRY p) entry

/-- The first cycle start of a list at or after a tick number. -/
def firstCycle (cycle n : Nat) : Nat := (n + cycle - 1) / max cycle 1 * cycle

/-- A new list waits for its first cycle start at or after the tick (R429); the answer is that tick number. -/
def State.gateSet (s : State) (p : Nat) (g : GateList) (n : Nat) : Nat × State :=
  let a := firstCycle g.cycle n
  (a, s.setEthPort p { s.ethPort p with gateNext := some (g, a) })

/-- GATE_CYCLE_START (R427, R429), at the boundary of tick `n`: a waiting list cuts the old one's cycle. -/
def State.ethGateTick (s : State) (p n : Nat) : State :=
  let x := s.ethPort p
  match x.gateNext with
  | some (g, a) =>
    if a ≤ n && n % max g.cycle 1 = 0 then
      let s := s.setEthPort p { x with gates := g, gateNext := none, gateStart := s.decik.upTicks }
      (s.set (ETH.GATE_ATICK.TSEQ p) (n % 2 ^ 32)).showGate p 0
    else if n % max x.gates.cycle 1 = 0 then (s.setEthPort p { x with gateStart := s.decik.upTicks }).showGate p 0
    else s
  | none =>
    if n % max x.gates.cycle 1 = 0 then (s.setEthPort p { x with gateStart := s.decik.upTicks }).showGate p 0
    else s

/-- GATE_ENTRY_CHANGE (R427): the next entry's gates open; the last entry runs to the next cycle start. -/
def execGateEntryChange (port : Fin 2) (s : State) : Host.Outcome State Fault Refusal :=
  .next (if !s.domOn Dom.eth then s
    else
      let i := s.get (ETH.GATE_STAT.ENTRY port)
      if i + 1 < (s.ethPort port).gates.spans.length then s.showGate port (i + 1) else s)

/-- Ns from now to the end of the running entry and on while the queue's gate stays open; none: it never closes. -/
def State.gateLeft (s : State) (p q phaseNs : Nat) : Option Int :=
  let x := s.ethPort p
  let i := s.get (ETH.GATE_STAT.ENTRY p)
  let now := (s.decik.upTicks - x.gateStart) * 62500 / 3 + phaseNs
  let start := ((x.gates.spans.take i).map (·.2)).sum
  match x.gates.openFor q i with
  | none => none
  | some w => some (((start + w : Nat) : Int) - now)

/-! ## Sending (R426, R428, R439) -/

/-- Wire time of a frame in ns with FCS, preamble and the inter-frame gap (R428): 8 ns a byte. -/
def wireNs (f : TxFrame) : Nat := 8 * (f.bytes.length + 4 + 20)

/-- Frames that no window of the list can ever hold are dropped from the heads of their queues (R428). -/
def State.dropUnsendable (s : State) (p q : Nat) : Nat → State
  | 0 => s
  | fuel + 1 =>
    let x := s.ethPort p
    match x.queues.getD q [] with
    | [] => s
    | f :: t =>
      if x.gates.everFits q (wireNs f) then s
      else
        let s := s.setEthPort p { x with queues := x.queues.set q t }
        let s := (s.ethCount p 32 1).evt (ETH.ERR_EVT.GATE_DROP p) 1 (ethSrcErr p)
        State.dropUnsendable (s.txDiscard p f) p q fuel

/-- The queue to send from: the highest whose gate is open and whose frame fits (R426, R428). -/
def State.txPick (s : State) (p phaseNs : Nat) : Option (Nat × TxFrame) :=
  let x := s.ethPort p
  let gates := s.get (ETH.GATE_STAT.GATES p)
  [7, 6, 5, 4, 3, 2, 1, 0].findSome? (fun q =>
    match x.queues.getD q [] with
    | f :: _ =>
      if bit gates q && (match s.gateLeft p q phaseNs with | none => true | some w => decide ((wireNs f : Int) ≤ w)) then some (q, f)
      else none
    | [] => none)

/-- Does the frame need an egress timestamp (R439)? -/
def TxKind.stamped : TxKind → Bool
  | .host _ ts => ts
  | .sync _ => true
  | .delayReq _ => true
  | _ => false

/-- The number that TSQ_FIRST records: the PTP sequence ID, 0xFFFF for a host frame. -/
def TxKind.seqId : TxKind → Nat
  | .sync n => n
  | .delayReq n => n
  | _ => 0xFFFF

/-- Take an entry of the egress timestamp queue, or lose the timestamp (R439). -/
def State.txStamp (s : State) (p : Nat) (k : TxKind) (t : Int) : State :=
  let x := s.ethPort p
  if x.tsq.length < 32 then
    (s.setEthPort p { x with tsq := x.tsq ++ [(k, t)] }).set (ETH.TSQ_STAT.FILL p) (x.tsq.length + 1)
  else
    let s := s.count (ETH.TSQ_STAT.LOST p) 1
    let s := if s.flag (ETH.TSQ_FIRST.VALID p) then s else s.set (ETH.TSQ_FIRST.SEQ p) k.seqId
    let s := s.evt (ETH.TSQ_FIRST.VALID p) 1 (ethSrcTs p)
    match k with
    | .host slot _ => s.htxFinish p slot false 0
    | _ => s

/-- Count a frame sent. -/
def State.txCounted (s : State) (p : Nat) (b : List Nat) : State :=
  let s := (s.ethCount p 25 1).ethCount p 26 (b.length + 4)
  s.ethCount p (if ethDst b = ethBroadcast then 29 else if ethGroup b then 28 else 27) 1

/-- The port sends one frame. -/
def State.txSend (s : State) (p q : Nat) (f : TxFrame) (phaseNs : Nat) : State :=
  let x := s.ethPort p
  let s := s.setEthPort p { x with queues := x.queues.modify q (List.drop 1) }
  let s := (s.emit (.eth p q (f.bytes ++ fcsOf f.bytes))).txCounted p f.bytes
  let t := s.ptpNs phaseNs + toSigned 16 (s.get (ETH.TS_LAT.EGRESS p))
  if f.kind.stamped then s.txStamp p f.kind t
  else match f.kind with
    | .host slot _ => s.htxFinish p slot false 0
    | _ => s

/-- ETH_FRAME_TRANSMIT (R426, R428, R430): nothing is sent while a pause holds. -/
def execEthFrameTransmit (port : Fin 2) (phaseNs : Nat) (s : State) : Host.Outcome State Fault Refusal :=
  .next (if !s.ethUp port || s.flag (ETH.STAT.PAUSED port) then s
    else
      let s := (List.range 8).foldl (fun (s : State) (q : Nat) => s.dropUnsendable port q 256) s
      match s.txPick port phaseNs with
      | some (q, f) => s.txSend port q f phaseNs
      | none => s)

/-! ## Pause (R430, R431) -/

/-- A pause ends or is replaced: the quanta obeyed are counted. -/
def State.pauseEnd (s : State) (p : Nat) : State :=
  let x := s.ethPort p
  let s := s.ethCount p 30 (x.pauseGiven - s.get (ETH.PAUSE_STAT.REMAIN p))
  let x := s.ethPort p
  let s := s.setEthPort p { x with pauseGiven := 0, pauseLeft := 0 }
  (s.set (ETH.PAUSE_STAT.REMAIN p) 0).setFlag (ETH.STAT.PAUSED p) false

/-- Obey a pause frame. -/
def State.pauseStart (s : State) (p quanta : Nat) : State :=
  let s := s.pauseEnd p
  if quanta = 0 then s
  else
    let x := s.ethPort p
    let s := s.setEthPort p { x with pauseGiven := quanta, pauseLeft := quanta * 512 * 3 }
    (s.set (ETH.PAUSE_STAT.REMAIN p) quanta).setFlag (ETH.STAT.PAUSED p) true

/-- A MAC control frame: a pause of exactly 64 bytes to the group or the port's address, or malformed. -/
def State.macControl (s : State) (p : Nat) (f : EthRx) : State :=
  let b := f.bytes
  let good := beAt b 14 2 == 1 && (ethDst b == 0x0180C2000001 || ethDst b == s.ethMac p) && b.length == 60
  if !good then (s.ethCount p 6 1).evt (ETH.ERR_EVT.PAUSE_BAD p) 1 (ethSrcErr p)
  else
    let s := s.ethCount p 5 1
    if s.flag (ETH.CFG.PAUSE_IGN p) then s else s.pauseStart p (beAt b 16 2)

/-- PAUSE_EXPIRE (R430). -/
def execPauseExpire (port : Fin 2) (s : State) : Host.Outcome State Fault Refusal :=
  .next (if s.flag (ETH.STAT.PAUSED port) then (s.set (ETH.PAUSE_STAT.REMAIN port) 0).pauseEnd port else s)

/-- The quanta left go down with time. -/
def State.pauseTick (s : State) (p : Nat) : State :=
  if !s.flag (ETH.STAT.PAUSED p) then s
  else
    let x := s.ethPort p
    let left := x.pauseLeft - 62500
    (s.setEthPort p { x with pauseLeft := left }).set (ETH.PAUSE_STAT.REMAIN p) ((left + 1535) / 1536)

/-! ## Links (R416, R447) -/

/-- ETH_LINK_UP (R416): a link at another speed or at half duplex is held down. -/
def execEthLinkUp (port : Fin 2) (accepted : Bool) (s : State) : Host.Outcome State Fault Refusal :=
  .next (if !s.ethRuns port then s
    else if accepted then (s.setFlag (ETH.STAT.LINK port) true).evt (ETH.EVT.LINK_UP port) 1 (ethSrcEvent port)
    else (s.ethCount port 35 1).evt (ETH.EVT.SPEED_REFUSED port) 1 (ethSrcEvent port))

/-- Empty every queue of a port, the frames counted as dropped. -/
def State.txFlush (s : State) (p : Nat) : State :=
  let x := s.ethPort p
  let s := s.setEthPort p { x with queues := List.replicate 8 [] }
  x.queues.flatten.foldl (fun (s : State) (f : TxFrame) => s.txDrop p f) s

/-- The link of a port goes down. -/
def State.ethLinkDown (s : State) (p : Nat) : State :=
  if !s.flag (ETH.STAT.LINK p) then s
  else (((s.setFlag (ETH.STAT.LINK p) false).ethCount p 35 1).evt (ETH.EVT.LINK_DOWN p) 1 (ethSrcEvent p)).txFlush p

/-- ETH_LINK_DOWN (R416, R447). -/
def execEthLinkDown (port : Fin 2) (s : State) : Host.Outcome State Fault Refusal := .next (s.ethLinkDown port.val)

/-- The port is enabled or disabled under the unit state machine, or by the host (R214, R448). -/
def State.ethEnable (s : State) (p : Nat) (on : Bool) : State :=
  if !s.domOn Dom.eth then s
  else if on then
    ((s.setFlag (ETH.CFG.EN p) true).setFlag (ETH.STAT.RUN p) true).set (ETH.STAT.MODE p) (s.get (ETH.CFG.LANE_MODE p))
  else
    let s := (s.ethLinkDown p).pauseEnd p
    ((s.setFlag (ETH.CFG.EN p) false).setFlag (ETH.STAT.RUN p) false).set (ETH.STAT.MODE p) 0

/-! ## The stream engine (R440 to R446) -/

/-- Stream by index and direction. -/
def State.stream (s : State) (tx : Bool) (ix : Nat) : Option RtpStream :=
  s.eth.streams.find? (fun (x : RtpStream) => x.tx == tx && x.ix == ix)

def State.setStream (s : State) (x : RtpStream) : State :=
  let l := s.eth.streams.map (fun (y : RtpStream) => if y.tx == x.tx && y.ix == x.ix then x else y)
  { s with eth := { s.eth with streams := l } }

/-- The stream's data-path state changed (R444): its bit is set. -/
def State.streamEvt (s : State) (tx : Bool) (ix : Nat) : State :=
  s.evtBit (PTP.STRM_EVT.EVT (ix / 32 + (if tx then 0 else 2))) (ix % 32) Src.AES67_STREAM

/-- The 48 kHz media time at a PTP time in thirds of a ns (R441). -/
def mediaTime (thirds : Int) (mco : Nat) : Nat := ((thirds * 48000 / 3000000000 + mco) % (2 ^ 32 : Nat)).toNat

/-- Difference of two media times, signed. -/
def mediaDiff (a b : Nat) : Int := toSigned 32 ((a + 2 ^ 32 - b % 2 ^ 32) % 2 ^ 32)

/-- Arm or disarm a stream (units of class AES67_STREAM). -/
def State.streamEnable (s : State) (tx : Bool) (ix : Nat) (on : Bool) : State :=
  match s.stream tx ix with
  | none => s
  | some x =>
    let s := s.setStream { x with
      armed := on, count := none, txBuf := [], buf := [], pos := none, missing := 0, lastAt := none,
      seqs := [], anchor := none, packets := [], concealed := 0, last10 := [] }
    if tx then
      let was := s.flag (PTP.STX_STAT.RUN ix)
      let s := s.setFlag (PTP.STX_STAT.RUN ix) on
      if was != on then s.streamEvt true ix else s
    else
      let was := s.flag (PTP.SRX_STAT.ARRIVING ix)
      let s := ((s.setFlag (PTP.SRX_STAT.RUN ix) on).setFlag (PTP.SRX_STAT.ARRIVING ix) false).set (PTP.SRX_STAT.FILL ix) 0
      if was then s.streamEvt false ix else s

/-- The parts of an RTP packet (RFC 3550), CSRC list, header extension and padding skipped: payload type, sequence number,
timestamp, SSRC, payload. -/
def rtpParts (d : List Nat) : Nat × Nat × Nat × Nat × List Nat :=
  let b0 := d.getD 0 0
  let h := 12 + 4 * (b0 % 16)
  let h := if bit b0 4 then h + 4 + 4 * beAt d (h + 2) 2 else h
  let body := d.drop h
  let body := if bit b0 5 then body.take (body.length - body.getLast?.getD 0) else body
  (d.getD 1 0 % 128, beAt d 2 2, beAt d 4 4, beAt d 8 4, body)

/-- Does a datagram belong to the stream (R442)? -/
def RtpStream.owns (x : RtpStream) (p : Nat) (f : List Nat) : Bool :=
  !x.tx && x.armed && x.port == p && x.ip == ipDst f && x.udp == udpDstPort f &&
    (x.ssrc == 0 || x.ssrc == (rtpParts (udpData f)).2.2.2.1)

/-- The samples of an L24 payload: one list of channels per sample. -/
def l24Samples (channels : Nat) (d : List Nat) : List (List Int) :=
  (List.range (d.length / (3 * channels))).map (fun i =>
    (List.range channels).map (fun c => toSigned 24 (beAt d (3 * (i * channels + c)) 3)))

/-- A packet arrived in time (R444). -/
def State.streamArrived (s : State) (ix : Nat) : State :=
  if s.flag (PTP.SRX_STAT.ARRIVING ix) then s else (s.setFlag (PTP.SRX_STAT.ARRIVING ix) true).streamEvt false ix

/-- A packet of an AES67 receive stream enters its jitter buffer, or is late or beyond it (R443). -/
def State.aesPacket (s : State) (x : RtpStream) (ts : Nat) (body : List Nat) : State :=
  let m := mediaTime s.ptpThirds x.mco
  let samples := l24Samples x.channels body
  let next := match x.pos with | some r => r + 1 | none => m + 2 ^ 32 + 1 - 48 * x.jitterMs
  let last := ts + samples.length - 1
  if decide (mediaDiff ts next < 0) || decide (0 < mediaDiff last m) then s.count (PTP.SRX_CNT.LATE x.ix) 1
  else
    let add := (List.range samples.length).map (fun i => ((ts + i) % 2 ^ 32, i == 0, samples.getD i []))
    let keep := x.buf.filter (fun b => !add.any (fun a => a.1 == b.1))
    let buf := keep ++ add
    ((s.setStream { x with buf := buf, lastAt := some s.decik.upTicks }).set (PTP.SRX_STAT.FILL x.ix) buf.length).streamArrived x.ix

/-- A packet of a codec receive stream (R273): the first sets the play-out; 8 kHz timestamps, 6 ticks each
(notes/assumptions/42.md). -/
def State.codecPacket (s : State) (x : RtpStream) (ts : Nat) (body : List Nat) : State :=
  let now := s.decik.upTicks
  let anchor := match x.anchor with | some a => a | none => (ts, now + 48 * x.jitterMs)
  let due := (anchor.2 : Int) + 6 * mediaDiff ts anchor.1
  if due ≤ (now : Int) || (now + 48 * x.jitterMs : Int) < due then
    (s.setStream { x with anchor := some anchor }).count (PTP.SRX_CNT.LATE x.ix) 1
  else
    let before := match x.packets.getLast? with | some q => q.2.1 | none => []
    let packets := x.packets ++ [(due.toNat, body, before)]
    ((s.setStream { x with anchor := some anchor, packets := packets, lastAt := some now }).set
      (PTP.SRX_STAT.FILL x.ix) (packets.length * x.ticks)).streamArrived x.ix

/-- AES67_PACKET_RECEIVE (R442, R443). -/
def State.streamPacket (s : State) (x : RtpStream) (f : List Nat) : State :=
  let (pt, seq, ts, _, body) := rtpParts (udpData f)
  let unit := 3 * x.channels
  let badLen := if x.type = 0 then body.isEmpty || body.length % max unit 1 != 0 else body.isEmpty
  if pt != x.pt || badLen || x.seqs.contains seq then s.count (PTP.SRX_CNT.BAD x.ix) 1
  else
    let x := { x with seqs := (seq :: x.seqs).take 64 }
    let s := s.setStream x
    if x.type = 0 then s.aesPacket x ts body else s.codecPacket x ts body

/-- The matrix source of a network receive channel, and the sink of a transmit channel (R212, R213). -/
def netSource (c : Nat) : Nat := 0x2D0 + c
def netSink (c : Nat) : Nat := 0x250 + c

/-- Deliver a sample of a stream's channels. -/
def State.streamDeliver (s : State) (x : RtpStream) (n : Nat) (v : Option (List Int)) : State :=
  (List.range x.channels).foldl (fun (s : State) (c : Nat) =>
    s.deliver (netSource (x.firstCh + c)) n (match v with | some l => .fresh (l.getD c 0) 0 | none => .none)) s

/-- The stale repeat of every channel. -/
def State.streamRepeat (s : State) (x : RtpStream) (n : Nat) : State :=
  (List.range x.channels).foldl (fun (s : State) (c : Nat) => s.deliverRepeat (netSource (x.firstCh + c)) n) s

/-- The media time of the sample that leaves in this tick, and whether a slip made it (R443, R446): in EXTERNAL mode the
count goes on by one a tick, and a difference of one is taken up at a packet's first sample. -/
def RtpStream.departs (x : RtpStream) (m : Nat) (external : Bool) : Nat × Bool :=
  let target := (m + 2 ^ 32 - 48 * x.jitterMs) % 2 ^ 32
  match x.pos with
  | none => (target, false)
  | some r =>
    let next := (r + 1) % 2 ^ 32
    let d := mediaDiff target next
    if !external || d = 0 || 1 < d || d < -1 then (target, false)
    else if x.buf.any (fun b => b.1 == next && b.2.1) then (if d = 1 then ((r + 2) % 2 ^ 32, true) else (r, true))
    else (next, false)

/-- A tick of an AES67 receive stream: AES67_SAMPLE_DEPART, STREAM_SLIP (R443, R446). -/
def State.aesTick (s : State) (x : RtpStream) (n : Nat) : State :=
  let m := mediaTime s.ptpThirds x.mco
  let (r, slip) := x.departs m s.ptpExternal
  let s := if slip then s.count (PTP.SRX_STAT.SLIPS x.ix) 1 else s
  if !s.flag (PTP.SRX_STAT.ARRIVING x.ix) then (s.setStream { x with pos := some r, missing := 0 }).streamDeliver x n none
  else match x.buf.find? (fun b => b.1 == r) with
    | some b =>
      let buf := x.buf.filter (fun c => decide (-1 ≤ mediaDiff c.1 r))
      let s := (s.setStream { x with pos := some r, missing := 0, buf := buf }).set (PTP.SRX_STAT.FILL x.ix)
        (buf.filter (fun c => decide (0 < mediaDiff c.1 r))).length
      s.streamDeliver x n (some b.2.2)
    | none =>
      let s := if x.missing % max x.ticks 1 = 0 then s.count (PTP.SRX_CNT.LOST x.ix) 1 else s
      (s.setStream { x with pos := some r, missing := x.missing + 1 }).streamRepeat x n

/-- A tick of a codec receive stream (R273): the packet that is due, the concealment of up to 40 ms, or VALID = 0. The
repeats of the last 10 ms fall by 6 dB each. -/
def State.codecTick (s : State) (x : RtpStream) (n : Nat) : State :=
  let now := s.decik.upTicks
  match x.packets.find? (fun q => decide (q.1 ≤ now) && decide (now < q.1 + x.ticks)) with
  | some (due, body, before) =>
    let v := Config.decoded x.type body before (now - due)
    let packets := x.packets.filter (fun q => decide (now < q.1 + x.ticks))
    let s := s.setStream { x with packets := packets, concealed := 0, last10 := (v :: x.last10).take 480 }
    (s.set (PTP.SRX_STAT.FILL x.ix) (packets.length * x.ticks)).streamDeliver x n (some [v])
  | none =>
    if x.last10.length < 480 || 1920 ≤ x.concealed then s.streamDeliver x n none
    else
      let k := x.concealed
      let v := Config.gainScaled (-60 * 1048576 * ((k / 480 + 1 : Nat) : Int)) (x.last10.getD (479 - k % 480) 0)
      let s := if k = 0 then s.count (PTP.SRX_CNT.LOST x.ix) 1 else s
      (s.setStream { x with concealed := k + 1, concealCount := x.concealCount + 1 }).streamDeliver x n (some [v])

/-- May this node send transmit streams: in twin mode only the twin whose OUT_ACTIVE is high (R445)? -/
def State.streamsSend (s : State) : Bool := s.drivesOutputs

/-- AES67_PACKET_QUEUE (R445): the packet of the samples collected. -/
def State.streamQueue (s : State) (x : RtpStream) (ts : Nat) (samples : List (List Int)) : State :=
  let payload := if x.type = 0 then samples.flatMap (fun l => l.flatMap (fun v => beBytes 3 (ofSigned 24 v)))
    else Config.encoded x.type (samples.map (fun l => l.getD 0 0))
  let rtp := [0x80, x.pt % 128] ++ beBytes 2 x.seq ++ beBytes 4 ts ++ beBytes 4 x.ssrc ++ payload
  let s := s.setStream { x with seq := (x.seq + 1) % 65536 }
  if s.streamsSend then s.sendUdp x.port (if x.type = 0 then 1 else 2) x.ip x.udp x.udp rtp (.stream x.ix s.decik.upTicks) else s

/-- The samples of a transmit stream's sinks: VALID = 0 carries zero. -/
def State.streamSamples (s : State) (x : RtpStream) : List Int :=
  (List.range x.channels).map (fun c => let p := s.sinkOut (netSink (x.firstCh + c)); if p.valid then p.value else 0)

/-- Send a packet once its samples are complete. -/
def State.streamFull (s : State) (x : RtpStream) : State :=
  if x.txBuf.length < x.ticks then s.setStream x
  else
    let ts := (x.count.getD 0 + 2 ^ 32 - x.txBuf.length) % 2 ^ 32
    s.streamQueue { x with txBuf := x.txBuf.drop x.ticks } ts (x.txBuf.take x.ticks)

/-- The send-stage samples of capture tick `c` join a transmit stream's packet (R445); in EXTERNAL mode a difference of one
between media time and sample count is taken up at a packet's start (R446), a larger one starts the packets anew. -/
def State.streamCollect (s : State) (x : RtpStream) (c : Nat) : State :=
  let m := mediaTime (s.ptpThirds - 62500) x.mco
  let v := s.streamSamples x
  match x.count with
  | none => if c % max x.ticks 1 = 0 then s.streamFull { x with count := some ((m + 1) % 2 ^ 32), txBuf := [v] } else s
  | some k =>
    let d := mediaDiff m k
    if d = 0 then s.streamFull { x with count := some ((k + 1) % 2 ^ 32), txBuf := x.txBuf ++ [v] }
    else if s.ptpExternal && decide (-1 ≤ d) && decide (d ≤ 1) then
      if !x.txBuf.isEmpty then s.streamFull { x with count := some ((k + 1) % 2 ^ 32), txBuf := x.txBuf ++ [v] }
      else
        let s := s.count (PTP.STX_STAT.SLIPS x.ix) 1
        if d = 1 then s.streamFull { x with count := some ((k + 2) % 2 ^ 32), txBuf := [v, v] }
        else s.setStream x
    else if c % max x.ticks 1 = 0 then s.streamFull { x with count := some ((m + 1) % 2 ^ 32), txBuf := [v] }
    else s.setStream { x with count := none, txBuf := [] }

/-- The transmit streams take the outputs of the send stage of the tick that ended. -/
def State.streamsCollect (s : State) (c : Nat) : State :=
  (s.eth.streams.filter (fun (x : RtpStream) => x.tx && x.armed)).foldl (fun (s : State) (x : RtpStream) => s.streamCollect x c) s

/-- The receive streams deliver the samples of capture tick `n`. -/
def State.streamsDeliver (s : State) (n : Nat) : State :=
  (s.eth.streams.filter (fun (x : RtpStream) => !x.tx && x.armed)).foldl (fun (s : State) (x : RtpStream) =>
    if x.type = 0 then s.aesTick x n else s.codecTick x n) s

/-- AES67_STREAM_STOPPED (R444): no packet in time for 1 s. -/
def execAes67StreamStopped (n : Fin 64) (s : State) : Host.Outcome State Fault Refusal :=
  .next (if s.flag (PTP.SRX_STAT.ARRIVING n) then (s.setFlag (PTP.SRX_STAT.ARRIVING n) false).streamEvt false n else s)

/-- STREAM_PACKET_LATE (R432): the stream's oldest queued packet is dropped. -/
def execStreamPacketLate (n : Fin 64) (s : State) : Host.Outcome State Fault Refusal :=
  .next (match s.stream true n with
    | none => s
    | some x =>
      let port := s.ethPort x.port
      let q := s.ethQueue (if x.type = 0 then 1 else 2)
      let mine (f : TxFrame) : Bool := match f.kind with | .stream i _ => i == n.val | _ => false
      match (port.queues.getD q []).find? mine with
      | none => s
      | some f =>
        let s := s.setEthPort x.port { port with queues := port.queues.modify q (List.erase · f) }
        ((s.ethCount x.port 33 1).count (PTP.STX_STAT.LATE_DROP n) 1).evt (ETH.ERR_EVT.STREAM_LATE x.port) 1 (ethSrcErr x.port))

/-! ## The PTP clock (R437 to R439; messages of IEEE 1588-2019 over UDP/IPv4) -/

abbrev Ptp.listening : Nat := 4
abbrev Ptp.master : Nat := 6
abbrev Ptp.passive : Nat := 7
abbrev Ptp.slave : Nat := 9

/-- The portState field of a port. -/
def ptpStateFld (p : Nat) : Fld := if p = 0 then PTP.STAT.PORT0 else PTP.STAT.PORT1

def State.ptpState (s : State) (p : Nat) : Nat := s.get (ptpStateFld p)

/-- The clock's identity is the node's UID (R437). -/
def State.ptpId (s : State) : Nat := s.uid.toNat

/-- Change a port's state: PTP.EVT.STATE on a change. -/
def State.setPtpState (s : State) (p x : Nat) : State :=
  if s.ptpState p = x then s else (s.set (ptpStateFld p) x).evt PTP.EVT.STATE 1 Src.PTP_EVENT

/-- The data set that the node announces as grandmaster, in the order in which masters are compared. -/
def State.ptpOwn (s : State) : Announce where
  sender := s.ptpId * 65536
  gm := s.ptpId
  prio1 := s.eth.ptp.prio1
  quality := s.get PTP.STAT.CLASS * 2 ^ 24 + Config.ptpAccuracy % 256 * 2 ^ 16 + Config.ptpVariance % 65536
  prio2 := s.eth.ptp.prio2
  steps := 0

/-- Is one data set better than another: lower priority1, quality, priority2, identity; then fewer steps, then the lower
sender? -/
def Announce.better (a b : Announce) : Bool :=
  let key (x : Announce) : List Nat :=
    if a.gm = b.gm then [x.steps, x.sender] else [x.prio1, x.quality, x.prio2, x.gm]
  decide (key a < key b)

/-- Show the grandmaster; PTP.EVT.GM_CHG on a change. -/
def State.showGm (s : State) (id : Nat) (self : Bool) : State :=
  let was := s.get64 PTP.GM_ID_LO.ID PTP.GM_ID_HI.ID
  let s := (s.set64 PTP.GM_ID_LO.ID PTP.GM_ID_HI.ID id).setFlag PTP.STAT.GM_SELF self
  if was = id then s else s.evt PTP.EVT.GM_CHG 1 Src.PTP_EVENT

/-- A port on which a foreign master is preferred in RING_SOURCE mode (R438). -/
def State.ptpForeign (s : State) (p : Nat) (a : Announce) : State :=
  if s.ptpState p = Ptp.passive then s
  else ((s.setPtpState p Ptp.passive).evt PTP.EVT.FOREIGN_GM 1 Src.PTP_EVENT).post Evt.PTP_FOREIGN_GM p (leBytes 8 a.gm)

/-- The state decision (R438): in RING_SOURCE mode a port that prefers a foreign grandmaster is PASSIVE, never SLAVE; in
EXTERNAL mode the best port that prefers one is SLAVE, another that does is PASSIVE. A LISTENING port that hears no better
master stays until its announce timeout. -/
def State.ptpDecide (s : State) : State :=
  let own := s.ptpOwn
  let better (p : Nat) : Option Announce :=
    if (s.ethPort p).ptp.role = 0 then none
    else (s.ethPort p).ptp.foreign.filter (fun a => a.better own)
  let best : Option (Nat × Announce) := match better 0, better 1 with
    | some a, some b => if a.better b then some (0, a) else some (1, b)
    | some a, none => some (0, a)
    | none, some b => some (1, b)
    | none, none => none
  let s := [0, 1].foldl (fun (s : State) (p : Nat) =>
    if (s.ethPort p).ptp.role = 0 then s
    else match better p with
      | some a =>
        if !s.ptpExternal then s.ptpForeign p a
        else if best.map (·.1) = some p then s.setPtpState p Ptp.slave
        else s.setPtpState p Ptp.passive
      | none => if s.ptpState p = Ptp.listening then s else s.setPtpState p Ptp.master) s
  match best with
  | some (_, a) => s.showGm a.gm false
  | none => if s.ptpState 0 = Ptp.master || s.ptpState 1 = Ptp.master then s.showGm s.ptpId true else s

/-- Roles and settings (R437): a port that takes a role listens, one without has state 0. -/
def State.ptpSet (s : State) (external : Bool) (domain prio1 prio2 : Nat) (roles : List Nat) : State :=
  let s := s.setFlag SYNC.PTP_CFG.MODE external
  let s := { s with eth := { s.eth with ptp := { s.eth.ptp with domain := domain, prio1 := prio1, prio2 := prio2 } } }
  let s := [0, 1].foldl (fun (s : State) (p : Nat) =>
    let r := roles.getD p 0
    let x := s.ethPort p
    let was := x.ptp.role
    let s := s.setEthPort p { x with ptp := { x.ptp with role := r, foreign := if was = r then x.ptp.foreign else none } }
    if r = 0 then s.setPtpState p 0 else if was = 0 then s.setPtpState p Ptp.listening else s) s
  s.ptpDecide

/-- The 34-byte header of a PTP message: type, length, flags, port, sequence number, interval. -/
def State.ptpHead (s : State) (type len flags p seq interval : Nat) : List Nat :=
  [type, 0x12] ++ beBytes 2 len ++ [s.eth.ptp.domain, 0] ++ beBytes 2 flags ++ beBytes 8 0 ++ beBytes 4 0 ++
  beBytes 8 s.ptpId ++ beBytes 2 (p + 1) ++ beBytes 2 seq ++ [[0, 1, 5, 5, 5, 5, 5, 5, 2, 3].getD type 5, interval]

/-- A PTP timestamp: 48 bits of seconds, 32 of ns. -/
def ptpStamp (t : Int) : List Nat :=
  let n := ptpBits t
  beBytes 6 (n / 1000000000) ++ beBytes 4 (n % 1000000000)

/-- The time that a PTP timestamp spells. -/
def ptpStampAt (d : List Nat) (a : Nat) : Int := ((beAt d a 6 * 1000000000 + beAt d (a + 6) 4 : Nat) : Int)

/-- The group address of PTP. -/
def ptpGroup : Nat := 0xE0000181

/-- Send a PTP message: event messages to port 319, general ones to 320. -/
def State.ptpSend (s : State) (p : Nat) (event : Bool) (d : List Nat) (k : TxKind) : State :=
  let port := if event then 319 else 320
  s.sendUdp p 0 ptpGroup port port d k

/-- PTP_MESSAGE_INTERVAL (R437, R439): a master sends Sync (0) and Announce (1), a slave Delay_Req (2). -/
def execPtpMessageInterval (port : Fin 2) (what : Fin 3) (s : State) : Host.Outcome State Fault Refusal :=
  let x := s.ethPort port
  .next (if !s.decikRuns || !s.ethUp port then s
    else if what = 0 && s.ptpState port == Ptp.master then
      let seq := x.ptp.syncSeq
      let s := s.setEthPort port { x with ptp := { x.ptp with syncSeq := (seq + 1) % 65536 } }
      s.ptpSend port true (s.ptpHead 0 44 0x0200 port seq 0xFD ++ List.replicate 10 0) (.sync seq)
    else if what = 1 && s.ptpState port == Ptp.master then
      let seq := x.ptp.annSeq
      let s := s.setEthPort port { x with ptp := { x.ptp with annSeq := (seq + 1) % 65536 } }
      let o := s.ptpOwn
      let ext := [0, 1].findSome? (fun q => if s.ptpState q = Ptp.slave then (s.ethPort q).ptp.foreign else none)
      let a := match ext with | some f => { f with steps := f.steps + 1 } | none => o
      let body := List.replicate 10 0 ++ beBytes 2 0 ++ [0, a.prio1] ++ beBytes 4 a.quality ++ [a.prio2] ++ beBytes 8 a.gm ++
        beBytes 2 a.steps ++ [0xA0]
      s.ptpSend port false (s.ptpHead 11 64 0 port seq 1 ++ body) .other
    else if what = 2 && s.ptpState port == Ptp.slave then
      let seq := x.ptp.reqSeq
      let s := s.setEthPort port { x with ptp := { x.ptp with reqSeq := (seq + 1) % 65536, reqSent := none } }
      s.ptpSend port true (s.ptpHead 1 44 0 port seq 0x7F ++ List.replicate 10 0) (.delayReq seq)
    else s)

/-- PTP_ANNOUNCE_TIMEOUT (R437, R438): counted; the foreign master is forgotten, a listening port takes the master role. -/
def execPtpAnnounceTimeout (port : Fin 2) (s : State) : Host.Outcome State Fault Refusal :=
  .next (let x := s.ethPort port
    if x.ptp.role = 0 || s.ptpState port == Ptp.master || !s.decikRuns then s
    else
      let s := s.count PTP.CNT.ANN_TIMEOUT 1
      let s := s.setEthPort port { x with ptp := { x.ptp with foreign := none, rxSync := none, reqSent := none } }
      (if s.ptpState port = Ptp.listening then s.setPtpState port Ptp.master else s).ptpDecide)

/-- The servo of EXTERNAL mode (R438): a step above 100 us, else a slew; OFS_MASTER and MEAN_DELAY follow. -/
def State.ptpServo (s : State) (ofs : Int) : State :=
  let s := s.set PTP.OFS_MASTER.NS (ofSigned 32 (satSigned 32 ofs))
  if ofs < -100000 || 100000 < ofs then
    let s := { s with clk := { s.clk with ptpDiff := s.clk.ptpDiff - ofs }, eth := { s.eth with ptp := { s.eth.ptp with lockTicks := 0 } } }
    ((s.count PTP.CNT.STEPS 1).evt PTP.EVT.STEP 1 Src.PTP_EVENT).setFlag PTP.STAT.SERVO_LOCK false
  else
    let near := decide (-1000 ≤ ofs) && decide (ofs ≤ 1000)
    let s := { s with
      clk := { s.clk with ptpRatio := Config.servoRate ofs }
      eth := { s.eth with ptp := { s.eth.ptp with lockTicks := if near then max s.eth.ptp.lockTicks 1 else 0 } } }
    if near then s else s.setFlag PTP.STAT.SERVO_LOCK false

/-- The master-to-slave difference and the mean path delay give the offset. -/
def State.ptpMeasure (s : State) (t1 t2 : Int) : State :=
  let s := { s with eth := { s.eth with ptp := { s.eth.ptp with t1 := t1, t2 := t2 } } }
  if s.ptpExternal then s.ptpServo (t2 - t1 - s.eth.ptp.delay) else s

/-- A PTP message arrives (R437): Announce from any port of the domain, Sync, Follow_Up and Delay_Resp from the master that a
SLAVE port follows, Delay_Req at a MASTER port. -/
def State.ptpReceive (s : State) (p : Nat) (d : List Nat) (ts : Int) : State :=
  let x := s.ethPort p
  let type := d.getD 0 0 % 16
  let sender := beAt d 20 8 * 65536 + beAt d 28 2
  let seq := beAt d 30 2
  let corr := toSigned 64 (beAt d 8 8) / 65536
  let mine := match x.ptp.foreign with | some a => a.sender == sender | none => false
  if x.ptp.role = 0 || !s.decikRuns || d.length < 34 || d.getD 1 0 % 16 != 2 || d.getD 4 0 != s.eth.ptp.domain ||
      beAt d 20 8 = s.ptpId then s
  else if type = 11 then
    let a : Announce := ⟨sender, beAt d 53 8, d.getD 47 0, beAt d 48 4, d.getD 52 0, beAt d 61 2⟩
    let take := match x.ptp.foreign with | none => true | some b => a.sender == b.sender || a.better b
    (if take then s.setEthPort p { x with ptp := { x.ptp with foreign := some a } } else s).ptpDecide
  else if type = 0 && s.ptpState p = Ptp.slave && mine then
    if bit (d.getD 6 0) 1 then s.setEthPort p { x with ptp := { x.ptp with rxSync := some (seq, ts - corr) } }
    else s.ptpMeasure (ptpStampAt d 34) (ts - corr)
  else if type = 8 && s.ptpState p = Ptp.slave && mine then
    match x.ptp.rxSync with
    | some (q, t2) => if q = seq then s.ptpMeasure (ptpStampAt d 34 + corr) t2 else s
    | none => s
  else if type = 9 && s.ptpState p = Ptp.slave && mine && beAt d 44 8 = s.ptpId && beAt d 52 2 = p + 1 then
    match x.ptp.reqSent with
    | some (q, t3) =>
      if q = seq then
        let delay := ((s.eth.ptp.t2 - s.eth.ptp.t1) + (ptpStampAt d 34 - corr - t3)) / 2
        let s := { s with eth := { s.eth with ptp := { s.eth.ptp with delay := delay } } }
        if s.ptpExternal then s.set PTP.MEAN_DELAY.NS (ofSigned 32 (satSigned 32 delay)) else s
      else s
    | none => s
  else if type = 1 && s.ptpState p = Ptp.master then
    s.ptpSend p false (s.ptpHead 9 54 0 p seq 0xFD ++ ptpStamp ts ++ (d.drop 20).take 10) .other
  else s

/-- Decik drains one egress timestamp (R439): a Follow_Up, the time of a Delay_Req, or a host slot's write-back. -/
def State.tsqTake (s : State) (p : Nat) (k : TxKind) (t : Int) : State :=
  match k with
  | .sync seq => s.ptpSend p false (s.ptpHead 8 44 0 p seq 0xFD ++ ptpStamp t) .other
  | .delayReq seq =>
    let x := s.ethPort p
    s.setEthPort p { x with ptp := { x.ptp with reqSent := some (seq, t) } }
  | .host slot _ => s.htxFinish p slot false t
  | _ => s

/-- Decik drains the queue of egress timestamps. -/
def State.tsqDrain (s : State) (p : Nat) : State :=
  if !s.decikRuns then s
  else
    let x := s.ethPort p
    let s := (s.setEthPort p { x with tsq := [] }).set (ETH.TSQ_STAT.FILL p) 0
    x.tsq.foldl (fun (s : State) (e : TxKind × Int) => s.tsqTake p e.1 e.2) s

/-- A read of TSQ_STAT: LOST is returned and cleared, and TSQ_FIRST.VALID with it (R448). -/
def State.tsqRead (s : State) (p : Nat) : Nat × State :=
  ((s.word (ETH.TSQ_STAT.off p)).toNat, (s.set (ETH.TSQ_STAT.LOST p) 0).setFlag (ETH.TSQ_FIRST.VALID p) false)

/-- TSQ_STAT_READ (R439, R448). -/
def execTsqStatRead (port : Fin 2) (s : State) : Host.Outcome State Fault Refusal :=
  .next (s.access (ETH.TSQ_STAT.off port) (fun s =>
    let (v, s) := s.tsqRead port
    s.emit (.hostRead v)))

/-- clockClass (R182): 13 LOCKED, 14 out of sync for up to 1 s, 58 after that. -/
def State.ptpClassTick (s : State) : State :=
  let t := if s.inSync then 0 else s.eth.ptp.outTicks + 1
  let s := { s with eth := { s.eth with ptp := { s.eth.ptp with outTicks := t } } }
  if s.ptpExternal then s else s.set PTP.STAT.CLASS (if t = 0 then 13 else if t ≤ 48000 then 14 else 58)

/-- In EXTERNAL mode the PTP clock runs at its own rate; 10 s within 1 us is a lock. -/
def State.ptpTick (s : State) : State :=
  if !s.ptpExternal then s
  else
    let acc := s.eth.ptp.frac + s.clk.ptpRatio * 62500
    let lock := if s.eth.ptp.lockTicks = 0 then 0 else min (s.eth.ptp.lockTicks + 1) 480001
    let s := { s with
      clk := { s.clk with ptpDiff := s.clk.ptpDiff + acc / 3000000000 }
      eth := { s.eth with ptp := { s.eth.ptp with frac := acc % 3000000000, lockTicks := lock } } }
    if lock = 480001 then s.setFlag PTP.STAT.SERVO_LOCK true else s

/-! ## Decik's own traffic (R419) -/

/-- Answer an ARP request for the port's address. -/
def State.arpReply (s : State) (p : Nat) (f : List Nat) : State :=
  let a := f.drop (ethL3 f)
  let q := s.ethQueue 3
  if beAt a 6 2 = 1 && beAt a 24 4 = s.ethIp p && s.decikRuns then
    let body := beBytes 2 1 ++ beBytes 2 0x0800 ++ [6, 4] ++ beBytes 2 2 ++ beBytes 6 (s.ethMac p) ++ beBytes 4 (s.ethIp p) ++
      (a.drop 8).take 10
    s.txEnqueue p q ⟨s.ethFrame p q (beAt a 8 6) 0x0806 body, .other⟩
  else s

/-- Answer an ICMP echo request to the port's address. -/
def State.echoReply (s : State) (p : Nat) (f : List Nat) : State :=
  let b := ipBody f
  if b.getD 0 0 = 8 && s.decikRuns then
    let q := s.ethQueue 3
    let rest := b.drop 4
    let body := [0, 0] ++ beBytes 2 (inetSum ([0, 0, 0, 0] ++ rest)) ++ rest
    let (pkt, s) := s.ipPacket p 3 1 (ipSrc f) [] body
    s.txEnqueue p q ⟨s.ethFrame p q (ethSrc f) 0x0800 pkt, .other⟩
  else s

/-- The multicast groups of the port's receive streams. -/
def State.groups (s : State) (p : Nat) : List Nat :=
  (s.eth.streams.filter (fun (x : RtpStream) => !x.tx && x.armed && x.port == p && x.ip / 2 ^ 28 == 14)).map (·.ip)

/-- The IGMP membership reports: one IGMPv3 report, or an IGMPv2 report for each group. -/
def State.igmpReport (s : State) (p : Nat) : State :=
  let q := s.ethQueue 3
  let alert := [0x94, 4, 0, 0]
  let send (s : State) (dst : Nat) (m : List Nat) : State :=
    let body := m.take 2 ++ beBytes 2 (inetSum m) ++ m.drop 4
    let (pkt, s) := s.ipPacket p 3 2 dst alert body
    s.txEnqueue p q ⟨s.ethFrame p q (s.ipMac p dst) 0x0800 pkt, .other⟩
  let g := s.groups p
  if g.isEmpty || !s.decikRuns then s
  else if (s.ethPort p).igmpV2 then g.foldl (fun (s : State) (a : Nat) => send s a ([0x16, 0, 0, 0] ++ beBytes 4 a)) s
  else send s 0xE0000016 ([0x22, 0, 0, 0, 0, 0] ++ beBytes 2 g.length ++ g.flatMap (fun a => [2, 0, 0, 0] ++ beBytes 4 a))

/-- An IGMP query: an 8-byte one is a querier of v2. -/
def State.igmpQuery (s : State) (p : Nat) (f : List Nat) : State :=
  let b := ipBody f
  if b.getD 0 0 = 0x11 then
    (s.setEthPort p { s.ethPort p with igmpV2 := decide (b.length ≤ 8) }).igmpReport p
  else s

/-! ## Relaying (R423, R424) -/

/-- Does a rule match a frame? -/
def relayMatches (r : Config.RelayRule) (p : Nat) (f : List Nat) : Bool :=
  r.port == p && Nat.land (ethDst f) r.mask == Nat.land r.mac r.mask &&
    (match r.vid with | none => true | some v => ethTagged f && ethVid f == v)

/-- Send a frame on the ring: the 8-byte relay header and the frame. -/
def State.relayOut (s : State) (p : Nat) (r : Config.RelayRule) (f : List Nat) : State :=
  let x := s.ethPort p
  let s := s.setEthPort p { x with relayed := (s.ring.msgId :: x.relayed).take 256 }
  s.stageMessage Kind.eth r.pos r.sub ([r.egress % 256, r.queue % 8] ++ leBytes 2 f.length ++ leBytes 4 0 ++ f)

/-- RELAY_MESSAGE_RECEIVE (R424): the frame is placed in the named queue of the named port or ports. -/
def State.relayIn (s : State) (m : List Nat) : State :=
  let egress := m.getD 0 0
  let len := leValue ((m.drop 2).take 2)
  let f := (m.drop 8).take len
  let ports := if egress = 0xFF then [0, 1] else if egress < 2 then [egress] else []
  if decide (len < 14) || decide (1518 < len) || f.length != len || !s.domOn Dom.eth then s
  else ports.foldl (fun (s : State) (p : Nat) => s.txEnqueue p (m.getD 1 0 % 8) ⟨padFrame f, .other⟩) s

/-- Relayed messages that expired before they were sent are counted at their port (R424). -/
def State.relayExpired (s : State) (ids : List Nat) : State :=
  [0, 1].foldl (fun (s : State) (p : Nat) =>
    let x := s.ethPort p
    let gone := x.relayed.filter (fun i => ids.contains i)
    (s.setEthPort p { x with relayed := x.relayed.filter (fun i => !ids.contains i) }).ethCount p 34 gone.length) s

/-- CELL_EXPIRE (R105, R340, R424). -/
def execCellExpire (l : Line) (s : State) : Host.Outcome State Fault Refusal :=
  let ids := s.agedIds l Kind.eth
  .next ((s.cellsExpire l).relayExpired ids)

/-! ## Receiving (R418, R420) -/

/-- A frame that the wire checks drop (R418): the counter that counts it, none where it is good. -/
def rxFault (f : EthRx) : Option Nat :=
  let n := f.bytes.length + 4
  if n < 64 then some (if f.fcsOk then 8 else 9)
  else if (if ethTagged f.bytes then 1522 else 1518) < n then some (if f.fcsOk then 10 else 11)
  else if !f.fcsOk then some 7
  else if f.codeErr then some 12
  else none

/-- Count a good frame by kind and size. -/
def State.rxCounted (s : State) (p : Nat) (b : List Nat) : State :=
  let n := b.length + 4
  let s := (s.ethCount p 0 1).ethCount p 1 n
  let s := s.ethCount p (if ethDst b = ethBroadcast then 4 else if ethGroup b then 3 else 2) 1
  s.ethCount p (if n ≤ 64 then 13 else if n ≤ 127 then 14 else if n ≤ 255 then 15 else if n ≤ 511 then 16
    else if n ≤ 1023 then 17 else 18) 1

/-- Is a frame one of ARP, ICMP or IGMP addressed to the port? -/
def State.decikFrame (s : State) (p : Nat) (b : List Nat) : Bool :=
  (ethType b == 0x0806 && beAt b (ethL3 b + 24) 4 == s.ethIp p) ||
  (isIpv4 b && ipProto b == 1 && ipDst b == s.ethIp p) ||
  (isIpv4 b && ipProto b == 2 && (ipDst b == s.ethIp p || ipDst b == 0xE0000001 || (s.groups p).contains (ipDst b)))

/-- Decik handles a frame of its own. -/
def State.decikHandles (s : State) (p : Nat) (b : List Nat) : State :=
  if ethType b = 0x0806 then s.arpReply p b
  else if ipProto b = 1 then s.echoReply p b
  else s.igmpQuery p b

/-- The destination of an accepted frame, by the first rule that matches (R420). -/
def State.rxClassify (s : State) (p : Nat) (f : EthRx) : State :=
  let b := f.bytes
  if ethType b = 0x8808 then s.macControl p f
  else if isUdp b && (udpDstPort b == 319 || udpDstPort b == 320) && (ipDst b == s.ethIp p || ipDst b == ptpGroup) then
    let ts := s.ptpNs f.phaseNs + toSigned 16 (s.get (ETH.TS_LAT.INGRESS p))
    (s.ethCount p 24 1).ptpReceive p (udpData b) ts
  else match (if isUdp b then s.eth.streams.find? (fun (x : RtpStream) => x.owns p b) else none) with
    | some x => (s.ethCount p 21 1).streamPacket x b
    | none =>
      match s.cfg.image.relay.find? (fun r => relayMatches r p b) with
      | some r => (s.ethCount p 22 1).relayOut p r b
      | none =>
        if s.decikFrame p b then (s.ethCount p 23 1).decikHandles p b
        else if (ethDst b == s.ethMac p || ethDst b == ethBroadcast || s.cfg.image.multicast.contains (ethDst b)) &&
            s.flag (ETH.HR_CTRL.RX_EN p) then s.hostRx p f
        else s.ethCount p 19 1

/-- ETH_FRAME_RECEIVE (R418 to R420). -/
def execEthFrameReceive (port : Fin 2) (f : EthRx) (s : State) : Host.Outcome State Fault Refusal :=
  .next (if !s.ethUp port then s
    else match rxFault f with
      | some i => (s.ethCount port i 1).evt (ETH.ERR_EVT.WIRE port) 1 (ethSrcErr port)
      | none =>
        if f.bufFull then (s.ethCount port 20 1).evt (ETH.ERR_EVT.RX_OVF port) 1 (ethSrcErr port)
        else (s.rxCounted port f.bytes).rxClassify port f)

/-! ## Praline wake patterns (R433 to R435) -/

/-- Is byte `i` masked by a slot? -/
def State.pralineMasked (s : State) (p k i : Nat) : Bool :=
  let w := if i < 32 then ETH.PRALINE_MASK0.MASK p k else if i < 64 then ETH.PRALINE_MASK1.MASK p k
    else if i < 96 then ETH.PRALINE_MASK2.MASK p k else ETH.PRALINE_MASK3.MASK p k
  s.getBit w (i % 32)

/-- Does the list hold the magic-packet payload of a MAC address from some place on? -/
def magicIn (mac : List Nat) : List Nat → Bool
  | [] => false
  | x :: t => ((x :: t).take 102 == List.replicate 6 0xFF ++ (List.replicate 16 mac).flatten) || magicIn mac t

/-- Does a frame with a right FCS match an enabled slot? -/
def State.pralineMatch (s : State) (p k : Nat) (b : List Nat) : Bool :=
  s.flag (ETH.PRALINE_CRC.EN p k) &&
  (if s.flag (ETH.PRALINE_CRC.MAGIC p k) then magicIn (beBytes 6 (s.ethMac p)) (b.drop 14)
   else
    let masked := (List.range 128).filter (fun i => s.pralineMasked p k i)
    masked.all (fun i => decide (i < b.length)) && crc16 (masked.map (fun i => b.getD i 0)) == s.get (ETH.PRALINE_CRC.CRC p k))

/-- The first slot that a frame matches. -/
def State.pralineSlot (s : State) (p : Nat) (b : List Nat) (fcsOk : Bool) : Option Nat :=
  if fcsOk then (List.range 8).find? (fun k => s.pralineMatch p k b) else none

/-- PRALINE_SET (R433, R434): a slot, its enable and PRALINE_ARMED. -/
def State.pralineSet (s : State) (p k : Nat) (en magic : Bool) (crc : Nat) (mask : List Nat) : State :=
  let w (i : Nat) := leValue ((mask.drop (4 * i)).take 4)
  let s := (s.set (ETH.PRALINE_MASK0.MASK p k) (w 0)).set (ETH.PRALINE_MASK1.MASK p k) (w 1)
  let s := (s.set (ETH.PRALINE_MASK2.MASK p k) (w 2)).set (ETH.PRALINE_MASK3.MASK p k) (w 3)
  let s := ((s.setFlag (ETH.PRALINE_CRC.EN p k) en).setFlag (ETH.PRALINE_CRC.MAGIC p k) magic).set (ETH.PRALINE_CRC.CRC p k) crc
  let s := s.putBit (ETH.PRALINE_STAT.EN p) k en
  s.setFlag (ETH.STAT.PRALINE_ARMED p) (s.get (ETH.PRALINE_STAT.EN p) != 0)

/-! ## The domain and the tick -/

/-- The ETH domain loses power (R447, R450): host frames are discarded and the registers reset; the Praline slots stay where
the detector keeps them through STANDBY. -/
def State.ethDown (s : State) (keepPraline : Bool) : State :=
  let drop (s : State) (base : Nat) : State :=
    if keepPraline then (s.resetRegs base (base + 0x60)).resetRegs (base + 0x200) (base + 0x1000) else s.resetRegs base (base + 0x1000)
  let s := (drop (drop s 0x0A000) 0x0B000).resetRegs 0x0C000 0x0D000
  { s with eth := EthSt.reset }

/-- The per-tick work of the ports and streams, before the audio stages of tick `n`. -/
def State.ethTick (s : State) (n : Nat) : State :=
  if !s.domOn Dom.eth then s
  else
    let s := s.ptpTick.ptpClassTick
    let s := [0, 1].foldl (fun (s : State) (p : Nat) => ((s.ethGateTick p n).pauseTick p).tsqDrain p) s
    (s.streamsCollect (n - 1)).streamsDeliver n

end Sys2Proof.Machine
end

