-- ==== Sys2Proof/Machine/Recorder.lean ====
section
/-! DEFINITION. The event recorder (chapter 20): records in durable memory, the mirror, the pending buffer, storms, retired
sectors and DEGRADED (R588 to R601). -/

namespace Sys2Proof.Machine

/-- Severity of a record (R588). -/
def Record.sev (r : Record) : Nat := r.sevflags % 8

/-- A record with a flag bit of SEVFLAGS set: 3 FROM_PENDING, 5 MIRROR. -/
def Record.flagged (r : Record) (i : Nat) : Record := { r with sevflags := setBit r.sevflags i }

/-- Sectors retired. -/
def State.retiredCount (s : State) : Nat := popcount 64 s.evr.retired

/-- EVR.STAT, RETIRE_LO and RETIRE_HI follow the recorder (R595, R596). -/
def State.showRecorder (s : State) : State :=
  let n := s.retiredCount
  let st := if s.evr.degraded then 3 else if n = 0 then 1 else 2
  (((s.set EVR.STAT.STATE st).set EVR.STAT.RETIRED (min n 16)).set EVR.RETIRE_LO.MAP (s.evr.retired % 2 ^ 32)).set
    EVR.RETIRE_HI.MAP (s.evr.retired / 2 ^ 32)

/-- The slot after `slot` in the circle of 8,192, retired sectors passed over (R591, R595). -/
def slotAfter (retired : Nat) : Nat → Nat → Nat
  | 0, slot => slot
  | n + 1, slot =>
    let next := (slot + 1) % 8192
    if bit retired (next / 128) then slotAfter retired n (next / 128 * 128 + 127) else next

/-- Records in SEQ order (R593). -/
def insertRecord (r : Record) : List Record → List Record
  | [] => [r]
  | x :: t => if seqLater x.seq r.seq then r :: x :: t else x :: insertRecord r t

/-- Records of the durable area that check and are not older than FIRST_SEQ, as a read returns them (R593, R598). -/
def State.readable (s : State) : List Record :=
  let l := (if s.evr.degraded then s.evr.mirror else s.evr.area.map (·.2)).filter (fun (r : Record) =>
    r.good && !seqLater s.evr.firstSeq r.seq)
  l.foldl (fun acc r => insertRecord r acc) []

/-- FIRST_SEQ and LAST_SEQ show the oldest and the newest readable record. -/
def State.showSeqs (s : State) : State :=
  let l := s.readable
  match l.head?, l.getLast? with
  | some a, some b => (s.set EVR.FIRST_SEQ.SEQ a.seq).set EVR.LAST_SEQ.SEQ b.seq
  | _, _ => s

/-- A record has been written: the mirror shadows it (R596), EVR.LAST_REC shows it, SEVERE is set and an EVENT notification
sent where its severity asks for one (R366, R589). -/
def State.recordWritten (s : State) (r : Record) : State :=
  let mirror := (s.evr.mirror ++ [r]).reverse.take 2048
  let s := { s with evr := { s.evr with mirror := mirror.reverse } }
  let s := (((s.set EVR.LAST_REC.CODE r.code).set EVR.LAST_REC.SEV r.sev).set EVR.LAST_REC.SOURCE r.source).showSeqs
  let s := if s.get EVR.CFG.IRQ_SEV ≤ r.sev then s.evt EVR.EVT.SEVERE 1 Src.EVREC else s
  if s.mbx.noteLevel ≤ r.sev then s.notify 6 r.bytes else s

/-- Give the record its SEQ (R588). -/
def State.sequenced (s : State) (r : Record) : Record × State :=
  ({ r with seq := s.evr.nextSeq }, { s with evr := { s.evr with nextSeq := (s.evr.nextSeq + 1) % 2 ^ 32 } })

/-- Store a record in the durable area at the next slot. -/
def State.storeRecord (s : State) (r : Record) : State :=
  let slot := s.evr.nextSlot
  let next := slotAfter s.evr.retired 64 slot
  let passed (e : Nat × Record) : Bool := e.1 != slot && !(decide (slot < e.1) && decide (e.1 < next) && bit s.evr.retired (e.1 / 128))
  { s with evr := { s.evr with area := s.evr.area.filter passed ++ [(slot, r)], nextSlot := next } }

/-- A record written while DEGRADED (R596): to the mirror with MIRROR set; severity 6 and 7 also to the pending buffer, over
its oldest entry where it is full. -/
def State.mirrorRecord (s : State) (r : Record) : State :=
  let (r, s) := s.sequenced (r.flagged 5)
  let s := s.recordWritten r
  if r.sev < 6 then s
  else
    let keep := if s.evr.pending.length < 8 then s.evr.pending else s.evr.pending.drop 1
    let s := { s with evr := { s.evr with pending := keep ++ [r] } }
    s.set EVR.PEND_STAT.FILL s.evr.pending.length

/-- The recorder becomes DEGRADED (R596): 0 no answer, 1 headers, 2 sixteen sectors, 3 two sectors. -/
def State.degradeRecorder (s : State) (cause : Nat) : State :=
  if s.evr.degraded then s
  else
    let s := { s with evr := { s.evr with degraded := true } }.showRecorder
    let s := s.faultCause GLB.FAULT_STAT.RECORDER GLB.FAULT_EVT.RECORDER true
    let s := s.evt EVR.EVT.MEDIA_FAULT 1 Src.EVREC
    s.mirrorRecord (s.record Evt.RECORDER_MEDIA_FAULT .recorder 0 [cause])

/-- The read-back of a record fails (R595): its sector is retired, and the record goes to the start of the next one. A
sixteenth sector makes the recorder DEGRADED. -/
def State.retireSector (s : State) : State :=
  let sector := s.evr.nextSlot / 128
  let s := { s with evr := { s.evr with retired := setBit s.evr.retired sector } }
  let s := { s with evr := { s.evr with nextSlot := slotAfter s.evr.retired 64 (sector * 128 + 127) } }
  s.showRecorder.evt EVR.EVT.RETIRED 1 Src.EVREC

/-- The SECTOR_RETIRED record (R595, R600). -/
def State.sectorRetired (s : State) (sector : Nat) : State :=
  s.postBy .recorder Evt.SECTOR_RETIRED (sector / 2) [sector, s.retiredCount]

/-- Write a record to durable memory and read it back (R591, R595, R596). -/
def State.writeRecord (s : State) (r : Record) (back : ReadBack) : State :=
  if s.evr.degraded then s.mirrorRecord r
  else
    let sector := s.evr.nextSlot / 128
    match back with
    | .good =>
      let (r, s) := s.sequenced r
      (s.storeRecord r).recordWritten r
    | .retired =>
      let s := s.retireSector
      if 16 ≤ s.retiredCount then (s.degradeRecorder 2).mirrorRecord r
      else
        let (r, s) := s.sequenced r
        ((s.storeRecord r).recordWritten r).sectorRetired sector
    | .twice => ((s.retireSector.retireSector.degradeRecorder 3).mirrorRecord r).sectorRetired sector
    | .noAnswer => (s.degradeRecorder 0).mirrorRecord r

/-- How many records of a code the running second has seen written, and how many suppressed (R594). -/
def State.stormOf (s : State) (code : Nat) : Nat × Nat := match s.evr.storm.find? (fun x => x.1 == code) with | some x => x.2 | none => (0, 0)
def State.setStorm (s : State) (code : Nat) (x : Nat × Nat) : State :=
  { s with evr := { s.evr with storm := s.evr.storm.filter (fun y => y.1 != code) ++ [(code, x)] } }

/-- The limit of a code in one second: 0 acts as 1 (R602). -/
def State.stormLimit (s : State) : Nat := max 1 (s.get EVR.CFG.STORM)

/-- EVENT_POST: the oldest posted record is written, unless its code has reached its limit in this second; a record flushed
from the pending buffer is not limited (R591, R594). Without Decik nothing is written (R16). -/
def execEventPost (back : ReadBack) (s : State) : Host.Outcome State Fault Refusal :=
  .next (if !s.decikRuns then s
    else match s.evr.posted with
      | [] => s
      | r :: t =>
        let s := { s with evr := { s.evr with posted := t } }
        if bit r.sevflags 3 then s.writeRecord r back
        else
          let (w, x) := s.stormOf r.code
          if s.stormLimit ≤ w then (s.count EVR.CNT.SUPPRESSED 1).setStorm r.code (w, x + 1)
          else (s.setStorm r.code (w + 1, x)).writeRecord r back)

/-- The event codes that the power controller, the security block and the boot ROM write (R597, R600). -/
def hardwareEvents : List EvtCode :=
  [Evt.PDW, Evt.PDW_RECOVERED, Evt.BOOT_STRAP_INVALID, Evt.WAKE_TIMEOUT, Evt.WAKE_FAIL, Evt.AMP_RAIL_FAULT, Evt.WAKE_IN_STUCK,
    Evt.TAMPER, Evt.TAMPER_CLEARED, Evt.DECIK_STOP, Evt.DECIK_HALTED, Evt.PWR_ORDER_ERR]

/-- PENDING_POST: a hardware writer posts a record while Decik is not available (R597). -/
def execPendingPost (writer : Fin 3) (code inst : Nat) (data : List Nat) (s : State) : Host.Outcome State Fault Refusal :=
  .next (match hardwareEvents.find? (fun e => e.code == code) with
    | some e => if s.decikRuns then s else s.postBy (if writer = 0 then .power else if writer = 1 then .security else .bootRom) e inst data
    | none => s)

/-- STORM_SECOND_END: OPTIME advances in ACTIVE, QUIET and STARTING (R590), and codes over their limit get one
EVR_SUPPRESSED record each (R594). -/
def execStormSecondEnd (s : State) : Host.Outcome State Fault Refusal :=
  .next (let st := s.get PWR.STAT.STATE
    if !(st == 0 || st == 1 || st == 7) then s
    else
      let s := s.set EVR.OPTIME.SECONDS (satAdd 32 (s.get EVR.OPTIME.SECONDS) 1)
      let stormy := s.evr.storm.filter (fun x => x.2.2 != 0)
      let s := { s with evr := { s.evr with storm := [] } }
      stormy.foldl (fun (s : State) (x : Nat × Nat × Nat) =>
        s.postBy .recorder Evt.EVR_SUPPRESSED 0 (leBytes 2 x.1 ++ leBytes 2 (min x.2.2 0xFFFF))) s)

/-- OPTIME_SAVE: Decik saves the operating seconds (R590). -/
def execOptimeSave (s : State) : Host.Outcome State Fault Refusal :=
  .next (if s.decikRuns then { s with evr := { s.evr with savedOptime := s.get EVR.OPTIME.SECONDS } } else s)

/-- The pending buffer is flushed (R597): its records, in posting order, are written before what is posted later, then
PENDING_OVERFLOW where records were dropped. A DEGRADED recorder keeps it (R596). -/
def State.flushPending (s : State) : State :=
  if s.evr.degraded then s
  else
    let ovf := s.get EVR.PEND_STAT.OVF
    let lost := if ovf = 0 then [] else [s.record Evt.PENDING_OVERFLOW .recorder 0 (leBytes 2 ovf)]
    let s := { s with evr := { s.evr with
      posted := s.evr.pending.map (fun (r : Record) => r.flagged 3) ++ lost ++ s.evr.posted
      pending := [] } }
    (s.set EVR.PEND_STAT.FILL 0).set EVR.PEND_STAT.OVF 0

/-- The newest valid record of the durable area (R592, R593). -/
def State.newest (s : State) : Option (Nat × Record) :=
  (s.evr.area.filter (fun e => e.2.good)).foldl (fun (best : Option (Nat × Record)) (e : Nat × Record) =>
    match best with
    | some b => if seqLater e.2.seq b.2.seq then some e else some b
    | none => some e) none

/-- A clear that lost power between its steps is completed (R599): FIRST_SEQ takes the clear record's SEQ. -/
def State.completeClear (s : State) : State :=
  let cleared := (s.evr.area.map (·.2)).filter (fun (r : Record) => r.good && r.code == Evt.EVR_CLEARED.code && seqLater r.seq s.evr.firstSeq)
  match cleared.getLast? with
  | some r => { s with evr := { s.evr with firstSeq := r.seq, area := s.evr.area.filter (fun e => !seqLater r.seq e.2.seq) } }
  | none => s

/-- The recorder at step 5 of a start (R590, R592, R596, R597): the scan, OPTIME, and the pending buffer. `media`: 0 durable
memory answers, 1 it does not, 2 both headers fail. -/
def State.startRecorder (s : State) (media : Nat) : State :=
  let bad := (s.evr.area.filter (fun e => !e.2.good)).length
  let was := s.evr.degraded
  let s := s.set EVR.CNT.CRC_SKIP (min bad 0xFFFF)
  let s := { s with evr := { s.evr with degraded := false } }.completeClear
  let newest := s.newest
  let optime := max s.evr.savedOptime (match newest with | some e => e.2.optime | none => 0)
  let s := (s.set EVR.OPTIME.SECONDS (optime % 2 ^ 32)).set EVR.PWRCYC.COUNT (s.evr.savedPwrcyc % 2 ^ 32)
  let s := { s with evr := { s.evr with optimeKnown := true } }
  if media = 1 then s.showRecorder.degradeRecorder 0
  else if media = 2 then s.showRecorder.degradeRecorder 1
  else
    let s := match newest with
      | some e => { s with evr := { s.evr with
          nextSlot := slotAfter s.evr.retired 64 e.1
          nextSeq := if seqLater s.evr.nextSeq e.2.seq then s.evr.nextSeq else (e.2.seq + 1) % 2 ^ 32 } }
      | none => s
    let s := s.showRecorder.showSeqs.flushPending
    if was then (s.faultCause GLB.FAULT_STAT.RECORDER GLB.FAULT_EVT.RECORDER false).postBy .recorder Evt.RECORDER_RESUMED 0 [] else s

/-- EVR_CLEAR's steps (R599): the clear record of SEQ n, FIRST_SEQ = n, older records zeroed; n is the answer. -/
def State.clearRecorder (s : State) (channel : Nat) : Nat × State :=
  let last := s.get EVR.LAST_SEQ.SEQ
  let r := s.record Evt.EVR_CLEARED .recorder channel (leBytes 4 (s.get EVR.FIRST_SEQ.SEQ) ++ leBytes 4 last)
  let (r, s) := s.sequenced r
  let s := s.storeRecord r
  let s := { s with evr := { s.evr with firstSeq := r.seq, area := s.evr.area.filter (fun e => e.2.seq == r.seq) } }
  (r.seq, (s.recordWritten r).evt EVR.EVT.CLEARED 1 Src.EVREC)

end Sys2Proof.Machine
end

