-- ==== Sys2Proof/Machine/Links.lean ====
section
/-! DEFINITION. The coupler links: training, qualification, loss and lane tests (chapter 02, R55 to R74). -/

namespace Sys2Proof.Machine

/-- SIGNAL_DETECTED (R59): signal for 10 µs moves DETECT to TRAIN. -/
def State.signalDetected (s : State) (n : LinkIx) : State :=
  let s := s.setFlag (RING.LINKSTAT.LOS n) false
  (if s.linkState n == Lk.detect then s.linkTo n Lk.train else s)

/-- BLOCK_LOCK_ACQUIRED (R59, R64, R68): 64 valid sync headers move TRAIN to LOCK; the latencies are measured, each at
most 125 UI. -/
def State.blockLockAcquired (s : State) (n : LinkIx) (ptUi loopUi : Nat) : State :=
  let s := s.setFlag (RING.LINKSTAT.BLOCK_LOCK n) true
  (if s.linkState n == Lk.train then
      let s := (s.set (RING.LINKLAT.PT_UI n) (min ptUi 125)).set (RING.LINKLAT.LOOP_UI n) (min loopUi 125)
      (s.linkTo n Lk.lock).linkLockCheck n
    else s)

/-- TRAIN_TIMEOUT (R59): no block lock within 5 ms returns TRAIN to DETECT and counts a restart. -/
def State.trainTimeout (s : State) (n : LinkIx) : State :=
  (if s.linkState n == Lk.train then (s.qualRestart n).linkTo n Lk.detect else s)

/-- LOSS_OF_SIGNAL (R59 to R61): in TRAIN or LOCK back to DETECT with a restart counted; in QUALIFYING a receive error;
in QUALIFIED or IN_RING a link loss. -/
def State.lossOfSignal (s : State) (n : LinkIx) : State :=
  let s := (s.setFlag (RING.LINKSTAT.LOS n) true).setFlag (RING.LINKSTAT.BLOCK_LOCK n) false
  (if s.linkState n == Lk.train || s.linkState n == Lk.lock then (s.qualRestart n).linkTo n Lk.detect
    else if s.linkState n == Lk.qualifying then s.linkQualError n false
    else if s.linkUp n then s.linkLost n Lk.detect
    else s)

/-- BLOCK_LOCK_LOST (R59 to R61): 16 invalid sync headers within 64 blocks: in LOCK back to TRAIN with a restart counted,
in QUALIFYING a receive error with the lock gone, in QUALIFIED or IN_RING a link loss. -/
def State.blockLockLost (s : State) (n : LinkIx) : State :=
  let s := s.setFlag (RING.LINKSTAT.BLOCK_LOCK n) false
  (if s.linkState n == Lk.lock then (s.qualRestart n).linkTo n Lk.train
    else if s.linkState n == Lk.qualifying then s.linkQualError n false
    else if s.linkUp n then s.linkLost n Lk.detect
    else s)

/-- QUAL_TIMER_EXPIRY (R59, R60): the timer is held at QUAL_MS and the own qualified flag set; the link qualifies at once
where the partner's flag is set already. -/
def execQualTimerExpiry (n : LinkIx) (s : State) : Host.Outcome State Fault Refusal :=
  .next (if s.linkState n == Lk.qualifying then (s.setLink n { s.link n with ownQual := true }).linkQualCheck n else s)

/-- QUAL_RECEIVE_ERROR (R60, R61): in QUALIFYING the qualification restarts; in QUALIFIED and IN_RING the error is
counted; elsewhere nothing. -/
def State.qualReceiveError (s : State) (n : LinkIx) (e : RxError) : State :=
  let los := e == .lossOfSignal
  (if s.linkState n == Lk.qualifying then
      let s := if los then (s.setFlag (RING.LINKSTAT.LOS n) true).setFlag (RING.LINKSTAT.BLOCK_LOCK n) false else s
      s.linkQualError n (s.flag (RING.LINKSTAT.BLOCK_LOCK n))
    else if s.linkUp n then s.count (RING.LINKERR.ERR_CNT n) 1
    else s)

/-- LINK_LOSS (R61): a QUALIFIED or IN_RING link is lost. -/
def State.linkLossEvent (s : State) (n : LinkIx) : State :=
  (if s.linkUp n then s.linkLost n Lk.detect else s)

/-- STATUS_BLOCK_MISSING (R61): no status block in IN_RING for 2 ticks, or in QUALIFIED for 256 blocks, ends the link. -/
def execStatusBlockMissing (n : LinkIx) (s : State) : Host.Outcome State Fault Refusal :=
  .next (if s.linkUp n then s.linkLost n Lk.detect else s)

/-- LOOPBACK_CLOSE (R65): the closure that a loss scheduled happens at the idle gap. -/
def execLoopbackClose (n : LinkIx) (s : State) : Host.Outcome State Fault Refusal :=
  .next (if (s.link n).closePend then
      (s.setFlag (RING.LINKSTAT.LOOP n) true).setLink n { s.link n with closePend := false }
    else s)

/-- TXEQ_APPLY (R56): the swing and de-emphasis of RING.TXEQn take effect; DEEMPH above 0xC acts as 0xC. -/
def State.txeqApply (s : State) (n : LinkIx) : State :=
  (s.setLink n { s.link n with
    swing := s.get (RING.TXEQ.SWING n), deemph := min (s.get (RING.TXEQ.DEEMPH n)) 0xC })

/-- A PRBS lane test runs on the link (R71): TEST with MODE 0b10 or 0b11. -/
def State.prbsRuns (s : State) (n : LinkIx) : Bool :=
  s.linkState n == Lk.test && decide (2 ≤ s.get (RING.LTEST.MODE n))

/-- PRBS_CHECKER_LOCK (R72): the checker has synchronised. -/
def State.prbsLock (s : State) (n : LinkIx) : State :=
  (if s.prbsRuns n then s.setFlag (RING.LTEST.CHK_LOCK n) true else s)

/-- PRBS_CHECKER_RESYNC (R72): 32 errored bits within 64, each counted, clear CHK_LOCK. -/
def State.prbsResync (s : State) (n : LinkIx) : State :=
  (if s.prbsRuns n && s.flag (RING.LTEST.CHK_LOCK n) then
      (s.count (RING.PRBS_ERR.ERR n) 32).setFlag (RING.LTEST.CHK_LOCK n) false
    else s)

/-- LINK_DISABLE_WRITE (R59, R73): the DISABLE bits; a bit that rises holds its link in DISABLED, one that falls lets it
go to DETECT where its line is enabled. -/
def linkDisable (s : State) (n : LinkIx) (on : Bool) : State :=
  let s := s.putBit RING.LINK_CTRL.DISABLE n.val on
  if on then
    if s.linkUp n then s.linkLost n Lk.disabled else s.linkTo n Lk.disabled
  else if s.linkState n == Lk.disabled && s.linkEnabled n then s.linkTo n Lk.detect
  else s

/-- Writing RETRAIN (R59, R73) sends the link to DETECT, as a loss if it was QUALIFIED or IN_RING; it reads 1 until
training starts. -/
def linkRetrain (s : State) (n : LinkIx) : State :=
  if s.linkState n == Lk.disabled then s
  else
    let s := s.putBit RING.LINK_CTRL.RETRAIN n.val true
    if s.linkUp n then s.linkLost n Lk.detect else s.linkTo n Lk.detect

/-- LINK_DISABLE_WRITE (R73). -/
def execLinkDisableWrite (n : LinkIx) (on : Bool) (s : State) : Host.Outcome State Fault Refusal :=
  .next (s.access RING.LINK_CTRL.off (fun s => if s.getBit RING.LINK_CTRL.DISABLE n.val == on then s else linkDisable s n on))

/-- LINK_RETRAIN_WRITE (R73). -/
def execLinkRetrainWrite (n : LinkIx) (s : State) : Host.Outcome State Fault Refusal :=
  .next (s.access RING.LINK_CTRL.off (fun s => linkRetrain s n))

/-- A write of LTESTn.MODE (R71, R72): refused and counted while the link is QUALIFIED or IN_RING and the mode would
change; a change clears the counters; the test runs in TEST, and MODE 0b00 returns the link to DETECT. -/
def laneTestMode (s : State) (n : LinkIx) (mode : Nat) : State :=
  if s.get (RING.LTEST.MODE n) == mode % 4 then s
  else if s.linkUp n then s.count RING.LINK_EVT.TEST_REFUSED 1
  else
    let s := ((s.set (RING.LTEST.MODE n) mode).set (RING.PRBS_ERR.ERR n) 0).set (RING.PRBS_BITS.BITS n) 0
    let s := s.setFlag (RING.LTEST.CHK_LOCK n) false
    if mode % 4 != 0 then
      (if decide (s.linkState n ≤ Lk.lock) then s.linkTo n Lk.test else s)
    else if s.linkState n == Lk.test then s.linkTo n Lk.detect
    else s

/-- PRBS_INJECT_WRITE (R71, R72): one transmitted bit inverted while the PRBS test runs; in the near-end loopback the
node's own checker counts it; the bit reads 0 once done. -/
def State.prbsInject (s : State) (n : LinkIx) : State :=
  (if s.prbsRuns n then
      let s := s.emit (.prbsInvert n.val)
      if s.get (RING.LTEST.MODE n) == 3 && s.flag (RING.LTEST.CHK_LOCK n) then s.count (RING.PRBS_ERR.ERR n) 1 else s
    else s)

end Sys2Proof.Machine
end

