-- ==== Sys2Proof/Machine/Stack.lean ====
section
/-! DEFINITION. Car stacks (chapter 15, R480 to R496), and the training of all six links of the node: stack links train as
coupler links do (R482). -/

namespace Sys2Proof.Machine

/-! ## Roles -/

/-- Is the node a stack member, or a car head that serves members (R480)? -/
def State.isMember (s : State) : Bool := s.get STK.STAT.ROLE == 1
def State.isHead (s : State) : Bool := s.get STK.STAT.ROLE == 0

def State.member (s : State) (sub : Nat) : MemberSt := s.stk.members.getD (sub - 1) ⟨[], [], 0, 0, false, false⟩
def State.setMember (s : State) (sub : Nat) (m : MemberSt) : State :=
  { s with stk := { s.stk with members := s.stk.members.set (sub - 1) m } }

/-- Is the sub-position an admitted member? -/
def State.admitted (s : State) (sub : Nat) : Bool :=
  decide (1 ≤ sub) && decide (sub ≤ 3) && s.flag (STK.MEMBER_STAT.ADMITTED sub)

/-- Set an event bit of STK.EVT: STACK_EVENT. -/
def State.stackEvt (s : State) (f : Fld) : State := s.evt f 1 Src.STACK_EVENT

/-! ## Stack links (R482) -/

/-- Link state of stack port `p`: 0 STACK_UP, 1 STACK_DOWN. -/
def State.stackLink (s : State) (p : Nat) : Nat := s.get (STK.LINKSTAT.STATE p)
def State.stackTo (s : State) (p st : Nat) : State := s.set (STK.LINKSTAT.STATE p) st

/-- May the port run: the STACK domain on, and a role that has stack ports (R480)? -/
def State.stackPorts (s : State) : Bool := s.domOn Dom.stack && decide (s.get STK.STAT.ROLE < 2)

/-- The loss of a stack link in service (R61, R482, R494): counted; a member without its upstream link is in holdover. -/
def State.stackLost (s : State) (p goal : Nat) : State :=
  let s := (s.count (STK.LINKERR.LOSS_CNT p) 1).stackTo p goal
  if p = 0 && s.isMember then
    let s := (s.setFlag STK.STAT.TIME_LOCK false).stackEvt STK.EVT.HEAD_LOST
    let s := { s with stk := { s.stk with timeRun := 0 } }
    if s.inSync then (s.setFlag SYNC.STAT.HOLDOVER true).set SYNC.SLEW_REM.REM 0 else s
  else s.set STK.MEMBER_MAP.PRESENT 0

/-- Enable or disable a stack port (units of class STACK_PORT). -/
def State.stackEnable (s : State) (p : Nat) (on : Bool) : State :=
  if !s.stackPorts then s
  else if on then (if s.stackLink p == Lk.disabled then s.stackTo p Lk.detect else s)
  else if s.stackLink p == Lk.inRing then s.stackLost p Lk.disabled
  else s.stackTo p Lk.disabled

/-- Training events at a stack port. -/
def State.stackSignal (s : State) (p : Nat) : State :=
  let s := s.setFlag (STK.LINKSTAT.LOS p) false
  if s.stackLink p == Lk.detect then s.stackTo p Lk.train else s

def State.stackBlockLock (s : State) (p latUi : Nat) : State :=
  let s := s.setFlag (STK.LINKSTAT.BLOCK_LOCK p) true
  if s.stackLink p == Lk.train then
    let s := (s.set (STK.LINKSTAT.LAT_UI p) (min latUi 125)).stackTo p Lk.lock
    if p = 0 && s.isMember then s.set STK.TIME.HOP_DLY latUi else s
  else s

def State.stackTrainTimeout (s : State) (p : Nat) : State := if s.stackLink p == Lk.train then s.stackTo p Lk.detect else s

def State.stackSignalLost (s : State) (p : Nat) : State :=
  let s := (s.setFlag (STK.LINKSTAT.LOS p) true).setFlag (STK.LINKSTAT.BLOCK_LOCK p) false
  if s.stackLink p == Lk.inRing then s.stackLost p Lk.detect
  else if s.stackLink p == Lk.train || s.stackLink p == Lk.lock then s.stackTo p Lk.detect
  else s

def State.stackBlockLost (s : State) (p : Nat) : State :=
  let s := s.setFlag (STK.LINKSTAT.BLOCK_LOCK p) false
  if s.stackLink p == Lk.inRing then s.stackLost p Lk.detect
  else if s.stackLink p == Lk.lock then s.stackTo p Lk.train
  else s

def State.stackRxError (s : State) (p : Nat) : State :=
  if s.stackLink p == Lk.inRing then s.count (STK.LINKERR.ERR_CNT p) 1 else s

def State.stackLinkLoss (s : State) (p : Nat) : State := if s.stackLink p == Lk.inRing then s.stackLost p Lk.detect else s

def State.stackTxeq (s : State) (p : Nat) : State :=
  { s with stk := { s.stk with eq := s.stk.eq.set p (s.get (STK.TXEQ.SWING p), min (s.get (STK.TXEQ.DEEMPH p)) 0xC) } }

/-- Lane tests of a stack port (R71, R72, R482): the mode is locked while the link is in service. -/
def State.stackPrbs (s : State) (p : Nat) : Bool := s.stackLink p == Lk.test && decide (2 ≤ s.get (STK.LTEST.MODE p))

def State.stackLaneMode (s : State) (p mode : Nat) : State :=
  if s.get (STK.LTEST.MODE p) == mode % 4 || s.stackLink p == Lk.inRing then s
  else
    let s := ((s.set (STK.LTEST.MODE p) mode).set (STK.PRBS_ERR.ERR p) 0).set (STK.PRBS_BITS.BITS p) 0
    let s := s.setFlag (STK.LTEST.CHK_LOCK p) false
    if mode % 4 != 0 then s.stackTo p Lk.test
    else if s.stackLink p == Lk.test then s.stackTo p Lk.detect
    else s

def State.stackPrbsLock (s : State) (p : Nat) : State := if s.stackPrbs p then s.setFlag (STK.LTEST.CHK_LOCK p) true else s

def State.stackPrbsResync (s : State) (p : Nat) : State :=
  if s.stackPrbs p && s.flag (STK.LTEST.CHK_LOCK p) then
    (s.count (STK.PRBS_ERR.ERR p) 32).setFlag (STK.LTEST.CHK_LOCK p) false
  else s

def State.stackInject (s : State) (p : Nat) : State :=
  if s.stackPrbs p then
    let s := s.emit (.prbsInvert (4 + p))
    if s.get (STK.LTEST.MODE p) == 3 && s.flag (STK.LTEST.CHK_LOCK p) then s.count (STK.PRBS_ERR.ERR p) 1 else s
  else s

/-! ## Training of the six links -/

/-- A port is a coupler link or a stack port. -/
def onPort (n : PortIx) (coupler : LinkIx → State) (stack : Nat → State) : State :=
  if h : n.val < 4 then coupler ⟨n.val, h⟩ else stack (n.val - 4)

/-- The register of a port's kind. -/
def portReg (n : PortIx) (coupler stack : Nat) : Nat := if n.val < 4 then coupler else stack

/-- SIGNAL_DETECTED (R59). -/
def execSignalDetected (n : PortIx) (s : State) : Host.Outcome State Fault Refusal :=
  .next (onPort n s.signalDetected s.stackSignal)

/-- BLOCK_LOCK_ACQUIRED (R59, R64, R68, R482). -/
def execBlockLockAcquired (n : PortIx) (ptUi loopUi : Nat) (s : State) : Host.Outcome State Fault Refusal :=
  .next (onPort n (fun m => s.blockLockAcquired m ptUi loopUi) (fun p => s.stackBlockLock p ptUi))

/-- TRAIN_TIMEOUT (R59). -/
def execTrainTimeout (n : PortIx) (s : State) : Host.Outcome State Fault Refusal :=
  .next (onPort n s.trainTimeout s.stackTrainTimeout)

/-- LOSS_OF_SIGNAL (R59 to R61). -/
def execLossOfSignal (n : PortIx) (s : State) : Host.Outcome State Fault Refusal :=
  .next (onPort n s.lossOfSignal s.stackSignalLost)

/-- BLOCK_LOCK_LOST (R59 to R61). -/
def execBlockLockLost (n : PortIx) (s : State) : Host.Outcome State Fault Refusal :=
  .next (onPort n s.blockLockLost s.stackBlockLost)

/-- QUAL_RECEIVE_ERROR (R60, R61). -/
def execQualReceiveError (n : PortIx) (e : RxError) (s : State) : Host.Outcome State Fault Refusal :=
  .next (onPort n (fun m => s.qualReceiveError m e) s.stackRxError)

/-- LINK_LOSS (R61). -/
def execLinkLoss (n : PortIx) (s : State) : Host.Outcome State Fault Refusal :=
  .next (onPort n s.linkLossEvent s.stackLinkLoss)

/-- TXEQ_APPLY (R56). -/
def execTxeqApply (n : PortIx) (s : State) : Host.Outcome State Fault Refusal :=
  .next (onPort n s.txeqApply s.stackTxeq)

/-- PRBS_CHECKER_LOCK (R72). -/
def execPrbsCheckerLock (n : PortIx) (s : State) : Host.Outcome State Fault Refusal :=
  .next (onPort n s.prbsLock s.stackPrbsLock)

/-- PRBS_CHECKER_RESYNC (R72). -/
def execPrbsCheckerResync (n : PortIx) (s : State) : Host.Outcome State Fault Refusal :=
  .next (onPort n s.prbsResync s.stackPrbsResync)

/-- LANE_TEST_MODE_WRITE (R71). -/
def execLaneTestModeWrite (n : PortIx) (mode : Fin 4) (s : State) : Host.Outcome State Fault Refusal :=
  .next (s.access (portReg n (RING.LTEST.off 0) (STK.LTEST.off 0)) (fun s =>
    onPort n (fun m => laneTestMode s m mode.val) (fun p => s.stackLaneMode p mode.val)))

/-- PRBS_INJECT_WRITE (R71, R72). -/
def execPrbsInjectWrite (n : PortIx) (s : State) : Host.Outcome State Fault Refusal :=
  .next (s.access (portReg n (RING.LTEST.off 0) (STK.LTEST.off 0)) (fun s => onPort n s.prbsInject s.stackInject))

/-! ## Admission (R481 to R483) -/

/-- A conflict in the chain: the link stays in DETECT, CONFLICT is set (R481); on the port of a twin it is recorded (R482). -/
def State.stackConflict (s : State) (p : Nat) (record : Bool) : State :=
  let s := ((s.stackTo p Lk.detect).setFlag STK.STAT.CONFLICT true).stackEvt STK.EVT.CONFLICT
  if record then s.post Evt.STACK_CONFLICT p [] else s

/-- MEMBER_AUTH (R483): a right tag and a UID in the member list of the claim table allow a member. -/
def State.memberAuth (s : State) (e : Nat × DWord × Bool) : State :=
  let (sub, uid, tagOk) := e
  if sub < 1 || 3 < sub then s
  else
    let i := sub - 1
    let ok := tagOk && s.cfg.image.members.contains uid.toNat
    let s := (s.setFlag (STK.MEMBER_STAT.PRESENT sub) true).putBit STK.MEMBER_MAP.PRESENT i true
    let s := s.set64 (STK.MEMBER_UID_LO.UID sub) (STK.MEMBER_UID_HI.UID sub) uid.toNat
    let s := (s.setFlag (STK.MEMBER_STAT.ADMITTED sub) ok).putBit STK.MEMBER_MAP.ADMITTED i ok
    let s := (s.setFlag (STK.MEMBER_STAT.AUTH_FAIL sub) (!ok)).putBit STK.MEMBER_MAP.AUTH_FAIL i (!ok)
    let s := s.set STK.STAT.MEMBERS (popcount 3 (s.get STK.MEMBER_MAP.ADMITTED))
    if ok then (s.setMember sub ⟨[], [], 0, 0, false, false⟩).stackEvt STK.EVT.MEMBER_JOIN
    else (s.stackEvt STK.EVT.AUTH_FAIL).post Evt.STACK_AUTH_FAIL sub (leBytes 8 uid.toNat)

/-- STACK_LINK_IN_SERVICE (R481 to R483): a member learns its sub-position; the head authenticates the members behind the
link. A link in service is valid communication (R559). -/
def execStackLinkInService (down : Bool) (upstream : Nat) (conflict : Bool) (members : List (Nat × DWord × Bool)) (s : State) :
    Host.Outcome State Fault Refusal :=
  let p := if down then 1 else 0
  .next (if !s.stackPorts || s.stackLink p == Lk.disabled || s.stackLink p == Lk.inRing then s
    else if down && s.twinOn && !members.isEmpty then s.stackConflict p true
    else if !down && s.isMember && (conflict || decide (3 ≤ upstream)) then s.stackConflict p false
    else
      let s := ((s.stackTo p Lk.inRing).setFlag (STK.LINKSTAT.BLOCK_LOCK p) true).setFlag (STK.LINKSTAT.LOS p) false
      let s := s.validComm
      if !down && s.isMember then s.set STK.STAT.SUB (upstream + 1)
      else if down && s.isHead then members.foldl (fun (s : State) (e : Nat × DWord × Bool) => s.memberAuth e) s
      else s)

/-! ## Writing for members (R485 to R489) -/

/-- The rows of a member's record in the layout in force: table index of each stream bound to this position (R484, R494). -/
def boundRows (rows : List OwnRow) (pos : Nat) (l : List (Nat × List Nat)) : List (Nat × List Nat) :=
  l.filterMap (fun e => (rows.find? (fun r => r.pos == pos && r.stream == e.1)).map (fun r => (r.index, e.2)))

/-- The bytes of every admitted member's record in a staging, by stream under the layout given (R487, R494). -/
def State.placeMembers (s : State) (l : Layout) (p : Nat) (b : Bytes) : Bytes :=
  [1, 2, 3].foldl (fun (b : Bytes) (sub : Nat) =>
    if s.isHead && s.admitted sub then
      let m := s.member sub
      let b := (boundRows l.wafers p m.wafers).foldl (fun (b : Bytes) (e : Nat × List Nat) => b.setSlice (waferOff e.1) (e.2.take 4)) b
      (boundRows l.units p m.units).foldl (fun (b : Bytes) (e : Nat × List Nat) => b.setSlice (unitOff e.1) (e.2.take 16)) b
    else b) b

/-- STALE on a wafer that had VALID = 1 (R94); with `lost` it gets VALID = 0 (R488). -/
def staleWaferBytes (lost : Bool) (b : List Nat) : List Nat :=
  match b with
  | x :: t => (if lost then clrBit x 7 else staleWafer x) :: t
  | [] => []

/-- STALE in the PTAG, byte 15, of a process unit that had VALID = 1 (R94). -/
def staleUnitBytes (b : List Nat) : List Nat := b.take 15 ++ (b.drop 15).map stalePtag

/-- MEMBER_RECORD_RECEIVE (R487, R489): a complete record with a right CRC, by 18.0 us after the boundary. -/
def execMemberRecordReceive (r : MemberRecord) (s : State) : Host.Outcome State Fault Refusal :=
  .next (if !s.isHead || !s.admitted r.sub || !r.good || decide (18000 < r.phaseNs) || r.tick != (s.tickSeq + 1) % 2 ^ 32 then s
    else
      let s := s.setMember r.sub ⟨r.wafers, r.units, r.alarm, 0, false, r.hold⟩
      let n := 36 + 4 * r.wafers.length + 16 * r.units.length + 256 * r.cells.length
      let s := (s.set (STK.MEMBER_STAT.REC_BYTES r.sub) n).setFlag (STK.MEMBER_STAT.LOCKED r.sub) r.locked
      let seq := s.ring.cseq
      let s := (r.cells.take 5).foldl (fun (s : State) (c : Bytes) => s.queueCell (c.setAt 3 r.sub)) s
      { s with ring := { s.ring with cseq := seq } })

/-- The head writes a member's bytes of the frame before, STALE (R487); the wafers of a lost member with VALID = 0 (R488). -/
def State.memberRepeat (s : State) (sub : Nat) : State :=
  let m := s.member sub
  s.setMember sub { m with
    wafers := m.wafers.map (fun e => (e.1, staleWaferBytes m.lost e.2)),
    units := m.units.map (fun e => (e.1, staleUnitBytes e.2)) }

/-- MEMBER_RECORD_LATE (R487). -/
def execMemberRecordLate (sub : Fin 4) (s : State) : Host.Outcome State Fault Refusal :=
  .next (if !s.isHead || !s.admitted sub then s
    else
      let s := s.memberRepeat sub
      let m := s.member sub
      let s := s.setMember sub { m with missRun := m.missRun + 1 }
      (s.count (STK.MEMBER_CNT.LATE_CNT sub.val) 1).stackEvt STK.EVT.RECORD_LATE)

/-- MEMBER_LOST (R488): 48 ticks without a valid record. -/
def execMemberLost (sub : Fin 4) (s : State) : Host.Outcome State Fault Refusal :=
  .next (let m := s.member sub
    if !s.isHead || !s.admitted sub || m.lost || decide (m.missRun < 48) then s
    else
      let s := (s.setMember sub { m with lost := true }).memberRepeat sub
      let s := ((s.count (STK.MEMBER_CNT.LOST_CNT sub.val) 1).putBit STK.MEMBER_MAP.PRESENT (sub.val - 1) false).setFlag
        (STK.MEMBER_STAT.PRESENT sub.val) false
      (s.stackEvt STK.EVT.MEMBER_LOST).post Evt.STACK_MEMBER_LOST sub.val [])

/-- The alarm bits of every admitted member's last record (R488). -/
def State.memberAlarms (s : State) : Nat :=
  [1, 2, 3].foldl (fun a sub => if s.admitted sub then Nat.lor a (s.member sub).alarm else a) 0

/-! ## Reading at a member (R490, R493) -/

/-- RING_IMAGE_RECEIVE (R490): the audio part counts where it is intact by 7.0 us; control and process data follow. A held
layout image takes effect with the LAYOUT number of the image (notes/assumptions/45.md). -/
def execRingImageReceive (r : RingImage) (s : State) : Host.Outcome State Fault Refusal :=
  .next (if !s.isMember then s
    else
      let s := (s.set RING.ENG_STAT.TOPO r.topo).set RING.LAYOUT.LAYOUT_VER r.layout
      let s := s.set RING.ENG_STAT.POSITION r.position
      let s := match s.inaug.image with
        | some l => if l.version = r.layout then
            { s with ring := { s.ring with layout := some l }, inaug := { s.inaug with image := none } } else s
        | none => s
      let s := match r.sleep with | some t => s.agreeSleep t | none => s
      let audio := r.audioOk && decide (r.phaseNs ≤ 7000)
      let b := if audio then r.bytes else (r.bytes.clear 448 2048).overlay (s.ring.merged.window 448 2048 448)
      let s := { s with ring := { s.ring with merged := b, mergedTseq := r.tick } }
      if audio then s.readRing s.clk.n else s)

/-- RING_IMAGE_LATE (R490): every ring input is concealed for the tick, and IMG_LATE set. -/
def execRingImageLate (s : State) : Host.Outcome State Fault Refusal :=
  .next (if !s.isMember then s
    else (s.aud.ringTable.foldl (fun (s : State) (e : Nat × Nat) => s.deliverRepeat e.1 s.clk.n) s).stackEvt STK.EVT.IMG_LATE)

/-- STACK_TIME_MARKER (R493): the member takes the head's tick number, a step with the head's, and is LOCKED only while the
head is and its own error has been within 5 ns for 48 ticks. -/
def execStackTimeMarker (n : Nat) (ofsNs : Int) (headLocked : Bool) (s : State) : Host.Outcome State Fault Refusal :=
  .next (if !s.isMember then s
    else
      let s := s.set STK.TIME.OFS_NS (ofSigned 16 (satSigned 16 ofsNs))
      let s := if n = s.clk.n then s
        else
          let s := s.stepTime (((n : Int) - (s.clk.n : Int)) * 62500)
          ({ s with clk := { s.clk with n := n } }).set GLB.TICK_SEQ.SEQ (n % 2 ^ 32)
      let near := decide (-5 ≤ ofsNs) && decide (ofsNs ≤ 5)
      let run := if near then min (s.stk.timeRun + 1) 48 else 0
      let s := { s with stk := { s.stk with timeRun := run } }
      let s := s.setFlag STK.STAT.TIME_LOCK (decide (48 ≤ run))
      let lock := decide (48 ≤ run) && headLocked
      if lock && !s.inSync then s.enterLocked
      else if !lock && s.inSync then s.leaveLocked 1 0
      else s.setFlag SYNC.STAT.HOLDOVER false)

/-! ## The domain -/

/-- The role that the strap gives (R480): a member's lines are off. -/
def State.stackStrap (s : State) : State :=
  let r := s.straps.stackRole
  let s := s.set STK.STAT.ROLE r
  if r = 1 then s.set RING.PORT_CFG.LINE_EN 0 else s

/-- The STACK domain loses power: its registers reset but ROLE (R496). -/
def State.stackDown (s : State) : State :=
  let role := s.get STK.STAT.ROLE
  let s := if s.stackLink 0 == Lk.inRing then s.stackLost 0 Lk.disabled else s
  { (s.resetRegs 0x12000 0x13000).set STK.STAT.ROLE role with stk := StackSt.reset }

end Sys2Proof.Machine
end

