-- ==== Sys2Proof/Machine/Power.lean ====
section
/-! DEFINITION. The power controller (chapter 16): states, entry to STANDBY, wake events and the wake sequence, performance
points, amplifier rails and residency (R497 to R524). -/

namespace Sys2Proof.Machine

/-! ## States (R502, R505) -/

abbrev Pw.active : Nat := 0
abbrev Pw.quiet : Nat := 1
abbrev Pw.standby : Nat := 2
abbrev Pw.sleep : Nat := 3
abbrev Pw.entering : Nat := 4
abbrev Pw.waking : Nat := 5
abbrev Pw.wakeFail : Nat := 6
abbrev Pw.starting : Nat := 7

/-- Service modes (R542). -/
abbrev Mode.normal : Nat := 0
abbrev Mode.startUp : Nat := 1
abbrev Mode.test : Nat := 2
abbrev Mode.recovery : Nat := 3

def State.pwrState (s : State) : Nat := s.get PWR.STAT.STATE
def State.mode (s : State) : Nat := s.get PWR.STAT.MODE

/-- In service: ACTIVE or QUIET. -/
def State.awake (s : State) : Bool := s.pwrState == Pw.active || s.pwrState == Pw.quiet

/-- Enter a power state: PWR.STAT.STATE and its event (R523). -/
def State.powerTo (s : State) (st : Nat) : State := (s.set PWR.STAT.STATE st).evt PWR.EVT.STATE_CHG 1 Src.PWR_STATE

/-- The level of a domain: 0 OFF, 1 REDUCED, 2 ON (R497). -/
def State.setLevel (s : State) (d level : Nat) : State :=
  let s := s.set (PWR.VOTE.LEVEL d) level
  if d = Dom.audioIo then s.setFlag AUD.STAT.IO_ON (decide (level = 2)) else s

/-- Levels of all domains at once. -/
def State.setLevels (s : State) (f : Nat → Nat) : State :=
  (List.range 11).foldl (fun (s : State) (i : Nat) => s.setLevel (i + 1) (f (i + 1))) s

/-! ## What a node keeps while CORE is down (R524, R527, R587, R602, R612, R620) -/

/-- Registers of the AO domain: they keep their values through every state and reset but a power-on reset. -/
def aoReg (off : Nat) : Bool :=
  off == GLB.RST_CAUSE.off || off == GLB.RST_CNT.off || off == GLB.STRAPS.off || off == GLB.UID_LO.off || off == GLB.UID_HI.off ||
  off == STORE.SLEEP_CNT.off || (decide (STORE.EXT_CRC.off 0 ≤ off) && decide (off < STORE.EXT_CRC.off 16)) || off == 0x10084 ||
  off == SEC.TMP_CFG.off || off == SEC.TMP_CNT.off || off == EVR.OPTIME.off || off == EVR.PWRCYC.off || off == EVR.PEND_STAT.off ||
  off == TST.BIST_STAT.off || (decide (TST.MISR.off 0 ≤ off) && decide (off < TST.MISR.off 4)) || off == TST.MBIST_FAIL.off || off == TST.MBIST_CNT.off ||
  (decide (0x17000 ≤ off) && decide (off < 0x18000)) ||
  (decide (0x13000 ≤ off) && decide (off < 0x14000) && off != PWR.PERF.off && !(decide (0x13100 ≤ off) && decide (off < 0x13160)) &&
    off != PWR.IDLE_S.off && off != PWR.HOLDER_MAP.off && off != PWR.ACK_MAP.off && off != PWR.HOLDER_LO.off && off != PWR.HOLDER_HI.off)

/-- The recorder without its domain: the durable area and the pending buffer stay, what was posted and not written is lost. -/
def EvrSt.kept (e : EvrSt) : EvrSt := { e with posted := [], storm := [] }

/-- Every domain but AO loses power: registers read as at reset but those of AO and those that `keep` names; the durable
memory, OTP, the AO domain and, where its banks are retained, the store stay (R498, R527). -/
def State.dark (s : State) (keep : Nat → Bool) : State :=
  let tamper := s.flag SEC.STAT.TAMPER
  let cause := s.get SEC.STAT.CAUSE
  let role := s.get STK.STAT.ROLE
  let gen := s.flag SEC.STAT.GEN_TX
  let head := s.get AUD.REC_HEAD.UNIT
  let locked := s.word AUD.REC_LOCKED.off
  let d : State := { State.reset with
    pending := s.pending
    free := s.free
    outbox := s.outbox
    regs := s.regs.filter (fun e => aoReg e.1 || keep e.1)
    store := s.store
    totals := s.totals
    mem := s.mem
    cfg := { s.cfg with loaded := none, image := Config.Image.none, confirmAt := none, rollTo := none, twinHas := false, inForce := false }
    straps := s.straps
    uid := s.uid
    decik := { State.reset.decik with upTicks := s.decik.upTicks }
    ring := { RingSt.reset with nonceEnd := if gen then s.sec.otherNonce else s.ring.nonceEnd }
    dring := s.dring
    vox := { VoxSt.reset with
      clips := s.vox.clips
      recUnits := s.vox.recUnits
      pmon := s.vox.pmon.map (fun (p : PmonSt) => { p with low := 0, high := 0, commission := none }) }
    rtc := s.rtc
    pins := s.pins
    evr := s.evr.kept
    can := { CanSt.reset with wake := s.can.wake }
    pwr := s.pwr
    net := s.net
    sec := { s.sec with
      op := none
      challenges := []
      sources := []
      otherNonce := if gen then s.ring.nonceEnd else s.sec.otherNonce }
    dio := s.dio }
  let d := ((d.setFlag SEC.STAT.TAMPER tamper).set SEC.STAT.CAUSE cause).set STK.STAT.ROLE role
  (d.set AUD.REC_HEAD.UNIT head).setWord AUD.REC_LOCKED.off locked

/-- Registers of the store that follow the array: bank states (R319). -/
def arrayReg (off : Nat) : Bool := off == STORE.BANK_STAT.off 0 || off == STORE.BANK_STAT.off 1

/-- Registers of the wake detectors that STANDBY keeps: the Praline slots with the MAC address they match, and the CAN wake
setting (R435, R450, R475). -/
def detectorReg (praline : Bool) (off : Nat) : Bool :=
  (praline && [0, 1].any (fun p => (decide (ETH.PRALINE_STAT.off p ≤ off) && decide (off < 0x0A200 + 0x1000 * p)) ||
    off == ETH.MAC_LO.off p || off == ETH.MAC_HI.off p)) || off == CAN.WAKE_CFG.off

/-- Is a Praline slot enabled at a port? -/
def State.pralineOn (s : State) : Bool := [0, 1].any (fun p => s.get (ETH.PRALINE_STAT.EN p) != 0)

/-! ## The wake trainline's output (R554) -/

/-- Drive WAKE_OUT, unless a pulse began within the last 5 s; `request`: the pulse follows a hold after agreement (R556). -/
def State.wakePulse (s : State) (request : Bool) : State :=
  let soon := match s.net.pulse with | some t => decide (s.decik.upTicks < t + 240000) | none => false
  if soon then s.count PWR.WAKE_OUT.SUPPRESSED 1
  else
    let s := { s with net := { s.net with pulse := some s.decik.upTicks } }
    ((s.count PWR.WAKE_OUT.PULSES 1).setFlag PWR.WAKE_OUT.DRIVE true).setFlag PWR.WAKE_OUT.LAST_REQ request

/-! ## Wake events (R508, R511, R512, R516) -/

/-- Is the source enabled: bit n − 1 of WAKE_EN; tamper always (R511)? -/
def State.wakeEnabled (s : State) (n : Nat) : Bool :=
  n == 8 || (decide (1 ≤ n) && decide (n ≤ 10) && s.getBit PWR.WAKE_EN.EN (n - 1))

/-- May the source wake the node from this state (table "Wake sources")? -/
def wakesFrom (st n : Nat) : Bool :=
  if st == Pw.sleep || st == Pw.wakeFail then !(decide (4 ≤ n) && decide (n ≤ 6)) else true

/-- The wake sequence starts at the regulator step with the full retry count (R514, R515). -/
def State.wakeSteps (s : State) : State :=
  let sleep := s.pwrState == Pw.sleep || (s.pwrState != Pw.standby && s.pwr.fromSleep)
  let s := { s with pwr := { s.pwr with
    step := 1
    attempt := 1
    waiting := false
    failHold := false
    wakeStart := true
    fromSleep := sleep
    stopped := false } }
  (s.set PWR.WAKE_STAT.ATTEMPTS 1).powerTo Pw.waking

/-- A wake starts with this source; the others that fired set their bits of ALSO (R512). A source of NET_TRAIN_SRC drives the
wake trainline (R554). -/
def State.wakeBegin (s : State) (src detail : Nat) (also : List Nat) : State :=
  let s := ((s.set PWR.WAKE_SRC.SRC src).set PWR.WAKE_SRC.DETAIL detail).set PWR.WAKE_SRC.ALSO (also.foldl setBit 0)
  let s := { s with pwr := { s.pwr with began := s.rtc, latched := [] } }
  let s := if decide (1 ≤ src) && src != 1 && src != 8 && s.getBit PWR.NET_TRAIN_SRC.EN (src - 1) then s.wakePulse false else s
  s.wakeSteps

/-- Tamper before the rest, then the others in ascending code (R512). -/
def wakeFirst (fired : List (Nat × Nat)) : Option (Nat × Nat) :=
  match fired.find? (fun e => e.1 == 8) with
  | some e => some e
  | none => fired.foldl (fun (best : Option (Nat × Nat)) (e : Nat × Nat) =>
      match best with
      | some b => if e.1 < b.1 then some e else some b
      | none => some e) none

/-- Is an entry ahead or under way, so that a wake event is latched (R508, R557)? -/
def State.entryAhead (s : State) (n : Nat) : Bool :=
  s.pwrState == Pw.entering || (s.awake && s.get PWR.STAT.TARGET != 0) || (n == 1 && s.net.agreed.isSome)

/-- The wake sources that fire within one period of the 32 kHz oscillator: source and DETAIL (R508, R511, R512, R516). -/
def State.wakeEvents (s : State) (fired : List (Nat × Nat)) : State :=
  let st := s.pwrState
  if st == Pw.waking || st == Pw.starting then
    s.set PWR.WAKE_SRC.ALSO (fired.foldl (fun m e => if 1 ≤ e.1 ∧ e.1 ≤ 10 then setBit m e.1 else m) (s.get PWR.WAKE_SRC.ALSO))
  else
    let fired := fired.filter (fun e => s.wakeEnabled e.1 && wakesFrom st e.1)
    match wakeFirst fired with
    | none => s
    | some first =>
      let others := fired.filter (fun e => e != first)
      if st == Pw.standby || st == Pw.sleep || (st == Pw.wakeFail && !s.pwr.failHold) then
        s.wakeBegin first.1 first.2 (others.map (·.1))
      else if st == Pw.wakeFail || s.entryAhead first.1 then
        let s := if s.pwr.latched.isEmpty then
            ((s.set PWR.WAKE_SRC.SRC first.1).set PWR.WAKE_SRC.DETAIL first.2).set PWR.WAKE_SRC.ALSO 0
          else s
        { s with pwr := { s.pwr with latched := s.pwr.latched ++ [first] ++ others } }
      else s

/-- A latched wake acts: the first event latched is the source, the later ones set ALSO. -/
def State.wakeLatched (s : State) : State :=
  match s.pwr.latched with
  | [] => s
  | e :: t => s.wakeBegin e.1 e.2 (t.map (·.1))

/-- WAKE_EVENT: wake sources fire within one period of the 32 kHz oscillator. The CAN and Praline sources, the wake trainline,
inputs, tamper and the alarm also have rows of their own. -/
def execWakeEvent (fired : List (Fin 11 × Fin 256)) (s : State) : Host.Outcome State Fault Refusal :=
  .next (s.wakeEvents (fired.map (fun e => (e.1.val, e.2.val))))

/-- Does a frame match the wake setting of MODE 1: missing bytes count as zero (R475)? -/
def State.canWakeMatch (s : State) (f : CanRx) : Bool :=
  let (id, mask, data, dmask) := s.can.wake
  Nat.land (Nat.xor f.id id) mask == 0 &&
    (List.range 8).all (fun i => Nat.land (Nat.xor (f.data.getD i 0) (data.getD i 0)) (dmask.getD i 0) == 0)

/-- A wake by CAN leaves the matched identifier in WAKE_LAST, zero after an edge (R476). -/
def State.canWakeLast (s : State) (id : Nat) (ext : Bool) : State := (s.set CAN.WAKE_LAST.ID id).setFlag CAN.WAKE_LAST.XTD ext

/-- CAN_WAKE (R475, R476, R511): a dominant level (no frame) in MODE 0 or, through the transceiver, in SLEEP; a frame that
matches the wake setting in MODE 1. -/
def execCanWake (frame : Option CanRx) (s : State) : Host.Outcome State Fault Refusal :=
  .next (let st := s.pwrState
    if st == Pw.active || st == Pw.quiet then s
    else match frame with
      | none => if st == Pw.standby && s.flag CAN.WAKE_CFG.MODE then s else (s.canWakeLast 0 false).wakeEvents [(3, 0)]
      | some f => if s.flag CAN.WAKE_CFG.MODE && st == Pw.standby && s.canWakeMatch f then (s.canWakeLast f.id f.ext).wakeEvents [(4, 0)]
        else s)

/-- PRALINE_MATCH (R433 to R435): in STANDBY the first slot that a frame matches wakes the node; elsewhere matches are only
counted. -/
def execPralineMatch (port : Fin 2) (bytes : List Nat) (fcsOk : Bool) (s : State) : Host.Outcome State Fault Refusal :=
  .next (if s.get (PWR.VOTE.LEVEL Dom.eth) == 0 then s
    else match s.pralineSlot port.val bytes fcsOk with
      | none => s
      | some k =>
        let s := s.count (ETH.PRALINE_STAT.MATCH_CNT port) 1
        if s.pwrState == Pw.active || s.pwrState == Pw.quiet then s
        else (s.set (ETH.PRALINE_STAT.LAST_SLOT port) k).wakeEvents [(5 + port.val, k)])

/-- RTC_ALARM (R513): the RTC reaches the armed time. -/
def execRtcAlarm (s : State) : Host.Outcome State Fault Refusal :=
  .next (if s.flag PWR.CFG.ALM_EN then State.wakeEvents { s with rtc := max s.rtc (3 * s.pwr.alarm) } [(9, 0)] else s)

/-- RTC_ALM_HI_WRITE (R523): the 64-bit alarm time takes effect. -/
def State.rtcAlarmHi (s : State) (hi : Nat) : State :=
  let s := s.set PWR.RTC_ALM_HI.NS hi
  { s with pwr := { s.pwr with alarm := s.get64 PWR.RTC_ALM_LO.NS PWR.RTC_ALM_HI.NS } }

/-- RTC_ALM_HI_WRITE. -/
def execRtcAlmHiWrite (hi : Nat) (s : State) : Host.Outcome State Fault Refusal := 
  .next (s.access PWR.RTC_ALM_HI.off (fun s => s.rtcAlarmHi hi))

/-! ## Rails (R518 to R521) -/

def railStep (s : State) (r : Nat) : Nat := s.get (PWR.RAIL_CFG.STEP r)

/-- The rails of a mask at a step. -/
def State.railsAt (s : State) (rails step : Nat) : List Nat := (List.range 8).filter (fun r => bit rails r && railStep s r == step)

/-- The first step, in sequence order, that has a rail of the mask and that `later` admits. -/
def State.nextStep (s : State) (up : Bool) (rails : Nat) (allow : Nat → Bool) : Option Nat :=
  let steps := (List.range 8).filter (fun k => allow k && !(s.railsAt rails k).isEmpty)
  if up then steps.head? else steps.getLast?

/-- SEQ_BUSY follows the queue of sequences. -/
def State.showRails (s : State) : State := s.setFlag PWR.RAIL_STAT.SEQ_BUSY (!s.pwr.rails.isEmpty)

/-- Start (ascending STEP) or stop (descending STEP) rails together (R519, R520); a running sequence completes first (R522). -/
def State.railsRun (s : State) (up : Bool) (rails : Nat) : State :=
  match s.nextStep up rails (fun _ => true) with
  | none => s
  | some k => State.showRails { s with pwr := { s.pwr with rails := s.pwr.rails ++ [⟨up, rails, k, false⟩] } }

/-- The step of the running sequence has ended: its next step, or the next sequence. -/
def State.railAdvance (s : State) (q : RailSeq) (rest : List RailSeq) : State :=
  let next := s.nextStep q.up q.rails (fun k => if q.up then decide (q.step < k) else decide (k < q.step))
  State.showRails (match next with
    | some k => { s with pwr := { s.pwr with rails := { q with step := k, moved := false } :: rest } }
    | none => { s with pwr := { s.pwr with rails := rest } })

/-- RAIL_DELAY_EXPIRE (R519, R520): the step's enables rise together, or fall together; power good is not checked while a
rail stops, so a step that falls has ended. -/
def execRailDelayExpire (s : State) : Host.Outcome State Fault Refusal :=
  .next (match s.pwr.rails with
    | [] => s
    | q :: rest =>
      if q.moved then s
      else
        let s := (s.railsAt q.rails q.step).foldl (fun (s : State) (r : Nat) =>
          if q.up then (s.putBit PWR.RAIL_STAT.EN r true).putBit PWR.RAIL_STAT.FAULT r false
          else (s.putBit PWR.RAIL_STAT.EN r false).putBit PWR.RAIL_STAT.PG r false) s
        if q.up then { s with pwr := { s.pwr with rails := { q with moved := true } :: rest } } else s.railAdvance q rest)

/-- RAIL_STEP_END (R519): every rail of the step shows power good, or PG_TO_MS has passed; `pg` is the level of the power-good
inputs. A rail without power good loses its enable. -/
def execRailStepEnd (pg : Fin 256) (s : State) : Host.Outcome State Fault Refusal :=
  .next (match s.pwr.rails with
    | [] => s
    | q :: rest =>
      if !q.moved then s
      else
        let s := (s.railsAt q.rails q.step).foldl (fun (s : State) (r : Nat) =>
          if bit pg.val r then s.putBit PWR.RAIL_STAT.PG r true
          else (s.putBit PWR.RAIL_STAT.EN r false).putBit PWR.RAIL_STAT.FAULT r true) s
        s.railAdvance q rest)

/-- Is the rail's enable being changed by the running sequence, so that its power good is not judged (R520)? -/
def State.railMoving (s : State) (r : Nat) : Bool :=
  match s.pwr.rails with
  | q :: _ => bit q.rails r && (!q.up || (q.moved && railStep s r == q.step))
  | [] => false

/-- RAIL_PG_FAULT (R521): a rail that is ON has had no power good for 1 ms. -/
def execRailPgFault (r : Fin 8) (s : State) : Host.Outcome State Fault Refusal :=
  .next (if !s.getBit PWR.RAIL_STAT.EN r || s.railMoving r.val then s
    else
      let s := ((s.putBit PWR.RAIL_STAT.EN r false).putBit PWR.RAIL_STAT.PG r false).putBit PWR.RAIL_STAT.FAULT r true
      ((s.evt PWR.EVT.RAIL_FAULT 1 Src.FAULT_SUMMARY).count PWR.ERR.RAIL_FAULT_CNT 1).postBy .power Evt.AMP_RAIL_FAULT r [])

/-! ## Performance points (R509, R510) -/

/-- Admission budget per core and tick at a point (R44). -/
def pointBudget (pt : Nat) : Nat := [11250, 7500, 3750].getD pt 3750

/-- A write of PWR.PERF's points by Decik, or by the host in TEST: refused out of order, with no effect (R509). -/
def State.perfWrite (s : State) (freq volt : Nat) : State :=
  let f := s.get PWR.PERF.FREQ_PT
  let v := s.get PWR.PERF.VOLT_PT
  let refused := (freq != f && volt != v) || decide (freq < volt) || (freq != f && !s.flag PWR.PERF.VOLT_READY)
  if 3 ≤ freq ∨ 3 ≤ volt then s
  else if refused then
    ((s.evt PWR.EVT.ORDER_ERR 1 Src.PWR_STATE).count PWR.ERR.ORDER_CNT 1).postBy .power Evt.PWR_ORDER_ERR 0 [volt * 16 + freq]
  else if volt != v then (s.set PWR.PERF.VOLT_PT volt).setFlag PWR.PERF.VOLT_READY false
  else if freq != f then { s.set PWR.PERF.FREQ_PT freq with pwr := { s.pwr with freqNext := true } }
  else s

/-- PERF_VOLT_WRITE. -/
def execPerfVoltWrite (pt : Fin 3) (s : State) : Host.Outcome State Fault Refusal :=
  .next (s.access PWR.PERF.off (fun s => s.perfWrite (s.get PWR.PERF.FREQ_PT) pt))

/-- PERF_FREQ_WRITE. -/
def execPerfFreqWrite (pt : Fin 3) (s : State) : Host.Outcome State Fault Refusal :=
  .next (s.access PWR.PERF.off (fun s => s.perfWrite pt (s.get PWR.PERF.VOLT_PT)))

/-- VOLT_SETTLED (R510). -/
def execVoltSettled (s : State) : Host.Outcome State Fault Refusal := .next (s.setFlag PWR.PERF.VOLT_READY true)

/-- FREQ_CHANGE_APPLY (R38, R510): the new point and its budget, at a tick boundary. -/
def State.freqApply (s : State) : State :=
  if !s.pwr.freqNext then s
  else
    let pt := s.get PWR.PERF.FREQ_PT
    let s := (s.set GLB.DSP_PERF.POINT pt).set GLB.DSP_PERF.BUDGET (pointBudget pt)
    { s with pwr := { s.pwr with freqNext := false } }

/-- FREQ_CHANGE_APPLY. -/
def execFreqChangeApply (s : State) : Host.Outcome State Fault Refusal := .next s.freqApply

/-! ## Residency (R517) -/

/-- RESIDENCY_SECOND: a whole second in the present state, in START-UP, TEST and RECOVERY only. STARTING counts as ACTIVE
(DEDUCED from R542, notes/assumptions/47.md). -/
def execResidencySecond (s : State) : Host.Outcome State Fault Refusal :=
  .next (if s.mode == Mode.normal then s
    else
      let st := s.pwrState
      if st == Pw.active || st == Pw.starting then s.count PWR.RES_ACTIVE.SECONDS 1
      else if st == Pw.quiet then s.count PWR.RES_QUIET.SECONDS 1
      else if st == Pw.standby then s.count PWR.RES_STANDBY.SECONDS 1
      else if st == Pw.sleep then s.count PWR.RES_SLEEP.SECONDS 1
      else s)

/-! ## Entry to STANDBY (R507, R508, R522) -/

/-- Outputs take OUT_SAFE until an image is loaded (R619). -/
def State.outputsSafe (s : State) : State :=
  { s.set DIO.OUT_STATE.LEVEL (s.get DIO.OUT_SAFE.LEVEL) with dio := { s.dio with safe := true } }

/-- Step 1 (R507): open requests end with ABORTED and the rails stop in descending order. An alarm already past fires at
once (R513). -/
def State.entryStart (s : State) (target : Nat) : State :=
  let s := (s.set PWR.STAT.TARGET target).powerTo Pw.entering
  let s := s.storeTestStop.finishAll (fun _ => true) Status.aborted []
  let s := (s.railsRun false (s.get PWR.RAIL_STAT.EN)).outputsSafe
  if s.flag PWR.CFG.ALM_EN && decide (3 * s.pwr.alarm ≤ s.rtc) then s.wakeEvents [(9, 0)] else s

/-- STANDBY_ENTRY: an accepted request starts the entry. -/
def execStandbyEntry (s : State) : Host.Outcome State Fault Refusal :=
  .next (if s.awake && s.get PWR.STAT.TARGET != 0 then s.entryStart (s.get PWR.STAT.TARGET) else s)

/-- Write what is still posted: Decik writes its durable records before it stops (R507). -/
def State.writePosted (s : State) : State :=
  let l := s.evr.posted
  l.foldl (fun (s : State) (r : Record) => s.writeRecord r .good) { s with evr := { s.evr with posted := [] } }

/-- Steps 2 to 5 (R507): durable records, the domains, the store, STANDBY. A power-down warning during the entry leaves
SLEEP with nothing retained (R522). -/
def State.entryEnd (s : State) : State :=
  let s := { s.writePosted with evr := { s.writePosted.evr with savedOptime := s.get EVR.OPTIME.SECONDS } }
  let praline := s.pralineOn
  let s := if s.pwr.dropAll then s.dropBanks 0 else s.storeSleep
  let s := s.dark (fun off => arrayReg off || detectorReg praline off)
  let s := { s with pwr := { s.pwr with rails := [], freqNext := false } }
  let s := s.setLevels (fun d => if d = Dom.eth then b2n praline else if d = Dom.can || d = Dom.storeArray then 1 else 0)
  let s := (List.range 11).foldl (fun (s : State) (i : Nat) => (s.set (PWR.VOTE.CLIENTS (i + 1)) 0).setFlag (PWR.VOTE.DEP (i + 1)) false) s
  let s := (s.outputsSafe.set PWR.HOLD_MAP.ACTIVE 0).setFlag PWR.NET_STAT.HOLD false
  let s := if s.pwr.dropAll then
      let s := (s.setLevels (fun _ => 0)).powerTo Pw.sleep
      { s with pwr := { s.pwr with dropAll := false } }
    else s.powerTo Pw.standby
  let pend := s.net.request
  let s := { s.setFlag PWR.NET_STAT.WAKE_PEND false with net := { NetSt.reset with
      requested := pend, pulse := s.net.pulse, stuck := s.net.stuck, lowFrom := s.net.lowFrom } }
  let s := s.set PWR.NET_STAT.NSTATE 0
  let s := match pend with | some _ => s.wakePulse true | none => s
  s.wakeLatched

/-- STANDBY_ENTRY_COMPLETE. -/
def execStandbyEntryComplete (s : State) : Host.Outcome State Fault Refusal :=
  .next (if s.pwrState == Pw.entering && s.pwr.rails.isEmpty then s.entryEnd else s)

/-- STANDBY_DWELL_EXPIRE (R504, R505): ETH and CAN drop, and the banks that RET_MASK does not name; no new canary. -/
def execStandbyDwellExpire (s : State) : Host.Outcome State Fault Refusal :=
  .next (if s.pwrState == Pw.standby && s.get PWR.STAT.TARGET == Pw.sleep then
      let s := s.ethDown false
      let wake := s.can.wake
      let s := { s.canDown with can := { CanSt.reset with wake := wake } }
      let s := ((s.setLevel Dom.eth 0).setLevel Dom.can 0).dropBanks s.mem.mask
      s.powerTo Pw.sleep
    else s)

/-! ## The wake sequence (R514 to R516) -/

/-- The logic step is ready: CORE runs, the boot ROM is alive, and the node is STARTING (R502, R529, R538). At a wake the
time is kept and the event bits of the wake are set (R435, R476, R512). -/
def State.logicReady (s : State) : State :=
  let s := s.setLevels (fun _ => 2)
  let s := { s.set GLB.BOOT_STAT.STATE 0 with pwr := { s.pwr with step := 5 } }
  let s := if s.pwr.wakeStart then
      let src := s.get PWR.WAKE_SRC.SRC
      let s := [0, 1].foldl (fun (s : State) (p : Nat) => (s.set (ETH.MAC_LO.ADDR p) 0).set (ETH.MAC_HI.ADDR p) 0) s
      let s := s.set CAN.WAKE_CFG.MODE 0
      let s := if src == 5 || src == 6 then s.setFlag (ETH.EVT.PRALINE (src - 5)) true else s
      let s := if src == 3 || src == 4 then s.setFlag CAN.EVT.WAKE true else s
      let n := s.pwr.i2cMatches
      let s := if n = 0 then s else (s.count BRG.I2C_CNT.WAKE_MATCH n).setFlag BRG.HOST_EVT.I2C_WAKE true
      let s := { s with pwr := { s.pwr with i2cMatches := 0 } }
      (s.set PWR.WAKE_STAT.LAST_DUR (min ((s.rtc - s.pwr.began) / 30000) 0xFFFF)).evt PWR.EVT.WAKE 1 Src.PWR_WAKE
    else s
  (s.set PWR.STAT.TARGET 0).powerTo Pw.starting

/-- Is a step of the sequence in progress: in WAKING, or in step 1 of a cold start (R529)? -/
def State.stepping (s : State) : Bool :=
  (s.pwrState == Pw.waking || s.pwrState == Pw.starting) && decide (1 ≤ s.pwr.step) && decide (s.pwr.step ≤ 4) && !s.pwr.waiting &&
    s.pwr.resetWait == 0

/-- WAKE_STEP_READY: the next step begins. The regulator step needs VMAIN above 3.2 V; the store step leaves self-refresh. -/
def execWakeStepReady (s : State) : Host.Outcome State Fault Refusal :=
  .next (if !s.stepping then s
    else
      let k := s.pwr.step
      let s := if k = 1 then s.setFlag PWR.STAT.VMAIN_OK true else s
      let s := if k = 3 then (s.setLevel Dom.storeArray 2).setLevel Dom.storeCtl 2 else s
      if k = 4 then s.logicReady else { s with pwr := { s.pwr with step := k + 1 } })

/-- The cause that PWR.AO_FAULT gives. -/
def State.failCause (s : State) : StepFail → Nat
  | .timeout => if s.pwr.step == 1 && !s.flag PWR.STAT.VMAIN_OK then 2 else 1
  | .railLost => 3
  | .pllLost => 4
  | .training => 5

/-- The safe state (R515): every domain that the attempt raised is off; the store array stays in self-refresh. -/
def State.safeState (s : State) : State := s.setLevels (fun d => if d = Dom.storeArray then 1 else 0)

/-- WAKE_STEP_TIMEOUT: the safe state, AO_FAULT, and another attempt after 10 ms, or WAKE_FAIL (R515, R516). -/
def execWakeStepTimeout (fail : StepFail) (s : State) : Host.Outcome State Fault Refusal :=
  .next (if !s.stepping then s
    else
      let k := s.pwr.step
      let n := s.pwr.attempt
      let cause := s.failCause fail
      let last := decide (s.get PWR.WAKE_CTRL.RETRIES < n)
      let s := ((s.safeState.set PWR.AO_FAULT.CAUSE cause).set PWR.AO_FAULT.STEP k).set PWR.AO_FAULT.ATTEMPTS n
      let s := (s.setFlag PWR.AO_FAULT.VALID true).set PWR.AO_FAULT.RTC_S (s.rtc / 3000000000 % 65536)
      let s := if n = 1 || last then s.postBy .power Evt.WAKE_TIMEOUT 0 [k, cause, n] else s
      if last then
        let s := { s with pwr := { s.pwr with step := 0, failHold := true, vmainRose := false, failed := true } }
        let s := (s.showFault.count PWR.WAKE_FAIL_CNT.COUNT 1).postBy .power Evt.WAKE_FAIL 0 [k, cause, n]
        s.powerTo Pw.wakeFail
      else { s with pwr := { s.pwr with step := 1, waiting := true } })

/-- WAKE_RETRY_WAIT_END: the next attempt, from the regulator step. -/
def execWakeRetryWaitEnd (s : State) : Host.Outcome State Fault Refusal :=
  .next (if s.pwr.waiting then
      let n := s.pwr.attempt + 1
      ({ s with pwr := { s.pwr with waiting := false, step := 1, attempt := n } } : State).set PWR.WAKE_STAT.ATTEMPTS (min n 15)
    else s)

/-- WAKE_FAIL_HOLD_END: what was latched in the first second acts (R516); so does VMAIN that rose meanwhile. -/
def execWakeFailHoldEnd (s : State) : Host.Outcome State Fault Refusal :=
  .next (if s.pwrState == Pw.wakeFail && s.pwr.failHold then
      let s := { s with pwr := { s.pwr with failHold := false } }
      if !s.pwr.latched.isEmpty then s.wakeLatched
      else if s.pwr.vmainRose then State.wakeSteps { s with pwr := { s.pwr with began := s.rtc } } else s
    else s)

/-- VMAIN_RISE: VMAIN above 3.2 V; in WAKE_FAIL, after its first second, a fresh sequence begins (R516). -/
def execVmainRise (s : State) : Host.Outcome State Fault Refusal :=
  .next (let s := s.setFlag PWR.STAT.VMAIN_OK true
    if s.pwrState != Pw.wakeFail then s
    else if s.pwr.failHold then { s with pwr := { s.pwr with vmainRose := true } }
    else State.wakeSteps { s with pwr := { s.pwr with began := s.rtc } })

end Sys2Proof.Machine
end

