-- ==== Sys2Proof/Machine/Dio.lean ====
section
/-! DEFINITION. Discrete inputs and outputs (chapter 22, R613 to R621). -/

namespace Sys2Proof.Machine

/-! ## Inputs (R613 to R617) -/

/-- Is the input sampled in the present state (R613)? -/
def State.diSampled (s : State) (i : Nat) : Bool :=
  let st := s.pwrState
  st == Pw.active || st == Pw.quiet || st == Pw.starting || s.flag (DIO.INCFG.WAKE i)

/-- The reported value of an input takes a value (R617): the change event that EDGE selects, the wake, and the end of a stuck
state (R616). -/
def State.diReport (s : State) (i : Nat) (v : Bool) : State :=
  if s.getBit DIO.IN_STATE.VALUE i == v then s
  else
    let s := s.putBit DIO.IN_STATE.VALUE i v
    let edge := s.get (DIO.INCFG.EDGE i)
    let s := if bit edge (if v then 0 else 1) then s.evtBit DIO.EVT_CHG.EVT i Src.DIO_EVENT else s
    let s := if v then s else s.putBit DIO.STUCK.STUCK i false
    if v && s.flag (DIO.INCFG.WAKE i) then s.wakeEvents [(7, i)] else s

/-- DI_DEBOUNCED_CHANGE: the underlying value of an input changes (R614, R615). A frozen input keeps its reported value. -/
def execDiDebouncedChange (i : Fin 32) (v : Bool) (s : State) : Host.Outcome State Fault Refusal :=
  .next (if !s.diSampled i.val || bit s.dio.under i.val == v then s
    else
      let n := s.dio.changes.getD i.val 0 + 1
      let s := { s.putBit DIO.IN_RAW.LEVEL i v with dio := { s.dio with
        under := if v then setBit s.dio.under i.val else clrBit s.dio.under i.val
        changes := s.dio.changes.set i.val n } }
      if s.getBit DIO.CHATTER.FROZEN i then s
      else
        let s := s.diReport i v
        let limit := s.get (DIO.INCFG.CHAT_N i)
        if limit != 0 && decide (limit < n) then
          (s.putBit DIO.CHATTER.FROZEN i true).evtBit DIO.EVT_CHAT.EVT i Src.DIO_EVENT
        else s)

/-- CHATTER_WINDOW_END (R615): a frozen input whose underlying value has not changed in the window is released and reports
that value. -/
def execChatterWindowEnd (i : Fin 32) (s : State) : Host.Outcome State Fault Refusal :=
  .next (let n := s.dio.changes.getD i.val 0
    let s := { s with dio := { s.dio with changes := s.dio.changes.set i.val 0 } }
    if s.getBit DIO.CHATTER.FROZEN i && n == 0 then (s.putBit DIO.CHATTER.FROZEN i false).diReport i (bit s.dio.under i.val) else s)

/-- DI_STUCK (R616): the reported value has been active for STUCK_S seconds; once per activation. -/
def execDiStuck (i : Fin 32) (s : State) : Host.Outcome State Fault Refusal :=
  .next (if s.getBit DIO.IN_STATE.VALUE i && s.get (DIO.INTIM.STUCK_S i) != 0 && !s.getBit DIO.STUCK.STUCK i then
      (s.putBit DIO.STUCK.STUCK i true).evtBit DIO.EVT_STUCK.EVT i Src.DIO_EVENT
    else s)

/-! ## Outputs (R618 to R621) -/

/-- The level that a process unit gives an output (R618, R621): its bit as the node holds it under R88; none while no position
owns the unit or no valid one has come. -/
def State.unitLevel (s : State) (u byte i : Nat) : Option Bool :=
  match s.layout? with
  | none => none
  | some l =>
    match l.units.find? (fun r => r.index == u) with
    | none => none
    | some r =>
      let b := if r.pos == s.position then s.ring.staging else s.ring.lastPdata
      if bit (b.at (unitOff u + 15)) 7 then some (bit (b.at (unitOff u + byte)) i) else none

/-- The level of output `j` by its source. -/
def State.outputLevel (s : State) (j : Nat) : Bool :=
  let safe := s.getBit DIO.OUT_SAFE.LEVEL j
  if s.dio.safe then safe
  else if s.flag (DIO.OUTSRC.SRC j) then
    match s.unitLevel (s.get (DIO.OUTSRC.UNIT j)) (s.get (DIO.OUTSRC.BYTE j)) (s.get (DIO.OUTSRC.BIT j)) with
    | some v => v
    | none => safe
  else s.getBit DIO.OUT.LEVEL j

/-- DIO.OUT_STATE follows the sources; DO15 is OUT_ACTIVE in twin mode (R194, R618). -/
def State.driveOutputs (s : State) : State :=
  let v := (List.range 16).foldl (fun m j => if s.outputLevel j then setBit m j else m) 0
  (s.set DIO.OUT_STATE.LEVEL v).driveOutActive

/-- A write of DIO.OUT: DO15's bit is not written in twin mode (R618). -/
def State.outWrite (s : State) (v : Nat) : State :=
  let v := if s.twinOn then v % 2 ^ 15 + (if s.getBit DIO.OUT.LEVEL 15 then 2 ^ 15 else 0) else v
  (s.set DIO.OUT.LEVEL v).driveOutputs

/-- A write of DIO.OUTSRCj: ignored as a whole where BYTE is 15, and for DO15 in twin mode (R618, R620). -/
def State.outSrcWrite (s : State) (j w : Nat) : State :=
  if w / 4096 % 16 == 15 || (j == 15 && s.twinOn) then s
  else
    let s := ((s.set (DIO.OUTSRC.BYTE j) (w / 4096 % 16)).set (DIO.OUTSRC.UNIT j) (w / 32 % 128)).set (DIO.OUTSRC.BIT j) (w / 4 % 8)
    (s.set (DIO.OUTSRC.SRC j) (w % 2)).driveOutputs

end Sys2Proof.Machine
end

