-- ==== Sys2Proof/Machine/Keys.lean ====
section
/-! DEFINITION. Keys, authentication and tamper (chapter 19): slots, the key register and the engines, replacement,
authorisation blocks, and the tamper latch (R563 to R587). A wrapped key stands in the state as the key with the measurement
it is wrapped under: it unwraps where that measurement is the present one (DEDUCED from R564 and R565). -/

namespace Sys2Proof.Machine

/-! ## Slots (R565 to R568) -/

def State.slot (s : State) (k : Nat) : KeySlot := s.sec.slots.getD k KeySlot.empty
def State.setSlot (s : State) (k : Nat) (x : KeySlot) : State := { s with sec := { s.sec with slots := s.sec.slots.set k x } }

/-- Does an area of the slot unwrap: slot 0 always, the others under the measurement they were wrapped under (R564)? -/
def State.unwraps (s : State) (k : Nat) : Bool := k == 0 || (s.slot k).wrapM == s.sec.measurement

/-- The slot that SEC.USE names for an engine (R568). -/
def State.useSlot (s : State) (e : Nat) : Nat :=
  if e = 0 then s.get SEC.USE.RING_SLOT else if e = 1 then s.get SEC.USE.XTS_SLOT else if e = 2 then s.get SEC.USE.HMAC_SLOT
  else s.get SEC.USE.SIGVER_SLOT

/-- Key bytes of an engine's kind (R567): RING_GCM and HMAC take 32, STORE_XTS and SIGVER 64, the transport key 32. -/
def keyBytes (mask : Nat) : Nat := if bit mask 1 || bit mask 3 then 64 else 32

/-- Is a mask well-formed for a slot (R567): engines of one kind, no reserved bit, and 0x00 for slot 0 alone? -/
def maskOk (slot mask : Nat) : Bool := if slot = 0 then mask == 0 else mask == 1 || mask == 2 || mask == 4 || mask == 8

/-- SEC.SLOTk, SEC.KCVk, AUTH_T and REVOKED follow the slots (R586, R587): a KCV reads zero while tamper is latched. -/
def State.showKeys (s : State) : State :=
  let s := (List.range 16).foldl (fun (s : State) (k : Nat) =>
    let x := s.slot k
    let kcv := match x.cur with
      | some g => if s.flag SEC.STAT.TAMPER || x.state != 1 then 0 else leValue ((Config.kcv g.key).take 3).reverse
      | none => 0
    let ver := match x.cur with | some g => g.version | none => 0
    ((((s.set (SEC.SLOT.VERSION k) ver).set (SEC.SLOT.MASK k) x.mask).setFlag (SEC.SLOT.PREV k) x.prev.isSome).set
      (SEC.SLOT.STATE k) x.state).set (SEC.KCV.KCV k) kcv) s
  let h := s.slot (s.useSlot 2)
  ((s.setFlag SEC.STAT.AUTH_T (h.state != 1)).set SEC.STAT.REVOKED s.sec.revoked).set SEC.WRAP_CTR.CTR (s.sec.wrapCtr % 2 ^ 32)

/-- SEC.ENGe follows the keys that an engine holds. -/
def State.showEngine (s : State) (e : Fin 4) (slot version : Nat) : State :=
  let x := s.engines[e]
  (((s.set (SEC.ENG.SLOT e) slot).set (SEC.ENG.CUR_VER e) version).setFlag (SEC.ENG.CUR_OK e) x.cur.isSome).setFlag
    (SEC.ENG.PREV_OK e) x.prev.isSome

/-- A keyed check other than of a ring cell fails (R579). -/
def State.authFail (s : State) (f : Fld) : State := (s.count f 1).evt SEC.EVT.AUTH_FAIL 1 Src.SEC_AUTH_FAIL

/-! ## The key register (R569, R570) -/

/-- A load that fails leaves the engine's key and sets LOAD_REFUSED (R569). -/
def State.loadRefused (s : State) : State := s.evt SEC.EVT.LOAD_REFUSED 1 Src.SEC_KEY_OP

/-- A write of SEC.KLOAD by Decik (R569): a generation of a slot goes through the key register into an engine. -/
def State.keyLoad (s : State) (k : Nat) (e : Fin 4) (previous : Bool) : State :=
  let x := s.slot k
  if s.flag SEC.STAT.TAMPER || x.state != 1 then s.loadRefused
  else match (if previous then x.prev else x.cur) with
    | none => s.loadRefused
    | some g =>
      if !s.unwraps k then (s.authFail SEC.AUTH_FAIL.WRAP).loadRefused
      else if !bit x.mask e.val then s.loadRefused.post Evt.KEY_LOAD_REFUSED k [e.val]
      else
        let old := s.engines[e]
        let new : EngineSt := if previous then ⟨old.cur, some g.key⟩ else ⟨some g.key, old.prev⟩
        let ver := if previous then s.get (SEC.ENG.CUR_VER e) else g.version
        State.showEngine { s with engines := s.engines.set e new } e k ver

/-- KLOAD_WRITE. Host writes of the register have no effect; only Decik's come here. -/
def execKloadWrite (slot : Fin 16) (engine : Fin 4) (previous : Bool) (s : State) : Host.Outcome State Fault Refusal :=
  .next (if s.decikRuns && s.domOn Dom.sec then s.keyLoad slot engine previous else s)

/-- Decik loads an engine from the slot it uses: the current generation and, where there is one, the previous (R569, R570).
A slot without a usable key is not loaded. -/
def State.loadEngine (s : State) (e : Fin 4) : State :=
  let k := s.useSlot e.val
  let x := s.slot k
  if x.state != 1 || s.flag SEC.STAT.TAMPER then s
  else
    let s := { s with engines := s.engines.set e ⟨none, none⟩ }
    let s := s.keyLoad k e false
    if x.prev.isSome then s.keyLoad k e true else s

/-- Decik loads every engine. -/
def State.loadEngines (s : State) : State := (((s.loadEngine 0).loadEngine 1).loadEngine 2).loadEngine 3

/-- The keys at step 5 of a start (R565, R573): a slot whose unwrap fails becomes UNBOUND, recorded; then the loads. -/
def State.startKeys (s : State) : State :=
  let s := (List.range 16).foldl (fun (s : State) (k : Nat) =>
    let x := s.slot k
    if x.state == 1 && !s.unwraps k then
      let s := s.setSlot k { x with state := 2 }
      let ver := match x.cur with | some g => g.version | none => 0
      ((s.authFail SEC.AUTH_FAIL.WRAP).evt SEC.EVT.UNBOUND 1 Src.SEC_KEY_OP).post Evt.KEY_UNBOUND k (leBytes 2 ver)
    else s) s
  s.loadEngines.showKeys

/-! ## Replacement (R571, R572, R575) -/

/-- The additional authenticated data of a wrapped key (R571). -/
def State.wrapAad (s : State) (o : KeyOp) : List Nat := leBytes 8 s.uid.toNat ++ [o.slot, o.mask] ++ leBytes 2 o.version

/-- Step 1 (R572): the blob unwrapped under the current key of slot 0. -/
def State.openBlob (s : State) (o : KeyOp) : Option (List Nat) :=
  let n := o.blob.length
  let nonce := o.blob.take 12
  let text := (o.blob.drop 12).take (n - 28)
  match (s.slot 0).cur with
  | none => none
  | some g => if Config.gcmTag g.key nonce (s.wrapAad o) text == leValue (o.blob.drop (n - 16)) then some (Config.gcmCrypt g.key nonce text)
    else none

/-- A replacement that failed (R572): the result, the event and the record. -/
def State.keyOpFailed (s : State) (o : KeyOp) (result : Nat) : State :=
  let s := { (s.set SEC.OP_STAT.RESULT result).set SEC.OP_STAT.STEP 0 with sec := { s.sec with op := none } }
  (s.evt SEC.EVT.KEY_OP_FAIL 1 Src.SEC_KEY_OP).post Evt.KEY_REPLACE_ABORTED o.slot [result]

/-- The ring key is replaced (R575): G stays the old generation, now PREVIOUS, and keeps its counter; where G was the one now
discarded, the node sends under PREVIOUS and sets TOPO_CHG. -/
def State.ringKeyReplaced (s : State) : State :=
  if s.flag SEC.STAT.GEN_TX then
    let ctr := s.sec.otherNonce
    let s := { s.set RING.NONCE.CTR ctr with sec := { s.sec with otherNonce := 0 }, ring := { s.ring with nonceEnd := 0 } }
    s.topoChange
  else { s.setFlag SEC.STAT.GEN_TX true with sec := { s.sec with otherNonce := 0 } }

/-- Steps 1 to 6 (R572): the response's status and data. `mediaOk`: the SHADOW area and the commit record read back right. -/
def State.keyReplace (s : State) (mediaOk : Bool) : Nat × List Nat × State :=
  match s.sec.op with
  | none => (Status.wrongState, [], s)
  | some o =>
    match s.openBlob o with
    | none => (Status.authFailed, [], (s.authFail SEC.AUTH_FAIL.WRAP).keyOpFailed o 2)
    | some bytes =>
      let key := leValue bytes
      if (Config.kcv key).take 3 != o.kcv then (Status.badParam, [], s.keyOpFailed o 3)
      else if !mediaOk then (Status.mediaFault, [], s.keyOpFailed o 4)
      else
        let x := s.slot o.slot
        let prev := if x.state == 1 && s.unwraps o.slot then x.cur else none
        let s := s.setSlot o.slot ⟨1, o.mask, some ⟨o.version, key⟩, prev, s.sec.measurement, x.seq + 1⟩
        let s := { s with sec := { s.sec with op := none, wrapCtr := s.sec.wrapCtr + 1 } }
        let s := ((s.set SEC.OP_STAT.RESULT 1).set SEC.OP_STAT.STEP 0).evt SEC.EVT.KEY_OP_DONE 1 Src.SEC_KEY_OP
        let s := s.post Evt.KEY_REPLACED o.slot (leBytes 2 o.version ++ o.kcv)
        let used := [(0 : Fin 4), 1, 2, 3].filter (fun e => s.useSlot e.val == o.slot)
        let s := used.foldl (fun (s : State) (e : Fin 4) => s.loadEngine e) s
        let s := if used.contains 0 && prev.isSome then s.ringKeyReplaced else s
        (Status.ok, leBytes 2 o.version ++ o.kcv, s.showKeys)

/-! ## Authorised commands (R576 to R578) -/

/-- The KSLOT that a block must name and the key of its MAC (R578). -/
def State.authKey (s : State) : Nat × Option Nat :=
  let h := s.useSlot 2
  let x := s.slot h
  if x.state == 1 then (h, x.cur.map (·.key)) else (0, (s.slot 0).cur.map (·.key))

/-- The challenge that a channel, or on channel 3 a requester, holds (R396, R577). -/
def State.challenge (s : State) (ch : Nat) (uid : DWord) : Option Challenge :=
  s.sec.challenges.find? (fun c => c.ch == ch && (ch != 3 || c.uid == uid) && decide (s.decik.upTicks < c.until_))

def State.authSource (s : State) (ch : Nat) (uid : DWord) : AuthSource :=
  match s.sec.sources.find? (fun x => x.ch == ch && (ch != 3 || x.uid == uid)) with | some x => x | none => ⟨ch, uid, 0, 0⟩

def State.setAuthSource (s : State) (x : AuthSource) : State :=
  { s with sec := { s.sec with sources := s.sec.sources.filter (fun y => !(y.ch == x.ch && (x.ch != 3 || y.uid == x.uid))) ++ [x] } }

/-- AUTH_CHALLENGE (R396, R577): a fresh nonce for the channel or the requester; channel 3 keeps those of 8 requesters. -/
def State.newChallenge (s : State) (ch : Nat) (uid : DWord) : List Nat × State :=
  let (x, s) := s.fresh
  let nonce := leBytes 16 (x % 2 ^ 128)
  let rest := s.sec.challenges.filter (fun c => !(c.ch == ch && (ch != 3 || c.uid == uid)))
  let three := (rest.filter (fun c => c.ch == 3)).length
  let rest := if ch = 3 ∧ 8 ≤ three then
      match rest.find? (fun c => c.ch == 3) with | some old => rest.filter (fun c => c != old) | none => rest
    else rest
  (nonce, { s with sec := { s.sec with challenges := rest ++ [⟨ch, uid, nonce, s.decik.upTicks + 60 * 48000⟩] } })

/-- The 32 bytes of the MAC of a block (R576). -/
def State.authMac (s : State) (key : Nat) (nonce : List Nat) (ch opcode len cfgver : Nat) (data : List Nat) : List Nat :=
  ((Config.hmac key (nonce ++ [ch] ++ leBytes 8 s.uid.toNat ++ leBytes 2 opcode ++ leBytes 2 len ++ leBytes 4 cfgver ++ data)).map
    (fun (x : Nat) => x % 256) ++ List.replicate 32 0).take 32

/-- A block that fails (R577): counted and recorded; the fifth in a row from one source locks it out for 30 s. -/
def State.authBlockFailed (s : State) (ch : Nat) (uid : DWord) (opcode : Nat) : State :=
  let s := (s.authFail SEC.AUTH_FAIL.CMD).post Evt.AUTH_BLOCK_FAILED ch (leBytes 2 opcode)
  let x := s.authSource ch uid
  if 4 ≤ x.fails then
    (s.setAuthSource { x with fails := 0, lockUntil := s.decik.upTicks + 30 * 48000 }).post Evt.AUTH_LOCKOUT ch
      (leBytes 8 (if ch = 3 then uid.toNat else 0))
  else s.setAuthSource { x with fails := x.fails + 1 }

/-- Check the authorisation block that ends a request's data (R576 to R578). A nonce serves one check (R396). -/
def State.authCheck (s : State) (ch : Nat) (uid : DWord) (opcode len cfgver : Nat) (data : List Nat) : Bool × State :=
  let x := s.authSource ch uid
  if s.decik.upTicks < x.lockUntil then (false, s)
  else
    let n := data.length
    let block := data.drop (n - 36)
    let found := s.challenge ch uid
    let s := { s with sec := { s.sec with challenges := s.sec.challenges.filter (fun c => !(c.ch == ch && (ch != 3 || c.uid == uid))) } }
    let (kslot, key) := s.authKey
    let ok := match found, key with
      | some c, some k => decide (36 ≤ n) && block.getD 0 0 == kslot &&
          (block.drop 4).take 32 == (s.authMac k c.nonce ch opcode len cfgver (data.take (n - 36)))
      | _, _ => false
    if ok then (true, s.setAuthSource { x with fails := 0 }) else (false, s.authBlockFailed ch uid opcode)

/-! ## Tamper (R580 to R585) -/

/-- Is durable memory powered (R582)? -/
def State.durableOn (s : State) : Bool :=
  let st := s.pwrState
  st == Pw.active || st == Pw.quiet || st == Pw.entering || st == Pw.starting

/-- Is the cause watched: the inputs where they are enabled, the monitors always (R580)? -/
def State.tamperArmed (s : State) (cause : Nat) : Bool :=
  if cause = 0 then s.flag SEC.TMP_CFG.EN0 else if cause = 1 then s.flag SEC.TMP_CFG.EN1 else decide (cause < 5)

/-- A start in progress holds in TAMPER_HOLD (R541, R583): after step 5; a cold start in service mode RECOVERY (R542). -/
def State.tamperHold (s : State) : State :=
  let s := (s.set GLB.BOOT_STAT.STATE 8).setFlag SEC.STAT.HOLD true
  let s := if s.pwr.wakeStart then s else s.set PWR.STAT.MODE Mode.recovery
  s.post Evt.TAMPER_HOLD 0 [s.get SEC.STAT.CAUSE]

/-- What the node does at a tamper while Decik runs (R572, R583, R585): a replacement aborts, an inauguration it leads is
abandoned, TOPO_CHG is set. -/
def State.tamperRunning (s : State) : State :=
  let s := match s.sec.op with
    | some o => (s.keyOpFailed o 5).finishAll (fun (p : Pend) => p == Pend.keyOp) Status.tamperLock []
    | none => s
  let s := if s.launches && decide (Phase.settle ≤ s.phase) && decide (s.phase ≤ Phase.announced) then s.inaugAbandon else s
  if s.awake then s.topoChange else s

/-- TAMPER_DETECT (R581 to R583): keys zeroed, the latch and its durable copy, then the record, the interrupt and the wake. -/
def execTamperDetect (cause : Fin 5) (s : State) : Host.Outcome State Fault Refusal :=
  .next (if !s.tamperArmed cause.val then s
    else
      let s := { s with
        sec := { s.sec with present := setBit s.sec.present cause.val }
        engines := Vector.replicate 4 ⟨none, none⟩ }
      let s := [(0 : Fin 4), 1, 2, 3].foldl (fun (s : State) (e : Fin 4) => s.showEngine e (s.get (SEC.ENG.SLOT e)) 0) s
      let s := (s.setFlag SEC.STAT.PRESENT true).setFlag SEC.STAT.TAMPER true
      let s := (s.putBit SEC.STAT.CAUSE cause.val true).count SEC.TMP_CNT.EVENTS 1
      let c := s.get SEC.STAT.CAUSE
      let s := if s.durableOn then { s with sec := { s.sec with durable := c } } else s
      let s := (s.showKeys.postBy .security Evt.TAMPER 0 [c]).evt SEC.EVT.TAMPER 1 Src.SEC_TAMPER
      let s := (s.faultCause GLB.FAULT_STAT.TAMPER GLB.FAULT_EVT.TAMPER true).recShow
      let s := if s.decikRuns then s.tamperRunning else s
      let b := s.get GLB.BOOT_STAT.STATE
      let s := if s.pwrState == Pw.starting && (b == 5 || b == 6) then s.tamperHold else s
      s.wakeEvents [(8, c)])

/-- TAMPER_CAUSE_END (R584): a cause is no longer present; PRESENT clears with the last one. -/
def execTamperCauseEnd (cause : Fin 5) (s : State) : Host.Outcome State Fault Refusal :=
  .next (let p := clrBit s.sec.present cause.val
    ({ s with sec := { s.sec with present := p } } : State).setFlag SEC.STAT.PRESENT (p != 0))

/-- The clear of the latch (R584): its cause is the answer. Decik reloads the engines, restarts the recorder and releases
FAULT_N; a held start resumes at step 6 (R541). -/
def State.tamperClear (s : State) : Nat × State :=
  let c := s.get SEC.STAT.CAUSE
  let s := { (s.setFlag SEC.STAT.TAMPER false).set SEC.STAT.CAUSE 0 with sec := { s.sec with durable := 0 } }
  let s := (s.postBy .security Evt.TAMPER_CLEARED 0 [c]).evt SEC.EVT.CLEARED 1 Src.SEC_TAMPER
  let s := (s.faultCause GLB.FAULT_STAT.TAMPER GLB.FAULT_EVT.TAMPER false).loadEngines.showKeys.recShow
  let s := if s.flag SEC.STAT.HOLD then (s.setFlag SEC.STAT.HOLD false).set GLB.BOOT_STAT.STATE 5 else s
  (c, s)

end Sys2Proof.Machine
end

