-- ==== Sys2Proof/Machine/Units.lean ====
section
/-! DEFINITION. Units (R372 to R375): the data-path state that each class shows, starting and stopping its hardware, the unit
state machine and divergences. -/

namespace Sys2Proof.Machine

/-! ## Unit identifiers (R372) -/

abbrev UClass.zone : Nat := 1
abbrev UClass.tdm : Nat := 2
abbrev UClass.mics : Nat := 3
abbrev UClass.host : Nat := 4
abbrev UClass.eth : Nat := 5
abbrev UClass.aes : Nat := 6
abbrev UClass.can : Nat := 7
abbrev UClass.rail : Nat := 8
abbrev UClass.link : Nat := 9
abbrev UClass.stack : Nat := 10
abbrev UClass.remote : Nat := 11

/-- A unit ID: class and index. -/
def unitId (c i : Nat) : Nat := c * 2 ^ 24 + i
def unitClass (id : Nat) : Nat := id / 2 ^ 24
def unitIndex (id : Nat) : Nat := id % 2 ^ 16

/-- The indexes of a class. -/
def classIndexes (c : Nat) : List Nat :=
  match c with
  | 1 => List.range 16
  | 2 => List.range 8
  | 3 => [0]
  | 4 => [0]
  | 5 => [0, 1]
  | 6 => List.range 64 ++ (List.range 64).map (· + 0x100)
  | 7 => [0]
  | 8 => List.range 8
  | 9 => List.range 4
  | 10 => [0, 1]
  | 11 => (List.range 32).map (· + 1)
  | _ => []

/-- The 203 units, in the order of the table "Unit classes". -/
def allUnits : List Nat := (List.range 11).flatMap (fun k => (classIndexes (k + 1)).map (unitId (k + 1)))

/-- Does the node have the unit? -/
def unitKnown (id : Nat) : Bool := (classIndexes (unitClass id)).contains (unitIndex id) && unitId (unitClass id) (unitIndex id) == id

/-! ## Management and data-path states (R373) -/

abbrev Mgmt.disabled : Nat := 0
abbrev Mgmt.starting : Nat := 1
abbrev Mgmt.enabled : Nat := 2
abbrev Mgmt.stopping : Nat := 3
abbrev Mgmt.faulted : Nat := 4

abbrev Dp.off : Nat := 0
abbrev Dp.starting : Nat := 1
abbrev Dp.running : Nat := 2
abbrev Dp.stopping : Nat := 3
abbrev Dp.fault : Nat := 4

/-- A unit; one that is not listed is DISABLED. -/
def State.unit (s : State) (id : Nat) : UnitSt :=
  match s.units.find? (fun (u : UnitSt) => u.id == id) with
  | some u => u
  | none => ⟨id, 0, false, false, 0, 0, 0⟩

/-- Replace a unit. -/
def State.setUnit (s : State) (u : UnitSt) : State :=
  { s with units := s.units.filter (fun (x : UnitSt) => x.id != u.id) ++ [u] }

/-- Enable bit and running bit as a data-path state. -/
def dpOf (on running : Bool) : Nat :=
  match on, running with
  | true, true => Dp.running
  | true, false => Dp.starting
  | false, true => Dp.stopping
  | false, false => Dp.off

/-- The zone chain's job published in the last tick. -/
def State.zoneRuns (s : State) (z : Nat) : Bool :=
  s.jobs.all (fun (j : Job) => !j.sinks.contains (candSink z 0) || (j.ran && !j.stale))

/-- A position's data-path state (R372): from its merged control word, the node's own from its own state. -/
def State.remoteDp (s : State) (p : Nat) : Nat :=
  match s.layout? with
  | none => Dp.off
  | some l =>
    match l.pos p with
    | none => Dp.off
    | some q =>
      if q.role == 0 || bit s.ring.departed (p - 1) || s.getBit RING.CONCEAL_MAP.MAP (p - 1) then Dp.off
      else
        let st := if p = s.position then s.nodeState else s.ring.merged.at (ctrlOff p + 1) % 16
        if st = 1 then Dp.running else if st = 2 ∨ st = 3 then Dp.fault else Dp.off

/-- The data-path state from the source of the table "Unit classes". -/
def State.unitDp (s : State) (id : Nat) : Nat :=
  let i := unitIndex id
  match unitClass id with
  | 1 => dpOf (s.aud.zone i).enabled ((s.aud.zone i).enabled && s.zoneRuns i)
  | 2 => if s.flag (AUD.TDM_STAT.PIN_FAULT i) then Dp.fault else dpOf (s.flag (AUD.TDM_CFG.EN i)) (s.flag (AUD.TDM_STAT.RUN i))
  | 3 => if Nat.land (s.get AUD.PDM_STAT.MIC_STUCK) (s.get AUD.PDM_CFG.MIC_EN) != 0 then Dp.fault
    else dpOf (s.get AUD.PDM_CFG.MIC_EN != 0) (s.get AUD.PDM_STAT.CLK_RUN != 0)
  | 4 => if s.flag AUD.HDMA_CTRL.PLAY_EN || s.flag AUD.HDMA_CTRL.CAP_EN then Dp.running else Dp.off
  | 5 => if s.flag (ETH.STAT.RUN i) then (if s.flag (ETH.STAT.LINK i) then Dp.running else Dp.starting) else Dp.off
  | 6 => if i < 0x100 then (if s.flag (PTP.STX_STAT.RUN i) then Dp.running else Dp.off)
    else dpOf (s.flag (PTP.SRX_STAT.RUN (i - 0x100))) (s.flag (PTP.SRX_STAT.ARRIVING (i - 0x100)))
  | 7 => dpOf (s.flag CAN.CFG.EN) (s.flag CAN.CFG.EN && decide (s.get CAN.STAT.ERR_STATE < 2))
  | 8 => if s.getBit PWR.RAIL_STAT.FAULT i then Dp.fault else dpOf (s.getBit PWR.RAIL_STAT.EN i) (s.getBit PWR.RAIL_STAT.PG i)
  | 9 => if s.linkState i == Lk.disabled then Dp.off else Dp.running
  | 10 => let st := s.stackLink i
    if st == Lk.disabled then Dp.off else if Lk.lock ≤ st && st ≤ Lk.inRing then Dp.running else Dp.starting
  | 11 => s.remoteDp i
  | _ => Dp.off

/-- Decik writes the enable bits of the unit's hardware (R214). -/
def State.unitHw (s : State) (id : Nat) (on : Bool) : State :=
  let i := unitIndex id
  match unitClass id with
  | 1 => s.setZone i { s.aud.zone i with enabled := on }
  | 2 => if on then s.tdmEnable i else s.tdmDisable i
  | 3 => (s.set AUD.PDM_CFG.MIC_EN (if on then (s.cfg.image.loads.foldl (fun w e => if e.1 == AUD.PDM_CFG.off then e.2 % 65536 else w)
      0xFFFF) else 0)).pdmClocks
  | 4 => (s.setFlag AUD.HDMA_CTRL.PLAY_EN on).setFlag AUD.HDMA_CTRL.CAP_EN on
  | 5 => s.ethEnable i on
  | 6 => if i < 0x100 then s.streamEnable true i on else s.streamEnable false (i - 0x100) on
  | 7 => s.canEnable on
  | 8 => s.railsRun on (2 ^ i)
  | 9 => linkDisable s ⟨i % 4, Nat.mod_lt _ (by decide)⟩ (!on)
  | 10 => s.stackEnable i on
  | _ => s

/-- The domain whose block a unit needs. -/
def unitDomain (id : Nat) : Nat :=
  match unitClass id with
  | 1 => Dom.dsp
  | 2 => Dom.audioIo
  | 3 => Dom.audioIo
  | 4 => Dom.dsp
  | 5 => Dom.eth
  | 6 => Dom.eth
  | 7 => Dom.can
  | 8 => Dom.audioIo
  | 9 => Dom.ring
  | 10 => Dom.stack
  | _ => Dom.core

/-! ## Showing units (R374, R375, R377) -/

/-- The MGMT byte of a unit entry. -/
def UnitSt.mgmtByte (u : UnitSt) : Nat := u.mgmt + 8 * b2n u.restart + 16 * b2n u.diverged

/-- A unit entry of 8 bytes (R377). -/
def State.unitEntry (s : State) (id : Nat) : List Nat :=
  let u := s.unit id
  [unitClass id] ++ leBytes 2 (unitIndex id) ++ [u.mgmtByte, u.dp, u.cause] ++
    leBytes 2 (min ((s.decik.upTicks - u.changed) / 48000) 0xFFFF)

/-- UNIT_CNT shows how many units are FAULTED and diverged now; ALARM bit 8 follows at the tick. -/
def State.showUnits (s : State) : State :=
  let f := (s.units.filter (fun (u : UnitSt) => u.mgmt == Mgmt.faulted)).length
  let d := (s.units.filter (fun (u : UnitSt) => u.diverged)).length
  (s.set MBX.UNIT_CNT.FAULTED (min f 255)).set MBX.UNIT_CNT.DIVERGED (min d 255)

/-- A management change: UNIT_STATE, and a UNIT notification with the states before (R366, R375). -/
def State.unitTo (s : State) (id m : Nat) : State :=
  let u := s.unit id
  if u.mgmt = m then s
  else
    let s := s.setUnit { u with mgmt := m, changed := s.decik.upTicks, diverged := false }
    let s := s.evt MBX.UNIT_EVT.STATE 1 Src.UNIT_STATE
    (s.notify Note.unit (s.unitEntry id ++ [u.mgmtByte, u.dp])).showUnits

/-- FAULTED with its cause (1 start limit, 2 stop limit, 3 divergence): FAULTED event, UNIT_FAULTED (R374, R375). -/
def State.unitFaulted (s : State) (id cause : Nat) : State :=
  let s := s.setUnit { s.unit id with cause := cause, restart := false }
  let s := (s.unitTo id Mgmt.faulted).evt MBX.UNIT_EVT.FAULTED 1 Src.DIVERGENCE
  s.post Evt.UNIT_FAULTED 0 (leBytes 4 id ++ [cause])

/-- The data-path view as it is now; a change of it counts as a change of either view (R377). -/
def State.unitLook (s : State) (id : Nat) : State :=
  let u := s.unit id
  let dp := s.unitDp id
  if dp = u.dp then s else s.setUnit { u with dp := dp, changed := s.decik.upTicks }

/-! ## The unit state machine (R375) -/

/-- Complete the open requests that wait for a unit. -/
def State.unitDone (s : State) (id : Nat) (enable : Bool) (status : Nat) : State :=
  (s.mbx.opens.filter (fun r => match r.pend with | .unit i e _ => i == id && e == enable | _ => false)).foldl
    (fun (s : State) (r : OpenReq) =>
      let tick := match r.pend with | .unit _ _ t => t | _ => 0
      s.finish r status (if status == Status.ok then leBytes 4 tick else [])) s

/-- Start the hardware: ENABLED where the data path runs at once, else STARTING. -/
def State.unitStart (s : State) (id : Nat) : State :=
  let s := (s.unitHw id true).unitLook id
  if (s.unit id).dp == Dp.running then (s.unitTo id Mgmt.enabled).unitDone id true Status.ok else s.unitTo id Mgmt.starting

/-- The data path of a STOPPING unit is OFF: the disables complete; a pending restart starts the hardware. -/
def State.unitOff (s : State) (id : Nat) : State :=
  let s := s.unitDone id false Status.ok
  if (s.unit id).restart then
    let s := (s.setUnit { s.unit id with restart := false }).unitTo id Mgmt.starting
    let s := (s.unitHw id true).unitLook id
    if (s.unit id).dp == Dp.running then (s.unitTo id Mgmt.enabled).unitDone id true Status.ok else s
  else s.unitTo id Mgmt.disabled

/-- What the state machine makes of the data path as it is now. -/
def State.unitStep (s : State) (id : Nat) : State :=
  let s := s.unitLook id
  let u := s.unit id
  if u.mgmt == Mgmt.starting && u.dp == Dp.running then (s.unitTo id Mgmt.enabled).unitDone id true Status.ok
  else if u.mgmt == Mgmt.stopping && u.dp == Dp.off then s.unitOff id
  else s

/-- What an ENABLE is answered with at once, nothing where it must wait. A further ENABLE in STARTING waits with the first (the
table names none, notes/assumptions/49.md). -/
def UnitSt.enableAnswer (u : UnitSt) : Option Nat :=
  if u.mgmt == Mgmt.enabled then some Status.ok
  else if u.mgmt == Mgmt.faulted then some Status.wrongState
  else if u.mgmt == Mgmt.stopping && u.restart then some Status.busy
  else none

/-- ENABLE takes effect (R375). -/
def State.unitEnable (s : State) (id : Nat) : State :=
  let u := s.unit id
  match u.enableAnswer with
  | some st => s.unitDone id true st
  | none =>
    if u.mgmt == Mgmt.disabled then s.unitStart id
    else if u.mgmt == Mgmt.stopping then s.setUnit { u with restart := true }
    else s

/-- Begin the shut-down. -/
def State.unitStop (s : State) (id : Nat) : State := ((s.unitHw id false).unitTo id Mgmt.stopping).unitStep id

/-- DISABLE takes effect (R375). A further DISABLE in STOPPING waits with the first (notes/assumptions/49.md). -/
def State.unitDisable (s : State) (id : Nat) : State :=
  let u := s.unit id
  if u.mgmt == Mgmt.disabled then s.unitDone id false Status.ok
  else if u.mgmt == Mgmt.stopping then
    (if u.restart then (s.setUnit { u with restart := false }).unitDone id true Status.aborted else s)
  else (if u.mgmt == Mgmt.starting then s.unitDone id true Status.aborted else s).unitStop id

/-- DP_STATE_REACHED (R375): the data path of a STARTING unit runs, or that of a STOPPING unit is off. -/
def execDpStateReached (id : Nat) (s : State) : Host.Outcome State Fault Refusal :=
  .next (if s.decikRuns && unitKnown id then s.unitStep id else s)

/-- UNIT_START_LIMIT (R375): shut-down begins, the enable completes with TIMEOUT, FAULTED. -/
def execUnitStartLimit (id : Nat) (s : State) : Host.Outcome State Fault Refusal :=
  .next (let s := s.unitLook id
    if !s.decikRuns || !unitKnown id || (s.unit id).mgmt != Mgmt.starting then s
    else if (s.unit id).dp == Dp.running then s.unitStep id
    else ((s.unitHw id false).unitDone id true Status.timeout).unitFaulted id 1)

/-- UNIT_STOP_LIMIT (R375): pending commands complete with TIMEOUT, FAULTED. -/
def execUnitStopLimit (id : Nat) (s : State) : Host.Outcome State Fault Refusal :=
  .next (let s := s.unitLook id
    if !s.decikRuns || !unitKnown id || (s.unit id).mgmt != Mgmt.stopping then s
    else if (s.unit id).dp == Dp.off then s.unitStep id
    else ((s.unitDone id false Status.timeout).unitDone id true Status.timeout).unitFaulted id 2)

/-! ## Divergence (R374) -/

/-- The two views disagree: only in ENABLED and DISABLED are they compared. -/
def State.unitApart (s : State) (id : Nat) : Bool :=
  let m := (s.unit id).mgmt
  let dp := s.unitDp id
  (m == Mgmt.enabled && dp != Dp.running) || (m == Mgmt.disabled && dp != Dp.off)

/-- UNIT_DIVERGENCE: a disagreement has lasted 2 ms; the commanded state is re-applied once. -/
def execUnitDivergence (id : Nat) (s : State) : Host.Outcome State Fault Refusal :=
  .next (let s := s.unitLook id
    let u := s.unit id
    if !s.decikRuns || !unitKnown id || u.diverged || !s.unitApart id then s
    else
      let s := ((s.setUnit { u with diverged := true }).evt MBX.UNIT_EVT.DIVERGE 1 Src.DIVERGENCE).count MBX.UNIT_CNT.DIV_CNT 1
      let s := s.post Evt.UNIT_DIVERGENCE 0 (leBytes 4 id ++ [u.mgmtByte, u.dp])
      (s.unitHw id (u.mgmt == Mgmt.enabled)).showUnits)

/-- UNIT_DIVERGENCE_PERSIST: 2 ms after the re-application the disagreement still holds. -/
def execUnitDivergencePersist (id : Nat) (s : State) : Host.Outcome State Fault Refusal :=
  .next (let s := s.unitLook id
    if !s.decikRuns || !unitKnown id || !(s.unit id).diverged then s
    else if s.unitApart id then s.unitFaulted id 3
    else (s.setUnit { s.unit id with diverged := false }).showUnits)

/-- At every tick with Decik running: the data-path views, and divergences that ended. -/
def State.unitsTick (s : State) : State :=
  if !s.decikRuns then s
  else
    let s := allUnits.foldl (fun (s : State) (id : Nat) =>
      let s := s.unitLook id
      let x := s.unit id
      if x.diverged && !s.unitApart id then s.setUnit { x with diverged := false } else s) s
    s.showUnits

/-- REMOTE_NODE units follow the layout at every switch tick (R373, R374). -/
def State.remoteUnits (s : State) : State :=
  (List.range 32).foldl (fun (s : State) (i : Nat) =>
    let p := i + 1
    let on := match s.layout? with
      | some l => (match l.pos p with | some q => q.role != 0 | none => false)
      | none => false
    let id := unitId UClass.remote p
    let s := if (s.unit id).diverged then s.setUnit { s.unit id with diverged := false } else s
    s.unitTo id (if on then Mgmt.enabled else Mgmt.disabled)) s

end Sys2Proof.Machine
end

