-- ==== Sys2Proof/Machine/NetSleep.lean ====
section
/-! DEFINITION. Train-wide sleep and wake (chapter 18, R544 to R561): holds, the proposal and its agreement, the sleep tick, the
wake trainline, false wakes and the lone node. -/

namespace Sys2Proof.Machine

/-! ## Holds (R544 to R547) -/

/-- NSTATE values (R562). -/
abbrev Net.awake : Nat := 0
abbrev Net.proposed : Nat := 1
abbrev Net.agreed : Nat := 2
abbrev Net.validating : Nat := 3
abbrev Net.lone : Nat := 4

def State.netState (s : State) : Nat := s.get PWR.NET_STAT.NSTATE

/-- An AES67 stream unit is ENABLED and RUNNING. -/
def State.streamRuns (s : State) : Bool :=
  s.units.any (fun (u : UnitSt) => unitClass u.id == UClass.aes && u.mgmt == Mgmt.enabled && s.unitDp u.id == Dp.running)

/-- The node's holds (table "awake-hold reason codes"): code and whether it is active. -/
def State.holdCauses (s : State) : List (Nat × Bool) := [
  (0x01, s.pins.cabActive),
  (0x02, (List.range 8).any (fun i => s.callState i != CallState.closed)),
  (0x03, !s.vox.voices.isEmpty),
  (0x04, s.phase != Phase.idle || (s.ring.topoChg && s.writes) || s.inaug.merge.phase != .idle),
  (0x05, decide (1 ≤ s.get MBX.CFG_STAT.STATE)),
  (0x06, s.streamRuns),
  (0x07, s.vox.stipa.isSome || s.vox.pmon.any (fun (p : PmonSt) => p.commission.isSome) || s.storeTest.isSome),
  (0x08, Nat.land (s.get DIO.IN_STATE.VALUE) s.cfg.image.holdInputs != 0),
  (0x09, [1, 2, 3].any (fun sub => s.admitted sub && (s.member sub).hold)),
  (0x0A, s.mode == Mode.test),
  (0x0B, s.mbx.opens.any (fun (r : OpenReq) => r.ch == 3))]

/-- The host hold's reason code; 0 where none is set (R545). -/
def State.hostHold (s : State) : Nat := if s.flag PWR.HOST_HOLD.SET then s.get PWR.HOST_HOLD.REASON else 0

/-- Bit c: the hold of code c (0x01 to 0x1F) is active; a host hold of such a code counts as the node's own (R545). -/
def State.holdMap (s : State) : Nat :=
  let m := s.holdCauses.foldl (fun m (e : Nat × Bool) => if e.2 then setBit m e.1 else m) 0
  let h := s.hostHold
  if 1 ≤ h ∧ h < 0x20 then setBit m h else m

/-- The lowest-numbered active hold; 0 with none (R544). -/
def holdReason (map host : Nat) : Nat :=
  match (List.range 32).find? (fun c => bit map c) with
  | some c => c
  | none => if 0x20 ≤ host then host else 0

/-- A hold that becomes active between the agreement and the sleep tick (R556). -/
def State.wakeRequest (s : State) (reason : Nat) : State :=
  if s.net.agreed.isSome && s.awake && !s.flag PWR.NET_STAT.WAKE_PEND then
    { s.setFlag PWR.NET_STAT.WAKE_PEND true with net := { s.net with request := some reason } }
  else s

/-- The node's HOLD and reason code as they stand; Decik keeps them. -/
def State.holdsNow (s : State) : State :=
  if !s.decikRuns then s
  else
    let was := 2 * s.get PWR.HOLD_MAP.ACTIVE
    let hadHold := s.flag PWR.NET_STAT.HOLD
    let m := s.holdMap
    let reason := holdReason m s.hostHold
    let s := (s.set PWR.HOLD_MAP.ACTIVE (m / 2)).setFlag PWR.NET_STAT.HOLD (reason != 0)
    let s := s.set PWR.NET_STAT.REASON reason
    let newBits := (List.range 32).filter (fun c => bit m c && !bit was c)
    match newBits.head? with
    | some c => s.wakeRequest c
    | none => if !hadHold && reason != 0 then s.wakeRequest reason else s

/-- AWAKE of the control word: HOLD and the reason code (R544). -/
def State.awakeByte (s : State) : Nat := 128 * b2n (s.flag PWR.NET_STAT.HOLD) + s.get PWR.NET_STAT.REASON

/-- SLEEP_ACK of the control word (R549). -/
def State.sleepAck (s : State) : Bool := s.net.underProposal && !s.flag PWR.NET_STAT.HOLD

/-- The positions that own a control word in the layout in force and have not departed (R546). -/
def State.netPositions (s : State) : List Nat :=
  match s.layout? with
  | some l => ((List.range l.size).map (· + 1)).filter (fun p => l.owns p && !bit s.ring.departed (p - 1))
  | none => []

/-- The AWAKE byte of a position's merged control word. -/
def State.awakeOf (s : State) (p : Nat) : Nat := s.ring.merged.at (ctrlOff p + 2)

/-- The holding positions, ascending (R547). -/
def State.holders (s : State) : List Nat := s.netPositions.filter (fun p => bit (s.awakeOf p) 7)

/-- Show the holders (R547, R558). -/
def State.showHolders (s : State) : State :=
  let hs := s.holders
  let uid := match hs.head? with | some p => (s.uidAt p).toNat | none => 0
  let s := (s.set PWR.NET_STAT.HOLDERS hs.length).set PWR.HOLDER_MAP.MAP (hs.foldl (fun m p => setBit m (p - 1)) 0)
  s.set64 PWR.HOLDER_LO.UID PWR.HOLDER_HI.UID uid

/-! ## Proposal and agreement (R548 to R551) -/

/-- The master withdraws the proposal: position and its reason code, 0 for no acknowledgement (R550). -/
def State.withdraw (s : State) (p reason : Nat) : State :=
  let s := { s with net := { s.net with proposed := none, underProposal := false, idle := 0 } }
  let s := (s.set PWR.NET_STAT.NSTATE Net.awake).evt PWR.NET_EVT.WITHDRAW 1 Src.NET_SLEEP
  s.post Evt.SLEEP_WITHDRAWN (p - 1) [reason]

/-- Has the position acknowledged: SLEEP_ACK, or CONTROL_LOST (R550)? -/
def State.acknowledged (s : State) (p : Nat) : Bool :=
  let x := s.ring.merged.at (ctrlOff p + 1)
  bit x 5 || x % 16 == 3

/-- The proposal after a merge: acknowledgements, withdrawal, agreement (R550, R551). The next frame is the first announcing
one. -/
def State.proposalMerge (s : State) : State :=
  let ps := s.netPositions
  let acks := ps.filter (fun p => s.acknowledged p)
  let was := s.get PWR.ACK_MAP.MAP
  let lost := acks.filter (fun p => s.ring.merged.at (ctrlOff p + 1) % 16 == 3 && !bit was (p - 1))
  let s := lost.foldl (fun (s : State) (p : Nat) => s.post Evt.SLEEP_NO_CTRL (p - 1) []) s
  let s := s.set PWR.ACK_MAP.MAP (acks.foldl (fun m p => setBit m (p - 1)) was)
  match s.holders.head? with
  | some p => s.withdraw p (s.awakeOf p % 128)
  | none =>
    if ps.all (fun p => acks.contains p) then
      let t := (s.tickSeq + 1 + 480) % 2 ^ 32
      let s := { s with net := { s.net with announced := some t, proposed := none } }
      (s.agreeSleep t).post Evt.SLEEP_AGREED 0 (leBytes 4 t)
    else s

/-- After each merge, once a tick: holders; at the master the idle count, the held time and the proposal (R547, R548, R558). -/
def State.netMerge (s : State) : State :=
  let s := s.showHolders
  if !s.isMaster || !s.decikRuns then { s.set PWR.IDLE_S.SECONDS 0 with net := { s.net with idle := 0, held := 0 } }
  else
    let idle := s.holders.isEmpty
    let s := { s with net := { s.net with
      idle := if idle then s.net.idle + 1 else 0, held := if idle then 0 else s.net.held + 1 } }
    let s := (s.set PWR.IDLE_S.SECONDS (s.net.idle / 48000)).set PWR.HOLDER_STAT.HELD_MIN (min (s.net.held / 2880000) 0xFFFF)
    if s.net.proposed.isSome && s.net.announced.isNone then s.proposalMerge else s

/-- IDLE_COUNT_EXPIRE (R548, R549): the master proposes sleep from its next frame on. -/
def execIdleCountExpire (s : State) : Host.Outcome State Fault Refusal :=
  .next (if s.isMaster && s.decikRuns && s.awake && s.layout?.isSome && s.net.proposed.isNone && s.net.agreed.isNone && s.holders.isEmpty &&
      !s.flag PWR.NET_STAT.HOLD then
      let s := { s with net := { s.net with proposed := some (s.decik.upTicks + 1), underProposal := true } }
      ((s.set PWR.NET_STAT.NSTATE Net.proposed).set PWR.ACK_MAP.MAP 0).evt PWR.NET_EVT.PROPOSED 1 Src.NET_SLEEP
    else s)

/-- SLEEP_ACK_TIMEOUT (R550): 480 ticks after the first proposal frame some position has not acknowledged. -/
def execSleepAckTimeout (s : State) : Host.Outcome State Fault Refusal :=
  .next (if s.isMaster && s.net.proposed.isSome && s.net.announced.isNone then
      match s.netPositions.find? (fun p => !s.getBit PWR.ACK_MAP.MAP (p - 1)) with
      | some p => s.withdraw p (s.awakeOf p % 128)
      | none => s
    else s)

/-- What the master's frames are: `none` NORMAL, `some none` a proposal, `some (some t)` the announcement of tick `t`
(R549, R551). -/
def State.sleepFrames (s : State) : Option (Option Nat) :=
  match s.net.announced with
  | some t => some (some t)
  | none => if s.net.proposed.isSome then some none else none

/-- The master launches no frame numbered s or later (R552). -/
def State.sleepSilent (s : State) : Bool :=
  match s.net.announced with
  | some t => !seqLater t s.tickSeq
  | none => false

/-- An accepted frame (R549, R551, R559): another node's frame is valid communication; a SLEEP frame proposes or announces; any
other ends the acknowledgement. -/
def State.netFrame (s : State) (b : Bytes) : State :=
  let s := if b.hMaster != s.uid then s.validComm else s
  if s.net.agreed.isSome then s
  else if b.ftype == 4 then
    if bit b.hFlags 0 then s.agreeSleep b.hEventTseq
    else
      let s := { s with net := { s.net with lastProposal := some (s.decik.upTicks, b.hMaster), underProposal := true } }
      if s.netState == Net.awake then (s.set PWR.NET_STAT.NSTATE Net.proposed).evt PWR.NET_EVT.PROPOSED 1 Src.NET_SLEEP else s
  else if s.isMaster then s
  else
    let s := { s with net := { s.net with underProposal := false } }
    if s.netState == Net.proposed then s.set PWR.NET_STAT.NSTATE Net.awake else s

/-- SLEEP_TICK (R552): a node that holds the agreement begins the entry with TARGET = SLEEP. One whose Decik is stopped enters
no state by itself (R561). -/
def execSleepTick (s : State) : Host.Outcome State Fault Refusal :=
  .next (if s.net.agreed.isSome && s.awake && s.decikRuns then s.entryStart Pw.sleep else s)

/-! ## The wake trainline (R553 to R557) -/

/-- WAKE_IN_ASSERT: the level has stayed asserted for 1 ms. A stuck input counts again after 1 s deasserted (R555). -/
def execWakeInAssert (s : State) : Host.Outcome State Fault Refusal :=
  .next (if s.pins.wakeIn then s
    else
      let s := { s.setFlag PWR.WAKE_OUT.IN true with pins := { s.pins with wakeIn := true } }
      let rested := match s.net.lowFrom with | some t => decide (t + 3000000000 ≤ s.rtc) | none => false
      if s.net.stuck && !rested then { s with net := { s.net with lowFrom := none } }
      else State.wakeEvents { s with net := { s.net with stuck := false, lowFrom := none } } [(1, 0)])

/-- WAKE_IN_DEASSERT: a pulse that had not lasted 1 ms is counted; at a stuck input the 1 s begins. -/
def execWakeInDeassert (s : State) : Host.Outcome State Fault Refusal :=
  .next (let s := if s.pins.wakeIn then s else s.count PWR.WAKE_OUT.FILTERED 1
    let s := { s.setFlag PWR.WAKE_OUT.IN false with pins := { s.pins with wakeIn := false } }
    if s.net.stuck then { s with net := { s.net with lowFrom := some s.rtc } } else s)

/-- WAKE_IN_STUCK (R555). -/
def execWakeInStuck (s : State) : Host.Outcome State Fault Refusal :=
  .next (if s.pins.wakeIn && !s.net.stuck then
      let s := { s with net := { s.net with stuck := true, lowFrom := none } }
      (s.evt PWR.NET_EVT.IN_STUCK 1 Src.NET_SLEEP).postBy .power Evt.WAKE_IN_STUCK 0 []
    else s)

/-- WAKE_OUT_PULSE_END (R554). -/
def execWakeOutPulseEnd (s : State) : Host.Outcome State Fault Refusal := .next (s.setFlag PWR.WAKE_OUT.DRIVE false)

/-! ## Who keeps the train awake (R558) -/

/-- HELD_TIME_RECORD: one SLEEP_HELD record per holder, 8 at most. -/
def execHeldTimeRecord (s : State) : Host.Outcome State Fault Refusal :=
  .next (let hs := s.holders
    if !s.isMaster || !s.decikRuns || hs.isEmpty then s
    else
      let mins := s.get PWR.HOLDER_STAT.HELD_MIN
      let s := (hs.take 8).foldl (fun (s : State) (p : Nat) =>
        s.post Evt.SLEEP_HELD 0 ([p, s.awakeOf p % 128] ++ leBytes 2 mins ++ leBytes 4 (s.uidAt p).toNat)) s
      (s.count PWR.HOLDER_STAT.OMITTED (hs.length - 8)).evt PWR.NET_EVT.HOLDER_REC 1 Src.NET_SLEEP)

/-! ## False wakes (R559, R560) -/

/-- The validation period begins at the end of STARTING after a wake start (R559). -/
def State.validateStart (s : State) : State :=
  if s.mode == Mode.normal && s.pwr.wakeStart then
    { s.set PWR.NET_STAT.NSTATE Net.validating with net := { s.net with validate := some s.decik.upTicks } }
  else s

/-- WAKE_VALID_EXPIRE: no valid communication within WAKE_VALID: the wake is false, and the node is LONE. -/
def execWakeValidExpire (s : State) : Host.Outcome State Fault Refusal :=
  .next (if s.netState == Net.validating && s.mode == Mode.normal then
      let src := s.get PWR.WAKE_SRC.SRC
      let s := ((s.count PWR.FALSE_WAKE.COUNT 1).set PWR.FALSE_WAKE.LAST_SRC src).evt PWR.NET_EVT.FALSE_WAKE 1 Src.NET_SLEEP
      let s := s.post Evt.FALSE_WAKE 0 [src, s.get PWR.WAKE_SRC.DETAIL]
      { s.set PWR.NET_STAT.NSTATE Net.lone with net := { s.net with validate := none, lone := 0 } }
    else s)

/-- The lone count of a tick (R560). -/
def State.loneTick (s : State) : State :=
  if s.netState == Net.lone && s.mode == Mode.normal then
    { s with net := { s.net with lone := if s.flag PWR.NET_STAT.HOLD then 0 else s.net.lone + 1 } }
  else s

/-- LONE_COUNT_EXPIRE: the entry with TARGET = SLEEP, as though it had agreed. -/
def execLoneCountExpire (s : State) : Host.Outcome State Fault Refusal :=
  .next (if s.netState == Net.lone && s.mode == Mode.normal && s.awake && s.decikRuns && !s.flag PWR.NET_STAT.HOLD then
      ((s.evt PWR.NET_EVT.LONE_SLEEP 1 Src.NET_SLEEP).post Evt.LONE_SLEEP 0 []).entryStart Pw.sleep
    else s)

/-- CAB_ACTIVE_CHANGE is in Compose: its CAB_REPORT needs the layout. The holds follow the level. -/
def State.cabLevel (s : State) (on : Bool) : State := State.holdsNow { s with pins := { s.pins with cabActive := on } }

end Sys2Proof.Machine
end

