-- ==== Sys2Proof/Machine/Domains.lean ====
section
/-! DEFINITION. Votes and power domains in QUIET (R497 to R502), job admission (R35 to R37), ACTIVE and QUIET. -/

namespace Sys2Proof.Machine

/-! ## Job admission (R34 to R37) -/

/-- The scheduler's overhead per core and tick. -/
abbrev schedOverhead : Nat := 250

/-- The cycles taken on a core. -/
def coreLoad (jobs : List Job) (c : Nat) : Nat :=
  (jobs.filter (fun (j : Job) => j.core == c && !j.stopped)).foldl (fun a (j : Job) => a + j.cost) schedOverhead

/-- The first core with room for a job (R36). -/
def coreFor (jobs : List Job) (budget cost : Nat) : Option Nat :=
  (List.range 4).find? (fun c => decide (coreLoad jobs c + cost ≤ budget))

/-- Place jobs in their order on the first core with room; none where one finds no room (R35, R36). -/
def placeJobs (budget : Nat) : List Job → List Job → Option (List Job)
  | placed, [] => some placed
  | placed, j :: rest =>
    match coreFor placed budget j.cost with
    | some c => placeJobs budget (placed ++ [{ j with core := c }]) rest
    | none => none

/-- The admission budget at the point in force. -/
def State.budget (s : State) : Nat := pointBudget (s.get PWR.PERF.FREQ_PT)

/-- DSP_LOADn.ADMIT shows the admitted cycles. -/
def State.showLoad (s : State) : State :=
  (List.range 4).foldl (fun (s : State) (c : Nat) => s.set (GLB.DSP_LOAD.ADMIT c) (min (coreLoad s.jobs c) 0xFFFF)) s

/-- Has a core room for a job of a command (R36)? -/
def State.roomFor (s : State) (cost : Nat) : Bool := (coreFor s.jobs s.budget cost).isSome

/-- Add a command's job (R36, R42). -/
def State.addJob (s : State) (opcode index cost : Nat) (sinks : List Nat) : State :=
  match coreFor s.jobs s.budget cost with
  | some c => State.showLoad { s with jobs := s.jobs ++ [⟨c, cost, 1, false, sinks, false, false, false, false, opcode * 65536 + index, false⟩] }
  | none => s

/-- A command's job ends. -/
def State.dropJob (s : State) (opcode index : Nat) : State :=
  State.showLoad { s with jobs := s.jobs.filter (fun (j : Job) => j.owner != opcode * 65536 + index) }

/-- Do the retained jobs fit a point (R37)? -/
def State.retainedFit (s : State) (pt : Nat) : Bool :=
  (List.range 4).all (fun c => decide (coreLoad (s.jobs.filter (fun (j : Job) => j.retained)) c ≤ pointBudget pt))

/-! ## Votes (R496, R499) -/

/-- Is a unit of one of the classes ENABLED? -/
def State.unitsOn (s : State) (classes : List Nat) : Bool :=
  s.units.any (fun (u : UnitSt) => classes.contains (unitClass u.id) && u.mgmt == Mgmt.enabled)

/-- Is a unit ENABLED? -/
def State.unitOn (s : State) (id : Nat) : Bool := (s.unit id).mgmt == Mgmt.enabled

/-- Does a call, a voice, a STIPA run or a recorder channel keep the audio path? -/
def State.audioActive (s : State) : Bool :=
  s.unitsOn [UClass.zone, UClass.tdm, UClass.mics, UClass.host, UClass.rail] ||
    (List.range 8).any (fun i => s.callState i != CallState.closed) || !s.vox.voices.isEmpty || s.vox.stipa.isSome ||
    s.get AUD.REC_STAT.ACTIVE != 0

/-- Is a stream unit of the port ENABLED? -/
def State.portStreams (s : State) (p : Nat) : Bool :=
  s.eth.streams.any (fun (x : RtpStream) => x.port == p && s.unitOn (unitId UClass.aes (if x.tx then x.ix else x.ix + 0x100)))

/-- Does a running test need the domain (client TEST)? -/
def State.testNeeds (s : State) (d : Nat) : Bool :=
  s.mode == Mode.test &&
    ((d == Dom.storeCtl && s.storeTest.isSome) || (d == Dom.ring && (List.range 4).any (fun n => s.get (RING.LTEST.MODE n) != 0)) ||
     (d == Dom.stack && [0, 1].any (fun p => s.get (STK.LTEST.MODE p) != 0)) ||
     (d == Dom.eth && [0, 1].any (fun p => s.get (TST.ELANE.MODE p) != 0)))

/-- Has the train passed an agreed sleep tick, or does the node enter? -/
def State.sleeping (s : State) : Bool := s.net.agreed.isSome && s.isEntering

/-- The clients' bits of a domain. -/
def State.votesOf (s : State) (d : Nat) : Nat :=
  let v : List Bool := [
    bit (2 * s.get PWR.HOST_VOTE.VOTE) d,
    (d == Dom.core && s.decikRuns) || bit s.cfg.image.retained d ||
      (d == Dom.stack && ((s.isHead && s.get STK.STAT.MEMBERS != 0) || s.isMember)),
    d == Dom.ring && (List.range 4).any (fun n => s.inRing n) && !s.sleeping,
    d == Dom.core && (s.mbx.opens.any (fun (r : OpenReq) => r.ch == 3) || decide (s.pwr.remoteIdle < 48000)),
    d == Dom.can && s.unitOn (unitId UClass.can 0),
    d == Dom.eth && (s.unitOn (unitId UClass.eth 0) || s.portStreams 0),
    d == Dom.eth && (s.unitOn (unitId UClass.eth 1) || s.portStreams 1),
    ((d == Dom.dsp || d == Dom.audioIo) && s.audioActive) || (d == Dom.sec && s.flag AUD.REC_STAT.RUN && s.flag AUD.REC_STAT.ENC),
    s.testNeeds d]
  v.foldr (fun b a => b2n b + 2 * a) 0

/-- The domains that depend directly on a domain at ON (table "power domains"). -/
def dependents (d : Nat) : List Nat :=
  if d = Dom.core then [2, 3, 4, 5, 6, 7, 8, 11]
  else if d = Dom.storeCtl then [1, 2, 3, 4, 5, 6, 7, 8]
  else if d = Dom.storeArray then [9]
  else if d = Dom.sec then [3]
  else []

/-- Is a domain held at ON by one that depends on it (R498)? -/
def State.depHeld (s : State) (d : Nat) : Bool := (dependents d).any (fun e => s.get (PWR.VOTE.LEVEL e) == 2)

/-- Clients keep their bits current in every state in which they run (R501). -/
def State.showVotes (s : State) : State :=
  (List.range 11).foldl (fun (s : State) (i : Nat) =>
    let d := i + 1
    (s.set (PWR.VOTE.CLIENTS d) (s.votesOf d)).setFlag (PWR.VOTE.DEP d) (s.depHeld d)) s

/-! ## Domains that drop and rise in QUIET (R498, R502) -/

/-- Registers that a predicate names read as at reset. -/
def State.clearRegs (s : State) (p : Nat → Bool) : State := { s with regs := s.regs.filter (fun e => !p e.1) }

/-- The DSP domain drops: its registers but those of R296, and what the engine had in hand. -/
def State.dspDown (s : State) : State :=
  let head := s.get AUD.REC_HEAD.UNIT
  let locked := s.word AUD.REC_LOCKED.off
  let enc := s.flag AUD.REC_STAT.ENC
  let v := (List.range 16).map (fun z => s.get (AUD.PMON_STAT.VERDICT z))
  let s := ((s.clearRegs dspReg).set AUD.REC_HEAD.UNIT head).setWord AUD.REC_LOCKED.off locked
  let s := s.setFlag AUD.REC_STAT.ENC enc
  let s := (List.range 16).foldl (fun (s : State) (z : Nat) =>
    s.set (AUD.PMON_STAT.VERDICT z) (if v.getD z 0 == Verdict.notCommissioned then Verdict.notCommissioned else Verdict.unknown)) s
  { s with aud := { s.aud with sources := [], outs := [], meters := [] } }

/-- The RING domain drops: links, ring engine, sync and redundancy as at reset; durable memory stays. -/
def State.ringDown (s : State) : State :=
  let n := s.ring.nonceEnd
  { (s.resetRegs 0x03000 0x06000).setFlag AUD.STAT.MCLK_LOCK false with
    ring := { RingSt.reset with nonceEnd := n }
    inaug := InaugSt.reset
    red := RedSt.reset
    links := State.reset.links }

/-- The SEC domain drops: its registers but those of AO, and the keys in the engines. -/
def State.secDown (s : State) : State :=
  let tamper := s.flag SEC.STAT.TAMPER
  let cause := s.get SEC.STAT.CAUSE
  let s := s.clearRegs (fun off => decide (0x14000 ≤ off) && decide (off < 0x15000) && off != SEC.TMP_CFG.off && off != SEC.TMP_CNT.off)
  { (s.setFlag SEC.STAT.TAMPER tamper).set SEC.STAT.CAUSE cause with engines := State.reset.engines }

/-- The PCIE domain drops: the link with it, and MSI-X back to reset (R500, R631). -/
def State.pcieOff (s : State) : State :=
  let s := if s.flag BRG.HOST_STAT.LINK_UP then s.pcieDown else s
  State.irqLevel { s.setFlag BRG.HOST_STAT.MSIX_EN false with msix := State.reset.msix }

/-- Links of enabled lines leave DISABLED where the RING domain is up (R59). -/
def State.startLinks (s : State) : State :=
  (List.range 4).foldl (fun (s : State) (i : Nat) =>
    let n : LinkIx := ⟨i % 4, Nat.mod_lt _ (by decide)⟩
    if s.linkState i == Lk.disabled && s.linkEnabled n then s.linkTo n Lk.detect else s) s

/-- Stack ports train where the STACK domain is up (R481). -/
def State.startStack (s : State) : State := (s.stackEnable 0 true).stackEnable 1 true

/-- A domain drops to OFF. -/
def State.dropDomain (s : State) (d : Nat) : State :=
  let s := match d with
    | 2 => s.dspDown
    | 3 => s.ringDown
    | 4 => s.stackDown
    | 5 => s.ethDown false
    | 6 => s.pcieOff
    | 7 => s.canDown
    | 8 => s.clearRegs audioIoReg
    | 11 => s.secDown
    | _ => s
  s.setLevel d 0

/-- A domain rises to ON: what starts by itself; keys are loaded again. -/
def State.raiseDomain (s : State) (d : Nat) : State :=
  let s := s.setLevel d 2
  match d with
  | 3 => s.startLinks
  | 4 => s.startStack
  | 7 => s.canUp
  | 11 => s.loadEngines
  | _ => s

/-- The domains that QUIET may drop, dependents first. -/
def quietDomains : List Nat := [2, 3, 4, 5, 6, 7, 8, 11]

/-- Is the domain wanted in QUIET: a vote, or a wanted domain that depends on it? -/
def State.wanted (s : State) (d : Nat) : Bool := s.votesOf d != 0 || (d == Dom.sec && s.votesOf Dom.ring != 0)

/-- In QUIET the domains follow the votes: drops dependents first, raises in the forward order (R498, R501). -/
def State.followVotes (s : State) : State :=
  let s := quietDomains.foldl (fun (s : State) (d : Nat) =>
    if s.get (PWR.VOTE.LEVEL d) == 2 && !s.wanted d then s.dropDomain d else s) s
  [11, 2, 3, 4, 5, 6, 7, 8].foldl (fun (s : State) (d : Nat) =>
    if s.get (PWR.VOTE.LEVEL d) != 2 && s.wanted d then s.raiseDomain d else s) s

/-- The votes of a tick, and in QUIET what follows from them. -/
def State.votesTick (s : State) : State :=
  if !s.awake then s
  else
    let r := s.mbx.opens.any (fun (x : OpenReq) => x.ch == 3)
    let s := { s with pwr := { s.pwr with remoteIdle := if r then 0 else s.pwr.remoteIdle + 1 } }
    let s := s.showVotes
    if s.pwrState == Pw.quiet then s.followVotes.showVotes else s

/-- HOST_VOTE_WRITE (R500): CORE to SEC. -/
def State.hostVote (s : State) (votes : Nat) : State :=
  let s := s.set PWR.HOST_VOTE.VOTE votes
  let s := s.showVotes
  if s.pwrState == Pw.quiet then s.followVotes.showVotes else s

/-- HOST_VOTE_WRITE. -/
def execHostVoteWrite (votes : Fin 2048) (s : State) : Host.Outcome State Fault Refusal :=
  .next (s.access PWR.HOST_VOTE.off (fun s => s.hostVote votes))

/-! ## ACTIVE and QUIET (R37, R505, R509) -/

/-- Decik changes the point in the order that the power controller enforces (R509, R510): frequency first on the way down,
voltage first on the way up; the frequency takes effect at the next boundary. -/
def State.pointTo (s : State) (pt : Nat) : State :=
  if s.get PWR.PERF.FREQ_PT == pt && s.get PWR.PERF.VOLT_PT == pt then s
  else
    let s := (s.set PWR.PERF.FREQ_PT pt).set PWR.PERF.VOLT_PT pt
    { s with pwr := { s.pwr with freqNext := true } }

/-- ACTIVE to QUIET: jobs not retained stop and fade, the point falls, unvoted domains drop. -/
def State.toQuiet (s : State) : State :=
  let s := { s with jobs := s.jobs.map (fun (j : Job) => if j.retained then j else { j with stopped := true, stale := true }) }
  (((s.showLoad.pointTo (s.get PWR.CFG.QUIET_POINT)).powerTo Pw.quiet).showVotes.followVotes).showVotes

/-- QUIET to ACTIVE: every domain rises, the point is P0, the stopped jobs start. -/
def State.toActive (s : State) : State :=
  let s := [11, 2, 3, 4, 5, 6, 7, 8].foldl (fun (s : State) (d : Nat) =>
    if s.get (PWR.VOTE.LEVEL d) != 2 then s.raiseDomain d else s) s
  let s := { s with jobs := s.jobs.map (fun (j : Job) => if j.stopped then { j with stopped := false, stale := false, ran := false } else j) }
  ((s.showLoad.pointTo 0).powerTo Pw.active).showVotes

end Sys2Proof.Machine
end

