-- ==== Sys2Proof/Machine/SelfTest.lean ====
section
/-! DEFINITION. The store test and the Ethernet lane tests (chapter 21, R607, R608, R610). Start-up BIST is part of the
start. -/

namespace Sys2Proof.Machine

/-- STORE_TEST_DONE (R607): what the test found: mismatched words and the offset of the first. The open command is answered by
FINAL_RESPONSE. -/
def execStoreTestDone (errors first : Nat) (s : State) : Host.Outcome State Fault Refusal := .next (s.storeTestEnd errors first false)

/-- A write of TST.ELANEn (R608): MODE only in service mode TEST with the port disabled; a changed MODE clears the counters;
INJECT inverts one transmitted PRBS bit. -/
def State.elaneWrite (s : State) (port mode : Nat) (inject : Bool) : State :=
  let open_ := s.mode == Mode.test && !s.flag (ETH.CFG.EN port)
  let s := if open_ && s.get (TST.ELANE.MODE port) != mode then
      (((s.set (TST.ELANE.MODE port) mode).set (TST.ELANE_ERR.ERR port) 0).set (TST.ELANE_BITS.BITS port) 0).setFlag (TST.ELANE.CHK_LOCK port) false
    else s
  if inject && decide (2 ≤ s.get (TST.ELANE.MODE port)) then
    let s := s.emit (.prbsInvert (6 + port))
    if s.get (TST.ELANE.MODE port) == 3 && s.flag (TST.ELANE.CHK_LOCK port) then s.count (TST.ELANE_ERR.ERR port) 1 else s
  else s

/-- ELANE_MODE_WRITE. -/
def execElaneModeWrite (port : Fin 2) (mode : Fin 4) (inject : Bool) (s : State) : Host.Outcome State Fault Refusal :=
  .next (s.access (TST.ELANE.off port) (fun s => s.elaneWrite port mode inject))

end Sys2Proof.Machine
end

