-- ==== Sys2Proof/Machine/Regs.lean ====
section
/-! DEFINITION. Reads and writes of the BAR0 registers: the access codes (R9), reserved bits (R10), access sizes (R11), undefined
offsets (R12), domains that are down (R623), locks, ignored values and the side effects of the tables' special fields. -/

namespace Sys2Proof.Machine

/-! ## Reading -/

/-- The offsets at which an element of a register family of `count` registers stands. -/
def famIndex (off base stride count : Nat) : Option Nat :=
  if decide (base ≤ off) && (off - base) % stride == 0 && decide ((off - base) / stride < count) then some ((off - base) / stride) else none

/-- A 64-bit value's words. -/
def loWord (x : Nat) : Word := BitVec.ofNat 32 x
def hiWord (x : Nat) : Word := BitVec.ofNat 32 (x / 2 ^ 32)

/-- Node time, PTP time and the RTC in ns at a time since the tick boundary (R184, R449, R523). -/
def State.timeAt (s : State) (phaseNs : Nat) : Nat := (s.clk.thirds + 3 * phaseNs) / 3
def State.rtcAt (s : State) (phaseNs : Nat) : Nat := (s.rtc + 3 * phaseNs) / 3

/-- The second half that a read of a first half captures: the register that holds it, and the value (R46, R185, R449, R523). -/
def State.secondHalf (s : State) (off phaseNs : Nat) : Option (Nat × Nat) :=
  if off == GLB.TICK_SEQ.off then some (GLB.TICK_PHASE.off, phaseNs)
  else if off == SYNC.TIME_LO.off then some (SYNC.TIME_HI.off, s.timeAt phaseNs / 2 ^ 32)
  else if off == PTP.TIME_LO.off then some (PTP.TIME_HI.off, ptpBits (s.ptpNs phaseNs) / 2 ^ 32)
  else if off == PWR.RTC_LO.off then some (PWR.RTC_HI.off, s.rtcAt phaseNs / 2 ^ 32)
  else none

/-- The value of a second half: what was captured, or a fresh sample. -/
def State.halfValue (s : State) (off fresh : Nat) : Word :=
  match s.clk.cap with
  | some (o, v) => BitVec.ofNat 32 (if o == off then v else fresh)
  | none => BitVec.ofNat 32 fresh

/-- Fields that copy the straps, the OTP and the ROM (the signature of revision B1, R604): they read so in every state of their domain (R623). -/
def State.strapWord (s : State) (off : Nat) : Word :=
  let w := s.word off
  if off == GLB.UID_LO.off then loWord s.uid.toNat
  else if off == GLB.UID_HI.off then hiWord s.uid.toNat
  else if off == GLB.STRAPS.off then
    BitVec.ofNat 32 (s.straps.bootSrc % 4 + 4 * b2n s.straps.hostSpi + 16 * b2n s.straps.carEnd + 64 * (s.straps.stackRole % 4) +
      256 * (s.straps.i2cAdr % 8))
  else if off == RING.PORT_CFG.off then putBits w 0 0 (b2n s.straps.carEnd)
  else if off == BRG.HOST_STAT.off then putBits (putBits w 22 16 (0x58 + s.straps.i2cAdr % 8)) 1 0 (b2n s.straps.hostSpi)
  else if off == MBX.STAT.off then putBits w 2 1 s.hostCh
  else if off == TST.EXP.off 0 then BitVec.ofNat 32 0x7D41C09E
  else if off == TST.EXP.off 1 then BitVec.ofNat 32 0x25B36F18
  else if off == TST.EXP.off 2 then BitVec.ofNat 32 0x9A06E4D2
  else if off == TST.EXP.off 3 then BitVec.ofNat 32 0x1C8F573B
  else w

/-- Fields that show what the node holds elsewhere. -/
def State.liveWord (s : State) (off phaseNs : Nat) : Word :=
  let w := s.strapWord off
  if off == GLB.TICK_PHASE.off then s.halfValue off phaseNs
  else if off == SYNC.TIME_LO.off then loWord (s.timeAt phaseNs)
  else if off == SYNC.TIME_HI.off then s.halfValue off (s.timeAt phaseNs / 2 ^ 32)
  else if off == PTP.TIME_LO.off then loWord (ptpBits (s.ptpNs phaseNs))
  else if off == PTP.TIME_HI.off then s.halfValue off (ptpBits (s.ptpNs phaseNs) / 2 ^ 32)
  else if off == PWR.RTC_LO.off then loWord (s.rtcAt phaseNs)
  else if off == PWR.RTC_HI.off then s.halfValue off (s.rtcAt phaseNs / 2 ^ 32)
  else if off == INTC.STAT_LO.off then BitVec.ofNat 32 (s.statWord false)
  else if off == INTC.STAT_HI.off then BitVec.ofNat 32 (s.statWord true)
  else if off == AUD.STAT.off then putBits (putBits w 1 1 (s.get SYNC.MCLK_STAT.PLL_LOCK)) 0 0 1
  else if off == MBX.STAT.off then putBits w 0 0 (b2n s.decikRuns)
  else if off == RED.STAT.off then putBits w 6 6 (b2n (s.twinOn && s.flag RED.TWIN_CFG.HOT))
  else if off == STK.STAT.off then putBits w 14 14 (b2n s.twinOn)
  else if off == CAN.STAT.off then putBits w 29 16 (min 9999 (((s.clk.thirds : Int) - s.can.start + 3 * phaseNs) / 3000).toNat)
  else w

/-- Fields that a receiver or a timer measures: free values, within the limits that the spec gives (notes/assumptions/50.md). -/
def State.measured (s : State) (off : Nat) (w : Word) : Word × State :=
  match famIndex off (RING.RXEQ.off 0) 0x10 4, famIndex off (RING.DFE.off 0) 0x10 4 with
  | some n, _ =>
    if !s.flag (RING.LINKSTAT.BLOCK_LOCK n) then (w, s)
    else
      let (x, s) := s.fresh
      let code := if s.flag (RING.RXEQ.CTLE_FORCE n) then s.get (RING.RXEQ.CTLE_SET n) else x / 2 ^ 16
      (putBits (putBits w 31 16 x) 3 0 code, s)
  | none, some n =>
    if !s.flag (RING.LINKSTAT.BLOCK_LOCK n) then (w, s)
    else
      let (x, s) := s.fresh
      (putBits w 29 0 x, s)
  | none, none =>
    if off == RING.STG_STAT.off && s.writes then
      let (x, s) := s.fresh
      (putBits w 15 0 x, s)
    else if off == SYNC.MCLK_STAT.off && s.flag SYNC.MCLK_STAT.PLL_LOCK then
      let (x, s) := s.fresh
      (putBits w 15 8 (ofSigned 8 ((x % 81 : Nat) - 40)), s)
    else (w, s)

/-- Every RC field of the register reads zero from now on (R9). -/
def State.readClear (s : State) (off : Nat) : State :=
  let w := (fieldsAt off).foldl (fun (w : Word) (f : FieldSpec) => if f.acc == .rc then putBits w f.hi f.lo 0 else w) (s.word off)
  s.setWord off w

/-- Is MSI-X configuration reachable: PCIe host, domain up (R623)? -/
def State.msixReach (s : State) : Bool := !s.straps.hostSpi && s.domOn Dom.pcie

/-- An entry of a sparse list of words. -/
def entryOf (l : List (Nat × Nat)) (k : Nat) : Nat := Sparse.get (fun _ => 0) l k

/-- A word of the MSI-X table or the pending-bit array (R622, R630). -/
def State.msixWord (s : State) (off : Nat) : Word :=
  if !s.msixReach then 0
  else if off == 0x3F800 then loWord s.msix.pba
  else if off == 0x3F804 then hiWord s.msix.pba
  else if decide (0x3F000 ≤ off) && decide (off < 0x3F400) then
    let v := (off - 0x3F000) / 16
    match off % 16 with
    | 0 => BitVec.ofNat 32 (entryOf s.msix.addrLo v)
    | 4 => BitVec.ofNat 32 (entryOf s.msix.addrHi v)
    | 8 => BitVec.ofNat 32 (entryOf s.msix.data v)
    | _ => if bit s.msix.unmasked v then 0 else 1
  else 0

/-- The read of an aligned register word by the host or by Decik on a bridge request, at a time since the tick boundary. -/
def State.regRead (s : State) (off phaseNs : Nat) : Word × State :=
  if decide (0x3F000 ≤ off) then (s.msixWord off, { s with clk := { s.clk with cap := none } })
  else if !s.domOn (regDomain off) then (s.strapWord off, { s with clk := { s.clk with cap := none } })
  else
    let w := s.liveWord off phaseNs
    let half := s.secondHalf off phaseNs
    let s := { s with clk := { s.clk with cap := half } }
    match famIndex off (BRG.SEM.off 0) 4 32, famIndex off (BRG.TWIN_BAR.off 0) 0x20 16 with
    | some k, _ =>
      let r := s.semRead k
      (BitVec.ofNat 32 r.1, r.2)
    | none, some n => (BitVec.ofNat 32 (s.barValue n), s)
    | none, none =>
      if off == ETH.TSQ_STAT.off 0 then ((s.tsqRead 0).1, (s.tsqRead 0).2)
      else if off == ETH.TSQ_STAT.off 1 then ((s.tsqRead 1).1, (s.tsqRead 1).2)
      else
        let (w, s) := s.measured off w
        (w, s.readClear off)

/-- A read of `n` bytes (R11): within one aligned word it reads the word; otherwise zero and no effect. -/
def State.readBytes (s : State) (addr n phaseNs : Nat) : Nat × State :=
  if n = 0 ∨ 4 < addr % 4 + n then (0, { s with clk := { s.clk with cap := none } })
  else
    let r := s.regRead (addr / 4 * 4) phaseNs
    (r.1.toNat / 2 ^ (8 * (addr % 4)) % 2 ^ (8 * n), r.2)

/-- A host's register read, with its completion. -/
def State.hostRegRead (s : State) (addr n phaseNs : Nat) : State :=
  let r := s.readBytes addr n phaseNs
  r.2.emit (.hostRead r.1)

/-- RC_FIELD_READ (R9, R11, R12): any register read without a row of its own, of 1 to 4 bytes. -/
def execRcFieldRead (addr n : Nat) (phaseNs : Fin 20854) (s : State) : Host.Outcome State Fault Refusal :=
  .next (s.hostRegRead addr n phaseNs)

/-- TICK_SEQ_READ (R46). -/
def execTickSeqRead (phaseNs : Fin 20854) (s : State) : Host.Outcome State Fault Refusal :=
  .next (s.hostRegRead GLB.TICK_SEQ.off 4 phaseNs)

/-- SYNC_TIME_LO_READ (R185). -/
def execSyncTimeLoRead (phaseNs : Fin 20854) (s : State) : Host.Outcome State Fault Refusal :=
  .next (s.hostRegRead SYNC.TIME_LO.off 4 phaseNs)

/-- PTP_TIME_LO_READ (R449). -/
def execPtpTimeLoRead (phaseNs : Fin 20854) (s : State) : Host.Outcome State Fault Refusal :=
  .next (s.hostRegRead PTP.TIME_LO.off 4 phaseNs)

/-- RTC_LO_READ (R523). -/
def execRtcLoRead (phaseNs : Fin 20854) (s : State) : Host.Outcome State Fault Refusal :=
  .next (s.hostRegRead PWR.RTC_LO.off 4 phaseNs)

/-! ## Writing -/

/-- Does a write set a reserved bit of a defined register (R10)? -/
def reservedHit (off : Nat) (w : Word) : Bool :=
  let fs := fieldsAt off
  let known := fs.foldl (fun (m : Word) (f : FieldSpec) => m ||| maskBits f.hi f.lo) 0
  !fs.isEmpty && w &&& ~~~ known != 0

/-- Fields whose writes outside a range are ignored: high bit, low bit, least, greatest value. -/
def rangesOf (off : Nat) : List (Nat × Nat × Nat × Nat) :=
  if off == RING.LINK_QUAL.off then [(9, 0, 10, 1000)]
  else if off == RING.INAUG_CFG.off then [(15, 8, 16, 128)]
  else if off == SYNC.CFG.off then [(26, 16, 50, 2000), (9, 0, 20, 1000)]
  else if off == SYNC.HOLD.off then [(9, 0, 8, 1000)]
  else if off == AUD.HDMA_CTRL.off then [(27, 16, 16, 4095)]
  else if off == STORE.CFG.off then [(7, 1, 1, 24)]
  else if off == BRG.CFG.off then [(8, 0, 16, 480)]
  else if off == ETH.CFG.off 0 || off == ETH.CFG.off 1 then [(2, 1, 1, 2)]
  else if off == ETH.HR_CTRL.off 0 || off == ETH.HR_CTRL.off 1 then [(26, 16, 16, 1024)]
  else if off == PWR.CFG.off then [(1, 0, 1, 2)]
  else if off == PWR.NET_CFG.off then [(31, 16, 10, 65535), (15, 8, 5, 255), (7, 0, 1, 100)]
  else if (famIndex off (DIO.INCFG.off 0) 4 32).isSome then [(8, 0, 1, 510)]
  else if (famIndex off (DIO.INTIM.off 0) 4 32).isSome then [(31, 16, 1, 65535)]
  else []

/-- A field after a write, by its access code (R9). -/
def FieldSpec.written (f : FieldSpec) (locked : Bool) (old w a : Word) : Word :=
  match f.acc with
  | .rw => putBits a f.hi f.lo (bitsOf w f.hi f.lo)
  | .rwl => if locked then a else putBits a f.hi f.lo (bitsOf w f.hi f.lo)
  | .w1c => putBits a f.hi f.lo (bitsOf (old &&& ~~~ w) f.hi f.lo)
  | _ => a

/-- A write of a register under the access codes alone; ignored values keep the field. -/
def State.plain (s : State) (off : Nat) (w : Word) (locked : Bool) : State :=
  let old := s.word off
  let new := (fieldsAt off).foldl (fun (a : Word) (f : FieldSpec) => f.written locked old w a) old
  let keep := (rangesOf off).foldl (fun (a : Word) (r : Nat × Nat × Nat × Nat) =>
    let x := bitsOf a r.1 r.2.1
    if x < r.2.2.1 ∨ r.2.2.2 < x then putBits a r.1 r.2.1 (bitsOf old r.1 r.2.1) else a) new
  s.setWord off keep

/-- Field of a written word. -/
def Fld.of (f : Fld) (w : Word) : Nat := bitsOf w f.hi f.lo

/-- A coupler link of an index below 4. -/
def linkIx (n : Nat) : LinkIx := ⟨n % 4, Nat.mod_lt _ (by decide)⟩

/-- RING.PORT_CFG.LINE_EN (R59, R73): locked while any link is IN_RING; a link of a disabled line is DISABLED. -/
def State.lineEnWrite (s : State) (w : Word) : State :=
  let locked := (List.range 4).any (fun n => s.inRing n)
  let s := s.plain RING.PORT_CFG.off w locked
  (List.range 4).foldl (fun (s : State) (i : Nat) =>
    let n := linkIx i
    if s.linkEnabled n then (if s.linkState i == Lk.disabled then s.linkTo n Lk.detect else s)
    else if s.linkState i == Lk.disabled then s
    else if s.linkUp n then s.linkLost n Lk.disabled
    else s.linkTo n Lk.disabled) s

/-- RING.LINK_CTRL (R73): the DISABLE bits that change, then the RETRAIN bits written 1. -/
def State.linkCtrlWrite (s : State) (w : Word) : State :=
  let s := (List.range 4).foldl (fun (s : State) (i : Nat) =>
    let on := bit (RING.LINK_CTRL.DISABLE.of w) i
    if s.getBit RING.LINK_CTRL.DISABLE i == on then s else linkDisable s (linkIx i) on) s
  (List.range 4).foldl (fun (s : State) (i : Nat) => if bit (RING.LINK_CTRL.RETRAIN.of w) i then linkRetrain s (linkIx i) else s) s

/-- RING.INAUG_CFG (R143, R158): RANK is locked while the node is master or an inauguration runs; 0 ends DUP_HOLD. -/
def State.inaugCfgWrite (s : State) (w : Word) : State :=
  let locked := s.isMaster || s.phase != Phase.idle
  let s := s.plain RING.INAUG_CFG.off w locked
  if !locked && RING.INAUG_CFG.RANK.of w == 0 && s.istate == Hs.dupHold then s.set RING.INAUG_STAT.ISTATE Hs.free else s

/-- Registers of RING. -/
def State.ringWrite (s : State) (off : Nat) (w : Word) : State :=
  if off == RING.PORT_CFG.off then s.lineEnWrite w
  else if off == RING.LINK_CTRL.off then s.linkCtrlWrite w
  else if off == RING.INAUG_CFG.off then s.inaugCfgWrite w
  else match famIndex off (RING.LTEST.off 0) 0x10 4 with
    | some n =>
      let s := laneTestMode s (linkIx n) ((RING.LTEST.MODE n).of w)
      if (RING.LTEST.INJECT n).of w == 1 then s.prbsInject (linkIx n) else s
    | none => s.plain off w false

/-- SYNC.PTP_OFS_HI (R182): the 64-bit offset takes effect. -/
def State.ptpOfsWrite (s : State) (w : Word) : State :=
  let s := s.setWord SYNC.PTP_OFS_HI.off w
  { s with clk := { s.clk with ptpOfs := toSigned 64 (s.get64 SYNC.PTP_OFS_LO.OFS SYNC.PTP_OFS_HI.OFS) } }

/-- Registers of AUD (R219, R223, R226 to R229). -/
def State.audWrite (s : State) (off : Nat) (w : Word) : State :=
  let hdma := s.flag AUD.HDMA_CTRL.PLAY_EN || s.flag AUD.HDMA_CTRL.CAP_EN
  match famIndex off (AUD.TDM_CFG.off 0) 32 8 with
  | some n =>
    let en := s.get (AUD.TDM_CFG.EN n)
    let s := s.plain off (putBits w 0 0 en) (en == 1)
    if (AUD.TDM_CFG.EN n).of w == 1 then s.tdmEnable n else s.tdmDisable n
  | none =>
    if off == AUD.PDM_CFG.off then (s.plain off w false).pdmClocks
    else if off == AUD.HDMA_CTRL.off then s.plain off w hdma
    else if off == AUD.HDMA_PLAY_LO.off || off == AUD.HDMA_CAP_LO.off then s.plain off (putBits w 7 0 0) hdma
    else if off == AUD.HDMA_PLAY_HI.off || off == AUD.HDMA_CAP_HI.off then s.plain off w hdma
    else if off == AUD.HDMA_PLAY_IDX.off then
      (if AUD.HDMA_PLAY_IDX.WR.of w < s.get AUD.HDMA_CTRL.DEPTH then s.plain off w false else s)
    else if off == AUD.HDMA_CAP_IDX.off then
      (if AUD.HDMA_CAP_IDX.RD.of w < s.get AUD.HDMA_CTRL.DEPTH then s.plain off w false else s)
    else s.plain off w false

/-- Registers of STORE. -/
def State.storeRegWrite (s : State) (off : Nat) (w : Word) : State :=
  if off == STORE.INIT_CTRL.off then s.storeInit (STORE.INIT_CTRL.START.of w)
  else s.plain off w (off == STORE.RET_MASK.off && s.mem.maskLocked)

/-- Registers of a train window: all but EN are locked while EN = 1 (R337, R346). -/
def State.windowWrite (s : State) (n off : Nat) (w : Word) : State :=
  let en := s.flag (BRG.TWIN_CFG.EN n)
  if off == BRG.TWIN_CFG.off n then
    let s := s.plain off (putBits w 0 0 (b2n en)) en
    s.winEnable n ((BRG.TWIN_CFG.EN n).of w == 1)
  else if off == BRG.TWIN_STAT.off n then
    let s := s.plain off w false
    if (BRG.TWIN_STAT.STICKY n).of w == 1 then s.set (BRG.TWIN_STAT.FIRST_CAUSE n) 0 else s
  else s.plain off w en

/-- Registers of BRG. -/
def State.brgRegWrite (s : State) (off : Nat) (w : Word) : State :=
  match famIndex off (BRG.SEM.off 0) 4 32 with
  | some k => if (BRG.SEM.REL k).of w == 1 then s.semRelease k else s
  | none =>
    if decide (0x09100 ≤ off) && decide (off < 0x09300) then s.windowWrite ((off - 0x09100) / 32) off w
    else s.plain off w false

/-- Registers of MBX but the doorbells. -/
def State.mbxRegWrite (s : State) (off : Nat) (w : Word) : State :=
  let ch := (off - 0x02040) / 32
  if decide (0x02040 ≤ off) && decide (off < 0x020C0) then
    if off == MBX.CH_REQ_HEAD.off ch then s.reqHeadWrite ch ((MBX.CH_REQ_HEAD.HEAD ch).of w)
    else if off == MBX.CH_RSP_TAIL.off ch then s.rspTailWrite ch ((MBX.CH_RSP_TAIL.TAIL ch).of w)
    else if off == MBX.CH_STAT.off ch && (MBX.CH_STAT.RESET ch).of w == 1 then s.chResetWrite ch
    else s
  else s.plain off w false

/-- Registers of an Ethernet port (R421, R422, R448). -/
def State.ethRegWrite (s : State) (p off : Nat) (w : Word) : State :=
  let en := s.flag (ETH.CFG.EN p)
  let rings := s.flag (ETH.HR_CTRL.TX_EN p) || s.flag (ETH.HR_CTRL.RX_EN p)
  if off == ETH.CFG.off p then
    let s := s.plain off (putBits w 0 0 (b2n en)) en
    let on := (ETH.CFG.EN p).of w == 1
    if on == en then s else s.ethEnable p on
  else if off == ETH.HR_CTRL.off p then
    (s.plain off w rings).hrEnable p ((ETH.HR_CTRL.TX_EN p).of w == 1) ((ETH.HR_CTRL.RX_EN p).of w == 1)
  else if off == ETH.HTX_BASE.off p || off == ETH.HRX_BASE.off p then s.plain off w rings
  else if off == ETH.HTX_IDX.off p then s.htxWrWrite p ((ETH.HTX_IDX.WR p).of w)
  else if off == ETH.HRX_IDX.off p then s.hrxRdWrite p ((ETH.HRX_IDX.RD p).of w)
  else s.plain off w en

/-- Is any host message object enabled? -/
def State.objEnabled (s : State) : Bool := (List.range 128).any (fun k => s.flag (CAN.OBJ_CFG.EN k))

/-- Registers of a message object (R456 to R458). -/
def State.objWrite (s : State) (k off : Nat) (w : Word) : State :=
  let en := s.flag (CAN.OBJ_CFG.EN k)
  if off == CAN.OBJ_CFG.off k then
    let s := s.plain off (putBits w 15 15 (b2n en)) en
    let on := (CAN.OBJ_CFG.EN k).of w == 1
    if on == en then s else if on then s.setFlag (CAN.OBJ_CFG.EN k) true else s.objDisable k
  else if off == CAN.OBJ_STAT.off k then
    let s := if (CAN.OBJ_STAT.HOLD k).of w == 1 then s.objHold k else s
    let s := if (CAN.OBJ_STAT.RELEASE k).of w == 1 then s.objRelease k else s
    if (CAN.OBJ_STAT.TX_REQ k).of w == 1 then s.objSend k else s
  else s.plain off w en

/-- Registers of CAN. -/
def State.canWrite (s : State) (off : Nat) (w : Word) : State :=
  let en := s.flag CAN.CFG.EN
  if decide (0x10800 ≤ off) && decide (off < 0x11000) then s.objWrite ((off - 0x10800) / 16) off w
  else if off == CAN.CFG.off then
    let s := s.plain off (putBits w 0 0 (b2n en)) en
    let on := CAN.CFG.EN.of w == 1
    if on == en then s else s.canEnable on
  else if off == CAN.BUF_BASE.off then s.plain off w s.objEnabled
  else s.plain off w en

/-- Registers of STK. -/
def State.stkWrite (s : State) (off : Nat) (w : Word) : State :=
  match famIndex off (STK.LTEST.off 0) 16 2 with
  | some p =>
    let s := s.stackLaneMode p ((STK.LTEST.MODE p).of w)
    if (STK.LTEST.INJECT p).of w == 1 then s.stackInject p else s
  | none => s.plain off w false

/-- Registers of PWR (R500, R509 to R513, R545, R554). -/
def State.pwrRegWrite (s : State) (off : Nat) (w : Word) : State :=
  if off == PWR.PERF.off then
    (if s.mode == Mode.test then s.perfWrite (PWR.PERF.FREQ_PT.of w) (PWR.PERF.VOLT_PT.of w) else s)
  else if off == PWR.WAKE_EN.off then s.plain off (w ||| 0x100) false
  else if off == PWR.NET_TRAIN_SRC.off then s.plain off (w &&& ~~~ 0x102) false
  else if off == PWR.RTC_ALM_HI.off then s.rtcAlarmHi w.toNat
  else if off == PWR.HOST_VOTE.off then s.hostVote (w.toNat / 2 % 2 ^ 11)
  else if off == PWR.HOST_HOLD.off then
    (if PWR.HOST_HOLD.SET.of w == 1 && PWR.HOST_HOLD.REASON.of w == 0 then s else (s.plain off w false).holdsNow)
  else s.plain off w false

/-- Registers of DIO (R618, R620). -/
def State.dioWrite (s : State) (off : Nat) (w : Word) : State :=
  match famIndex off (DIO.OUTSRC.off 0) 4 16 with
  | some j => s.outSrcWrite j w.toNat
  | none =>
    if off == DIO.OUT.off then s.outWrite (DIO.OUT.LEVEL.of w)
    else if off == DIO.OUT_SAFE.off then (s.plain off w false).driveOutputs
    else s.plain off w false

/-- The interrupt controller. -/
def State.intcWrite (s : State) (off : Nat) (w : Word) : State :=
  if off == INTC.PEND_LO.off then s.pendWrite false w.toNat
  else if off == INTC.PEND_HI.off then s.pendWrite true w.toNat
  else if off == INTC.EN_LO.off then s.enWrite false w.toNat
  else if off == INTC.EN_HI.off then s.enWrite true w.toNat
  else if off == INTC.FORCE_LO.off then s.forceWrite false w.toNat
  else if off == INTC.FORCE_HI.off then s.forceWrite true w.toNat
  else s

/-- A word of the MSI-X table (R630): address, data, and the mask bit of the vector. -/
def State.msixWrite (s : State) (off : Nat) (w : Word) : State :=
  if !s.msixReach || !(decide (0x3F000 ≤ off) && decide (off < 0x3F400)) then s
  else
    let v := (off - 0x3F000) / 16
    let put (l : List (Nat × Nat)) : List (Nat × Nat) := Sparse.put (fun _ => 0) l v w.toNat
    match off % 16 with
    | 0 => { s with msix := { s.msix with addrLo := put s.msix.addrLo } }
    | 4 => { s with msix := { s.msix with addrHi := put s.msix.addrHi } }
    | 8 => { s with msix := { s.msix with data := put s.msix.data } }
    | _ => s.vectorMask v (w.toNat % 2 == 1)

/-- A write of a register word whose domain is up. -/
def State.regWriteUp (s : State) (off : Nat) (w : Word) : State :=
  match off / 0x1000 with
  | 0x01 => s.intcWrite off w
  | 0x02 => s.mbxRegWrite off w
  | 0x03 => s.ringWrite off w
  | 0x04 => if off == SYNC.PTP_OFS_HI.off then s.ptpOfsWrite w else s.plain off w false
  | 0x06 => s.audWrite off w
  | 0x07 => s.audWrite off w
  | 0x08 => s.storeRegWrite off w
  | 0x09 => s.brgRegWrite off w
  | 0x0A => s.ethRegWrite 0 off w
  | 0x0B => s.ethRegWrite 1 off w
  | 0x10 => s.canWrite off w
  | 0x11 => s.canWrite off w
  | 0x12 => s.stkWrite off w
  | 0x13 => s.pwrRegWrite off w
  | 0x14 => if off == SEC.KLOAD.off then s else s.plain off w false
  | 0x16 => match famIndex off (TST.ELANE.off 0) 0x10 2 with
    | some p => s.elaneWrite p ((TST.ELANE.MODE p).of w) ((TST.ELANE.INJECT p).of w == 1)
    | none => s.plain off w false
  | 0x17 => s.dioWrite off w
  | 0x3F => s.msixWrite off w
  | _ => s.plain off w false

/-- A full-word write of a register by the host. -/
def State.regWrite (s : State) (off : Nat) (w : Word) : State := s.access off (fun s => s.regWriteUp off w)

/-- PTP_OFS_HI_WRITE (R182). -/
def execPtpOfsHiWrite (w : Word) (s : State) : Host.Outcome State Fault Refusal := .next (s.regWrite SYNC.PTP_OFS_HI.off w)

/-- CAN_TX_REQ (R458). -/
def execCanTxReq (obj : Fin 128) (s : State) : Host.Outcome State Fault Refusal :=
  .next (s.access (CAN.OBJ_STAT.off obj) (fun s => s.objSend obj))

/-- CAN_OBJ_HOLD (R457). -/
def execCanObjHold (obj : Fin 128) (s : State) : Host.Outcome State Fault Refusal :=
  .next (s.access (CAN.OBJ_STAT.off obj) (fun s => s.objHold obj))

/-- CAN_OBJ_RELEASE (R457). -/
def execCanObjRelease (obj : Fin 128) (s : State) : Host.Outcome State Fault Refusal :=
  .next (s.access (CAN.OBJ_STAT.off obj) (fun s => s.objRelease obj))

end Sys2Proof.Machine
end

