-- ==== Sys2Proof/Machine/Resets.lean ====
section
/-! DEFINITION. Resets: what each kind keeps (R525 to R527), and the stop of Decik (R16, R17). -/

namespace Sys2Proof.Machine

/-- The codes of the reset sources (R525). -/
abbrev Rst.powerOn : Nat := 1
abbrev Rst.supply : Nat := 2
abbrev Rst.pin : Nat := 3
abbrev Rst.node : Nat := 4
abbrev Rst.bist : Nat := 5
abbrev Rst.lockstep : Nat := 6
abbrev Rst.watchdog : Nat := 7
abbrev Rst.restart : Nat := 8
abbrev Rst.firmware : Nat := 9

/-- Note a reset: its cause, the one before, and the counters. -/
def State.noteReset (s : State) (cause : Nat) : State :=
  let s := (s.set GLB.RST_CAUSE.PREV (s.get GLB.RST_CAUSE.CAUSE)).set GLB.RST_CAUSE.CAUSE cause
  if cause < 6 then s.count GLB.RST_CNT.NODE 1 else s.count GLB.RST_CNT.DECIK 1

/-- What of the power controller a node reset keeps: the alarm, a BIST that is asked for, that the last BIST failed (R534). -/
def PwrSt.cold (p : PwrSt) (wait bist t0 : Nat) : PwrSt :=
  { PwrSt.reset with resetWait := wait, bist := bist, t0 := t0, alarm := p.alarm, bistFailed := p.bistFailed }

/-- What of train-wide sleep the AO domain keeps: the pins of the wake line. -/
def NetSt.cold (n : NetSt) : NetSt := { NetSt.reset with pulse := n.pulse, stuck := n.stuck, lowFrom := n.lowFrom }

/-- Everything but AO is reset: the banks drop, the rails fall, the outputs take OUT_SAFE, the measurement starts again, the
service mode is START-UP (R525 to R527, R532, R542). `wait`: 2 the start waits for VMAIN, 3 for RST_N, 0 for neither; `bist`
names the tests asked for. -/
def State.resetNode (s : State) (cause bootSrc wait bist : Nat) : State :=
  let s := s.noteReset cause
  let s := s.dropBanks 0
  let s := s.dark (fun _ => false)
  let s := { s with
    mem := { StoreSt.reset with extents := s.mem.extents, extentSeq := s.mem.extentSeq, regions := s.mem.regions, nextMap := s.mem.nextMap }
    straps := { s.straps with bootSrc := bootSrc }
    sec := { s.sec with measurement := List.replicate 32 0, hashes := [[], []] }
    pwr := s.pwr.cold wait bist s.decik.upTicks
    net := s.net.cold
    evr := { s.evr with optimeKnown := false, mirror := [] } }
  let s := s.setLevels (fun _ => 0)
  let s := (List.range 11).foldl (fun (s : State) (i : Nat) => (s.set (PWR.VOTE.CLIENTS (i + 1)) 0).setFlag (PWR.VOTE.DEP (i + 1)) false) s
  let s := ((s.set PWR.RAIL_STAT.EN 0).setFlag PWR.RAIL_STAT.SEQ_BUSY false).outputsSafe
  let s := ((s.set PWR.HOLD_MAP.ACTIVE 0).setFlag PWR.NET_STAT.HOLD false).set PWR.NET_STAT.NSTATE 0
  let s := ((s.set PWR.STAT.MODE Mode.startUp).set PWR.STAT.TARGET 0).setFlag PWR.STAT.PDW false
  (s.powerTo Pw.starting).showFault

/-- Decik's own working state is lost with its reset: changes held for a tick, transfers, nonces (notes/assumptions/52.md). -/
def State.decikForget (s : State) : State :=
  { s with
    mbx := { s.mbx with timed := [], transfers := [], twinOut := [] }
    sec := { s.sec with challenges := [] } }

/-- Decik stops (R16, R17): the data path runs on, no request is answered, FW_ALIVE_LOST is raised and FAULT_N asserted. A
second counted stop within 10 s leaves it halted. -/
def State.decikStop (s : State) (cause : Nat) (counted : Bool) : State :=
  if !s.decikRuns then s
  else
    let second := counted && (match s.decik.lastStop with | some t => decide (s.decik.upTicks < t + 480000) | none => false)
    let s := (s.noteReset cause).setFlag GLB.FW_STAT.RUN false
    let s := (List.range 4).foldl (fun (s : State) (ch : Nat) => s.setFlag (MBX.CH_STAT.READY ch) false) s
    let s := s.decikForget
    let s := if counted then { s with decik := { s.decik with lastStop := some s.decik.upTicks } } else s
    let s := s.evt GLB.FW_STAT.LOST 1 Src.FW_ALIVE_LOST
    let s := s.postBy .power Evt.DECIK_STOP 0 [cause]
    let s := if second then (s.setFlag GLB.FW_STAT.HALTED true).postBy .power Evt.DECIK_HALTED 0 [] else s
    s.faultCause GLB.FAULT_STAT.DECIK GLB.FAULT_EVT.DECIK true

/-- LOCKSTEP_MISMATCH (R17). -/
def execLockstepMismatch (s : State) : Host.Outcome State Fault Refusal := .next (s.decikStop Rst.lockstep true)

/-- WATCHDOG_EXPIRY (R17). -/
def execWatchdogExpiry (s : State) : Host.Outcome State Fault Refusal := .next (s.decikStop Rst.watchdog true)

/-- FIRMWARE_FAULT (R16, R17). -/
def execFirmwareFault (s : State) : Host.Outcome State Fault Refusal := .next (s.decikStop Rst.firmware true)

end Sys2Proof.Machine
end

