-- ==== Sys2Proof/Machine/Summary.lean ====
section
/-! DEFINITION. The state summary (R376 to R379): the saddle, its sections, the reduced summary and their rebuild. -/

namespace Sys2Proof.Machine

/-- The release of Decik, 0xMMmm: 3.2. -/
abbrev decikRel : Nat := 0x0302

/-- Exactly `n` bytes: cut, or filled with zeros. -/
def padTo (n : Nat) (l : List Nat) : List Nat := (l ++ List.replicate (n - l.length) 0).take n

/-- A register word as it reads now, in 4 bytes. -/
def State.wordLe (s : State) (off : Nat) : List Nat := leBytes 4 (s.liveWord off 0).toNat

/-- The running total of a counter field. -/
def State.totalOf (s : State) (f : Fld) : Nat := s.total f.key

/-- The sum of running totals, saturated (R378). -/
def State.totals4 (s : State) (l : List Fld) : Nat := min (l.foldl (fun a (f : Fld) => a + s.totalOf f) 0) 0xFFFFFFFF

/-- The header of a summary: SVER, SLEN, GEN, the tick of the rebuild and the operating seconds. -/
def State.summaryHead (s : State) (len : Nat) : List Nat :=
  leBytes 2 1 ++ leBytes 2 len ++ leBytes 4 (s.get MBX.SUM_GEN.GEN) ++ leBytes 4 s.tickSeq ++ leBytes 4 (s.get EVR.OPTIME.SECONDS)

/-- GLB.ID. -/
def State.idBytes (s : State) : List Nat := s.wordLe GLB.ID.off

/-- Power state, last wake source, service mode, last reset cause. -/
def State.powerBytes (s : State) : List Nat :=
  [s.pwrState, s.get PWR.WAKE_SRC.SRC, s.mode, s.get GLB.RST_CAUSE.CAUSE]

/-- Identity and power. The coding of the domain vote state is not stated: a free value (notes/assumptions/53.md). -/
def State.idSection (s : State) (votes : Nat) : List Nat :=
  padTo 48 (s.idBytes ++ leBytes 8 s.uid.toNat ++ leBytes 4 decikRel ++ s.powerBytes ++ [s.get PWR.PERF.FREQ_PT] ++
    s.wordLe GLB.FAULT_STAT.off ++ leBytes 4 (s.get EVR.PWRCYC.COUNT) ++ leBytes 16 votes)

/-- Ring and redundancy. A link's byte is STATE and, in bit 4, ROLE (notes/assumptions/53.md). -/
def State.ringSection (s : State) : List Nat :=
  let orient := s.get RING.ENG_STAT.ORIENT
  padTo 64 ([s.position, s.get STK.STAT.SUB, orient, Nat.xor orient (b2n s.straps.carEnd), s.role, s.istate, s.phase, 0] ++
    leBytes 2 (s.get RING.ENG_STAT.TOPO) ++ leBytes 2 (s.get RING.LAYOUT.LAYOUT_VER) ++ leBytes 2 (s.get RED.EPOCH.FOLLOWED) ++
    leBytes 2 (s.get RED.EPOCH.SAVED) ++ leBytes 8 (s.get64 RED.MASTER_LO.UID RED.MASTER_HI.UID) ++
    leBytes 8 (s.get64 RED.STANDBY_LO.UID RED.STANDBY_HI.UID) ++ s.wordLe RED.STAT.off ++ s.wordLe RED.REACH_A.off ++
    s.wordLe RED.REACH_B.off ++ (List.range 4).map (fun n => s.get (RING.LINKSTAT.STATE n) + 16 * s.get (RING.LINKSTAT.ROLE n)) ++
    leBytes 4 (if s.flag RING.INAUG_STAT.SW_PEND then s.get RING.SWITCH_TSEQ.TSEQ else 0))

/-- Sync. -/
def State.syncSection (s : State) : List Nat :=
  padTo 32 (s.wordLe SYNC.STAT.off ++ s.wordLe SYNC.OFFSET.off ++ s.wordLe SYNC.RATE.off ++
    [s.get SYNC.PTP_CFG.MODE, s.get PTP.STAT.CLASS, s.get SYNC.OUTLIER_EVT.EVT])

/-- Configuration: also the answer of CFG_STATUS. -/
def State.cfgSection (s : State) : List Nat :=
  padTo 64 (leBytes 4 (s.get MBX.CFG_VER.VER) ++ leBytes 4 (s.get MBX.CFG_PREV.VER) ++ leBytes 4 (s.get MBX.CFG_PEND.VER) ++
    [s.get MBX.CFG_STAT.STATE, s.get MBX.CFG_STAT.TRIAL_STARTS] ++ leBytes 2 (s.get MBX.CFG_STAT.CONFIRM_S) ++
    leBytes 4 (s.get MBX.CFG_TICK.TSEQ) ++ leBytes 4 (s.cfg.recSeq % 2 ^ 32) ++ [b2n s.mem.nextMap.isSome] ++
    (s.cfg.slots.take 2).map (·.state))

/-- Store. -/
def State.storeSection (s : State) : List Nat :=
  padTo 32 (s.wordLe (STORE.BANK_STAT.off 0) ++ s.wordLe (STORE.BANK_STAT.off 1) ++ leBytes 2 (s.get STORE.BANK_LOST.LOST) ++
    leBytes 2 (s.get STORE.RET_MASK.MASK) ++ leBytes 4 (s.get STORE.SLEEP_CNT.COUNT) ++
    leBytes 4 (s.totals4 [STORE.CE_CNT.CH0, STORE.CE_CNT.CH1]) ++ leBytes 4 (s.totals4 [STORE.UE_CNT.ACCESS, STORE.UE_CNT.SCRUB]))

/-- The state of a region: lost where a bank of it is, refilling where one is being rebuilt or checked, else 3 where a new map
waits that does not hold it (DEDUCED from R376, notes/assumptions/53.md). -/
def State.regionState (s : State) (r : Region) : Nat :=
  let banks := (List.range 16).filter (fun b => r.inBank b)
  if banks.any (fun b => s.bank b == Bank.lost || s.bank b == Bank.down) then 2
  else if banks.any (fun b => !s.bankUsable b) then 1
  else match s.mem.nextMap with
    | some m => if (placeMap m).contains r then 0 else 3
    | none => 0

/-- Regions. -/
def State.regionSection (s : State) : List Nat :=
  padTo 384 ((s.mem.regions.take 32).flatMap (fun (r : Region) =>
    leBytes 4 r.base ++ leBytes 4 r.pages ++ [r.kind, b2n r.retain, s.regionState r, 0]))

/-- Mailbox. -/
def State.mailboxSection (s : State) : List Nat :=
  (List.range 4).flatMap (fun ch => padTo 16 ([s.get (MBX.CH_REQ_HEAD.HEAD ch), s.get (MBX.CH_REQ_TAIL.TAIL ch),
    s.get (MBX.CH_RSP_HEAD.HEAD ch), s.get (MBX.CH_RSP_TAIL.TAIL ch), s.get (MBX.CH_STAT.OPEN ch)] ++
    leBytes 2 (min 0xFFFF (s.totalOf (MBX.CH_STAT.NOTE_LOST ch))) ++ leBytes 2 (min 0xFFFF (s.totalOf (MBX.CH_STAT.ERR_CNT ch)))))

/-- Open tags. -/
def State.tagSection (s : State) : List Nat :=
  (List.range 4).flatMap (fun ch => padTo 64 ((s.mbx.opens.filter (fun r => r.ch == ch)).flatMap (fun r => leBytes 2 r.tag)))

/-- Bridge. -/
def State.bridgeSection (s : State) : List Nat :=
  let map16 (p : Nat → Bool) : Nat := (List.range 16).foldl (fun m w => if p w then setBit m w else m) 0
  padTo 32 (leBytes 2 (map16 (fun w => s.flag (BRG.TWIN_STAT.STICKY w))) ++ leBytes 2 (map16 (fun w => s.flag (BRG.TWIN_STAT.RENUMBERED w))) ++
    leBytes 2 ((List.range 16).foldl (fun a w => a + s.get (BRG.TWIN_STAT.W_PEND w)) 0) ++ [s.get BRG.STAT.RD_OUT, s.get BRG.TGT_LOCK.ACTIVE] ++
    leBytes 2 (s.get BRG.PFLOG_STAT.VALID) ++ leBytes 4 (s.totalOf BRG.PFLOG_STAT.OVF))

/-- Posted-failure log. -/
def State.pflogSection (s : State) : List Nat :=
  (List.range 16).flatMap (fun j => s.wordLe (BRG.PFLOG_A.off j) ++ s.wordLe (BRG.PFLOG_B.off j))

/-- The current version of each key slot. -/
def State.keyVersions (s : State) : List Nat := (List.range 16).flatMap (fun k => leBytes 2 (s.get (SEC.SLOT.VERSION k)))

/-- Tamper state and cause, in the places of SEC.STAT (notes/assumptions/53.md). -/
def State.tamperBytes (s : State) : List Nat := leBytes 4 (b2n (s.flag SEC.STAT.TAMPER) + 256 * s.get SEC.STAT.CAUSE)

/-- Authentication failures of every kind. -/
def State.authFailures (s : State) : Nat := s.totals4 [SEC.AUTH_FAIL.CMD, SEC.AUTH_FAIL.RING, SEC.AUTH_FAIL.SIG, SEC.AUTH_FAIL.WRAP]

/-- Security. The NONCE_CTR block in use is the number of the block of 2^20 values that holds the next one (R108). -/
def State.secSection (s : State) : List Nat :=
  padTo 64 (s.keyVersions ++ s.tamperBytes ++ leBytes 4 s.authFailures ++ leBytes 4 (s.get RING.NONCE.CTR / 2 ^ 20))

/-- Recorders. -/
def State.recorderSection (s : State) : List Nat :=
  padTo 32 ([s.get EVR.STAT.STATE] ++ leBytes 4 (s.get EVR.LAST_SEQ.SEQ) ++ [s.get EVR.PEND_STAT.FILL] ++ s.wordLe AUD.REC_STAT.off ++
    s.wordLe AUD.REC_HEAD.off ++ s.wordLe AUD.REC_LOCKED.off)

/-- Audio and voice. -/
def State.audioSection (s : State) : List Nat :=
  let verdicts := (List.range 16).foldl (fun a z => a + s.get (AUD.PMON_STAT.VERDICT z) * 4 ^ z) 0
  let playing := (List.range 32).foldl (fun m v => if s.vox.voices.any (fun x => x.ix == v && x.playing) then setBit m v else m) 0
  padTo 64 (leBytes 4 verdicts ++ s.wordLe AUD.STALE_MAP.off ++ (List.range 8).map (fun i => s.get (AUD.CALL_STAT.STATE i)) ++
    leBytes 4 playing ++ [s.get AUD.STIPA_STAT.STATE] ++ leBytes 2 (s.vox.clips.filter (fun c => c.state == 2)).length)

/-- Units. -/
def State.unitSection (s : State) : List Nat := padTo 1664 (allUnits.flatMap (fun id => s.unitEntry id))

/-- The counter words (R378). -/
def State.counterWords (s : State) : List Nat :=
  let ev (e : EvtCode) : Nat := s.total (evtKey e)
  (List.range 4).map (fun c => s.totalOf (GLB.OVR_CNT.COUNT c)) ++
  (List.range 4).map (fun n => s.totalOf (RING.LINKLOSS.LOSS_CNT n)) ++
  (List.range 4).map (fun n => s.totalOf (RING.LINKERR.QUAL_RESTART n)) ++
  [s.totalOf RING.INAUG_CNT.COMPLETED, s.totalOf RING.INAUG_CNT.ABANDONED, ev Evt.FAST_SHRINK, s.totalOf RED.CNT.TAKEOVERS,
    s.totalOf RED.CNT.FAILS, s.totalOf RED.DUAL.CNT, s.totalOf RED.PATH_CNT.RING_PATH, s.totalOf RED.PATH_CNT.CAN_PATH] ++
  (List.range 32).map (fun p => s.totalOf (RING.RCHK.CONCEAL p)) ++
  [s.totalOf RING.STG_STAT.LATE_CNT, s.totalOf RING.CELL_RX.DUP, s.totalOf RING.CELL_ERR.REASM, s.totalOf SYNC.CNT.LOST_CNT,
    s.totalOf SYNC.CNT.STEP_CNT] ++
  [s.totals4 [STORE.CE_CNT.CH0, STORE.CE_CNT.CH1], s.totals4 [STORE.UE_CNT.ACCESS, STORE.UE_CNT.SCRUB], s.totalOf BRG.CNT.RD_FAIL,
    s.totalOf (BRG.PFLOG_A.WIN 0), s.totalOf BRG.LOCK_CNT.GIVEUPS, s.totals4 ((List.range 16).map (fun w => BRG.TWIN_DISC.CNT w)),
    s.totals4 ((List.range 4).map (fun n => MBX.CH_STAT.NOTE_LOST n))] ++
  [s.totalOf MBX.UNIT_CNT.DIV_CNT, ev Evt.UNIT_FAULTED, ev Evt.CONFIG_COMMIT, ev Evt.CONFIG_ROLLBACK, s.totalOf PWR.FALSE_WAKE.COUNT,
    s.authFailures, ev Evt.TAMPER] ++
  (List.range 8).map (fun e => s.totalOf (AUD.AEC_CNT.RESETS e)) ++
  [s.totalOf AUD.HDMA_CNT.UNDERRUN, s.totalOf CAN.VIOL_TOTAL.COUNT]

/-- Counters: 128 words. -/
def State.counterSection (s : State) : List Nat := padTo 512 (s.counterWords.flatMap (fun w => leBytes 4 w))

/-- The saddle (R376). -/
def State.saddleOf (s : State) (votes : Nat) : List Nat :=
  let b := s.summaryHead 3584 ++ s.idSection votes ++ s.ringSection ++ s.syncSection ++ s.cfgSection ++ s.storeSection ++ s.regionSection ++
    s.mailboxSection ++ s.tagSection ++ s.bridgeSection ++ s.pflogSection ++ s.secSection ++ s.recorderSection ++ s.audioSection ++
    s.unitSection ++ s.counterSection ++ List.replicate 124 0
  b ++ leBytes 4 (crc32c b)

/-- The units that the reduced summary lists: FAULTED or diverged (R379). -/
def State.badUnits (s : State) : List Nat :=
  (allUnits.filter (fun id => (s.unit id).mgmt == Mgmt.faulted || (s.unit id).diverged)).take 16

/-- The reduced summary (R379). -/
def State.reducedOf (s : State) : List Nat :=
  let b := s.summaryHead 256 ++ s.idBytes ++ leBytes 8 s.uid.toNat ++ s.powerBytes ++
    padTo 24 ([s.position, s.get RING.ENG_STAT.ORIENT, s.role, s.syncState] ++ leBytes 2 (s.get RING.ENG_STAT.TOPO) ++
      leBytes 2 (s.get RING.LAYOUT.LAYOUT_VER) ++ leBytes 2 (s.get RED.EPOCH.FOLLOWED) ++
      leBytes 8 (s.get64 RED.MASTER_LO.UID RED.MASTER_HI.UID) ++ s.wordLe GLB.FAULT_STAT.off) ++
    padTo 16 (leBytes 4 (s.get MBX.CFG_VER.VER) ++ leBytes 4 (s.get MBX.CFG_PREV.VER) ++ leBytes 4 (s.get MBX.CFG_PEND.VER) ++
      [s.get MBX.CFG_STAT.STATE] ++ leBytes 2 (s.get MBX.CFG_STAT.CONFIRM_S)) ++
    leBytes 2 (s.get STORE.BANK_LOST.LOST) ++ [b2n (s.flag SEC.STAT.TAMPER), s.get EVR.STAT.STATE] ++ leBytes 4 (s.get EVR.LAST_SEQ.SEQ) ++
    [s.get MBX.UNIT_CNT.FAULTED, s.get MBX.UNIT_CNT.DIVERGED, 0, 0] ++
    padTo 64 (s.badUnits.flatMap (fun id => [unitClass id] ++ leBytes 2 (unitIndex id) ++ [(s.unit id).dp + 16 * (s.unit id).mgmt])) ++
    List.replicate 104 0
  b ++ leBytes 4 (crc32c b)

/-- A rebuild (R376): GEN and SUM_GEN count, both summaries are of this tick. -/
def State.rebuild (s : State) : State :=
  let (votes, s) := s.fresh
  let s := s.wrapInc MBX.SUM_GEN.GEN
  { s with mbx := { s.mbx with saddle := s.saddleOf votes, reduced := s.reducedOf } }

/-- SUMMARY_REBUILD (R376): Decik rebuilds within 10 ms of a change and every 100 ms. -/
def execSummaryRebuild (s : State) : Host.Outcome State Fault Refusal := .next (if s.decikRuns then s.rebuild else s)

/-- The summary is current after a start of Decik (R17, R366, R390): SUMMARY_READY and a SUMMARY notification. -/
def State.summaryReady (s : State) : State :=
  let s := s.rebuild.evt MBX.EVT.SUMMARY 1 Src.SUMMARY_READY
  s.notify Note.summary (leBytes 4 (s.get MBX.SUM_GEN.GEN))

end Sys2Proof.Machine
end

