-- ==== Sys2Proof/Machine/Cmd.lean ====
section
/-! DEFINITION. How Decik handles a request: the order of checks (R361), channels and marks (R391 to R396), effective ticks
(R394), the version check (R365), remote requests (R369, R370) and fragments (R397). -/

namespace Sys2Proof.Machine

/-! ## Data of a request -/

/-- A little-endian field of a request's data. -/
def fieldOf (d : List Nat) (a n : Nat) : Nat := leValue ((d.drop a).take n)

/-- A signed field. -/
def signedOf (d : List Nat) (a n : Nat) : Int := toSigned (8 * n) (fieldOf d a n)

/-- Are the reserved bytes at the given places zero (R391)? -/
def rsvZero (d : List Nat) (l : List (Nat × Nat)) : Bool := l.all (fun (x : Nat × Nat) => fieldOf d x.1 x.2 == 0)

/-! ## Effective ticks (R394) -/

/-- When a change takes effect: a tick sequence number, or a count of the node's own ticks while it has no ring time. -/
structure When where
  tick : Nat
  own : Option Nat
  deriving DecidableEq, Repr

/-- The distance from the current tick to a tick sequence number, modulo 2^32. -/
def State.ticksTo (s : State) (t : Nat) : Nat := (t + 2 ^ 32 - s.tickSeq) % 2 ^ 32

/-- The effective tick of an ETICK field, none where it is refused (R394). The first boundary at least 48 ticks after a moment
within tick k is that of tick k + 49. -/
def State.etick (s : State) (t : Nat) : Option When :=
  if s.tickSeq = 0 then (if t = 0 then some ⟨0, some (s.decik.upTicks + 49)⟩ else none)
  else if t = 0 then some ⟨(s.tickSeq + 49) % 2 ^ 32, none⟩
  else if decide (24 ≤ s.ticksTo t) && decide (s.ticksTo t ≤ 2 ^ 20) then some ⟨t, none⟩
  else none

/-- Has a change's tick come? -/
def Timed.due (t : Timed) (s : State) : Bool :=
  match t.own with
  | some u => decide (u ≤ s.decik.upTicks)
  | none => s.tickSeq != 0 && (t.tick == s.tickSeq || seqLater s.tickSeq t.tick)

/-- The command that a twin's lead shares through the record (R192, R395): opcode, length and data. -/
def State.twinShare (s : State) (tick opcode : Nat) (data : List Nat) : State :=
  if s.twinOn && s.twinState == 1 then
    { s with mbx := { s.mbx with twinOut := s.mbx.twinOut ++ [(tick, leBytes 2 opcode ++ leBytes 2 data.length ++ data)] } }
  else s

/-- Hold a change until its tick. -/
def State.hold (s : State) (w : When) (opcode : Nat) (data : List Nat) (ch tag : Nat) : State :=
  { s with mbx := { s.mbx with timed := s.mbx.timed ++ [⟨w.tick, w.own, opcode, data, ch, tag⟩] } }

/-- Take a timed command: the change is held, and answered OK with ATICK. -/
def State.takeTimed (s : State) (q : OpenReq) (w : When) (data : List Nat) : State :=
  ((s.hold w q.opcode data q.ch q.tag).twinShare w.tick q.opcode data).reply q Status.ok (leBytes 4 w.tick)

/-- A merge in the losing island cancels the changes at or after MERGE_TSEQ (R415): TIMED_CANCELLED once. -/
def State.cancelTimed (s : State) (mergeTick : Nat) : State :=
  let hit (t : Timed) : Bool := t.own.isNone && t.opcode != 0x0202 && t.opcode != 0x0204 &&
    (t.tick == mergeTick || seqLater t.tick mergeTick)
  let n := (s.mbx.timed.filter hit).length
  if n = 0 then s
  else State.post { s with mbx := { s.mbx with timed := s.mbx.timed.filter (fun (t : Timed) => !hit t) } } Evt.TIMED_CANCELLED 0
    (leBytes 2 (min n 0xFFFF))

/-! ## Versions (R365) -/

/-- The held commit of a pending image. -/
def State.commitHeld (s : State) : Option Timed := s.mbx.timed.find? (fun (t : Timed) => t.opcode == 0x0202)

/-- Does an effective tick fall at or after that of a held change? -/
def When.reaches (w : When) (t : Timed) : Bool :=
  match w.own, t.own with
  | some a, some b => decide (b ≤ a)
  | none, none => w.tick == t.tick || seqLater w.tick t.tick
  | _, _ => false

/-- The version check of a versioned command (R365). -/
def State.versionOk (s : State) (cfgver : Nat) (w : When) : Bool :=
  cfgver != 0 &&
  match s.commitHeld with
  | some t => if w.reaches t then cfgver == s.get MBX.CFG_PEND.VER else cfgver == s.get MBX.CFG_VER.VER
  | none => cfgver == s.get MBX.CFG_VER.VER

/-- The moment at which a command without an ETICK takes effect: now. -/
def State.now (s : State) : When := if s.tickSeq = 0 then ⟨0, some s.decik.upTicks⟩ else ⟨s.tickSeq, none⟩

/-- The moment that an ETICK names, as the version check takes it. -/
def State.etickNamed (s : State) (t : Nat) : When := match s.etick t with | some w => w | none => if s.tickSeq = 0 then s.now else ⟨t, none⟩

/-! ## A catalogue entry (R391) -/

/-- A command of the catalogue: channels and marks; the lengths it allows; when it is accepted beyond the power state; the
moment it takes effect; its reserved fields; and what it does. -/
structure Cmd where
  opcode : Nat
  host : Bool := true
  i2c : Bool := false
  remote : Bool := false
  versioned : Bool := false
  lead : Bool := false
  auth : State → Nat → List Nat → Bool := fun _ _ _ => false
  len : List Nat → Bool
  accept : State → List Nat → Bool := fun _ _ => true
  effective : State → List Nat → When := fun s _ => s.now
  rsv : List (Nat × Nat) := []
  run : State → OpenReq → List Nat → State

/-- A data length that an entry gives as a number. -/
def lenIs (n : Nat) (d : List Nat) : Bool := d.length == n

/-- Au without a condition. -/
def always (_ : State) (_ : Nat) (_ : List Nat) : Bool := true

/-! ## Checks (R361) -/

/-- The request as Decik opens it. -/
def State.asked (s : State) (r : Request) (opcode : Nat) : OpenReq :=
  ⟨r.ch.val, r.idx % 64, r.tag % 65536, opcode, .handling, if r.ch.val = 3 then some (r.pos, r.sub, s.uidAt r.pos) else none⟩

/-- How many requests of a channel may be open (R362). -/
def openLimit (ch : Nat) : Nat := if ch = 2 then 1 else 32

/-- The open requests of a channel. -/
def State.opensOf (s : State) (ch : Nat) : List OpenReq := s.mbx.opens.filter (fun r => r.ch == ch)

/-- Does Decik consume a request of the channel now (R362, R367)? -/
def State.mayConsume (s : State) (ch : Nat) : Bool :=
  decide ((s.opensOf ch).length < openLimit ch) && decide ((s.heldOf ch).length < 64)

/-- Steps 1 and 2 (R361, R370): the status of a header that fails. -/
def State.headerStatus (s : State) (r : Request) : Option Nat :=
  if 4080 < r.len then some Status.badLength
  else if r.tag % 65536 = 0 || (s.opensOf r.ch.val).any (fun q => q.tag == r.tag % 65536) || r.flags / 4 != 0 || r.rsv != 0 ||
    (bit r.flags 1 && r.ch.val == 3) then some Status.badParam
  else none

/-- Step 4: does the channel, the role and the image permit the command (R332, R357, R370, R395, R396)? -/
def State.permits (s : State) (c : Cmd) (ch : Nat) (d : List Nat) : Bool :=
  (if ch = 2 then c.i2c && !c.auth s 2 d
    else if ch = 3 then c.remote && s.cfg.image.remote.contains c.opcode
    else c.host) &&
  !(c.lead && s.twinOn && s.twinState == 2)

/-- Step 7: the power state and the service mode (R393, R542). -/
def State.modeAccepts (s : State) (opcode : Nat) : Bool :=
  (s.awake || s.pwrState == Pw.starting) &&
  (if s.mode = Mode.startUp then [0x0100, 0x0102, 0x0103, 0x0901, 0x0B01, 0x0B02].contains opcode
    else if s.mode = Mode.recovery then !(decide (0x0400 ≤ opcode) && decide (opcode < 0x0900))
    else true)

/-- Step 6: authorisation (R361, R396, R410, R576). The failure, where there is one. -/
def State.authorised (s : State) (c : Cmd) (r : Request) (q : OpenReq) (body : List Nat) : Option Nat × State :=
  if !c.auth s q.ch body then (none, s)
  else if s.flag SEC.STAT.TAMPER && c.opcode != 0x0A05 then (some Status.tamperLock, s)
  else if !bit r.flags 0 then (some Status.authFailed, s)
  else
    let uid := match q.origin with | some o => o.2.2 | none => 0
    let (ok, s) := s.authCheck q.ch uid c.opcode r.len r.cfgver r.body
    (if ok then none else some Status.authFailed, s)

/-- Steps 4 to 9: the first failure is the answer; a request that passes has the command's effect. -/
def State.handle (s : State) (c : Cmd) (r : Request) (q : OpenReq) : State :=
  let all := r.body
  let signed := bit r.flags 0
  let d := if signed then all.take (all.length - 36) else all
  if !s.permits c q.ch d then s.reply q Status.notPermitted []
  else if (signed && decide (all.length < 36)) || !c.len d then s.reply q Status.badLength []
  else
    let (fail, s) := s.authorised c r q d
    match fail with
    | some st => s.reply q st []
    | none =>
      if !s.modeAccepts c.opcode || !c.accept s d then s.reply q Status.wrongState []
      else if c.versioned && !s.versionOk r.cfgver (c.effective s d) then s.reply q Status.versionMismatch []
      else if !rsvZero d c.rsv then s.reply q Status.badParam []
      else c.run s q d

/-! ## Remote requests (R369, R370) -/

/-- The 16-byte request header (R360). -/
def requestHeader (opcode tag len flags cfgver : Nat) : List Nat :=
  leBytes 2 opcode ++ leBytes 2 tag ++ leBytes 2 len ++ leBytes 2 flags ++ leBytes 4 cfgver ++ [0, 0, 0, 0]

/-- Is the target of an envelope present, serving, and the one that is meant? A member's UID stands in no layout. -/
def State.remotePresent (s : State) (pos sub uid : Nat) : Bool :=
  match s.layout? with
  | some l => l.serves s.ring.departed pos sub &&
      (uid == 0 || sub != 0 ||
        (match l.pos pos with | some p => p.uid.toNat == uid || (p.twin && p.twinUid.toNat == uid) | none => false))
  | none => false

/-- Carry a request to another node: held open under its own TAG, sent under a TAG that the node chooses. -/
def State.forwardRemote (s : State) (c : Cmd) (r : Request) (q : OpenReq) : State :=
  let d := r.body
  let uid := fieldOf d 0 8
  let pos := fieldOf d 8 1
  let sub := fieldOf d 9 1
  let tmo := fieldOf d 10 2
  if q.ch == 2 && !c.i2c then s.reply q Status.notPermitted []
  else if d.length < 16 then s.reply q Status.badLength []
  else if !s.modeAccepts c.opcode then s.reply q Status.wrongState []
  else if pos = 0 || 32 < pos || 3 < sub || tmo < 10 || 10000 < tmo || !rsvZero d [(12, 4)] then s.reply q Status.badParam []
  else if !s.remotePresent pos sub uid then s.reply q Status.remoteFault []
  else
    let tag := s.mbx.remoteTag
    let msg := requestHeader c.opcode tag (d.length - 16) (clrBit r.flags 1) (r.cfgver % 2 ^ 32) ++ d.drop 16
    let s := { s with mbx := { s.mbx with remoteTag := tag % 65535 + 1 } }
    let s := s.stageMessage Kind.mailbox pos sub msg
    let q := { q with pend := .remote pos sub (s.uidAt pos) tag (s.decik.upTicks + 48 * tmo) msg false false }
    State.showOpen { s with mbx := { s.mbx with opens := s.mbx.opens ++ [q] } } q.ch

/-- Decik takes a request of the catalogue and answers with the first failure, or carries it out. A channel 3 request beyond 32
open ones is answered BUSY (R370); another waits in its ring. -/
def State.serve (s : State) (c : Cmd) (r : Request) : State :=
  let q := s.asked r c.opcode
  if !s.decikRuns then s
  else if !s.mayConsume q.ch then (if q.ch = 3 then s.answerReq q Status.busy true [] else s)
  else match s.headerStatus r with
    | some st => s.reply q st []
    | none => if bit r.flags 1 then s.forwardRemote c r q else s.handle c r q

/-- A request with an OPCODE that release 3.2 does not know (R3, R361). -/
def State.serveUnknown (s : State) (opcode : Nat) (r : Request) : State :=
  let q := s.asked r opcode
  match s.headerStatus r with
  | some st => s.reply q st []
  | none => s.reply q Status.badOpcode []

/-- A response that carries the target's answer, or an outcome of the carriage: own TAG and REQ_IDX (R369). -/
def State.remoteEntry (r : OpenReq) (status cfgver rflags : Nat) (data : List Nat) : List Nat :=
  leBytes 2 r.opcode ++ leBytes 2 r.tag ++ leBytes 2 data.length ++ leBytes 2 status ++ leBytes 4 cfgver ++
  [r.idx % 64, rflags, 0, 0] ++ data

/-- Does a remote request wait for this response: its position, sub-position, opcode and TAG? -/
def OpenReq.awaits (r : OpenReq) (m : Message) : Bool :=
  match r.pend with
  | .remote pos sub _ tag _ _ _ _ => pos == m.srcPos && sub == m.srcSub && r.opcode == fieldOf m.bytes 0 2 && tag == fieldOf m.bytes 2 2
  | _ => false

/-- Write the target's response into the asker's ring; a final one closes the request. -/
def State.remoteAnswer (s : State) (r : OpenReq) (status cfgver : Nat) (final : Bool) (data : List Nat) : State :=
  let bytes := State.remoteEntry r status cfgver (8 + b2n final) data
  if !final then
    let seen (x : OpenReq) : OpenReq := match x.pend with
      | .remote p u i t d m _ _ => if x == r then { x with pend := .remote p u i t d m false true } else x
      | _ => x
    State.sendResponse { s with mbx := { s.mbx with opens := s.mbx.opens.map seen } } r.ch bytes
  else
    let keep := s.holds r.ch
    let opens := if keep then s.mbx.opens.map (fun (x : OpenReq) => if x == r then { x with pend := Pend.answered } else x)
      else s.mbx.opens.filter (fun x => x != r)
    (State.sendResponse { s with mbx := { s.mbx with opens := opens } } r.ch bytes).showOpen r.ch

/-- A response to a remote request arrives. BUSY before any other response makes it wait to be sent again (R370). -/
def State.remoteResponse (s : State) (r : OpenReq) (m : Message) : State :=
  let status := fieldOf m.bytes 6 2
  let final := bit (fieldOf m.bytes 13 1) 0
  let data := (m.bytes.drop 16).take (fieldOf m.bytes 4 2)
  match r.pend with
  | .remote p u i t d g _ first =>
    if status == Status.busy && final && !first && decide (s.decik.upTicks + 48 < d) then
      { s with mbx := { s.mbx with opens := s.mbx.opens.map (fun (x : OpenReq) =>
          if x == r then { x with pend := .remote p u i t d g true first } else x) } }
    else s.remoteAnswer r status (fieldOf m.bytes 8 4) final data
  | _ => s

/-- A MAILBOX message arrives (R357, R369, R370): a response that a remote request waits for, else a request for channel 3. One
that finds the ring full is answered BUSY. -/
def State.mailboxMessage (s : State) (m : Message) : State :=
  if m.bytes.length < 16 then s
  else match s.mbx.opens.find? (fun r => r.awaits m) with
    | some r => s.remoteResponse r m
    | none =>
      if (s.region 6).isNone then s
      else if 64 ≤ s.reqFill 3 then
        s.answerReq ⟨3, 0, fieldOf m.bytes 2 2, fieldOf m.bytes 0 2, .handling, some (m.srcPos, m.srcSub, s.uidAt m.srcPos)⟩
          Status.busy true []
      else
        let h := s.get (MBX.CH_REQ_HEAD.HEAD 3)
        let s := s.putBytes (s.reqEntry 3 h) (m.bytes.take 4096)
        let s := { s with mbx := { s.mbx with
          origins := s.mbx.origins.filter (fun (x : Nat × Nat × Nat) => x.1 != h % 64) ++ [(h % 64, m.srcPos, m.srcSub)] } }
        s.set (MBX.CH_REQ_HEAD.HEAD 3) ((h + 1) % 128)

/-- REMOTE_TIMEOUT (R370): no first response within TIMEOUT. -/
def execRemoteTimeout (ch : Fin 4) (tag : Nat) (s : State) : Host.Outcome State Fault Refusal :=
  .next (((s.opensOf ch.val).filter (fun r => r.tag == tag &&
      (match r.pend with | .remote _ _ _ _ _ _ _ first => !first | _ => false))).foldl
      (fun (s : State) (r : OpenReq) => s.finish r Status.timeout []) s)

/-- REMOTE_BUSY_RESEND (R370): a target answered BUSY; 48 ticks later the request goes out again. -/
def execRemoteBusyResend (ch : Fin 4) (tag : Nat) (s : State) : Host.Outcome State Fault Refusal :=
  .next (((s.opensOf ch.val).filter (fun r => r.tag == tag &&
      (match r.pend with | .remote _ _ _ _ _ _ resend _ => resend | _ => false))).foldl
    (fun (s : State) (r : OpenReq) => match r.pend with
      | .remote p u i t d m _ first =>
        State.stageMessage { s with mbx := { s.mbx with opens := s.mbx.opens.map (fun (x : OpenReq) =>
            if x == r then { x with pend := .remote p u i t d m false first } else x) } } Kind.mailbox p u m
      | _ => s) s)

/-- The topology counter changes: remote requests without a first response end with REMOTE_FAULT (R370). -/
def State.remoteTopology (s : State) : State :=
  (s.mbx.opens.filter (fun r => match r.pend with | .remote _ _ _ _ _ _ _ first => !first | _ => false)).foldl
    (fun (s : State) (r : OpenReq) => s.finish r Status.remoteFault []) s

/-! ## Fragments (R397) -/

/-- Does a fragment's LEN agree with its FLEN? -/
def fragLen (d : List Nat) : Bool := decide (16 ≤ d.length) && d.length == 16 + fieldOf d 8 2

/-- The transfer of a command on a channel. -/
def State.transfer (s : State) (ch opcode : Nat) : Option Transfer := s.mbx.transfers.find? (fun t =>
  t.ch == ch && t.opcode == opcode && decide (s.decik.upTicks < t.last + 480000))

/-- Discard the transfer of a command on a channel. -/
def State.dropTransfer (s : State) (ch opcode : Nat) : State :=
  { s with mbx := { s.mbx with transfers := s.mbx.transfers.filter (fun t => !(t.ch == ch && t.opcode == opcode)) } }

/-- What a fragment does to its transfer: out of order (the transfer is discarded), taken, or the whole object. -/
inductive FragResult where
  | bad
  | more
  | whole (bytes : List Nat)
  deriving DecidableEq, Repr

/-- Take one fragment (R397). -/
def State.takeFragment (s : State) (ch opcode : Nat) (d : List Nat) : FragResult × State :=
  let total := fieldOf d 0 4
  let offset := fieldOf d 4 4
  let flen := fieldOf d 8 2
  let first := bit (fieldOf d 10 2) 0
  let last := bit (fieldOf d 10 2) 1
  let have_ := if first then some [] else (match s.transfer ch opcode with | some t => if t.total == total then some t.bytes else none | none => none)
  let s := s.dropTransfer ch opcode
  match have_ with
  | none => (.bad, s)
  | some b =>
    if flen = 0 || 4064 < flen || fieldOf d 10 2 / 4 != 0 || !rsvZero d [(12, 4)] || offset != b.length || total < offset + flen ||
      (last && offset + flen != total) || (!last && offset + flen == total) then (.bad, s)
    else
      let b := b ++ d.drop 16
      if last then (.whole b, s)
      else (.more, { s with mbx := { s.mbx with transfers := s.mbx.transfers ++ [⟨ch, opcode, total, b, s.decik.upTicks⟩] } })

/-- FRAGMENT_TRANSFER_TIMEOUT (R397): a transfer without a fragment for 10 s is discarded. -/
def execFragmentTransferTimeout (s : State) : Host.Outcome State Fault Refusal :=
  .next { s with mbx := { s.mbx with transfers := s.mbx.transfers.filter (fun t => decide (s.decik.upTicks < t.last + 480000)) } }

/-- AUTH_NONCE_LAPSE (R396, R577): a nonce lapses 60 s after its issue. -/
def execAuthNonceLapse (s : State) : Host.Outcome State Fault Refusal :=
  .next { s with sec := { s.sec with challenges := s.sec.challenges.filter (fun c => decide (s.decik.upTicks < c.until_)) } }

/-- AUTH_LOCKOUT_END (R577): a source locked out for 30 s is heard again. -/
def execAuthLockoutEnd (s : State) : Host.Outcome State Fault Refusal :=
  .next { s with sec := { s.sec with sources := s.sec.sources.map (fun (x : AuthSource) =>
      if x.lockUntil ≤ s.decik.upTicks then { x with lockUntil := 0 } else x) } }

end Sys2Proof.Machine
end

