-- ==== Sys2Proof/Machine/CmdSystem.lean ====
section
/-! DEFINITION. System commands, group 0x01 (R398, R399). -/

namespace Sys2Proof.Machine

/-- The time since the tick boundary at which Decik handles a command: nothing states it (a free value). -/
def State.phaseNow (s : State) : Nat × State :=
  let (x, s) := s.fresh
  (x % 20834, s)

/-- An answer OK with data. -/
def State.ok (s : State) (q : OpenReq) (data : List Nat) : State := s.reply q Status.ok data

/-- PING. -/
def cmdPing : Cmd where
  opcode := 0x0100
  i2c := true
  remote := true
  len := lenIs 0
  run s q _ := s.ok q (leBytes 4 decikRel ++ leBytes 4 (s.get EVR.OPTIME.SECONDS) ++ leBytes 4 s.tickSeq)

/-- PING (R398). -/
def execPing (r : Request) (s : State) : Host.Outcome State Fault Refusal := .next (s.serve cmdPing r)

/-- The latest rebuild; the first one where there is none yet. -/
def State.withSummary (s : State) : State := if s.mbx.saddle.isEmpty then s.rebuild else s

/-- STATE_SUMMARY. -/
def cmdStateSummary : Cmd where
  opcode := 0x0101
  remote := true
  len := lenIs 0
  run s q _ := let s := s.withSummary; s.ok q s.mbx.saddle

/-- STATE_SUMMARY (R376). -/
def execStateSummary (r : Request) (s : State) : Host.Outcome State Fault Refusal := .next (s.serve cmdStateSummary r)

/-- REDUCED_SUMMARY. -/
def cmdReducedSummary : Cmd where
  opcode := 0x0102
  i2c := true
  remote := true
  len := lenIs 0
  run s q _ := let s := s.withSummary; s.ok q s.mbx.reduced

/-- REDUCED_SUMMARY (R379). -/
def execReducedSummary (r : Request) (s : State) : Host.Outcome State Fault Refusal := .next (s.serve cmdReducedSummary r)

/-- GET_IDENTITY. -/
def cmdGetIdentity : Cmd where
  opcode := 0x0103
  i2c := true
  remote := true
  len := lenIs 0
  run s q _ := s.ok q (s.idBytes ++ leBytes 8 s.uid.toNat ++ leBytes 4 decikRel ++ leBytes 4 (s.get MBX.CFG_VER.VER) ++
    padTo 32 s.sec.measurement)

/-- GET_IDENTITY (R398). -/
def execGetIdentity (r : Request) (s : State) : Host.Outcome State Fault Refusal := .next (s.serve cmdGetIdentity r)

/-- GET_TIME. -/
def cmdGetTime : Cmd where
  opcode := 0x0104
  remote := true
  len := lenIs 0
  run s q _ :=
    let (p, s) := s.phaseNow
    s.ok q (leBytes 4 s.tickSeq ++ leBytes 2 p ++ [s.syncState, 0] ++ leBytes 8 (s.timeAt p) ++ leBytes 8 (ptpBits (s.ptpNs p)) ++
      leBytes 8 (s.rtcAt p))

/-- GET_TIME (R398). -/
def execGetTime (r : Request) (s : State) : Host.Outcome State Fault Refusal := .next (s.serve cmdGetTime r)

/-- SET_RTC: the clock counts on from the value; `s.rtc` is its reading at the tick boundary. -/
def cmdSetRtc : Cmd where
  opcode := 0x0105
  i2c := true
  len := lenIs 8
  run s q d :=
    let (p, s) := s.phaseNow
    State.ok { s with rtc := 3 * fieldOf d 0 8 - 3 * p } q []

/-- SET_RTC (R513). -/
def execSetRtc (r : Request) (s : State) : Host.Outcome State Fault Refusal := .next (s.serve cmdSetRtc r)

/-- SET_NOTE_LEVEL. -/
def cmdSetNoteLevel : Cmd where
  opcode := 0x0106
  len := lenIs 4
  rsv := [(1, 3)]
  run s q d :=
    if 7 < fieldOf d 0 1 then s.reply q Status.badParam []
    else State.ok { s with mbx := { s.mbx with noteLevel := fieldOf d 0 1 } } q []

/-- SET_NOTE_LEVEL (R399). -/
def execSetNoteLevel (r : Request) (s : State) : Host.Outcome State Fault Refusal := .next (s.serve cmdSetNoteLevel r)

/-- SERVICE_MODE. To NORMAL it needs an image in force and tamper clear (R542). -/
def cmdServiceMode : Cmd where
  opcode := 0x0107
  i2c := true
  auth _ _ d := fieldOf d 0 1 == Mode.test || fieldOf d 0 1 == Mode.recovery
  len := lenIs 4
  accept s d := !(fieldOf d 0 1 == Mode.normal && (s.get MBX.CFG_VER.VER == 0 || s.flag SEC.STAT.TAMPER))
  rsv := [(1, 3)]
  run s q d :=
    let m := fieldOf d 0 1
    if m == Mode.startUp || 3 < m then s.reply q Status.badParam []
    else (s.set PWR.STAT.MODE m).ok q [s.mode, 0, 0, 0]

/-- SERVICE_MODE (R399, R542). -/
def execServiceMode (r : Request) (s : State) : Host.Outcome State Fault Refusal := .next (s.serve cmdServiceMode r)

/-- NODE_RESET: the answer, then the restart or the reset. -/
def cmdNodeReset : Cmd where
  opcode := 0x0108
  i2c := true
  auth _ ch _ := ch != 2
  len := lenIs 4
  rsv := [(1, 3)]
  run s q d :=
    match fieldOf d 0 1 with
    | 0 => (s.ok q []).decikStop Rst.restart false
    | 1 => (s.ok q []).resetNode Rst.node s.straps.bootSrc 0 0
    | _ => s.reply q Status.badParam []

/-- NODE_RESET (R399). -/
def execNodeReset (r : Request) (s : State) : Host.Outcome State Fault Refusal := .next (s.serve cmdNodeReset r)

/-! ## Units -/

/-- UNIT_GET. -/
def cmdUnitGet : Cmd where
  opcode := 0x0109
  remote := true
  len := lenIs 4
  rsv := [(1, 3)]
  run s q d :=
    let c := fieldOf d 0 1
    if 11 < c then s.reply q Status.badParam []
    else
      let us := allUnits.filter (fun id => c == 0 || unitClass id == c)
      s.ok q (leBytes 2 us.length ++ [0, 0] ++ us.flatMap (fun id => s.unitEntry id))

/-- UNIT_GET (R398). -/
def execUnitGet (r : Request) (s : State) : Host.Outcome State Fault Refusal := .next (s.serve cmdUnitGet r)

/-- Is an ENABLE or a DISABLE of the unit held for a later tick? -/
def State.unitHeld (s : State) (id : Nat) : Bool :=
  s.mbx.timed.any (fun t => (t.opcode == 0x010A || t.opcode == 0x010B) && fieldOf t.data 0 4 == id)

/-- Can a command name the unit (R399)? -/
def unitNamed (id : Nat) : Bool := unitKnown id && unitClass id != UClass.remote

/-- Take an ENABLE or DISABLE: what the state of the unit answers at once, where nothing is held for it, is answered; the rest
is PENDING and takes effect at ETICK. -/
def State.unitCommand (s : State) (q : OpenReq) (d : List Nat) (enable : Bool) : State :=
  let id := fieldOf d 0 4
  if !unitNamed id then s.reply q Status.badParam []
  else match s.etick (fieldOf d 4 4) with
    | none => s.reply q Status.badParam []
    | some w =>
      let u := s.unit id
      let now : Option Nat :=
        if s.unitHeld id then none
        else if enable then u.enableAnswer
        else if u.mgmt == Mgmt.disabled then some Status.ok else none
      match now with
      | some st => s.reply q st (if st == Status.ok then leBytes 4 w.tick else [])
      | none => ((s.hold w q.opcode d q.ch q.tag).twinShare w.tick q.opcode d).wait q (Pend.unit id enable w.tick)

/-- UNIT_ENABLE. -/
def cmdUnitEnable : Cmd where
  opcode := 0x010A
  remote := true
  versioned := true
  lead := true
  len := lenIs 8
  accept s d :=
    let id := fieldOf d 0 4
    !unitNamed id || (s.domOn (unitDomain id) && ((s.unit id).mgmt != Mgmt.faulted || s.unitHeld id))
  effective s d := s.etickNamed (fieldOf d 4 4)
  run s q d := s.unitCommand q d true

/-- UNIT_ENABLE (R375, R399). -/
def execUnitEnable (r : Request) (s : State) : Host.Outcome State Fault Refusal := .next (s.serve cmdUnitEnable r)

/-- UNIT_DISABLE. -/
def cmdUnitDisable : Cmd where
  opcode := 0x010B
  remote := true
  versioned := true
  lead := true
  len := lenIs 8
  accept s d := !unitNamed (fieldOf d 0 4) || s.domOn (unitDomain (fieldOf d 0 4))
  effective s d := s.etickNamed (fieldOf d 4 4)
  run s q d := s.unitCommand q d false

/-- UNIT_DISABLE (R375, R399). -/
def execUnitDisable (r : Request) (s : State) : Host.Outcome State Fault Refusal := .next (s.serve cmdUnitDisable r)

/-- The rails that several commands enable, or disable, at one tick move together (R519, R520). -/
def State.railUnits (s : State) (ids : List Nat) (on : Bool) : State :=
  if ids.isEmpty then s
  else
    let s := s.railsRun on (ids.foldl (fun m id => setBit m (unitIndex id)) 0)
    ids.foldl (fun (s : State) (id : Nat) =>
      if on then s.unitTo id Mgmt.starting else (s.unitTo id Mgmt.stopping).unitStep id) s

/-- Units of one ETICK are enabled: rails in DISABLED together, the others one by one. -/
def State.unitsEnable (s : State) (ids : List Nat) : State :=
  let rails := ids.filter (fun id => unitClass id == UClass.rail && (s.unit id).mgmt == Mgmt.disabled)
  ((ids.filter (fun id => !rails.contains id)).foldl (fun (s : State) (id : Nat) => s.unitEnable id) s).railUnits rails.eraseDups true

end Sys2Proof.Machine
end

