-- ==== Sys2Proof/Machine/CmdConfig.lean ====
section
/-! DEFINITION. Configuration commands, group 0x02 (R380 to R387, R395, R397, R400), and the cancellation of a pending image. -/

namespace Sys2Proof.Machine

/-! ## The configuration state -/

abbrev CfgState.steady : Nat := 0
abbrev CfgState.loaded : Nat := 1
abbrev CfgState.pending : Nat := 2
abbrev CfgState.trial : Nat := 3
abbrev CfgState.rolling : Nat := 4

/-- The states of image slots (R376, R380). -/
abbrev Slot.empty : Nat := 0
abbrev Slot.previous : Nat := 1
abbrev Slot.pend : Nat := 2
abbrev Slot.rejected : Nat := 3
abbrev Slot.cancelled : Nat := 4
abbrev Slot.active : Nat := 5

/-- A slot. -/
def CfgSt.slot (c : CfgSt) (k : Nat) : ImageSlot := c.slots.getD k ⟨[], 0, Slot.empty⟩

/-- The slot in a state. -/
def CfgSt.slotIn (c : CfgSt) (st : Nat) : Option Nat := [0, 1].find? (fun k => (c.slot k).state == st)

/-- The configuration state that MBX.CFG_STAT.STATE shows. -/
def CfgSt.state (c : CfgSt) : Nat :=
  if c.rollTo.isSome then CfgState.rolling
  else if c.trial then CfgState.trial
  else if (c.slotIn Slot.pend).isSome then CfgState.pending
  else if c.loaded.isSome then CfgState.loaded
  else CfgState.steady

/-- The version in force; 0 where no image is. -/
def CfgSt.version (c : CfgSt) : Nat := if c.inForce then (c.slot c.active).version else 0

/-- The configuration registers of MBX follow the record (R389). -/
def State.showCfg (s : State) : State :=
  let c := s.cfg
  let prev := match c.slotIn Slot.previous with | some k => (c.slot k).version | none => 0
  let pend := if c.trial then c.version else match c.slotIn Slot.pend with | some k => (c.slot k).version | none => 0
  let left := match c.confirmAt with
    | some t => if c.trial then min 0xFFFF ((t - s.decik.upTicks + 47999) / 48000) else 0
    | none => 0
  let s := ((s.set MBX.CFG_VER.VER c.version).set MBX.CFG_PREV.VER prev).set MBX.CFG_PEND.VER pend
  let s := (s.set MBX.CFG_STAT.STATE c.state).set MBX.CFG_STAT.TRIAL_STARTS (if c.trial then c.trialStarts else 0)
  s.set MBX.CFG_STAT.CONFIRM_S left

/-- Write the commit record: its sequence number advances (R380). -/
def State.writeRecordCfg (s : State) (c : CfgSt) : State := State.showCfg { s with cfg := { c with recSeq := c.recSeq + 1 } }

/-- Change a slot. -/
def CfgSt.setSlot (c : CfgSt) (k : Nat) (x : ImageSlot) : CfgSt := { c with slots := c.slots.set k x }

/-- Change the state of a slot. -/
def CfgSt.mark (c : CfgSt) (k st : Nat) : CfgSt := c.setSlot k { c.slot k with state := st }

/-- A CONFIG notification (R366): event, version now in force, version left, tick. -/
def State.noteConfig (s : State) (event left tick : Nat) : State :=
  s.notify Note.config ([event] ++ leBytes 4 s.cfg.version ++ leBytes 4 left ++ leBytes 4 tick)

/-- Set a bit of MBX.CFG_EVT. -/
def State.cfgEvt (s : State) (f : Fld) (src : Nat) : State := s.evt f 1 src

/-! ## CFG_LOAD -/

/-- Is the CONFIG region writable: every bank of it? Without a region map the check does not fail. -/
def State.configWritable (s : State) : Bool :=
  match s.region 2 with
  | some r => (List.range 16).all (fun b => !r.inBank b || s.bankUsable b)
  | none => true

/-- The key of a slot, where it is a usable SIGVER key. -/
def State.sigKey (s : State) (k : Nat) : Option Nat :=
  let x := s.slot k
  if x.state == 1 && bit x.mask 3 then x.cur.map (·.key) else none

/-- Is the image's signature right under the slot that its header names? -/
def State.signed (s : State) (b : List Nat) : Bool :=
  match s.sigKey (Config.headerOf b).sigSlot with
  | some k => Config.signatureOk k b
  | none => false

/-- The checks of a whole image (R381), the first failure. -/
def State.imageStatus (s : State) (b : List Nat) : Nat :=
  let h := Config.headerOf b
  if s.flag SEC.STAT.TAMPER then Status.tamperLock
  else if b.length < 128 || h.size != b.length || h.format != 1 || h.confirm < 1 || 600 < h.confirm || 15 < h.sigSlot then Status.badParam
  else if decikRel < h.release || h.part != 0x6448 then Status.versionMismatch
  else if !s.signed b then Status.authFailed
  else if h.version = 0 || h.version == s.cfg.version then Status.badParam
  else Status.ok

/-- The pieces in which the lead streams an image to the follower (R395). -/
def imagePieces (total : Nat) (b : List Nat) : List (List Nat) :=
  let ps := chunks 1024 96 b
  (List.range ps.length).map (fun i =>
    let p := ps.getD i []
    leBytes 4 total ++ leBytes 4 (1024 * i) ++ leBytes 2 p.length ++ leBytes 2 (b2n (i == 0) + 2 * b2n (i + 1 == ps.length)) ++
      [0, 0, 0, 0] ++ p)

/-- The whole image is there: LOADED. A wrong signature counts as an authentication failure (R579). -/
def State.imageLoaded (s : State) (b : List Nat) : Nat × State :=
  let st := s.imageStatus b
  let s := if st == Status.authFailed then s.authFail SEC.AUTH_FAIL.SIG else s
  if st != Status.ok then (st, s)
  else
    let s := (imagePieces b.length b).foldl (fun (s : State) (p : List Nat) => s.twinShare s.tickSeq 0x0201 p) s
    (st, State.showCfg { s with cfg := { s.cfg with loaded := some b, twinHas := s.flag RED.TWIN_STAT.PAIR1_UP } })

/-- CFG_LOAD. -/
def cmdCfgLoad : Cmd where
  opcode := 0x0201
  lead := true
  len := fragLen
  accept s _ := s.cfg.state == CfgState.steady || s.cfg.state == CfgState.loaded
  run s q d :=
    if 98304 < fieldOf d 0 4 then s.reply q Status.noResource []
    else if !s.configWritable then (s.dropTransfer q.ch q.opcode).reply q Status.mediaFault []
    else match s.takeFragment q.ch q.opcode d with
      | (.bad, s) => s.reply q Status.badParam []
      | (.more, s) => s.ok q []
      | (.whole b, s) =>
        let (st, s) := s.imageLoaded b
        s.reply q st []

/-- CFG_LOAD (R381, R397, R400). -/
def execCfgLoad (r : Request) (s : State) : Host.Outcome State Fault Refusal := .next (s.serve cmdCfgLoad r)

/-- The follower takes a piece of the lead's image (R395). -/
def State.applyCfgLoad (s : State) (d : List Nat) : State :=
  match s.takeFragment 3 0x0201 d with
  | (.whole b, s) => (s.imageLoaded b).2
  | (_, s) => s

/-! ## CFG_APPLY -/

/-- The tick that APPLY or ROLLBACK names (R382, R386). -/
def State.commitTick (s : State) (t : Nat) : Option When :=
  if s.tickSeq = 0 then (if t = 0 then some ⟨0, some (s.decik.upTicks + 4800)⟩ else none)
  else if t = 0 then some ⟨(s.tickSeq + 4800) % 2 ^ 32, none⟩
  else if decide (4800 ≤ s.ticksTo t) && decide (s.ticksTo t ≤ 1048576) then some ⟨t, none⟩
  else none

/-- The moment that such a field names, as the version check takes it. -/
def State.commitNamed (s : State) (t : Nat) : When := match s.commitTick t with | some w => w | none => s.now

/-- The jobs of an image. -/
def imageJobs (i : Config.Image) : List Job :=
  i.jobs.map (fun (j : Nat × Nat × Nat × Bool × List Nat) => ⟨j.1, j.2.1, j.2.2.1, j.2.2.2.1, j.2.2.2.2, false, false, false, false, 0, false⟩)

/-- The map of table "Region kinds": one region of each kind with its default size and class, LIBRARY at its bound, HOST the
remainder. An image that names no region has it (notes/assumptions/56.md). -/
def defaultRegions : List (Nat × Nat × Bool) := [
  (1, 2048, true), (2, 8192, true), (3, 16, true), (4, 262144, true), (5, 453516, true),
  (6, 512, false), (7, 1024, false), (8, 16384, false), (9, 65536, false), (15, 239188, false)]

/-- The regions of an image. -/
def imageRegions (i : Config.Image) : List (Nat × Nat × Bool) := if i.regions.isEmpty then defaultRegions else i.regions

/-- The region map of an image. -/
def imageMap (i : Config.Image) : List Region := (imageRegions i).map (fun (r : Nat × Nat × Bool) => ⟨r.1, r.2.1, r.2.2, 0⟩)

/-- Does an image pass admission: its jobs (R35, R36) and its region map (R309)? -/
def State.admits (s : State) (i : Config.Image) : Bool := (placeJobs s.budget [] (imageJobs i)).isSome && mapFits (imageMap i)

/-- Has the image reached the follower (R395)? -/
def State.followerHas (s : State) : Bool :=
  !s.twinOn || (s.twinState == 3 && !s.flag RED.EVT.TWIN_SPLIT) ||
  (s.cfg.twinHas && s.flag RED.TWIN_STAT.PAIR1_UP && !s.mbx.twinOut.any (fun x => fieldOf x.2 0 2 == 0x0201))

/-- Put the loaded image into the other slot, PENDING, to commit at a tick (R382). -/
def State.applyBegin (s : State) (b : List Nat) (confirm : Nat) (w : When) : State :=
  let k := 1 - s.cfg.active
  let h := Config.headerOf b
  let s := s.writeRecordCfg (s.cfg.setSlot k ⟨[], 0, Slot.empty⟩)
  let c := { s.cfg.setSlot k ⟨b, h.version, Slot.pend⟩ with
    loaded := none, confirmTime := if confirm = 0 then h.confirm else confirm }
  (s.writeRecordCfg c).set MBX.CFG_TICK.TSEQ w.tick

/-- CFG_APPLY. While PDW is set no commit begins: BUSY (R539, notes/assumptions/54.md). -/
def cmdCfgApply : Cmd where
  opcode := 0x0202
  versioned := true
  lead := true
  len := lenIs 8
  accept s _ := s.cfg.state == CfgState.loaded
  rsv := [(6, 2)]
  run s q d :=
    match s.commitTick (fieldOf d 0 4), s.cfg.loaded with
    | some w, some b =>
      let st := s.imageStatus b
      if 600 < fieldOf d 4 2 then s.reply q Status.badParam []
      else if st != Status.ok then s.reply q st []
      else if !s.admits (Config.imageOf b) || !s.followerHas then s.reply q Status.noResource []
      else if s.flag PWR.STAT.PDW then s.reply q Status.busy []
      else if s.cfg.mediaBad then s.reply q Status.mediaFault []
      else (((s.applyBegin b (fieldOf d 4 2) w).hold w 0x0202 d q.ch q.tag).twinShare w.tick 0x0202 d).wait q .apply
    | _, _ => s.reply q Status.badParam []

/-- CFG_APPLY (R382, R400). -/
def execCfgApply (r : Request) (s : State) : Host.Outcome State Fault Refusal := .next (s.serve cmdCfgApply r)

/-- The pending image is cancelled (R386, R388): its slot CANCELLED, APPLY ends with ABORTED. -/
def State.cfgCancel (s : State) : State :=
  match s.cfg.slotIn Slot.pend with
  | none => s
  | some k =>
    let left := (s.cfg.slot k).version
    let tick := s.get MBX.CFG_TICK.TSEQ
    let s := s.writeRecordCfg (s.cfg.mark k Slot.cancelled)
    let s := { s with mbx := { s.mbx with timed := s.mbx.timed.filter (fun (t : Timed) => t.opcode != 0x0202) } }
    let s := s.finishAll (fun p => p == Pend.apply) Status.aborted []
    (s.cfgEvt MBX.CFG_EVT.CANCEL Src.CONFIG_ROLLBACK).noteConfig 4 left tick

/-! ## CFG_CONFIRM -/

/-- The trial image is confirmed (R384). -/
def State.cfgConfirm (s : State) : State :=
  let s := s.writeRecordCfg { s.cfg with trial := false, trialStarts := 0, confirmAt := none }
  (s.cfgEvt MBX.CFG_EVT.CONFIRM Src.CONFIG_COMMIT).noteConfig 1 s.cfg.version s.tickSeq

/-- CFG_CONFIRM. -/
def cmdCfgConfirm : Cmd where
  opcode := 0x0203
  versioned := true
  lead := true
  len := lenIs 0
  accept s _ := s.cfg.state == CfgState.trial
  run s q _ :=
    if s.flag PWR.STAT.PDW then s.reply q Status.busy []
    else (s.cfgConfirm.twinShare s.tickSeq 0x0203 []).ok q []

/-- CFG_CONFIRM (R384). -/
def execCfgConfirm (r : Request) (s : State) : Host.Outcome State Fault Refusal := .next (s.serve cmdCfgConfirm r)

/-! ## CFG_ROLLBACK -/

/-- A return to the PREVIOUS slot is held for a tick: ROLLING_BACK (R385, R386). -/
def State.rollBegin (s : State) (w : When) (auto : Bool) : State :=
  State.showCfg { s.set MBX.CFG_TICK.TSEQ w.tick with cfg := { s.cfg with rollTo := some (w.tick, auto), confirmAt := none } }

/-- CFG_ROLLBACK: what the configuration state makes of it. -/
def cmdCfgRollback : Cmd where
  opcode := 0x0204
  lead := true
  len := lenIs 4
  accept s _ := s.cfg.state == CfgState.pending || (s.cfg.state != CfgState.rolling && (s.cfg.slotIn Slot.previous).isSome)
  run s q d :=
    match s.commitTick (fieldOf d 0 4) with
    | none => s.reply q Status.badParam []
    | some w =>
      if s.flag PWR.STAT.PDW then s.reply q Status.busy []
      else if s.cfg.state == CfgState.pending then (s.cfgCancel.twinShare s.tickSeq 0x0204 d).ok q (leBytes 4 w.tick)
      else (((s.rollBegin w false).hold w 0x0204 d q.ch q.tag).twinShare w.tick 0x0204 d).wait q .rollback

/-- CFG_ROLLBACK (R386). -/
def execCfgRollback (r : Request) (s : State) : Host.Outcome State Fault Refusal := .next (s.serve cmdCfgRollback r)

/-! ## CFG_STATUS, CFG_READ, CFG_DISCARD -/

/-- CFG_STATUS. -/
def cmdCfgStatus : Cmd where
  opcode := 0x0205
  i2c := true
  remote := true
  len := lenIs 0
  run s q _ := s.ok q s.cfgSection

/-- CFG_STATUS (R400). -/
def execCfgStatus (r : Request) (s : State) : Host.Outcome State Fault Refusal := .next (s.serve cmdCfgStatus r)

/-- CFG_READ: the image as stored. -/
def cmdCfgRead : Cmd where
  opcode := 0x0206
  len := lenIs 12
  rsv := [(1, 3), (10, 2)]
  run s q d :=
    let k := fieldOf d 0 1
    let off := fieldOf d 4 4
    let n := fieldOf d 8 2
    let x := s.cfg.slot k
    if 1 < k || x.state == Slot.empty || n < 1 || 4064 < n || x.bytes.length < off + n then s.reply q Status.badParam []
    else s.ok q ((x.bytes.drop off).take n)

/-- CFG_READ (R400). -/
def execCfgRead (r : Request) (s : State) : Host.Outcome State Fault Refusal := .next (s.serve cmdCfgRead r)

/-- CFG_DISCARD. -/
def cmdCfgDiscard : Cmd where
  opcode := 0x0207
  lead := true
  len := lenIs 0
  accept s _ := s.cfg.state == CfgState.loaded
  run s q _ := ((State.showCfg { s with cfg := { s.cfg with loaded := none } }).twinShare s.tickSeq 0x0207 []).ok q []

/-- CFG_DISCARD (R381). -/
def execCfgDiscard (r : Request) (s : State) : Host.Outcome State Fault Refusal := .next (s.serve cmdCfgDiscard r)

end Sys2Proof.Machine
end

