-- ==== Sys2Proof/Machine/CmdRing.lean ====
section
/-! DEFINITION. Ring and topology commands, group 0x03 (R401), and the redundancy and stack commands, group 0x0D (R207, R414,
R415). -/

namespace Sys2Proof.Machine

/-- RING_STATUS. -/
def cmdRingStatus : Cmd where
  opcode := 0x0301
  remote := true
  len := lenIs 0
  accept s _ := s.domOn Dom.ring
  run s q _ := s.ok q ([s.position, s.get STK.STAT.SUB, s.get RING.ENG_STAT.ORIENT, s.role, s.phase, s.istate, 0, 0] ++
    leBytes 2 (s.get RING.ENG_STAT.TOPO) ++ leBytes 2 (s.get RING.LAYOUT.LAYOUT_VER) ++ leBytes 2 (s.get RED.EPOCH.FOLLOWED) ++ [0, 0] ++
    leBytes 8 (s.get64 RED.MASTER_LO.UID RED.MASTER_HI.UID) ++ [s.get RING.INAUG_STAT.COUNT_A, s.get RING.INAUG_STAT.COUNT_B, 0, 0] ++
    (List.range 4).flatMap (fun n => s.wordLe (RING.LINKSTAT.off n)))

/-- RING_STATUS (R401). -/
def execRingStatus (r : Request) (s : State) : Host.Outcome State Fault Refusal := .next (s.serve cmdRingStatus r)

/-- RING_GET_LAYOUT. -/
def cmdRingGetLayout : Cmd where
  opcode := 0x0302
  remote := true
  len := lenIs 4
  accept s _ := s.domOn Dom.ring && s.layout?.isSome
  run s q d :=
    let off := fieldOf d 0 2
    let n := fieldOf d 2 2
    match s.layout? with
    | some l => if n < 1 || 4064 < n || 4096 < off + n then s.reply q Status.badParam [] else s.ok q (l.image.slice off n)
    | none => s.reply q Status.wrongState []

/-- RING_GET_LAYOUT (R401). -/
def execRingGetLayout (r : Request) (s : State) : Host.Outcome State Fault Refusal := .next (s.serve cmdRingGetLayout r)

/-- RING_RENUMBER: TOPO_CHG; the answer follows the switch. -/
def cmdRingRenumber : Cmd where
  opcode := 0x0303
  remote := true
  len := lenIs 0
  accept s _ := s.domOn Dom.ring && s.role != 3
  run s q _ := s.topoChange.wait q (.renumber (s.totalOf RING.INAUG_CNT.ABANDONED))

/-- RING_RENUMBER (R112, R401). -/
def execRingRenumber (r : Request) (s : State) : Host.Outcome State Fault Refusal := .next (s.serve cmdRingRenumber r)

/-- The partner on a link, where it reports HS_STATE RUNNING. -/
def State.runningPartner (s : State) (n : Nat) : Option PartnerRec :=
  (s.inaug.partners.find? (fun e => e.1 == n && e.2.hsState == Hs.running)).map (·.2)

/-- RING_MERGE. -/
def cmdRingMerge : Cmd where
  opcode := 0x0304
  remote := true
  auth := always
  len := lenIs 4
  accept s d := s.domOn Dom.ring && (!s.isMaster || 3 < fieldOf d 0 1 ||
    (s.linkState (linkIx (fieldOf d 0 1)) == Lk.qualified && (s.runningPartner (fieldOf d 0 1)).isSome))
  rsv := [(1, 3)]
  run s q d :=
    let n := fieldOf d 0 1
    if !s.isMaster then s.reply q Status.notPermitted []
    else if 3 < n then s.reply q Status.badParam []
    else match s.runningPartner n with
      | none => s.reply q Status.wrongState []
      | some r =>
        let s := s.set RING.MERGE_STAT.RESULT 0
        let s := { s with inaug := { s.inaug with merge := { s.inaug.merge with attempts := 0 } } }
        (s.mergeStart n r.count).wait q .merge

/-- RING_MERGE (R152, R153, R401). -/
def execRingMerge (r : Request) (s : State) : Host.Outcome State Fault Refusal := .next (s.serve cmdRingMerge r)

/-- RING_SET_RANK. -/
def cmdRingSetRank : Cmd where
  opcode := 0x0305
  auth := always
  len := lenIs 4
  accept s _ := s.domOn Dom.ring && !s.isMaster && s.phase == Phase.idle
  rsv := [(1, 3)]
  run s q d := if 15 < fieldOf d 0 1 then s.reply q Status.badParam [] else (s.rankSet (fieldOf d 0 1)).ok q []

/-- RING_SET_RANK (R158, R401). -/
def execRingSetRank (r : Request) (s : State) : Host.Outcome State Fault Refusal := .next (s.serve cmdRingSetRank r)

/-- RING_LINK_CTRL: authorised when the link is QUALIFIED or IN_RING. -/
def cmdRingLinkCtrl : Cmd where
  opcode := 0x0306
  auth s _ d := decide (fieldOf d 0 1 ≤ 3) && s.linkUp (linkIx (fieldOf d 0 1))
  len := lenIs 4
  accept s _ := s.domOn Dom.ring
  rsv := [(2, 2)]
  run s q d :=
    let n := linkIx (fieldOf d 0 1)
    if 3 < fieldOf d 0 1 then s.reply q Status.badParam []
    else match fieldOf d 1 1 with
      | 0 => (linkDisable s n false).ok q []
      | 1 => (linkDisable s n true).ok q []
      | 2 => (linkRetrain s n).ok q []
      | _ => s.reply q Status.badParam []

/-- RING_LINK_CTRL (R59, R401). -/
def execRingLinkCtrl (r : Request) (s : State) : Host.Outcome State Fault Refusal := .next (s.serve cmdRingLinkCtrl r)

/-- RING_SET_PARAM: 0 leaves a field unchanged. -/
def cmdRingSetParam : Cmd where
  opcode := 0x0307
  len := lenIs 4
  accept s _ := s.domOn Dom.ring
  rsv := [(3, 1)]
  run s q d :=
    let ms := fieldOf d 0 2
    let lead := fieldOf d 2 1
    if (ms != 0 && (decide (ms < 10) || decide (1000 < ms))) || (lead != 0 && (decide (lead < 16) || decide (128 < lead))) then
      s.reply q Status.badParam []
    else
      let s := if ms = 0 then s else s.set RING.LINK_QUAL.QUAL_MS ms
      let s := if lead = 0 then s else s.set RING.INAUG_CFG.SWITCH_LEAD lead
      s.ok q []

/-- RING_SET_PARAM (R73, R158, R401). -/
def execRingSetParam (r : Request) (s : State) : Host.Outcome State Fault Refusal := .next (s.serve cmdRingSetParam r)

/-- SYNC_STATUS. -/
def cmdSyncStatus : Cmd where
  opcode := 0x0308
  remote := true
  len := lenIs 0
  accept s _ := s.domOn Dom.ring
  run s q _ := s.ok q (s.wordLe SYNC.STAT.off ++ s.wordLe SYNC.OFFSET.off ++ s.wordLe SYNC.RATE.off ++ s.wordLe SYNC.SLEW_REM.off ++
    (List.range 8).flatMap (fun e => s.wordLe (SYNC.ENT_DEV.off e)) ++ (List.range 8).flatMap (fun e => s.wordLe (SYNC.ENT_STAT.off e)))

/-- SYNC_STATUS (R401). -/
def execSyncStatus (r : Request) (s : State) : Host.Outcome State Fault Refusal := .next (s.serve cmdSyncStatus r)

/-! ## Redundancy and stack -/

/-- RED_STATUS. -/
def cmdRedStatus : Cmd where
  opcode := 0x0D01
  remote := true
  len := lenIs 0
  run s q _ := s.ok q (s.wordLe RED.STAT.off ++ s.wordLe RED.HB.off ++ s.wordLe RED.EPOCH.off ++ s.wordLe RED.TAKEOVER.off ++
    s.wordLe RED.TWIN_STAT.off ++ leBytes 8 (s.get64 RED.STANDBY_LO.UID RED.STANDBY_HI.UID))

/-- RED_STATUS (R414). -/
def execRedStatus (r : Request) (s : State) : Host.Outcome State Fault Refusal := .next (s.serve cmdRedStatus r)

/-- The layout of a handover to position `p` (R207): the roles change, and the target takes sync entry 0; the old master takes
the target's former entry. -/
def Layout.handover (l : Layout) (p version epoch : Nat) : Layout :=
  let was := match l.pos p with | some q => q.sync | none => none
  let m := l.withMaster p
  { m with
    version := version
    epoch := epoch
    masterUid := match l.pos p with | some q => q.uid | none => l.masterUid
    positions := (List.range m.positions.length).filterMap (fun i =>
      (m.positions[i]?).map (fun (q : LayoutPos) =>
        if i + 1 = p then { q with sync := some 0 } else if i + 1 = l.masterPos then { q with sync := was } else q)) }

/-- Is the target an admitted candidate that is in sync (R207)? -/
def State.handoverTarget (s : State) (uid : Nat) : Option Nat :=
  match s.layout? with
  | none => none
  | some l =>
    let p := l.posOf (BitVec.ofNat 64 uid)
    match l.pos p with
    | some q => if q.role == 1 && q.rank != 0 && s.remoteDp p == Dp.running then some p else none
    | none => none

/-- MASTER_HANDOVER. -/
def cmdMasterHandover : Cmd where
  opcode := 0x0D02
  remote := true
  len := lenIs 8
  accept s _ := s.domOn Dom.ring && (!s.isMaster || (s.phase == Phase.idle && s.inaug.merge.phase == .idle))
  run s q d :=
    if !s.isMaster then s.reply q Status.notPermitted []
    else match s.handoverTarget (fieldOf d 0 8), s.layout? with
      | some p, some l =>
        let l := l.handover p s.newLayout ((s.ring.followEpoch + 1) % 2 ^ 16)
        let s := { s with red := { s.red with handover := some (BitVec.ofNat 64 (fieldOf d 0 8)) } }
        let s := (s.set RING.PEND.NEW_TOPO l.topo).set RING.PEND.NEW_LAYOUT l.version
        let s := (s.toPhase Phase.distribute).sendLayout l
        let adm := (l.positions.filter (fun x => x.role != 0)).map (fun x => (x.hopIdx, Admission.admitted))
        let s := { s with inaug := { s.inaug with
          image := some l, admissions := adm, acked := [1], frags := (List.range 20).map (fun i => (i, 0)) } }
        s.wait q .handover
      | _, _ => s.reply q Status.badParam []

/-- MASTER_HANDOVER (R207, R414). -/
def execMasterHandover (r : Request) (s : State) : Host.Outcome State Fault Refusal := .next (s.serve cmdMasterHandover r)

/-- TWIN_RESYNC: the follower resynchronises; the lead names the tick at which it resumes (R193). -/
def cmdTwinResync : Cmd where
  opcode := 0x0D03
  len := lenIs 0
  accept s _ := s.twinOn && s.twinState == 1 && s.flag RED.TWIN_STAT.PAIR1_UP
  run s q _ := (s.setFlag RED.TWIN_STAT.RESYNC true).wait q .resync

/-- TWIN_RESYNC (R193, R414). -/
def execTwinResync (r : Request) (s : State) : Host.Outcome State Fault Refusal := .next (s.serve cmdTwinResync r)

/-- TWIN_RESYNC_RESUME (R193): the follower resumes writing; at the lead TWIN_RESYNC completes with the tick. -/
def execTwinResyncResume (s : State) : Host.Outcome State Fault Refusal :=
  .next (s.twinResume.finishAll (fun p => p == Pend.resync) Status.ok (leBytes 4 s.tickSeq))

/-- STACK_STATUS. -/
def cmdStackStatus : Cmd where
  opcode := 0x0D04
  remote := true
  len := lenIs 0
  run s q _ := s.ok q ([s.get STK.STAT.ROLE, s.get STK.STAT.SUB, s.get STK.STAT.MEMBERS, 0] ++ s.wordLe STK.STAT.off ++
    s.wordLe (STK.LINKSTAT.off 0) ++ s.wordLe (STK.LINKSTAT.off 1) ++ s.wordLe STK.MEMBER_MAP.off)

/-- STACK_STATUS (R414). -/
def execStackStatus (r : Request) (s : State) : Host.Outcome State Fault Refusal := .next (s.serve cmdStackStatus r)

/-- STACK_MEMBER_RESET: the head asks the member. -/
def cmdStackMemberReset : Cmd where
  opcode := 0x0D05
  auth := always
  len := lenIs 4
  accept s _ := s.domOn Dom.stack && s.isHead
  rsv := [(1, 3)]
  run s q d :=
    let m := fieldOf d 0 1
    if m < 1 || 3 < m || !s.flag (STK.MEMBER_STAT.PRESENT m) then s.reply q Status.badParam []
    else (s.emit (.memberReset m)).ok q []

/-- STACK_MEMBER_RESET (R414). -/
def execStackMemberReset (r : Request) (s : State) : Host.Outcome State Fault Refusal := .next (s.serve cmdStackMemberReset r)

end Sys2Proof.Machine
end

