-- ==== Sys2Proof/Machine/CmdRoute.lean ====
section
/-! DEFINITION. Routing and zone commands, group 0x04 (R402, R403). Each timed command is checked when Decik handles it, and its
effect (`apply…`) follows at its tick. -/

namespace Sys2Proof.Machine

/-- A timed command: refused with the status of its check or for its ETICK (R394), else held for its tick. -/
def State.timedRun (s : State) (q : OpenReq) (d : List Nat) (etickAt status : Nat) : State :=
  match s.etick (fieldOf d etickAt 4) with
  | none => s.reply q Status.badParam []
  | some w => if status != Status.ok then s.reply q status [] else s.takeTimed q w d

/-- BAD_PARAM where a check fails. -/
def paramStatus (ok : Bool) : Nat := if ok then Status.ok else Status.badParam

/-- A value in a range. -/
def between (lo hi x : Nat) : Bool := decide (lo ≤ x) && decide (x ≤ hi)
/-- A signed value in a range. -/
def betweenInt (lo hi x : Int) : Bool := decide (lo ≤ x) && decide (x ≤ hi)

/-! ## The matrix -/

/-- An entry of XP_SET: source, sink, target in 0.1 dB (none is off) and ramp in ms. -/
structure XpEntry where
  src : Nat
  sink : Nat
  target : Option Int
  ramp : Nat
  deriving DecidableEq, Repr

/-- A gain field (R232): none where it lies outside the range. -/
def gainField (d : List Nat) (a : Nat) : Option (Option Int) :=
  let g := signedOf d a 2
  if fieldOf d a 2 == 0x8000 then some none else if betweenInt (-1200) 240 g then some (some g) else none

/-- The entries of XP_SET; none where a gain is out of range. -/
def xpEntries (d : List Nat) : Option (List XpEntry) :=
  (List.range (fieldOf d 4 2)).foldr (fun i acc =>
    match acc, gainField d (12 + 8 * i) with
    | some l, some g => some (⟨fieldOf d (8 + 8 * i) 2, fieldOf d (10 + 8 * i) 2, g, fieldOf d (14 + 8 * i) 2⟩ :: l)
    | _, _ => none) (some [])

/-- Apply one entry: a crosspoint that does not exist is created; one that is switched off at once is none (R233, R403). -/
def xpApply (xps : List Xpoint) (e : XpEntry) : List Xpoint :=
  let mine (x : Xpoint) : Bool := x.src == e.src && x.sink == e.sink
  let off := e.target.isNone && e.ramp == 0
  if off then xps.filter (fun x => !mine x)
  else if xps.any mine then xps.map (fun x => if mine x then x.aim e.target e.ramp else x)
  else xps ++ [Xpoint.aim ⟨e.src, e.sink, none, none, 0, 0⟩ e.target e.ramp]

/-- The zones whose output map holds a sink. -/
def AudSt.mapped (a : AudSt) (k : Nat) : Bool := a.zones.any (fun z => z.map.contains k)

/-- May a crosspoint join a source to a sink (R212, R213, R237)? -/
def State.mayJoin (s : State) (src sink : Nat) : Bool :=
  let zone := decide (srcZone ≤ src) && decide (src < srcZone + 16)
  srcDefined src && decide (sink < 0x360) &&
  !(zone && decide (0x080 ≤ sink) && decide (sink < 0x190)) &&
  !(decide (sink < 0x080) && (s.aud.mapped sink || !s.tdmOut (sink / 16)))

/-- Has every candidate in TAG mode a ring input (R241)? -/
def AudSt.tagsFed (a : AudSt) (xps : List Xpoint) : Bool :=
  (List.range 16).all (fun z => (List.range 16).all (fun c =>
    !((a.zone z).cands.getD c CandSt.reset).tag ||
      xps.any (fun x => x.sink == candSink z c && decide (x.src < 0x200) && x.target.isSome)))

/-- Each once. -/
def eachOnce (l : List Nat) : List Nat := l.foldl (fun acc x => if acc.contains x then acc else acc ++ [x]) []

/-- The worst-case cycles of a matrix (R255): direct routes run in hardware. -/
def matrixCost (xps : List Xpoint) : Nat :=
  let direct (x : Xpoint) : Bool := decide (0x190 ≤ x.sink) && decide (x.sink < 0x210) && x.target == some 0 &&
    decide (0x200 ≤ x.src) && decide (x.src < srcZone) && (xps.filter (fun (y : Xpoint) => y.sink == x.sink)).length == 1
  let l := xps.filter (fun x => !direct x)
  2 * l.length + 3 * (eachOnce (l.map (·.src))).length + 4 * (eachOnce (l.map (·.sink))).length

/-- The job that holds what commands add to the matrix beyond the image's own jobs. -/
abbrev matrixOwner : Nat := 0x0401 * 65536

/-- Its cycles. -/
def State.matrixJob (s : State) : Nat := (s.jobs.filter (fun (j : Job) => j.owner == matrixOwner)).foldl (fun a (j : Job) => a + j.cost) 0

/-- Its cycles after a change of the matrix. -/
def State.matrixNext (s : State) (xps : List Xpoint) : Nat := s.matrixJob + matrixCost xps - matrixCost s.aud.xps

/-- Replace the matrix, and the job that commands keep for it. Its sinks are those that no job of the image feeds. -/
def State.setMatrix (s : State) (xps : List Xpoint) : State :=
  let cost := s.matrixNext xps
  let s := { s with aud := { s.aud with xps := xps } }
  let s := s.dropJob 0x0401 0
  let mine := s.aud.fedSinks.filter (fun k => !s.jobs.any (fun (j : Job) => j.sinks.contains k))
  if cost = 0 then s else s.addJob 0x0401 0 cost mine

/-- Room for a job that replaces the one of an owner (R36). -/
def State.roomInstead (s : State) (owner cost : Nat) : Bool :=
  cost == 0 || (coreFor (s.jobs.filter (fun (j : Job) => j.owner != owner)) s.budget cost).isSome

/-- The check of XP_SET (R403): all or nothing. -/
def State.xpStatus (s : State) (d : List Nat) : Nat :=
  match xpEntries d with
  | none => Status.badParam
  | some es =>
    if !between 1 500 es.length || !es.all (fun (e : XpEntry) => s.mayJoin e.src e.sink && decide (e.ramp ≤ 10000)) then Status.badParam
    else
      let xps := es.foldl xpApply s.aud.xps
      if !s.aud.tagsFed xps then Status.badParam
      else if 4096 < xps.length || !es.all (fun (e : XpEntry) => decide ((xps.filter (fun (x : Xpoint) => x.sink == e.sink)).length ≤ 64)) ||
        !s.roomInstead matrixOwner (s.matrixNext xps) then Status.noResource
      else Status.ok

/-- XP_SET. -/
def cmdXpSet : Cmd where
  opcode := 0x0401
  remote := true
  versioned := true
  lead := true
  len d := d.length == 8 + 8 * fieldOf d 4 2 && decide (8 ≤ d.length)
  accept s _ := s.domOn Dom.dsp
  effective s d := s.etickNamed (fieldOf d 0 4)
  rsv := [(6, 2)]
  run s q d := s.timedRun q d 0 (s.xpStatus d)

/-- XP_SET (R232, R233, R402, R403). -/
def execXpSet (r : Request) (s : State) : Host.Outcome State Fault Refusal := .next (s.serve cmdXpSet r)

/-- XP_SET's effect. -/
def State.applyXpSet (s : State) (d : List Nat) : State :=
  match xpEntries d with
  | some es => s.setMatrix (es.foldl xpApply s.aud.xps)
  | none => s

/-- A gain as XP_GET answers it. -/
def gainBytes (g : Option Int) : List Nat := leBytes 2 (match g with | some x => ofSigned 16 x | none => 0x8000)

/-- XP_GET: crosspoints in the order of their creation (notes/assumptions/55.md). -/
def cmdXpGet : Cmd where
  opcode := 0x0402
  remote := true
  len := lenIs 4
  accept s _ := s.domOn Dom.dsp
  run s q d :=
    let sink := fieldOf d 0 2
    let l := (s.aud.xps.filter (fun (x : Xpoint) => sink == 0xFFFF || x.sink == sink)).drop (fieldOf d 2 2)
    if 0x360 ≤ sink && sink != 0xFFFF then s.reply q Status.badParam []
    else
      let n := min l.length 509
      s.ok q (leBytes 2 n ++ [b2n (decide (n < l.length)), 0] ++ (l.take n).flatMap (fun (x : Xpoint) =>
        leBytes 2 x.src ++ leBytes 2 x.sink ++ gainBytes x.target ++ gainBytes (x.applied.map (fun g => ratio g 1048576))))

/-- XP_GET (R402). -/
def execXpGet (r : Request) (s : State) : Host.Outcome State Fault Refusal := .next (s.serve cmdXpGet r)

/-! ## Zones -/

/-- ZONE_SET. -/
def cmdZoneSet : Cmd where
  opcode := 0x0403
  remote := true
  versioned := true
  lead := true
  len := lenIs 16
  accept s _ := s.domOn Dom.dsp
  effective s d := s.etickNamed (fieldOf d 12 4)
  rsv := [(5, 1)]
  run s q d := s.timedRun q d 12 (paramStatus (decide (fieldOf d 0 1 < 16) && decide (fieldOf d 1 1 ≤ 1) &&
    betweenInt (-1200) 240 (signedOf d 2 2) && (decide (fieldOf d 4 1 ≤ 60) || fieldOf d 4 1 == 0xFF) &&
    decide (fieldOf d 6 2 ≤ 100) && decide (fieldOf d 8 2 ≤ 5000) && decide (fieldOf d 10 2 ≤ 5000)))

/-- ZONE_SET (R243, R244, R402). -/
def execZoneSet (r : Request) (s : State) : Host.Outcome State Fault Refusal := .next (s.serve cmdZoneSet r)

/-- ZONE_SET's effect. -/
def State.applyZoneSet (s : State) (d : List Nat) : State :=
  let z := fieldOf d 0 1
  let x := { s.aud.zone z with
    mix := fieldOf d 1 1 == 0
    volume := signedOf d 2 2
    depth := if fieldOf d 4 1 == 0xFF then none else some (fieldOf d 4 1)
    attack := fieldOf d 6 2
    hold := fieldOf d 8 2
    release := fieldOf d 10 2 }
  s.setZone z x

/-- ZONE_CAND: TAG needs a ring input among the candidate's sources. -/
def cmdZoneCand : Cmd where
  opcode := 0x0404
  remote := true
  versioned := true
  lead := true
  len := lenIs 8
  accept s _ := s.domOn Dom.dsp
  effective s d := s.etickNamed (fieldOf d 4 4)
  rsv := [(3, 1)]
  run s q d := s.timedRun q d 4 (paramStatus (decide (fieldOf d 0 1 < 16) && decide (fieldOf d 1 1 < 16) &&
    (decide (fieldOf d 2 1 ≤ 7) || (fieldOf d 2 1 == 0x80 &&
      (s.aud.feeds (candSink (fieldOf d 0 1) (fieldOf d 1 1))).any (fun x => decide (x.src < 0x200) && x.target.isSome)))))

/-- ZONE_CAND (R241, R402). -/
def execZoneCand (r : Request) (s : State) : Host.Outcome State Fault Refusal := .next (s.serve cmdZoneCand r)

/-- ZONE_CAND's effect. -/
def State.applyZoneCand (s : State) (d : List Nat) : State :=
  let z := fieldOf d 0 1
  let c := fieldOf d 1 1
  let x := s.aud.zone z
  let y := { x.cands.getD c CandSt.reset with
    tag := fieldOf d 2 1 == 0x80
    prio := fieldOf d 2 1 % 8 }
  s.setZone z { x with cands := x.cands.set c y }

/-- A coefficient set of ZONE_EQ. -/
def eqSet (d : List Nat) (i : Nat) : List Int := (List.range 5).map (fun k => signedOf d (8 + 20 * i + 4 * k) 4)

/-- Is it stable (R245): |a2| < 1 and |a1| < 1 + a2? -/
def eqStable (l : List Int) : Bool :=
  let a1 := l.getD 3 0
  let a2 := l.getD 4 0
  decide (a2.natAbs < 2 ^ 30) && decide ((a1.natAbs : Int) < 2 ^ 30 + a2)

/-- ZONE_EQ. -/
def cmdZoneEq : Cmd where
  opcode := 0x0405
  remote := true
  versioned := true
  lead := true
  len d := d.length == 8 + 20 * fieldOf d 2 1 && decide (8 ≤ d.length)
  accept s _ := s.domOn Dom.dsp
  effective s d := s.etickNamed (fieldOf d 4 4)
  rsv := [(3, 1)]
  run s q d := s.timedRun q d 4 (paramStatus (decide (fieldOf d 0 1 < 16) && between 1 10 (fieldOf d 2 1) &&
    decide (fieldOf d 1 1 + fieldOf d 2 1 ≤ 10) && (List.range (fieldOf d 2 1)).all (fun i => eqStable (eqSet d i))))

/-- ZONE_EQ (R245, R402). -/
def execZoneEq (r : Request) (s : State) : Host.Outcome State Fault Refusal := .next (s.serve cmdZoneEq r)

/-- ZONE_EQ's effect: the section state is retained (R245). -/
def State.applyZoneEq (s : State) (d : List Nat) : State :=
  let z := fieldOf d 0 1
  let x := s.aud.zone z
  let q := (List.range (fieldOf d 2 1)).foldl (fun (l : List Biquad) (i : Nat) =>
    l.modify (fieldOf d 1 1 + i) (fun (b : Biquad) =>
      let c := eqSet d i
      { b with b0 := c.getD 0 0, b1 := c.getD 1 0, b2 := c.getD 2 0, a1 := c.getD 3 0, a2 := c.getD 4 0 })) x.biquads
  s.setZone z { x with biquads := q }

/-- ZONE_OUT. -/
def cmdZoneOut : Cmd where
  opcode := 0x0406
  remote := true
  versioned := true
  lead := true
  len := lenIs 16
  accept s _ := s.domOn Dom.dsp
  effective s d := s.etickNamed (fieldOf d 12 4)
  rsv := [(1, 1), (10, 2)]
  run s q d := s.timedRun q d 12 (paramStatus (decide (fieldOf d 0 1 < 16) && decide (fieldOf d 2 2 ≤ 2400) &&
    betweenInt (-300) 0 (signedOf d 4 2) && between 1 100 (fieldOf d 6 2) && between 10 2000 (fieldOf d 8 2)))

/-- ZONE_OUT (R246, R247, R402). -/
def execZoneOut (r : Request) (s : State) : Host.Outcome State Fault Refusal := .next (s.serve cmdZoneOut r)

/-- ZONE_OUT's effect: a change of the delay cross-fades over 48 ticks (R246). -/
def State.applyZoneOut (s : State) (d : List Nat) : State :=
  let z := fieldOf d 0 1
  let x := s.aud.zone z
  let dl := fieldOf d 2 2
  let x := if dl == x.delay then x else { x with oldDelay := x.delay, delay := dl, fade := 48 }
  s.setZone z { x with limThr := signedOf d 4 2, limAtt := fieldOf d 6 2, limRel := fieldOf d 8 2 }

/-- STREAM_SET. -/
def cmdStreamSet : Cmd where
  opcode := 0x0407
  remote := true
  versioned := true
  lead := true
  len := lenIs 12
  accept s _ := s.domOn Dom.dsp
  effective s d := s.etickNamed (fieldOf d 8 4)
  rsv := [(3, 1), (6, 2)]
  run s q d := s.timedRun q d 8 (paramStatus (decide (fieldOf d 0 1 ≤ 127) &&
    (decide (fieldOf d 1 1 ≤ 7) || fieldOf d 1 1 == 0x80) &&
    (decide (fieldOf d 2 1 ≤ 2) || between 0x40 0x5F (fieldOf d 2 1)) && decide (fieldOf d 4 2 ≤ 2000)))

/-- STREAM_SET (R240, R402). -/
def execStreamSet (r : Request) (s : State) : Host.Outcome State Fault Refusal := .next (s.serve cmdStreamSet r)

/-- A gate code. -/
def gateCode (g : Nat) : Gate := if g = 0 then .always else if g < 0x40 then .command (g == 2) else .input (g - 0x40)

/-- STREAM_SET's effect, on a stream of the claim table. -/
def State.applyStreamSet (s : State) (d : List Nat) : State :=
  let f (o : StreamSt) : StreamSt :=
    if o.ix == fieldOf d 0 1 then
      { o with
        prio := if fieldOf d 1 1 == 0x80 then none else some (fieldOf d 1 1)
        gate := gateCode (fieldOf d 2 1)
        holdMs := fieldOf d 4 2 }
    else o
  { s with aud := { s.aud with streams := s.aud.streams.map f } }

/-- The cycles of a test generator (R255). -/
def genCost (kind : Nat) : Nat := match kind with | 0 => 0 | 1 => 24 | _ => 30

/-- TESTGEN_SET. -/
def cmdTestgenSet : Cmd where
  opcode := 0x0408
  remote := true
  versioned := true
  lead := true
  len := lenIs 12
  accept s _ := s.domOn Dom.dsp
  effective s d := s.etickNamed (fieldOf d 8 4)
  rsv := [(6, 2)]
  run s q d := s.timedRun q d 8 (
    if !(decide (fieldOf d 0 1 < 8) && decide (fieldOf d 1 1 ≤ 3) && betweenInt (-1200) 0 (signedOf d 2 2) &&
      between 20 20000 (fieldOf d 4 2)) then Status.badParam
    else if !s.roomInstead (0x0408 * 65536 + fieldOf d 0 1) (genCost (fieldOf d 1 1)) then Status.noResource
    else Status.ok)

/-- TESTGEN_SET (R231, R402). -/
def execTestgenSet (r : Request) (s : State) : Host.Outcome State Fault Refusal := .next (s.serve cmdTestgenSet r)

/-- TESTGEN_SET's effect: the generator starts at the named tick (R231). -/
def State.applyTestgenSet (s : State) (d : List Nat) : State :=
  let g := fieldOf d 0 1
  let k := fieldOf d 1 1
  let s := { s with aud := { s.aud with gens := s.aud.gens.set g ⟨k, fieldOf d 4 2, signedOf d 2 2, s.audTick⟩ } }
  let s := s.dropJob 0x0408 g
  if k = 0 then s else s.addJob 0x0408 g (genCost k) [srcGen + g]

/-- ZONE_STATUS. -/
def cmdZoneStatus : Cmd where
  opcode := 0x0409
  remote := true
  len := lenIs 4
  accept s _ := s.domOn Dom.dsp
  rsv := [(1, 3)]
  run s q d :=
    let z := fieldOf d 0 1
    if 16 ≤ z then s.reply q Status.badParam []
    else s.ok q ([AUD.ZONE_STAT.off z, AUD.ZONE_METER.off z, AUD.NF_GAIN.off z, AUD.PMON_GAIN.off z, AUD.PMON_STAT.off z,
      AUD.STALE_CNT.off z].flatMap s.wordLe)

/-- ZONE_STATUS (R402). -/
def execZoneStatus (r : Request) (s : State) : Host.Outcome State Fault Refusal := .next (s.serve cmdZoneStatus r)

end Sys2Proof.Machine
end

