-- ==== Sys2Proof/Machine/CmdPlay.lean ====
section
/-! DEFINITION. Announcement and playback commands, group 0x05 (R282 to R287, R404). -/

namespace Sys2Proof.Machine

/-! ## The library -/

/-- The most clips, and the most bytes of samples, that the library holds (R282). -/
abbrev libClips : Nat := 4096
abbrev libBytes : Nat := 2 ^ 30

/-- The clip that an object's descriptor names (R404), at an address of the store. -/
def clipOf (b : List Nat) (addr : Nat) : Clip where
  id := fieldOf b 0 4
  version := fieldOf b 4 2
  format := fieldOf b 6 1
  rate := fieldOf b 7 1
  length := fieldOf b 8 4
  flags := fieldOf b 12 2
  digest := (b.drop 16).take 32
  state := 1
  addr := addr
  bytes := b.length - 48
  loaded := 0
  deleting := false

/-- Is a descriptor in range, and does the object have its length? -/
def clipValid (b : List Nat) : Bool :=
  decide (48 ≤ b.length) && fieldOf b 4 2 != 0 && decide (fieldOf b 6 1 ≤ 1) && decide (fieldOf b 7 1 ≤ 4) &&
    decide (fieldOf b 12 2 < 4) && fieldOf b 14 2 == 0 && b.length == 48 + fieldOf b 8 4 * (2 + fieldOf b 6 1)

/-- The 48-byte descriptor of a clip. -/
def Clip.descriptor (c : Clip) : List Nat :=
  leBytes 4 c.id ++ leBytes 2 c.version ++ [c.format, c.rate] ++ leBytes 4 c.length ++ leBytes 2 c.flags ++ [0, 0] ++ padTo 32 c.digest

/-- Pages of the library region that a clip takes, counted from the region's first page. -/
def Clip.extent (c : Clip) (r : Region) : Nat × Nat := (pageIndex c.addr - pageIndex r.base, (c.bytes + 4095) / 4096)

/-- The lowest free run of pages in the library region (notes/assumptions/55.md). -/
def State.libPlace (s : State) (n : Nat) : Option Nat :=
  match s.region 4 with
  | none => none
  | some r =>
    let used := s.vox.clips.map (fun (c : Clip) => c.extent r)
    let free (p : Nat) : Bool := decide (p + n ≤ r.pages) && used.all (fun e => decide (p + n ≤ e.1) || decide (e.1 + e.2 ≤ p))
    ((0 :: used.map (fun e => e.1 + e.2)).filter free).foldl (fun (best : Option Nat) p =>
      match best with | some q => some (min p q) | none => some p) none

/-- Write a clip's samples, page by page. -/
def State.libWrite (s : State) (r : Region) (page : Nat) (data : List Nat) : State :=
  let ps := chunks 4096 ((data.length + 4095) / 4096) data
  (List.range ps.length).foldl (fun (s : State) (i : Nat) => s.putBytes (r.at (4096 * (page + i))) (ps.getD i [])) s

/-- Take a whole object into the library (R282, R283): the status, and the library with it. -/
def State.libTake (s : State) (b : List Nat) : Nat × State :=
  let data := b.drop 48
  if !clipValid b then (Status.badParam, s)
  else if libClips ≤ s.vox.clips.length || libBytes < s.vox.clips.foldl (fun a (c : Clip) => a + c.bytes) 0 + data.length then
    (Status.noResource, s)
  else if Config.sha256 data != (b.drop 16).take 32 then (Status.mediaFault, s)
  else match s.libPlace ((data.length + 4095) / 4096), s.region 4 with
    | some p, some r =>
      let c := clipOf b (r.at (4096 * p))
      let old := s.vox.clips.map (fun (x : Clip) => if x.id == c.id then { x with deleting := true } else x)
      let s := s.libWrite r p data
      (Status.ok, State.clipSweep { s with vox := { s.vox with clips := old ++ [c] } })
    | _, _ => (Status.noResource, s)

/-- LIB_LOAD. -/
def cmdLibLoad : Cmd where
  opcode := 0x0501
  remote := true
  len := fragLen
  run s q d :=
    if 48 + libBytes < fieldOf d 0 4 then s.reply q Status.noResource []
    else match s.takeFragment q.ch q.opcode d with
      | (.bad, s) => s.reply q Status.badParam []
      | (.more, s) => s.ok q []
      | (.whole b, s) =>
        let (st, s) := s.libTake b
        s.reply q st (if st == Status.ok then b.take 4 ++ (b.drop 4).take 2 ++ [0, 0] else [])

/-- LIB_LOAD (R282, R397, R404). -/
def execLibLoad (r : Request) (s : State) : Host.Outcome State Fault Refusal := .next (s.serve cmdLibLoad r)

/-- LIB_DELETE: a clip that a voice plays leaves when the last such voice ends (R283). -/
def cmdLibDelete : Cmd where
  opcode := 0x0502
  remote := true
  len := lenIs 8
  rsv := [(6, 2)]
  run s q d :=
    let id := fieldOf d 0 4
    let ver := fieldOf d 4 2
    let hit (c : Clip) : Bool := c.id == id && (ver == 0 || c.version == ver)
    if !s.vox.clips.any hit then s.reply q Status.badParam []
    else
      let s := State.clipSweep { s with vox := { s.vox with
        clips := s.vox.clips.map (fun (c : Clip) => if hit c then { c with deleting := true } else c) } }
      if s.vox.clips.any hit then s.wait q (.clipDelete id ver) else s.ok q []

/-- LIB_DELETE (R283, R404). -/
def execLibDelete (r : Request) (s : State) : Host.Outcome State Fault Refusal := .next (s.serve cmdLibDelete r)

/-- The state byte of a clip: 0 VERIFIED, 1 LOADING, 2 MISSING, 3 DELETING. -/
def Clip.stateByte (c : Clip) : Nat := if c.deleting then 3 else if c.state = 2 then 2 else if c.state = 1 then 0 else 1

/-- The clips as LIB_LIST shows them: the library, then the transfers whose descriptor has come. -/
def State.libEntries (s : State) : List Clip :=
  s.vox.clips ++ (s.mbx.transfers.filter (fun (t : Transfer) => t.opcode == 0x0501 && decide (48 ≤ t.bytes.length))).map
    (fun (t : Transfer) => { clipOf t.bytes 0 with state := 0 })

/-- LIB_LIST. -/
def cmdLibList : Cmd where
  opcode := 0x0503
  remote := true
  len := lenIs 4
  run s q d :=
    let n := fieldOf d 2 2
    if !between 1 78 n then s.reply q Status.badParam []
    else
      let l := s.libEntries.drop (fieldOf d 0 2)
      let m := min l.length n
      s.ok q (leBytes 2 m ++ [b2n (decide (m < l.length)), 0, 0, 0, 0, 0] ++ (l.take m).flatMap (fun (c : Clip) =>
        c.descriptor ++ [c.stateByte, bankOf c.addr,
          (s.vox.voices.filter (fun (v : Voice) => v.playing && v.clips.contains (c.id, c.version))).length, 0]))

/-- LIB_LIST (R404). -/
def execLibList (r : Request) (s : State) : Host.Outcome State Fault Refusal := .next (s.serve cmdLibList r)

/-! ## Voices -/

/-- The clips that PLAY_START names. -/
def playClips (d : List Nat) : List (Nat × Nat) :=
  (List.range (fieldOf d 3 1)).map (fun i => (fieldOf d (12 + 8 * i) 4, fieldOf d (16 + 8 * i) 2))

/-- The clip of an identifier that starts name: not one that is being replaced or deleted (R283). -/
def VoxSt.startClip (v : VoxSt) (id : Nat) : Option Clip := v.clips.find? (fun c => c.id == id && !c.deleting)

/-- The voice that PLAY_START takes: the named one, or the lowest free one. -/
def VoxSt.freeVoice (v : VoxSt) (n : Nat) : Option Nat :=
  (List.range 32).find? (fun i => (n == 0xFF || n == i) && (v.voice i).isNone)

/-- The first tick at which a start can begin, `lead` ticks ahead (R286). -/
def State.firstStart (s : State) (lead : Nat) : Nat := s.audTick + lead

/-- The tick at which a start begins, or none where it comes too late (R286). -/
def State.startTick (s : State) (stick lead : Nat) (lateOk : Bool) : Option Nat :=
  let late := s.tickSeq == 0 || decide (s.ticksTo stick < lead) || decide (2 ^ 31 ≤ s.ticksTo stick)
  if !late then some (s.clk.n + s.ticksTo stick) else if lateOk then some (s.firstStart lead) else none

/-- The cycles of a voice that plays clips (R293). -/
def voiceCost (cs : List Clip) : Nat := 12 + cs.foldl (fun a (c : Clip) => max a c.convCost) 0

/-- The checks of PLAY_START, in order; where they pass, the voice, its start tick and its cycles. -/
def State.playCheck (s : State) (d : List Nat) : Nat × Voice × Nat :=
  let names := playClips d
  let clips := names.map (fun (c : Nat × Nat) => s.vox.startClip c.1)
  let cs := clips.filterMap id
  let unlimited := bit (fieldOf d 1 1) 1
  let lead := 24 + cs.foldl (fun a (c : Clip) => max a c.delay) 0
  let start := s.startTick (fieldOf d 8 4) lead (bit (fieldOf d 1 1) 0)
  let v := fieldOf d 0 1
  let cost := voiceCost cs
  let bad := (32 ≤ v && v != 0xFF) || 4 ≤ fieldOf d 1 1 || fieldOf d 2 1 == 0 || !between 1 8 names.length ||
    !betweenInt (-1200) 240 (signedOf d 4 2) || clips.any (·.isNone) || (unlimited && !cs.all (fun c => bit c.flags 1)) || start.isNone ||
    !(List.range names.length).all (fun i => fieldOf d (18 + 8 * i) 2 == 0)
  let x : Voice := ⟨(s.vox.freeVoice v).getD 0, names, signedOf d 4 2, if unlimited then 0 else fieldOf d 2 1, start.getD 0, false, none⟩
  let st := if bad then Status.badParam
    else if (List.zip names cs).any (fun (e : (Nat × Nat) × Clip) => e.1.2 != e.2.version) then Status.versionMismatch
    else if cs.any (fun c => c.state != 1) then Status.mediaFault
    else if !s.roomFor cost then Status.noResource
    else if (s.vox.freeVoice v).isNone then Status.busy
    else Status.ok
  (st, x, cost)

/-- A voice begins to wait for its tick, with its job. -/
def State.playBegin (s : State) (x : Voice) (cost : Nat) : State := (s.voiceStart x).addJob 0x0504 x.ix cost [srcVoice + x.ix]

/-- PLAY_START. -/
def cmdPlayStart : Cmd where
  opcode := 0x0504
  remote := true
  versioned := true
  lead := true
  len d := d.length == 12 + 8 * fieldOf d 3 1 && decide (12 ≤ d.length)
  accept s _ := s.domOn Dom.dsp
  effective s d := if s.tickSeq = 0 then s.now else ⟨fieldOf d 8 4, none⟩
  rsv := [(6, 2)]
  run s q d :=
    let (st, x, cost) := s.playCheck d
    if st != Status.ok then s.reply q st []
    else
      let seq := if s.tickSeq = 0 then 0 else x.start % 2 ^ 32
      -- the twin starts the same voice at the same tick
      let shared := [x.ix, Nat.lor (fieldOf d 1 1) 1] ++ (d.drop 2).take 6 ++ leBytes 4 seq ++ d.drop 12
      ((s.playBegin x cost).twinShare s.tickSeq 0x0504 shared).ok q ([x.ix, 0, 0, 0] ++ leBytes 4 seq)

/-- PLAY_START (R285, R286, R404). -/
def execPlayStart (r : Request) (s : State) : Host.Outcome State Fault Refusal := .next (s.serve cmdPlayStart r)

/-- PLAY_START's effect at the follower of a twin. -/
def State.applyPlayStart (s : State) (d : List Nat) : State :=
  let (st, x, cost) := s.playCheck d
  if st == Status.ok then s.playBegin x cost else s

/-- PLAY_STOP. -/
def cmdPlayStop : Cmd where
  opcode := 0x0505
  remote := true
  versioned := true
  lead := true
  len := lenIs 8
  accept s d := s.domOn Dom.dsp && (decide (32 ≤ fieldOf d 0 1) || (s.vox.voice (fieldOf d 0 1)).isSome)
  effective s d := s.etickNamed (fieldOf d 4 4)
  rsv := [(1, 1)]
  run s q d := s.timedRun q d 4 (paramStatus (decide (fieldOf d 0 1 < 32) && decide (fieldOf d 2 2 ≤ 1000)))

/-- PLAY_STOP (R287, R404). -/
def execPlayStop (r : Request) (s : State) : Host.Outcome State Fault Refusal := .next (s.serve cmdPlayStop r)

/-- PLAY_STOP's effect: a voice that waits ends at once; one that plays fades, and VOICE_END follows. -/
def State.applyPlayStop (s : State) (d : List Nat) : State :=
  match s.vox.voice (fieldOf d 0 1) with
  | some x =>
    if !x.playing then (s.voiceGone x.ix 1).clipSweep
    else { s with vox := { s.vox with voices := s.vox.voices.map (fun (y : Voice) =>
        if y.ix == x.ix then { y with stopAt := some (s.audTick, 48 * fieldOf d 2 2) } else y) } }
  | none => s

/-- PLAY_STATUS's 12 bytes of a voice: the clip that it reads now, and its loops left; 0 loops where it is unlimited. -/
def State.voiceStatus (s : State) (v : Nat) : List Nat :=
  match s.vox.voice v with
  | none => List.replicate 12 0
  | some x =>
    let (i, k) := match s.vox.readAt x s.audTick with
      | some (i, _, k) => if x.playing then (i, k) else (0, 0)
      | none => (0, 0)
    [1 + b2n x.playing, i, (x.loops - k) % 256, 0] ++ leBytes 4 (x.clips.getD i (0, 0)).1 ++ leBytes 4 (x.start % 2 ^ 32)

/-- PLAY_STATUS. -/
def cmdPlayStatus : Cmd where
  opcode := 0x0506
  remote := true
  len := lenIs 0
  run s q _ := s.ok q ((List.range 32).flatMap s.voiceStatus)

/-- PLAY_STATUS (R404). -/
def execPlayStatus (r : Request) (s : State) : Host.Outcome State Fault Refusal := .next (s.serve cmdPlayStatus r)

end Sys2Proof.Machine
end

