-- ==== Sys2Proof/Machine/CmdCall.lean ====
section
/-! DEFINITION. Intercom and recorder commands, group 0x06 (R266, R267, R278, R280, R290, R291, R405). -/

namespace Sys2Proof.Machine

/-! ## Calls -/

/-- The fields of CALL_OPEN (R405). -/
structure CallFields where
  id : Nat
  cls : Nat
  flags : Nat
  mic : Nat
  aec : Nat
  stream : Nat
  recs : List Nat
  far : Nat
  rx : Nat
  tx : Nat
  sinks : List Nat
  deriving DecidableEq, Repr

/-- Read them. -/
def callFields (d : List Nat) : CallFields where
  id := fieldOf d 0 4
  cls := fieldOf d 4 1
  flags := fieldOf d 5 1
  mic := fieldOf d 6 2
  aec := fieldOf d 8 1
  stream := fieldOf d 9 1
  recs := [fieldOf d 10 1, fieldOf d 11 1].filter (fun x => x != 0xFF)
  far := fieldOf d 12 4
  rx := fieldOf d 16 2
  tx := fieldOf d 18 2
  sinks := (List.range (fieldOf d 24 1)).map (fun i => fieldOf d (28 + 2 * i) 2)

/-- The class of a code. -/
def callClass (n : Nat) : CallClass := match n with | 0 => .pei | 1 => .cab | _ => .ip

/-- The PRIO of a class (R266). -/
def CallClass.prio : CallClass → Nat
  | .pei => 4
  | .cab => 5
  | .ip => 4

/-- The source that carries the far party: its ring input, or in class IP the codec's decoder (R266, R268). -/
def State.farSource (s : State) (f : CallFields) : Option Nat :=
  if f.cls = 2 then some f.rx else s.aud.ringInputOf f.far

/-- The crosspoints of an open call: the far party to each sink at 0.0 dB (R266). -/
def farEntries (src : Nat) (sinks : List Nat) : List XpEntry := sinks.map (fun k => ⟨src, k, some 0, 0⟩)

/-- The call indexes that are taken: open calls, and opens that wait for their tick. -/
def State.callsTaken (s : State) : List Nat :=
  s.vox.calls.map (·.ix) ++ (s.mbx.timed.filter (fun (t : Timed) => t.opcode == 0x0601)).map (fun (t : Timed) => t.data.getLastD 0)

/-- The lowest free index. -/
def State.freeCall (s : State) : Option Nat := [0, 1, 2, 3, 4, 5, 6, 7].find? (fun i => !s.callsTaken.contains i)

/-- Are the fields in range? -/
def State.callValid (s : State) (f : CallFields) : Bool :=
  decide (f.cls ≤ 2) && decide (f.flags < 4) && srcDefined f.mic && (!bit f.flags 1 || decide (f.aec < 8)) &&
  (f.cls == 2 || decide (f.stream < 128)) && f.recs.all (fun c => decide (c < 16)) && decide (f.far < 2 ^ 24) &&
  (f.cls != 2 || (between 0x2D0 0x3CF f.rx && between 0x250 0x34F f.tx)) && between 1 8 f.sinks.length &&
  (match s.farSource f with
    | some src => f.sinks.all (fun k => decide (k < 0x180) && s.mayJoin src k)
    | none => false)

/-- The check of CALL_OPEN. -/
def State.callStatus (s : State) (d : List Nat) : Nat :=
  let f := callFields d
  if !s.callValid f then Status.badParam
  else
    let xps := (farEntries ((s.farSource f).getD 0) f.sinks).foldl xpApply s.aud.xps
    if s.freeCall.isNone || 4096 < xps.length || !f.sinks.all (fun k => decide ((xps.filter (fun (x : Xpoint) => x.sink == k)).length ≤ 64)) ||
      !s.roomInstead matrixOwner (s.matrixNext xps) then Status.noResource
    else Status.ok

/-- CALL_OPEN: the index is given at once, and the call opens at its tick. -/
def cmdCallOpen : Cmd where
  opcode := 0x0601
  remote := true
  versioned := true
  lead := true
  len d := d.length == 28 + 2 * fieldOf d 24 1 && decide (28 ≤ d.length)
  accept s _ := s.domOn Dom.dsp
  effective s d := s.etickNamed (fieldOf d 20 4)
  rsv := [(25, 3)]
  run s q d :=
    match s.etick (fieldOf d 20 4) with
    | none => s.reply q Status.badParam []
    | some w =>
      let st := s.callStatus d
      if st != Status.ok then s.reply q st []
      else
        let i := s.freeCall.getD 0
        ((s.hold w 0x0601 (d ++ [i]) q.ch q.tag).twinShare w.tick 0x0601 (d ++ [i])).ok q ([i, 0, 0, 0] ++ leBytes 4 w.tick)

/-- CALL_OPEN (R266, R405). -/
def execCallOpen (r : Request) (s : State) : Host.Outcome State Fault Refusal := .next (s.serve cmdCallOpen r)

/-- The owned stream of a call: PRIO of its class, gate COMMAND (R266). -/
def State.callGate (s : State) (ix : Nat) (prio : Option Nat) (isOpen : Bool) : State :=
  { s with aud := { s.aud with streams := s.aud.streams.map (fun (o : StreamSt) =>
      if o.ix == ix then { o with prio := match prio with | some p => some p | none => o.prio, gate := .command isOpen } else o) } }

/-- CALL_OPEN's effect (R266, R267): crosspoints, stream and state RING_PATH. Which side is the cab is read at the opening from
CAB_ACTIVE (notes/assumptions/55.md). -/
def State.applyCallOpen (s : State) (d : List Nat) : State :=
  let f := callFields d
  let i := d.getLastD 0
  let cls := callClass f.cls
  match s.farSource f with
  | none => s
  | some src =>
    let c : CallSt := ⟨i, f.id, cls, f.mic, if bit f.flags 1 then some f.aec else none, f.stream, f.far, f.sinks, f.recs,
      bit f.flags 0 && f.cls != 2, if f.cls = 2 then some f.rx else none, s.pins.cabActive⟩
    let s := { s with vox := { s.vox with calls := s.vox.calls.filter (fun (x : CallSt) => x.ix != i) ++ [c] } }
    let s := s.setMatrix ((farEntries src f.sinks).foldl xpApply s.aud.xps)
    let s := if f.cls = 2 then s else s.callGate f.stream (some cls.prio) true
    ((s.setFlag (AUD.CALL_STAT.FLOOR i) false).callTo i CallState.ring).recShow

/-- CALL_CLOSE. -/
def cmdCallClose : Cmd where
  opcode := 0x0602
  remote := true
  versioned := true
  lead := true
  len := lenIs 8
  accept s d := s.domOn Dom.dsp && (decide (8 ≤ fieldOf d 0 1) || (s.vox.call (fieldOf d 0 1)).isSome)
  effective s d := s.etickNamed (fieldOf d 4 4)
  rsv := [(1, 3)]
  run s q d := s.timedRun q d 4 (paramStatus (decide (fieldOf d 0 1 < 8)))

/-- CALL_CLOSE (R267, R405). -/
def execCallClose (r : Request) (s : State) : Host.Outcome State Fault Refusal := .next (s.serve cmdCallClose r)

/-- CALL_CLOSE's effect (R267): the crosspoints fade over 48 ticks, the gate closes, a channel is released. -/
def State.applyCallClose (s : State) (d : List Nat) : State :=
  let i := fieldOf d 0 1
  match s.vox.call i with
  | none => s
  | some c =>
    let ch := s.get (AUD.CALL_STAT.CAN_CH i)
    let onCan := s.callState i == CallState.can
    let far : List Nat := [s.aud.ringInputOf c.far, c.codec, if onCan then some (fallbackSrc ch) else none].filterMap id
    let s := s.setMatrix (s.aud.xps.map (fun (x : Xpoint) => if far.contains x.src && c.sinks.contains x.sink then x.aim none 1 else x))
    let s := if c.cls = .ip then s else s.callGate c.own none false
    let s := if onCan then (s.evtBit AUD.CALL_EVT.FB i Src.AUD_CALL).feedEncoder c ch false else s
    let s := (s.callTo i CallState.closed).setFlag (AUD.CALL_STAT.FLOOR i) false
    State.recShow { s with vox := { s.vox with calls := s.vox.calls.filter (fun (x : CallSt) => x.ix != i) } }

/-- CALL_STATUS. -/
def cmdCallStatus : Cmd where
  opcode := 0x0603
  remote := true
  len := lenIs 0
  run s q _ := s.ok q ((List.range 8).flatMap (fun i =>
    [s.callState i, s.get (AUD.CALL_STAT.FLOOR i), s.get (AUD.CALL_STAT.CAN_CH i), 0] ++
      leBytes 4 (match s.vox.call i with | some c => c.id | none => 0)))

/-- CALL_STATUS (R405). -/
def execCallStatus (r : Request) (s : State) : Host.Outcome State Fault Refusal := .next (s.serve cmdCallStatus r)

/-! ## Echo cancellers -/

/-- The tail of a code, in ms. -/
def aecTail (n : Nat) : Nat := 32 * 2 ^ n

/-- The cycles of an echo canceller (R293). -/
def aecCost (tail : Nat) : Nat := 620 + 13 * tail

/-- The owner of the job that AEC_SET keeps for an instance. -/
def aecOwner (e : Nat) : Nat := 0x0604 * 65536 + e

/-- The cycles of that job after a new tail: what the instance takes beyond what the image's job covers. -/
def State.aecNext (s : State) (e tail : Nat) : Nat :=
  let have_ := (s.jobs.filter (fun (j : Job) => j.owner == aecOwner e)).foldl (fun a (j : Job) => a + j.cost) 0
  let was := match s.vox.aecs[e]? with | some x => if x.enabled then aecCost x.tail else 0 | none => 0
  have_ + aecCost tail - was

/-- AEC_SET. -/
def cmdAecSet : Cmd where
  opcode := 0x0604
  remote := true
  versioned := true
  lead := true
  len := lenIs 12
  accept s _ := s.domOn Dom.dsp
  effective s d := s.etickNamed (fieldOf d 8 4)
  rsv := [(6, 2)]
  run s q d := s.timedRun q d 8 (
    if !(decide (fieldOf d 0 1 < 8) && decide (fieldOf d 1 1 ≤ 3) && decide (fieldOf d 2 1 ≤ 30) && decide (fieldOf d 3 1 ≤ 1) &&
      decide (fieldOf d 4 2 ≤ 1600)) then Status.badParam
    else if !s.roomInstead (aecOwner (fieldOf d 0 1)) (s.aecNext (fieldOf d 0 1) (aecTail (fieldOf d 1 1))) then Status.noResource
    else Status.ok)

/-- AEC_SET (R259, R405). -/
def execAecSet (r : Request) (s : State) : Host.Outcome State Fault Refusal := .next (s.serve cmdAecSet r)

/-- AEC_SET's effect. -/
def State.applyAecSet (s : State) (d : List Nat) : State :=
  let e := fieldOf d 0 1
  let tail := aecTail (fieldOf d 1 1)
  let cost := s.aecNext e tail
  let s := s.dropJob 0x0604 e
  let s := if cost = 0 then s else s.addJob 0x0604 e cost [0x188 + e]
  let s := { s with vox := { s.vox with aecs := s.vox.aecs.modify e (fun (x : AecSt) =>
    { x with enabled := true, tail := tail, bulk := fieldOf d 4 2, depth := fieldOf d 2 1, comfort := fieldOf d 3 1 == 1 }) } }
  s.setFlag (AUD.AEC_STAT.RUN e) true

/-! ## Path monitoring and STIPA -/

/-- The monitoring microphones of a zone. -/
def State.pmonMics (s : State) (z : Nat) : List Nat := ((s.cfg.image.pmonMics.filter (fun e => e.1 == z)).map (·.2)).take 2

/-- The state of a zone's path monitor. -/
def VoxSt.pmonOf (v : VoxSt) (z : Nat) : PmonSt := v.pmon.getD z ⟨[], 0, 0, none, 0⟩

/-- Replace it. -/
def State.setPmon (s : State) (z : Nat) (x : PmonSt) : State := { s with vox := { s.vox with pmon := s.vox.pmon.set z x } }

/-- PMON_COMMISSION: 20 valid windows of each microphone within 600 s. -/
def cmdPmonCommission : Cmd where
  opcode := 0x0605
  remote := true
  len := lenIs 4
  accept s _ := s.domOn Dom.dsp && s.pwrState != Pw.quiet
  rsv := [(1, 3)]
  run s q d :=
    let z := fieldOf d 0 1
    let x := s.vox.pmonOf z
    if 16 ≤ z || (s.pmonMics z).isEmpty then s.reply q Status.badParam []
    else if x.commission.isSome then s.reply q Status.busy []
    else (s.setPmon z { x with
        commission := some ((s.pmonMics z).map (fun m => (m, 20, 0, 0)))
        deadline := s.decik.upTicks + 600 * 48000 }).wait q (.pmon z)

/-- PMON_COMMISSION (R278, R405). -/
def execPmonCommission (r : Request) (s : State) : Host.Outcome State Fault Refusal := .next (s.serve cmdPmonCommission r)

/-- A commissioning that has lasted 600 s ends with TIMEOUT (R405). -/
def State.pmonTick (s : State) : State :=
  (List.range 16).foldl (fun (s : State) (z : Nat) =>
    let x := s.vox.pmonOf z
    if x.commission.isSome && decide (x.deadline ≤ s.decik.upTicks) then
      (s.setPmon z { x with commission := none }).finishAll (fun p => p == .pmon z) Status.timeout []
    else s) s

/-- PMON_CLEAR: the reference is cleared (R278). -/
def cmdPmonClear : Cmd where
  opcode := 0x0606
  remote := true
  auth := always
  len := lenIs 4
  accept s _ := s.domOn Dom.dsp
  rsv := [(1, 3)]
  run s q d :=
    let z := fieldOf d 0 1
    if 16 ≤ z then s.reply q Status.badParam []
    else ((s.setPmon z { s.vox.pmonOf z with refs := [], low := 0, high := 0 }).verdictTo z Verdict.notCommissioned).ok q []

/-- PMON_CLEAR (R278, R405). -/
def execPmonClear (r : Request) (s : State) : Host.Outcome State Fault Refusal := .next (s.serve cmdPmonClear r)

/-- Is a voice routed to a candidate of the zone with FIXED PRIO 0 (R280)? -/
def State.stipaRoute (s : State) (z v : Nat) : Bool :=
  (List.range 16).any (fun c =>
    let x := (s.aud.zone z).cands.getD c CandSt.reset
    !x.tag && x.prio == 0 && (s.aud.feeds (candSink z c)).any (fun y => y.src == srcVoice + v && y.target.isSome))

/-- STIPA_RUN. -/
def cmdStipaRun : Cmd where
  opcode := 0x0607
  remote := true
  len := lenIs 12
  accept s _ := s.domOn Dom.dsp && s.pwrState != Pw.quiet
  rsv := [(3, 1)]
  run s q d :=
    let z := fieldOf d 0 1
    let v := fieldOf d 2 1
    let external := v == 0xFE
    let noise := fieldOf d 11 1
    let clip := s.vox.startClip (fieldOf d 4 4)
    let clipOk := match clip with | some c => c.version == fieldOf d 8 2 && bit c.flags 0 | none => false
    let cost := 900 + (if external then 0 else voiceCost clip.toList)
    if s.vox.stipa.isSome then s.reply q Status.busy []
    else if 16 ≤ z || 16 ≤ fieldOf d 1 1 || !(external || decide (v < 32)) || !between 15 60 (fieldOf d 10 1) ||
      !(noise == 0 || between 15 60 noise) || (!external && !(clipOk && s.stipaRoute z v)) then s.reply q Status.badParam []
    else if !external && (match clip with | some c => c.state != 1 | none => false) then s.reply q Status.mediaFault []
    else if !external && (s.vox.voice v).isSome then s.reply q Status.busy []
    else if !s.roomFor cost then s.reply q Status.noResource []
    else
      let r : StipaSt := ⟨z, fieldOf d 1 1, if external then none else some v, (fieldOf d 4 4, fieldOf d 8 2), fieldOf d 10 1, noise,
        s.decik.upTicks⟩
      let s := (s.setFlag AUD.STIPA_RESULT.VALID false).addJob 0x0607 0 cost []
      let s := if noise = 0 then s.stipaSignal r
        else State.set { s.set AUD.STIPA_STAT.ELAPSED 0 with vox := { s.vox with stipa := some r } } AUD.STIPA_STAT.STATE Stipa.noise
      s.wait q .stipa

/-- STIPA_RUN (R280, R405). -/
def execStipaRun (r : Request) (s : State) : Host.Outcome State Fault Refusal := .next (s.serve cmdStipaRun r)

/-- AUD.STIPA_STAT.ELAPSED counts the seconds of the phase. -/
def State.stipaTick (s : State) : State :=
  match s.vox.stipa with
  | some r => s.set AUD.STIPA_STAT.ELAPSED (min 255 ((s.decik.upTicks - r.since) / 48000))
  | none => s

/-! ## The recorder -/

/-- The units of a call that are not lost. -/
def VoxSt.unitsOf (v : VoxSt) (call : Nat) : List RecUnit := v.recUnits.filter (fun (r : RecUnit) => r.call == call && !r.lost)

/-- Lock or release the units of a call. -/
def State.lockUnits (s : State) (call : Nat) (on : Bool) : State :=
  State.recCounts { s with vox := { s.vox with recUnits := s.vox.recUnits.map (fun (r : RecUnit) =>
    if r.call == call then { r with locked := on } else r) } }

/-- REC_LOCK. -/
def cmdRecLock : Cmd where
  opcode := 0x0608
  remote := true
  len := lenIs 4
  run s q d :=
    let call := fieldOf d 0 4
    let us := s.vox.unitsOf call
    let others := (s.vox.recUnits.filter (fun (r : RecUnit) => r.locked && !r.lost && r.call != call)).length
    if us.isEmpty then s.reply q Status.badParam []
    else if recLockMax < others + us.length then (s.evt AUD.REC_EVT.LOCK_FULL 1 Src.AUD_RECORDER).reply q Status.noResource []
    else (s.lockUnits call true).ok q (leBytes 4 us.length)

/-- REC_LOCK (R291, R405). -/
def execRecLock (r : Request) (s : State) : Host.Outcome State Fault Refusal := .next (s.serve cmdRecLock r)

/-- REC_UNLOCK. -/
def cmdRecUnlock : Cmd where
  opcode := 0x0609
  remote := true
  auth := always
  len := lenIs 4
  run s q d :=
    let call := fieldOf d 0 4
    let us := s.vox.unitsOf call
    if us.isEmpty then s.reply q Status.badParam []
    else (s.lockUnits call false).ok q (leBytes 4 (us.filter (fun (r : RecUnit) => r.locked)).length)

/-- REC_UNLOCK (R291, R405). -/
def execRecUnlock (r : Request) (s : State) : Host.Outcome State Fault Refusal := .next (s.serve cmdRecUnlock r)

/-- The 32 bytes of an index entry: R289 gives the contents and no places (notes/assumptions/53.md). -/
def RecUnit.entry (r : RecUnit) : List Nat :=
  let b := [r.channel, b2n r.locked + 2 * b2n r.lost] ++ leBytes 2 r.keyVersion ++ leBytes 4 r.call ++ leBytes 4 r.tick ++
    leBytes 4 r.stale ++ leBytes 4 r.overrun ++ leBytes 4 r.inactive ++ [0, 0, 0, 0]
  b ++ leBytes 4 (crc32c b)

/-- The entry of a unit; zeros where nothing has been recorded. -/
def VoxSt.entryOf (v : VoxSt) (u : Nat) : List Nat :=
  match v.recUnits.find? (fun (r : RecUnit) => r.unit == u) with | some r => r.entry | none => List.replicate 32 0

/-- REC_INDEX. -/
def cmdRecIndex : Cmd where
  opcode := 0x060A
  remote := true
  len := lenIs 8
  rsv := [(6, 2)]
  run s q d :=
    let first := fieldOf d 0 4
    let n := fieldOf d 4 2
    if !between 1 127 n || recUnits ≤ first then s.reply q Status.badParam []
    else s.ok q ((List.range n).flatMap (fun i => s.vox.entryOf ((first + i) % recUnits)))

/-- REC_INDEX (R289, R405). -/
def execRecIndex (r : Request) (s : State) : Host.Outcome State Fault Refusal := .next (s.serve cmdRecIndex r)

/-- Does a range lie wholly in one HOST region? A canary page belongs to no region. -/
def State.inHost (s : State) (a n : Nat) : Bool :=
  let last := a + (n - 1)
  bankOf a == bankOf last && decide (last < 2 ^ 32) && !inCanary last && s.mem.regions.any (fun (r : Region) => r.kind == 0xF &&
    decide (pageIndex r.base ≤ pageIndex a) && decide (pageIndex last < pageIndex r.base + r.pages))

/-- REC_EXPORT. -/
def cmdRecExport : Cmd where
  opcode := 0x060B
  auth := always
  len := lenIs 12
  run s q d :=
    let n := fieldOf d 4 4
    if recUnits ≤ fieldOf d 0 4 || !between 1 65536 n then s.reply q Status.badParam []
    else if !s.inHost (fieldOf d 8 4) (4096 * n) then s.reply q Status.notPermitted []
    else s.wait q (.recExport (fieldOf d 0 4) n (fieldOf d 8 4))

/-- REC_EXPORT (R290, R405). -/
def execRecExport (r : Request) (s : State) : Host.Outcome State Fault Refusal := .next (s.serve cmdRecExport r)

/-- A unit as the export writes it: decrypted under the generation that it names, and zeros where it is lost or under another
(R570). The flag says lost. -/
def State.exportUnit (s : State) (u : Nat) : List Nat × Bool :=
  match s.vox.recUnits.find? (fun (r : RecUnit) => r.unit == u) with
  | none => (List.replicate 4096 0, false)
  | some r =>
    if r.lost then (List.replicate 4096 0, true)
    else
      let b := s.bytesAt (s.regionAt 5 (4096 * u)) 4096
      let e := s.engines[(1 : Fin 4)]
      let key := if r.keyVersion == s.get (SEC.ENG.CUR_VER 1) then e.cur
        else if ((s.slot (s.useSlot 1)).prev.map (·.version)) == some r.keyVersion then e.prev else none
      if r.keyVersion = 0 then (b, false)
      else match key with
        | some k => ((Config.xtsOpen k u b).take 4096, false)
        | none => (List.replicate 4096 0, true)

/-- REC_EXPORT's work: each unit to DEST + 4,096 × i, in unit order (R405). The count of lost ones. -/
def State.exportRun (s : State) (first n dest : Nat) : Nat × State :=
  (List.range n).foldl (fun (acc : Nat × State) (i : Nat) =>
    let (b, lost) := acc.2.exportUnit ((first + i) % recUnits)
    (acc.1 + b2n lost, acc.2.putBytes (dest + 4096 * i) b)) (0, s)

end Sys2Proof.Machine
end

