-- ==== Sys2Proof/Machine/CmdEth.lean ====
section
/-! DEFINITION. Ethernet, PTP and AES67 commands, group 0x07 (R406), and CAN commands, group 0x08 (R407). -/

namespace Sys2Proof.Machine

/-! ## Ethernet -/

/-- ETH_STATUS. -/
def cmdEthStatus : Cmd where
  opcode := 0x0701
  remote := true
  len := lenIs 4
  accept s _ := s.domOn Dom.eth
  rsv := [(1, 3)]
  run s q d :=
    let p := fieldOf d 0 1
    if 2 ≤ p then s.reply q Status.badParam []
    else s.ok q ([s.get (ETH.STAT.LINK p), s.get (TST.ELANE.MODE p), b2n ((s.ethPort p).pauseLeft != 0), 0,
      s.get (ETH.PRALINE_STAT.EN p), 0, 0, 0] ++ leBytes 4 (s.totalOf (ETH.TSQ_STAT.LOST p)) ++ leBytes 2 (s.get (ETH.TSQ_FIRST.SEQ p)) ++ [0, 0])

/-- ETH_STATUS (R406). -/
def execEthStatus (r : Request) (s : State) : Host.Outcome State Fault Refusal := .next (s.serve cmdEthStatus r)

/-- ETH_COUNTERS: the running totals (R436). -/
def cmdEthCounters : Cmd where
  opcode := 0x0702
  remote := true
  len := lenIs 4
  accept s _ := s.domOn Dom.eth
  rsv := [(1, 3)]
  run s q d :=
    let p := fieldOf d 0 1
    if 2 ≤ p then s.reply q Status.badParam []
    else s.ok q ((List.range 36).flatMap (fun i => leBytes 8 ((s.ethPort p).totals.getD i 0)))

/-- ETH_COUNTERS (R406, R436). -/
def execEthCounters (r : Request) (s : State) : Host.Outcome State Fault Refusal := .next (s.serve cmdEthCounters r)

/-- Keep a request open without an answer: it waits for the PHY. -/
def State.open_ (s : State) (q : OpenReq) (p : Pend) : State :=
  State.showOpen { s with mbx := { s.mbx with opens := s.mbx.opens ++ [{ q with pend := p }] } } q.ch

/-- ETH_MDIO: the PHY's answer, or none within 1 ms, comes as FINAL_RESPONSE. -/
def cmdEthMdio : Cmd where
  opcode := 0x0703
  len := lenIs 8
  accept s _ := s.domOn Dom.eth
  rsv := [(6, 2)]
  run s q d :=
    if 2 ≤ fieldOf d 0 1 || 2 ≤ fieldOf d 1 1 || 32 ≤ fieldOf d 2 1 || 32 ≤ fieldOf d 3 1 then s.reply q Status.badParam []
    else s.open_ q (.mdio (fieldOf d 0 1) (fieldOf d 2 1) (fieldOf d 3 1))

/-- ETH_MDIO (R406, R417). -/
def execEthMdio (r : Request) (s : State) : Host.Outcome State Fault Refusal := .next (s.serve cmdEthMdio r)

/-- The gate list of ETH_GATE_SET. -/
def gateList (d : List Nat) : GateList :=
  ⟨(List.range (fieldOf d 2 2)).map (fun i => (fieldOf d (12 + 8 * i) 1, fieldOf d (16 + 8 * i) 4)), fieldOf d 4 2⟩

/-- Is it in range: the entries but the last end before the cycle does? -/
def gateValid (d : List Nat) : Bool :=
  let n := fieldOf d 2 2
  let g := gateList d
  decide (fieldOf d 0 1 < 2) && between 1 128 n && between 1 4800 g.cycle &&
    decide (3 * (g.entries.take (n - 1)).foldl (fun a e => a + e.2) 0 < 62500 * g.cycle) &&
    (List.range n).all (fun i => fieldOf d (13 + 8 * i) 3 == 0)

/-- The tick number n (R162) of a moment to come. -/
def State.numberOf (s : State) (w : When) : Nat :=
  match w.own with
  | some u => s.clk.n + (u - s.decik.upTicks)
  | none => s.clk.n + s.ticksTo w.tick

/-- The tick that ATICK gives: 0 where there is no ring time. -/
def When.atick (w : When) (n : Nat) : Nat := if w.own.isSome then 0 else n % 2 ^ 32

/-- ETH_GATE_SET: ATICK is the first cycle start of the new list (R429). -/
def cmdEthGateSet : Cmd where
  opcode := 0x0704
  remote := true
  versioned := true
  lead := true
  len d := d.length == 12 + 8 * fieldOf d 2 2 && decide (12 ≤ d.length)
  accept s _ := s.domOn Dom.eth
  effective s d := s.etickNamed (fieldOf d 8 4)
  rsv := [(1, 1), (6, 2)]
  run s q d :=
    match s.etick (fieldOf d 8 4) with
    | none => s.reply q Status.badParam []
    | some w =>
      if !gateValid d then s.reply q Status.badParam []
      else ((s.hold w 0x0704 d q.ch q.tag).twinShare w.tick 0x0704 d).ok q (leBytes 4 (w.atick (firstCycle (fieldOf d 4 2) (s.numberOf w))))

/-- ETH_GATE_SET (R427, R429, R406). -/
def execEthGateSet (r : Request) (s : State) : Host.Outcome State Fault Refusal := .next (s.serve cmdEthGateSet r)

/-- ETH_GATE_SET's effect: the list waits for its first cycle start. -/
def State.applyEthGateSet (s : State) (d : List Nat) : State := (s.gateSet (fieldOf d 0 1) (gateList d) s.audTick).2

/-- PTP_SET. -/
def cmdPtpSet : Cmd where
  opcode := 0x0705
  lead := true
  len := lenIs 8
  accept s _ := s.domOn Dom.eth
  rsv := [(6, 2)]
  run s q d :=
    if 2 ≤ fieldOf d 0 1 || 3 ≤ fieldOf d 4 1 || 3 ≤ fieldOf d 5 1 then s.reply q Status.badParam []
    else ((s.ptpSet (fieldOf d 0 1 == 1) (fieldOf d 1 1) (fieldOf d 2 1) (fieldOf d 3 1) [fieldOf d 4 1, fieldOf d 5 1]).twinShare
      s.tickSeq 0x0705 d).ok q []

/-- PTP_SET (R437, R406). -/
def execPtpSet (r : Request) (s : State) : Host.Outcome State Fault Refusal := .next (s.serve cmdPtpSet r)

/-- PTP_SET's effect where a twin or an image makes it. -/
def State.applyPtpSet (s : State) (d : List Nat) : State :=
  s.ptpSet (fieldOf d 0 1 == 1) (fieldOf d 1 1) (fieldOf d 2 1) (fieldOf d 3 1) [fieldOf d 4 1, fieldOf d 5 1]

/-- PTP_STATUS. -/
def cmdPtpStatus : Cmd where
  opcode := 0x0706
  remote := true
  len := lenIs 0
  accept s _ := s.domOn Dom.eth
  run s q _ := s.ok q ([s.ptpState 0, s.ptpState 1, s.get PTP.STAT.CLASS, 0] ++
    leBytes 8 (s.get PTP.GM_ID_LO.ID + 2 ^ 32 * s.get PTP.GM_ID_HI.ID) ++ s.wordLe SYNC.PTP_DIFF.off ++ s.wordLe SYNC.PTP_RATIO.off)

/-- PTP_STATUS (R406). -/
def execPtpStatus (r : Request) (s : State) : Host.Outcome State Fault Refusal := .next (s.serve cmdPtpStatus r)

/-! ## Streams -/

/-- The packet time of a PTIME byte, in ticks: 125 µs units for AES67, ms for the codecs (notes/assumptions/2.md). -/
def ptimeTicks (type ptime : Nat) : Option Nat :=
  if type = 0 then (if ptime == 1 || ptime == 2 || ptime == 8 then some (6 * ptime) else none)
  else if ptime == 10 || ptime == 20 || ptime == 30 then some (48 * ptime) else none

/-- Is a jitter buffer in range (R273, R443)? -/
def jitterOk (type ticks ms : Nat) : Bool :=
  if type = 0 then between 1 8 ms && decide (2 * ticks ≤ 48 * ms) else between 20 200 ms && ms % 10 == 0

/-- The stream of STREAM_ADD under an index. -/
def streamOf (d : List Nat) (ix mco : Nat) : RtpStream where
  ix := ix
  tx := fieldOf d 0 1 == 0
  type := fieldOf d 1 1
  port := fieldOf d 2 1
  channels := fieldOf d 3 1
  ticks := (ptimeTicks (fieldOf d 1 1) (fieldOf d 4 1)).getD 0
  pt := fieldOf d 5 1
  firstCh := fieldOf d 6 2
  ip := fieldOf d 8 4
  udp := fieldOf d 12 2
  ssrc := fieldOf d 16 4
  jitterMs := fieldOf d 20 2
  mco := mco
  armed := false
  seq := 0
  count := none
  txBuf := []
  seqs := []
  buf := []
  pos := none
  missing := 0
  lastAt := none
  anchor := none
  packets := []
  last10 := []
  concealed := 0
  concealCount := 0

/-- Are the fields of STREAM_ADD in range? -/
def streamValid (d : List Nat) : Bool :=
  let type := fieldOf d 1 1
  let ch := fieldOf d 3 1
  decide (fieldOf d 0 1 < 2) && decide (type < 4) && decide (fieldOf d 2 1 < 2) &&
    (if type = 0 then between 1 8 ch else ch == 1) && decide (fieldOf d 5 1 < 128) && decide (fieldOf d 6 2 + ch ≤ 256) &&
    (match ptimeTicks type (fieldOf d 4 1) with
      | some t => fieldOf d 0 1 == 0 || jitterOk type t (fieldOf d 20 2)
      | none => false)

/-- Streams of a direction. -/
def State.streamsOf (s : State) (tx : Bool) : List RtpStream := s.eth.streams.filter (fun (x : RtpStream) => x.tx == tx)

/-- Do two streams share a channel of one direction? -/
def channelsMeet (x y : RtpStream) : Bool := decide (x.firstCh < y.firstCh + y.channels) && decide (y.firstCh < x.firstCh + x.channels)

/-- The index that a new stream takes; none beyond 64, beyond 16 codec channels, or where a channel is taken (R272, R440). -/
def State.streamIndex (s : State) (x : RtpStream) : Option Nat :=
  let l := s.streamsOf x.tx
  if (x.type != 0 && decide (16 ≤ (l.filter (fun (y : RtpStream) => y.type != 0)).length)) || l.any (fun y => channelsMeet x y) then none
  else (List.range 64).find? (fun i => !l.any (fun (y : RtpStream) => y.ix == i))

/-- Create a stream: its unit is DISABLED (R440). -/
def State.addStream (s : State) (d : List Nat) (mco : Nat → Nat) : Option Nat × State :=
  match s.streamIndex (streamOf d 0 0) with
  | none => (none, s)
  | some i =>
    let x := streamOf d i 0
    let id := unitId UClass.aes (if x.tx then i else i + 0x100)
    (some id, { s with eth := { s.eth with streams := s.eth.streams ++ [{ x with mco := mco id }] } })

/-- STREAM_ADD. -/
def cmdStreamAdd : Cmd where
  opcode := 0x0707
  versioned := true
  lead := true
  len := lenIs 24
  accept s _ := s.domOn Dom.eth
  rsv := [(14, 2), (22, 2)]
  run s q d :=
    if !streamValid d then s.reply q Status.badParam []
    else match s.addStream d (fun _ => 0) with
      | (none, s) => s.reply q Status.noResource []
      | (some id, s) => (s.twinShare s.tickSeq 0x0707 d).ok q (leBytes 4 id)

/-- STREAM_ADD (R406, R440). -/
def execStreamAdd (r : Request) (s : State) : Host.Outcome State Fault Refusal := .next (s.serve cmdStreamAdd r)

/-- The stream of a unit. -/
def State.unitStream (s : State) (id : Nat) : Option RtpStream :=
  if unitClass id != UClass.aes then none
  else s.stream (decide (unitIndex id < 0x100)) (unitIndex id % 0x100)

/-- Remove a stream. -/
def State.removeStream (s : State) (id : Nat) : State :=
  { s with eth := { s.eth with streams := s.eth.streams.filter (fun (x : RtpStream) =>
      unitId UClass.aes (if x.tx then x.ix else x.ix + 0x100) != id) } }

/-- STREAM_REMOVE. -/
def cmdStreamRemove : Cmd where
  opcode := 0x0708
  versioned := true
  lead := true
  len := lenIs 4
  accept s d := s.domOn Dom.eth && ((s.unitStream (fieldOf d 0 4)).isNone || (s.unit (fieldOf d 0 4)).mgmt == Mgmt.disabled)
  run s q d :=
    let id := fieldOf d 0 4
    if (s.unitStream id).isNone then s.reply q Status.badParam []
    else ((s.removeStream id).twinShare s.tickSeq 0x0708 d).ok q []

/-- STREAM_REMOVE (R406, R440). -/
def execStreamRemove (r : Request) (s : State) : Host.Outcome State Fault Refusal := .next (s.serve cmdStreamRemove r)

/-- PRALINE_SET. -/
def cmdPralineSet : Cmd where
  opcode := 0x0709
  len := lenIs 24
  accept s _ := s.domOn Dom.eth
  rsv := [(3, 1), (6, 2)]
  run s q d :=
    let f := fieldOf d 2 1
    if 2 ≤ fieldOf d 0 1 || 8 ≤ fieldOf d 1 1 || 4 ≤ f || (bit f 1 && fieldOf d 1 1 != 7) then s.reply q Status.badParam []
    else (s.pralineSet (fieldOf d 0 1) (fieldOf d 1 1) (bit f 0) (bit f 1) (fieldOf d 4 2) (d.drop 8)).ok q []

/-- PRALINE_SET (R406, R433). -/
def execPralineSet (r : Request) (s : State) : Host.Outcome State Fault Refusal := .next (s.serve cmdPralineSet r)

/-! ## CAN -/

/-- CAN_STATUS. Without a time source its byte is not stated: a free value. Channels in use: bit c. -/
def cmdCanStatus : Cmd where
  opcode := 0x0801
  remote := true
  len := lenIs 0
  accept s _ := s.domOn Dom.can
  run s q _ :=
    let (x, s) := s.fresh
    let src := if s.tsrc = Tsrc.ring then 0 else if s.tsrc = Tsrc.reference then 1 else x % 256
    s.ok q ([s.get CAN.STAT.ERR_STATE, s.get CAN.ERR.TEC, s.get CAN.ERR.REC, src] ++ leBytes 4 (s.totalOf CAN.VIOL_TOTAL.COUNT) ++
      [s.get CAN.VOICE_STAT.CH0 / 128 + 2 * (s.get CAN.VOICE_STAT.CH1 / 128), 0, 0, 0])

/-- CAN_STATUS (R407). -/
def execCanStatus (r : Request) (s : State) : Host.Outcome State Fault Refusal := .next (s.serve cmdCanStatus r)

/-- Does a schedule pass R466 at a rate pair? -/
def State.schedFits (s : State) (nom data : Nat) (l : List CanWin) : Bool :=
  schedValid nom data (s.get CAN.CFG.GUARD * canNomNs nom) l

/-- Set the rate pair and the TDC offset. -/
def State.applyCanSetRate (s : State) (d : List Nat) : State :=
  ((s.set CAN.CFG.NOM (fieldOf d 0 1)).set CAN.CFG.DATA (fieldOf d 1 1)).set CAN.CFG.TDC_OFS (fieldOf d 2 1 % 64)

/-- CAN_SET_RATE. -/
def cmdCanSetRate : Cmd where
  opcode := 0x0802
  lead := true
  len := lenIs 4
  accept s _ := s.domOn Dom.can && (s.unit (unitId UClass.can 0)).mgmt == Mgmt.disabled
  rsv := [(3, 1)]
  run s q d :=
    if 4 ≤ fieldOf d 0 1 || 3 ≤ fieldOf d 1 1 || !betweenInt (-32) 31 (signedOf d 2 1) ||
      !s.schedFits (fieldOf d 0 1) (fieldOf d 1 1) s.can.sched then s.reply q Status.badParam []
    else ((s.applyCanSetRate d).twinShare s.tickSeq 0x0802 d).ok q []

/-- CAN_SET_RATE (R407, R451, R466). -/
def execCanSetRate (r : Request) (s : State) : Host.Outcome State Fault Refusal := .next (s.serve cmdCanSetRate r)

/-- Put a window into a list ordered by start. -/
def insertWin (w : CanWin) : List CanWin → List CanWin
  | [] => [w]
  | x :: t => if w.start < x.start then w :: x :: t else x :: insertWin w t

/-- The windows of CAN_SCHED_SET, by start. -/
def schedList (d : List Nat) : List CanWin :=
  (List.range (fieldOf d 0 1)).foldl (fun (l : List CanWin) (i : Nat) =>
    insertWin ⟨fieldOf d (8 + 8 * i) 2, fieldOf d (10 + 8 * i) 2, fieldOf d (12 + 8 * i) 1 == 1, fieldOf d (13 + 8 * i) 1⟩ l) []

/-- CAN_SCHED_SET: ATICK is the first cycle start at or after ETICK (R466). -/
def cmdCanSchedSet : Cmd where
  opcode := 0x0803
  versioned := true
  lead := true
  len d := d.length == 8 + 8 * fieldOf d 0 1 && decide (8 ≤ d.length)
  accept s _ := s.domOn Dom.can
  effective s d := s.etickNamed (fieldOf d 4 4)
  rsv := [(1, 3)]
  run s q d :=
    match s.etick (fieldOf d 4 4) with
    | none => s.reply q Status.badParam []
    | some w =>
      if !between 1 64 (fieldOf d 0 1) || !(List.range (fieldOf d 0 1)).all (fun i => decide (fieldOf d (12 + 8 * i) 1 < 2) && fieldOf d (14 + 8 * i) 2 == 0) ||
        !s.schedFits (s.get CAN.CFG.NOM) (s.get CAN.CFG.DATA) (schedList d) then s.reply q Status.badParam []
      else ((s.hold w 0x0803 d q.ch q.tag).twinShare w.tick 0x0803 d).ok q (leBytes 4 (w.atick (firstCycle 480 (s.numberOf w))))

/-- CAN_SCHED_SET (R407, R466). -/
def execCanSchedSet (r : Request) (s : State) : Host.Outcome State Fault Refusal := .next (s.serve cmdCanSchedSet r)

/-- CAN_SCHED_SET's effect: the schedule waits for its first cycle start. -/
def State.applyCanSchedSet (s : State) (d : List Nat) : State := s.schedSet (schedList d) s.audTick

/-- Configure a host object; it is enabled (notes/assumptions/55.md). -/
def State.applyCanObjSet (s : State) (d : List Nat) : State :=
  let k := fieldOf d 0 1
  let f := fieldOf d 2 1
  let s := s.objDisable k
  let s := ((s.set (CAN.OBJ_CFG.DIR k) (fieldOf d 1 1)).setFlag (CAN.OBJ_CFG.FD k) (bit f 0)).setFlag (CAN.OBJ_CFG.BRS k) (bit f 1)
  let s := ((s.setFlag (CAN.OBJ_CFG.ONESHOT k) (bit f 2)).setFlag (CAN.OBJ_CFG.XTD k) (bit f 3)).set (CAN.OBJ_CFG.DLC k) (fieldOf d 3 1)
  let s := (s.set (CAN.OBJ_ID.ID k) (fieldOf d 4 4)).set (CAN.OBJ_MASK.MASK k) (fieldOf d 8 4)
  s.setFlag (CAN.OBJ_CFG.EN k) true

/-- CAN_OBJ_SET. -/
def cmdCanObjSet : Cmd where
  opcode := 0x0804
  len := lenIs 12
  accept s _ := s.domOn Dom.can
  run s q d :=
    let ext := bit (fieldOf d 2 1) 3
    let id := fieldOf d 4 4
    if !between 16 127 (fieldOf d 0 1) || 2 ≤ fieldOf d 1 1 || 16 ≤ fieldOf d 2 1 || 16 ≤ fieldOf d 3 1 ||
      (if ext then 2 ^ 29 else 2 ^ 11) ≤ id || 2 ^ 29 ≤ fieldOf d 8 4 || s.ownId id ext then s.reply q Status.badParam []
    else (s.applyCanObjSet d).ok q []

/-- CAN_OBJ_SET (R407, R454, R455). -/
def execCanObjSet (r : Request) (s : State) : Host.Outcome State Fault Refusal := .next (s.serve cmdCanObjSet r)

/-- CAN_SEND: the data go into the object's buffer, and its frame is queued (R456, R458). -/
def cmdCanSend : Cmd where
  opcode := 0x0805
  remote := true
  len d := decide (4 ≤ d.length) && d.length == 4 + fieldOf d 1 1
  accept s d := s.domOn Dom.can && (!between 16 127 (fieldOf d 0 1) ||
    (s.flag (CAN.OBJ_CFG.DIR (fieldOf d 0 1)) && s.flag (CAN.OBJ_CFG.EN (fieldOf d 0 1))))
  rsv := [(2, 2)]
  run s q d :=
    let k := fieldOf d 0 1
    let n := fieldOf d 1 1
    if !between 16 127 k || 64 < n || (8 < n && !s.flag (CAN.OBJ_CFG.FD k)) then s.reply q Status.badParam []
    else if s.flag (CAN.OBJ_STAT.TX_PEND k) then s.reply q Status.busy []
    else
      let s := s.storeWrite (s.objCopy k 0 + 16) (padTo 64 (d.drop 4))
      ((s.set (CAN.OBJ_CFG.DLC k) (dlcFor n)).objSend k).ok q []

/-- CAN_SEND (R407, R458). -/
def execCanSend (r : Request) (s : State) : Host.Outcome State Fault Refusal := .next (s.serve cmdCanSend r)

/-- CAN_WAKE_SET. -/
def cmdCanWakeSet : Cmd where
  opcode := 0x0806
  len := lenIs 28
  accept s _ := s.domOn Dom.can
  rsv := [(1, 3)]
  run s q d :=
    if 2 ≤ fieldOf d 0 1 then s.reply q Status.badParam []
    else
      let s := { s with can := { s.can with wake := (fieldOf d 4 4, fieldOf d 8 4, (d.drop 12).take 8, (d.drop 20).take 8) } }
      (s.set CAN.WAKE_CFG.MODE (fieldOf d 0 1)).ok q []

/-- CAN_WAKE_SET (R407, R475). -/
def execCanWakeSet (r : Request) (s : State) : Host.Outcome State Fault Refusal := .next (s.serve cmdCanWakeSet r)

end Sys2Proof.Machine
end

