-- ==== Sys2Proof/Machine/CmdPower.lean ====
section
/-! DEFINITION. Power commands, group 0x09 (R408, R409); security commands, 0x0A (R410); event recorder commands, 0x0B (R411);
test commands, 0x0C (R412, R413). -/

namespace Sys2Proof.Machine

/-! ## Power -/

/-- PWR_STATUS. -/
def cmdPwrStatus : Cmd where
  opcode := 0x0901
  i2c := true
  remote := true
  len := lenIs 0
  run s q _ := s.ok q ([s.pwrState, s.get PWR.WAKE_SRC.SRC, s.mode, s.get PWR.PERF.FREQ_PT] ++
    leBytes 2 0 ++ (List.range 11).flatMap (fun i => leBytes 2 (s.get (PWR.VOTE.CLIENTS (i + 1)))) ++
    [s.get PWR.RAIL_STAT.EN, s.get PWR.RAIL_STAT.PG, 0, 0] ++ s.wordLe GLB.FAULT_STAT.off ++ s.wordLe PWR.WAKE_FAIL_CNT.off)

/-- PWR_STATUS (R408). -/
def execPwrStatus (r : Request) (s : State) : Host.Outcome State Fault Refusal := .next (s.serve cmdPwrStatus r)

/-- Every other open request ends with ABORTED, and with it what it waited for (R409, R415). -/
def State.abortOthers (s : State) : State :=
  let s := if s.vox.stipa.isSome then s.stipaEnd Stipa.interrupted false [] else s
  let s := { s with
    vox := { s.vox with pmon := s.vox.pmon.map (fun (p : PmonSt) => { p with commission := none }) }
    sec := { s.sec with op := none } }
  s.storeTestStop.finishAll (fun _ => true) Status.aborted []

/-- PWR_SET_STATE: ACTIVE and QUIET at once; STANDBY and SLEEP begin with STANDBY_ENTRY, within 10 ms. -/
def cmdPwrSetState : Cmd where
  opcode := 0x0902
  i2c := true
  auth _ _ d := bit (fieldOf d 1 1) 0
  len := lenIs 4
  accept s d := !(between 2 3 (fieldOf d 0 1) && !bit (fieldOf d 1 1) 0 && (List.range 4).any (fun n => s.inRing n))
  rsv := [(2, 2)]
  run s q d :=
    let t := fieldOf d 0 1
    if 4 ≤ t || 2 ≤ fieldOf d 1 1 then s.reply q Status.badParam []
    else if t = 0 then (if s.pwrState == Pw.quiet then s.toActive else s).ok q []
    else if t = 1 then
      (if s.pwrState == Pw.quiet then s.ok q []
       else if !s.retainedFit (s.get PWR.CFG.QUIET_POINT) then s.reply q Status.noResource []
       else s.toQuiet.ok q [])
    else (s.abortOthers.set PWR.STAT.TARGET t).ok q []

/-- PWR_SET_STATE (R37, R408, R409). -/
def execPwrSetState (r : Request) (s : State) : Host.Outcome State Fault Refusal := .next (s.serve cmdPwrSetState r)

/-- PWR_VOTE: one bit of PWR.HOST_VOTE. -/
def cmdPwrVote : Cmd where
  opcode := 0x0903
  len := lenIs 4
  rsv := [(2, 2)]
  run s q d :=
    let n := fieldOf d 0 1
    let v := s.get PWR.HOST_VOTE.VOTE
    if !between 1 11 n || 2 ≤ fieldOf d 1 1 then s.reply q Status.badParam []
    else (s.hostVote (if fieldOf d 1 1 == 1 then setBit v (n - 1) else clrBit v (n - 1))).ok q []

/-- PWR_VOTE (R408, R500). -/
def execPwrVote (r : Request) (s : State) : Host.Outcome State Fault Refusal := .next (s.serve cmdPwrVote r)

/-- PWR_PERF: a slower point needs room for the retained jobs (R37). -/
def cmdPwrPerf : Cmd where
  opcode := 0x0904
  lead := true
  len := lenIs 4
  rsv := [(1, 3)]
  run s q d :=
    let p := fieldOf d 0 1
    if 3 ≤ p then s.reply q Status.badParam []
    else if s.get PWR.PERF.FREQ_PT < p && !s.retainedFit p then s.reply q Status.noResource []
    else ((s.pointTo p).twinShare s.tickSeq 0x0904 d).ok q []

/-- PWR_PERF (R37, R408, R509). -/
def execPwrPerf (r : Request) (s : State) : Host.Outcome State Fault Refusal := .next (s.serve cmdPwrPerf r)

/-- PWR_WAKE_CFG. The bit of source 8, tamper, always reads 1 (R511). -/
def cmdPwrWakeCfg : Cmd where
  opcode := 0x0905
  i2c := true
  len := lenIs 12
  rsv := [(3, 1)]
  run s q d :=
    if 8 ≤ fieldOf d 2 1 || !([4, 6, 8, 10].all (fun a => between 1 5000 (fieldOf d a 2))) then s.reply q Status.badParam []
    else
      let s := (s.set PWR.WAKE_EN.EN (setBit (fieldOf d 0 2 / 2 % 2 ^ 10) 7)).set PWR.WAKE_CTRL.RETRIES (fieldOf d 2 1)
      let s := (s.set PWR.WAKE_TO0.TO_REG (fieldOf d 4 2)).set PWR.WAKE_TO0.TO_OSC (fieldOf d 6 2)
      ((s.set PWR.WAKE_TO1.TO_STORE (fieldOf d 8 2)).set PWR.WAKE_TO1.TO_LOGIC (fieldOf d 10 2)).ok q []

/-- PWR_WAKE_CFG (R408, R511, R514). -/
def execPwrWakeCfg (r : Request) (s : State) : Host.Outcome State Fault Refusal := .next (s.serve cmdPwrWakeCfg r)

/-- PWR_RESIDENCY. -/
def cmdPwrResidency : Cmd where
  opcode := 0x0906
  i2c := true
  len := lenIs 0
  run s q _ := s.ok q ([PWR.RES_ACTIVE.off, PWR.RES_QUIET.off, PWR.RES_STANDBY.off, PWR.RES_SLEEP.off].flatMap s.wordLe)

/-- PWR_RESIDENCY (R408, R517). -/
def execPwrResidency (r : Request) (s : State) : Host.Outcome State Fault Refusal := .next (s.serve cmdPwrResidency r)

/-- AWAKE_HOLD: PWR.HOST_HOLD (R545). -/
def cmdAwakeHold : Cmd where
  opcode := 0x0907
  i2c := true
  len := lenIs 4
  rsv := [(2, 2)]
  run s q d :=
    if !between 1 127 (fieldOf d 0 1) || 2 ≤ fieldOf d 1 1 then s.reply q Status.badParam []
    else (((s.set PWR.HOST_HOLD.REASON (fieldOf d 0 1)).set PWR.HOST_HOLD.SET (fieldOf d 1 1)).holdsNow).ok q []

/-- AWAKE_HOLD (R408, R545). -/
def execAwakeHold (r : Request) (s : State) : Host.Outcome State Fault Refusal := .next (s.serve cmdAwakeHold r)

/-- NET_SLEEP_STATUS. -/
def cmdNetSleepStatus : Cmd where
  opcode := 0x0908
  i2c := true
  remote := true
  len := lenIs 0
  run s q _ :=
    let hs := s.holders
    s.ok q (leBytes 4 (s.net.idle / 48000) ++ leBytes 4 (s.get PWR.NET_CFG.SLEEP_IDLE_S) ++ [hs.length % 256, 0, 0, 0] ++
      (hs.take 32).flatMap (fun p => [p, s.awakeOf p % 128]))

/-- NET_SLEEP_STATUS (R408, R548). -/
def execNetSleepStatus (r : Request) (s : State) : Host.Outcome State Fault Refusal := .next (s.serve cmdNetSleepStatus r)

/-! ## Security -/

/-- SEC_STATUS. -/
def cmdSecStatus : Cmd where
  opcode := 0x0A01
  remote := true
  len := lenIs 0
  run s q _ := s.ok q ((List.range 16).flatMap (fun k => leBytes 2 (s.get (SEC.SLOT.VERSION k))) ++
    (List.range 16).map (fun k => s.get (SEC.SLOT.MASK k)) ++ s.tamperBytes ++ leBytes 4 s.authFailures)

/-- SEC_STATUS (R410). -/
def execSecStatus (r : Request) (s : State) : Host.Outcome State Fault Refusal := .next (s.serve cmdSecStatus r)

/-- The requester's UID of an open request; 0 on the host's channels. -/
def OpenReq.uid (q : OpenReq) : DWord := match q.origin with | some o => o.2.2 | none => 0

/-- AUTH_CHALLENGE. -/
def cmdAuthChallenge : Cmd where
  opcode := 0x0A02
  remote := true
  len := lenIs 0
  run s q _ :=
    let (n, s) := s.newChallenge q.ch q.uid
    s.ok q (n ++ leBytes 2 60 ++ [0, 0])

/-- AUTH_CHALLENGE (R396, R410, R577). -/
def execAuthChallenge (r : Request) (s : State) : Host.Outcome State Fault Refusal := .next (s.serve cmdAuthChallenge r)

/-- Is a version later than a slot's (R410)? -/
def versionLater (new old : Nat) : Bool :=
  let k := (new + 65536 - old) % 65536
  decide (0 < k) && decide (k < 32768)

/-- KEY_REPLACE: the steps of R572 follow; their end is FINAL_RESPONSE. A replacement in progress, or the power-down warning
(R573), answers BUSY. -/
def cmdKeyReplace : Cmd where
  opcode := 0x0A03
  remote := true
  auth := always
  len d := d.length == 12 + fieldOf d 8 2 && decide (12 ≤ d.length)
  rsv := [(7, 1), (10, 2)]
  run s q d :=
    let k := fieldOf d 0 1
    let m := fieldOf d 1 1
    let old := match (s.slot k).cur with | some g => g.version | none => 0
    if 16 ≤ k || !maskOk k m || fieldOf d 8 2 != keyBytes m + 28 || !versionLater (fieldOf d 2 2) old then s.reply q Status.badParam []
    else if s.sec.op.isSome || s.flag PWR.STAT.PDW then s.reply q Status.busy []
    else
      let o : KeyOp := ⟨k, m, fieldOf d 2 2, d.drop 12, (d.drop 4).take 3⟩
      let s := { s with sec := { s.sec with op := some o } }
      ((s.set SEC.OP_STAT.SLOT k).set SEC.OP_STAT.STEP 1).wait q .keyOp

/-- KEY_REPLACE (R410, R571, R572). -/
def execKeyReplace (r : Request) (s : State) : Host.Outcome State Fault Refusal := .next (s.serve cmdKeyReplace r)

/-- KEY_KCV: the KCV register of the slot, first byte first. -/
def cmdKeyKcv : Cmd where
  opcode := 0x0A04
  remote := true
  len := lenIs 4
  rsv := [(1, 3)]
  run s q d :=
    let k := fieldOf d 0 1
    if s.flag SEC.STAT.TAMPER then s.reply q Status.tamperLock []
    else if 16 ≤ k then s.reply q Status.badParam []
    else s.ok q (leBytes 2 (s.get (SEC.SLOT.VERSION k)) ++ (leBytes 3 (s.get (SEC.KCV.KCV k))).reverse ++ [0, 0, 0])

/-- KEY_KCV (R410). -/
def execKeyKcv (r : Request) (s : State) : Host.Outcome State Fault Refusal := .next (s.serve cmdKeyKcv r)

/-- TAMPER_CLEAR. -/
def cmdTamperClear : Cmd where
  opcode := 0x0A05
  auth := always
  len := lenIs 0
  accept s _ := s.sec.present == 0
  run s q _ :=
    let (c, s) := s.tamperClear
    s.ok q (leBytes 4 c)

/-- TAMPER_CLEAR (R410, R584). -/
def execTamperClear (r : Request) (s : State) : Host.Outcome State Fault Refusal := .next (s.serve cmdTamperClear r)

/-- GET_MEASUREMENT. -/
def cmdGetMeasurement : Cmd where
  opcode := 0x0A06
  remote := true
  len := lenIs 0
  run s q _ :=
    let hs := s.sec.hashes.filter (fun h => !h.isEmpty)
    s.ok q (padTo 32 s.sec.measurement ++ [hs.length % 256, 0, 0, 0] ++ hs.flatMap (padTo 32))

/-- GET_MEASUREMENT (R410, R532). -/
def execGetMeasurement (r : Request) (s : State) : Host.Outcome State Fault Refusal := .next (s.serve cmdGetMeasurement r)

/-! ## The event recorder -/

/-- EVR_STATUS. -/
def cmdEvrStatus : Cmd where
  opcode := 0x0B01
  i2c := true
  remote := true
  len := lenIs 0
  run s q _ := s.ok q ([s.get EVR.STAT.STATE, 0, 0, 0] ++ leBytes 4 (s.get EVR.FIRST_SEQ.SEQ) ++ leBytes 4 (s.get EVR.LAST_SEQ.SEQ) ++
    leBytes 2 (s.get EVR.STAT.RETIRED) ++ [s.get EVR.PEND_STAT.FILL, 0])

/-- EVR_STATUS (R411). -/
def execEvrStatus (r : Request) (s : State) : Host.Outcome State Fault Refusal := .next (s.serve cmdEvrStatus r)

/-- EVR_READ: readable records from the oldest with SEQ at or later than FROM_SEQ. -/
def cmdEvrRead : Cmd where
  opcode := 0x0B02
  i2c := true
  remote := true
  len := lenIs 8
  rsv := [(5, 3)]
  run s q d :=
    let n := fieldOf d 4 1
    let from_ := fieldOf d 0 4
    if !between 1 (if q.ch = 2 then 111 else 127) n then s.reply q Status.badParam []
    else
      let l := (s.readable.filter (fun (r : Record) => r.seq == from_ || seqLater r.seq from_)).take n
      let first := match l with | r :: _ => r.seq | [] => from_
      s.ok q (leBytes 4 first ++ [l.length, 0, 0, 0] ++ l.flatMap Record.bytes)

/-- EVR_READ (R411). -/
def execEvrRead (r : Request) (s : State) : Host.Outcome State Fault Refusal := .next (s.serve cmdEvrRead r)

/-- EVR_CLEAR: a DEGRADED recorder has no medium. -/
def cmdEvrClear : Cmd where
  opcode := 0x0B03
  auth := always
  len := lenIs 0
  run s q _ :=
    if s.evr.degraded then s.reply q Status.mediaFault []
    else
      let (n, s) := s.clearRecorder q.ch
      s.ok q (leBytes 4 n)

/-- EVR_CLEAR (R411, R599). -/
def execEvrClear (r : Request) (s : State) : Host.Outcome State Fault Refusal := .next (s.serve cmdEvrClear r)

/-- EVR_PENDING_READ. -/
def cmdEvrPendingRead : Cmd where
  opcode := 0x0B04
  i2c := true
  remote := true
  len := lenIs 0
  run s q _ :=
    let l := s.evr.pending.take 8
    s.ok q ([l.length, 0, 0, 0] ++ l.flatMap Record.bytes)

/-- EVR_PENDING_READ (R411, R597). -/
def execEvrPendingRead (r : Request) (s : State) : Host.Outcome State Fault Refusal := .next (s.serve cmdEvrPendingRead r)

/-! ## Test -/

/-- BIST_RUN: the answer, then a node reset with the BIST. -/
def cmdBistRun : Cmd where
  opcode := 0x0C01
  auth := always
  len := lenIs 4
  accept s _ := s.mode == Mode.test && s.pwrState != Pw.quiet
  rsv := [(1, 3)]
  run s q d :=
    if !between 1 3 (fieldOf d 0 1) then s.reply q Status.badParam []
    else (s.ok q []).resetNode Rst.bist s.straps.bootSrc 0 (fieldOf d 0 1)

/-- BIST_RUN (R412, R413). -/
def execBistRun (r : Request) (s : State) : Host.Outcome State Fault Refusal := .next (s.serve cmdBistRun r)

/-- BIST_RESULT. -/
def cmdBistResult : Cmd where
  opcode := 0x0C02
  i2c := true
  remote := true
  len := lenIs 0
  run s q _ := s.ok q ([s.get TST.BIST_STAT.KIND, s.get TST.BIST_STAT.PASS, 0, 0] ++
    (List.range 4).flatMap (fun k => s.wordLe (TST.MISR.off k)) ++ (List.range 4).flatMap (fun k => s.wordLe (TST.EXP.off k)) ++
    leBytes 2 (s.get TST.MBIST_CNT.COUNT) ++ [0, 0] ++ leBytes 4 (s.get TST.BIST_STAT.DUR_MS))

/-- BIST_RESULT (R412, R413). -/
def execBistResult (r : Request) (s : State) : Host.Outcome State Fault Refusal := .next (s.serve cmdBistResult r)

/-- STORE_TEST: it runs until TST shows its end. -/
def cmdStoreTest : Cmd where
  opcode := 0x0C03
  len := lenIs 8
  accept s _ := s.mode == Mode.test && s.pwrState != Pw.quiet
  run s q d :=
    let a := fieldOf d 0 4
    let n := fieldOf d 4 4
    if a % 4096 != 0 || n % 4096 != 0 || n = 0 then s.reply q Status.badParam []
    else if !s.inHost a n then s.reply q Status.notPermitted []
    else if s.storeTest.isSome then s.reply q Status.busy []
    else (s.storeTestStart a n).wait q (.storeTest a n)

/-- STORE_TEST (R412, R413, R607). -/
def execStoreTest (r : Request) (s : State) : Host.Outcome State Fault Refusal := .next (s.serve cmdStoreTest r)

/-- Does a lane test command name a lane? -/
def laneNamed (d : List Nat) : Bool :=
  (fieldOf d 0 1 == 0 && decide (fieldOf d 1 1 < 4)) || (fieldOf d 0 1 == 1 && decide (fieldOf d 1 1 < 2))

/-- LANE_TEST: WRONG_STATE while the link is QUALIFIED or IN_RING (R71), or while its domain is off. -/
def cmdLaneTest : Cmd where
  opcode := 0x0C04
  len := lenIs 4
  accept s d := s.mode == Mode.test && (!laneNamed d ||
    (if fieldOf d 0 1 = 0 then s.domOn Dom.ring && !s.linkUp (linkIx (fieldOf d 1 1))
     else s.domOn Dom.stack && s.stackLink (fieldOf d 1 1) != Lk.inRing))
  rsv := [(3, 1)]
  run s q d :=
    let n := fieldOf d 1 1
    let m := fieldOf d 2 1
    if !laneNamed d || 4 ≤ m then s.reply q Status.badParam []
    else if fieldOf d 0 1 = 0 then (laneTestMode s (linkIx n) m).ok q []
    else (s.stackLaneMode n m).ok q []

/-- LANE_TEST (R71, R412). -/
def execLaneTest (r : Request) (s : State) : Host.Outcome State Fault Refusal := .next (s.serve cmdLaneTest r)

/-- LANE_TEST_RESULT. -/
def cmdLaneTestResult : Cmd where
  opcode := 0x0C05
  remote := true
  len := lenIs 4
  rsv := [(2, 2)]
  accept s d := !laneNamed d || s.domOn (if fieldOf d 0 1 = 0 then Dom.ring else Dom.stack)
  run s q d :=
    let n := fieldOf d 1 1
    if !laneNamed d then s.reply q Status.badParam []
    else if fieldOf d 0 1 = 0 then s.ok q ([s.get (RING.LTEST.CHK_LOCK n), 0, 0, 0] ++ s.wordLe (RING.PRBS_ERR.off n) ++ s.wordLe (RING.PRBS_BITS.off n))
    else s.ok q ([s.get (STK.LTEST.CHK_LOCK n), 0, 0, 0] ++ s.wordLe (STK.PRBS_ERR.off n) ++ s.wordLe (STK.PRBS_BITS.off n))

/-- LANE_TEST_RESULT (R412). -/
def execLaneTestResult (r : Request) (s : State) : Host.Outcome State Fault Refusal := .next (s.serve cmdLaneTestResult r)

end Sys2Proof.Machine
end

