-- ==== Sys2Proof/Machine/ConfigImg.lean ====
section
/-! DEFINITION. What a configuration image does when it takes effect (R383, R387), the commit, the confirm timer and the return
to a held image (R384 to R386), and the changes held for a tick (R394). -/

namespace Sys2Proof.Machine

/-! ## Register loads (R159, R185, R348, R356, R450, R479, R524) -/

/-- The bits of a register that a unit's management holds and an image does not load: the enables of ports and rings. -/
def unitBits (off : Nat) : Word :=
  if (List.range 8).any (fun n => AUD.TDM_CFG.off n == off) then maskBits 0 0
  else if off == AUD.PDM_CFG.off then maskBits 15 0
  else if off == AUD.HDMA_CTRL.off then maskBits 1 0
  else if off == ETH.CFG.off 0 || off == ETH.CFG.off 1 || off == CAN.CFG.off then maskBits 0 0
  else 0

/-- One register load; nothing where the register's domain is down. -/
def State.imageLoad (s : State) (off word : Nat) : State :=
  let keep := unitBits off
  if s.domOn (regDomain off) then s.regWriteUp off ((BitVec.ofNat 32 word &&& ~~~ keep) ||| (s.word off &&& keep)) else s

/-! ## Streams, zones, microphones -/

/-- The streams of an image: one that stands already with the same index and identifier keeps its settings (R239). -/
def AudSt.takeStreams (a : AudSt) (l : List (Nat × Nat)) : List StreamSt :=
  l.map (fun (e : Nat × Nat) => match a.streams.find? (fun x => x.ix == e.1 && x.id == e.2) with
    | some x => x
    | none => ⟨e.1, e.2, none, .always, 0, 0⟩)

/-- A zone as an image finds it: its settings at their defaults (R243), what runs kept. -/
def ZoneSt.unset (x : ZoneSt) : ZoneSt := { ZoneSt.reset with
  enabled := x.enabled
  line := x.line
  gr := x.gr
  nf := x.nf
  delay := x.delay
  oldDelay := x.oldDelay
  fade := x.fade
  cands := x.cands.map (fun (c : CandSt) => { c with tag := false, prio := 0 })
  biquads := x.biquads.map (fun (b : Biquad) => { b with b0 := 2 ^ 30, b1 := 0, b2 := 0, a1 := 0, a2 := 0 }) }

/-- Data of a command made of settings at their defaults: ZONE_OUT without delay or limit. -/
def plainOut (z : Nat) : List Nat := [z, 0, 0, 0, 0, 0, 1, 0, 10, 0, 0, 0, 0, 0, 0, 0]

/-- What an image says of zones, streams, microphones and the recorder takes effect (R212, R221, R239, R248, R263, R274, R288). -/
def State.imageAudio (s : State) (i : Config.Image) : State :=
  let zones := (List.range 16).map (fun z => { (s.aud.zone z).unset with
    map := (i.zoneMap.filter (fun (e : Nat × Nat) => e.1 == z)).map (·.2) })
  let fb := (List.range 16).map (fun m =>
    let x := s.vox.fb.getD m ⟨false, [], none⟩
    if i.suppress.contains m then { x with enabled := true } else ⟨false, [], none⟩)
  let nf := (List.range 16).map (fun z =>
    let x := s.vox.nf.getD z ⟨false, [], 10, 60, 0, 0, [], false⟩
    match i.noise.find? (fun e => e.1 == z) with
    | some (_, mics, slope, nref, fallback) => { x with enabled := true, mics := mics, slope := slope, nref := nref, fallback := fallback }
    | none => ⟨false, [], 10, 60, 0, 0, [], false⟩)
  let s := { s with
    aud := { s.aud with
      streams := s.aud.takeStreams i.streams
      ringTable := i.ringTable
      trims := i.trims
      zones := zones }
    vox := { s.vox with fb := fb, nf := nf, recAlways := (List.range 16).map (fun c => i.recAlways.contains c) } }
  let named (z : Nat) : Bool := i.settings.any (fun e => e.1 == 0x0406 && fieldOf e.2 0 1 == z)
  let s := (List.range 16).foldl (fun (s : State) (z : Nat) => if named z then s else s.applyZoneOut (plainOut z)) s
  let idle (g : Nat) : Bool := !i.settings.any (fun e => e.1 == 0x0408 && fieldOf e.2 0 1 == g)
  let s := (List.range 8).foldl (fun (s : State) (g : Nat) => if idle g then s.applyTestgenSet ([g, 0, 0, 0] ++ leBytes 2 1000 ++ [0, 0, 0, 0, 0, 0]) else s) s
  let loose (e : Nat) : Bool := !i.settings.any (fun x => x.1 == 0x0604 && fieldOf x.2 0 1 == e) && !s.vox.calls.any (fun c => c.aec == some e)
  (List.range 8).foldl (fun (s : State) (e : Nat) =>
    if loose e then
      State.setFlag { s with vox := { s.vox with aecs := s.vox.aecs.modify e (fun (x : AecSt) => { x with enabled := false }) } }
        (AUD.AEC_STAT.RUN e) false
    else s) s

/-- The matrix of an image replaces the one in force; each crosspoint starts from the gain then applied (R233). -/
def State.imageMatrix (s : State) (i : Config.Image) : State :=
  let es := (i.settings.filter (fun e => e.1 == 0x0401)).flatMap (fun e => (xpEntries e.2).getD [])
  let xps := es.foldl xpApply s.aud.xps
  { s with aud := { s.aud with xps := xps.filter (fun (x : Xpoint) => es.any (fun (e : XpEntry) => e.src == x.src && e.sink == x.sink)) } }

/-! ## The stream table of an image (R440) -/

/-- Is a stream the one that the image would create? -/
def RtpStream.sameAs (x y : RtpStream) : Bool :=
  x.ix == y.ix && x.tx == y.tx && x.type == y.type && x.port == y.port && x.channels == y.channels && x.ticks == y.ticks &&
    x.pt == y.pt && x.firstCh == y.firstCh && x.ip == y.ip && x.udp == y.udp && x.ssrc == y.ssrc && x.jitterMs == y.jitterMs

/-- The stream table of an image: streams that stand already as the image says go on. -/
def State.imageStreams (s : State) (i : Config.Image) : State :=
  let old := s.eth.streams
  let mco (id : Nat) : Nat := match i.mco.find? (fun e => e.1 == id) with | some e => e.2 | none => 0
  let s := { s with eth := { s.eth with streams := [] } }
  let s := (i.settings.filter (fun e => e.1 == 0x0707)).foldl (fun (s : State) (e : Nat × List Nat) => (s.addStream e.2 mco).2) s
  { s with eth := { s.eth with streams := s.eth.streams.map (fun (x : RtpStream) =>
      match old.find? (fun y => y.sameAs x) with
      | some y => { y with mco := x.mco }
      | none => x) } }

/-! ## Settings that a command of the catalogue also makes -/

/-- The effect of a setting of an image at the boundary of the commit tick, or of a start; a routine setting of a block whose domain is
down has none. -/
def State.imageSetting (s : State) (op : Nat) (d : List Nat) : State :=
  let dsp := s.domOn Dom.dsp
  let eth := s.domOn Dom.eth
  let can := s.domOn Dom.can
  match op with
  | 0x0403 => if dsp then s.applyZoneSet d else s
  | 0x0404 => if dsp then s.applyZoneCand d else s
  | 0x0405 => if dsp then s.applyZoneEq d else s
  | 0x0406 => if dsp then s.applyZoneOut d else s
  | 0x0407 => s.applyStreamSet d
  | 0x0408 => if dsp then s.applyTestgenSet d else s
  | 0x0604 => if dsp then s.applyAecSet d else s
  | 0x0704 => if eth then s.applyEthGateSet d else s
  | 0x0705 => if eth then s.applyPtpSet d else s
  | 0x0709 => if eth then s.pralineSet (fieldOf d 0 1) (fieldOf d 1 1) (bit (fieldOf d 2 1) 0) (bit (fieldOf d 2 1) 1) (fieldOf d 4 2) (d.drop 8)
      else s
  | 0x0802 => if can then s.applyCanSetRate d else s
  | 0x0803 => if can then s.applyCanSchedSet d else s
  | 0x0804 => if can then s.applyCanObjSet d else s
  | _ => s

/-- Does what an image makes of a gate list or a schedule differ from the image before (R450, R479)? -/
def sameSetting (old : Config.Image) (e : Nat × List Nat) : Bool := (e.1 == 0x0704 || e.1 == 0x0803) && old.settings.contains e

/-! ## Jobs and the region map -/

/-- The jobs of an image start (R36, R42); voices and a STIPA run keep theirs, on the first core with room. Jobs that commands
added for the matrix, echo cancellers and generators go with what they served. -/
def State.imageJobsIn (s : State) (i : Config.Image) : State :=
  let kept := s.jobs.filter (fun (j : Job) => j.owner / 65536 == 0x0504 || j.owner / 65536 == 0x0607)
  let placed := (placeJobs s.budget [] (imageJobs i)).getD []
  let jobs := kept.foldl (fun (l : List Job) (j : Job) => l ++ [match coreFor l s.budget j.cost with
    | some c => { j with core := c }
    | none => j]) placed
  let quiet := s.pwrState == Pw.quiet
  State.showLoad { s with jobs := jobs.map (fun (j : Job) => if quiet && !j.retained && j.owner == 0 then { j with stopped := true, stale := true } else j) }

/-- A region map that differs from the one in force waits for the next start (R310). -/
def State.imageMapIn (s : State) (i : Config.Image) : State :=
  let same := (s.mem.regions.map (fun (r : Region) => (r.kind, r.pages, r.retain))) == imageRegions i
  { s with mem := { s.mem with nextMap := if same then none else some (imageMap i) } }

/-- Clips that an image carries, where the library does not hold that version (R282). -/
def State.imageClips (s : State) (i : Config.Image) : State :=
  i.clips.foldl (fun (s : State) (b : List Nat) =>
    let c := clipOf b 0
    if s.vox.clips.any (fun (x : Clip) => x.id == c.id && x.version == c.version && !x.deleting && x.state != 2) then s else (s.libTake b).2) s

/-! ## An image takes effect (R383, R387) -/

/-- The image of a slot; none where the slot is empty. -/
def CfgSt.imageOf (c : CfgSt) (k : Nat) : Config.Image :=
  if (c.slot k).bytes.isEmpty then Config.Image.none else Config.imageOf (c.slot k).bytes

/-- Everything of an image but its units takes effect at this boundary. -/
def State.takeImage (s : State) (i : Config.Image) : State :=
  let old := s.cfg.image
  let topo := s.position != 0 && (s.claim != ⟨i.claimId, i.syncCap⟩ || (s.aud.streams.map (fun x => (x.ix, x.id))) != i.streams)
  let s := { s with
    cfg := { s.cfg with image := i }
    claim := ⟨i.claimId, i.syncCap⟩
    ring := { s.ring with topoChg := s.ring.topoChg || topo } }
  let s := i.loads.foldl (fun (s : State) (e : Nat × Nat) => s.imageLoad e.1 e.2) s
  let s := if s.domOn Dom.dsp then (s.imageAudio i).imageMatrix i else s
  let s := if s.domOn Dom.eth then s.imageStreams i else s
  let s := i.settings.foldl (fun (s : State) (e : Nat × List Nat) => if sameSetting old e then s else s.imageSetting e.1 e.2) s
  ((s.imageJobsIn i).imageClips i).imageMapIn i |>.recShow

/-- The units of an image that takes effect at a commit: those in both stay as they are, those removed shut down, those added are
enabled where the image marks them (R383, R388). -/
def State.imageUnits (s : State) (old new : Config.Image) : State :=
  let had := old.units.map (·.1)
  let now := new.units.map (·.1)
  let s := (had.filter (fun id => !now.contains id)).foldl (fun (s : State) (id : Nat) =>
    let s := { s with mbx := { s.mbx with timed := s.mbx.timed.filter (fun (t : Timed) =>
      !((t.opcode == 0x010A || t.opcode == 0x010B) && fieldOf t.data 0 4 == id)) } }
    (s.unitDone id true Status.aborted).unitDisable id) s
  s.unitsEnable ((new.units.filter (fun (e : Nat × Bool) => e.2 && !had.contains e.1)).map (·.1))

/-- The node changes to the image of a slot at a boundary (R383). -/
def State.changeImage (s : State) (k : Nat) : State :=
  let old := s.cfg.image
  let new := s.cfg.imageOf k
  (s.takeImage new).imageUnits old new

/-! ## The commit -/

/-- The commit record of the pending image: TRIAL, the other slot PREVIOUS; the confirm timer starts (R383). -/
def CfgSt.committed (c : CfgSt) (k upTicks : Nat) : CfgSt :=
  let other := 1 - k
  let c := c.mark k Slot.active
  let c := if c.inForce then c.mark other Slot.previous else c
  { c with
    active := k
    trial := true
    trialStarts := 0
    inForce := true
    confirmAt := some (upTicks + 48000 * c.confirmTime) }

/-- The pending image becomes the image in force. -/
def State.commitImage (s : State) (k tick : Nat) : State :=
  let left := s.cfg.version
  let s := s.writeRecordCfg (s.cfg.committed k s.decik.upTicks)
  let s := s.changeImage k
  let s := s.finishAll (fun p => p == Pend.apply) Status.ok (leBytes 4 tick)
  let s := (s.cfgEvt MBX.CFG_EVT.COMMIT Src.CONFIG_COMMIT).post Evt.CONFIG_COMMIT 0 (leBytes 4 s.cfg.version ++ leBytes 4 left)
  s.showCfg.noteConfig 0 left tick

/-- The changes of an opcode that are due, and the rest. -/
def State.takeDue (s : State) (p : Timed → Bool) : List Timed × State :=
  let hit (t : Timed) : Bool := t.due s && p t
  (s.mbx.timed.filter hit, { s with mbx := { s.mbx with timed := s.mbx.timed.filter (fun (t : Timed) => !hit t) } })

/-- CONFIG_COMMIT (R383): the tick of a pending APPLY has come. The follower of a twin puts the image that it holds into its slot
first (R395). -/
def execConfigCommit (s : State) : Host.Outcome State Fault Refusal :=
  .next (match s.takeDue (fun t => t.opcode == 0x0202) with
    | (t :: _, s') =>
      let s' := match s'.cfg.slotIn Slot.pend, s'.cfg.loaded with
        | none, some b => s'.applyBegin b (fieldOf t.data 4 2) ⟨t.tick, t.own⟩
        | _, _ => s'
      match s'.cfg.slotIn Slot.pend with
      | some k => s'.commitImage k t.tick
      | none => s'
    | ([], _) => s)

/-! ## Confirm timer and return (R385, R386) -/

/-- CONFIRM_TIMER_EXPIRY (R385): the return follows at the first boundary at least 48 ticks later. -/
def execConfirmTimerExpiry (s : State) : Host.Outcome State Fault Refusal :=
  .next (match s.cfg.confirmAt with
    | some t =>
      if s.decikRuns && s.cfg.trial && s.cfg.rollTo.isNone && decide (t ≤ s.decik.upTicks) then
        let w : When := if s.tickSeq = 0 then ⟨0, some (s.decik.upTicks + 49)⟩ else ⟨(s.tickSeq + 49) % 2 ^ 32, none⟩
        (s.rollBegin w true).hold w 0x0204 [] 0 0
      else s
    | none => s)

/-- The record after a return: from TRIAL the trial slot is REJECTED, else the two slots change places. Without a PREVIOUS slot no
image is in force. -/
def CfgSt.returned (c : CfgSt) : CfgSt :=
  let from_ := c.active
  let c1 := c.mark from_ (if c.trial then Slot.rejected else Slot.previous)
  let c2 := match c.slotIn Slot.previous with
    | some k => { c1.mark k Slot.active with active := k }
    | none => { c1 with inForce := false }
  { c2 with
    trial := false
    trialStarts := 0
    confirmAt := none
    rollTo := none }

/-- The image that a return puts in force. -/
def CfgSt.inForceImage (c : CfgSt) : Config.Image := if c.inForce then c.imageOf c.active else Config.Image.none

/-- The node returns to the PREVIOUS slot. -/
def State.returnImage (s : State) (auto : Bool) (tick : Nat) : State :=
  let left := s.cfg.version
  let old := s.cfg.image
  let s := s.writeRecordCfg s.cfg.returned
  let new := s.cfg.inForceImage
  let s := (s.takeImage new).imageUnits old new
  let s := s.finishAll (fun p => p == Pend.rollback) Status.ok (leBytes 4 tick)
  let s := s.cfgEvt (if auto then MBX.CFG_EVT.ROLLBACK_AUTO else MBX.CFG_EVT.ROLLBACK_CMD) Src.CONFIG_ROLLBACK
  let s := s.post Evt.CONFIG_ROLLBACK 0 (leBytes 4 s.cfg.version ++ leBytes 4 left)
  s.showCfg.noteConfig (if auto then 2 else 3) left tick

/-- ROLLBACK_APPLY (R385, R386): the tick of a return has come. At the follower of a twin a pending image is cancelled so (R395). -/
def execRollbackApply (s : State) : Host.Outcome State Fault Refusal :=
  .next (match s.takeDue (fun t => t.opcode == 0x0204) with
    | (t :: _, s') =>
      if s'.cfg.rollTo.isNone && (s'.cfg.slotIn Slot.pend).isSome then s'.cfgCancel
      else
        let auto := match s'.cfg.rollTo with | some r => r.2 | none => false
        if (s'.cfg.slotIn Slot.previous).isSome || s'.cfg.trial then s'.returnImage auto t.tick else s'
    | ([], _) => s)

/-! ## Changes held for a tick (R394) -/

/-- The effect of a held change other than a commit, a return and units. -/
def State.applyTimed (s : State) (t : Timed) : State :=
  let d := t.data
  match t.opcode with
  | 0x0201 => s.applyCfgLoad d
  | 0x0203 => if s.cfg.trial then s.cfgConfirm else s
  | 0x0207 => State.showCfg { s with cfg := { s.cfg with loaded := none } }
  | 0x0401 => s.applyXpSet d
  | 0x0403 => s.applyZoneSet d
  | 0x0404 => s.applyZoneCand d
  | 0x0405 => s.applyZoneEq d
  | 0x0406 => s.applyZoneOut d
  | 0x0407 => s.applyStreamSet d
  | 0x0408 => s.applyTestgenSet d
  | 0x0504 => s.applyPlayStart d
  | 0x0505 => s.applyPlayStop d
  | 0x0601 => s.applyCallOpen d
  | 0x0602 => s.applyCallClose d
  | 0x0604 => s.applyAecSet d
  | 0x0704 => s.applyEthGateSet d
  | 0x0705 => s.applyPtpSet d
  | 0x0707 => (s.addStream d (fun _ => 0)).2
  | 0x0708 => s.removeStream (fieldOf d 0 4)
  | 0x0802 => s.applyCanSetRate d
  | 0x0803 => s.applyCanSchedSet d
  | 0x0904 => s.pointTo (fieldOf d 0 1)
  | _ => s

/-- Unit changes that are due: DISABLEs one by one, rails of one tick together (R519). -/
def State.applyUnits (s : State) (l : List Timed) : State :=
  let ids (op : Nat) : List Nat := (l.filter (fun (t : Timed) => t.opcode == op)).map (fun t => fieldOf t.data 0 4)
  let off := ids 0x010B
  let rails := off.filter (fun id => unitClass id == UClass.rail && (s.unit id).mgmt == Mgmt.enabled)
  let s := (off.filter (fun id => !rails.contains id)).foldl (fun (s : State) (id : Nat) => s.unitDisable id) s
  (s.railUnits rails.eraseDups false).unitsEnable (ids 0x010A)

/-- TIMED_CHANGE_APPLY (R394): the held changes whose tick has come take effect, in the order in which they were accepted. -/
def execTimedChangeApply (s : State) : Host.Outcome State Fault Refusal :=
  .next (
    let unit (t : Timed) : Bool := t.opcode == 0x010A || t.opcode == 0x010B
    let (due, s') := s.takeDue (fun t => t.opcode != 0x0202 && t.opcode != 0x0204)
    (due.filter (fun t => !unit t)).foldl (fun (s : State) (t : Timed) => s.applyTimed t) (s'.applyUnits (due.filter unit)))

/-! ## A start of Decik (R387) -/

/-- What a start makes of the commit record: the record, and what follows the start (a cancel's version and tick, an automatic
return's). -/
def State.startConfig (s : State) : State :=
  let c := s.cfg
  let s := { s with cfg := { c with image := Config.Image.none, loaded := none, rollTo := none, confirmAt := none } }
  let s := match s.cfg.slotIn Slot.pend with
    | some k =>
      let left := (s.cfg.slot k).version
      ((s.writeRecordCfg (s.cfg.mark k Slot.cancelled)).cfgEvt MBX.CFG_EVT.CANCEL Src.CONFIG_ROLLBACK).noteConfig 4 left
        (s.get MBX.CFG_TICK.TSEQ)
    | none => s
  if !s.cfg.trial then s
  else if s.cfg.trialStarts = 0 then s.writeRecordCfg { s.cfg with
    trialStarts := 1
    confirmAt := some (s.decik.upTicks + 48000 * s.cfg.confirmTime) }
  else
    let left := s.cfg.version
    let s := s.writeRecordCfg s.cfg.returned
    ((s.cfgEvt MBX.CFG_EVT.ROLLBACK_AUTO Src.CONFIG_ROLLBACK).post Evt.CONFIG_ROLLBACK 0
      (leBytes 4 s.cfg.version ++ leBytes 4 left)).noteConfig 2 left s.tickSeq

end Sys2Proof.Machine
end

