-- ==== Sys2Proof/Machine/Serve.lean ====
section
/-! DEFINITION. Decik looks at its channels (R357 to R364), and final responses that no other row of the table brings (R363). -/

namespace Sys2Proof.Machine

/-- The catalogue, part 1. -/
def catalogue1 : List Cmd := [
  cmdPing, cmdStateSummary, cmdReducedSummary, cmdGetIdentity, cmdGetTime, cmdSetRtc,
  cmdSetNoteLevel, cmdServiceMode, cmdNodeReset, cmdUnitGet, cmdUnitEnable, cmdUnitDisable,
  cmdCfgLoad, cmdCfgApply, cmdCfgConfirm, cmdCfgRollback, cmdCfgStatus, cmdCfgRead,
  cmdCfgDiscard, cmdRingStatus, cmdRingGetLayout, cmdRingRenumber, cmdRingMerge, cmdRingSetRank]

/-- The catalogue, part 2. -/
def catalogue2 : List Cmd := [
  cmdRingLinkCtrl, cmdRingSetParam, cmdSyncStatus, cmdXpSet, cmdXpGet, cmdZoneSet,
  cmdZoneCand, cmdZoneEq, cmdZoneOut, cmdStreamSet, cmdTestgenSet, cmdZoneStatus,
  cmdLibLoad, cmdLibDelete, cmdLibList, cmdPlayStart, cmdPlayStop, cmdPlayStatus,
  cmdCallOpen, cmdCallClose, cmdCallStatus, cmdAecSet, cmdPmonCommission, cmdPmonClear]

/-- The catalogue, part 3. -/
def catalogue3 : List Cmd := [
  cmdStipaRun, cmdRecLock, cmdRecUnlock, cmdRecIndex, cmdRecExport, cmdEthStatus,
  cmdEthCounters, cmdEthMdio, cmdEthGateSet, cmdPtpSet, cmdPtpStatus, cmdStreamAdd,
  cmdStreamRemove, cmdPralineSet, cmdCanStatus, cmdCanSetRate, cmdCanSchedSet, cmdCanObjSet,
  cmdCanSend, cmdCanWakeSet, cmdPwrStatus, cmdPwrSetState, cmdPwrVote, cmdPwrPerf]

/-- The catalogue, part 4. -/
def catalogue4 : List Cmd := [
  cmdPwrWakeCfg, cmdPwrResidency, cmdAwakeHold, cmdNetSleepStatus, cmdSecStatus, cmdAuthChallenge,
  cmdKeyReplace, cmdKeyKcv, cmdTamperClear, cmdGetMeasurement, cmdEvrStatus, cmdEvrRead,
  cmdEvrClear, cmdEvrPendingRead, cmdBistRun, cmdBistResult, cmdStoreTest, cmdLaneTest,
  cmdLaneTestResult, cmdRedStatus, cmdMasterHandover, cmdTwinResync, cmdStackStatus, cmdStackMemberReset]

/-- The 96 commands of release 3.2 (R391). -/
def catalogue : List Cmd := catalogue1 ++ catalogue2 ++ catalogue3 ++ catalogue4

/-- A request as its ring entry holds it (R360). A channel 3 entry came from a position. -/
def State.parseRequest (s : State) (ch : Fin 4) (idx : Nat) (b : List Nat) : Request where
  ch := ch
  idx := idx % 64
  tag := fieldOf b 2 2
  len := fieldOf b 4 2
  flags := fieldOf b 6 2
  cfgver := fieldOf b 8 4
  rsv := fieldOf b 12 4
  data := (b.drop 16).take (fieldOf b 4 2)
  pos := match s.mbx.origins.find? (fun o => o.1 == idx % 64) with | some o => o.2.1 | none => 0
  sub := match s.mbx.origins.find? (fun o => o.1 == idx % 64) with | some o => o.2.2 | none => 0

/-- Carry out one request: the entry of the catalogue with its OPCODE, or BAD_OPCODE. -/
def State.serveAny (s : State) (opcode : Nat) (r : Request) : State :=
  match catalogue.find? (fun c => c.opcode == opcode) with
  | some c => s.serve c r
  | none => s.serveUnknown opcode r

/-- May Decik take the next request of the channel: one is there, and the channel has room for it (R362, R370)? -/
def State.canTake (s : State) (ch : Nat) : Bool :=
  s.decikRuns && s.reqFill ch != 0 && (s.region 6).isSome && (s.mayConsume ch || (ch == 3 && decide (32 ≤ (s.opensOf 3).length)))

/-- Take the requests of a channel in ring order (R364), at most as many as are given. -/
def State.lookAt (s : State) (ch : Fin 4) : Nat → State
  | 0 => s
  | fuel + 1 =>
    if !s.canTake ch then s
    else
      let t := s.get (MBX.CH_REQ_TAIL.TAIL ch)
      let (b, _, s1) := s.storeRead (s.reqEntry ch t) 4096
      let s2 := s1.set (MBX.CH_REQ_TAIL.TAIL ch) ((t + 1) % 128)
      State.lookAt (s2.serveAny (fieldOf b 0 2) (s2.parseRequest ch t b)) ch fuel

/-- MBX_DOORBELL_WRITE (R357, R359): Decik looks at the channel; a write of another channel's doorbell has no effect. -/
def execMbxDoorbellWrite (ch : Fin 4) (s : State) : Host.Outcome State Fault Refusal :=
  .next (s.access (MBX.CH_DB.off ch) (fun s => if s.chWritable ch then s.lookAt ch 64 else s))

/-- MBX_POLL (R359): Decik looks at every channel. -/
def execMbxPoll (s : State) : Host.Outcome State Fault Refusal :=
  .next ((((s.lookAt 0 64).lookAt 1 64).lookAt 2 64).lookAt 3 64)

/-! ## Final responses -/

/-- A request completes, by what it waits for. `result` is what came from outside: an MDIO answer's two bytes (none: no PHY answered
within 1 ms), or a first byte of 1 where durable memory failed a key replacement. What has not come to its end waits on. -/
def State.complete (s : State) (q : OpenReq) (result : List Nat) : State :=
  match q.pend with
  | .mdio _ _ _ => if result.length < 2 then s.finish q Status.timeout [] else s.finish q Status.ok (result.take 2 ++ [0, 0])
  | .recExport first n dest =>
    let (lost, s) := s.exportRun first n dest
    s.finish q Status.ok (leBytes 4 (n - lost) ++ leBytes 4 lost)
  | .storeTest _ _ =>
    if s.storeTest.isSome then s
    else s.finish q Status.ok (s.wordLe TST.STORE_ERR.off ++ s.wordLe TST.STORE_FIRST.off)
  | .keyOp =>
    let (st, data, s) := s.keyReplace (result.getD 0 0 != 1)
    s.finish q st (if st == Status.ok then data ++ [0, 0, 0] else [])
  | .renumber before => if s.totalOf RING.INAUG_CNT.ABANDONED = before then s else s.finish q Status.aborted []
  | .merge =>
    let r := s.get RING.MERGE_STAT.RESULT
    if r = 0 || s.inaug.merge.phase != .idle || s.inaug.merge.retryWait then s
    else if r = 5 then s.finish q Status.aborted [] else s.finish q Status.ok [r, 0, 0, 0]
  | .handover => if s.red.handover.isSome then s else s.finish q Status.aborted []
  | _ => s

/-- FINAL_RESPONSE (R363): a PENDING command of the channel completes. -/
def execFinalResponse (ch : Fin 4) (tag : Nat) (result : List Nat) (s : State) : Host.Outcome State Fault Refusal :=
  .next (if !s.decikRuns then s
    else match (s.opensOf ch).find? (fun q => q.tag == tag) with
      | some q => s.complete q result
      | none => s)

end Sys2Proof.Machine
end

