-- ==== Sys2Proof/Machine/Boot.lean ====
section
/-! DEFINITION. Resets from outside, the cold start and the wake start step by step, the power-down warning and the restart of Decik
(R17, R525 to R543, R640). -/

namespace Sys2Proof.Machine

/-! ## Resets from outside (R525 to R527, R639, R640) -/

/-- What the node waits for before a start: the supply (2), the release of RST_N (3), VAO (4, state OFF); 0 nothing. -/
abbrev Wait.supply : Nat := 2
abbrev Wait.pin : Nat := 3
abbrev Wait.vao : Nat := 4

/-- AO is lost too: its registers, the RTC, the pending buffer; the tamper latch comes back from its durable copy (R527). The OTP
and durable memory stay. -/
def State.aoLost (s : State) (wait : Nat) : State :=
  let s := s.dropBanks 0
  let s := s.dark (fun _ => false)
  { s with
    regs := State.reset.regs
    totals := []
    rtc := 0
    decik := State.reset.decik
    mem := { StoreSt.reset with regions := s.mem.regions, nextMap := s.mem.nextMap }
    evr := { s.evr with pending := [], mirror := [], optimeKnown := false }
    can := CanSt.reset
    pwr := { PwrSt.reset with resetWait := wait }
    net := NetSt.reset
    sec := { s.sec with
      measurement := SecSt.reset.measurement
      hashes := SecSt.reset.hashes
      sources := [] }
    dio := DioSt.reset }

/-- The tamper latch takes its durable copy. -/
def State.restoreTamper (s : State) : State :=
  if s.sec.durable = 0 then s
  else ((s.setFlag SEC.STAT.TAMPER true).set SEC.STAT.CAUSE s.sec.durable).faultCause GLB.FAULT_STAT.TAMPER GLB.FAULT_EVT.TAMPER true

/-- POWER_ON_RESET (R525, R639): everything is reset and the straps are sampled. HOST_VOTE takes its strap value (R500). -/
def execPowerOnReset (straps : Straps) (s : State) : Host.Outcome State Fault Refusal :=
  .next (
    let s := { s.aoLost 0 with straps := straps }
    let s := s.set PWR.HOST_VOTE.VOTE (if straps.hostSpi then 1 else 33)
    s.restoreTamper)

/-- VAO_LOST (R505, R640): the AO domain is lost; the node is OFF. Nothing in it can report (R502). -/
def execVaoLost (s : State) : Host.Outcome State Fault Refusal :=
  .next (
    let s := (s.aoLost Wait.vao).setLevels (fun _ => 0)
    { s with pwr := { s.pwr with step := 0 } })

/-- Is VAO absent? -/
def State.isOff (s : State) : Bool := s.pwr.resetWait == Wait.vao

/-- SUPPLY_RESTART (R525, R539): VMAIN below 2.8 V in ACTIVE, QUIET or STARTING. -/
def execSupplyRestart (bootSrc : Fin 4) (s : State) : Host.Outcome State Fault Refusal :=
  .next (if !s.isOff && (s.awake || s.pwrState == Pw.starting) then
      let s := s.resetNode Rst.supply bootSrc.val Wait.supply 0
      s.setFlag PWR.STAT.VMAIN_OK false
    else s)

/-- VMAIN_RESTORED (R525): VMAIN has stayed above 3.2 V for 10 ms; the cold start begins. -/
def execVmainRestored (s : State) : Host.Outcome State Fault Refusal :=
  .next (if s.pwr.resetWait == Wait.supply then
      ({ s with pwr := { s.pwr with resetWait := 0, t0 := s.decik.upTicks } }).setFlag PWR.STAT.VMAIN_OK true
    else s)

/-- RESET_PIN (R525, R526): RST_N low for at least 1 µs. -/
def execResetPin (bootSrc : Fin 4) (s : State) : Host.Outcome State Fault Refusal :=
  .next (if s.isOff then s else s.resetNode Rst.pin bootSrc.val Wait.pin 0)

/-- RST_N_RELEASE (R525): the cold start begins at the rising edge. -/
def execRstNRelease (s : State) : Host.Outcome State Fault Refusal :=
  .next (if s.pwr.resetWait == Wait.pin then { s with pwr := { s.pwr with resetWait := 0, t0 := s.decik.upTicks } } else s)

/-! ## Power-down warning (R539) -/

/-- Does a power-down warning now end a start in steps 2 to 6 (R541)? -/
def State.startEarly (s : State) : Bool :=
  s.pwrState == Pw.starting && decide (s.get GLB.BOOT_STAT.STATE ≤ 5) && s.pwr.step == 0

/-- The power-down warning: the operating seconds are saved and the PDW event is written. -/
def State.pdwRaise (s : State) : State :=
  let drop := s.pwr.dropAll || s.pwrState == Pw.entering
  let stop := s.pwr.stopped || s.startEarly
  let s := (s.setFlag PWR.STAT.VMAIN_OK false).setFlag PWR.STAT.PDW true
  let s := s.evt PWR.EVT.PDW 1 Src.FAULT_SUMMARY
  let s := { s with evr := { s.evr with savedOptime := s.get EVR.OPTIME.SECONDS } }
  let s := State.writePosted (s.postBy .power Evt.PDW 0 [])
  { s with pwr := { s.pwr with dropAll := drop, stopped := stop } }

/-- Is VMAIN not needed: OFF, STANDBY, SLEEP, WAKE_FAIL (R503)? -/
def State.vaoOnly (s : State) : Bool :=
  s.isOff || s.pwrState == Pw.standby || s.pwrState == Pw.sleep || s.pwrState == Pw.wakeFail

/-- PDW_RAISE: VMAIN below 3.0 V. A start in steps 2 to 6 ends; an entry drops every bank (R522, R541). In STANDBY, SLEEP and
WAKE_FAIL the node runs from VAO and VMAIN may be absent. -/
def execPdwRaise (s : State) : Host.Outcome State Fault Refusal :=
  .next (if s.vaoOnly || s.flag PWR.STAT.PDW then s else s.pdwRaise)

/-- PDW_RECOVER: VMAIN back above 3.2 V before it fell below 2.8 V. -/
def execPdwRecover (s : State) : Host.Outcome State Fault Refusal :=
  .next (if s.flag PWR.STAT.PDW && s.pwr.resetWait == 0 then
      ((s.setFlag PWR.STAT.PDW false).setFlag PWR.STAT.VMAIN_OK true).postBy .power Evt.PDW_RECOVERED 0 []
    else s)

/-! ## Step 2: the boot ROM (R528, R529, R538) -/

/-- Is a start in the step that BOOT_STAT.STATE names? -/
def State.bootIn (s : State) (st : Nat) : Bool :=
  s.pwrState == Pw.starting && s.pwr.step == 0 && s.pwr.resetWait == 0 && !s.pwr.stopped && s.get GLB.BOOT_STAT.STATE == st

/-- Does step 4 run: BIST_RUN's tests, or at a cold start the START_BIST flag of the commit record (R534, R538)? -/
def State.bistKinds (s : State) : Nat :=
  if s.pwr.bist != 0 then s.pwr.bist
  else if !s.pwr.wakeStart && (s.cfg.slot s.cfg.active).state == Slot.active then (s.cfg.imageOf s.cfg.active).startBist % 4
  else 0

/-- RING and STACK rise and their links train; they stay down while a BIST is to run (R534). -/
def State.linksRise (s : State) : State :=
  let s := ((s.setLevel Dom.ring 2).setLevel Dom.stack 2).stackStrap
  if s.straps.stackRole = 1 || s.straps.stackRole = 2 then s.startLinks.startStack else s.startLinks

/-- BOOT_ROM_START: the logic step is ready. A cold start initialises bank 0; a wake start checks the firmware copy in the store. -/
def execBootRomStart (s : State) : Host.Outcome State Fault Refusal :=
  .next (if s.pwrState == Pw.starting && s.pwr.step == 5 && s.pwr.resetWait == 0 then
      let src := s.straps.bootSrc % 4
      let cause := s.get GLB.RST_CAUSE.CAUSE
      let wake := s.pwr.wakeStart
      let kinds := s.bistKinds
      let s := { s with pwr := { s.pwr with
        step := 0
        bist := kinds
        copy := if wake then 3 else if src = 1 then 2 else 0
        strapBad := src == 3 && !wake } }
      let s := if !wake && cause ≤ 2 then { s with evr := { s.evr with savedPwrcyc := s.evr.savedPwrcyc + 1 } } else s
      let s := (s.set GLB.BOOT_STAT.COPY s.pwr.copy).set GLB.BOOT_STAT.STATE (if wake then 2 else 0)
      let s := if wake then s else s.storeInit 1
      if kinds != 0 then (s.setLevel Dom.ring 0).setLevel Dom.stack 0 else s.linksRise
    else s)

/-! ## Step 3: the boot bundle (R530 to R533) -/

/-- The two images of a bundle. -/
def bundleImages (b : List Nat) : List (List Nat) :=
  [(b.drop (fieldOf b 12 4)).take (fieldOf b 16 4), (b.drop (fieldOf b 20 4)).take (fieldOf b 24 4)]

/-- Is the header correct (R530)? -/
def bundleHeader (b : List Nat) : Bool :=
  b.take 4 == [0x51, 0x42, 0x44, 0x4C] && fieldOf b 4 2 == 1 && fieldOf b 6 2 == 0x6448 && decide (fieldOf b 8 4 < 65536) &&
    fieldOf b 28 32 == 0 && fieldOf b 60 4 == crc32c (b.take 60)

/-- Does the bundle fit in 8 MiB, each image with its key and signature? -/
def bundleFits (b : List Nat) : Bool :=
  [12, 20].all (fun a => decide (128 ≤ fieldOf b (a + 4) 4) && decide (64 ≤ fieldOf b a 4) &&
    decide (fieldOf b a 4 + fieldOf b (a + 4) 4 ≤ 0x800000) && decide (fieldOf b a 4 + fieldOf b (a + 4) 4 ≤ b.length))

/-- An image's public key, and what its signature covers with the signature. -/
def imageKey (i : List Nat) : List Nat := (i.drop (i.length - 128)).take 64
/-- The signed bytes and the signature. -/
def imageSigned (i : List Nat) : List Nat := i.take (i.length - 128) ++ i.drop (i.length - 64)

/-- Is the image's key one of the two firmware keys in OTP that are not revoked? -/
def SecSt.firmwareKey (x : SecSt) (i : List Nat) : Bool :=
  (List.range 2).any (fun k => !bit x.revoked k && x.digests.getD k [] == Config.sha256 (imageKey i))

/-- Why the ROM refuses a copy (R531, BOOT_STAT.FAIL_CAUSE); 0 where it accepts it. -/
def State.bundleFault (s : State) (b : List Nat) : Nat :=
  if !bundleHeader b then 1
  else if !bundleFits b then 4
  else if !(bundleImages b).all s.sec.firmwareKey then 2
  else if !(bundleImages b).all (fun i => Config.signatureOk (leValue (imageKey i)) (imageSigned i)) then 3
  else 0

/-- The measurement of two images (R532). -/
def measure (hs : List (List Nat)) : List Nat := hs.foldl (fun m h => Config.sha256 (m ++ h)) (List.replicate 32 0)

/-- Where the firmware copy lies: the FIRMWARE region, or the bottom of the store while there is no map. -/
def State.firmwareAt (s : State) (x : Nat) : Nat := s.regionAt 1 x

/-- Write the two images into the firmware copy. -/
def State.putFirmware (s : State) (b : List Nat) : State :=
  (List.range ((b.length + 4095) / 4096)).foldl (fun (s : State) (p : Nat) =>
    s.putBytes (s.firmwareAt (4096 * p)) ((b.drop (4096 * p)).take 4096)) s

/-- The firmware copy: each image. -/
def State.firmwareCopy (s : State) : List (List Nat) :=
  let n0 := s.pwr.images.getD 0 0
  let n1 := s.pwr.images.getD 1 0
  let all := (List.range ((n0 + n1 + 4095) / 4096)).flatMap (fun p => s.bytesAt (s.firmwareAt (4096 * p)) 4096)
  [all.take n0, (all.drop n0).take n1]

/-- Is the firmware copy usable: its banks are, and its images hash to H (R316, R538)? -/
def State.firmwareGood (s : State) : Bool :=
  s.pwr.images.length == 2 &&
    (List.range ((s.pwr.images.foldl (· + ·) 0 + 4095) / 4096)).all (fun p => s.bankUsable (bankOf (s.firmwareAt (4096 * p)))) &&
    s.firmwareCopy.map Config.sha256 == s.sec.hashes

/-- Step 3 has ended: step 4, or step 5. -/
def State.verified (s : State) : State :=
  let s := s.set GLB.BOOT_STAT.FAIL_CAUSE 0
  if s.pwr.bist != 0 then s.set GLB.BOOT_STAT.STATE 3
  else (s.set GLB.BOOT_TIME.DECIK_MS (min ((s.decik.upTicks - s.pwr.t0) / 48) 0xFFFF)).set GLB.BOOT_STAT.STATE 4

/-- A copy is accepted: its images are measured and copied to the store. -/
def State.takeBundle (s : State) (b : List Nat) : State :=
  let l := bundleImages b
  let hs := l.map Config.sha256
  let s := { s with
    sec := { s.sec with hashes := hs, measurement := measure hs }
    pwr := { s.pwr with images := l.map (fun (i : List Nat) => i.length) } }
  (s.putFirmware l.flatten).verified

/-- A copy fails: copy B, a host download, or BOOT_FAIL (R528, R531, R533). -/
def State.bundleFailed (s : State) (cause : Nat) : State :=
  let src := s.straps.bootSrc % 4
  match s.pwr.copy with
  | 0 => { s.set GLB.BOOT_STAT.COPY 1 with pwr := { s.pwr with copy := 1, copyAFail := cause } }
  | 1 =>
    let s := s.set GLB.BOOT_STAT.FAIL_CAUSE cause
    if src = 2 then
      let s := ({ s with pwr := { s.pwr with copy := 2 } }.set GLB.BOOT_STAT.COPY 2).set GLB.BOOT_STAT.STATE 1
      s.faultCause GLB.FAULT_STAT.BOOT_WAIT GLB.FAULT_EVT.BOOT_WAIT true
    else s.set GLB.BOOT_STAT.STATE 9
  | _ =>
    let s := (s.set GLB.BOOT_STAT.FAIL_CAUSE cause).set GLB.BOOT_STAT.STATE 1
    if src = 2 then s.faultCause GLB.FAULT_STAT.BOOT_WAIT GLB.FAULT_EVT.BOOT_WAIT true else s

/-- BOOT_VERIFY_DONE: the copy in hand has been read and checked. `flash` is what the flash answers for it, none where it does not
answer (FAIL_CAUSE 5). The host's bundle and the firmware copy lie in the store. -/
def execBootVerifyDone (flash : Option (List Nat)) (s : State) : Host.Outcome State Fault Refusal :=
  .next (if !s.bootIn 2 then s
    else if s.pwr.copy = 3 then
      if s.firmwareGood then s.verified
      else
        let host := s.straps.bootSrc % 4 == 1
        let s := { s with pwr := { s.pwr with copy := if host then 2 else 0 } }
        (s.set GLB.BOOT_STAT.COPY s.pwr.copy).set GLB.BOOT_STAT.STATE (if host then 1 else 2)
    else
      let b := if s.pwr.copy = 2 then some (s.bytesAt 0 (1024 * s.get GLB.BOOT_CTRL.SIZE_KIB)) else flash
      match b with
      | none => s.bundleFailed 5
      | some b =>
        let cause := s.bundleFault b
        if cause = 0 then s.takeBundle b else s.bundleFailed cause)

/-- GLB.BOOT_CTRL (R533, R543): SIZE_KIB, and GO in WAIT_HOST. -/
def State.bootCtrl (s : State) (sizeKib : Nat) (go : Bool) : State :=
  let s := s.set GLB.BOOT_CTRL.SIZE_KIB sizeKib
  if go && s.bootIn 1 then
    (s.set GLB.BOOT_STAT.STATE 2).faultCause GLB.FAULT_STAT.BOOT_WAIT GLB.FAULT_EVT.BOOT_WAIT false
  else s

/-- BOOT_GO (R533). -/
def execBootGo (sizeKib : Fin 16384) (s : State) : Host.Outcome State Fault Refusal :=
  .next (s.access GLB.BOOT_CTRL.off (fun s => s.bootCtrl sizeKib.val true))

/-! ## Step 4: BIST (R534, R603 to R606) -/

/-- BIST_COMPLETE: the signature of LBIST, the failing SRAM groups and instances of MBIST, the duration. Then RING and STACK rise and
Decik starts. -/
def execBistComplete (misr : List Nat) (failMap count ms : Nat) (s : State) : Host.Outcome State Fault Refusal :=
  .next (if !s.bootIn 3 then s
    else
      let kinds := s.pwr.bist
      let l := bit kinds 0
      let m := bit kinds 1
      let lOk := l && (List.range 4).all (fun k => (s.liveWord (TST.EXP.off k) 0).toNat == misr.getD k 0)
      let mOk := m && count == 0
      let s := ((s.setFlag TST.BIST_STAT.VALID true).set TST.BIST_STAT.KIND kinds).set TST.BIST_STAT.PASS (b2n lOk + 2 * b2n mOk)
      let s := s.set TST.BIST_STAT.DUR_MS (min ms 0xFFFF)
      let s := if l then (List.range 4).foldl (fun (s : State) (k : Nat) => s.set (TST.MISR.MISR k) (misr.getD k 0)) s else s
      let s := if m then (s.set TST.MBIST_FAIL.MAP failMap).set TST.MBIST_CNT.COUNT (min count 0xFFFF) else s
      let failed := (l && !lOk) || (m && !mOk)
      let s := { s with pwr := { s.pwr with bist := 0, bistFailed := failed } }
      let s := (s.setFlag GLB.BOOT_STAT.BIST_RUN true).setFlag GLB.BOOT_STAT.BIST_FAIL failed
      s.linksRise.verified)

/-! ## Mailbox and regions at a start (R309, R310, R390) -/

/-- The rings of the channels lie in the MAILBOX region: channel n at n × 512 KiB, its responses 256 KiB further (R357, R390,
notes/assumptions/51.md). READY of the channels that Decik serves. -/
def State.mbxStart (s : State) : State :=
  let at_ (x : Nat) : Nat := s.regionAt 6 x / 4096
  let s := { s with mbx := { s.mbx with origins := [], held := MbxSt.reset.held } }
  (List.range 4).foldl (fun (s : State) (ch : Nat) =>
    let s := (s.set (MBX.CH_REQ_BASE.BASE ch) (at_ (524288 * ch))).set (MBX.CH_RSP_BASE.BASE ch) (at_ (524288 * ch + 262144))
    let s := (s.set (MBX.CH_REQ_HEAD.HEAD ch) 0).set (MBX.CH_REQ_TAIL.TAIL ch) 0
    let s := (s.set (MBX.CH_RSP_HEAD.HEAD ch) 0).set (MBX.CH_RSP_TAIL.TAIL ch) 0
    s.setFlag (MBX.CH_STAT.READY ch) (decide (2 ≤ ch) || ch == s.hostCh)) s

/-- Show the map in force, or the default map where there is none yet. -/
def State.showMap (s : State) : State :=
  let next := s.mem.nextMap
  let rs := if s.mem.regions.isEmpty then imageMap Config.Image.none else s.mem.regions
  let s := s.applyMap rs
  { s with mem := { s.mem with nextMap := next } }

/-! ## Step 5: Decik (R529, R535, R541) -/

/-- Records of step 5: the start itself, copy B, a reserved strap, a failed BIST. -/
def State.startRecords (s : State) : State :=
  let src := if s.pwr.wakeStart then s.get PWR.WAKE_SRC.SRC else 0
  let s := s.post Evt.START 0 ([s.get GLB.RST_CAUSE.CAUSE, src, s.pwr.copy, s.mode] ++ leBytes 4 decikRel)
  let s := if s.pwr.copy = 1 then s.post Evt.BOOT_FALLBACK 0 [s.pwr.copyAFail] else s
  let s := if s.pwr.strapBad then s.post Evt.BOOT_STRAP_INVALID 0 [3] else s
  let s := if s.straps.stackRole = 3 && s.get GLB.RST_CAUSE.CAUSE = 1 && !s.pwr.wakeStart then s.post Evt.STACK_STRAP_INVALID 0 [] else s
  let s := if s.flag GLB.BOOT_STAT.BIST_RUN then s.evt TST.EVT.BIST_DONE 1 Src.BIST_DONE else s
  if s.flag GLB.BOOT_STAT.BIST_FAIL then
    s.post Evt.BIST_FAIL 0 ([s.get TST.BIST_STAT.PASS] ++ leBytes 2 (s.get TST.MBIST_CNT.COUNT))
  else s

/-- DECIK_INIT_DONE: `media` is what durable memory answers (0 well, 1 nothing, 2 no valid header). -/
def execDecikInitDone (media : Fin 3) (s : State) : Host.Outcome State Fault Refusal :=
  .next (if !s.bootIn 4 then s
    else
      let s := (s.setFlag GLB.FW_STAT.RUN true).set GLB.FW_REL.REL decikRel
      let s := { s with cfg := { s.cfg with mediaBad := media.val == 1 } }
      let s := if s.pwr.wakeStart then s.handleLostBanks else s.storeInit 0xFFFF
      let s := s.showMap.startRecorder media.val
      let s := if s.pwr.bistFailed then s.faultCause GLB.FAULT_STAT.BIST GLB.FAULT_EVT.BIST true else s
      let s := s.startRecords.mbxStart
      let s := if s.flag SEC.STAT.TAMPER then s.tamperHold else s.startKeys.set GLB.BOOT_STAT.STATE 5
      s.pendAll.summaryReady)

/-! ## Step 6: the image in force (R387, R529, R541) -/

/-- Is the image of a slot usable: whole, signed, and admitted? -/
def State.slotGood (s : State) (k : Nat) : Bool :=
  let b := (s.cfg.slot k).bytes
  let h := Config.headerOf b
  !b.isEmpty && h.size == b.length && h.format == 1 && h.part == 0x6448 && decide (h.release ≤ decikRel) && s.signed b &&
    s.admits (Config.imageOf b)

/-- The slot whose image the start uses: the active one, else the PREVIOUS one. -/
def State.startSlot (s : State) : Option Nat :=
  if s.cfg.mediaBad then none
  else if (s.cfg.slot s.cfg.active).state == Slot.active && s.slotGood s.cfg.active then some s.cfg.active
  else match s.cfg.slotIn Slot.previous with
    | some k => if s.slotGood k then some k else none
    | none => none

/-- The record where the start takes the PREVIOUS slot: the active one is unusable. -/
def CfgSt.taken (c : CfgSt) (k : Nat) : CfgSt :=
  if k = c.active then { c with inForce := true }
  else { (c.mark c.active Slot.rejected).mark k Slot.active with
    active := k
    inForce := true
    trial := false
    trialStarts := 0
    confirmAt := none }

/-- The region map of the image at a cold start or a wake from SLEEP (R310): the firmware copy and the rings move with it. -/
def State.startRegions (s : State) (i : Config.Image) : State :=
  let s := s.imageMapIn i
  if s.mem.nextMap.isSome && s.pwr.fromSleep then
    let fw := s.firmwareCopy.flatten
    (s.startMap.putFirmware fw).mbxStart
  else s

/-- The path monitors of zones with references are UNKNOWN, the others NOT_COMMISSIONED (R296). -/
def State.startVerdicts (s : State) : State :=
  (List.range 16).foldl (fun (s : State) (z : Nat) =>
    s.set (AUD.PMON_STAT.VERDICT z) (if (s.vox.pmonOf z).refs.isEmpty then Verdict.notCommissioned else Verdict.unknown)) s

/-- CONFIG_LOAD_DONE: the image in force takes effect, its units start, TOPO_CHG is set; a candidate may form a ring (R535). -/
def execConfigLoadDone (s : State) : Host.Outcome State Fault Refusal :=
  .next (if !(s.bootIn 5 && s.decikRuns) then s
    else
      let s := if s.cfg.mediaBad then s else s.startConfig
      let s := match s.startSlot with
        | some k =>
          let c := s.cfg.taken k
          if k = s.cfg.active then State.showCfg { s with cfg := c } else s.writeRecordCfg c
        | none => (State.showCfg { s with cfg := { s.cfg with inForce := false } }).post Evt.CONFIG_MISSING 0 []
      let i := s.cfg.inForceImage
      let s := ((s.startRegions i).takeImage i).startVerdicts
      let s := s.unitsEnable ((i.units.filter (·.2)).map (·.1))
      let s := { s with dio := { s.dio with safe := false } }
      let s := (s.set GLB.BOOT_STAT.STATE 6).topoChange.formingStart
      s.summaryReady)

/-! ## Steps 7 and 8 (R535, R536, R542) -/

/-- The start ends: the service mode, PWR_WAKE, ACTIVE; FAULT_N that stood since WAKE_FAIL is released (R516). -/
def State.finishStart (s : State) : State :=
  let s := s.set GLB.BOOT_STAT.STATE 7
  let s := if s.pwr.wakeStart then s
    else s.set PWR.STAT.MODE (if s.cfg.inForce then Mode.normal else Mode.recovery)
  let s := (s.evt PWR.EVT.WAKE 1 Src.PWR_WAKE).powerTo Pw.active
  let s := if s.pwr.wakeStart then s.count PWR.WAKE_CNT.COUNT 1 else s
  let s := { s with pwr := { s.pwr with failed := false } }
  s.showFault.showVotes.validateStart

/-- RING_READY: writer or master in the layout in force, and LOCKED. -/
def execRingReady (s : State) : Host.Outcome State Fault Refusal :=
  .next (
    let b := s.get GLB.BOOT_STAT.STATE
    if s.decikRuns && (b == 6 || b == 7) && !s.flag GLB.BOOT_STAT.RING_READY && (s.role == 1 || s.role == 2) && s.get SYNC.STAT.STATE == 2 then
      let s := (s.setFlag GLB.BOOT_STAT.RING_READY true).set GLB.BOOT_TIME.READY_MS (min ((s.decik.upTicks - s.pwr.t0) / 48) 0xFFFF)
      if b = 6 then s.finishStart else s
    else s)

/-- Is the node held in the pass-through role (R534, R542)? -/
def State.heldThrough (s : State) : Bool := s.pwr.bistFailed || s.mode == Mode.recovery || !s.cfg.inForce

/-- STARTUP_NO_RING: step 8 ends without ring-ready: both lines disabled (cause 1), the node held in the pass-through role (no such
record), or no link qualified within 1 s (cause 0). -/
def execStartupNoRing (s : State) : Host.Outcome State Fault Refusal :=
  .next (if !(s.bootIn 6 && s.decikRuns) then s
    else if s.get RING.PORT_CFG.LINE_EN = 0 then (s.post Evt.STARTUP_NO_RING 0 [1]).finishStart
    else if s.heldThrough then s.finishStart
    else if (List.range 4).any (fun n => s.linkState n == Lk.qualified || s.inRing n) then s
    else (s.post Evt.STARTUP_NO_RING 0 [0]).finishStart)

/-! ## Decik restarts (R17, R390) -/

/-- What the commit record says at a restart of Decik: a return changes the image, which else runs on. -/
def State.restartConfig (s : State) : State :=
  let old := s.cfg.image
  let active := s.cfg.active
  let s := if s.cfg.mediaBad then s else s.startConfig
  if s.cfg.active == active && s.cfg.inForce then State.showCfg { s with cfg := { s.cfg with image := old } }
  else
    let new := s.cfg.inForceImage
    ((s.takeImage new).imageUnits old new).showCfg

/-- Channel resets that were asked for while Decik was stopped (R368). -/
def State.heldResets (s : State) : State :=
  (List.range 4).foldl (fun (s : State) (ch : Nat) =>
    if s.flag (MBX.CH_STAT.RESET ch) then (s.setFlag (MBX.CH_STAT.RESET ch) false).chReset ch else s) s

/-- DECIK_RESTART_DONE: Decik runs again from the firmware copy. Not after a second stop, nor while the copy is lost (R316). -/
def execDecikRestartDone (s : State) : Host.Outcome State Fault Refusal :=
  .next (if s.decikRuns || s.flag GLB.FW_STAT.HALTED || !(s.awake || s.pwrState == Pw.starting) || s.get GLB.BOOT_STAT.STATE < 6 ||
      s.get GLB.BOOT_STAT.STATE = 9 || !s.firmwareGood then s
    else
      let s := (s.setFlag GLB.FW_STAT.RUN true).faultCause GLB.FAULT_STAT.DECIK GLB.FAULT_EVT.DECIK false
      let s := s.flushPending.handleLostBanks
      let s := (List.range 4).foldl (fun (s : State) (ch : Nat) => s.setFlag (MBX.CH_STAT.READY ch) (decide (2 ≤ ch) || ch == s.hostCh)) s
      let s := (s.finishAll (fun _ => true) Status.aborted []).heldResets
      s.restartConfig.summaryReady)

end Sys2Proof.Machine
end

