-- ==== Sys2Proof/Machine/HostPort.lean ====
section
/-! DEFINITION. Register writes of the host (R9 to R12), the SPI target (R326 to R328), the I2C management target (R329 to R333),
PCIE_PERST_N (R525) and bridge reads of registers at a target (R348, R349). -/

namespace Sys2Proof.Machine

/-! ## Register writes -/

/-- The channel whose doorbell lies at an offset. -/
def doorbellAt (off : Nat) : Option (Fin 4) := [(0 : Fin 4), 1, 2, 3].find? (fun ch => MBX.CH_DB.off ch.val == off)

/-- A write of a whole aligned register word by the host: what Decik or the boot ROM does at once at a doorbell and at BOOT_CTRL,
the rest by the register (R9). -/
def State.hostWrite (s : State) (off : Nat) (w : Word) : State :=
  match doorbellAt off with
  | some ch => s.access off (fun s => if s.chWritable ch then s.lookAt ch 64 else s)
  | none =>
    if off == GLB.BOOT_CTRL.off then
      s.access off (fun s => s.bootCtrl (GLB.BOOT_CTRL.SIZE_KIB.of w) (GLB.BOOT_CTRL.GO.of w == 1))
    else s.regWrite off w

/-- Does a write name a whole aligned word of BAR0 (R11)? -/
def wholeWord (addr enables : Nat) : Bool := addr % 4 == 0 && enables == 15 && decide (addr < 0x40000)

/-- REGISTER_WRITE (R9 to R12): a write with fewer than four byte enables or to an unaligned address has no effect but to
end a capture (R46); the effect of writing 1 to a reserved bit is undefined (R10). -/
def execRegisterWrite (addr : Nat) (enables : Fin 16) (w : Word) (s : State) : Host.Outcome State Fault Refusal :=
  if !wholeWord addr enables.val then .next { s with clk := { s.clk with cap := none } }
  else if reservedHit addr w && s.domOn Dom.core && s.domOn (regDomain addr) then .refused .reservedBits
  else .next (s.hostWrite addr w)

/-! ## SPI (R326 to R328) -/

abbrev Spi.ok : Nat := 0xA0
abbrev Spi.unmapped : Nat := 0xA1
abbrev Spi.store : Nat := 0xA2
abbrev Spi.protect : Nat := 0xA3
abbrev Spi.late : Nat := 0xA4

/-- Is the SPI port the host's, and up (R320)? -/
def State.spiUp (s : State) : Bool := s.straps.hostSpi && s.domOn Dom.core

/-- Does an address reach the local store window? -/
def spiWindow (addr : Nat) : Bool := addr / 2 ^ 28 == 1

/-- One word of a read: status, word. The data beside 0xA1 and 0xA2 are not stated: free values. -/
def State.spiWord (s : State) (addr : Nat) : Nat × Nat × State :=
  if addr < 0x40000 then
    let (ph, s) := s.phaseNow
    let r := s.readBytes addr 4 ph
    (Spi.ok, r.1, r.2)
  else if spiWindow addr && s.flag BRG.LWIN_CTRL.EN then
    let a := s.localOffset (addr % 2 ^ 28)
    if s.cinchHolds a 4 then (Spi.late, 0xFFFFFFFF, s)
    else
      let (bytes, err, s) := s.storeRead a 4
      if err then
        let (x, s) := s.fresh
        (Spi.store, x % 2 ^ 32, s.count BRG.LWIN_STAT.ERR_CNT 1)
      else (Spi.ok, leValue bytes, s)
  else
    let (x, s) := s.fresh
    (Spi.unmapped, x % 2 ^ 32, s)

/-- What the node drives for one word that is ready after `wait` wait bytes. A read that is not ready after 64 is carried out all the
same (R327). -/
def State.spiReadOne (s : State) (addr wait : Nat) : List Nat × State :=
  let (st, x, s) := s.spiWord addr
  if 64 < wait || st == Spi.late then (List.replicate 64 0 ++ [Spi.late, 0xFF, 0xFF, 0xFF, 0xFF], s)
  else (List.replicate wait 0 ++ [st] ++ (leBytes 4 x).reverse, s)

/-- A read frame: one word for each entry of `waits`, `step` bytes apart. -/
def State.spiRead (s : State) (addr step : Nat) (waits : List Nat) : State :=
  if !s.spiUp then s
  else
    let r := (List.range waits.length).foldl (fun (acc : List Nat × State) (i : Nat) =>
      let x := acc.2.spiReadOne ((addr + step * i) % 2 ^ 32) (waits.getD i 0)
      (acc.1 ++ x.1, x.2)) (([], s) : List Nat × State)
    r.2.emit (.spi r.1)

/-- SPI_READ. -/
def execSpiRead (addr : Nat) (waits : List Nat) (s : State) : Host.Outcome State Fault Refusal := .next (s.spiRead addr 4 waits)

/-- SPI_READ_FIXED. -/
def execSpiReadFixed (addr : Nat) (waits : List Nat) (s : State) : Host.Outcome State Fault Refusal := .next (s.spiRead addr 0 waits)

/-- One word of a write: its status byte; none where the word sets a reserved bit of a register (R10). -/
def State.spiWriteOne (s : State) (addr : Nat) (w : Word) : Option (Nat × State) :=
  if addr < 0x40000 then
    if addr % 4 != 0 then some (Spi.ok, s)
    else if reservedHit addr w && s.domOn (regDomain addr) then none
    else some (Spi.ok, s.hostWrite addr w)
  else if spiWindow addr then
    match s.localWrite (addr % 2 ^ 28) ((leBytes 4 w.toNat).map some) with
    | (.done, s) => some (Spi.ok, s)
    | (.refused, s) => some (Spi.protect, s)
    | (.error, s) => some (Spi.store, s)
    | (.closed, s) => some (Spi.unmapped, s)
  else some (Spi.unmapped, s)

/-- A write frame: its words in order, the status bytes. -/
def State.spiWrites (s : State) (addr step : Nat) (sts : List Nat) : List Word → Option State
  | [] => some (s.emit (.spi sts))
  | w :: rest =>
    match s.spiWriteOne addr w with
    | some (st, s) => State.spiWrites s ((addr + step) % 2 ^ 32) step (sts ++ [st]) rest
    | none => none

/-- The outcome of a write frame. -/
def State.spiWrite (s : State) (addr step : Nat) (words : List Word) : Host.Outcome State Fault Refusal :=
  if !s.spiUp then .next s
  else match s.spiWrites addr step [] words with
    | some s => .next s
    | none => .refused .reservedBits

/-- SPI_WRITE. -/
def execSpiWrite (addr : Nat) (words : List Word) (s : State) : Host.Outcome State Fault Refusal := s.spiWrite addr 4 words

/-- SPI_WRITE_FIXED. -/
def execSpiWriteFixed (addr : Nat) (words : List Word) (s : State) : Host.Outcome State Fault Refusal := s.spiWrite addr 0 words

/-- SPI_UNKNOWN_COMMAND (R326). -/
def execSpiUnknownCommand (cmd : Fin 256) (s : State) : Host.Outcome State Fault Refusal :=
  .next (if !s.spiUp || [0x0B, 0x0F, 0x02, 0x03].contains cmd.val then s else s.count BRG.SPI_CNT.CMD_ERR 1)

/-- SPI_FRAME_TRUNCATED (R327). -/
def execSpiFrameTruncated (s : State) : Host.Outcome State Fault Refusal :=
  .next (if !s.spiUp then s else (s.count BRG.SPI_CNT.FRAME_ERR 1).setFlag BRG.HOST_EVT.SPI_ERR true)

/-! ## I2C (R329 to R333) -/

/-- One byte of the packet error code: polynomial 0x07, not reflected (R329). -/
def pecByte (c x : Nat) : Nat :=
  (List.range 8).foldl (fun (v : Nat) (_ : Nat) => if 128 ≤ v then Nat.xor (2 * v % 256) 7 else 2 * v) (Nat.xor c x % 256)

/-- The packet error code over bytes. -/
def pec (l : List Nat) : Nat := l.foldl pecByte 0

/-- The node's address byte, for a read or a write. -/
def State.i2cAddress (s : State) (read : Bool) : Nat := 2 * (0x58 + s.straps.i2cAdr % 8) + b2n read

/-- Does the target serve: from the end of the logic step on (R333)? -/
def State.i2cUp (s : State) : Bool :=
  (s.awake || s.pwrState == Pw.entering || (s.pwrState == Pw.starting && (s.pwr.step == 0 || s.pwr.step == 5))) && s.pwr.resetWait == 0

/-- Is a channel 2 request unanswered? -/
def State.i2cBusy (s : State) : Bool := s.reqFill 2 != 0 || (s.opensOf 2).any (fun r => r.pend != .answered)

/-- Submit a request to channel 2 with a tag of the node's own (R330). -/
def State.i2cSubmit (s : State) (opcode : Nat) (payload : List Nat) : State :=
  if (s.region 6).isNone then s
  else
    let h := s.get (MBX.CH_REQ_HEAD.HEAD 2)
    let s := s.putBytes (s.reqEntry 2 h) (requestHeader opcode (h + 1) payload.length 0 0 ++ payload)
    s.set (MBX.CH_REQ_HEAD.HEAD 2) ((h + 1) % 128)

/-- I2C_REQUEST_WRITE (R330): the bytes after the address byte: OPCODE, LEN, payload, packet error code. A transaction whose length
does not agree with LEN ends with no right code (notes/assumptions/58.md). -/
def execI2cRequestWrite (bytes : List Nat) (s : State) : Host.Outcome State Fault Refusal :=
  .next (if !s.i2cUp then s
    else if s.i2cBusy then (s.count BRG.I2C_CNT.NACK_BUSY 1).emit .i2cNack
    else
      let n := bytes.getD 2 0
      let good := decide (n ≤ 32) && bytes.length == n + 4 &&
        pec (s.i2cAddress false :: bytes.take (n + 3)) == bytes.getD (n + 3) 0
      if good then s.i2cSubmit (leValue (bytes.take 2)) ((bytes.drop 3).take n) else s.count BRG.I2C_CNT.PEC_ERR 1)

/-- The first seven bytes of a read transaction (R331), from the always-on domain. -/
def State.i2cHead (s : State) (ready : Bool) : List Nat :=
  [b2n ready + 2 * b2n s.decikRuns + 4 * b2n (s.flag PWR.STAT.FAULT_N) + 8 * b2n (s.flag SEC.STAT.TAMPER) + 16 * s.pwrState] ++
    leBytes 4 (s.strapWord GLB.ID.off).toNat ++ [s.get PWR.WAKE_SRC.SRC, 0]

/-- The whole of a read transaction without its packet error code. -/
def State.i2cBody (s : State) : List Nat :=
  let ready := s.rspFill 2 != 0
  if ready then
    let e := s.bytesAt (s.rspEntry 2 (s.get (MBX.CH_RSP_TAIL.TAIL 2))) 4096
    let n := min (fieldOf e 4 2) 3584
    s.i2cHead true ++ (e.drop 6).take 2 ++ leBytes 2 n ++ (e.drop 16).take n
  else s.i2cHead false ++ (if s.i2cBusy then [1, 0] else [])

/-- I2C_READ (R331): the host reads `n` bytes. A response read to its end with its code is consumed. -/
def execI2cRead (n : Nat) (s : State) : Host.Outcome State Fault Refusal :=
  .next (if !s.i2cUp then s
    else
      let b := s.i2cBody
      let all := b ++ [pec (s.i2cAddress true :: b)]
      let ready := s.rspFill 2 != 0
      let s := s.emit (.i2c (all.take n))
      if ready && decide (all.length ≤ n) then
        (s.set (MBX.CH_RSP_TAIL.TAIL 2) ((s.get (MBX.CH_RSP_TAIL.TAIL 2) + 1) % 128)).flushHeld 2 64
      else s)

/-- I2C_ADDRESS_WAKE (R333): the address matches in STANDBY, SLEEP, WAKE_FAIL, during an entry, or during the wake; the byte is left
unacknowledged. A match that starts a wake is counted when CORE is up. -/
def execI2cAddressWake (s : State) : Host.Outcome State Fault Refusal :=
  .next (
    let st := s.pwrState
    if s.isOff || s.i2cUp && st != Pw.entering then s
    else
      let starts := (st == Pw.standby || st == Pw.sleep || st == Pw.wakeFail) && s.wakeEnabled 2
      let s := s.emit .i2cNack
      let s := if starts then { s with pwr := { s.pwr with i2cMatches := s.pwr.i2cMatches + 1 } } else s
      s.wakeEvents [(2, 0)])

/-! ## PCIE_PERST_N and bridge reads -/

/-- PCIE_PERST (R525, R511): low in ACTIVE and QUIET resets the endpoint and its configuration space, and the link goes down with the
BRG window registers kept; the rising edge is wake source 10 elsewhere. -/
def execPciePerst (high : Bool) (s : State) : Host.Outcome State Fault Refusal :=
  .next (
    if s.straps.hostSpi || s.isOff then s
    else if s.awake then
      (if high || !s.domOn Dom.pcie then s
        else
          let s := if s.flag BRG.HOST_STAT.LINK_UP then s.pcieDown else s
          State.irqLevel { s.setFlag BRG.HOST_STAT.MSIX_EN false with msix := State.reset.msix })
    else if high then s.wakeEvents [(10, 0)] else s)

/-- READ at the target: the store under the map; a register, at TYPE = 1, where RACC_CTRL allows it. -/
def State.serveRead (s : State) (r : TgtReq) : Served :=
  if !r.regs then s.tgtRead r.off r.len
  else if !s.flag BRG.RACC_CTRL.EN || !s.flag BRG.RACC_CTRL.REG_RD then ⟨BrgSt.notPermitted, [], s⟩
  else
    let (ph, s) := s.phaseNow
    let x := s.readBytes r.off r.len ph
    ⟨BrgSt.ok, leBytes r.len x.1, x.2⟩

/-- BRIDGE_READ_SERVE (R348, R349): the request at the front of the target's queue. -/
def execBridgeReadServe (s : State) : Host.Outcome State Fault Refusal := .next (s.serveFront BrgOp.read State.serveRead)

end Sys2Proof.Machine
end

