-- ==== Sys2Proof/Machine/Compose.lean ====
section
/-! DEFINITION. Events that touch several units of the node: status blocks, frames, the line merge, cells, the CAB_ACTIVE input,
and the switch ticks of layouts, shrinks and merges, with the staging of the node's own region. -/

namespace Sys2Proof.Machine

/-! ## Link status blocks (R57 to R61) -/

/-- Keep what a status block reports. -/
def State.noteStatus (s : State) (n : LinkIx) (b : StatusBlock) : State :=
  s.setLink n { s.link n with partnerState := b.state, partnerUid := some b.uid16 }

/-- Do the UID bits differ from those of the block before (R60)? -/
def State.uidDiffers (s : State) (n : LinkIx) (b : StatusBlock) : Bool :=
  match (s.link n).partnerUid with
  | some u => u != b.uid16
  | none => false

/-- A status block arrives on a link (R59 to R61). -/
def State.statusBlock (s : State) (n : LinkIx) (b : StatusBlock) : State :=
  let changed := s.uidDiffers n b
  let st := s.linkState n
  if st == Lk.lock then ((s.noteStatus n b).setFlag (RING.LINKSTAT.PARTNER_QUAL n) b.qualified).linkLockCheck n
  else if st == Lk.qualifying then
    (if changed then (s.qualReceiveError n .uidChanged).noteStatus n b
     else if b.state < Lk.lock then (s.linkQualError n (s.flag (RING.LINKSTAT.BLOCK_LOCK n))).noteStatus n b
     else ((s.noteStatus n b).setFlag (RING.LINKSTAT.PARTNER_QUAL n) b.qualified).linkQualCheck n)
  else if s.linkUp n then
    (if b.state < Lk.qualified then s.linkLost n Lk.detect
     else
       let s := if changed then s.count (RING.LINKERR.ERR_CNT n) 1 else s
       (s.noteStatus n b).setFlag (RING.LINKSTAT.PARTNER_QUAL n) b.qualified)
  else s

/-- STATUS_BLOCK_RECEIVE (R59). -/
def execStatusBlockReceive (n : LinkIx) (b : StatusBlock) (s : State) : Host.Outcome State Fault Refusal :=
  .next (s.statusBlock n b)

/-! ## Frames (R77 to R95, R117 to R125, R141 to R143, R205) -/

/-- Does the frame reach the ring engine: over a link in service, or as the own frame of a launcher whose loopback returns it
(R63, R67)? -/
def State.frameReaches (s : State) (f : RxFrame) : Bool :=
  s.domOn Dom.ring && (s.linkUp (linkOf f.line f.fore) || (s.launches && f.bytes.hMaster == s.uid))

/-- A frame arrives: what it does to the node (R77, R82, R119, R205). -/
def State.frameIn (s : State) (f : RxFrame) : State :=
  let s := if f.truncated then s else s.otherMaster f.bytes
  let acc := s.accepts f
  let out := s.outPass f.line f.fore
  let s := s.framePass f
  let s := if acc then s.ringHeartbeat.netFrame f.bytes else s
  let s := s.rivalFrame f
  if s.launches && f.bytes.hMaster == s.uid && !f.truncated && f.bytes.hdrOk then s.masterReturn f
  else s.followerFrame f out

/-- FRAME_RECEIVED (R77). -/
def execFrameReceived (f : RxFrame) (s : State) : Host.Outcome State Fault Refusal :=
  .next (if s.frameReaches f then s.frameIn f else s)

/-! ## The line merge (R96, R212, R490) -/

/-- The tick number n of the tick whose sequence number is given: at or before the current tick. -/
def State.fullTick (s : State) (tseq : Nat) : Nat := s.clk.n - (s.tickSeq + 2 ^ 32 - tseq) % 2 ^ 32

/-- Does a merged control word carry TOPO_CHG (R84)? -/
def State.topoMarked (s : State) (l : Layout) : Bool :=
  (List.range l.size).any (fun i => l.owns (i + 1) && bit (s.ring.merged.at (ctrlOff (i + 1) + 1)) 7)

/-- The ring image that a head sends to its members: a 64-byte header, then the merged audio, control and process segments
(R490). -/
def State.ringImage (s : State) (tseq : Nat) : List Nat :=
  let head := leBytes 4 tseq ++ leBytes 2 (s.get RING.ENG_STAT.TOPO) ++ leBytes 2 (s.get RING.LAYOUT.LAYOUT_VER) ++
    leBytes 4 (s.get RING.CONCEAL_MAP.MAP) ++ [s.position, b2n s.net.agreed.isSome] ++
    leBytes 4 (match s.net.agreed with | some t => t | none => 0)
  (head ++ List.replicate 64 0).take 64 ++ s.ring.merged.slice 448 2048 ++ s.ring.merged.slice 192 256 ++
    s.ring.merged.slice 2496 2048

/-- Does a head serve members (R489, R490)? -/
def State.hasMembers (s : State) : Bool := s.isHead && [1, 2, 3].any (fun sub => s.admitted sub)

/-- LINE_MERGE: the merge, and what reads its result once a tick. -/
def State.lineMerge (s : State) (l : Layout) (tseq : Nat) : State :=
  let s := (s.readSync tseq).tickReach l tseq
  let s := (s.mergeFrame tseq).shrinkCheck tseq
  let s := if s.isMaster && s.phase == Phase.idle && s.topoMarked l then s.inaugTrigger else s
  let s := (s.netMerge.readRing (s.fullTick tseq - 1)).driveOutputs
  if s.hasMembers then s.emit (.stack 1 (s.ringImage tseq)) else s

/-- LINE_MERGE (R96). -/
def execLineMerge (tseq : Nat) (s : State) : Host.Outcome State Fault Refusal :=
  .next (match s.layout? with
    | some l => if s.domOn Dom.ring then s.lineMerge l tseq else s
    | none => s)

/-! ## Cells (R106, R107, R489) -/

/-- A head delivers to its members every accepted cell whose DST_SUB names a member or is 0xFF (R489). -/
def State.cellToMembers (s : State) (c : Bytes) : State :=
  let st := c.at 0 / 64
  let named := c.at 5 == 0xFF || s.admitted (c.at 5)
  if s.hasMembers && named && (st == 1 || st == 2) && c.le 252 4 == crc32c (c.slice 0 252) &&
      c.le 12 2 == s.get RING.ENG_STAT.TOPO && (c.at 4 == 0xFF || c.at 4 == s.cellAddr) &&
      (!bit (c.at 0) 5 || (s.openCell c).isSome) then
    s.emit (.stack 1 (c.slice 0 256))
  else s

/-- What a whole message does, by its kind. -/
def State.message (s : State) (m : Message) : State :=
  if m.kind == Kind.mailbox then s.mailboxMessage m
  else if m.kind == Kind.eth then s.relayIn m.bytes
  else if m.kind == Kind.bridgeReq then s.brgDeliver (tgtReq m.srcPos m.srcSub m.bytes)
  else if m.kind == Kind.bridgeRsp then { s with brg := { s.brg with rsps := s.brg.rsps ++ [brgRsp m.srcPos m.srcSub m.bytes] } }
  else if m.kind == Kind.inaug then s.inaugMessage m
  else if m.kind == Kind.layout then s.layoutMessage m
  else s

/-- CELL_RECEIVE (R107). -/
def execCellReceive (cell : Bytes) (s : State) : Host.Outcome State Fault Refusal :=
  .next (if s.domOn Dom.ring then
      let (s, m) := (s.cellToMembers cell).readCell cell
      match m with
      | some m => s.message m
      | none => s
    else s)

/-! ## Staging the own region (R84 to R88, R92, R93, R487) -/

/-- Are cells staged for a line that carries frames (R84)? -/
def State.messagePend (s : State) : Bool :=
  (s.lineCarries .a && !s.ring.cellsA.isEmpty) || (s.lineCarries .b && !s.ring.cellsB.isEmpty)

/-- NSTATE of the control word (R16, R84, R549). -/
def State.nstateByte (s : State) : Nat :=
  128 * b2n s.ring.topoChg + 64 * b2n s.messagePend + 32 * b2n s.sleepAck + s.nodeState

/-- SYNCQ of the control word: the state, and the offset estimate in units of 10 ns. -/
def State.syncQ (s : State) : Nat :=
  64 * s.syncState + min ((toSigned 32 (s.get SYNC.OFFSET.RESULT)).natAbs / 160) 63

/-- The node's own alarm bits, in ALARM format; which status each shows is notes/assumptions/60.md. -/
def State.ownAlarms (s : State) : Nat :=
  let bits : List Bool := [s.getBit RING.LINE_STAT.DEGRADED_A 0, s.getBit RING.LINE_STAT.DEGRADED_B 0,
    s.get GLB.OVR_STAT.CORE_OVR != 0,
    s.flag STORE.ERR_EVT.UE || (List.range 16).any (fun b => s.bank b == Bank.lost),
    s.flag GLB.FAULT_STAT.TAMPER, s.get PWR.RAIL_STAT.FAULT != 0,
    (List.range 16).any (fun z => s.get (AUD.PMON_STAT.VERDICT z) == Verdict.degraded),
    s.evr.degraded, s.get MBX.UNIT_CNT.DIVERGED != 0]
  bits.foldr (fun b m => b2n b + 2 * m) 0

/-- The ALARM field: at a head, with the bits of every admitted member's last record (R488). -/
def State.alarmField (s : State) : Nat := if s.isHead then Nat.lor s.ownAlarms s.memberAlarms else s.ownAlarms

/-- The control word of the frame staged (table "control word"). -/
def State.controlWord (s : State) : List Nat :=
  [(s.ring.alive + 1) % 256, s.nstateByte, s.awakeByte, s.syncQ] ++ leBytes 2 s.alarmField ++ leBytes 2 (s.get RED.EPOCH.FOLLOWED)

/-- A wafer of the layout in the own region: its owned stream's word, or zero with no sample (R85 to R87, R239). -/
def State.waferWord (s : State) (stream n : Nat) : Nat :=
  match s.aud.streams.find? (fun (o : StreamSt) => o.id == stream) with
  | some o => let w := s.streamWafer o n; if bit w 7 then w else 0
  | none => 0

/-- A process unit: what the application stages, with PTAG (R88); zero with no data. -/
def unitStaged (pdata : List (Nat × List Nat)) (stream n : Nat) : List Nat :=
  match pdata.find? (fun e => e.1 == stream) with
  | some e => ((e.2.map (· % 256)) ++ List.replicate 15 0).take 15 ++ [128 + n % 8]
  | none => List.replicate 16 0

/-- The own region for the frame after tick `n`: wafers, units, the members' records, and the control word (R83 to R88). -/
def State.ownRegion (s : State) (l : Layout) (p n : Nat) (pdata : List (Nat × List Nat)) : Bytes :=
  let b := (l.wafers.filter (fun r => r.pos == p)).foldl (fun (b : Bytes) (r : OwnRow) =>
    b.setLe (waferOff r.index) 4 (s.waferWord r.stream n)) ([] : Bytes)
  let b := (l.units.filter (fun r => r.pos == p)).foldl (fun (b : Bytes) (r : OwnRow) =>
    b.setSlice (Machine.unitOff r.index) (unitStaged pdata r.stream n)) b
  (s.placeMembers l p b).setSlice (ctrlOff p) s.controlWord

/-- Stage the region of the next frame. -/
def State.stageRegion (s : State) (n : Nat) (pdata : List (Nat × List Nat)) (done : Bool) : State :=
  match s.layout? with
  | some l =>
    if s.writes then { s with ring := { s.ring with staging := s.ownRegion l s.position n pdata, stagingDone := done } }
    else { s with ring := { s.ring with staging := [], stagingDone := false } }
  | none => s

/-! ## The CAB_ACTIVE input (R113, R544) -/

/-- Report the level: the master acts on it, another node sends CAB_REPORT. -/
def State.cabReport (s : State) : State :=
  if s.isMaster then s.inaugTrigger
  else match s.layout? with
    | some l => s.stageMessage Kind.inaug l.masterPos 0xFF [7, b2n s.pins.cabActive]
    | none => s

/-- CAB_ACTIVE_CHANGE (R113): during an inauguration the report follows the switch. -/
def execCabActiveChange (on : Bool) (s : State) : Host.Outcome State Fault Refusal :=
  .next (let changed := s.pins.cabActive != on
    let s := s.cabLevel on
    if !changed || !s.decikRuns || s.position == 0 then s
    else if s.phase == Phase.idle then s.cabReport
    else { s with inaug := { s.inaug with cabPend := true } })

/-! ## A new layout takes effect (R133, R145, R207, R338, R370, R374, R401, R548) -/

/-- The ring notification: TOPO, LAYOUT, position, orientation, the master's UID. -/
def State.ringNote (s : State) : State :=
  s.notify Note.ring (leBytes 2 (s.get RING.ENG_STAT.TOPO) ++ leBytes 2 (s.get RING.LAYOUT.LAYOUT_VER) ++
    [s.position, s.get RING.ENG_STAT.ORIENT] ++ leBytes 8 s.ring.followUid.toNat)

/-- A switch under the running TOPO that names another master is a handover (R207; notes/assumptions/60.md). -/
def State.handoverDone (s : State) (topo : Nat) (master : DWord) : State :=
  if s.get RING.ENG_STAT.TOPO == topo && s.ring.followUid != master && master != 0 then
    s.evt RED.EVT.HANDOVER 1 Src.RING_MASTER_CHANGE
  else s

/-- What follows a switch of the topology or the layout at its tick. -/
def State.afterTopology (s : State) : State :=
  let s := s.remoteUnits.netRestart.brgTopology.remoteTopology.ringNote
  let s := s.finishAll (fun p => match p with | .renumber _ => true | _ => false) Status.ok
    (leBytes 2 (s.get RING.ENG_STAT.TOPO) ++ leBytes 2 (s.get RING.LAYOUT.LAYOUT_VER))
  let s := s.finishAll (fun p => p == Pend.handover) Status.ok (leBytes 4 s.tickSeq)
  let s := if s.inaug.cabPend && s.phase == Phase.idle then
      State.cabReport { s with inaug := { s.inaug with cabPend := false } } else s
  s.stageRegion (s.clk.n - 1) [] true

/-- LAYOUT_SWITCH (R133). -/
def execLayoutSwitch (s : State) : Host.Outcome State Fault Refusal :=
  .next (if !s.flag RING.INAUG_STAT.SW_PEND && !s.inaug.announced then s
    else (s.layoutSwitch.handoverDone (s.get RING.ENG_STAT.TOPO) s.ring.followUid).afterTopology)

/-- FAST_SHRINK_APPLY (R145). -/
def execFastShrinkApply (s : State) : Host.Outcome State Fault Refusal :=
  .next (if s.inaug.shrink.isNone then s else s.fastShrink.afterTopology)

/-- The tick number of the merge tick, in the losing island's own numbering. -/
def State.mergeTick (s : State) : Nat :=
  let d := s.ticksTo s.inaug.merge.mergeTick
  if d < 2 ^ 31 then s.clk.n + d else s.clk.n

/-- MERGE_STEP (R151, R285, R394): what the losing island's nodes held for ticks after it is cancelled, then the step. -/
def execMergeStep (s : State) : Host.Outcome State Fault Refusal :=
  .next (if !s.stepWaits then s
    else (((s.voiceMerge s.mergeTick).cancelTimed s.inaug.merge.mergeTick).cfgCancel).mergeStep)

end Sys2Proof.Machine
end

