-- ==== Sys2Proof/Machine/Tick.lean ====
section
/-! DEFINITION. The tick boundary (R22): the work that the spec does in every tick and that has no command of its own, in the order
of the data path, for the tick that ends and the frame of the tick that begins. -/

namespace Sys2Proof.Machine

/-! ## DSP jobs (R39 to R43) -/

/-- A job at the boundary (R39 to R42): `unfinished`, its slice did not complete in tick `k`. -/
def Job.atBoundary (j : Job) (unfinished : Bool) (k : Nat) : Job :=
  if j.stopped then j
  else if j.block ≤ 1 then { j with stale := unfinished, ran := j.ran || !unfinished }
  else
    let gone := j.abandoned || unfinished
    if (k + 1) % j.block = 0 then
      { j with abandoned := false, blockStale := gone, ran := j.ran || !gone, stale := unfinished || gone }
    else { j with abandoned := gone, stale := unfinished || j.blockStale }

/-- The jobs at the boundary. `seen`: per core, the jobs scheduled so far; `late`: per overrunning core, the place of the first
unfinished job. Every later one on the core is unfinished too (R39). -/
def jobsAtBoundary (late : List (Nat × Nat)) (k : Nat) : List Job → List Nat → List Job
  | [], _ => []
  | j :: t, seen =>
    let i := seen.getD j.core 0
    let unfinished := late.any (fun e => e.1 == j.core && decide (e.2 ≤ i))
    j.atBoundary unfinished k :: jobsAtBoundary late k t (if j.stopped then seen else seen.set j.core (i + 1))

/-- The record of a core's overruns, at most once per second (R43). -/
def State.overrunRecord (s : State) (c : Nat) : State :=
  let sec := s.decik.upTicks / 48000
  if s.decikRuns && s.decik.ovrRecAt.getD c none != some sec then
    let n := s.decik.ovrSince.getD c 0
    let s := s.post Evt.TICK_OVERRUN c (leBytes 4 (n % 2 ^ 32))
    { s with decik := { s.decik with ovrSince := s.decik.ovrSince.set c 0, ovrRecAt := s.decik.ovrRecAt.set c (some sec) } }
  else s

/-- A core that overran: OVR_STAT, OVR_CNT and the record (R39, R43). -/
def State.coreOverrun (s : State) (c : Nat) : State :=
  let s := (s.evtBit GLB.OVR_STAT.CORE_OVR c Src.TICK_OVERRUN).count (GLB.OVR_CNT.COUNT c) 1
  let n := s.decik.ovrSince.getD c 0 + 1
  State.overrunRecord { s with decik := { s.decik with ovrSince := s.decik.ovrSince.set c n } } c

/-- OVR_LAST describes the lowest-numbered core of the tick (R45). -/
def State.overrunLast (s : State) (late : List (Nat × Nat)) : State :=
  match (List.range 4).findSome? (fun c => late.find? (fun e => e.1 == c)) with
  | some e => ((s.set GLB.OVR_LAST.TICK (s.tickSeq % 2 ^ 16)).set GLB.OVR_LAST.JOB (e.2 % 256)).set GLB.OVR_LAST.CORE e.1
  | none => s

/-- DSP_LOADn.PEAK: the most cycles used in any tick. -/
def State.loadPeaks (s : State) (cycles : List Nat) : State :=
  (List.range 4).foldl (fun (s : State) (c : Nat) =>
    s.set (GLB.DSP_LOAD.PEAK c) (max (s.get (GLB.DSP_LOAD.PEAK c)) (min (cycles.getD c 0) 0xFFFF))) s

/-- The cluster at the boundary of the tick that ends. -/
def State.tickJobs (s : State) (t : TickIn) (k : Nat) : State :=
  if !s.domOn Dom.dsp then s
  else
    let late := t.late.filter (fun e => decide (e.1 < 4) && decide (e.2 < (s.jobs.filter (fun (j : Job) => j.core == e.1 && !j.stopped)).length))
    let s := { s with jobs := jobsAtBoundary late k s.jobs [0, 0, 0, 0] }
    let cores := (List.range 4).filter (fun c => late.any (fun e => e.1 == c))
    ((cores.foldl (fun (s : State) (c : Nat) => s.coreOverrun c) s).overrunLast late).loadPeaks t.cycles

/-! ## Twins (R191, R192) -/

/-- A word of a twin record or a host ring: the sample in bits 31 to 8, VALID in bit 7. -/
def wordSample (w : Nat) : Sample := if bit w 7 then .fresh (toSigned 24 (w / 256 % 2 ^ 24)) 0 else .none

/-- What one record gives: at the follower the lead's host samples and cells; at both, the AES67 samples. -/
def State.twinTake (s : State) (k : Nat) (r : TwinRecord) : State :=
  let s := r.aes.foldl (fun (s : State) (e : Nat × Nat) => s.deliver (srcAes + e.1 % 256) k (wordSample e.2)) s
  if s.twinState == 2 then
    let s := r.host.foldl (fun (s : State) (e : Nat × Nat) => s.deliver (srcHost + e.1 % 64) k (wordSample e.2)) s
    let cells := r.cells.map (fun c => (⟨c, 1⟩ : StagedCell))
    let s := { s with ring := { s.ring with cellsB := s.ring.cellsB ++ cells } }
    r.cells.foldl (fun (s : State) (c : Bytes) =>
      let s := { s with ring := { s.ring with cseq := (c.le 6 2 + 1) % 2 ^ 16 } }
      if bit (c.at 0) 5 then s.set RING.NONCE.CTR (c.le 16 4 + 1) else s) s
  else s

/-- The records of the tick before take effect at the boundary of their tick + 2 (R191). -/
def State.twinApply (s : State) (k : Nat) : State :=
  let prev := (s.tickSeq + 2 ^ 32 - 1) % 2 ^ 32
  let now := s.red.records.filter (fun (r : TwinRecord) => r.tick == prev)
  let s := now.foldl (fun (s : State) (r : TwinRecord) => s.twinTake k r) s
  { s with red := { s.red with records := s.red.records.filter (fun (r : TwinRecord) => seqLater r.tick prev) } }

/-- The host words that the lead received in the tick: they count for tick `k` + 1 (R192). -/
def State.hostWords (s : State) (k : Nat) : List (Nat × Nat) :=
  (List.range 64).map (fun h =>
    let p := s.sampleAt (srcHost + h) (k + 1)
    (h, ofSigned 24 p.value * 256 + 128 * b2n p.valid))

/-- The changes that fit into one record: at least one, then as many as 2,536 bytes hold (R191). -/
def changesFor (room : Nat) : List (Nat × List Nat) → List (Nat × List Nat)
  | [] => []
  | c :: t => if c.2.length + 4 ≤ room then c :: changesFor (room - c.2.length - 4) t else []

/-- The record of the tick that ends. -/
def State.twinSend (s : State) (k : Nat) : State :=
  let out := s.mbx.twinOut
  let now := match changesFor 2536 out with
    | [] => out.take 1
    | l => l
  let s := s.tickTwin (s.hostWords k) [] now
  { s with mbx := { s.mbx with twinOut := out.drop now.length } }

/-! ## Audio (R212 to R254) -/

/-- The frames of the TDM ports in the tick: inputs, read-back, and a stop that was waiting (R216 to R221). -/
def State.tdmFrames (s : State) (t : TickIn) (k : Nat) : State :=
  (List.range 8).foldl (fun (s : State) (p : Nat) =>
    let slots := match t.tdm.find? (fun e => e.1 == p) with | some e => e.2 | none => []
    let s := s.tdmInput k p slots
    let s := if s.tdmRuns p then s.tdmReadback p (t.fsyncBad.contains p) else s
    s.tdmStop p) s

/-- The microphones of the tick (R223 to R225, R263). -/
def State.micFrames (s : State) (t : TickIn) (k : Nat) : State :=
  (List.range 16).foldl (fun (s : State) (m : Nat) =>
    let (raw, flat) := match t.mics.find? (fun e => e.1 == m) with | some e => e.2 | none => (0, false)
    (s.micTick k m raw flat).fbDeliver k m) s

/-- Was the block that an echo canceller's outputs come from abandoned (R41)? -/
def State.aecGone (s : State) (e : Nat) : Bool :=
  s.jobs.any (fun (j : Job) => j.blockStale && (j.owner == aecOwner e || j.sinks.contains (0x188 + e)))

/-- The echo-canceller blocks that ended in the tick (R260, R262). -/
def State.aecBlocks (s : State) (t : TickIn) : State :=
  t.aec.foldl (fun (s : State) (e : Nat × Nat × Bool) =>
    if e.1 < 8 then s.aecBlock e.1 e.2.1 e.2.2 (s.aecGone e.1) else s) s

/-- MCLK0 and MCLK1 run as MCLK_CFG selects while AUDIO_IO is on (R222). -/
def State.mclkRuns (s : State) : State :=
  let on := s.domOn Dom.audioIo
  let runs (x : Nat) : Bool := on && (x == 1 || x == 2)
  (s.setFlag AUD.STAT.MCLK0_RUN (runs (s.get AUD.MCLK_CFG.MCLK0))).setFlag AUD.STAT.MCLK1_RUN (runs (s.get AUD.MCLK_CFG.MCLK1))

/-- The ports at the boundary: waiting starts, MCLK, the PDM clocks and the measured phase. -/
def State.tickPorts (s : State) (t : TickIn) : State :=
  let s := (List.range 8).foldl (fun (s : State) (p : Nat) => s.tdmCountdown p) s
  let s := s.mclkRuns
  if s.domOn Dom.audioIo then s.pdmClocks.set SYNC.MCLK_STAT.PHASE_ERR t.phaseErr else s

/-- The audio work of tick `k`: capture, the play stage, the send stage, and the outputs (R26, R213, R234, R235). -/
def State.tickAudio (s : State) (t : TickIn) (k : Nat) : State :=
  if !s.domOn Dom.dsp then s
  else
    let s := (s.gateTick.rampTick.twinApply k).tdmFrames t k
    let s := (((s.micFrames t k).genTick k).voiceTick k).aecOutputs k
    let s := ((s.playStage k).sendStage k).aecBlocks t
    ((s.hdmaCapture k).tdmOutput k).staleMap k

/-! ## The ring (R79, R84, R110, R485, R493) -/

/-- A line at the end of the tick: the frames accepted, and MISSING where no FRAME_START came while it was IN_RING (R110). -/
def State.lineEnd (s : State) (l : Line) (seen got : Bool) : State :=
  let s := s.setFlag (framesFld l) got
  if s.lineCarries l && !seen then s.count (frmMissing l) 1 else s

/-- The counts of an inauguration in progress, in ticks. -/
def InaugSt.aged (x : InaugSt) : InaugSt :=
  { x with noFrame := x.noFrame + 1, phaseTicks := x.phaseTicks + 1, settle := x.settle + 1 }

/-- The ring engine at the end of the tick. -/
def State.tickRing (s : State) : State :=
  if !s.domOn Dom.ring then s
  else
    let s := (s.lineEnd .a s.ring.seenA s.ring.gotA).lineEnd .b s.ring.seenB s.ring.gotB
    let s := { s with
      ring := { s.ring with seenA := false, seenB := false, gotA := false, gotB := false }, inaug := s.inaug.aged }
    s.tickHeartbeats

/-- The frame of the tick that begins: the handshakes in its gap, and the launch, silent from the agreed sleep tick on (R76,
R147, R552). -/
def State.tickLaunch (s : State) (t : TickIn) : State :=
  if !s.domOn Dom.ring then s
  else
    let s := if s.sleepSilent then s else s.launchFrame t.launchNs t.launchUi s.sleepFrames
    s.sendHandshakes t.launchNs

/-- A member's record for the frame after the next (R485, R486). -/
def State.memberRecord (s : State) (k : Nat) (pdata : List (Nat × List Nat)) : State :=
  let cells := s.ring.cellsA.take 5
  let wafers := s.aud.streams.map (fun (o : StreamSt) =>
    let w := s.waferWord o.id k
    if bit w 7 && !bit w 6 then w / 8 * 8 + (k + 1) % 8 else w)
  let head := [s.get STK.STAT.SUB, b2n (s.flag PWR.NET_STAT.HOLD) + 2 * b2n s.inSync] ++ leBytes 2 s.ownAlarms ++
    leBytes 4 ((s.tickSeq + 1) % 2 ^ 32) ++ leBytes 4 s.stk.recSeq ++ leBytes 2 wafers.length ++ leBytes 2 pdata.length ++
    [cells.length]
  let body := (head ++ List.replicate 32 0).take 32 ++ wafers.flatMap (fun w => leBytes 4 w) ++
    pdata.flatMap (fun e => unitStaged pdata e.1 (k + 1)) ++ cells.flatMap (fun c => c.bytes.slice 0 256)
  let s := s.emit (.stack 0 (body ++ leBytes 4 (crc32c body)))
  { s with ring := { s.ring with cellsA := s.ring.cellsA.drop 5 }, stk := { s.stk with recSeq := (s.stk.recSeq + 1) % 2 ^ 32 } }

/-- The time marker that a head sends at the boundary (R493). -/
def State.timeMarker (s : State) : State :=
  s.emit (.stack 1 (leBytes 8 (s.clk.n % 2 ^ 64) ++ [b2n s.inSync]))

/-- The stack at the boundary. -/
def State.tickStack (s : State) (t : TickIn) (k : Nat) : State :=
  if !s.domOn Dom.stack then s
  else if s.isMember && s.stackLink 0 == Lk.inRing then s.memberRecord k t.pdata
  else if s.hasMembers then s.timeMarker
  else s

/-- The own region of the next frame, with the measured margin of its staging (R93). -/
def State.tickStage (s : State) (t : TickIn) (k : Nat) : State :=
  if !s.domOn Dom.ring then s
  else
    let s := s.stageRegion k t.pdata t.staged
    if s.writes then s.set RING.STG_STAT.MARGIN_NS (min t.marginNs 0xFFFF) else s

/-! ## The clock (R44, R162, R656) -/

/-- TICK_MARK at a boundary whose tick number is a multiple of MARK_DIV + 1 (R656). -/
def State.tickMark (s : State) : State :=
  if s.flag GLB.TICK_CTRL.MARK_EN && s.clk.n % (s.get GLB.TICK_CTRL.MARK_DIV + 1) = 0 then
    s.pendDirect Src.TICK_MARK INTC.MISS.TICK_MARK
  else s

/-- Node time reaches the boundary. -/
def State.tickClock (s : State) : State :=
  if s.domOn Dom.core then s.slewTick.lockTick.advanceTick.tickMark else s

/-! ## Decik and the controllers -/

/-- FW_STAT.ALIVE counts the ms that Decik runs. -/
def State.tickAlive (s : State) : State :=
  if s.decikRuns && s.decik.upTicks % 48 = 0 then s.wrapInc GLB.FW_STAT.ALIVE else s

/-- What Decik does in a tick: units, monitors, measurements, the confirm time and the discrete outputs. -/
def State.tickDecik (s : State) : State :=
  if !s.decikRuns then s
  else s.unitsTick.pmonTick.stipaTick.holdsNow.loneTick.showCfg.tickAlive

/-- The store, the bridge, the votes and the outputs. -/
def State.tickUnits (s : State) : State :=
  let s := s.scrubTick
  let s := if s.domOn Dom.pcie || s.domOn Dom.ring then s.brgTick else s
  s.votesTick.tickDecik.driveOutputs

/-- The always-on counts: ticks since power-on reset and the real-time clock (R160). -/
def State.tickAlways (s : State) : State :=
  { s with decik := { s.decik with upTicks := s.decik.upTicks + 1 }, rtc := s.rtc + tickThirds }

/-- The tick that ends: what its samples and frames leave. -/
def State.tickEnds (s : State) (t : TickIn) (k : Nat) : State :=
  let s := ((s.tickJobs t k).canTick k).ethTick k
  let s := (s.tickAudio t k).tickPorts t
  (s.tickRing.twinSend k).tickCells

/-- The tick that begins: number k + 1. -/
def State.tickBegins (s : State) (t : TickIn) (k : Nat) : State :=
  let s := s.tickClock.hdmaPlay (k + 1 + b2n s.twinOn)
  ((s.tickStage t k).tickStack t k).tickLaunch t

/-- TICK_BOUNDARY (R22). Nothing runs while VAO is absent. -/
def execTickBoundary (t : TickIn) (s : State) : Host.Outcome State Fault Refusal :=
  .next (if s.isOff then s else (((s.tickAlways.tickEnds t s.clk.n).tickBegins t s.clk.n)).tickUnits)

end Sys2Proof.Machine
end

