-- ==== Sys2Proof/Machine/Dispatch.lean ====
section
/-! DEFINITION. The dispatch: one arm per constructor of Instr, each one direct call of that command's meaning. -/

namespace Sys2Proof.Machine

def exec (i : Instr) (s : State) : Host.Outcome State Fault Refusal :=
  match i with
  | .tickBoundary t => Sys2Proof.Machine.execTickBoundary t s
  | .lockstepMismatch => Sys2Proof.Machine.execLockstepMismatch s
  | .watchdogExpiry => Sys2Proof.Machine.execWatchdogExpiry s
  | .firmwareFault => Sys2Proof.Machine.execFirmwareFault s
  | .decikRestartDone => Sys2Proof.Machine.execDecikRestartDone s
  | .signalDetected n => Sys2Proof.Machine.execSignalDetected n s
  | .blockLockAcquired n ptUi loopUi => Sys2Proof.Machine.execBlockLockAcquired n ptUi loopUi s
  | .trainTimeout n => Sys2Proof.Machine.execTrainTimeout n s
  | .lossOfSignal n => Sys2Proof.Machine.execLossOfSignal n s
  | .blockLockLost n => Sys2Proof.Machine.execBlockLockLost n s
  | .qualTimerExpiry n => Sys2Proof.Machine.execQualTimerExpiry n s
  | .qualReceiveError n e => Sys2Proof.Machine.execQualReceiveError n e s
  | .linkLoss n => Sys2Proof.Machine.execLinkLoss n s
  | .statusBlockReceive n b => Sys2Proof.Machine.execStatusBlockReceive n b s
  | .statusBlockMissing n => Sys2Proof.Machine.execStatusBlockMissing n s
  | .loopbackClose n => Sys2Proof.Machine.execLoopbackClose n s
  | .txeqApply n => Sys2Proof.Machine.execTxeqApply n s
  | .prbsCheckerLock n => Sys2Proof.Machine.execPrbsCheckerLock n s
  | .prbsCheckerResync n => Sys2Proof.Machine.execPrbsCheckerResync n s
  | .frameReceived f => Sys2Proof.Machine.execFrameReceived f s
  | .lineMerge tseq => Sys2Proof.Machine.execLineMerge tseq s
  | .lineDegradedClear l => Sys2Proof.Machine.execLineDegradedClear l s
  | .lineShortClear => Sys2Proof.Machine.execLineShortClear s
  | .relayLateCheck l tseq => Sys2Proof.Machine.execRelayLateCheck l tseq s
  | .cellStage kind dstPos dstSub frag last msgId encrypt payload => Sys2Proof.Machine.execCellStage kind dstPos dstSub frag last msgId encrypt payload s
  | .cellExpire l => Sys2Proof.Machine.execCellExpire l s
  | .cellReceive cell => Sys2Proof.Machine.execCellReceive cell s
  | .reasmTimeout srcPos srcSub msgId => Sys2Proof.Machine.execReasmTimeout srcPos srcSub msgId s
  | .handshakeReceive n b arrivalNs => Sys2Proof.Machine.execHandshakeReceive n b arrivalNs s
  | .inaugSettleEnd => Sys2Proof.Machine.execInaugSettleEnd s
  | .countTimeout => Sys2Proof.Machine.execCountTimeout s
  | .claimPairLaunch => Sys2Proof.Machine.execClaimPairLaunch s
  | .claimWindowEnd => Sys2Proof.Machine.execClaimWindowEnd s
  | .layoutComputeDone plan => Sys2Proof.Machine.execLayoutComputeDone plan s
  | .computeTimeout => Sys2Proof.Machine.execComputeTimeout s
  | .layoutFragmentResend frag => Sys2Proof.Machine.execLayoutFragmentResend frag s
  | .distributeEnd => Sys2Proof.Machine.execDistributeEnd s
  | .inaugBackoffExpiry => Sys2Proof.Machine.execInaugBackoffExpiry s
  | .layoutSwitch => Sys2Proof.Machine.execLayoutSwitch s
  | .layoutSave => Sys2Proof.Machine.execLayoutSave s
  | .joinDiscard => Sys2Proof.Machine.execJoinDiscard s
  | .formingWaitEnd => Sys2Proof.Machine.execFormingWaitEnd s
  | .fastShrinkApply => Sys2Proof.Machine.execFastShrinkApply s
  | .mergeMeasureDone lead => Sys2Proof.Machine.execMergeMeasureDone lead s
  | .mergeStep => Sys2Proof.Machine.execMergeStep s
  | .mergeMuteEnd => Sys2Proof.Machine.execMergeMuteEnd s
  | .mergeTagRefuse n => Sys2Proof.Machine.execMergeTagRefuse n s
  | .mergePhaseTimeout => Sys2Proof.Machine.execMergePhaseTimeout s
  | .mergeRetry => Sys2Proof.Machine.execMergeRetry s
  | .roundEnd => Sys2Proof.Machine.execRoundEnd s
  | .acquireStep => Sys2Proof.Machine.execAcquireStep s
  | .syncLock => Sys2Proof.Machine.execSyncLock s
  | .holdoverExpire => Sys2Proof.Machine.execHoldoverExpire s
  | .mclkUnlock => Sys2Proof.Machine.execMclkUnlock s
  | .twinRecordReceive r => Sys2Proof.Machine.execTwinRecordReceive r s
  | .twinResyncResume => Sys2Proof.Machine.execTwinResyncResume s
  | .twinPartnerLoss pairsLost => Sys2Proof.Machine.execTwinPartnerLoss pairsLost s
  | .twinPairFail pair => Sys2Proof.Machine.execTwinPairFail pair s
  | .ringHbLost => Sys2Proof.Machine.execRingHbLost s
  | .canHbLost => Sys2Proof.Machine.execCanHbLost s
  | .coldTakeoverLaunch us10 => Sys2Proof.Machine.execColdTakeoverLaunch us10 s
  | .reserveTakeover us10 => Sys2Proof.Machine.execReserveTakeover us10 s
  | .tdmPortEnable n => Sys2Proof.Machine.execTdmPortEnable n s
  | .tdmPortStart n => Sys2Proof.Machine.execTdmPortStart n s
  | .tdmPortDisable n => Sys2Proof.Machine.execTdmPortDisable n s
  | .hdmaReadComplete words phaseNs => Sys2Proof.Machine.execHdmaReadComplete words phaseNs s
  | .timedChangeApply => Sys2Proof.Machine.execTimedChangeApply s
  | .staleFadeEnd place => Sys2Proof.Machine.execStaleFadeEnd place s
  | .aecDiverge e => Sys2Proof.Machine.execAecDiverge e s
  | .howlDetect m freq => Sys2Proof.Machine.execHowlDetect m freq s
  | .notchDeepen m freq => Sys2Proof.Machine.execNotchDeepen m freq s
  | .notchDecay m freq => Sys2Proof.Machine.execNotchDecay m freq s
  | .callFbWait k => Sys2Proof.Machine.execCallFbWait k s
  | .callRingReturn k => Sys2Proof.Machine.execCallRingReturn k s
  | .callCanReturn k => Sys2Proof.Machine.execCallCanReturn k s
  | .noiseFrameEnd z level => Sys2Proof.Machine.execNoiseFrameEnd z level s
  | .nfFallback z => Sys2Proof.Machine.execNfFallback z s
  | .pmonWindowEnd z windows => Sys2Proof.Machine.execPmonWindowEnd z windows s
  | .pmonAgeOut z => Sys2Proof.Machine.execPmonAgeOut z s
  | .stipaPhaseEnd sti lowSnr interrupted micFault ti signal noise => Sys2Proof.Machine.execStipaPhaseEnd sti lowSnr interrupted micFault ti signal noise s
  | .clipDeleteComplete id => Sys2Proof.Machine.execClipDeleteComplete id s
  | .voiceStartTick v => Sys2Proof.Machine.execVoiceStartTick v s
  | .voiceEnd v fault => Sys2Proof.Machine.execVoiceEnd v fault s
  | .recUnitComplete channel tick stale overrun inactive data => Sys2Proof.Machine.execRecUnitComplete channel tick stale overrun inactive data s
  | .storeCorrectableError offset initiator syndrome => Sys2Proof.Machine.execStoreCorrectableError offset initiator syndrome s
  | .ceWriteback offset => Sys2Proof.Machine.execCeWriteback offset s
  | .storeUncorrectableError offset initiator affected => Sys2Proof.Machine.execStoreUncorrectableError offset initiator affected s
  | .scrubPassEnd => Sys2Proof.Machine.execScrubPassEnd s
  | .bankInitDone b => Sys2Proof.Machine.execBankInitDone b s
  | .wakeCanaryCheck decayed us => Sys2Proof.Machine.execWakeCanaryCheck decayed us s
  | .extentCheckDone b crc time100us => Sys2Proof.Machine.execExtentCheckDone b crc time100us s
  | .wakeScrubBankDone b => Sys2Proof.Machine.execWakeScrubBankDone b s
  | .rcFieldRead addr n phaseNs => Sys2Proof.Machine.execRcFieldRead addr n phaseNs s
  | .registerWrite addr enables w => Sys2Proof.Machine.execRegisterWrite addr enables w s
  | .tickSeqRead phaseNs => Sys2Proof.Machine.execTickSeqRead phaseNs s
  | .syncTimeLoRead phaseNs => Sys2Proof.Machine.execSyncTimeLoRead phaseNs s
  | .ptpTimeLoRead phaseNs => Sys2Proof.Machine.execPtpTimeLoRead phaseNs s
  | .rtcLoRead phaseNs => Sys2Proof.Machine.execRtcLoRead phaseNs s
  | .tsqStatRead port => Sys2Proof.Machine.execTsqStatRead port s
  | .twinBarRead win => Sys2Proof.Machine.execTwinBarRead win s
  | .semRead sem => Sys2Proof.Machine.execSemRead sem s
  | .semReleaseWrite sem => Sys2Proof.Machine.execSemReleaseWrite sem s
  | .linkDisableWrite n on => Sys2Proof.Machine.execLinkDisableWrite n on s
  | .linkRetrainWrite n => Sys2Proof.Machine.execLinkRetrainWrite n s
  | .laneTestModeWrite n mode => Sys2Proof.Machine.execLaneTestModeWrite n mode s
  | .prbsInjectWrite n => Sys2Proof.Machine.execPrbsInjectWrite n s
  | .elaneModeWrite port mode inject => Sys2Proof.Machine.execElaneModeWrite port mode inject s
  | .rankWrite rank => Sys2Proof.Machine.execRankWrite rank s
  | .storeInitStart mask => Sys2Proof.Machine.execStoreInitStart mask s
  | .bootGo sizeKib => Sys2Proof.Machine.execBootGo sizeKib s
  | .kloadWrite slot engine previous => Sys2Proof.Machine.execKloadWrite slot engine previous s
  | .perfVoltWrite pt => Sys2Proof.Machine.execPerfVoltWrite pt s
  | .perfFreqWrite pt => Sys2Proof.Machine.execPerfFreqWrite pt s
  | .voltSettled => Sys2Proof.Machine.execVoltSettled s
  | .freqChangeApply => Sys2Proof.Machine.execFreqChangeApply s
  | .ptpOfsHiWrite w => Sys2Proof.Machine.execPtpOfsHiWrite w s
  | .rtcAlmHiWrite hi => Sys2Proof.Machine.execRtcAlmHiWrite hi s
  | .hostVoteWrite votes => Sys2Proof.Machine.execHostVoteWrite votes s
  | .twinWindowEnable win on => Sys2Proof.Machine.execTwinWindowEnable win on s
  | .htxWrWrite port wr => Sys2Proof.Machine.execHtxWrWrite port wr s
  | .canTxReq obj => Sys2Proof.Machine.execCanTxReq obj s
  | .canObjHold obj => Sys2Proof.Machine.execCanObjHold obj s
  | .canObjRelease obj => Sys2Proof.Machine.execCanObjRelease obj s
  | .mbxDoorbellWrite ch => Sys2Proof.Machine.execMbxDoorbellWrite ch s
  | .mbxReqHeadWrite ch head => Sys2Proof.Machine.execMbxReqHeadWrite ch head s
  | .mbxRspTailWrite ch tail => Sys2Proof.Machine.execMbxRspTailWrite ch tail s
  | .mbxChannelReset ch => Sys2Proof.Machine.execMbxChannelReset ch s
  | .mbxPoll => Sys2Proof.Machine.execMbxPoll s
  | .finalResponse ch tag result => Sys2Proof.Machine.execFinalResponse ch tag result s
  | .summaryRebuild => Sys2Proof.Machine.execSummaryRebuild s
  | .unitDivergence id => Sys2Proof.Machine.execUnitDivergence id s
  | .unitDivergencePersist id => Sys2Proof.Machine.execUnitDivergencePersist id s
  | .dpStateReached id => Sys2Proof.Machine.execDpStateReached id s
  | .unitStartLimit id => Sys2Proof.Machine.execUnitStartLimit id s
  | .unitStopLimit id => Sys2Proof.Machine.execUnitStopLimit id s
  | .remoteTimeout ch tag => Sys2Proof.Machine.execRemoteTimeout ch tag s
  | .remoteBusyResend ch tag => Sys2Proof.Machine.execRemoteBusyResend ch tag s
  | .configCommit => Sys2Proof.Machine.execConfigCommit s
  | .confirmTimerExpiry => Sys2Proof.Machine.execConfirmTimerExpiry s
  | .rollbackApply => Sys2Proof.Machine.execRollbackApply s
  | .fragmentTransferTimeout => Sys2Proof.Machine.execFragmentTransferTimeout s
  | .authNonceLapse => Sys2Proof.Machine.execAuthNonceLapse s
  | .authLockoutEnd => Sys2Proof.Machine.execAuthLockoutEnd s
  | .spiRead addr waits => Sys2Proof.Machine.execSpiRead addr waits s
  | .spiReadFixed addr waits => Sys2Proof.Machine.execSpiReadFixed addr waits s
  | .spiWrite addr words => Sys2Proof.Machine.execSpiWrite addr words s
  | .spiWriteFixed addr words => Sys2Proof.Machine.execSpiWriteFixed addr words s
  | .spiUnknownCommand cmd => Sys2Proof.Machine.execSpiUnknownCommand cmd s
  | .spiFrameTruncated => Sys2Proof.Machine.execSpiFrameTruncated s
  | .i2cRequestWrite bytes => Sys2Proof.Machine.execI2cRequestWrite bytes s
  | .i2cRead n => Sys2Proof.Machine.execI2cRead n s
  | .i2cAddressWake => Sys2Proof.Machine.execI2cAddressWake s
  | .bar0Atomicop tag op => Sys2Proof.Machine.execBar0Atomicop tag op s
  | .localWindowRead tag off len => Sys2Proof.Machine.execLocalWindowRead tag off len s
  | .localWindowWrite off bytes => Sys2Proof.Machine.execLocalWindowWrite off bytes s
  | .localWindowAtomic tag op => Sys2Proof.Machine.execLocalWindowAtomic tag op s
  | .trainWindowRead tag win off len => Sys2Proof.Machine.execTrainWindowRead tag win off len s
  | .trainWindowWrite win off bytes => Sys2Proof.Machine.execTrainWindowWrite win off bytes s
  | .trainWindowAtomic tag win op => Sys2Proof.Machine.execTrainWindowAtomic tag win op s
  | .bridgeReadServe => Sys2Proof.Machine.execBridgeReadServe s
  | .bridgeWriteServe => Sys2Proof.Machine.execBridgeWriteServe s
  | .cinchServe stalled => Sys2Proof.Machine.execCinchServe stalled s
  | .semAcqServe => Sys2Proof.Machine.execSemAcqServe s
  | .readSemServe => Sys2Proof.Machine.execReadSemServe s
  | .writeRelServe => Sys2Proof.Machine.execWriteRelServe s
  | .semRelServe => Sys2Proof.Machine.execSemRelServe s
  | .bridgeRspReceive => Sys2Proof.Machine.execBridgeRspReceive s
  | .bridgeTimeout win seq op => Sys2Proof.Machine.execBridgeTimeout win seq op s
  | .lockBackoffExpiry => Sys2Proof.Machine.execLockBackoffExpiry s
  | .cinchExpire block => Sys2Proof.Machine.execCinchExpire block s
  | .semLeaseLapse sem => Sys2Proof.Machine.execSemLeaseLapse sem s
  | .prefetchAgeExpire win => Sys2Proof.Machine.execPrefetchAgeExpire win s
  | .pcieLinkDown => Sys2Proof.Machine.execPcieLinkDown s
  | .pciePerst high => Sys2Proof.Machine.execPciePerst high s
  | .ethLinkUp port accepted => Sys2Proof.Machine.execEthLinkUp port accepted s
  | .ethLinkDown port => Sys2Proof.Machine.execEthLinkDown port s
  | .ethFrameReceive port f => Sys2Proof.Machine.execEthFrameReceive port f s
  | .pauseExpire port => Sys2Proof.Machine.execPauseExpire port s
  | .ethFrameTransmit port phaseNs => Sys2Proof.Machine.execEthFrameTransmit port phaseNs s
  | .gateEntryChange port => Sys2Proof.Machine.execGateEntryChange port s
  | .pralineMatch port bytes fcsOk => Sys2Proof.Machine.execPralineMatch port bytes fcsOk s
  | .aes67StreamStopped n => Sys2Proof.Machine.execAes67StreamStopped n s
  | .streamPacketLate n => Sys2Proof.Machine.execStreamPacketLate n s
  | .ptpAnnounceTimeout port => Sys2Proof.Machine.execPtpAnnounceTimeout port s
  | .canCycleStart phaseNs => Sys2Proof.Machine.execCanCycleStart phaseNs s
  | .canWindowOpen win => Sys2Proof.Machine.execCanWindowOpen win s
  | .canFrameReceive f => Sys2Proof.Machine.execCanFrameReceive f s
  | .canRefLockLost => Sys2Proof.Machine.execCanRefLockLost s
  | .canFrameSent obj sofNs endUs => Sys2Proof.Machine.execCanFrameSent obj sofNs endUs s
  | .canTxFail obj error => Sys2Proof.Machine.execCanTxFail obj error s
  | .canBusOff => Sys2Proof.Machine.execCanBusOff s
  | .canBusoffRecovered => Sys2Proof.Machine.execCanBusoffRecovered s
  | .canChannelRelease ch => Sys2Proof.Machine.execCanChannelRelease ch s
  | .canClaimBackoff k => Sys2Proof.Machine.execCanClaimBackoff k s
  | .canWake frame => Sys2Proof.Machine.execCanWake frame s
  | .ringHoldExpire => Sys2Proof.Machine.execRingHoldExpire s
  | .stackLinkInService down upstream conflict members => Sys2Proof.Machine.execStackLinkInService down upstream conflict members s
  | .memberRecordReceive r => Sys2Proof.Machine.execMemberRecordReceive r s
  | .memberRecordLate sub => Sys2Proof.Machine.execMemberRecordLate sub s
  | .memberLost sub => Sys2Proof.Machine.execMemberLost sub s
  | .ringImageReceive r => Sys2Proof.Machine.execRingImageReceive r s
  | .ringImageLate => Sys2Proof.Machine.execRingImageLate s
  | .stackTimeMarker n ofsNs headLocked => Sys2Proof.Machine.execStackTimeMarker n ofsNs headLocked s
  | .standbyEntry => Sys2Proof.Machine.execStandbyEntry s
  | .standbyEntryComplete => Sys2Proof.Machine.execStandbyEntryComplete s
  | .standbyDwellExpire => Sys2Proof.Machine.execStandbyDwellExpire s
  | .wakeEvent fired => Sys2Proof.Machine.execWakeEvent fired s
  | .wakeStepReady => Sys2Proof.Machine.execWakeStepReady s
  | .wakeStepTimeout fail => Sys2Proof.Machine.execWakeStepTimeout fail s
  | .wakeRetryWaitEnd => Sys2Proof.Machine.execWakeRetryWaitEnd s
  | .wakeFailHoldEnd => Sys2Proof.Machine.execWakeFailHoldEnd s
  | .vmainRise => Sys2Proof.Machine.execVmainRise s
  | .rtcAlarm => Sys2Proof.Machine.execRtcAlarm s
  | .railStepEnd pg => Sys2Proof.Machine.execRailStepEnd pg s
  | .railDelayExpire => Sys2Proof.Machine.execRailDelayExpire s
  | .railPgFault r => Sys2Proof.Machine.execRailPgFault r s
  | .residencySecond => Sys2Proof.Machine.execResidencySecond s
  | .powerOnReset straps => Sys2Proof.Machine.execPowerOnReset straps s
  | .supplyRestart bootSrc => Sys2Proof.Machine.execSupplyRestart bootSrc s
  | .resetPin bootSrc => Sys2Proof.Machine.execResetPin bootSrc s
  | .bootRomStart => Sys2Proof.Machine.execBootRomStart s
  | .bootVerifyDone flash => Sys2Proof.Machine.execBootVerifyDone flash s
  | .bistComplete misr failMap count ms => Sys2Proof.Machine.execBistComplete misr failMap count ms s
  | .decikInitDone media => Sys2Proof.Machine.execDecikInitDone media s
  | .configLoadDone => Sys2Proof.Machine.execConfigLoadDone s
  | .ringReady => Sys2Proof.Machine.execRingReady s
  | .startupNoRing => Sys2Proof.Machine.execStartupNoRing s
  | .pdwRaise => Sys2Proof.Machine.execPdwRaise s
  | .pdwRecover => Sys2Proof.Machine.execPdwRecover s
  | .optimeSave => Sys2Proof.Machine.execOptimeSave s
  | .idleCountExpire => Sys2Proof.Machine.execIdleCountExpire s
  | .sleepAckTimeout => Sys2Proof.Machine.execSleepAckTimeout s
  | .sleepTick => Sys2Proof.Machine.execSleepTick s
  | .wakeInAssert => Sys2Proof.Machine.execWakeInAssert s
  | .wakeOutPulseEnd => Sys2Proof.Machine.execWakeOutPulseEnd s
  | .wakeInStuck => Sys2Proof.Machine.execWakeInStuck s
  | .wakeValidExpire => Sys2Proof.Machine.execWakeValidExpire s
  | .loneCountExpire => Sys2Proof.Machine.execLoneCountExpire s
  | .heldTimeRecord => Sys2Proof.Machine.execHeldTimeRecord s
  | .tamperDetect cause => Sys2Proof.Machine.execTamperDetect cause s
  | .eventPost back => Sys2Proof.Machine.execEventPost back s
  | .pendingPost writer code inst data => Sys2Proof.Machine.execPendingPost writer code inst data s
  | .stormSecondEnd => Sys2Proof.Machine.execStormSecondEnd s
  | .storeTestDone errors first => Sys2Proof.Machine.execStoreTestDone errors first s
  | .diDebouncedChange k v => Sys2Proof.Machine.execDiDebouncedChange k v s
  | .chatterWindowEnd k => Sys2Proof.Machine.execChatterWindowEnd k s
  | .diStuck k => Sys2Proof.Machine.execDiStuck k s
  | .intcPendWrite hi w => Sys2Proof.Machine.execIntcPendWrite hi w s
  | .intcEnWrite hi w => Sys2Proof.Machine.execIntcEnWrite hi w s
  | .intcForceWrite hi w => Sys2Proof.Machine.execIntcForceWrite hi w s
  | .msixUnmask vector => Sys2Proof.Machine.execMsixUnmask vector s
  | .ping r => Sys2Proof.Machine.execPing r s
  | .stateSummary r => Sys2Proof.Machine.execStateSummary r s
  | .reducedSummary r => Sys2Proof.Machine.execReducedSummary r s
  | .getIdentity r => Sys2Proof.Machine.execGetIdentity r s
  | .getTime r => Sys2Proof.Machine.execGetTime r s
  | .setRtc r => Sys2Proof.Machine.execSetRtc r s
  | .setNoteLevel r => Sys2Proof.Machine.execSetNoteLevel r s
  | .serviceMode r => Sys2Proof.Machine.execServiceMode r s
  | .nodeReset r => Sys2Proof.Machine.execNodeReset r s
  | .unitGet r => Sys2Proof.Machine.execUnitGet r s
  | .unitEnable r => Sys2Proof.Machine.execUnitEnable r s
  | .unitDisable r => Sys2Proof.Machine.execUnitDisable r s
  | .cfgLoad r => Sys2Proof.Machine.execCfgLoad r s
  | .cfgApply r => Sys2Proof.Machine.execCfgApply r s
  | .cfgConfirm r => Sys2Proof.Machine.execCfgConfirm r s
  | .cfgRollback r => Sys2Proof.Machine.execCfgRollback r s
  | .cfgStatus r => Sys2Proof.Machine.execCfgStatus r s
  | .cfgRead r => Sys2Proof.Machine.execCfgRead r s
  | .cfgDiscard r => Sys2Proof.Machine.execCfgDiscard r s
  | .ringStatus r => Sys2Proof.Machine.execRingStatus r s
  | .ringGetLayout r => Sys2Proof.Machine.execRingGetLayout r s
  | .ringRenumber r => Sys2Proof.Machine.execRingRenumber r s
  | .ringMerge r => Sys2Proof.Machine.execRingMerge r s
  | .ringSetRank r => Sys2Proof.Machine.execRingSetRank r s
  | .ringLinkCtrl r => Sys2Proof.Machine.execRingLinkCtrl r s
  | .ringSetParam r => Sys2Proof.Machine.execRingSetParam r s
  | .syncStatus r => Sys2Proof.Machine.execSyncStatus r s
  | .xpSet r => Sys2Proof.Machine.execXpSet r s
  | .xpGet r => Sys2Proof.Machine.execXpGet r s
  | .zoneSet r => Sys2Proof.Machine.execZoneSet r s
  | .zoneCand r => Sys2Proof.Machine.execZoneCand r s
  | .zoneEq r => Sys2Proof.Machine.execZoneEq r s
  | .zoneOut r => Sys2Proof.Machine.execZoneOut r s
  | .streamSet r => Sys2Proof.Machine.execStreamSet r s
  | .testgenSet r => Sys2Proof.Machine.execTestgenSet r s
  | .zoneStatus r => Sys2Proof.Machine.execZoneStatus r s
  | .libLoad r => Sys2Proof.Machine.execLibLoad r s
  | .libDelete r => Sys2Proof.Machine.execLibDelete r s
  | .libList r => Sys2Proof.Machine.execLibList r s
  | .playStart r => Sys2Proof.Machine.execPlayStart r s
  | .playStop r => Sys2Proof.Machine.execPlayStop r s
  | .playStatus r => Sys2Proof.Machine.execPlayStatus r s
  | .callOpen r => Sys2Proof.Machine.execCallOpen r s
  | .callClose r => Sys2Proof.Machine.execCallClose r s
  | .callStatus r => Sys2Proof.Machine.execCallStatus r s
  | .aecSet r => Sys2Proof.Machine.execAecSet r s
  | .pmonCommission r => Sys2Proof.Machine.execPmonCommission r s
  | .pmonClear r => Sys2Proof.Machine.execPmonClear r s
  | .stipaRun r => Sys2Proof.Machine.execStipaRun r s
  | .recLock r => Sys2Proof.Machine.execRecLock r s
  | .recUnlock r => Sys2Proof.Machine.execRecUnlock r s
  | .recIndex r => Sys2Proof.Machine.execRecIndex r s
  | .recExport r => Sys2Proof.Machine.execRecExport r s
  | .ethStatus r => Sys2Proof.Machine.execEthStatus r s
  | .ethCounters r => Sys2Proof.Machine.execEthCounters r s
  | .ethMdio r => Sys2Proof.Machine.execEthMdio r s
  | .ethGateSet r => Sys2Proof.Machine.execEthGateSet r s
  | .ptpSet r => Sys2Proof.Machine.execPtpSet r s
  | .ptpStatus r => Sys2Proof.Machine.execPtpStatus r s
  | .streamAdd r => Sys2Proof.Machine.execStreamAdd r s
  | .streamRemove r => Sys2Proof.Machine.execStreamRemove r s
  | .pralineSet r => Sys2Proof.Machine.execPralineSet r s
  | .canStatus r => Sys2Proof.Machine.execCanStatus r s
  | .canSetRate r => Sys2Proof.Machine.execCanSetRate r s
  | .canSchedSet r => Sys2Proof.Machine.execCanSchedSet r s
  | .canObjSet r => Sys2Proof.Machine.execCanObjSet r s
  | .canSend r => Sys2Proof.Machine.execCanSend r s
  | .canWakeSet r => Sys2Proof.Machine.execCanWakeSet r s
  | .pwrStatus r => Sys2Proof.Machine.execPwrStatus r s
  | .pwrSetState r => Sys2Proof.Machine.execPwrSetState r s
  | .pwrVote r => Sys2Proof.Machine.execPwrVote r s
  | .pwrPerf r => Sys2Proof.Machine.execPwrPerf r s
  | .pwrWakeCfg r => Sys2Proof.Machine.execPwrWakeCfg r s
  | .pwrResidency r => Sys2Proof.Machine.execPwrResidency r s
  | .awakeHold r => Sys2Proof.Machine.execAwakeHold r s
  | .netSleepStatus r => Sys2Proof.Machine.execNetSleepStatus r s
  | .secStatus r => Sys2Proof.Machine.execSecStatus r s
  | .authChallenge r => Sys2Proof.Machine.execAuthChallenge r s
  | .keyReplace r => Sys2Proof.Machine.execKeyReplace r s
  | .keyKcv r => Sys2Proof.Machine.execKeyKcv r s
  | .tamperClear r => Sys2Proof.Machine.execTamperClear r s
  | .getMeasurement r => Sys2Proof.Machine.execGetMeasurement r s
  | .evrStatus r => Sys2Proof.Machine.execEvrStatus r s
  | .evrRead r => Sys2Proof.Machine.execEvrRead r s
  | .evrClear r => Sys2Proof.Machine.execEvrClear r s
  | .evrPendingRead r => Sys2Proof.Machine.execEvrPendingRead r s
  | .bistRun r => Sys2Proof.Machine.execBistRun r s
  | .bistResult r => Sys2Proof.Machine.execBistResult r s
  | .storeTest r => Sys2Proof.Machine.execStoreTest r s
  | .laneTest r => Sys2Proof.Machine.execLaneTest r s
  | .laneTestResult r => Sys2Proof.Machine.execLaneTestResult r s
  | .redStatus r => Sys2Proof.Machine.execRedStatus r s
  | .masterHandover r => Sys2Proof.Machine.execMasterHandover r s
  | .twinResync r => Sys2Proof.Machine.execTwinResync r s
  | .stackStatus r => Sys2Proof.Machine.execStackStatus r s
  | .stackMemberReset r => Sys2Proof.Machine.execStackMemberReset r s
  | .vaoLost => Sys2Proof.Machine.execVaoLost s
  | .rstNRelease => Sys2Proof.Machine.execRstNRelease s
  | .vmainRestored => Sys2Proof.Machine.execVmainRestored s
  | .tamperCauseEnd cause => Sys2Proof.Machine.execTamperCauseEnd cause s
  | .cabActiveChange on => Sys2Proof.Machine.execCabActiveChange on s
  | .wakeInDeassert => Sys2Proof.Machine.execWakeInDeassert s
  | .pcieLinkUp speed width => Sys2Proof.Machine.execPcieLinkUp speed width s
  | .msixEnableWrite enable functionMask => Sys2Proof.Machine.execMsixEnableWrite enable functionMask s
  | .mclkPllLock => Sys2Proof.Machine.execMclkPllLock s
  | .ptpMessageInterval port what => Sys2Proof.Machine.execPtpMessageInterval port what s

end Sys2Proof.Machine
end

