-- ==== Sys2Proof/Safety.lean ====
section
/-! DEFINITION. The terms that the statements use: the invariant of every step, what a safe step is, when a host access reaches a register,
and when a mailbox request reaches the effect of its command. -/

namespace Sys2Proof

/-- The data of a request without its authorisation block (R576). -/
def Request.payload (r : Request) : List Nat := if bit r.flags 0 then r.body.take (r.body.length - 36) else r.body

end Sys2Proof

namespace Sys2Proof.Machine

/-- The register file and the store stand in their canonical form: equal contents are equal data. -/
def State.canonical (s : State) : Bool := Sparse.wf resetWord s.regs && Memory.wf s.store

/-- A step that neither faults nor refuses. -/
def safe (o : Host.Outcome State Fault Refusal) : Bool :=
  match o with
  | .next _ => true
  | .fault _ => false
  | .refused _ => false

/-- The port of a coupler link. -/
def couplerPort (n : LinkIx) : PortIx := ⟨n.val, by omega⟩

/-- The port of a stack link: 0 STACK_UP, 1 STACK_DOWN. -/
def stackPort (p : Fin 2) : PortIx := ⟨4 + p.val, by omega⟩

/-- A host access reaches the register: CORE and the register's domain are ON (R524, R623). -/
def State.reaches (s : State) (off : Nat) : Bool := s.domOn Dom.core && s.domOn (regDomain off)

/-- Any host access but the one that follows drops the captured second half of a pair (R46, R185). -/
def State.uncaptured (s : State) : State := { s with clk := { s.clk with cap := none } }

/-- The state in which the command of a request acts: after the check of its authorisation block, where it needs one. -/
def State.opened (s : State) (c : Cmd) (r : Request) : State := (s.authorised c r (s.asked r c.opcode) r.payload).2

/-- A local request that passes every check before its command's own (R357, R361, R362, R365, R391, R393, R396). -/
def State.passes (s : State) (c : Cmd) (r : Request) : Bool :=
  s.decikRuns && s.mayConsume r.ch.val && (s.headerStatus r).isNone && !bit r.flags 1 &&
  s.permits c r.ch.val r.payload && !(bit r.flags 0 && decide (r.body.length < 36)) && c.len r.payload &&
  (s.authorised c r (s.asked r c.opcode) r.payload).1.isNone &&
  (s.opened c r).modeAccepts c.opcode && c.accept (s.opened c r) r.payload &&
  (!c.versioned || (s.opened c r).versionOk r.cfgver (c.effective (s.opened c r) r.payload)) && rsvZero r.payload c.rsv

end Sys2Proof.Machine
end

