-- ==== Sys2Proof/Certificates/Slice0/Obligations.lean ====
section
/-! DEFINITION. Statements for the provers, family by family of the command table. -/

open Sys2Proof Sys2Proof.Machine

/-- A step carries out the command at the front of the queue: For every command c, every rest of the queue and every state s: a step of s with c in front of the rest is exec of c on s with that rest as its queue. The queue is the model's own (notes/assumptions/1.md). -/
def Obligations.StepRunsFrontCommand : Prop :=
  ∀ (c : Instr) (rest : List Instr) (s : State),
    step { s with pending := c :: rest } = exec c { s with pending := rest }

/-- A step on an empty queue idles: With no command waiting, a step answers the same state: time passes only with the TICK_BOUNDARY row (the model's choice, notes/assumptions/1.md). -/
def Obligations.EmptyQueueIdles : Prop :=
  ∀ s : State, s.pending = [] → step s = .next s

/-- The command table gives no bits, so no word spells a command: No row of the opcode table has fields, so every word of every length decodes to no command, and placing a table word leaves the state unchanged. -/
def Obligations.TableWordsSpellNoCommand : Prop :=
  (∀ nbits w : Nat, decodeTableWord nbits w = none) ∧ (∀ (s : State) (nbits w : Nat), s.withFetchWord nbits w = s)

/-- The reset state is canonical, with an empty queue: At State.reset the register file and the store stand in canonical form, no command waits, nothing has left the node, the start is at its first step, no fault is asserted, the reset cause reads 1 (power-on), GLB.TICK_SEQ reads 0 and the firmware does not run. -/
def Obligations.ResetHoldsInvariant : Prop :=
  State.reset.canonical = true ∧ State.reset.pending = [] ∧ State.reset.outbox = [] ∧
    State.reset.get GLB.BOOT_STAT.STATE = 0 ∧ State.reset.get GLB.FAULT_STAT.FAULT_N = 0 ∧
    State.reset.get GLB.RST_CAUSE.CAUSE = 1 ∧ State.reset.get GLB.TICK_SEQ.SEQ = 0 ∧
    State.reset.flag GLB.FW_STAT.RUN = false

/-- Every step keeps the canonical forms of the registers and the store: From every state whose register file lists only words that differ from their reset values, in rising order, and whose store lists only non-zero bytes, in rising order, a step of any command at the front of the queue that answers a next state answers one with the same property. -/
def Obligations.EveryStepKeepsCanonicalForms : Prop :=
  ∀ s t : State, s.canonical = true → step s = .next t → t.canonical = true

/-- No command changes the commands behind it, nor the UID of the node: For every command and every state: where exec answers a next state, the queue of that state is the queue it had, and its UID is the UID it had. The UID is fused in OTP; the queue belongs to the outside. -/
def Obligations.NoCommandTouchesQueueOrIdentity : Prop :=
  ∀ (c : Instr) (s t : State), exec c s = .next t → t.pending = s.pending ∧ t.uid = s.uid

/-- Every command of the table has an effect in every state: No command faults. Every command but a register write and the two SPI writes answers a next state in every state; those three answer a next state or refuse with reservedBits, which stands for a write of 1 to a reserved bit (R10 calls that undefined). -/
def Obligations.EveryCommandAnswers : Prop :=
  ∀ (c : Instr) (s : State),
    (∃ t, exec c s = .next t) ∨
      (exec c s = .refused .reservedBits ∧
        ((∃ a e w, c = .registerWrite a e w) ∨ (∃ a ws, c = .spiWrite a ws) ∨ (∃ a ws, c = .spiWriteFixed a ws)))

/-- What a register write of the host does: A write with fewer than four byte enables, or to an unaligned address, or beyond BAR0, changes nothing but a captured second half. A whole aligned write that puts a 1 into a reserved bit of a register that it reaches is refused (the model's choice, notes/assumptions/51.md: R10 calls the effect undefined). A write of the read-only register GLB.TICK_SEQ changes no register. A write of the read-write register PWR.WAKE_TO0 is what both its fields read afterwards, and changes no other register. -/
def Obligations.RegisterWriteRules : Prop :=
  (∀ (s : State) (a : Nat) (e : Fin 16) (w : Word), wholeWord a e.val = false → exec (.registerWrite a e w) s = .next s.uncaptured) ∧
  (∀ (s : State) (a : Nat) (w : Word), wholeWord a 15 = true → reservedHit a w = true → s.reaches a = true →
    exec (.registerWrite a 15 w) s = .refused .reservedBits) ∧
  (∀ (s : State) (w : Word), s.reaches GLB.TICK_SEQ.off = true →
    ∃ t, exec (.registerWrite GLB.TICK_SEQ.off 15 w) s = .next t ∧ ∀ a, t.word a = s.word a) ∧
  (∀ (s : State) (w : Word), s.reaches PWR.WAKE_TO0.off = true →
    ∃ t, exec (.registerWrite PWR.WAKE_TO0.off 15 w) s = .next t ∧
      t.get PWR.WAKE_TO0.TO_REG = w.toNat % 2 ^ 16 ∧ t.get PWR.WAKE_TO0.TO_OSC = w.toNat / 2 ^ 16 ∧
      ∀ a, a ≠ PWR.WAKE_TO0.off → t.word a = s.word a)

/-- Training of a coupler or stack link: On a coupler link, a detected signal in DETECT clears LOS and begins training; block lock in TRAIN sets BLOCK_LOCK, records both latencies (at most 125) and enters LOCK; the training timeout counts a restart and returns to DETECT; a loss of signal or of block lock in LOCK counts a restart and returns to DETECT or to TRAIN. A stack link trains by the same steps, without restart counter. Each command answers exactly the state named. -/
def Obligations.LinkTrainingSteps : Prop :=
  (∀ (s : State) (m : LinkIx), s.linkState m = Lk.detect →
    exec (.signalDetected (couplerPort m)) s = .next ((s.setFlag (RING.LINKSTAT.LOS m) false).linkTo m Lk.train)) ∧
  (∀ (s : State) (m : LinkIx) (pt loop : Nat), s.linkState m = Lk.train →
    exec (.blockLockAcquired (couplerPort m) pt loop) s =
      .next (((((s.setFlag (RING.LINKSTAT.BLOCK_LOCK m) true).set (RING.LINKLAT.PT_UI m) (min pt 125)).set
        (RING.LINKLAT.LOOP_UI m) (min loop 125)).linkTo m Lk.lock).linkLockCheck m)) ∧
  (∀ (s : State) (m : LinkIx), s.linkState m = Lk.train →
    exec (.trainTimeout (couplerPort m)) s = .next ((s.count (RING.LINKERR.QUAL_RESTART m) 1).linkTo m Lk.detect)) ∧
  (∀ (s : State) (m : LinkIx), s.linkState m = Lk.lock →
    exec (.lossOfSignal (couplerPort m)) s =
      .next ((((s.setFlag (RING.LINKSTAT.LOS m) true).setFlag (RING.LINKSTAT.BLOCK_LOCK m) false).count
        (RING.LINKERR.QUAL_RESTART m) 1).linkTo m Lk.detect)) ∧
  (∀ (s : State) (m : LinkIx), s.linkState m = Lk.lock →
    exec (.blockLockLost (couplerPort m)) s =
      .next (((s.setFlag (RING.LINKSTAT.BLOCK_LOCK m) false).count (RING.LINKERR.QUAL_RESTART m) 1).linkTo m Lk.train)) ∧
  (∀ (s : State) (p : Fin 2), s.stackLink p = Lk.detect →
    exec (.signalDetected (stackPort p)) s = .next ((s.setFlag (STK.LINKSTAT.LOS p) false).stackTo p Lk.train)) ∧
  (∀ (s : State) (p : Fin 2) (pt loop : Nat), s.stackLink p = Lk.train → s.isMember = false →
    exec (.blockLockAcquired (stackPort p) pt loop) s =
      .next (((s.setFlag (STK.LINKSTAT.BLOCK_LOCK p) true).set (STK.LINKSTAT.LAT_UI p) (min pt 125)).stackTo p Lk.lock)) ∧
  (∀ (s : State) (p : Fin 2), s.stackLink p = Lk.train →
    exec (.trainTimeout (stackPort p)) s = .next (s.stackTo p Lk.detect)) ∧
  (∀ (s : State) (p : Fin 2), s.stackLink p = Lk.lock →
    exec (.lossOfSignal (stackPort p)) s =
      .next (((s.setFlag (STK.LINKSTAT.LOS p) true).setFlag (STK.LINKSTAT.BLOCK_LOCK p) false).stackTo p Lk.detect)) ∧
  (∀ (s : State) (p : Fin 2), s.stackLink p = Lk.lock →
    exec (.blockLockLost (stackPort p)) s = .next ((s.setFlag (STK.LINKSTAT.BLOCK_LOCK p) false).stackTo p Lk.train))

/-- Qualification, status blocks and loss of a coupler link: In QUALIFYING, the end of the qualification timer sets the own qualified flag; a receive error counts a restart and leaves QUALIFYING, for TRAIN where block lock is held; a status block below LOCK does the same. In LOCK a status block is recorded with the partner's qualified flag. A link in service that is lost, misses its status blocks, or whose partner reports a state below QUALIFIED, falls to DETECT. A receive error in service is only counted. A pending loopback closes and shows LOOP. A stack link in service is counted or lost likewise, and another state of it ignores these events. -/
def Obligations.LinkQualificationSteps : Prop :=
  (∀ (s : State) (m : LinkIx), s.linkState m = Lk.qualifying →
    exec (.qualTimerExpiry m) s = .next ((s.setLink m { s.link m with ownQual := true }).linkQualCheck m)) ∧
  (∀ (s : State) (m : LinkIx), s.linkState m = Lk.qualifying →
    exec (.qualReceiveError (couplerPort m) .syncHeader) s =
      .next (s.linkQualError m (s.flag (RING.LINKSTAT.BLOCK_LOCK m)))) ∧
  (∀ (s : State) (m : LinkIx) (e : RxError), s.linkUp m = true →
    exec (.qualReceiveError (couplerPort m) e) s = .next (s.count (RING.LINKERR.ERR_CNT m) 1)) ∧
  (∀ (s : State) (p : Fin 2) (e : RxError), s.stackLink p = Lk.inRing →
    exec (.qualReceiveError (stackPort p) e) s = .next (s.count (STK.LINKERR.ERR_CNT p) 1)) ∧
  (∀ (s : State) (m : LinkIx), s.linkUp m = true → exec (.linkLoss (couplerPort m)) s = .next (s.linkLost m Lk.detect)) ∧
  (∀ (s : State) (p : Fin 2), s.stackLink p = Lk.inRing →
    exec (.linkLoss (stackPort p)) s = .next (s.stackLost p Lk.detect)) ∧
  (∀ (s : State) (m : LinkIx), s.linkUp m = true → exec (.statusBlockMissing m) s = .next (s.linkLost m Lk.detect)) ∧
  (∀ (s : State) (m : LinkIx) (b : StatusBlock), s.linkState m = Lk.lock →
    exec (.statusBlockReceive m b) s =
      .next ((((s.setLink m { s.link m with partnerState := b.state, partnerUid := some b.uid16 }).setFlag
        (RING.LINKSTAT.PARTNER_QUAL m) b.qualified)).linkLockCheck m)) ∧
  (∀ (s : State) (m : LinkIx) (b : StatusBlock), s.linkUp m = true → b.state < Lk.qualified →
    exec (.statusBlockReceive m b) s = .next (s.linkLost m Lk.detect)) ∧
  (∀ (s : State) (m : LinkIx), (s.link m).closePend = true →
    exec (.loopbackClose m) s =
      .next ((s.setFlag (RING.LINKSTAT.LOOP m) true).setLink m { s.link m with closePend := false })) ∧
  (∀ (s : State) (m : LinkIx), (s.link m).closePend = false → exec (.loopbackClose m) s = .next s)

/-- Transmitter settings, lane tests and link control by the host: TXEQ_APPLY takes the swing and the de-emphasis (at most 0xC) from the port's register. While a PRBS checker runs, its lock sets CHK_LOCK; a resynchronisation with lock counts 32 errors and clears it; an injection sends one inverted bit, counted as an error where the own lane loops back with lock. A host write of LANE_TEST MODE to a link in service is refused and counted (a stack link: no effect); to another link it clears both counters and CHK_LOCK. DISABLE and RETRAIN writes take effect through the register's access and not at all where the register's domain is down. -/
def Obligations.LaneTestAndLinkControl : Prop :=
  (∀ (s : State) (m : LinkIx), exec (.txeqApply (couplerPort m)) s =
    .next (s.setLink m { s.link m with
      swing := s.get (RING.TXEQ.SWING m), deemph := min (s.get (RING.TXEQ.DEEMPH m)) 0xC })) ∧
  (∀ (s : State) (p : Fin 2), exec (.txeqApply (stackPort p)) s =
    .next { s with stk := { s.stk with eq := s.stk.eq.set p (s.get (STK.TXEQ.SWING p), min (s.get (STK.TXEQ.DEEMPH p)) 0xC) } }) ∧
  (∀ (s : State) (m : LinkIx), s.linkState m = Lk.test → 2 ≤ s.get (RING.LTEST.MODE m) →
    exec (.prbsCheckerLock (couplerPort m)) s = .next (s.setFlag (RING.LTEST.CHK_LOCK m) true)) ∧
  (∀ (s : State) (p : Fin 2), s.stackPrbs p = true →
    exec (.prbsCheckerLock (stackPort p)) s = .next (s.setFlag (STK.LTEST.CHK_LOCK p) true)) ∧
  (∀ (s : State) (m : LinkIx), s.linkState m = Lk.test → 2 ≤ s.get (RING.LTEST.MODE m) → s.flag (RING.LTEST.CHK_LOCK m) = true →
    exec (.prbsCheckerResync (couplerPort m)) s =
      .next ((s.count (RING.PRBS_ERR.ERR m) 32).setFlag (RING.LTEST.CHK_LOCK m) false)) ∧
  (∀ (s : State) (p : Fin 2), s.stackPrbs p = true → s.flag (STK.LTEST.CHK_LOCK p) = true →
    exec (.prbsCheckerResync (stackPort p)) s =
      .next ((s.count (STK.PRBS_ERR.ERR p) 32).setFlag (STK.LTEST.CHK_LOCK p) false)) ∧
  (∀ (s : State) (m : LinkIx) (mode : Fin 4), s.reaches (RING.LTEST.off 0) = true → s.linkUp m = true →
    s.get (RING.LTEST.MODE m) ≠ mode.val →
    exec (.laneTestModeWrite (couplerPort m) mode) s = .next (s.uncaptured.count RING.LINK_EVT.TEST_REFUSED 1)) ∧
  (∀ (s : State) (m : LinkIx), s.reaches (RING.LTEST.off 0) = true → s.linkState m = Lk.detect → s.get (RING.LTEST.MODE m) = 0 →
    exec (.laneTestModeWrite (couplerPort m) 3) s =
      .next (((((s.uncaptured.set (RING.LTEST.MODE m) 3).set (RING.PRBS_ERR.ERR m) 0).set (RING.PRBS_BITS.BITS m) 0).setFlag
        (RING.LTEST.CHK_LOCK m) false).linkTo m Lk.test)) ∧
  (∀ (s : State) (p : Fin 2), s.reaches (STK.LTEST.off 0) = true → s.stackLink p = Lk.detect → s.get (STK.LTEST.MODE p) = 0 →
    exec (.laneTestModeWrite (stackPort p) 2) s =
      .next (((((s.uncaptured.set (STK.LTEST.MODE p) 2).set (STK.PRBS_ERR.ERR p) 0).set (STK.PRBS_BITS.BITS p) 0).setFlag
        (STK.LTEST.CHK_LOCK p) false).stackTo p Lk.test)) ∧
  (∀ (s : State) (m : LinkIx), s.reaches (RING.LTEST.off 0) = true → s.linkState m = Lk.test → s.get (RING.LTEST.MODE m) = 2 →
    exec (.prbsInjectWrite (couplerPort m)) s = .next (s.uncaptured.emit (.prbsInvert m))) ∧
  (∀ (s : State) (p : Fin 2), s.reaches (STK.LTEST.off 0) = true → s.stackPrbs p = true → s.get (STK.LTEST.MODE p) = 2 →
    exec (.prbsInjectWrite (stackPort p)) s = .next (s.uncaptured.emit (.prbsInvert (4 + p)))) ∧
  (∀ (s : State) (m : LinkIx), s.reaches RING.LINK_CTRL.off = true → s.getBit RING.LINK_CTRL.DISABLE m = false → s.linkUp m = true →
    exec (.linkDisableWrite m true) s =
      .next ((s.uncaptured.putBit RING.LINK_CTRL.DISABLE m true).linkLost m Lk.disabled)) ∧
  (∀ (s : State) (m : LinkIx), s.reaches RING.LINK_CTRL.off = true → s.linkState m = Lk.test →
    exec (.linkRetrainWrite m) s = .next ((s.uncaptured.putBit RING.LINK_CTRL.RETRAIN m true).linkTo m Lk.detect)) ∧
  (∀ (s : State) (m : LinkIx) (on : Bool), s.reaches RING.LINK_CTRL.off = false →
    exec (.linkDisableWrite m on) s = .next s.uncaptured ∧ exec (.linkRetrainWrite m) s = .next s.uncaptured)

/-- Frames, line merge and cells: A frame that reaches the ring engine has the engine's effect, and one over a link that is not in service, of another launcher, has none. The line merge of a follower's tick is that of the layout in force, and has no effect where RING is down. LINE_DEGRADED and line-short indications clear after 48 good ticks. The late check of a line with no provisional copy outstanding leaves the provisional list without that line. A staged cell is built and queued. A cell with a wrong check is counted and dropped. A partial message that times out is counted and dropped; without one nothing changes. -/
def Obligations.FrameAndCellCommands : Prop :=
  (∀ (s : State) (f : RxFrame), s.domOn Dom.ring = true → s.linkUp (linkOf f.line f.fore) = true →
    exec (.frameReceived f) s = .next (s.frameIn f)) ∧
  (∀ (s : State) (f : RxFrame), s.linkUp (linkOf f.line f.fore) = false → s.launches = false →
    exec (.frameReceived f) s = .next s) ∧
  (∀ (s : State) (l : Layout) (tseq : Nat), s.layout? = some l → s.domOn Dom.ring = true →
    exec (.lineMerge tseq) s = .next (s.lineMerge l tseq)) ∧
  (∀ s : State, s.flag RING.LINE_STAT.DEGRADED_A = true → 48 ≤ s.ring.okRunA →
    exec (.lineDegradedClear .a) s =
      .next ((s.setFlag RING.LINE_STAT.DEGRADED_A false).evt RING.LINE_STAT.DEG_EVT_A 1 Src.RING_LINE_DEGRADED)) ∧
  (∀ s : State, s.flag RING.LINE_STAT.DEGRADED_B = true → 48 ≤ s.ring.okRunB →
    exec (.lineDegradedClear .b) s =
      .next ((s.setFlag RING.LINE_STAT.DEGRADED_B false).evt RING.LINE_STAT.DEG_EVT_B 1 Src.RING_LINE_DEGRADED)) ∧
  (∀ s : State, 48 ≤ s.red.equalRun →
    exec .lineShortClear s = .next ((s.setFlag RED.STAT.SHORT_A false).setFlag RED.STAT.SHORT_B false)) ∧
  (∀ (s : State) (l : Layout) (ln : Line) (tseq : Nat), s.layout? = some l → s.ring.provisional.filter (fun e => e.2 == ln) = [] →
    exec (.relayLateCheck ln tseq) s =
      .next { s with ring := { s.ring with provisional := s.ring.provisional.filter (fun e => e.2 != ln) } }) ∧
  (∀ (s : State) (kind pos sub frag id : Nat) (last : Bool) (pay : List Nat),
    s.encRequired kind = false → kind ≠ Kind.layout → kind ≠ Kind.inaug →
    exec (.cellStage kind pos sub frag last id false pay) s =
      .next (s.queueCell (s.cellPlain (0x40 + kind % 32) pos sub id frag last (pay.take 212)))) ∧
  (∀ (s : State) (ln : Line), exec (.cellExpire ln) s = .next ((s.cellsExpire ln).relayExpired (s.agedIds ln Kind.eth))) ∧
  (∀ (s : State) (c : Bytes), s.domOn Dom.ring = true → s.hasMembers = false → c.le 252 4 ≠ crc32c (c.slice 0 252) →
    exec (.cellReceive c) s = .next (s.count RING.CELL_ERR.CHK 1)) ∧
  (∀ (s : State) (pos sub id : Nat),
    s.ring.partials.any (fun p => p.srcPos == pos && p.srcSub == sub && p.msgId == id) = true →
    exec (.reasmTimeout pos sub id) s =
      .next { s.count RING.CELL_ERR.REASM 1 with ring := { s.ring with
        partials := s.ring.partials.filter (fun p => !(p.srcPos == pos && p.srcSub == sub && p.msgId == id)) } }) ∧
  (∀ (s : State) (pos sub id : Nat),
    s.ring.partials.any (fun p => p.srcPos == pos && p.srcSub == sub && p.msgId == id) = false →
    exec (.reasmTimeout pos sub id) s = .next s)

/-- The phases of an inauguration at the node that launches it: Each phase event in its phase has the effect of its row: the settle end starts the count; the count timeout counts agreed nodes or abandons; a claim pair launch counts the round; a compute timeout abandons; the end of the distribution announces the switch at the tick named by SWITCH_LEAD. A layout fragment not acknowledged is sent again under the same message. In any other phase nothing changes. -/
def Obligations.InaugurationSteps : Prop :=
  (∀ s : State, s.isMaster = true → s.phase = Phase.settle → s.decikRuns = true → s.inaug.lossWait = false →
    exec .inaugSettleEnd s = .next (s.startCount s.newTopo s.newLayout)) ∧
  (∀ s : State, s.launches = true → s.phase = Phase.count → s.inaug.agreedA = 0 → s.inaug.agreedB = 0 →
    exec .countTimeout s = .next s.inaugAbandon) ∧
  (∀ s : State, s.launches = true → s.phase = Phase.count → s.inaug.agreedA ≠ 0 →
    exec .countTimeout s = .next s.countAgreed) ∧
  (∀ s : State, s.launches = true → s.phase = Phase.acquire →
    exec .claimPairLaunch s =
      .next { s.set RING.INAUG_STAT.PHASE Phase.claim with inaug := { s.inaug with iround := min (s.inaug.iround + 1) 255, claimPair := 2 } }) ∧
  (∀ s : State, s.launches = true → s.phase = Phase.claim → s.inaug.slots = [] →
    exec .claimWindowEnd s = .next ((s.toPhase Phase.compute).setGen false)) ∧
  (∀ s : State, s.launches = true → s.phase = Phase.compute → exec .computeTimeout s = .next s.inaugAbandon) ∧
  (∀ (s : State) (p : LayoutPlan), s.launches = false → s.isMaster = false → exec (.layoutComputeDone p) s = .next s) ∧
  (∀ (s : State) (p : LayoutPlan), s.launches = true → s.phase = Phase.compute →
    ∃ t, exec (.layoutComputeDone p) s = .next t ∧ t.inaug.acked = [1] ∧ t.inaug.image.isSome = true ∧
      t.inaug.frags = (List.range 20).map (fun i => (i, 0)) ∧
      t.inaug.admissions.map (·.1) = s.countedHops) ∧
  (∀ (s : State) (l : Layout) (k : Nat) (c : List Nat), s.phase = Phase.distribute → s.inaug.image = some l →
    (chunks 212 256 (l.image.slice 0 4096))[k]? = some c →
    exec (.layoutFragmentResend k) s =
      .next (s.stageCell Kind.layout 0xFF 0xFF ((s.ring.msgId + 2 ^ 16 - 1) % 2 ^ 16) k (k == 19) false c)) ∧
  (∀ s : State, s.launches = true → s.phase = Phase.distribute →
    ∃ t, exec .distributeEnd s = .next t ∧ t.flag RING.INAUG_STAT.SW_PEND = true ∧ t.inaug.announced = true ∧
      t.ring.topoChg = false ∧
      t.get RING.SWITCH_TSEQ.TSEQ = (s.tickSeq + 1 + s.get RING.INAUG_CFG.SWITCH_LEAD) % 2 ^ 32) ∧
  (∀ s : State, s.launches = false →
    exec .countTimeout s = .next s ∧ exec .claimPairLaunch s = .next s ∧ exec .claimWindowEnd s = .next s ∧
      exec .computeTimeout s = .next s ∧ exec .distributeEnd s = .next s)

/-- Layout switch, fast shrink, backoff, rank and the start of forming: A pending switch takes the new topology, and a fast shrink in hand is applied; without one nothing changes. The end of the backoff starts an inauguration where one is wanted. A layout due for saving is saved in durable memory, and RED.EPOCH.SAVED shows its epoch. A node that has adopted a partner discards the join when told. RANK is written through the register's access. The end of the ring hold lets the node form; the end of the forming wait at a node that may form starts an island with a new topology number in layout 1. -/
def Obligations.TopologyChanges : Prop :=
  (∀ s : State, s.inaug.announced = true →
    exec .layoutSwitch s =
      .next ((s.layoutSwitch.handoverDone (s.get RING.ENG_STAT.TOPO) s.ring.followUid).afterTopology)) ∧
  (∀ s : State, s.flag RING.INAUG_STAT.SW_PEND = false → s.inaug.announced = false → exec .layoutSwitch s = .next s) ∧
  (∀ s : State, s.inaug.shrink.isSome = true → exec .fastShrinkApply s = .next s.fastShrink.afterTopology) ∧
  (∀ s : State, s.inaug.trigger = false →
    exec .inaugBackoffExpiry s = .next { s with inaug := { s.inaug with backoff := false } }) ∧
  (∀ s : State, s.inaug.trigger = true →
    exec .inaugBackoffExpiry s = .next (State.inaugTrigger { s with inaug := { s.inaug with backoff := false } })) ∧
  (∀ s : State, s.dring.saveDue = true →
    exec .layoutSave s = .next { s.set RED.EPOCH.SAVED s.ring.followEpoch with dring := {
      layout := s.ring.layout, topo := (s.set RED.EPOCH.SAVED s.ring.followEpoch).get RING.ENG_STAT.TOPO,
      epoch := s.ring.followEpoch, seq := s.dring.seq + 1, saveDue := false } }) ∧
  (∀ s : State, s.dring.saveDue = false → exec .layoutSave s = .next s) ∧
  (∀ s : State, s.inaug.adopted = true →
    ∃ t, exec .joinDiscard s = .next t ∧ t.inaug.adopted = false ∧ t.ring.layout = none ∧ t.ring.followUid = 0 ∧
      t.get RING.ENG_STAT.ROLE = 3 ∧ t.get RING.ENG_STAT.TOPO = 0 ∧ t.get RING.LAYOUT.LAYOUT_VER = 0) ∧
  (∀ (s : State) (k : Fin 16), s.reaches RING.INAUG_CFG.off = true → exec (.rankWrite k) s = .next (s.uncaptured.rankSet k)) ∧
  (∀ s : State, exec .ringHoldExpire s = .next (State.formingStart { s with inaug := { s.inaug with ringHold := false } })) ∧
  (∀ s : State, s.mayForm = false → exec .formingWaitEnd s = .next s) ∧
  (∀ s : State, s.mayForm = true → s.inaug.formingWait = true →
    ∃ t, exec .formingWaitEnd s = .next t ∧ t.ring.followUid = s.uid ∧ t.inaug.launching = true)

/-- Handshakes and the merge of two islands: A handshake over a link that is not QUALIFIED, or of another frame type, is ignored; one with a wrong check is only counted. After 96 measured exchanges the winner in phase B fixes the merge tick at least 96 ticks ahead and the step that undoes the measured offset. The end of the mute begins a rise of 48 ticks. A partner whose tag keeps failing ends the merge with TAG. A phase timeout ends it with TIME. A retry starts again with a partner that still runs. At the merge tick the losing island steps. -/
def Obligations.MergeSteps : Prop :=
  (∀ (s : State) (m : LinkIx) (b : Bytes) (a : Nat), s.linkState m ≠ Lk.qualified → exec (.handshakeReceive m b a) s = .next s) ∧
  (∀ (s : State) (m : LinkIx) (b : Bytes) (a : Nat), s.linkState m = Lk.qualified → b.ftype = 3 → b.hdrOk = false →
    exec (.handshakeReceive m b a) s = .next (s.count RING.HS_ERR.CHK 1)) ∧
  (∀ (s : State) (m : LinkIx) (b : Bytes) (a : Nat), s.linkState m = Lk.qualified → b.ftype = 3 → b.hdrOk = true →
    ∃ t, exec (.handshakeReceive m b a) s = .next t) ∧
  (∀ (s : State) (lead : Nat), s.inaug.merge.phase = .b → s.inaug.merge.winner = true → 96 ≤ s.inaug.merge.samples →
    s.phase = Phase.idle →
    ∃ t, exec (.mergeMeasureDone lead) s = .next t ∧ t.inaug.merge.hsStep = 1 ∧
      t.inaug.merge.mergeTick = (s.tickSeq + max lead 96) % 2 ^ 32 ∧
      t.inaug.merge.stepNs = -(roundDiv s.inaug.merge.thetaSum (2 * s.inaug.merge.samples))) ∧
  (∀ s : State, s.inaug.merge.muted = true → s.inaug.merge.phase = .e →
    exec .mergeMuteEnd s = .next { s with inaug := { s.inaug with merge := { s.inaug.merge with
      muted := false, rise := 48, phase := .f } } }) ∧
  (∀ s : State, s.inaug.merge.muted = false → exec .mergeMuteEnd s = .next s) ∧
  (∀ (s : State) (m : LinkIx) (r : PartnerRec), s.linkState m = Lk.qualified →
    s.inaug.partners.find? (fun e => e.1 == m.val) = some (m.val, r) → r.tagOk = false →
    exec (.mergeTagRefuse m) s = .next (((s.set RING.MERGE_STAT.LINK m.val).mergeEnd MergeResult.tag).ringAuthFail)) ∧
  (∀ s : State, s.inaug.merge.phase ≠ .idle →
    exec .mergePhaseTimeout s = .next ((s.setFlag RING.INAUG_STAT.SW_PEND false).mergeEnd MergeResult.time)) ∧
  (∀ s : State, s.inaug.merge.retryWait = false → exec .mergeRetry s = .next s) ∧
  (∀ (s : State) (r : PartnerRec), s.inaug.merge.retryWait = true →
    s.inaug.partners.find? (fun e => e.1 == s.inaug.merge.link) = some (s.inaug.merge.link, r) → r.hsState = Hs.running →
    exec .mergeRetry s = .next (State.mergeStart { s with inaug := { s.inaug with merge := { s.inaug.merge with
      retryWait := false } } } s.inaug.merge.link r.count)) ∧
  (∀ s : State, s.stepWaits = true →
    exec .mergeStep s =
      .next ((((s.voiceMerge s.mergeTick).cancelTimed s.inaug.merge.mergeTick).cfgCancel).mergeStep)) ∧
  (∀ s : State, s.stepWaits = false → exec .mergeStep s = .next s)

/-- No k faulty clocks can move the round result beyond the good ones: For every non-empty list of mean deviations of a round, with n entries and the discard count k of the table (0 up to 3 entries, 1 up to 6, otherwise 2), and every interval: where at most k entries lie outside the interval, the round result lies in it. So with 4 entries one faulty clock, and with 7 two, move train time no further than the good clocks do; and k is that of the table for 1 to 8 entries. -/
def Obligations.FaultTolerantAverage : Prop :=
  (∀ (part : List (Nat × Int)) (lo hi : Int), part ≠ [] →
    (part.filter (fun e => !(decide (lo ≤ e.2) && decide (e.2 ≤ hi)))).length ≤ discardCount part.length →
    lo ≤ averageDevs part ∧ averageDevs part ≤ hi) ∧
  (List.range 9).map discardCount = [0, 0, 0, 0, 1, 1, 1, 2, 2]

/-- A tick slews node time by the remainder or by 20 ns, whichever is smaller: For every state, with the slew remainder read as a signed number: the slew of a tick leaves a remainder of the same sign (or zero), reduced in magnitude by exactly the smaller of its magnitude and 320 sixteenths of a nanosecond (20 ns), and changes no other register word. -/
def Obligations.SlewIsBounded : Prop :=
  ∀ s : State,
    let r := toSigned 32 (s.get SYNC.SLEW_REM.REM)
    let r' := toSigned 32 (s.slewTick.get SYNC.SLEW_REM.REM)
    r'.natAbs = r.natAbs - min r.natAbs 320 ∧ (0 ≤ r → 0 ≤ r') ∧ (r ≤ 0 → r' ≤ 0) ∧
      ∀ a : Nat, a ≠ SYNC.SLEW_REM.REM.off → s.slewTick.word a = s.word a

/-- Synchronisation rounds, steps, lock and the media clock: The end of a round that no event discarded evaluates its entries, or counts a round without entries; a discarded round is not evaluated; in each case the next round begins and PTP_DIFF and PTP_RATIO follow. A due step in ACQUIRING moves node time by the whole result, clears the slew remainder and restarts the lock count; without one nothing changes. A lock count of 48 in ACQUIRING enters LOCKED. HOLD_ROUNDS rounds without entries end in LOST (state 0). The PLL's loss of lock is an AUD port event; its lock is taken where RING is on. -/
def Obligations.SyncRoundsAndLock : Prop :=
  (∀ s : State, s.clk.roundVoid = true → exec .roundEnd s = .next s.startRound.roundPtp) ∧
  (∀ s : State, s.get STK.STAT.ROLE = 1 → s.flag STK.STAT.TIME_LOCK = true → exec .roundEnd s = .next s.startRound.roundPtp) ∧
  (∀ s : State, s.clk.roundVoid = false → s.get STK.STAT.ROLE ≠ 1 → s.roundEntries ≠ [] →
    exec .roundEnd s = .next (s.roundResult s.roundEntries).startRound.roundPtp) ∧
  (∀ s : State, s.clk.roundVoid = false → s.get STK.STAT.ROLE ≠ 1 → s.roundEntries = [] →
    exec .roundEnd s = .next s.roundEmpty.startRound.roundPtp) ∧
  (∀ (s : State) (d : Int), s.clk.stepDue = some d → s.syncState = 1 →
    exec .acquireStep s = .next (((State.stepTime { s with clk := { s.clk with stepDue := none } }
      (roundDiv (d * 3) 1000)).set SYNC.SLEW_REM.REM 0).set SYNC.STAT.LOCK_CNT 0)) ∧
  (∀ s : State, s.clk.stepDue = none → exec .acquireStep s = .next s) ∧
  (∀ s : State, s.syncState = 1 → 48 ≤ s.get SYNC.STAT.LOCK_CNT → exec .syncLock s = .next s.enterLocked) ∧
  (∀ s : State, s.get SYNC.STAT.LOCK_CNT < 48 → exec .syncLock s = .next s) ∧
  (∀ s : State, s.clk.cfg.holdRounds ≤ s.clk.noEntryRounds → s.inSync = true →
    exec .holdoverExpire s = .next (s.leaveLocked 0 2)) ∧
  (∀ s : State, s.clk.noEntryRounds < s.clk.cfg.holdRounds → exec .holdoverExpire s = .next s) ∧
  (∀ s : State, exec .mclkUnlock s = .next ((s.mclkLock false).evt AUD.PORT_EVT.MCLK_UNLOCK 1 Src.AUD_PORT_ERR)) ∧
  (∀ s : State, s.domOn Dom.ring = true → exec .mclkPllLock s = .next (s.mclkLock true))

/-- Heartbeat losses and takeovers: The loss of the ring heartbeat clears RED.STAT.RING_HB; with the CAN heartbeat lost too the master has failed. The loss of the CAN heartbeat with the ring present is a CAN path fault, otherwise the master has failed. A heartbeat lost already changes nothing. The designated standby (MROLE 2) of a failed master takes over; a reserve candidate (MROLE 3) with a layout in force takes over from it. A node that is not affected by a failure does neither. -/
def Obligations.RedundancyTakeovers : Prop :=
  (∀ s : State, s.flag RED.STAT.RING_HB = true → s.flag RED.STAT.CAN_HB = true →
    exec .ringHbLost s = .next (s.setFlag RED.STAT.RING_HB false)) ∧
  (∀ s : State, s.flag RED.STAT.RING_HB = true → s.flag RED.STAT.CAN_HB = false →
    exec .ringHbLost s = .next (s.setFlag RED.STAT.RING_HB false).masterFailed) ∧
  (∀ s : State, s.flag RED.STAT.RING_HB = false → exec .ringHbLost s = .next s) ∧
  (∀ s : State, s.flag RED.STAT.CAN_HB = true → s.flag RED.STAT.RING_HB = true →
    exec .canHbLost s = .next (s.setFlag RED.STAT.CAN_HB false).canPathFault) ∧
  (∀ s : State, s.flag RED.STAT.CAN_HB = true → s.flag RED.STAT.RING_HB = false →
    exec .canHbLost s = .next (s.setFlag RED.STAT.CAN_HB false).masterFailed) ∧
  (∀ s : State, s.flag RED.STAT.CAN_HB = false → exec .canHbLost s = .next s) ∧
  (∀ (s : State) (us10 : Nat), s.red.failed = true → s.net.agreed = none → s.get RED.STAT.MROLE = 2 →
    exec (.coldTakeoverLaunch us10) s = .next (s.takeOver us10)) ∧
  (∀ (s : State) (us10 : Nat) (l : Layout), s.red.failed = true → s.net.agreed = none → s.isMaster = false → s.ring.layout = some l →
    s.get RED.STAT.MROLE = 3 → exec (.reserveTakeover us10) s = .next (s.takeOver us10)) ∧
  (∀ (s : State) (us10 : Nat), s.red.failed = false →
    exec (.coldTakeoverLaunch us10) s = .next s ∧ exec (.reserveTakeover us10) s = .next s)

/-- Twin records, partner loss, pair failure and the resume after a resynchronisation: A failed record, or one over a pair 1 that is down, counts as missing and has no effect; a good one sets RECORD_OK and is kept, and where its region check equals the own one of that tick the run of divergences ends. The loss of the partner of a twin that is not sole yet makes the node sole (RED.STAT.TWIN 3), clears MIRROR and RECORD_OK, and lets the node write. The failure of pair 0 clears PAIR0_UP and MIRROR; that of pair 1 PAIR1_UP and RECORD_OK, and a follower stops writing. Outside a twin nothing changes. A resume completes a waiting TWIN_RESYNC with the tick. -/
def Obligations.TwinEvents : Prop :=
  (∀ (s : State) (r : TwinRecord), r.good = false → exec (.twinRecordReceive r) s = .next s) ∧
  (∀ (s : State) (r : TwinRecord), s.twinOn = true → s.flag RED.TWIN_STAT.PAIR1_UP = true → r.good = true → s.twinState ≠ 2 →
    s.red.checks.find? (fun c => c.1 == r.tick) = none →
    ∃ t, exec (.twinRecordReceive r) s = .next t ∧ t.flag RED.TWIN_STAT.RECORD_OK = true ∧
      t.red.records = s.red.records ++ [r] ∧ t.red.missRun = 0 ∧ t.mbx.timed = s.mbx.timed) ∧
  (∀ (s : State) (r : TwinRecord) (k : Nat), s.twinOn = true → s.flag RED.TWIN_STAT.PAIR1_UP = true → r.good = true → s.twinState ≠ 2 →
    s.red.checks.find? (fun c => c.1 == r.tick) = some (k, r.regionCheck) →
    ∃ t, exec (.twinRecordReceive r) s = .next t ∧ t.red.divergeRun = 0) ∧
  (∀ s u v t : State, s.twinOn = true → s.twinState ≠ 3 → s.twinState ≠ 0 →
    u = (((s.setFlag RED.TWIN_STAT.MIRROR false).setFlag RED.TWIN_STAT.RECORD_OK false).set RED.STAT.TWIN 3).evt RED.EVT.TWIN_LOSS 1
      Src.STACK_EVENT →
    v = u.post Evt.TWIN_LOSS 0 (leBytes 8 (u.get64 RED.TWIN_PART_LO.UID RED.TWIN_PART_HI.UID)) →
    t = State.driveOutActive { v with red := { v.red with twinWrites := true } } →
    exec (.twinPartnerLoss false) s = .next (if t.isMaster && t.flag RED.TWIN_CFG.HOT then t.hotTakeover else t)) ∧
  (∀ (s : State) (lost : Bool), s.twinState = 3 → exec (.twinPartnerLoss lost) s = .next s) ∧
  (∀ s : State, s.twinOn = true →
    exec (.twinPairFail 0) s = .next (((s.post Evt.TWIN_LINK_DEGRADED 0 []).setFlag RED.TWIN_STAT.PAIR0_UP false).setFlag
      RED.TWIN_STAT.MIRROR false)) ∧
  (∀ s t : State, s.twinOn = true →
    t = ((s.post Evt.TWIN_LINK_DEGRADED 1 []).setFlag RED.TWIN_STAT.PAIR1_UP false).setFlag RED.TWIN_STAT.RECORD_OK false →
    exec (.twinPairFail 1) s =
      .next (if t.twinState == 2 then { t with red := { t.red with twinWrites := false } } else t)) ∧
  (∀ (s : State) (lost : Bool) (p : Fin 2), s.twinOn = false →
    exec (.twinPartnerLoss lost) s = .next s ∧ exec (.twinPairFail p) s = .next s) ∧
  (∀ s : State, exec .twinResyncResume s =
    .next (s.twinResume.finishAll (fun p => p == Pend.resync) Status.ok (leBytes 4 s.tickSeq)))

/-- The tick boundary and the cab switch: A node without VAO does nothing at a tick boundary; otherwise the boundary ends the tick, begins the next one and refreshes the units. A change of CAB_ACTIVE is taken with its holds; in the idle phase a node with a position reports it, during an inauguration the report waits; no change of level, no report. -/
def Obligations.TickAndCabSwitch : Prop :=
  (∀ (s : State) (t : TickIn), s.isOff = true → exec (.tickBoundary t) s = .next s) ∧
  (∀ (s : State) (t : TickIn), s.isOff = false →
    exec (.tickBoundary t) s = .next ((s.tickAlways.tickEnds t s.clk.n).tickBegins t s.clk.n).tickUnits) ∧
  (∀ (s : State) (on : Bool), s.pins.cabActive = on → exec (.cabActiveChange on) s = .next (s.cabLevel on)) ∧
  (∀ (s : State) (on : Bool), s.pins.cabActive ≠ on → (s.cabLevel on).decikRuns = true → (s.cabLevel on).position ≠ 0 →
    (s.cabLevel on).phase = Phase.idle → exec (.cabActiveChange on) s = .next (s.cabLevel on).cabReport) ∧
  (∀ (s : State) (on : Bool), s.pins.cabActive ≠ on → (s.cabLevel on).decikRuns = true → (s.cabLevel on).position ≠ 0 →
    (s.cabLevel on).phase ≠ Phase.idle → exec (.cabActiveChange on) s =
      .next { s.cabLevel on with inaug := { (s.cabLevel on).inaug with cabPend := true } })

/-- TDM ports, the host DMA, stale output and timed changes: A write that enables a TDM port that is off sets EN and lets the port start at the second boundary; at the start the port runs where the media clock is locked. A write that disables it clears EN and lets it stop at the end of its frame; enabling an enabled port and disabling a disabled one change nothing. The words of a host read in time (18.0 µs) are delivered as the samples of 64 channels, a word without bit 7 as none; a read that comes later is counted and repeated. The end of a stale fade sets the place's STALE_MAP bit and its event. The changes due are applied, unit changes first, in their order. -/
def Obligations.TdmHostAndTimedAudio : Prop :=
  (∀ (s : State) (n : Fin 8), s.reaches (AUD.TDM_CFG.off n) = true → s.flag (AUD.TDM_CFG.EN n) = false →
    exec (.tdmPortEnable n) s = .next ((s.uncaptured.setFlag (AUD.TDM_CFG.EN n) true).setPort n.val ⟨some 2, false, 0, 0⟩)) ∧
  (∀ (s : State) (n : Fin 8), s.reaches (AUD.TDM_CFG.off n) = true → s.flag (AUD.TDM_CFG.EN n) = true →
    exec (.tdmPortEnable n) s = .next s.uncaptured) ∧
  (∀ (s : State) (n : Fin 8), s.flag (AUD.TDM_CFG.EN n) = true → (s.aud.port n.val).startIn = some 0 →
    s.flag SYNC.MCLK_STAT.PLL_LOCK = true →
    exec (.tdmPortStart n) s = .next ((s.setTdmRun n.val true).setPort n.val { s.aud.port n.val with startIn := none })) ∧
  (∀ (s : State) (n : Fin 8), s.flag (AUD.TDM_CFG.EN n) = false → exec (.tdmPortStart n) s = .next s) ∧
  (∀ (s : State) (n : Fin 8), s.reaches (AUD.TDM_CFG.off n) = true → s.flag (AUD.TDM_CFG.EN n) = false →
    exec (.tdmPortDisable n) s = .next s.uncaptured) ∧
  (∀ (s t : State) (n : Fin 8), s.reaches (AUD.TDM_CFG.off n) = true → s.flag (AUD.TDM_CFG.EN n) = true →
    t = s.uncaptured.setFlag (AUD.TDM_CFG.EN n) false →
    exec (.tdmPortDisable n) s = .next (t.setPort n.val { t.aud.port n.val with startIn := none, stopping := t.tdmRuns n.val })) ∧
  (∀ (s : State) (ws : List Nat) (p : Nat), s.aud.hdmaRead = false → exec (.hdmaReadComplete ws p) s = .next s) ∧
  (∀ (s : State) (ws : List Nat) (p : Nat), s.aud.hdmaRead = true → p ≤ 18000 →
    exec (.hdmaReadComplete ws p) s = .next ((List.range 64).foldl (fun (t : State) (h : Nat) =>
      t.deliver (srcHost + h) (s.clk.n + b2n s.twinOn)
        (if bit (ws.getD h 0) 7 then .fresh (toSigned 24 (ws.getD h 0 / 256 % 2 ^ 24)) 0 else .none))
      { s with aud := { s.aud with hdmaRead := false, hdmaMiss := 0 } })) ∧
  (∀ (s t u : State) (ws : List Nat) (p : Nat), s.aud.hdmaRead = true → 18000 < p →
    t = { s with aud := { s.aud with hdmaRead := false } } →
    u = (t.count AUD.HDMA_CNT.LATE 1).evt AUD.PORT_EVT.HDMA_LATE 1 Src.AUD_PORT_ERR →
    exec (.hdmaReadComplete ws p) s =
      .next (State.hostRepeat { u with aud := { u.aud with hdmaMiss := u.aud.hdmaMiss + 1 } } (s.clk.n + b2n s.twinOn))) ∧
  (∀ s : State, exec (.staleFadeEnd 3) s =
    .next ((s.putBit AUD.STALE_MAP.ZONE 3 true).evtBit AUD.STALE_EVT.ZONE 3 Src.AUD_STALE) ∧
    exec (.staleFadeEnd 16) s = .next ((s.putBit AUD.STALE_MAP.OUT_PORT 0 true).evtBit AUD.STALE_EVT.OUT_PORT 0 Src.AUD_STALE) ∧
    exec (.staleFadeEnd 24) s = .next ((s.putBit AUD.STALE_MAP.HOST 0 true).evtBit AUD.STALE_EVT.HOST 0 Src.AUD_STALE)) ∧
  (∀ (s : State) (k : Fin 25), ∃ t, exec (.staleFadeEnd k) s = .next t ∧ t.aud = s.aud) ∧
  (∀ (s t : State) (due : List Timed), s.takeDue (fun x => x.opcode != 0x0202 && x.opcode != 0x0204) = (due, t) →
    exec .timedChangeApply s =
      .next ((due.filter (fun x => !(x.opcode == 0x010A || x.opcode == 0x010B))).foldl (fun (u : State) (x : Timed) => u.applyTimed x)
        (t.applyUnits (due.filter (fun x => x.opcode == 0x010A || x.opcode == 0x010B)))))

/-- Echo cancellers, notches, call paths and noise-dependent gain: A divergence of a running AEC sets DIVERGE and RESET, counts it and clears its convergence. A howl on an enabled microphone adds a notch of 6 dB, the oldest of eight leaving; a re-triggered notch deepens by 3 dB to at most 18 and is counted; a decayed one rises by 3 dB and is removed at 0. A call whose wait ends with no claim heard waits; one in FB_WAIT or CAN_PATH goes back to RING. A noise frame of a zone without the control changes nothing; with fewer than 100 frames and no fall-back the gain is held. NF_FALLBACK sets the zone's flag. -/
def Obligations.EchoHowlingAndNoise : Prop :=
  (∀ (s t : State) (e : Fin 8), s.flag (AUD.AEC_STAT.RUN e) = true →
    t = ((((s.evtBit AUD.AEC_EVT.DIVERGE e.val Src.AUD_AEC_DIVERGE).evtBit AUD.AEC_EVT.RESET e.val Src.AUD_AEC_DIVERGE).count
      (AUD.AEC_CNT.RESETS e) 1).setFlag (AUD.AEC_STAT.CONVERGED e) false).set (AUD.AEC_STAT.ERLE e) 0 →
    exec (.aecDiverge e) s =
      .next { t with vox := { t.vox with aecs := t.vox.aecs.modify e.val (fun x => { x with goodBlocks := 0 }) } }) ∧
  (∀ (s : State) (e : Fin 8), s.flag (AUD.AEC_STAT.RUN e) = false → exec (.aecDiverge e) s = .next s) ∧
  (∀ (s : State) (m : Fin 16) (f : Nat) (x : FbSt), s.vox.fbOf m.val = x → x.enabled = true → x.notches ≠ [] → x.notches.length < 8 →
    exec (.howlDetect m f) s = .next ((s.setFb m.val { x with
      notches := x.notches ++ [⟨f, 6⟩], lastHeld := some s.decik.upTicks }).count (AUD.FB_MIC.NOTCH_SETS m) 1)) ∧
  (∀ (s : State) (m : Fin 16) (f : Nat) (x : FbSt), s.vox.fbOf m.val = x → x.enabled = true → 8 ≤ x.notches.length →
    exec (.howlDetect m f) s = .next ((s.setFb m.val { x with
      notches := x.notches.drop 1 ++ [⟨f, 6⟩], lastHeld := some s.decik.upTicks }).count (AUD.FB_MIC.NOTCH_SETS m) 1)) ∧
  (∀ (s : State) (m : Fin 16) (f : Nat), (s.vox.fbOf m.val).enabled = false → exec (.howlDetect m f) s = .next s) ∧
  (∀ (s : State) (m : Fin 16) (f d : Nat) (x : FbSt), s.vox.fbOf m.val = x → x.notches = [⟨f, d⟩] → d < 18 →
    exec (.notchDeepen m f) s = .next ((s.setFb m.val { x with
      notches := [⟨f, min (d + 3) 18⟩], lastHeld := some s.decik.upTicks }).count (AUD.FB_MIC.NOTCH_SETS m) 1)) ∧
  (∀ (s : State) (m : Fin 16) (f : Nat), (s.vox.fbOf m.val).notches = [] → exec (.notchDeepen m f) s = .next s) ∧
  (∀ (s : State) (m : Fin 16) (f : Nat) (x : FbSt), s.vox.fbOf m.val = x → x.notches = [⟨f, 3⟩] →
    exec (.notchDecay m f) s = .next (s.setFb m.val { x with notches := [], lastHeld := some s.decik.upTicks })) ∧
  (∀ (s : State) (m : Fin 16) (f : Nat) (x : FbSt), s.vox.fbOf m.val = x → x.notches = [⟨f, 18⟩] →
    exec (.notchDecay m f) s = .next (s.setFb m.val { x with notches := [⟨f, 15⟩], lastHeld := some s.decik.upTicks })) ∧
  (∀ (s : State) (i : Fin 8), (s.callWait i.val).can.claims = [] → exec (.callFbWait i) s = .next (s.callWait i.val)) ∧
  (∀ (s : State) (i : Fin 8), s.callState i.val = CallState.wait →
    exec (.callRingReturn i) s = .next (s.callTo i.val CallState.ring)) ∧
  (∀ (s : State) (i : Fin 8), s.callState i.val ≠ CallState.wait → exec (.callRingReturn i) s = .next s) ∧
  (∀ (s t : State) (i : Fin 8) (c : CallSt) (r : Nat), s.vox.call i.val = some c → s.callState i.val = CallState.can →
    t = (((s.callTo i.val CallState.ring).evtBit AUD.CALL_EVT.FB i.val Src.AUD_CALL).setFlag (AUD.CALL_STAT.FLOOR i) false).feedEncoder
      c (s.get (AUD.CALL_STAT.CAN_CH i)) false →
    t.aud.ringInputOf c.far = some r →
    exec (.callCanReturn i) s = .next (t.moveFar c (fallbackSrc (s.get (AUD.CALL_STAT.CAN_CH i))) r)) ∧
  (∀ (s : State) (i : Fin 8), s.vox.call i.val = none → exec (.callCanReturn i) s = .next s) ∧
  (∀ (s : State) (z : Fin 16) (l : Option Nat) (x : NfSt), s.vox.nf[z.val]? = some x → x.enabled = false →
    exec (.noiseFrameEnd z l) s = .next s) ∧
  (∀ (s : State) (z : Fin 16) (v : Nat) (x : NfSt), s.vox.nf[z.val]? = some x → x.enabled = true → x.frames = [] →
    ∃ t, exec (.noiseFrameEnd z (some v)) s = .next t ∧ t.flag (AUD.NF_GAIN.HELD z) = true ∧
      t.flag (AUD.NF_GAIN.FALLBACK z) = false ∧ t.pins = s.pins ∧ t.store = s.store ∧
      t.vox.nf = s.vox.nf.set z.val { x with frames := [(s.decik.upTicks, v)], falling := false }) ∧
  (∀ (s t : State) (z : Fin 16) (x : NfSt), s.vox.nf[z.val]? = some x → x.enabled = true →
    t = (s.setFlag (AUD.NF_GAIN.FALLBACK z) true).setFlag (AUD.NF_GAIN.HELD z) false →
    exec (.nfFallback z) s = .next { t with vox := { t.vox with nf := t.vox.nf.set z.val { x with falling := true } } })

/-- Path monitor, STIPA, clips, voices and the recorder: A path-monitor window with no microphone of the zone's, or during a STIPA run of the zone, changes nothing; a valid one counts and shows delay and relative gain, and the fifth in a row at −10.0 dB or lower degrades the verdict. An aged-out OK or DEGRADED verdict returns to UNKNOWN. The noise phase of a STIPA run leads to the signal phase; a microphone fault or an interruption ends the run so. A pending delete completes once no voice uses the clip. A placed voice starts at its start tick, with its first sample; a voice that ends goes. A unit of an active channel is written to its place in the recorder region, and the head moves on; an inactive channel writes nothing. -/
def Obligations.PathMonitorClipsAndRecorder : Prop :=
  (∀ (s : State) (z : Fin 16) (x : PmonSt), s.vox.pmon[z.val]? = some x → exec (.pmonWindowEnd z []) s = .next s) ∧
  (∀ (s : State) (z m : Fin 16) (d e : Nat) (x : PmonSt) (g : Int), s.vox.pmon[z.val]? = some x → x.commission = none → s.vox.stipa = none →
    s.cfg.image.pmonMics.contains (z.val, m.val) = true → x.rel [(m.val, d, (e : Int))] = [(g, d)] → g ≤ -100 → x.low = 4 →
    s.get (AUD.PMON_STAT.VERDICT z) = Verdict.ok →
    ∃ t u : State, exec (.pmonWindowEnd z [(m.val, d, (e : Int))]) s = .next t ∧ t = u.verdictTo z.val Verdict.degraded ∧
      u.get (AUD.PMON_STAT.AGE_H z) = 0 ∧ u.get (AUD.PMON_GAIN.DELAY z) = min d 0xFFFF ∧
      u.vox.pmon = s.vox.pmon.set z.val { x with low := 5, high := 0 }) ∧
  (∀ (s t : State) (z : Fin 16), s.get (AUD.PMON_STAT.VERDICT z) = Verdict.ok ∨ s.get (AUD.PMON_STAT.VERDICT z) = Verdict.degraded →
    t = s.verdictTo z.val Verdict.unknown →
    exec (.pmonAgeOut z) s =
      .next { t with vox := { s.vox with pmon := s.vox.pmon.modify z.val (fun x => { x with low := 0, high := 0 }) } }) ∧
  (∀ (s : State) (z : Fin 16), s.get (AUD.PMON_STAT.VERDICT z) = Verdict.unknown → exec (.pmonAgeOut z) s = .next s) ∧
  (∀ (s : State) (r : StipaSt) (sti sg no : Nat) (low : Bool) (ti : List Nat), s.vox.stipa = some r →
    s.get AUD.STIPA_STAT.STATE = Stipa.noise →
    exec (.stipaPhaseEnd sti low false false ti sg no) s = .next (s.stipaSignal r)) ∧
  (∀ (s t : State) (r : StipaSt) (sti sg no : Nat) (low : Bool) (ti : List Nat), s.vox.stipa = some r →
    s.get AUD.STIPA_STAT.STATE = Stipa.signal →
    t = ((s.set AUD.STIPA_RESULT.STI (min sti 100)).setFlag AUD.STIPA_RESULT.LOW_SNR low).set AUD.STIPA_STAT.STATE Stipa.done →
    exec (.stipaPhaseEnd sti low false false ti sg no) s = .next (t.stipaEnd Stipa.done true (t.stipaData ti sg no))) ∧
  (∀ (s : State) (r : StipaSt) (sti sg no : Nat) (low i : Bool) (ti : List Nat), s.vox.stipa = some r →
    exec (.stipaPhaseEnd sti low i true ti sg no) s = .next (s.stipaEnd Stipa.fault false [])) ∧
  (∀ (s : State) (id : Nat), s.vox.clips.any (fun c => c.id == id && c.deleting && !s.vox.inUse c.id c.version) = true →
    exec (.clipDeleteComplete id) s = .next (State.finishAll { s with vox := { s.vox with
      clips := s.vox.clips.filter (fun c => !(c.id == id && c.deleting && !s.vox.inUse c.id c.version)) } }
      (fun p => match p with | .clipDelete i _ => i == id | _ => false) Status.ok [])) ∧
  (∀ (s : State) (id : Nat), s.vox.clips = [] → exec (.clipDeleteComplete id) s = .next s) ∧
  (∀ (s t : State) (v : Fin 32) (x : Voice), s.vox.voice v.val = some x → x.playing = false →
    t = State.set { s with vox := { s.vox with voices := s.vox.voices.map (fun (y : Voice) =>
      if y.ix == v.val then { y with playing := true } else y) } } (AUD.PLAY_START.TSEQ v) (x.start % 2 ^ 32) →
    exec (.voiceStartTick v) s =
      .next (t.deliver (srcVoice + v.val) x.start (.fresh (t.vox.voiceValue x x.start) 0))) ∧
  (∀ (s : State) (v : Fin 32), s.vox.voice v.val = none →
    exec (.voiceStartTick v) s = .next s ∧ exec (.voiceEnd v false) s = .next s) ∧
  (∀ (s : State) (v : Fin 32) (x : Voice) (f : Bool), s.vox.voice v.val = some x →
    exec (.voiceEnd v f) s = .next (s.voiceGone v.val (if f then 2 else if x.stopAt.isSome then 1 else 0)).clipSweep) ∧
  (∀ (s : State) (ch : Fin 16) (tick a b c : Nat) (d : List Nat), s.recActive ch.val = false →
    exec (.recUnitComplete ch tick a b c d) s = .next s) ∧
  (∀ (s : State) (ch : Fin 16) (tick u : Nat) (d : List Nat), s.recActive ch.val = true → s.flag SEC.STAT.TAMPER = false →
    s.flag AUD.REC_STAT.ENC = false → s.recNext = some u →
    ∃ t, exec (.recUnitComplete ch tick 0 0 0 d) s = .next t ∧
      t.store = (s.putBytes (s.regionAt 5 (4096 * u)) ((d ++ List.replicate 4096 0).take 4096)).store)

/-- Bank initialisation, ECC errors, scrub and the checks after a sleep: A write of INIT_CTRL starts the banks of its mask, and has no effect where the store's domain is down. A bank in INIT becomes READY with INIT_DONE set and START clear. A correctable error in a readable bank is counted for its channel, shown in CE_LAST and CE_INFO and scheduled for write-back; the write-back takes it off the list. An uncorrectable error in a READY bank poisons its line, is logged and raises UE; in a bank that is down neither changes anything. A scrub pass with no bank above the threshold starts the next pass at zero. A bank RETAINED whose canary held its words is CHECKING afterwards; one in CHECKING whose CRC agrees is PROVISIONAL, one whose CRC differs is lost; the wake scrub makes it READY. -/
def Obligations.StoreCommands : Prop :=
  (∀ (s : State) (m : Nat), s.reaches STORE.INIT_CTRL.off = true → exec (.storeInitStart m) s = .next (s.uncaptured.storeInit m)) ∧
  (∀ (s : State) (m : Nat), s.reaches STORE.INIT_CTRL.off = false → exec (.storeInitStart m) s = .next s.uncaptured) ∧
  (∀ (s : State) (b : Fin 16), s.bank b.val = Bank.init → b ≠ 0 →
    exec (.bankInitDone b) s = .next (((s.setBank b.val Bank.ready).putBit STORE.STAT.INIT_DONE b.val true).putBit
      STORE.INIT_CTRL.START b.val false)) ∧
  (∀ s : State, s.bank 0 = Bank.init →
    exec (.bankInitDone 0) s = .next (((s.setBank 0 Bank.ready).putBit STORE.STAT.INIT_DONE 0 true).putBit
      STORE.INIT_CTRL.START 0 false).romReads) ∧
  (∀ (s : State) (b : Fin 16), s.bank b.val ≠ Bank.init → exec (.bankInitDone b) s = .next s) ∧
  (∀ (s t : State) (off i syn : Nat), off < 2 ^ 32 → i ≠ 0 → s.bankUsable (bankOf off) = true →
    t = ((((s.count (if channelOf off = 0 then STORE.CE_CNT.CH0 else STORE.CE_CNT.CH1) 1).set STORE.CE_LAST.ADDR (off / 8 * 8)).set
      STORE.CE_INFO.INITIATOR i).set STORE.CE_INFO.SYNDROME syn) →
    exec (.storeCorrectableError off i syn) s = .next { t with mem := { t.mem with
      writeBack := t.mem.writeBack.filter (· != off / 8 * 8) ++ [off / 8 * 8] } }) ∧
  (∀ (s : State) (off i syn : Nat) (l : List Nat), s.bank (bankOf (off % 2 ^ 32)) = Bank.down →
    s.bankUsable (bankOf (off % 2 ^ 32)) = false →
    exec (.storeCorrectableError off i syn) s = .next s ∧ exec (.storeUncorrectableError off i l) s = .next s) ∧
  (∀ (s : State) (off : Nat), off < 2 ^ 32 → exec (.ceWriteback off) s =
    .next { s with mem := { s.mem with writeBack := s.mem.writeBack.filter (· != off / 8 * 8) } }) ∧
  (∀ (s t u : State) (off : Nat), off < 2 ^ 32 → s.bankUsable (bankOf off) = true → s.decikRuns = false →
    t = { s with mem := { s.mem with poisoned := s.mem.poisoned.filter (· != off / 64) ++ [off / 64] } } →
    u = (((t.count STORE.UE_CNT.ACCESS 1).ueLog off 3).evt STORE.ERR_EVT.UE 1 Src.STORE_ECC_RETENTION).post Evt.STORE_UE (bankOf off)
      (leBytes 4 off ++ [3]) →
    u.decikRuns = false → u.bank (bankOf off) = Bank.ready →
    exec (.storeUncorrectableError off 3 []) s = .next u) ∧
  (∀ s t : State, (∀ b : Nat, b < 16 → s.mem.scrubCe.getD b 0 ≤ s.get STORE.CFG.CE_THRESH) →
    t = (s.set STORE.STAT.SCRUB_PCT 0).set STORE.SCRUB_ADDR.ADDR 0 →
    exec .scrubPassEnd s = .next { t with mem := { t.mem with scrubCe := List.replicate 16 0, scrubTicks := 0 } }) ∧
  (∀ (s : State) (d us : Nat), (List.range 16).any (fun b => s.bank b == Bank.retained) = false →
    exec (.wakeCanaryCheck d us) s = .next s) ∧
  (∀ (s : State) (us : Nat), (List.range 16).any (fun b => s.bank b == Bank.retained) = true →
    (∀ b : Nat, b < 16 → s.bank b = Bank.retained → s.mem.canary.contains (b, s.get STORE.SLEEP_CNT.COUNT) = true) →
    ∃ t, exec (.wakeCanaryCheck 0 us) s = .next (State.wakeChecksOver t) ∧
      t.get STORE.WAKE_TIME.CANARY_US = min us 0xFFFF ∧ t.get STORE.WAKE_CHK.CANARY_FAIL = 0 ∧
      (∀ b : Nat, b < 16 → s.bank b ≠ Bank.retained → t.bank b = s.bank b) ∧
      (∀ b : Nat, b < 16 → s.bank b = Bank.retained → t.bank b = Bank.checking)) ∧
  (∀ (s : State) (b : Fin 16) (time : Nat), s.bank b.val = Bank.checking →
    exec (.extentCheckDone b (s.get (STORE.EXT_CRC.CRC b)) time) s =
      .next (((s.set STORE.WAKE_TIME.EXT_100US (min time 0xFFFF)).setBank b.val Bank.provisional).wakeChecksOver)) ∧
  (∀ (s : State) (b : Fin 16) (crc time : Nat), s.bank b.val = Bank.checking → crc ≠ s.get (STORE.EXT_CRC.CRC b) →
    exec (.extentCheckDone b crc time) s =
      .next ((((s.set STORE.WAKE_TIME.EXT_100US (min time 0xFFFF)).putBit STORE.WAKE_CHK.EXT_FAIL b.val true).bankLost b.val 1).wakeChecksOver)) ∧
  (∀ (s : State) (b : Fin 16), s.bank b.val = Bank.provisional →
    exec (.wakeScrubBankDone b) s = .next ((s.setBank b.val Bank.ready).setFlag STORE.STAT.WAKE_SCRUB
      ((List.range 16).any (fun k => (s.setBank b.val Bank.ready).bank k == Bank.provisional)))) ∧
  (∀ (s : State) (b : Fin 16), s.bank b.val = Bank.ready →
    (∀ crc time, exec (.extentCheckDone b crc time) s = .next s) ∧ exec (.wakeScrubBankDone b) s = .next s)

/-- The host's window on the store: An AtomicOp to BAR0, and any access of a disabled local window other than a write, is answered as an Unsupported Request; a write to a disabled window has no effect. With the window enabled and no locked block in the way, a read answers the bytes of the store, or a Completer Abort, counted, where a byte cannot be read; a write to bytes that the host may not write changes no byte and is counted; a write of one byte to a writable place is stored; an AtomicOp answers the old value and stores the result, in full, little-endian. -/
def Obligations.LocalWindowCommands : Prop :=
  (∀ (s : State) (tag : Nat) (op : AtomicOp), exec (.bar0Atomicop tag op) s = .next (s.emit (.completion tag .ur []))) ∧
  (∀ (s : State) (tag off len : Nat) (op : AtomicOp) (bs : List (Option Nat)), s.flag BRG.LWIN_CTRL.EN = false →
    exec (.localWindowRead tag off len) s = .next (s.emit (.completion tag .ur [])) ∧
    exec (.localWindowWrite off bs) s = .next s ∧
    exec (.localWindowAtomic tag op) s = .next (s.emit (.completion tag .ur []))) ∧
  (∀ (s t : State) (tag off len : Nat) (bytes : List Nat), s.flag BRG.LWIN_CTRL.EN = true →
    s.cinchHolds (s.localOffset off) len = false → s.storeRead (s.localOffset off) len = (bytes, false, t) →
    exec (.localWindowRead tag off len) s = .next (t.emit (.completion tag .ok bytes))) ∧
  (∀ (s t : State) (tag off len : Nat) (bytes : List Nat), s.flag BRG.LWIN_CTRL.EN = true →
    s.cinchHolds (s.localOffset off) len = false → s.storeRead (s.localOffset off) len = (bytes, true, t) →
    exec (.localWindowRead tag off len) s = .next ((t.count BRG.LWIN_STAT.ERR_CNT 1).emit (.completion tag .ca []))) ∧
  (∀ (s : State) (off : Nat) (x : Nat), s.flag BRG.LWIN_CTRL.EN = true → s.hostWritable (s.localOffset off) = false →
    exec (.localWindowWrite off [some x]) s = .next (s.count BRG.LWIN_STAT.WP_CNT 1)) ∧
  (∀ (s : State) (off : Nat) (x : Nat), s.flag BRG.LWIN_CTRL.EN = true → s.hostWritable (s.localOffset off) = true →
    s.cinchHolds (s.localOffset off) 1 = false → s.bankUsable (bankOf (s.localOffset off)) = true →
    exec (.localWindowWrite off [some x]) s = .next (s.storeWrite (s.localOffset off) [x])) ∧
  (∀ (s t : State) (tag : Nat) (op : AtomicOp) (bytes : List Nat), s.flag BRG.LWIN_CTRL.EN = true → op.width = 4 ∨ op.width = 8 →
    (∀ i : Nat, i < op.width → s.hostWritable (s.localOffset op.off + i) = true) →
    s.cinchHolds (s.localOffset op.off) op.width = false →
    s.storeRead (s.localOffset op.off) op.width = (bytes, false, t) →
    exec (.localWindowAtomic tag op) s =
      .next ((t.storeWrite (s.localOffset op.off) (leBytes op.width (op.result (leValue bytes)))).emit
        (.completion tag .ok (leBytes op.width (leValue bytes)))))

/-- The train windows at the requester: A read or an AtomicOp of a disabled train window is an Unsupported Request, as is an AtomicOp of 16 bytes; a write to one sends nothing. An access of an enabled window joins the accesses held and goes out as credits allow. A buffer's age discards it. A write of EN enables a window whose POS is 1 to 32, and only such a one; EN = 0 discards its buffer. The barrier register is answered at once where no write of the window is open, and waits otherwise. The first answer that waits is taken; a request that times out fails with TIMEOUT; one that no longer waits changes nothing. A lock back-off ends in another attempt, or in giving up 64 ticks after the first. -/
def Obligations.TrainWindowRequester : Prop :=
  (∀ (s : State) (tag off len : Nat) (w : Fin 16) (op : AtomicOp) (bs : List Nat), s.flag (BRG.TWIN_CFG.EN w) = false →
    exec (.trainWindowRead tag w off len) s = .next (s.emit (.completion tag .ur [])) ∧
    exec (.trainWindowWrite w off bs) s = .next s ∧
    exec (.trainWindowAtomic tag w op) s = .next (s.emit (.completion tag .ur []))) ∧
  (∀ (s : State) (tag off len : Nat) (w : Fin 16), s.flag (BRG.TWIN_CFG.EN w) = true →
    exec (.trainWindowRead tag w off len) s =
      .next (State.brgAdmit { s with brg := { s.brg with held := s.brg.held ++ [.read tag w.val off len] } } 256).brgShow) ∧
  (∀ (s : State) (off : Nat) (w : Fin 16) (bs : List Nat), s.flag (BRG.TWIN_CFG.EN w) = true →
    exec (.trainWindowWrite w off bs) s =
      .next (State.brgAdmit { s with brg := { s.brg with held := s.brg.held ++ [.write w.val off bs] } } 256).brgShow) ∧
  (∀ (s : State) (tag : Nat) (w : Fin 16) (op : AtomicOp), s.flag (BRG.TWIN_CFG.EN w) = true → op.width = 4 ∨ op.width = 8 →
    exec (.trainWindowAtomic tag w op) s =
      .next (State.atomNext { s with brg := { s.brg with atomQ := s.brg.atomQ ++ [(tag, w.val, op)] } } 64).brgShow) ∧
  (∀ (s : State) (tag : Nat) (w : Fin 16) (op : AtomicOp), op.width = 16 →
    exec (.trainWindowAtomic tag w op) s = .next (s.emit (.completion tag .ur []))) ∧
  (∀ (s : State) (w : Fin 16), s.brg.buffers = [] → exec (.prefetchAgeExpire w) s = .next s) ∧
  (∀ (s t : State) (w : Fin 16) (b : PfBuf), s.brg.buffers = [b] → b.win = w.val → b.unread = [] →
    t = { s with brg := { s.brg with buffers := [] } } →
    exec (.prefetchAgeExpire w) s = .next (t.setFlag (BRG.TWIN_STAT.PF_VALID w) false)) ∧
  (∀ (s : State) (w : Fin 16), s.reaches (BRG.TWIN_CFG.off w) = true → 1 ≤ s.get (BRG.TWIN_CFG.POS w) → s.get (BRG.TWIN_CFG.POS w) ≤ 32 →
    exec (.twinWindowEnable w true) s = .next (s.uncaptured.setFlag (BRG.TWIN_CFG.EN w) true).brgNames) ∧
  (∀ (s : State) (w : Fin 16), s.reaches (BRG.TWIN_CFG.off w) = true → s.get (BRG.TWIN_CFG.POS w) = 0 →
    exec (.twinWindowEnable w true) s = .next s.uncaptured) ∧
  (∀ (s : State) (w : Fin 16), s.reaches (BRG.TWIN_CFG.off w) = true →
    exec (.twinWindowEnable w false) s = .next ((s.uncaptured.setFlag (BRG.TWIN_CFG.EN w) false).pfDiscard w.val)) ∧
  (∀ (s : State) (w : Fin 16), s.reaches (BRG.TWIN_BAR.off w) = true → s.brg.reqs = [] →
    exec (.twinBarRead w) s = .next (s.uncaptured.emit (.hostRead (s.barValue w.val)))) ∧
  (∀ (s : State) (w : Fin 16) (q : BrgReq), s.reaches (BRG.TWIN_BAR.off w) = true → s.brg.reqs = [q] → q.op = BrgOp.write → q.win = w.val →
    exec (.twinBarRead w) s =
      .next { s.uncaptured with brg := { s.brg with barWait := s.brg.barWait ++ [(w.val, [q.seq])] } }) ∧
  (∀ s : State, exec .bridgeRspReceive s = .next (((s.takeAnswer.atomNext 64).brgAdmit 256).barCheck).brgShow) ∧
  (∀ (s : State) (w : Fin 16) (n op : Nat) (q : BrgReq),
    s.brg.reqs.find? (fun r => r.win == w.val && r.seq == n && r.op == op) = some q →
    exec (.bridgeTimeout w n op) s = .next ((((s.requestFailed q BrgSt.timeout).atomNext 64).brgAdmit 256).barCheck).brgShow) ∧
  (∀ (s : State) (w : Fin 16) (n op : Nat), s.brg.reqs = [] → exec (.bridgeTimeout w n op) s = .next s) ∧
  (∀ (s : State) (a : HostAtom) (op k : Nat), s.brg.atom = some a → a.retry = some (op, k) → a.first + 64 ≤ s.decik.upTicks →
    exec .lockBackoffExpiry s = .next ((s.atomRefused a BrgSt.lockRefused).atomNext 64).brgShow) ∧
  (∀ (s : State) (a : HostAtom) (op k : Nat), s.brg.atom = some a → a.retry = some (op, k) → s.decik.upTicks < a.first + 64 →
    exec .lockBackoffExpiry s = .next ((s.atomSend a op).atomNext 64).brgShow) ∧
  (∀ s : State, s.brg.atom = none → exec .lockBackoffExpiry s = .next s)

/-- Requests served at the target, Cinches and semaphores: A request at the front of the target's queue is served and answered where no Cinch holds its block: a READ with the bytes of the store, a WRITE by storing them, each only in memory that RACC_CTRL and its map allow. A free semaphore is granted for 32 ticks to the position that asked; a held one is refused; READ_SEM, WRITE_REL and SEM_REL act for its holder, who after the last two holds it no more. A Cinch that is granted locks its 256-byte block. Requests of another kind at the front, or an empty queue, change nothing. An expired Cinch and a lapsed lease are counted and free the block, or the semaphore. A local read of a free semaphore acquires it; a local release frees only a locally held one. -/
def Obligations.BridgeTarget : Prop :=
  (∀ (s t : State) (r : TgtReq) (rest : List TgtReq) (bytes : List Nat), s.brg.inbox = r :: rest → r.op = BrgOp.read → r.regs = false →
    s.cinchHolds r.off (max r.len r.data.length) = false →
    State.tgtRead { s with brg := { s.brg with inbox := rest } } r.off r.len = ⟨BrgSt.ok, bytes, t⟩ →
    exec .bridgeReadServe s = .next ((t.count BRG.TGT_CNT.SERVED 1).answer r BrgSt.ok bytes)) ∧
  (∀ (s t : State) (r : TgtReq) (rest : List TgtReq), s.brg.inbox = r :: rest → r.op = BrgOp.write → r.regs = false →
    s.cinchHolds r.off (max r.len r.data.length) = false →
    State.tgtWrite { s with brg := { s.brg with inbox := rest } } r.off r.data = ⟨BrgSt.ok, [], t⟩ →
    exec .bridgeWriteServe s = .next ((t.count BRG.TGT_CNT.SERVED 1).answer r BrgSt.ok [])) ∧
  (∀ (s t : State) (r : TgtReq) (rest : List TgtReq), s.brg.inbox = r :: rest → r.op = BrgOp.semAcq → r.sem < 32 →
    s.flag BRG.RACC_CTRL.EN = true → s.flag (BRG.SEM.HELD r.sem) = false → t = { s with brg := { s.brg with inbox := rest } } →
    exec .semAcqServe s = .next (((((((t.setFlag (BRG.SEM.HELD r.sem) true).setFlag (BRG.SEM.LOCAL r.sem) false).set
      (BRG.SEM.OWNER_POS r.sem) r.pos).set (BRG.SEM.OWNER_SUB r.sem) r.sub).set (BRG.SEM.LEASE r.sem) 32).count
      BRG.TGT_CNT.SERVED 1).answer r BrgSt.ok [])) ∧
  (∀ (s t : State) (r : TgtReq) (rest : List TgtReq), s.brg.inbox = r :: rest → r.op = BrgOp.semAcq →
    s.flag BRG.RACC_CTRL.EN = true → s.flag (BRG.SEM.HELD r.sem) = true → t = { s with brg := { s.brg with inbox := rest } } →
    exec .semAcqServe s = .next (((t.count BRG.TGT_LOCK.REFUSED 1).count BRG.TGT_CNT.SERVED 1).answer r BrgSt.locked [])) ∧
  (∀ (s t u : State) (r : TgtReq) (rest : List TgtReq) (bytes : List Nat), s.brg.inbox = r :: rest → r.op = BrgOp.readSem →
    s.flag BRG.RACC_CTRL.EN = true → r.regs = false → s.cinchHolds r.off (max r.len r.data.length) = false → s.semHeldBy r = true →
    t = { s with brg := { s.brg with inbox := rest } } → t.tgtRead r.off r.len = ⟨BrgSt.ok, bytes, u⟩ →
    exec .readSemServe s = .next ((u.count BRG.TGT_CNT.SERVED 1).answer r BrgSt.ok bytes)) ∧
  (∀ (s t u : State) (r : TgtReq) (rest : List TgtReq), s.brg.inbox = r :: rest → r.op = BrgOp.writeRel →
    s.flag BRG.RACC_CTRL.EN = true → r.regs = false → s.cinchHolds r.off (max r.len r.data.length) = false → s.semHeldBy r = true →
    t = { s with brg := { s.brg with inbox := rest } } → t.tgtWrite r.off r.data = ⟨BrgSt.ok, [], u⟩ →
    exec .writeRelServe s = .next (((u.semFree r.sem).count BRG.TGT_CNT.SERVED 1).answer r BrgSt.ok [])) ∧
  (∀ (s t : State) (r : TgtReq) (rest : List TgtReq), s.brg.inbox = r :: rest → r.op = BrgOp.semRel →
    s.flag BRG.RACC_CTRL.EN = true → s.semHeldBy r = true → t = { s with brg := { s.brg with inbox := rest } } →
    exec .semRelServe s = .next (((t.semFree r.sem).count BRG.TGT_CNT.SERVED 1).answer r BrgSt.ok [])) ∧
  (∀ (s t : State) (r : TgtReq) (rest : List TgtReq), s.brg.inbox = r :: rest → r.op = BrgOp.cinch →
    t = { s with brg := { s.brg with inbox := rest } } → t.cinchRefusal r = none →
    exec (.cinchServe true) s = .next (State.set { t with brg := { t.brg with
      cinches := t.brg.cinches ++ [⟨r, r.off / 256 * 256, s.decik.upTicks⟩] } } BRG.TGT_LOCK.ACTIVE (t.brg.cinches.length + 1))) ∧
  (∀ s : State, s.brg.inbox = [] → exec .bridgeReadServe s = .next s ∧ exec .bridgeWriteServe s = .next s ∧
    exec .semAcqServe s = .next s ∧ exec .readSemServe s = .next s ∧ exec .writeRelServe s = .next s ∧
    exec .semRelServe s = .next s ∧ exec (.cinchServe false) s = .next s) ∧
  (∀ (s : State) (b : Nat) (c : Cinch), s.brg.cinches.find? (fun x => x.block == b) = some c →
    exec (.cinchExpire b) s = .next ((s.count BRG.TGT_LOCK.EXPIRED 1).cinchEnd c BrgSt.lockExpired [])) ∧
  (∀ (s : State) (k : Fin 32), s.flag (BRG.SEM.HELD k) = true →
    exec (.semLeaseLapse k) s = .next ((s.count BRG.TGT_LOCK.EXPIRED 1).setWord (BRG.SEM.off k) 0)) ∧
  (∀ (s : State) (k : Fin 32), s.flag (BRG.SEM.HELD k) = false → exec (.semLeaseLapse k) s = .next s) ∧
  (∀ (s t : State) (k : Fin 32), s.reaches (BRG.SEM.off k) = true → s.flag (BRG.SEM.HELD k) = false →
    t = ((s.uncaptured.setFlag (BRG.SEM.HELD k) true).setFlag (BRG.SEM.LOCAL k) true).set (BRG.SEM.LEASE k) 32 →
    exec (.semRead k) s = .next (t.emit (.hostRead ((t.word (BRG.SEM.off k)).toNat + 1)))) ∧
  (∀ (s : State) (k : Fin 32), s.reaches (BRG.SEM.off k) = true → s.flag (BRG.SEM.LOCAL k) = true →
    exec (.semReleaseWrite k) s = .next (s.uncaptured.setWord (BRG.SEM.off k) 0)) ∧
  (∀ (s : State) (k : Fin 32), s.reaches (BRG.SEM.off k) = true → s.flag (BRG.SEM.LOCAL k) = false →
    exec (.semReleaseWrite k) s = .next s.uncaptured)

/-- The PCIe link, MSI-X and the interrupt controller's writes: The link coming up at a PCIe host with its domain on shows LINK_UP, speed and width and sends what was held; at an SPI host it does not come up. A link going down acts once. PERST low while awake takes a link down and resets the MSI-X capability; PERST high while asleep is a wake event. A write of Message Control sets both MSI-X bits; clearing a vector's mask lets its message go. The writes of INTC's PEND, EN and FORCE act through the register's access; FORCE only in service mode TEST. -/
def Obligations.PcieLinkAndMsix : Prop :=
  (∀ (s t : State) (v w : Fin 4), s.straps.hostSpi = false → s.domOn Dom.pcie = true →
    t = ((s.setFlag BRG.HOST_STAT.LINK_UP true).set BRG.HOST_STAT.LINK_SPEED v).set BRG.HOST_STAT.LINK_WIDTH w →
    exec (.pcieLinkUp v w) s = .next t.irqLevel.msixFlush) ∧
  (∀ (s : State) (v w : Fin 4) (a b : Bool), s.straps.hostSpi = true →
    exec (.pcieLinkUp v w) s = .next s ∧ exec (.msixEnableWrite a b) s = .next s ∧ exec (.pciePerst a) s = .next s) ∧
  (∀ s : State, s.flag BRG.HOST_STAT.LINK_UP = true → exec .pcieLinkDown s = .next s.pcieDown) ∧
  (∀ s : State, s.flag BRG.HOST_STAT.LINK_UP = false → exec .pcieLinkDown s = .next s) ∧
  (∀ s t : State, s.straps.hostSpi = false → s.isOff = false → s.awake = true → s.domOn Dom.pcie = true →
    s.flag BRG.HOST_STAT.LINK_UP = true → t = s.pcieDown →
    exec (.pciePerst false) s = .next (State.irqLevel { t.setFlag BRG.HOST_STAT.MSIX_EN false with msix := State.reset.msix })) ∧
  (∀ s : State, s.straps.hostSpi = false → s.isOff = false → s.awake = false →
    exec (.pciePerst true) s = .next (s.wakeEvents [(10, 0)]) ∧ exec (.pciePerst false) s = .next s) ∧
  (∀ (s t : State) (en fm : Bool), s.straps.hostSpi = false →
    t = { s with msix := { s.msix with enable := en, functionMask := fm } } →
    exec (.msixEnableWrite en fm) s =
      .next ((t.setFlag BRG.HOST_STAT.MSIX_EN en).setFlag INTC.CTRL.MSIX en).irqLevel.msixFlush) ∧
  (∀ (s : State) (n : Fin 64), s.straps.hostSpi = false → s.domOn Dom.pcie = true →
    exec (.msixUnmask (some n)) s =
      .next (State.msixFlush { s with msix := { s.msix with unmasked := setBit s.msix.unmasked n.val } })) ∧
  (∀ s : State, s.straps.hostSpi = false → s.domOn Dom.pcie = true →
    exec (.msixUnmask none) s = .next (s.msixControl s.msix.enable false)) ∧
  (∀ (s : State) (hi : Bool) (w : Word), s.reaches INTC.PEND_LO.off = true →
    exec (.intcPendWrite hi w) s = .next (s.uncaptured.pendWrite hi w.toNat)) ∧
  (∀ (s : State) (hi : Bool) (w : Word), s.reaches INTC.EN_LO.off = true →
    exec (.intcEnWrite hi w) s = .next (s.uncaptured.enWrite hi w.toNat)) ∧
  (∀ (s : State) (hi : Bool) (w : Word), s.reaches INTC.FORCE_LO.off = true → s.get PWR.STAT.MODE ≠ 2 →
    exec (.intcForceWrite hi w) s = .next s.uncaptured) ∧
  (∀ (s : State) (n : Nat), s.reaches INTC.FORCE_LO.off = true → s.get PWR.STAT.MODE = 2 → n < 32 → s.isPend n = false →
    exec (.intcForceWrite false (BitVec.ofNat 32 (2 ^ n))) s = .next (s.uncaptured.setPend n))

/-- Clearing a pending bit never loses an event whose bit is still set: For every state with CORE on and every write of PEND: a named source that hardware sets, or one that Decik sets while Decik runs, is pending afterwards exactly where one of its event bits is still set; a source that the write does not name keeps its pending bit; and the write changes no event bit. -/
def Obligations.PendingBitsAreNeverLost : Prop :=
  ∀ (s : State) (hi : Bool) (w : Nat) (n : Nat), n < 64 → s.domOn Dom.core = true →
    (n ∈ namedSources hi w → decikSource n = false ∨ s.decikRuns = true → (s.pendWrite hi w).isPend n = s.srcEvent n) ∧
    (n ∉ namedSources hi w → (s.pendWrite hi w).isPend n = s.isPend n) ∧
    (s.pendWrite hi w).srcEvent n = s.srcEvent n

/-- Ring indexes, doorbells and what Decik does in time: A host write of REQ_HEAD with at most 64 entries is taken, and one that names more is an index error; a write to another channel than the host's has no effect. A write of RSP_TAIL that does not pass RSP_HEAD frees entries for held responses. A RESET while Decik runs empties the host's channel; while it is stopped RESET stays set. A doorbell or a poll of an empty, or stopped, mailbox takes no request; a poll of one waiting request serves it and advances TAIL. A first response that does not come in time ends in TIMEOUT; a BUSY is sent again. Transfers, nonces and lock-outs lapse in time. A summary is rebuilt while Decik runs. -/
def Obligations.MailboxRings : Prop :=
  (∀ (s : State) (ch : Fin 4) (h : Nat), s.reaches (MBX.CH_REQ_HEAD.off ch) = true → s.chWritable ch.val = true →
    ringFill (h % 128) (s.get (MBX.CH_REQ_TAIL.TAIL ch)) ≤ 64 →
    exec (.mbxReqHeadWrite ch h) s = .next (s.uncaptured.set (MBX.CH_REQ_HEAD.HEAD ch) h)) ∧
  (∀ (s : State) (ch : Fin 4) (h : Nat), s.reaches (MBX.CH_REQ_HEAD.off ch) = true → s.chWritable ch.val = true →
    64 < ringFill (h % 128) (s.get (MBX.CH_REQ_TAIL.TAIL ch)) →
    exec (.mbxReqHeadWrite ch h) s = .next (s.uncaptured.indexError ch.val)) ∧
  (∀ (s : State) (ch : Fin 4) (h : Nat), ch.val ≠ s.hostCh →
    exec (.mbxReqHeadWrite ch h) s = .next s.uncaptured ∧ exec (.mbxRspTailWrite ch h) s = .next s.uncaptured ∧
    exec (.mbxDoorbellWrite ch) s = .next s.uncaptured ∧ exec (.mbxChannelReset ch) s = .next s.uncaptured) ∧
  (∀ (s : State) (ch : Fin 4) (t : Nat), s.reaches (MBX.CH_RSP_TAIL.off ch) = true → s.chWritable ch.val = true →
    ringFill (t % 128) (s.get (MBX.CH_RSP_TAIL.TAIL ch)) ≤ s.rspFill ch.val →
    exec (.mbxRspTailWrite ch t) s = .next ((s.uncaptured.set (MBX.CH_RSP_TAIL.TAIL ch) t).flushHeld ch.val 64)) ∧
  (∀ (s t : State) (ch : Fin 4), s.reaches (MBX.CH_STAT.off ch) = true → ch.val = s.hostCh → s.decikRuns = true →
    t = { s.uncaptured with mbx := { s.mbx with opens := s.mbx.opens.filter (fun r => r.ch != ch.val), held := s.mbx.held.set ch.val [], transfers := s.mbx.transfers.filter (fun x => x.ch != ch.val) } } →
    exec (.mbxChannelReset ch) s = .next (((((t.set (MBX.CH_REQ_HEAD.HEAD ch) 0).set (MBX.CH_REQ_TAIL.TAIL ch) 0).set
      (MBX.CH_RSP_HEAD.HEAD ch) 0).set (MBX.CH_RSP_TAIL.TAIL ch) 0).showOpen ch.val)) ∧
  (∀ (s : State) (ch : Fin 4), s.reaches (MBX.CH_STAT.off ch) = true → ch.val = s.hostCh → s.decikRuns = false →
    exec (.mbxChannelReset ch) s = .next (s.uncaptured.setFlag (MBX.CH_STAT.RESET ch) true)) ∧
  (∀ (s : State) (ch : Fin 4), s.decikRuns = false → exec .mbxPoll s = .next s ∧ exec (.mbxDoorbellWrite ch) s = .next s.uncaptured) ∧
  (∀ (s : State) (ch : Fin 4), s.reaches (MBX.CH_DB.off ch) = true → s.chWritable ch.val = true →
    exec (.mbxDoorbellWrite ch) s = .next (s.uncaptured.lookAt ch 64)) ∧
  (∀ (s t u : State) (b : List Nat) (e : Bool), s.canTake 0 = true → s.canTake 1 = false → s.canTake 2 = false → s.canTake 3 = false →
    s.storeRead (s.reqEntry 0 (s.get (MBX.CH_REQ_TAIL.TAIL 0))) 4096 = (b, e, t) →
    u = t.set (MBX.CH_REQ_TAIL.TAIL 0) ((s.get (MBX.CH_REQ_TAIL.TAIL 0) + 1) % 128) →
    (∀ n : Fin 4, (u.serveAny (fieldOf b 0 2) (u.parseRequest 0 (s.get (MBX.CH_REQ_TAIL.TAIL 0)) b)).canTake n.val = false) →
    exec .mbxPoll s = .next (u.serveAny (fieldOf b 0 2) (u.parseRequest 0 (s.get (MBX.CH_REQ_TAIL.TAIL 0)) b))) ∧
  (∀ (s : State) (ch : Fin 4) (tag p u t d : Nat) (i : DWord) (m : List Nat) (re : Bool) (r : OpenReq), s.mbx.opens = [r] →
    r.ch = ch.val → r.tag = tag → r.pend = .remote p u i t d m re false →
    exec (.remoteTimeout ch tag) s = .next (s.finish r Status.timeout [])) ∧
  (∀ (s : State) (ch : Fin 4) (tag p u t d : Nat) (i : DWord) (m : List Nat) (first : Bool) (r : OpenReq), s.mbx.opens = [r] →
    r.ch = ch.val → r.tag = tag → r.pend = .remote p u i t d m true first →
    exec (.remoteBusyResend ch tag) s = .next (State.stageMessage { s with mbx := { s.mbx with
      opens := [{ r with pend := .remote p u i t d m false first }] } } Kind.mailbox p u m)) ∧
  (∀ (s : State) (ch : Fin 4) (tag : Nat), s.mbx.opens = [] →
    exec (.remoteTimeout ch tag) s = .next s ∧ exec (.remoteBusyResend ch tag) s = .next s ∧ exec (.finalResponse ch tag []) s = .next s) ∧
  (∀ (s : State) (ch : Fin 4) (tag p f g a b : Nat) (r : OpenReq), s.decikRuns = true → s.mbx.opens = [r] → r.ch = ch.val → r.tag = tag →
    r.pend = .mdio p f g → exec (.finalResponse ch tag [a, b]) s = .next (s.finish r Status.ok [a, b, 0, 0])) ∧
  (∀ s : State, exec .fragmentTransferTimeout s = .next { s with mbx := { s.mbx with
    transfers := s.mbx.transfers.filter (fun t => decide (s.decik.upTicks < t.last + 480000)) } }) ∧
  (∀ s : State, exec .authNonceLapse s = .next { s with sec := { s.sec with
    challenges := s.sec.challenges.filter (fun c => decide (s.decik.upTicks < c.until_)) } }) ∧
  (∀ s : State, exec .authLockoutEnd s = .next { s with sec := { s.sec with sources := s.sec.sources.map (fun (x : AuthSource) =>
    if x.lockUntil ≤ s.decik.upTicks then { x with lockUntil := 0 } else x) } }) ∧
  (∀ s : State, exec .summaryRebuild s = .next (if s.decikRuns then s.rebuild else s))

/-- Unit states and the configuration's timed steps: A STARTING unit whose data path runs becomes ENABLED and its enable completes with OK; one that reaches the start limit without running ends FAULTED with cause 1 after its shut-down, with TIMEOUT. A STOPPING unit at its limit ends FAULTED with cause 2. A divergence of an ENABLED unit is recorded once and the commanded state applied again; one that persists ends FAULTED with cause 3. A pending configuration is committed at its tick. The confirm timer of a trial begins a return, to be taken 49 ticks later (the model's reading of at least 48, notes/assumptions/51.md); a return is applied at its tick. With nothing due nothing changes. -/
def Obligations.UnitsAndConfiguration : Prop :=
  (∀ (s : State) (id : Nat), s.decikRuns = true → unitKnown id = true → (s.unitLook id).unit id = (s.unit id) →
    s.unitLook id = s → (s.unit id).mgmt = Mgmt.starting → (s.unit id).dp = Dp.running →
    exec (.dpStateReached id) s = .next ((s.unitTo id Mgmt.enabled).unitDone id true Status.ok)) ∧
  (∀ (s : State) (id : Nat), unitKnown id = false → exec (.dpStateReached id) s = .next s) ∧
  (∀ (s : State) (id : Nat), s.decikRuns = true → unitKnown id = true → s.unitLook id = s → (s.unit id).mgmt = Mgmt.starting →
    (s.unit id).dp ≠ Dp.running →
    exec (.unitStartLimit id) s = .next (((s.unitHw id false).unitDone id true Status.timeout).unitFaulted id 1)) ∧
  (∀ (s : State) (id : Nat), s.decikRuns = true → unitKnown id = true → s.unitLook id = s → (s.unit id).mgmt = Mgmt.stopping →
    (s.unit id).dp ≠ Dp.off →
    exec (.unitStopLimit id) s =
      .next (((s.unitDone id false Status.timeout).unitDone id true Status.timeout).unitFaulted id 2)) ∧
  (∀ (s : State) (id : Nat), s.unitLook id = s → (s.unit id).mgmt = Mgmt.enabled →
    exec (.unitStartLimit id) s = .next s ∧ exec (.unitStopLimit id) s = .next s) ∧
  (∀ (s t : State) (id : Nat), s.decikRuns = true → unitKnown id = true → s.unitLook id = s → (s.unit id).diverged = false →
    s.unitApart id = true → (s.unit id).mgmt = Mgmt.enabled →
    t = (((s.setUnit { s.unit id with diverged := true }).evt MBX.UNIT_EVT.DIVERGE 1 Src.DIVERGENCE).count MBX.UNIT_CNT.DIV_CNT 1).post
      Evt.UNIT_DIVERGENCE 0 (leBytes 4 id ++ [(s.unit id).mgmtByte, (s.unit id).dp]) →
    exec (.unitDivergence id) s = .next (t.unitHw id true).showUnits) ∧
  (∀ (s : State) (id : Nat), s.decikRuns = true → unitKnown id = true → s.unitLook id = s → (s.unit id).diverged = true →
    s.unitApart id = true → exec (.unitDivergencePersist id) s = .next (s.unitFaulted id 3)) ∧
  (∀ (s : State) (id : Nat), s.decikRuns = true → unitKnown id = true → s.unitLook id = s → (s.unit id).diverged = true →
    s.unitApart id = false →
    exec (.unitDivergencePersist id) s = .next (s.setUnit { s.unit id with diverged := false }).showUnits) ∧
  (∀ (s t : State) (x : Timed) (r : List Timed) (k : Nat), s.takeDue (fun y => y.opcode == 0x0202) = (x :: r, t) →
    t.cfg.slotIn Slot.pend = some k → exec .configCommit s = .next (t.commitImage k x.tick)) ∧
  (∀ (s : State) (n : Nat), s.cfg.confirmAt = some n → s.decikRuns = true → s.cfg.trial = true → s.cfg.rollTo = none →
    n ≤ s.decik.upTicks → s.tickSeq ≠ 0 →
    exec .confirmTimerExpiry s = .next ((s.rollBegin ⟨(s.tickSeq + 49) % 2 ^ 32, none⟩ true).hold ⟨(s.tickSeq + 49) % 2 ^ 32, none⟩
      0x0204 [] 0 0)) ∧
  (∀ (s t : State) (x : Timed) (r : List Timed) (k : Nat) (auto : Bool), s.takeDue (fun y => y.opcode == 0x0204) = (x :: r, t) →
    t.cfg.rollTo = some (k, auto) → (t.cfg.slotIn Slot.previous).isSome = true →
    exec .rollbackApply s = .next (t.returnImage auto x.tick)) ∧
  (∀ s : State, s.mbx.timed = [] → s.cfg.confirmAt = none →
    exec .configCommit s = .next s ∧ exec .rollbackApply s = .next s ∧ exec .confirmTimerExpiry s = .next s)

/-- The SPI host port and the I2C management target: A frame at an SPI port that is not the host's, or is down, has no effect. A read frame drives, for each word, its wait bytes, the status and the word most significant byte first; a write frame takes its words in order and drives a status byte for each, 0xA1 where the address is outside BAR0 and the window. An unknown command, and a truncated frame, are counted. An I2C request with a right code is submitted to channel 2; with a wrong one it is counted; while another is unanswered it is not acknowledged. A read drives its bytes with a code behind them, and consumes a response only when read to its end. An address match that may wake the node is not acknowledged and wakes it. -/
def Obligations.SpiAndI2cHost : Prop :=
  (∀ (s : State) (a : Nat) (ws : List Nat) (xs : List Word) (c : Fin 256), s.spiUp = false →
    exec (.spiRead a ws) s = .next s ∧ exec (.spiReadFixed a ws) s = .next s ∧ exec (.spiWrite a xs) s = .next s ∧
    exec (.spiWriteFixed a xs) s = .next s ∧ exec (.spiUnknownCommand c) s = .next s ∧ exec .spiFrameTruncated s = .next s) ∧
  (∀ (s t : State) (a n x : Nat), s.spiUp = true → a < 2 ^ 32 → n ≤ 64 → s.spiWord a = (Spi.ok, x, t) →
    exec (.spiRead a [n]) s = .next (t.emit (.spi (List.replicate n 0 ++ [0xA0] ++ (leBytes 4 x).reverse))) ∧
    exec (.spiReadFixed a [n]) s = .next (t.emit (.spi (List.replicate n 0 ++ [0xA0] ++ (leBytes 4 x).reverse)))) ∧
  (∀ (s : State) (a : Nat) (w : Word), s.spiUp = true → 0x40000 ≤ a → a < 2 ^ 32 → spiWindow a = false →
    exec (.spiWrite a [w]) s = .next (s.emit (.spi [0xA1])) ∧ exec (.spiWriteFixed a [w, w]) s = .next (s.emit (.spi [0xA1, 0xA1]))) ∧
  (∀ (s : State) (a : Nat) (w : Word), s.spiUp = true → a < 0x40000 → a % 4 = 0 → reservedHit a w = false →
    exec (.spiWrite a [w]) s = .next ((s.hostWrite a w).emit (.spi [0xA0]))) ∧
  (∀ (s : State) (c : Fin 256), s.spiUp = true → c ≠ 0x0B → c ≠ 0x0F → c ≠ 2 → c ≠ 3 →
    exec (.spiUnknownCommand c) s = .next (s.count BRG.SPI_CNT.CMD_ERR 1)) ∧
  (∀ s : State, s.spiUp = true →
    exec .spiFrameTruncated s = .next ((s.count BRG.SPI_CNT.FRAME_ERR 1).setFlag BRG.HOST_EVT.SPI_ERR true)) ∧
  (∀ (s : State) (bs : List Nat), s.i2cUp = true → s.i2cBusy = true →
    exec (.i2cRequestWrite bs) s = .next ((s.count BRG.I2C_CNT.NACK_BUSY 1).emit .i2cNack)) ∧
  (∀ (s : State) (lo hi : Nat), s.i2cUp = true → s.i2cBusy = false →
    exec (.i2cRequestWrite [lo, hi, 0, pec [s.i2cAddress false, lo, hi, 0]]) s = .next (s.i2cSubmit (leValue [lo, hi]) [])) ∧
  (∀ (s : State) (lo hi x : Nat), s.i2cUp = true → s.i2cBusy = false → x ≠ pec [s.i2cAddress false, lo, hi, 0] →
    exec (.i2cRequestWrite [lo, hi, 0, x]) s = .next (s.count BRG.I2C_CNT.PEC_ERR 1)) ∧
  (∀ (s : State) (n : Nat), s.i2cUp = true → s.rspFill 2 = 0 →
    exec (.i2cRead n) s = .next (s.emit (.i2c ((s.i2cBody ++ [pec (s.i2cAddress true :: s.i2cBody)]).take n)))) ∧
  (∀ s : State, s.isOff = false → s.pwrState = Pw.standby → s.wakeEnabled 2 = true →
    exec .i2cAddressWake s = .next (State.wakeEvents { s.emit .i2cNack with pwr := { s.pwr with i2cMatches := s.pwr.i2cMatches + 1 } }
      [(2, 0)])) ∧
  (∀ s : State, s.isOff = true → exec .i2cAddressWake s = .next s)

/-- What a register read of the host answers: A read of no byte, or of bytes of two words, answers zero. A read of one byte to four bytes of a plain register word answers those bytes. TICK_SEQ answers the sequence number with the phase captured in the next read of TICK_PHASE; the low halves of train time, PTP time and the RTC answer the time at the read with its upper half captured. A read of a read-clear register leaves its RC fields at zero. TSQ_STAT pops its queue. Each read's answer leaves through the port. -/
def Obligations.RegisterReads : Prop :=
  (∀ (s : State) (a n : Nat) (p : Fin 20854), n = 0 ∨ 4 < a % 4 + n →
    exec (.rcFieldRead a n p) s = .next (s.uncaptured.emit (.hostRead 0))) ∧
  (∀ (s : State) (k n : Nat) (p : Fin 20854), s.domOn (regDomain PWR.WAKE_TO0.off) = true → 0 < n → k + n ≤ 4 →
    ∃ t, exec (.rcFieldRead (PWR.WAKE_TO0.off + k) n p) s = .next t ∧ (∀ a, t.word a = s.word a) ∧
      t.outbox = s.outbox ++ [.hostRead ((s.word PWR.WAKE_TO0.off).toNat / 2 ^ (8 * k) % 2 ^ (8 * n))]) ∧
  (∀ (s : State) (p : Fin 20854), s.domOn (regDomain GLB.TICK_SEQ.off) = true →
    ∃ t, exec (.tickSeqRead p) s = .next t ∧ t.outbox = s.outbox ++ [.hostRead (s.word GLB.TICK_SEQ.off).toNat] ∧
      t.clk.cap = some (GLB.TICK_PHASE.off, p.val)) ∧
  (∀ (s : State) (p : Fin 20854), s.domOn (regDomain SYNC.TIME_LO.off) = true →
    ∃ t, exec (.syncTimeLoRead p) s = .next t ∧ t.outbox = s.outbox ++ [.hostRead (s.timeAt p % 2 ^ 32)] ∧
      t.clk.cap = some (SYNC.TIME_HI.off, s.timeAt p / 2 ^ 32)) ∧
  (∀ (s : State) (p : Fin 20854), s.domOn (regDomain PTP.TIME_LO.off) = true →
    ∃ t, exec (.ptpTimeLoRead p) s = .next t ∧ t.outbox = s.outbox ++ [.hostRead (ptpBits (s.ptpNs p) % 2 ^ 32)] ∧
      t.clk.cap = some (PTP.TIME_HI.off, ptpBits (s.ptpNs p) / 2 ^ 32)) ∧
  (∀ (s : State) (p : Fin 20854), s.domOn (regDomain PWR.RTC_LO.off) = true →
    ∃ t, exec (.rtcLoRead p) s = .next t ∧ t.outbox = s.outbox ++ [.hostRead (s.rtcAt p % 2 ^ 32)] ∧
      t.clk.cap = some (PWR.RTC_HI.off, s.rtcAt p / 2 ^ 32)) ∧
  (∀ (s : State) (p : Fin 20854), s.domOn (regDomain BRG.SPI_CNT.off) = true →
    ∃ t, exec (.rcFieldRead BRG.SPI_CNT.off 4 p) s = .next t ∧ t.get BRG.SPI_CNT.CMD_ERR = 0 ∧ t.get BRG.SPI_CNT.FRAME_ERR = 0) ∧
  (∀ (s : State) (p : Fin 2), s.reaches (ETH.TSQ_STAT.off p) = true →
    exec (.tsqStatRead p) s = .next ((s.uncaptured.tsqRead p.val).2.emit (.hostRead (s.uncaptured.tsqRead p.val).1)))

/-- Standby entry, wake steps and their failures: An accepted request of an awake node starts the entry; an entry whose rails are down ends it. The dwell of a node that is to sleep drops ETH, CAN and the banks not retained, and SLEEP follows. Wake sources wake through one shared operation; a dominant CAN level in SLEEP and an alarm that is armed are such sources, and nothing of the kind acts in ACTIVE. Each wake step that is ready leads to the next, the store step with the store's domains ON; a step that times out ends in the safe state with AO_FAULT written, and another attempt while RETRIES allow it. The retry wait starts the next attempt at step 1. After the hold second of WAKE_FAIL a latched source acts. VMAIN above 3.2 V is shown. -/
def Obligations.PowerStateCommands : Prop :=
  (∀ s : State, s.awake = true → s.get PWR.STAT.TARGET ≠ 0 → exec .standbyEntry s = .next (s.entryStart (s.get PWR.STAT.TARGET))) ∧
  (∀ s : State, s.awake = false → exec .standbyEntry s = .next s) ∧
  (∀ s : State, s.pwrState = Pw.entering → s.pwr.rails = [] → exec .standbyEntryComplete s = .next s.entryEnd) ∧
  (∀ s : State, s.pwrState ≠ Pw.entering → exec .standbyEntryComplete s = .next s) ∧
  (∀ s t : State, s.pwrState = Pw.standby → s.get PWR.STAT.TARGET = Pw.sleep → t = s.ethDown false →
    exec .standbyDwellExpire s =
      .next (((({ t.canDown with can := { CanSt.reset with wake := t.can.wake } } : State).setLevel Dom.eth 0).setLevel Dom.can 0).dropBanks
        ({ t.canDown with can := { CanSt.reset with wake := t.can.wake } } : State).mem.mask |>.powerTo Pw.sleep)) ∧
  (∀ s : State, s.pwrState ≠ Pw.standby → exec .standbyDwellExpire s = .next s) ∧
  (∀ (s : State) (k : Fin 11) (d : Fin 256), exec (.wakeEvent [(k, d)]) s = .next (s.wakeEvents [(k.val, d.val)])) ∧
  (∀ s : State, s.pwrState = Pw.sleep → exec (.canWake none) s = .next ((s.canWakeLast 0 false).wakeEvents [(3, 0)])) ∧
  (∀ (s : State) (f : Option CanRx), s.pwrState = Pw.active → exec (.canWake f) s = .next s) ∧
  (∀ s : State, s.flag PWR.CFG.ALM_EN = true →
    exec .rtcAlarm s = .next (State.wakeEvents { s with rtc := max s.rtc (3 * s.pwr.alarm) } [(9, 0)])) ∧
  (∀ s : State, s.flag PWR.CFG.ALM_EN = false → exec .rtcAlarm s = .next s) ∧
  (∀ (s : State) (hi : Nat), s.reaches PWR.RTC_ALM_HI.off = true → exec (.rtcAlmHiWrite hi) s = .next (s.uncaptured.rtcAlarmHi hi)) ∧
  (∀ s : State, s.stepping = true → s.pwr.step = 2 → exec .wakeStepReady s = .next { s with pwr := { s.pwr with step := 3 } }) ∧
  (∀ s t : State, s.stepping = true → s.pwr.step = 3 → t = (s.setLevel Dom.storeArray 2).setLevel Dom.storeCtl 2 →
    exec .wakeStepReady s = .next { t with pwr := { t.pwr with step := 4 } }) ∧
  (∀ s : State, s.stepping = true → s.pwr.step = 4 → exec .wakeStepReady s = .next s.logicReady) ∧
  (∀ (s : State) (f : StepFail), s.stepping = false → exec .wakeStepReady s = .next s ∧ exec (.wakeStepTimeout f) s = .next s) ∧
  (∀ (s t : State) (f : StepFail), s.stepping = true → s.pwr.attempt ≠ 1 → s.pwr.attempt ≤ s.get PWR.WAKE_CTRL.RETRIES →
    t = ((((s.safeState.set PWR.AO_FAULT.CAUSE (s.failCause f)).set PWR.AO_FAULT.STEP s.pwr.step).set PWR.AO_FAULT.ATTEMPTS
      s.pwr.attempt).setFlag PWR.AO_FAULT.VALID true) →
    exec (.wakeStepTimeout f) s =
      .next { t.set PWR.AO_FAULT.RTC_S (t.rtc / 3000000000 % 65536) with pwr := { t.pwr with step := 1, waiting := true } }) ∧
  (∀ s : State, s.pwr.waiting = true →
    exec .wakeRetryWaitEnd s = .next (State.set { s with pwr := { s.pwr with waiting := false, step := 1, attempt := s.pwr.attempt + 1 } }
      PWR.WAKE_STAT.ATTEMPTS (min (s.pwr.attempt + 1) 15))) ∧
  (∀ s : State, s.pwr.waiting = false → exec .wakeRetryWaitEnd s = .next s) ∧
  (∀ s : State, s.pwrState = Pw.wakeFail → s.pwr.failHold = true → s.pwr.latched ≠ [] →
    exec .wakeFailHoldEnd s = .next (State.wakeLatched { s with pwr := { s.pwr with failHold := false } })) ∧
  (∀ s : State, s.pwr.failHold = false → exec .wakeFailHoldEnd s = .next s) ∧
  (∀ s t : State, t = s.setFlag PWR.STAT.VMAIN_OK true → t.pwrState ≠ Pw.wakeFail → exec .vmainRise s = .next t)

/-- Amplifier rails, the operating point, votes and residency: A rail step's delay raises its rails' enables together, or drops them; at the end of a step each rail shows power good or loses its enable with FAULT. A rail that is on and loses power good loses EN and PG, shows FAULT, and is counted. A write that changes the voltage point alone, to a number not above the frequency point's, takes it and clears VOLT_READY; one that changes the frequency point, to a number not below the voltage point's and with VOLT_READY set, takes effect at the next boundary; one that would put the frequency point's number below the voltage point's is an order error and changes neither point. VOLT_SETTLED sets VOLT_READY; a frequency change takes effect at the boundary. The host's votes are written through the register. A second of residency counts in the present state, outside NORMAL. -/
def Obligations.RailsPerformanceAndResidency : Prop :=
  (∀ (s : State) (q : RailSeq) (rest : List RailSeq), s.pwr.rails = q :: rest → q.moved = true →
    exec .railDelayExpire s = .next s) ∧
  (∀ (s t : State) (q : RailSeq) (rest : List RailSeq), s.pwr.rails = q :: rest → q.moved = false → q.up = true →
    t = (s.railsAt q.rails q.step).foldl (fun (u : State) (r : Nat) => (u.putBit PWR.RAIL_STAT.EN r true).putBit PWR.RAIL_STAT.FAULT r false) s →
    exec .railDelayExpire s = .next { t with pwr := { t.pwr with rails := { q with moved := true } :: rest } }) ∧
  (∀ (s : State) (pg : Fin 256), s.pwr.rails = [] → exec .railDelayExpire s = .next s ∧ exec (.railStepEnd pg) s = .next s) ∧
  (∀ (s t : State) (q : RailSeq) (rest : List RailSeq), s.pwr.rails = q :: rest → q.moved = true →
    t = (s.railsAt q.rails q.step).foldl (fun (u : State) (r : Nat) => u.putBit PWR.RAIL_STAT.PG r true) s →
    exec (.railStepEnd 255) s = .next (t.railAdvance q rest)) ∧
  (∀ (s t : State) (r : Fin 8), s.getBit PWR.RAIL_STAT.EN r = true → s.railMoving r.val = false →
    t = ((s.putBit PWR.RAIL_STAT.EN r false).putBit PWR.RAIL_STAT.PG r false).putBit PWR.RAIL_STAT.FAULT r true →
    exec (.railPgFault r) s =
      .next (((t.evt PWR.EVT.RAIL_FAULT 1 Src.FAULT_SUMMARY).count PWR.ERR.RAIL_FAULT_CNT 1).postBy .power Evt.AMP_RAIL_FAULT r [])) ∧
  (∀ (s : State) (r : Fin 8), s.getBit PWR.RAIL_STAT.EN r = false → exec (.railPgFault r) s = .next s) ∧
  (∀ (s : State) (v : Fin 3), s.reaches PWR.PERF.off = true → v.val ≠ s.get PWR.PERF.VOLT_PT → v.val ≤ s.get PWR.PERF.FREQ_PT →
    s.get PWR.PERF.FREQ_PT < 3 →
    exec (.perfVoltWrite v) s = .next ((s.uncaptured.set PWR.PERF.VOLT_PT v).setFlag PWR.PERF.VOLT_READY false)) ∧
  (∀ (s : State) (f : Fin 3), s.reaches PWR.PERF.off = true → f.val ≠ s.get PWR.PERF.FREQ_PT → s.get PWR.PERF.VOLT_PT ≤ f.val →
    s.flag PWR.PERF.VOLT_READY = true → exec (.perfFreqWrite f) s =
      .next { s.uncaptured.set PWR.PERF.FREQ_PT f with pwr := { s.pwr with freqNext := true } }) ∧
  (∀ (s : State) (f : Fin 3), s.reaches PWR.PERF.off = true → f.val < s.get PWR.PERF.VOLT_PT → s.get PWR.PERF.VOLT_PT < 3 →
    exec (.perfFreqWrite f) s = .next (((s.uncaptured.evt PWR.EVT.ORDER_ERR 1 Src.PWR_STATE).count PWR.ERR.ORDER_CNT 1).postBy .power
      Evt.PWR_ORDER_ERR 0 [s.get PWR.PERF.VOLT_PT * 16 + f])) ∧
  (∀ s : State, exec .voltSettled s = .next (s.setFlag PWR.PERF.VOLT_READY true)) ∧
  (∀ s t : State, s.pwr.freqNext = true →
    t = (s.set GLB.DSP_PERF.POINT (s.get PWR.PERF.FREQ_PT)).set GLB.DSP_PERF.BUDGET (pointBudget (s.get PWR.PERF.FREQ_PT)) →
    exec .freqChangeApply s = .next { t with pwr := { s.pwr with freqNext := false } }) ∧
  (∀ s : State, s.pwr.freqNext = false → exec .freqChangeApply s = .next s) ∧
  (∀ (s : State) (v : Fin 2048), s.reaches PWR.HOST_VOTE.off = true → s.pwrState = Pw.active →
    (∀ t : State, t = (s.uncaptured.set PWR.HOST_VOTE.VOTE v).showVotes → t.pwrState = Pw.active →
      exec (.hostVoteWrite v) s = .next t)) ∧
  (∀ s : State, s.mode = Mode.test → s.pwrState = Pw.active → exec .residencySecond s = .next (s.count PWR.RES_ACTIVE.SECONDS 1)) ∧
  (∀ s : State, s.mode = Mode.test → s.pwrState = Pw.standby → exec .residencySecond s = .next (s.count PWR.RES_STANDBY.SECONDS 1)) ∧
  (∀ s : State, s.mode = Mode.normal → exec .residencySecond s = .next s)

/-- Resets, the supplies, PDW and Decik's stops: POWER_ON_RESET resets everything, takes the straps, and votes for the strapped host. Losing VAO leaves the node OFF with every domain at level 0, in which no reset, restart or tick acts. A supply restart of a node that is awake or starting, and a low reset pin, reset the node for their cause; the start begins when the supply is back, or the pin rises. PDW is raised once and taken back when VMAIN recovers. A lock-step mismatch, a watchdog expiry and a firmware fault stop Decik with their causes. BOOT_CTRL.GO in the wait for the host starts the check of the host's bundle. -/
def Obligations.ResetCommands : Prop :=
  (∀ (s t : State) (x : Straps), t = { s.aoLost 0 with straps := x } → x.hostSpi = true →
    exec (.powerOnReset x) s = .next (t.set PWR.HOST_VOTE.VOTE 1).restoreTamper) ∧
  (∀ (s t : State) (x : Straps), t = { s.aoLost 0 with straps := x } → x.hostSpi = false →
    exec (.powerOnReset x) s = .next (t.set PWR.HOST_VOTE.VOTE 33).restoreTamper) ∧
  (∀ s t : State, t = (s.aoLost Wait.vao).setLevels (fun _ => 0) →
    exec .vaoLost s = .next { t with pwr := { t.pwr with step := 0 } }) ∧
  (∀ (s : State) (b : Fin 4), s.isOff = true → exec (.supplyRestart b) s = .next s ∧ exec (.resetPin b) s = .next s) ∧
  (∀ (s : State) (b : Fin 4), s.isOff = false → s.awake = true →
    exec (.supplyRestart b) s = .next ((s.resetNode Rst.supply b.val Wait.supply 0).setFlag PWR.STAT.VMAIN_OK false)) ∧
  (∀ s : State, s.pwr.resetWait = Wait.supply →
    exec .vmainRestored s =
      .next (State.setFlag { s with pwr := { s.pwr with resetWait := 0, t0 := s.decik.upTicks } } PWR.STAT.VMAIN_OK true)) ∧
  (∀ (s : State) (b : Fin 4), s.isOff = false → exec (.resetPin b) s = .next (s.resetNode Rst.pin b.val Wait.pin 0)) ∧
  (∀ s : State, s.pwr.resetWait = Wait.pin →
    exec .rstNRelease s = .next { s with pwr := { s.pwr with resetWait := 0, t0 := s.decik.upTicks } }) ∧
  (∀ s : State, s.pwr.resetWait = 0 → exec .vmainRestored s = .next s ∧ exec .rstNRelease s = .next s) ∧
  (∀ s : State, s.vaoOnly = false → s.flag PWR.STAT.PDW = false → exec .pdwRaise s = .next s.pdwRaise) ∧
  (∀ s : State, s.flag PWR.STAT.PDW = true → exec .pdwRaise s = .next s) ∧
  (∀ s : State, s.flag PWR.STAT.PDW = true → s.pwr.resetWait = 0 →
    exec .pdwRecover s = .next (((s.setFlag PWR.STAT.PDW false).setFlag PWR.STAT.VMAIN_OK true).postBy .power Evt.PDW_RECOVERED 0 [])) ∧
  (∀ s : State, s.flag PWR.STAT.PDW = false → exec .pdwRecover s = .next s) ∧
  (∀ s : State, exec .lockstepMismatch s = .next (s.decikStop Rst.lockstep true) ∧
    exec .watchdogExpiry s = .next (s.decikStop Rst.watchdog true) ∧ exec .firmwareFault s = .next (s.decikStop Rst.firmware true)) ∧
  (∀ (s t : State) (k : Fin 16384), s.reaches GLB.BOOT_CTRL.off = true → t = s.uncaptured.set GLB.BOOT_CTRL.SIZE_KIB k →
    t.bootIn 1 = true →
    exec (.bootGo k) s = .next ((t.set GLB.BOOT_STAT.STATE 2).faultCause GLB.FAULT_STAT.BOOT_WAIT GLB.FAULT_EVT.BOOT_WAIT false)) ∧
  (∀ (s t : State) (k : Fin 16384), s.reaches GLB.BOOT_CTRL.off = true → t = s.uncaptured.set GLB.BOOT_CTRL.SIZE_KIB k →
    t.bootIn 1 = false → exec (.bootGo k) s = .next t)

/-- The steps of a start, in their order: Each step of a start acts in its boot state and not in another. The boot ROM of a cold start initialises bank 0. A bundle that the flash does not answer for fails with cause 5, and one with a fault with its cause; a good one is taken. BIST with the expected signature passes, otherwise it shows BIST_FAIL; either way Decik's start follows. Decik's initialisation sets RUN and its release. The configuration's end reports the summary. Ring-ready needs a writer or master that is LOCKED; with both lines disabled the start ends without a ring, cause 1. A restarted Decik runs again and completes what was open as ABORTED. -/
def Obligations.StartSteps : Prop :=
  (∀ (s : State) (fl : Option (List Nat)) (m : List Nat) (a b c : Nat), (∀ k : Nat, s.bootIn k = false) →
    exec (.bootVerifyDone fl) s = .next s ∧ exec (.bistComplete m a b c) s = .next s ∧ exec (.decikInitDone 0) s = .next s ∧
    exec .configLoadDone s = .next s ∧ exec .startupNoRing s = .next s) ∧
  (∀ s : State, s.pwrState ≠ Pw.starting → exec .bootRomStart s = .next s) ∧
  (∀ s t u : State, s.pwrState = Pw.starting → s.pwr.step = 5 → s.pwr.resetWait = 0 → s.pwr.wakeStart = false → s.straps.bootSrc = 0 →
    2 < s.get GLB.RST_CAUSE.CAUSE → s.bistKinds = 0 →
    t = { s with pwr := { s.pwr with step := 0, bist := 0, copy := 0, strapBad := false } } →
    u = (t.set GLB.BOOT_STAT.COPY 0).set GLB.BOOT_STAT.STATE 0 →
    exec .bootRomStart s = .next (u.storeInit 1).linksRise) ∧
  (∀ s : State, s.bootIn 2 = true → s.pwr.copy = 0 → exec (.bootVerifyDone none) s = .next (s.bundleFailed 5)) ∧
  (∀ (s : State) (b : List Nat), s.bootIn 2 = true → s.pwr.copy = 0 → s.bundleFault b = 0 →
    exec (.bootVerifyDone (some b)) s = .next (s.takeBundle b)) ∧
  (∀ (s : State) (b : List Nat), s.bootIn 2 = true → s.pwr.copy = 0 → s.bundleFault b ≠ 0 →
    exec (.bootVerifyDone (some b)) s = .next (s.bundleFailed (s.bundleFault b))) ∧
  (∀ (s t u : State) (m : List Nat) (ms : Nat), s.bootIn 3 = true → s.pwr.bist = 0 →
    t = ((((s.setFlag TST.BIST_STAT.VALID true).set TST.BIST_STAT.KIND 0).set TST.BIST_STAT.PASS 0).set TST.BIST_STAT.DUR_MS (min ms 0xFFFF)) →
    u = { t with pwr := { t.pwr with bist := 0, bistFailed := false } } →
    exec (.bistComplete m 0 0 ms) s =
      .next (((u.setFlag GLB.BOOT_STAT.BIST_RUN true).setFlag GLB.BOOT_STAT.BIST_FAIL false).linksRise.verified)) ∧
  (∀ s : State, s.bootIn 4 = true → ∃ u v : State, exec (.decikInitDone 0) s = .next v ∧ v = u.pendAll.summaryReady) ∧
  (∀ s : State, s.bootIn 5 = true → s.decikRuns = true →
    ∃ u v : State, exec .configLoadDone s = .next v ∧ v = ((u.set GLB.BOOT_STAT.STATE 6).topoChange.formingStart).summaryReady) ∧
  (∀ s t : State, s.decikRuns = true → s.get GLB.BOOT_STAT.STATE = 6 → s.flag GLB.BOOT_STAT.RING_READY = false → s.role = 1 →
    s.get SYNC.STAT.STATE = 2 →
    t = (s.setFlag GLB.BOOT_STAT.RING_READY true).set GLB.BOOT_TIME.READY_MS (min ((s.decik.upTicks - s.pwr.t0) / 48) 0xFFFF) →
    exec .ringReady s = .next t.finishStart) ∧
  (∀ s : State, s.get SYNC.STAT.STATE ≠ 2 → exec .ringReady s = .next s) ∧
  (∀ s : State, s.bootIn 6 = true → s.decikRuns = true → s.get RING.PORT_CFG.LINE_EN = 0 →
    exec .startupNoRing s = .next (s.post Evt.STARTUP_NO_RING 0 [1]).finishStart) ∧
  (∀ s t u : State, s.decikRuns = false → s.flag GLB.FW_STAT.HALTED = false → s.awake = true → 6 ≤ s.get GLB.BOOT_STAT.STATE →
    s.get GLB.BOOT_STAT.STATE ≠ 9 → s.firmwareGood = true →
    t = ((s.setFlag GLB.FW_STAT.RUN true).faultCause GLB.FAULT_STAT.DECIK GLB.FAULT_EVT.DECIK false).flushPending.handleLostBanks →
    u = (List.range 4).foldl (fun (v : State) (ch : Nat) => v.setFlag (MBX.CH_STAT.READY ch) (decide (2 ≤ ch) || ch == v.hostCh)) t →
    exec .decikRestartDone s = .next ((u.finishAll (fun _ => true) Status.aborted []).heldResets).restartConfig.summaryReady) ∧
  (∀ s : State, s.decikRuns = true → exec .decikRestartDone s = .next s)

/-- Key loads, tamper, discrete inputs and the self-tests: Decik's key load needs Decik and SEC; under tamper it is refused and counted. A tamper cause whose detector is enabled zeroes the engines' keys and is latched; a cause that ends clears PRESENT with the last one. A debounced change is shown raw, counted, and reported unless the input is frozen. A frozen input with a quiet chatter window is released with its value; an input active for STUCK_S seconds is STUCK once. A lane test of an Ethernet port acts in service mode TEST with the port disabled. A store test ends with what it found. -/
def Obligations.KeysTamperInputsAndSelfTests : Prop :=
  (∀ (s : State) (k : Fin 16) (e : Fin 4) (p : Bool), s.decikRuns = false → exec (.kloadWrite k e p) s = .next s) ∧
  (∀ (s : State) (k : Fin 16) (e : Fin 4) (p : Bool), s.decikRuns = true → s.domOn Dom.sec = true → s.flag SEC.STAT.TAMPER = true →
    exec (.kloadWrite k e p) s = .next s.loadRefused) ∧
  (∀ (s : State) (k : Fin 16) (e : Fin 4) (g : KeyGen), s.decikRuns = true → s.domOn Dom.sec = true → s.flag SEC.STAT.TAMPER = false →
    (s.slot k.val).state = 1 → (s.slot k.val).cur = some g → s.unwraps k.val = true → bit (s.slot k.val).mask e.val = true →
    exec (.kloadWrite k e false) s = .next (State.showEngine
      { s with engines := s.engines.set e ⟨some g.key, s.engines[e].prev⟩ } e k.val g.version)) ∧
  (∀ s : State, s.flag SEC.TMP_CFG.EN0 = false → exec (.tamperDetect 0) s = .next s) ∧
  (∀ (s t u v w : State) (c : Fin 5), s.tamperArmed c.val = true →
    t = { s with sec := { s.sec with present := setBit s.sec.present c.val }, engines := Vector.replicate 4 ⟨none, none⟩ } →
    u = (((([(0 : Fin 4), 1, 2, 3].foldl (fun (x : State) (e : Fin 4) => x.showEngine e (x.get (SEC.ENG.SLOT e)) 0) t).setFlag
      SEC.STAT.PRESENT true).setFlag SEC.STAT.TAMPER true).putBit SEC.STAT.CAUSE c.val true).count SEC.TMP_CNT.EVENTS 1 →
    v = (if u.durableOn then { u with sec := { u.sec with durable := u.get SEC.STAT.CAUSE } } else u) →
    w = (((v.showKeys.postBy .security Evt.TAMPER 0 [u.get SEC.STAT.CAUSE]).evt SEC.EVT.TAMPER 1 Src.SEC_TAMPER).faultCause
      GLB.FAULT_STAT.TAMPER GLB.FAULT_EVT.TAMPER true).recShow →
    w.decikRuns = false → w.pwrState ≠ Pw.starting →
    exec (.tamperDetect c) s = .next (w.wakeEvents [(8, u.get SEC.STAT.CAUSE)])) ∧
  (∀ (s : State) (c : Fin 5), exec (.tamperCauseEnd c) s =
    .next (State.setFlag { s with sec := { s.sec with present := clrBit s.sec.present c.val } } SEC.STAT.PRESENT
      (clrBit s.sec.present c.val != 0))) ∧
  (∀ (s t : State) (i : Fin 32) (v : Bool), s.diSampled i.val = true → bit s.dio.under i.val ≠ v →
    t = s.putBit DIO.IN_RAW.LEVEL i v → t.getBit DIO.CHATTER.FROZEN i = true →
    exec (.diDebouncedChange i v) s = .next { t with dio := { s.dio with
      under := if v then setBit s.dio.under i.val else clrBit s.dio.under i.val
      changes := s.dio.changes.set i.val (s.dio.changes.getD i.val 0 + 1) } }) ∧
  (∀ (s : State) (i : Fin 32) (v : Bool), bit s.dio.under i.val = v → exec (.diDebouncedChange i v) s = .next s) ∧
  (∀ (s t : State) (i : Fin 32), s.dio.changes.getD i.val 0 = 0 → s.getBit DIO.CHATTER.FROZEN i = true →
    t = { s with dio := { s.dio with changes := s.dio.changes.set i.val 0 } } →
    exec (.chatterWindowEnd i) s = .next ((t.putBit DIO.CHATTER.FROZEN i false).diReport i (bit s.dio.under i.val))) ∧
  (∀ (s : State) (i : Fin 32), s.getBit DIO.CHATTER.FROZEN i = false →
    exec (.chatterWindowEnd i) s = .next { s with dio := { s.dio with changes := s.dio.changes.set i.val 0 } }) ∧
  (∀ (s : State) (i : Fin 32), s.getBit DIO.IN_STATE.VALUE i = true → s.get (DIO.INTIM.STUCK_S i) ≠ 0 → s.getBit DIO.STUCK.STUCK i = false →
    exec (.diStuck i) s = .next ((s.putBit DIO.STUCK.STUCK i true).evtBit DIO.EVT_STUCK.EVT i Src.DIO_EVENT)) ∧
  (∀ (s : State) (i : Fin 32), s.getBit DIO.STUCK.STUCK i = true → exec (.diStuck i) s = .next s) ∧
  (∀ (s t : State) (p : Fin 2), s.reaches (TST.ELANE.off p) = true → s.mode = Mode.test → s.flag (ETH.CFG.EN p) = false →
    s.get (TST.ELANE.MODE p) = 0 →
    exec (.elaneModeWrite p 3 false) s = .next ((((s.uncaptured.set (TST.ELANE.MODE p) 3).set (TST.ELANE_ERR.ERR p) 0).set
      (TST.ELANE_BITS.BITS p) 0).setFlag (TST.ELANE.CHK_LOCK p) false)) ∧
  (∀ (s : State) (p : Fin 2), s.reaches (TST.ELANE.off p) = true → s.mode = Mode.normal → s.get (TST.ELANE.MODE p) = 0 →
    exec (.elaneModeWrite p 3 false) s = .next s.uncaptured) ∧
  (∀ (s : State) (n first : Nat), exec (.storeTestDone n first) s = .next (s.storeTestEnd n first false))

/-- Ethernet links, frames, gates, pauses and stream drops: A link accepted at a running port shows LINK and its event; one at another speed is counted and refused; a port that does not run takes none. A link's end has the shared operation's effect. A frame with a wire fault, or with no buffer, is counted for its cause; a good one is counted and classified; a port that is down takes none. A port that is up and not paused sends the frame its queues pick; a paused one sends nothing. The end of a pause clears REMAIN; the next gate entry opens, and the last one holds. A write of the host ring's index acts through the register. A Praline match of an awake node is counted. A stream that stops shows it once. A late packet of an unknown stream drops nothing. -/
def Obligations.EthernetPortCommands : Prop :=
  (∀ (s : State) (p : Fin 2), s.ethRuns p.val = true →
    exec (.ethLinkUp p true) s = .next ((s.setFlag (ETH.STAT.LINK p) true).evt (ETH.EVT.LINK_UP p) 1 (ethSrcEvent p)) ∧
    exec (.ethLinkUp p false) s = .next ((s.ethCount p 35 1).evt (ETH.EVT.SPEED_REFUSED p) 1 (ethSrcEvent p))) ∧
  (∀ (s : State) (p : Fin 2) (b : Bool), s.ethRuns p.val = false → exec (.ethLinkUp p b) s = .next s) ∧
  (∀ (s : State) (p : Fin 2), exec (.ethLinkDown p) s = .next (s.ethLinkDown p.val)) ∧
  (∀ (s : State) (p : Fin 2) (f : EthRx), s.ethUp p.val = false → exec (.ethFrameReceive p f) s = .next s) ∧
  (∀ (s : State) (p : Fin 2) (f : EthRx) (i : Nat), s.ethUp p.val = true → rxFault f = some i →
    exec (.ethFrameReceive p f) s = .next ((s.ethCount p i 1).evt (ETH.ERR_EVT.WIRE p) 1 (ethSrcErr p))) ∧
  (∀ (s : State) (p : Fin 2) (f : EthRx), s.ethUp p.val = true → rxFault f = none → f.bufFull = true →
    exec (.ethFrameReceive p f) s = .next ((s.ethCount p 20 1).evt (ETH.ERR_EVT.RX_OVF p) 1 (ethSrcErr p))) ∧
  (∀ (s : State) (p : Fin 2) (f : EthRx), s.ethUp p.val = true → rxFault f = none → f.bufFull = false →
    exec (.ethFrameReceive p f) s = .next ((s.rxCounted p f.bytes).rxClassify p f)) ∧
  (∀ (s : State) (p : Fin 2) (ph : Nat), s.flag (ETH.STAT.PAUSED p) = true → exec (.ethFrameTransmit p ph) s = .next s) ∧
  (∀ (s t : State) (p : Fin 2) (ph q : Nat) (f : TxFrame), s.ethUp p.val = true → s.flag (ETH.STAT.PAUSED p) = false →
    t = (List.range 8).foldl (fun (u : State) (k : Nat) => u.dropUnsendable p k 256) s → t.txPick p ph = some (q, f) →
    exec (.ethFrameTransmit p ph) s = .next (t.txSend p q f ph)) ∧
  (∀ (s : State) (p : Fin 2), s.flag (ETH.STAT.PAUSED p) = true →
    exec (.pauseExpire p) s = .next ((s.set (ETH.PAUSE_STAT.REMAIN p) 0).pauseEnd p)) ∧
  (∀ (s : State) (p : Fin 2), s.flag (ETH.STAT.PAUSED p) = false → exec (.pauseExpire p) s = .next s) ∧
  (∀ (s : State) (p : Fin 2), s.domOn Dom.eth = true → s.get (ETH.GATE_STAT.ENTRY p) + 1 < (s.ethPort p).gates.spans.length →
    exec (.gateEntryChange p) s = .next (s.showGate p (s.get (ETH.GATE_STAT.ENTRY p) + 1))) ∧
  (∀ (s : State) (p : Fin 2), (s.ethPort p).gates.spans.length ≤ s.get (ETH.GATE_STAT.ENTRY p) + 1 →
    exec (.gateEntryChange p) s = .next s) ∧
  (∀ (s : State) (p : Fin 2) (wr : Nat), s.reaches (ETH.HTX_IDX.off p) = true →
    exec (.htxWrWrite p wr) s = .next (s.uncaptured.htxWrWrite p.val wr)) ∧
  (∀ (s : State) (p : Fin 2) (b : List Nat) (k : Nat), s.get (PWR.VOTE.LEVEL Dom.eth) ≠ 0 → s.pralineSlot p.val b true = some k →
    s.pwrState = Pw.active → (s.count (ETH.PRALINE_STAT.MATCH_CNT p) 1).pwrState = Pw.active →
    exec (.pralineMatch p b true) s = .next (s.count (ETH.PRALINE_STAT.MATCH_CNT p) 1)) ∧
  (∀ (s : State) (p : Fin 2) (b : List Nat) (ok : Bool), s.pralineSlot p.val b ok = none → exec (.pralineMatch p b ok) s = .next s) ∧
  (∀ (s : State) (n : Fin 64), s.flag (PTP.SRX_STAT.ARRIVING n) = true →
    exec (.aes67StreamStopped n) s = .next ((s.setFlag (PTP.SRX_STAT.ARRIVING n) false).streamEvt false n)) ∧
  (∀ (s : State) (n : Fin 64), s.flag (PTP.SRX_STAT.ARRIVING n) = false → exec (.aes67StreamStopped n) s = .next s) ∧
  (∀ (s : State) (n : Fin 64), s.stream true n.val = none → exec (.streamPacketLate n) s = .next s)

/-- PTP intervals, network sleep and the wake trainline: A write of SYNC.PTP_OFS_HI makes the signed 64-bit PTP offset of the two registers take effect. A port in MASTER sends a Sync with its sequence number and counts it on; a port that is down sends nothing. An Announce timeout of a listening port that takes part is counted and makes it MASTER; at a master it changes nothing. The idle count's end makes an awake master with no holder propose; an acknowledgement that is missing at the time-out withdraws the proposal; the agreed tick begins the entry to SLEEP, and not without an agreement. The wake input, its stuck state and the end of the output pulse follow R554 and R555. A wake with no valid communication is counted as false and leaves the node LONE; the lone count's end begins the entry. -/
def Obligations.PtpAndSleepCommands : Prop :=
  (∀ (s t : State) (p : Fin 2), s.decikRuns = true → s.ethUp p.val = true → s.ptpState p.val = Ptp.master →
    t = s.setEthPort p { s.ethPort p with ptp := { (s.ethPort p).ptp with syncSeq := ((s.ethPort p).ptp.syncSeq + 1) % 65536 } } →
    exec (.ptpMessageInterval p 0) s = .next (t.ptpSend p true (t.ptpHead 0 44 0x0200 p (s.ethPort p).ptp.syncSeq 0xFD ++
      List.replicate 10 0) (.sync (s.ethPort p).ptp.syncSeq))) ∧
  (∀ (s t : State) (w : Word), s.reaches SYNC.PTP_OFS_HI.off = true → t = s.uncaptured.setWord SYNC.PTP_OFS_HI.off w →
    exec (.ptpOfsHiWrite w) s =
      .next { t with clk := { t.clk with ptpOfs := toSigned 64 (t.get64 SYNC.PTP_OFS_LO.OFS SYNC.PTP_OFS_HI.OFS) } }) ∧
  (∀ (s : State) (p : Fin 2) (w : Fin 3), s.ethUp p.val = false → exec (.ptpMessageInterval p w) s = .next s) ∧
  (∀ (s t u : State) (p : Fin 2), s.decikRuns = true → (s.ethPort p).ptp.role ≠ 0 → s.ptpState p.val = Ptp.listening →
    t = s.count PTP.CNT.ANN_TIMEOUT 1 →
    u = t.setEthPort p { s.ethPort p with ptp := { (s.ethPort p).ptp with foreign := none, rxSync := none, reqSent := none } } →
    u.ptpState p.val = Ptp.listening →
    exec (.ptpAnnounceTimeout p) s = .next (u.setPtpState p Ptp.master).ptpDecide) ∧
  (∀ (s : State) (p : Fin 2), s.ptpState p.val = Ptp.master → exec (.ptpAnnounceTimeout p) s = .next s) ∧
  (∀ (s t : State) (l : Layout), s.isMaster = true → s.decikRuns = true → s.awake = true → s.layout? = some l → s.net.proposed = none →
    s.net.agreed = none → s.holders = [] → s.flag PWR.NET_STAT.HOLD = false →
    t = { s with net := { s.net with proposed := some (s.decik.upTicks + 1), underProposal := true } } →
    exec .idleCountExpire s =
      .next (((t.set PWR.NET_STAT.NSTATE Net.proposed).set PWR.ACK_MAP.MAP 0).evt PWR.NET_EVT.PROPOSED 1 Src.NET_SLEEP)) ∧
  (∀ s : State, s.isMaster = false →
    exec .idleCountExpire s = .next s ∧ exec .sleepAckTimeout s = .next s ∧ exec .heldTimeRecord s = .next s) ∧
  (∀ (s : State) (k p : Nat), s.isMaster = true → s.net.proposed = some k → s.net.announced = none →
    s.netPositions.find? (fun q => !s.getBit PWR.ACK_MAP.MAP (q - 1)) = some p →
    exec .sleepAckTimeout s = .next (s.withdraw p (s.awakeOf p % 128))) ∧
  (∀ (s : State) (k : Nat), s.net.agreed = some k → s.awake = true → s.decikRuns = true →
    exec .sleepTick s = .next (s.entryStart Pw.sleep)) ∧
  (∀ s : State, s.net.agreed = none → exec .sleepTick s = .next s) ∧
  (∀ s t : State, s.pins.wakeIn = false → s.net.stuck = false → t = s.setFlag PWR.WAKE_OUT.IN true →
    exec .wakeInAssert s = .next (State.wakeEvents { t with pins := { s.pins with wakeIn := true }
                                                            net := { s.net with stuck := false, lowFrom := none } } [(1, 0)])) ∧
  (∀ s : State, s.pins.wakeIn = true → exec .wakeInAssert s = .next s) ∧
  (∀ s : State, s.pins.wakeIn = true → s.net.stuck = false →
    exec .wakeInDeassert s = .next { s.setFlag PWR.WAKE_OUT.IN false with pins := { s.pins with wakeIn := false } }) ∧
  (∀ s t : State, s.pins.wakeIn = true → s.net.stuck = false → t = { s with net := { s.net with stuck := true, lowFrom := none } } →
    exec .wakeInStuck s = .next ((t.evt PWR.NET_EVT.IN_STUCK 1 Src.NET_SLEEP).postBy .power Evt.WAKE_IN_STUCK 0 [])) ∧
  (∀ s : State, s.net.stuck = true → exec .wakeInStuck s = .next s) ∧
  (∀ s : State, exec .wakeOutPulseEnd s = .next (s.setFlag PWR.WAKE_OUT.DRIVE false)) ∧
  (∀ (s t : State) (p : Nat), s.isMaster = true → s.decikRuns = true → s.holders = [p] →
    t = s.post Evt.SLEEP_HELD 0 ([p, s.awakeOf p % 128] ++ leBytes 2 (s.get PWR.HOLDER_STAT.HELD_MIN) ++ leBytes 4 (s.uidAt p).toNat) →
    exec .heldTimeRecord s = .next ((t.count PWR.HOLDER_STAT.OMITTED 0).evt PWR.NET_EVT.HOLDER_REC 1 Src.NET_SLEEP)) ∧
  (∀ s t u : State, s.netState = Net.validating → s.mode = Mode.normal →
    t = ((s.count PWR.FALSE_WAKE.COUNT 1).set PWR.FALSE_WAKE.LAST_SRC (s.get PWR.WAKE_SRC.SRC)).evt PWR.NET_EVT.FALSE_WAKE 1
      Src.NET_SLEEP →
    u = t.post Evt.FALSE_WAKE 0 [s.get PWR.WAKE_SRC.SRC, t.get PWR.WAKE_SRC.DETAIL] →
    exec .wakeValidExpire s =
      .next { u.set PWR.NET_STAT.NSTATE Net.lone with net := { u.net with validate := none, lone := 0 } }) ∧
  (∀ s : State, s.netState = Net.awake → exec .wakeValidExpire s = .next s ∧ exec .loneCountExpire s = .next s) ∧
  (∀ s : State, s.netState = Net.lone → s.mode = Mode.normal → s.awake = true → s.decikRuns = true → s.flag PWR.NET_STAT.HOLD = false →
    exec .loneCountExpire s =
      .next (((s.evt PWR.NET_EVT.LONE_SLEEP 1 Src.NET_SLEEP).post Evt.LONE_SLEEP 0 []).entryStart Pw.sleep))

/-- CAN cycles, frames, errors and voice channels: A window opens by the schedule's operation. A cycle start of a node without CAN does nothing; otherwise it leaves no window open and no frame on the bus, and drops the claims that are 3 cycles old. A frame of the own object on the bus that is sent leaves TX_PEND clear and TX_CAUSE 0; of another object nothing happens. A failed one-shot frame fails with its cause. Bus-off shows ERR_STATE 2 and is counted; recovery clears the error counters. A received frame is ignored by a listener; otherwise it lowers REC and is judged and delivered. Four cycles without a reference lose the lock. A released channel without a call is free; a claim collision draws a back-off of 1 to 4 cycles (a free value). TX_REQ queues an enabled transmit object only; HOLD and RELEASE set and clear HELD. -/
def Obligations.CanCommands : Prop :=
  (∀ (s : State) (w : Fin 64), exec (.canWindowOpen w) s = .next (s.windowOpen w.val)) ∧
  (∀ (s : State) (ph : Nat), s.domOn Dom.can = false → exec (.canCycleStart ph) s = .next s) ∧
  (∀ (s t : State) (ph : Nat), s.domOn Dom.can = true →
    t = ((((s.canTsrc.set CAN.REF.MISS 0).cycleTime ph).set CAN.CYCLE.CNT
      (((s.canTsrc.set CAN.REF.MISS 0).cycleTime ph).can.cycle % 2 ^ 32)).canSuspend).schedApply →
    s.canTsrc.can.refSeen = true → t.can.claims = [] → t.can.backoff = [] →
    exec (.canCycleStart ph) s = .next (((({ t with can := { t.can with
      refSeen := false, holdSent := false, win := none, active := none } } : State).chanCycle 0).chanCycle 1))) ∧
  (∀ (s : State) (k : Fin 128) (sof fin : Nat), s.can.active = none →
    exec (.canFrameSent k sof fin) s = .next s ∧ exec (.canTxFail k true) s = .next s) ∧
  (∀ (s : State) (k : Fin 128) (sof fin : Nat), s.can.active = some k.val → 16 ≤ k.val →
    ∃ t : State, exec (.canFrameSent k sof fin) s = .next ((t.evtBit (CAN.TX_EVT.EVT (k.val / 32)) (k.val % 32) Src.CAN_TX).canStart fin) ∧
      t.flag (CAN.OBJ_STAT.TX_PEND k) = false ∧ t.get (CAN.OBJ_STAT.TX_CAUSE k) = 0 ∧ t.can.active = none) ∧
  (∀ (s t : State) (k : Fin 128), s.can.active = some k.val → t = { s with can := { s.can with active := none } } →
    t.oneShot k.val false = true → exec (.canTxFail k false) s = .next (t.txFail k.val 1)) ∧
  (∀ s u v : State, s.canOn = true →
    u = (((({ s with can := { s.can with active := none } } : State).set CAN.STAT.ERR_STATE 2).setFlag CAN.STAT.RECOVERING true).count
      CAN.ERR.BUSOFF_CNT 1).canErr CAN.EVT.BUS_OFF →
    v = u.post Evt.CAN_BUS_OFF 0 [u.get CAN.ERR.TEC, u.get CAN.ERR.REC] → v.txWaiting = [] →
    exec .canBusOff s = .next v) ∧
  (∀ s : State, s.canOn = false → exec .canBusOff s = .next s) ∧
  (∀ s : State, s.flag CAN.STAT.RECOVERING = true →
    exec .canBusoffRecovered s = .next ((((s.set CAN.STAT.ERR_STATE 0).setFlag CAN.STAT.RECOVERING false).set CAN.ERR.TEC 0).set
      CAN.ERR.REC 0)) ∧
  (∀ s : State, s.flag CAN.STAT.RECOVERING = false → exec .canBusoffRecovered s = .next s) ∧
  (∀ (s : State) (f : CanRx), s.flag CAN.STAT.LISTEN = true → exec (.canFrameReceive f) s = .next s) ∧
  (∀ (s t : State) (f : CanRx) (j : Nat), s.canOn = true → s.flag CAN.STAT.LISTEN = false →
    t = (s.set CAN.ERR.REC (s.get CAN.ERR.REC - 1)).judge f → t.ownId f.id f.ext = false →
    (List.range 112).find? (fun i => t.objAccepts f (i + 16)) = some j → (t.objTake f (j + 16)).can.active = none →
    exec (.canFrameReceive f) s = .next (t.objTake f (j + 16))) ∧
  (∀ s : State, 4 ≤ s.get CAN.REF.MISS →
    exec .canRefLockLost s = .next (State.canTsrc { s with can := { s.can with refLock := false, refGood := 0 } })) ∧
  (∀ s : State, s.get CAN.REF.MISS < 4 → exec .canRefLockLost s = .next s) ∧
  (∀ (s : State) (c : Fin 2) (x : CallSt), s.chanCall c.val = some x →
    exec (.canChannelRelease c) s =
      .next (((s.setChan c { s.chan c with silent := 3 }).showChan c).evt CAN.EVT.VOICE 1 Src.CAN_VOICE)) ∧
  (∀ (s t : State) (i : Fin 8) (v : Nat), s.callState i.val = CallState.wait → s.fresh = (v, t) →
    ∃ u : State, exec (.canClaimBackoff i) s = .next u ∧ u.can.active = none ∧ (i.val, 1 + v % 4) ∈ u.can.backoff ∧
      u.vox = s.vox ∧ u.store = s.store) ∧
  (∀ (s : State) (i : Fin 8), s.callState i.val ≠ CallState.wait → exec (.canClaimBackoff i) s = .next s) ∧
  (∀ (s : State) (k : Fin 128), s.reaches (CAN.OBJ_STAT.off k) = true → s.flag (CAN.OBJ_CFG.EN k) = true → s.flag (CAN.OBJ_CFG.DIR k) = true →
    exec (.canTxReq k) s = .next ((s.uncaptured.setFlag (CAN.OBJ_STAT.TX_PEND k) true).set (CAN.OBJ_STAT.TX_CAUSE k) 0)) ∧
  (∀ (s : State) (k : Fin 128), s.reaches (CAN.OBJ_STAT.off k) = true → s.flag (CAN.OBJ_CFG.EN k) = false →
    exec (.canTxReq k) s = .next s.uncaptured) ∧
  (∀ (s : State) (k : Fin 128), s.reaches (CAN.OBJ_STAT.off k) = true →
    exec (.canObjHold k) s = .next (s.uncaptured.setFlag (CAN.OBJ_STAT.HELD k) true)) ∧
  (∀ (s : State) (k : Fin 128), s.reaches (CAN.OBJ_STAT.off k) = true → s.can.shadow = [] →
    exec (.canObjRelease k) s = .next ((s.uncaptured.setFlag (CAN.OBJ_STAT.HELD k) false).setFlag (CAN.OBJ_STAT.NEW k) false))

/-- Stack links, member records, ring images and time markers: A stack link in service shows block lock, counts as valid communication, and gives a member its sub-position; a disabled one ignores the event. A good record in time of an admitted member is taken; one that is late, or of another tick, is not. A late record is repeated and counted; 48 late ones lose the member, once. A member takes a ring image's numbers and data and reads its ring; a node that is no member ignores images and markers. A late image conceals the member's ring inputs for the tick and sets IMG_LATE. A marker with the member's own tick number within 5 ns counts towards the time lock. -/
def Obligations.StackCommands : Prop :=
  (∀ (s t : State) (k : Nat), s.stackPorts = true → s.stackLink 0 ≠ Lk.disabled → s.stackLink 0 ≠ Lk.inRing → s.isMember = true → k < 3 →
    t = (((s.stackTo 0 Lk.inRing).setFlag (STK.LINKSTAT.BLOCK_LOCK 0) true).setFlag (STK.LINKSTAT.LOS 0) false).validComm → t.isMember = true →
    exec (.stackLinkInService false k false []) s = .next (t.set STK.STAT.SUB (k + 1))) ∧
  (∀ (s : State) (k : Nat) (c : Bool) (m : List (Nat × DWord × Bool)), s.stackLink 0 = Lk.disabled →
    exec (.stackLinkInService false k c m) s = .next s) ∧
  (∀ (s t : State) (r : MemberRecord), s.isHead = true → s.admitted r.sub = true → r.good = true → r.phaseNs ≤ 18000 →
    r.tick = (s.tickSeq + 1) % 2 ^ 32 → r.cells = [] →
    t = (s.setMember r.sub ⟨r.wafers, r.units, r.alarm, 0, false, r.hold⟩) →
    exec (.memberRecordReceive r) s = .next (((t.set (STK.MEMBER_STAT.REC_BYTES r.sub) (36 + 4 * r.wafers.length + 16 * r.units.length)).setFlag
      (STK.MEMBER_STAT.LOCKED r.sub) r.locked))) ∧
  (∀ (s : State) (r : MemberRecord), 18000 < r.phaseNs → exec (.memberRecordReceive r) s = .next s) ∧
  (∀ (s t : State) (k : Fin 4), s.isHead = true → s.admitted k.val = true → t = s.memberRepeat k.val →
    exec (.memberRecordLate k) s = .next (((t.setMember k.val { t.member k.val with missRun := (t.member k.val).missRun + 1 }).count
      (STK.MEMBER_CNT.LATE_CNT k.val) 1).stackEvt STK.EVT.RECORD_LATE)) ∧
  (∀ (s : State) (k : Fin 4), (s.member k.val).missRun < 48 → exec (.memberLost k) s = .next s) ∧
  (∀ (s t : State) (k : Fin 4), s.isHead = true → s.admitted k.val = true → (s.member k.val).lost = false → 48 ≤ (s.member k.val).missRun →
    t = (s.setMember k.val { s.member k.val with lost := true }).memberRepeat k.val →
    exec (.memberLost k) s = .next (((((t.count (STK.MEMBER_CNT.LOST_CNT k.val) 1).putBit STK.MEMBER_MAP.PRESENT (k.val - 1) false).setFlag
      (STK.MEMBER_STAT.PRESENT k.val) false).stackEvt STK.EVT.MEMBER_LOST).post Evt.STACK_MEMBER_LOST k.val [])) ∧
  (∀ (s t : State) (r : RingImage), s.isMember = true → s.inaug.image = none → r.sleep = none → r.audioOk = true → r.phaseNs ≤ 7000 →
    t = ((s.set RING.ENG_STAT.TOPO r.topo).set RING.LAYOUT.LAYOUT_VER r.layout).set RING.ENG_STAT.POSITION r.position →
    exec (.ringImageReceive r) s =
      .next (State.readRing { t with ring := { s.ring with merged := r.bytes, mergedTseq := r.tick } } s.clk.n)) ∧
  (∀ (s : State) (r : RingImage) (n : Nat) (o : Int) (h : Bool), s.isMember = false →
    exec (.ringImageReceive r) s = .next s ∧ exec .ringImageLate s = .next s ∧ exec (.stackTimeMarker n o h) s = .next s) ∧
  (∀ s : State, s.isMember = true → s.aud.ringTable = [] → exec .ringImageLate s = .next (s.stackEvt STK.EVT.IMG_LATE)) ∧
  (∀ (s t u : State) (o : Int), s.isMember = true → -5 ≤ o → o ≤ 5 → s.stk.timeRun < 47 → s.inSync = false →
    t = s.set STK.TIME.OFS_NS (ofSigned 16 (satSigned 16 o)) →
    u = State.setFlag { t with stk := { s.stk with timeRun := s.stk.timeRun + 1 } } STK.STAT.TIME_LOCK false → u.inSync = false →
    exec (.stackTimeMarker s.clk.n o true) s = .next (u.setFlag SYNC.STAT.HOLDOVER false))

/-- The event recorder's records and operating time: Without Decik no posted record is written, and hardware's records are posted to the pending buffer. With Decik the oldest posted record is written unless its code is over its limit for the second, which is counted in SUPPRESSED; a record flushed from the pending buffer is written whatever the limit. Every second of operation counts in OPTIME and clears the limits, with one EVR_SUPPRESSED record for each code that went over. Decik saves the seconds. -/
def Obligations.RecorderCommands : Prop :=
  (∀ (s : State) (b : ReadBack), s.decikRuns = false → exec (.eventPost b) s = .next s) ∧
  (∀ (s : State) (b : ReadBack), s.evr.posted = [] → exec (.eventPost b) s = .next s) ∧
  (∀ (s t : State) (b : ReadBack) (r : Record) (rest : List Record), s.decikRuns = true → s.evr.posted = r :: rest →
    t = { s with evr := { s.evr with posted := rest } } → bit r.sevflags 3 = true →
    exec (.eventPost b) s = .next (t.writeRecord r b)) ∧
  (∀ (s t : State) (b : ReadBack) (r : Record) (rest : List Record) (w x : Nat), s.decikRuns = true → s.evr.posted = r :: rest →
    t = { s with evr := { s.evr with posted := rest } } → bit r.sevflags 3 = false → t.stormOf r.code = (w, x) → w < t.stormLimit →
    exec (.eventPost b) s = .next ((t.setStorm r.code (w + 1, x)).writeRecord r b)) ∧
  (∀ (s t : State) (b : ReadBack) (r : Record) (rest : List Record) (w x : Nat), s.decikRuns = true → s.evr.posted = r :: rest →
    t = { s with evr := { s.evr with posted := rest } } → bit r.sevflags 3 = false → t.stormOf r.code = (w, x) → t.stormLimit ≤ w →
    exec (.eventPost b) s = .next ((t.count EVR.CNT.SUPPRESSED 1).setStorm r.code (w, x + 1))) ∧
  (∀ (s : State) (w : Fin 3) (code i : Nat) (d : List Nat), s.decikRuns = true → exec (.pendingPost w code i d) s = .next s) ∧
  (∀ (s : State) (code i : Nat) (d : List Nat) (e : EvtCode), s.decikRuns = false → hardwareEvents.find? (fun x => x.code == code) = some e →
    exec (.pendingPost 0 code i d) s = .next (s.postBy .power e i d)) ∧
  (∀ s t : State, s.get PWR.STAT.STATE = 0 → s.evr.storm = [] →
    t = s.set EVR.OPTIME.SECONDS (satAdd 32 (s.get EVR.OPTIME.SECONDS) 1) →
    exec .stormSecondEnd s = .next t) ∧
  (∀ (s t : State) (c n x : Nat), s.get PWR.STAT.STATE = 0 → s.evr.storm = [(c, n, x + 1)] →
    t = s.set EVR.OPTIME.SECONDS (satAdd 32 (s.get EVR.OPTIME.SECONDS) 1) →
    exec .stormSecondEnd s = .next (State.postBy { t with evr := { s.evr with storm := [] } } .recorder Evt.EVR_SUPPRESSED 0
      (leBytes 2 c ++ leBytes 2 (min (x + 1) 0xFFFF)))) ∧
  (∀ s : State, s.get PWR.STAT.STATE = Pw.sleep → exec .stormSecondEnd s = .next s) ∧
  (∀ s : State, s.decikRuns = true →
    exec .optimeSave s = .next { s with evr := { s.evr with savedOptime := s.get EVR.OPTIME.SECONDS } }) ∧
  (∀ s : State, s.decikRuns = false → exec .optimeSave s = .next s)

/-- Requests of the system group: A request that passes its checks has its command's effect. PING answers release, operating time and tick; the summaries answer the state summary and the reduced one, rebuilt where none stands; GET_IDENTITY the identity, UID, versions and measurement; GET_TIME the times at one moment of the tick (a free phase). SET_RTC sets the RTC less that phase; SET_NOTE_LEVEL takes a level of at most 7; SERVICE_MODE takes NORMAL, TEST or RECOVERY; NODE_RESET of kind 0 restarts Decik after its answer, of kind 1 resets the node. UNIT_GET lists the units of a class. UNIT_ENABLE and UNIT_DISABLE hold the change until its effective tick and answer PENDING, or answer at once where nothing is to change. A number out of range is BAD_PARAM. -/
def Obligations.SystemRequests : Prop :=
  (∀ (s : State) (r : Request) (q : OpenReq) (d : List Nat),
    s.passes cmdPing r = true → q = s.asked r 0x0100 → d = r.payload →
    exec (.ping r) s = .next (s.ok q (leBytes 4 decikRel ++ leBytes 4 (s.get EVR.OPTIME.SECONDS) ++ leBytes 4 s.tickSeq))) ∧
  (∀ (s : State) (r : Request) (q : OpenReq) (d : List Nat),
    s.passes cmdStateSummary r = true → q = s.asked r 0x0101 → d = r.payload →
    exec (.stateSummary r) s = .next (s.withSummary.ok q s.withSummary.mbx.saddle)) ∧
  (∀ (s : State) (r : Request) (q : OpenReq) (d : List Nat),
    s.passes cmdReducedSummary r = true → q = s.asked r 0x0102 → d = r.payload →
    exec (.reducedSummary r) s = .next (s.withSummary.ok q s.withSummary.mbx.reduced)) ∧
  (∀ (s : State) (r : Request) (q : OpenReq) (d : List Nat),
    s.passes cmdGetIdentity r = true → q = s.asked r 0x0103 → d = r.payload →
    exec (.getIdentity r) s = .next (s.ok q (s.idBytes ++ leBytes 8 s.uid.toNat ++ leBytes 4 decikRel ++ leBytes 4 (s.get MBX.CFG_VER.VER) ++ padTo 32 s.sec.measurement))) ∧
  (∀ (s : State) (r : Request) (q : OpenReq) (d : List Nat) (t : State) (p : Nat),
    s.passes cmdGetTime r = true → q = s.asked r 0x0104 → d = r.payload → s.phaseNow = (p, t) →
    exec (.getTime r) s = .next (t.ok q (leBytes 4 t.tickSeq ++ leBytes 2 p ++ [t.syncState, 0] ++ leBytes 8 (t.timeAt p) ++ leBytes 8 (ptpBits (t.ptpNs p)) ++ leBytes 8 (t.rtcAt p)))) ∧
  (∀ (s : State) (r : Request) (q : OpenReq) (d : List Nat) (t : State) (p : Nat),
    s.passes cmdSetRtc r = true → q = s.asked r 0x0105 → d = r.payload → s.phaseNow = (p, t) →
    exec (.setRtc r) s = .next (State.ok { t with rtc := 3 * fieldOf d 0 8 - 3 * p } q [])) ∧
  (∀ (s : State) (r : Request) (q : OpenReq) (d : List Nat),
    s.passes cmdSetNoteLevel r = true → q = s.asked r 0x0106 → d = r.payload → fieldOf d 0 1 ≤ 7 →
    exec (.setNoteLevel r) s = .next (State.ok { s with mbx := { s.mbx with noteLevel := fieldOf d 0 1 } } q [])) ∧
  (∀ (s : State) (r : Request) (q : OpenReq) (d : List Nat),
    s.passes cmdSetNoteLevel r = true → q = s.asked r 0x0106 → d = r.payload → 7 < fieldOf d 0 1 →
    exec (.setNoteLevel r) s = .next (s.reply q Status.badParam [])) ∧
  (∀ (s₀ s : State) (r : Request) (q : OpenReq) (d : List Nat),
    s₀.passes cmdServiceMode r = true → s = s₀.opened cmdServiceMode r → q = s₀.asked r 0x0107 → d = r.payload → fieldOf d 0 1 ≠ Mode.startUp → fieldOf d 0 1 ≤ 3 →
    exec (.serviceMode r) s₀ = .next ((s.set PWR.STAT.MODE (fieldOf d 0 1)).ok q [s.mode, 0, 0, 0])) ∧
  (∀ (s₀ s : State) (r : Request) (q : OpenReq) (d : List Nat),
    s₀.passes cmdNodeReset r = true → s = s₀.opened cmdNodeReset r → q = s₀.asked r 0x0108 → d = r.payload → fieldOf d 0 1 = 0 →
    exec (.nodeReset r) s₀ = .next ((s.ok q []).decikStop Rst.restart false)) ∧
  (∀ (s₀ s : State) (r : Request) (q : OpenReq) (d : List Nat),
    s₀.passes cmdNodeReset r = true → s = s₀.opened cmdNodeReset r → q = s₀.asked r 0x0108 → d = r.payload → fieldOf d 0 1 = 1 →
    exec (.nodeReset r) s₀ = .next ((s.ok q []).resetNode Rst.node s.straps.bootSrc 0 0)) ∧
  (∀ (s₀ s : State) (r : Request) (q : OpenReq) (d : List Nat),
    s₀.passes cmdNodeReset r = true → s = s₀.opened cmdNodeReset r → q = s₀.asked r 0x0108 → d = r.payload → 2 ≤ fieldOf d 0 1 →
    exec (.nodeReset r) s₀ = .next (s.reply q Status.badParam [])) ∧
  (∀ (s : State) (r : Request) (q : OpenReq) (d : List Nat) (us : List Nat),
    s.passes cmdUnitGet r = true → q = s.asked r 0x0109 → d = r.payload → fieldOf d 0 1 ≤ 11 → us = allUnits.filter (fun id => fieldOf d 0 1 == 0 || unitClass id == fieldOf d 0 1) →
    exec (.unitGet r) s = .next (s.ok q (leBytes 2 us.length ++ [0, 0] ++ us.flatMap (fun id => s.unitEntry id)))) ∧
  (∀ (s : State) (r : Request) (q : OpenReq) (d : List Nat) (id : Nat) (w : When),
    s.passes cmdUnitEnable r = true → q = s.asked r 0x010A → d = r.payload → id = fieldOf d 0 4 → unitNamed id = true → s.etick (fieldOf d 4 4) = some w → s.unitHeld id = false → (s.unit id).enableAnswer = none →
    exec (.unitEnable r) s = .next (((s.hold w 0x010A d q.ch q.tag).twinShare w.tick 0x010A d).wait q (Pend.unit id true w.tick))) ∧
  (∀ (s : State) (r : Request) (q : OpenReq) (d : List Nat) (id : Nat) (w : When),
    s.passes cmdUnitDisable r = true → q = s.asked r 0x010B → d = r.payload → id = fieldOf d 0 4 → unitNamed id = true → s.etick (fieldOf d 4 4) = some w → s.unitHeld id = false → (s.unit id).mgmt ≠ Mgmt.disabled →
    exec (.unitDisable r) s = .next (((s.hold w 0x010B d q.ch q.tag).twinShare w.tick 0x010B d).wait q (Pend.unit id false w.tick))) ∧
  (∀ (s : State) (r : Request) (q : OpenReq) (d : List Nat) (id : Nat) (w : When),
    s.passes cmdUnitDisable r = true → q = s.asked r 0x010B → d = r.payload → id = fieldOf d 0 4 → unitNamed id = true → s.etick (fieldOf d 4 4) = some w → s.unitHeld id = false → (s.unit id).mgmt = Mgmt.disabled →
    exec (.unitDisable r) s = .next (s.reply q Status.ok (leBytes 4 w.tick)))

/-- Requests of the power group: PWR_STATUS, PWR_RESIDENCY and NET_SLEEP_STATUS answer the power, residency and sleep data. PWR_SET_STATE to ACTIVE leaves QUIET; to QUIET is taken where the retained jobs fit, and answered NO_RESOURCE where they do not; to STANDBY or SLEEP aborts what is open and sets the target. PWR_VOTE sets or clears the host's vote of a domain 1 to 11. PWR_PERF takes a point below 3 whose budget the jobs fit. PWR_WAKE_CFG writes the wake enables, with tamper always enabled, the retries and the four step limits of 1 to 5,000 ms. AWAKE_HOLD sets the host's hold with a reason of 1 to 127. -/
def Obligations.PowerRequests : Prop :=
  (∀ (s : State) (r : Request) (q : OpenReq) (d : List Nat),
    s.passes cmdPwrStatus r = true → q = s.asked r 0x0901 → d = r.payload →
    exec (.pwrStatus r) s = .next (s.ok q ([s.pwrState, s.get PWR.WAKE_SRC.SRC, s.mode, s.get PWR.PERF.FREQ_PT] ++ leBytes 2 0 ++ (List.range 11).flatMap (fun i => leBytes 2 (s.get (PWR.VOTE.CLIENTS (i + 1)))) ++ [s.get PWR.RAIL_STAT.EN, s.get PWR.RAIL_STAT.PG, 0, 0] ++ s.wordLe GLB.FAULT_STAT.off ++ s.wordLe PWR.WAKE_FAIL_CNT.off))) ∧
  (∀ (s₀ s : State) (r : Request) (q : OpenReq) (d : List Nat),
    s₀.passes cmdPwrSetState r = true → s = s₀.opened cmdPwrSetState r → q = s₀.asked r 0x0902 → d = r.payload → fieldOf d 0 1 = 0 → fieldOf d 1 1 < 2 → s.pwrState = Pw.quiet →
    exec (.pwrSetState r) s₀ = .next (s.toActive.ok q [])) ∧
  (∀ (s₀ s : State) (r : Request) (q : OpenReq) (d : List Nat),
    s₀.passes cmdPwrSetState r = true → s = s₀.opened cmdPwrSetState r → q = s₀.asked r 0x0902 → d = r.payload → fieldOf d 0 1 = 1 → fieldOf d 1 1 < 2 → s.pwrState = Pw.active → s.retainedFit (s.get PWR.CFG.QUIET_POINT) = true →
    exec (.pwrSetState r) s₀ = .next (s.toQuiet.ok q [])) ∧
  (∀ (s₀ s : State) (r : Request) (q : OpenReq) (d : List Nat),
    s₀.passes cmdPwrSetState r = true → s = s₀.opened cmdPwrSetState r → q = s₀.asked r 0x0902 → d = r.payload → fieldOf d 0 1 = 1 → fieldOf d 1 1 < 2 → s.pwrState = Pw.active → s.retainedFit (s.get PWR.CFG.QUIET_POINT) = false →
    exec (.pwrSetState r) s₀ = .next (s.reply q Status.noResource [])) ∧
  (∀ (s₀ s : State) (r : Request) (q : OpenReq) (d : List Nat),
    s₀.passes cmdPwrSetState r = true → s = s₀.opened cmdPwrSetState r → q = s₀.asked r 0x0902 → d = r.payload → fieldOf d 0 1 = 2 ∨ fieldOf d 0 1 = 3 → fieldOf d 1 1 < 2 →
    exec (.pwrSetState r) s₀ = .next ((s.abortOthers.set PWR.STAT.TARGET (fieldOf d 0 1)).ok q [])) ∧
  (∀ (s : State) (r : Request) (q : OpenReq) (d : List Nat),
    s.passes cmdPwrVote r = true → q = s.asked r 0x0903 → d = r.payload → between 1 11 (fieldOf d 0 1) = true → fieldOf d 1 1 = 1 →
    exec (.pwrVote r) s = .next ((s.hostVote (setBit (s.get PWR.HOST_VOTE.VOTE) (fieldOf d 0 1 - 1))).ok q [])) ∧
  (∀ (s : State) (r : Request) (q : OpenReq) (d : List Nat),
    s.passes cmdPwrVote r = true → q = s.asked r 0x0903 → d = r.payload → between 1 11 (fieldOf d 0 1) = true → fieldOf d 1 1 = 0 →
    exec (.pwrVote r) s = .next ((s.hostVote (clrBit (s.get PWR.HOST_VOTE.VOTE) (fieldOf d 0 1 - 1))).ok q [])) ∧
  (∀ (s : State) (r : Request) (q : OpenReq) (d : List Nat),
    s.passes cmdPwrVote r = true → q = s.asked r 0x0903 → d = r.payload → between 1 11 (fieldOf d 0 1) = false →
    exec (.pwrVote r) s = .next (s.reply q Status.badParam [])) ∧
  (∀ (s : State) (r : Request) (q : OpenReq) (d : List Nat),
    s.passes cmdPwrPerf r = true → q = s.asked r 0x0904 → d = r.payload → fieldOf d 0 1 < 3 → s.retainedFit (fieldOf d 0 1) = true →
    exec (.pwrPerf r) s = .next (((s.pointTo (fieldOf d 0 1)).twinShare s.tickSeq 0x0904 d).ok q [])) ∧
  (∀ (s : State) (r : Request) (q : OpenReq) (d : List Nat),
    s.passes cmdPwrPerf r = true → q = s.asked r 0x0904 → d = r.payload → 3 ≤ fieldOf d 0 1 →
    exec (.pwrPerf r) s = .next (s.reply q Status.badParam [])) ∧
  (∀ (s : State) (r : Request) (q : OpenReq) (d : List Nat) (t : State),
    s.passes cmdPwrWakeCfg r = true → q = s.asked r 0x0905 → d = r.payload → fieldOf d 2 1 < 8 → [4, 6, 8, 10].all (fun a => between 1 5000 (fieldOf d a 2)) = true → t = (s.set PWR.WAKE_EN.EN (setBit (fieldOf d 0 2 / 2 % 2 ^ 10) 7)).set PWR.WAKE_CTRL.RETRIES (fieldOf d 2 1) →
    exec (.pwrWakeCfg r) s = .next (((((t.set PWR.WAKE_TO0.TO_REG (fieldOf d 4 2)).set PWR.WAKE_TO0.TO_OSC (fieldOf d 6 2)).set PWR.WAKE_TO1.TO_STORE (fieldOf d 8 2)).set PWR.WAKE_TO1.TO_LOGIC (fieldOf d 10 2)).ok q [])) ∧
  (∀ (s : State) (r : Request) (q : OpenReq) (d : List Nat),
    s.passes cmdPwrWakeCfg r = true → q = s.asked r 0x0905 → d = r.payload → 8 ≤ fieldOf d 2 1 →
    exec (.pwrWakeCfg r) s = .next (s.reply q Status.badParam [])) ∧
  (∀ (s : State) (r : Request) (q : OpenReq) (d : List Nat),
    s.passes cmdPwrResidency r = true → q = s.asked r 0x0906 → d = r.payload →
    exec (.pwrResidency r) s = .next (s.ok q ([PWR.RES_ACTIVE.off, PWR.RES_QUIET.off, PWR.RES_STANDBY.off, PWR.RES_SLEEP.off].flatMap s.wordLe))) ∧
  (∀ (s : State) (r : Request) (q : OpenReq) (d : List Nat),
    s.passes cmdAwakeHold r = true → q = s.asked r 0x0907 → d = r.payload → between 1 127 (fieldOf d 0 1) = true → fieldOf d 1 1 < 2 →
    exec (.awakeHold r) s = .next ((((s.set PWR.HOST_HOLD.REASON (fieldOf d 0 1)).set PWR.HOST_HOLD.SET (fieldOf d 1 1)).holdsNow).ok q [])) ∧
  (∀ (s : State) (r : Request) (q : OpenReq) (d : List Nat),
    s.passes cmdAwakeHold r = true → q = s.asked r 0x0907 → d = r.payload → between 1 127 (fieldOf d 0 1) = false →
    exec (.awakeHold r) s = .next (s.reply q Status.badParam [])) ∧
  (∀ (s : State) (r : Request) (q : OpenReq) (d : List Nat) (hs : List Nat),
    s.passes cmdNetSleepStatus r = true → q = s.asked r 0x0908 → d = r.payload → hs = s.holders →
    exec (.netSleepStatus r) s = .next (s.ok q (leBytes 4 (s.net.idle / 48000) ++ leBytes 4 (s.get PWR.NET_CFG.SLEEP_IDLE_S) ++ [hs.length % 256, 0, 0, 0] ++ (hs.take 32).flatMap (fun p => [p, s.awakeOf p % 128]))))

/-- Requests of the security and test groups: SEC_STATUS, KEY_KCV and GET_MEASUREMENT answer versions, masks, check values and measurements, KEY_KCV never under tamper. AUTH_CHALLENGE answers a new nonce that lives 60 s. KEY_REPLACE with a right mask, length and a later version begins the operation and answers PENDING, and is BUSY while one runs or PDW holds. TAMPER_CLEAR clears the latch and answers what it was. BIST_RUN of kinds 1 to 3 answers and resets the node; BIST_RESULT answers what the last one found. STORE_TEST of whole pages of a HOST region starts the test and answers PENDING. LANE_TEST sets the mode of the link named; LANE_TEST_RESULT answers its counters. A number out of range is BAD_PARAM. -/
def Obligations.SecurityAndTestRequests : Prop :=
  (∀ (s : State) (r : Request) (q : OpenReq) (d : List Nat),
    s.passes cmdSecStatus r = true → q = s.asked r 0x0A01 → d = r.payload →
    exec (.secStatus r) s = .next (s.ok q ((List.range 16).flatMap (fun k => leBytes 2 (s.get (SEC.SLOT.VERSION k))) ++ (List.range 16).map (fun k => s.get (SEC.SLOT.MASK k)) ++ s.tamperBytes ++ leBytes 4 s.authFailures))) ∧
  (∀ (s : State) (r : Request) (q : OpenReq) (d : List Nat) (n : List Nat) (t : State),
    s.passes cmdAuthChallenge r = true → q = s.asked r 0x0A02 → d = r.payload → s.newChallenge q.ch q.uid = (n, t) →
    exec (.authChallenge r) s = .next (t.ok q (n ++ leBytes 2 60 ++ [0, 0]))) ∧
  (∀ (s₀ s : State) (r : Request) (q : OpenReq) (d : List Nat) (t : State),
    s₀.passes cmdKeyReplace r = true → s = s₀.opened cmdKeyReplace r → q = s₀.asked r 0x0A03 → d = r.payload → fieldOf d 0 1 < 16 → maskOk (fieldOf d 0 1) (fieldOf d 1 1) = true → fieldOf d 8 2 = keyBytes (fieldOf d 1 1) + 28 → (s.slot (fieldOf d 0 1)).cur = none → versionLater (fieldOf d 2 2) 0 = true → s.sec.op = none → s.flag PWR.STAT.PDW = false → t = { s with sec := { s.sec with op := some ⟨fieldOf d 0 1, fieldOf d 1 1, fieldOf d 2 2, d.drop 12, (d.drop 4).take 3⟩ } } →
    exec (.keyReplace r) s₀ = .next (((t.set SEC.OP_STAT.SLOT (fieldOf d 0 1)).set SEC.OP_STAT.STEP 1).wait q .keyOp)) ∧
  (∀ (s₀ s : State) (r : Request) (q : OpenReq) (d : List Nat),
    s₀.passes cmdKeyReplace r = true → s = s₀.opened cmdKeyReplace r → q = s₀.asked r 0x0A03 → d = r.payload → 16 ≤ fieldOf d 0 1 →
    exec (.keyReplace r) s₀ = .next (s.reply q Status.badParam [])) ∧
  (∀ (s : State) (r : Request) (q : OpenReq) (d : List Nat),
    s.passes cmdKeyKcv r = true → q = s.asked r 0x0A04 → d = r.payload → s.flag SEC.STAT.TAMPER = false → fieldOf d 0 1 < 16 →
    exec (.keyKcv r) s = .next (s.ok q (leBytes 2 (s.get (SEC.SLOT.VERSION (fieldOf d 0 1))) ++ (leBytes 3 (s.get (SEC.KCV.KCV (fieldOf d 0 1)))).reverse ++ [0, 0, 0]))) ∧
  (∀ (s : State) (r : Request) (q : OpenReq) (d : List Nat),
    s.passes cmdKeyKcv r = true → q = s.asked r 0x0A04 → d = r.payload → s.flag SEC.STAT.TAMPER = true →
    exec (.keyKcv r) s = .next (s.reply q Status.tamperLock [])) ∧
  (∀ (s₀ s : State) (r : Request) (q : OpenReq) (d : List Nat) (c : Nat) (t : State),
    s₀.passes cmdTamperClear r = true → s = s₀.opened cmdTamperClear r → q = s₀.asked r 0x0A05 → d = r.payload → s.tamperClear = (c, t) →
    exec (.tamperClear r) s₀ = .next (t.ok q (leBytes 4 c))) ∧
  (∀ (s : State) (r : Request) (q : OpenReq) (d : List Nat) (hs : List (List Nat)),
    s.passes cmdGetMeasurement r = true → q = s.asked r 0x0A06 → d = r.payload → hs = s.sec.hashes.filter (fun h => !h.isEmpty) →
    exec (.getMeasurement r) s = .next (s.ok q (padTo 32 s.sec.measurement ++ [hs.length % 256, 0, 0, 0] ++ hs.flatMap (padTo 32)))) ∧
  (∀ (s₀ s : State) (r : Request) (q : OpenReq) (d : List Nat),
    s₀.passes cmdBistRun r = true → s = s₀.opened cmdBistRun r → q = s₀.asked r 0x0C01 → d = r.payload → between 1 3 (fieldOf d 0 1) = true →
    exec (.bistRun r) s₀ = .next ((s.ok q []).resetNode Rst.bist s.straps.bootSrc 0 (fieldOf d 0 1))) ∧
  (∀ (s₀ s : State) (r : Request) (q : OpenReq) (d : List Nat),
    s₀.passes cmdBistRun r = true → s = s₀.opened cmdBistRun r → q = s₀.asked r 0x0C01 → d = r.payload → between 1 3 (fieldOf d 0 1) = false →
    exec (.bistRun r) s₀ = .next (s.reply q Status.badParam [])) ∧
  (∀ (s : State) (r : Request) (q : OpenReq) (d : List Nat),
    s.passes cmdBistResult r = true → q = s.asked r 0x0C02 → d = r.payload →
    exec (.bistResult r) s = .next (s.ok q ([s.get TST.BIST_STAT.KIND, s.get TST.BIST_STAT.PASS, 0, 0] ++ (List.range 4).flatMap (fun k => s.wordLe (TST.MISR.off k)) ++ (List.range 4).flatMap (fun k => s.wordLe (TST.EXP.off k)) ++ leBytes 2 (s.get TST.MBIST_CNT.COUNT) ++ [0, 0] ++ leBytes 4 (s.get TST.BIST_STAT.DUR_MS)))) ∧
  (∀ (s : State) (r : Request) (q : OpenReq) (d : List Nat) (a n : Nat),
    s.passes cmdStoreTest r = true → q = s.asked r 0x0C03 → d = r.payload → a = fieldOf d 0 4 → n = fieldOf d 4 4 → a % 4096 = 0 → n % 4096 = 0 → n ≠ 0 → s.inHost a n = true → s.storeTest = none →
    exec (.storeTest r) s = .next ((s.storeTestStart a n).wait q (.storeTest a n))) ∧
  (∀ (s : State) (r : Request) (q : OpenReq) (d : List Nat),
    s.passes cmdStoreTest r = true → q = s.asked r 0x0C03 → d = r.payload → fieldOf d 4 4 = 0 →
    exec (.storeTest r) s = .next (s.reply q Status.badParam [])) ∧
  (∀ (s : State) (r : Request) (q : OpenReq) (d : List Nat),
    s.passes cmdLaneTest r = true → q = s.asked r 0x0C04 → d = r.payload → laneNamed d = true → fieldOf d 2 1 < 4 → fieldOf d 0 1 = 0 →
    exec (.laneTest r) s = .next ((laneTestMode s (linkIx (fieldOf d 1 1)) (fieldOf d 2 1)).ok q [])) ∧
  (∀ (s : State) (r : Request) (q : OpenReq) (d : List Nat),
    s.passes cmdLaneTest r = true → q = s.asked r 0x0C04 → d = r.payload → laneNamed d = true → fieldOf d 2 1 < 4 → fieldOf d 0 1 = 1 →
    exec (.laneTest r) s = .next ((s.stackLaneMode (fieldOf d 1 1) (fieldOf d 2 1)).ok q [])) ∧
  (∀ (s : State) (r : Request) (q : OpenReq) (d : List Nat),
    s.passes cmdLaneTest r = true → q = s.asked r 0x0C04 → d = r.payload → laneNamed d = false →
    exec (.laneTest r) s = .next (s.reply q Status.badParam [])) ∧
  (∀ (s : State) (r : Request) (q : OpenReq) (d : List Nat) (n : Nat),
    s.passes cmdLaneTestResult r = true → q = s.asked r 0x0C05 → d = r.payload → n = fieldOf d 1 1 → laneNamed d = true → fieldOf d 0 1 = 0 →
    exec (.laneTestResult r) s = .next (s.ok q ([s.get (RING.LTEST.CHK_LOCK n), 0, 0, 0] ++ s.wordLe (RING.PRBS_ERR.off n) ++ s.wordLe (RING.PRBS_BITS.off n)))) ∧
  (∀ (s : State) (r : Request) (q : OpenReq) (d : List Nat) (n : Nat),
    s.passes cmdLaneTestResult r = true → q = s.asked r 0x0C05 → d = r.payload → n = fieldOf d 1 1 → laneNamed d = true → fieldOf d 0 1 = 1 →
    exec (.laneTestResult r) s = .next (s.ok q ([s.get (STK.LTEST.CHK_LOCK n), 0, 0, 0] ++ s.wordLe (STK.PRBS_ERR.off n) ++ s.wordLe (STK.PRBS_BITS.off n))))

/-- Requests of the event recorder: EVR_STATUS answers the recorder's state, first and last sequence numbers, retired sectors and the pending fill. EVR_READ answers at most the records asked for, from a sequence number on, in order; EVR_PENDING_READ at most 8 of the pending buffer. EVR_CLEAR, authorised, clears the recorder at once (the model's choice of the moment, notes/assumptions/51.md) and answers how many records went; a recorder without its media answers MEDIA_FAULT. -/
def Obligations.RecorderRequests : Prop :=
  (∀ (s : State) (r : Request) (q : OpenReq) (d : List Nat),
    s.passes cmdEvrStatus r = true → q = s.asked r 0x0B01 → d = r.payload →
    exec (.evrStatus r) s = .next (s.ok q ([s.get EVR.STAT.STATE, 0, 0, 0] ++ leBytes 4 (s.get EVR.FIRST_SEQ.SEQ) ++ leBytes 4 (s.get EVR.LAST_SEQ.SEQ) ++ leBytes 2 (s.get EVR.STAT.RETIRED) ++ [s.get EVR.PEND_STAT.FILL, 0]))) ∧
  (∀ (s : State) (r : Request) (q : OpenReq) (d : List Nat) (l : List Record) (x : Record) (rest : List Record),
    s.passes cmdEvrRead r = true → q = s.asked r 0x0B02 → d = r.payload → between 1 (if q.ch = 2 then 111 else 127) (fieldOf d 4 1) = true → l = (s.readable.filter (fun (y : Record) => y.seq == fieldOf d 0 4 || seqLater y.seq (fieldOf d 0 4))).take (fieldOf d 4 1) → l = x :: rest →
    exec (.evrRead r) s = .next (s.ok q (leBytes 4 x.seq ++ [l.length, 0, 0, 0] ++ l.flatMap Record.bytes))) ∧
  (∀ (s : State) (r : Request) (q : OpenReq) (d : List Nat),
    s.passes cmdEvrRead r = true → q = s.asked r 0x0B02 → d = r.payload → s.readable = [] → between 1 111 (fieldOf d 4 1) = true →
    exec (.evrRead r) s = .next (s.ok q (leBytes 4 (fieldOf d 0 4) ++ [0, 0, 0, 0]))) ∧
  (∀ (s : State) (r : Request) (q : OpenReq) (d : List Nat),
    s.passes cmdEvrRead r = true → q = s.asked r 0x0B02 → d = r.payload → fieldOf d 4 1 = 0 →
    exec (.evrRead r) s = .next (s.reply q Status.badParam [])) ∧
  (∀ (s₀ s : State) (r : Request) (q : OpenReq) (d : List Nat) (n : Nat) (t : State),
    s₀.passes cmdEvrClear r = true → s = s₀.opened cmdEvrClear r → q = s₀.asked r 0x0B03 → d = r.payload → s.evr.degraded = false → s.clearRecorder q.ch = (n, t) →
    exec (.evrClear r) s₀ = .next (t.ok q (leBytes 4 n))) ∧
  (∀ (s₀ s : State) (r : Request) (q : OpenReq) (d : List Nat),
    s₀.passes cmdEvrClear r = true → s = s₀.opened cmdEvrClear r → q = s₀.asked r 0x0B03 → d = r.payload → s.evr.degraded = true →
    exec (.evrClear r) s₀ = .next (s.reply q Status.mediaFault [])) ∧
  (∀ (s : State) (r : Request) (q : OpenReq) (d : List Nat),
    s.passes cmdEvrPendingRead r = true → q = s.asked r 0x0B04 → d = r.payload →
    exec (.evrPendingRead r) s = .next (s.ok q ([(s.evr.pending.take 8).length, 0, 0, 0] ++ (s.evr.pending.take 8).flatMap Record.bytes)))

/-- Requests of the configuration group: CFG_LOAD takes a fragment in order with OK, completes with the image's status, drops a transfer that breaks its order with BAD_PARAM, and answers NO_RESOURCE for an object over 98,304 bytes. CFG_APPLY of a loaded image that is good, fits and is held by a twin's follower marks the slot, holds the commit to its tick and answers PENDING. CFG_CONFIRM ends the trial; CFG_ROLLBACK cancels a pending image at once, or begins the return and answers PENDING; each is BUSY under PDW (the model's reading, notes/assumptions/54.md). CFG_STATUS answers the section, CFG_READ the bytes asked for of a slot that holds an image, CFG_DISCARD drops what is loaded. -/
def Obligations.ConfigurationRequests : Prop :=
  (∀ (s : State) (r : Request) (q : OpenReq) (d : List Nat) (t : State),
    s.passes cmdCfgLoad r = true → q = s.asked r 0x0201 → d = r.payload → fieldOf d 0 4 ≤ 98304 → s.configWritable = true → s.takeFragment q.ch 0x0201 d = (.more, t) →
    exec (.cfgLoad r) s = .next (t.ok q [])) ∧
  (∀ (s : State) (r : Request) (q : OpenReq) (d : List Nat) (t u : State) (b : List Nat) (st : Nat),
    s.passes cmdCfgLoad r = true → q = s.asked r 0x0201 → d = r.payload → fieldOf d 0 4 ≤ 98304 → s.configWritable = true → s.takeFragment q.ch 0x0201 d = (.whole b, t) → t.imageLoaded b = (st, u) →
    exec (.cfgLoad r) s = .next (u.reply q st [])) ∧
  (∀ (s : State) (r : Request) (q : OpenReq) (d : List Nat) (t : State),
    s.passes cmdCfgLoad r = true → q = s.asked r 0x0201 → d = r.payload → fieldOf d 0 4 ≤ 98304 → s.configWritable = true → s.takeFragment q.ch 0x0201 d = (.bad, t) →
    exec (.cfgLoad r) s = .next (t.reply q Status.badParam [])) ∧
  (∀ (s : State) (r : Request) (q : OpenReq) (d : List Nat),
    s.passes cmdCfgLoad r = true → q = s.asked r 0x0201 → d = r.payload → 98304 < fieldOf d 0 4 →
    exec (.cfgLoad r) s = .next (s.reply q Status.noResource [])) ∧
  (∀ (s : State) (r : Request) (q : OpenReq) (d : List Nat) (w : When) (b : List Nat),
    s.passes cmdCfgApply r = true → q = s.asked r 0x0202 → d = r.payload → s.commitTick (fieldOf d 0 4) = some w → s.cfg.loaded = some b → fieldOf d 4 2 ≤ 600 → s.imageStatus b = Status.ok → s.admits (Config.imageOf b) = true → s.followerHas = true → s.flag PWR.STAT.PDW = false → s.cfg.mediaBad = false →
    exec (.cfgApply r) s = .next ((((s.applyBegin b (fieldOf d 4 2) w).hold w 0x0202 d q.ch q.tag).twinShare w.tick 0x0202 d).wait q .apply)) ∧
  (∀ (s : State) (r : Request) (q : OpenReq) (d : List Nat),
    s.passes cmdCfgApply r = true → q = s.asked r 0x0202 → d = r.payload → s.commitTick (fieldOf d 0 4) = none →
    exec (.cfgApply r) s = .next (s.reply q Status.badParam [])) ∧
  (∀ (s : State) (r : Request) (q : OpenReq) (d : List Nat),
    s.passes cmdCfgConfirm r = true → q = s.asked r 0x0203 → d = r.payload → s.flag PWR.STAT.PDW = false →
    exec (.cfgConfirm r) s = .next ((s.cfgConfirm.twinShare s.tickSeq 0x0203 []).ok q [])) ∧
  (∀ (s : State) (r : Request) (q : OpenReq) (d : List Nat),
    s.passes cmdCfgConfirm r = true → q = s.asked r 0x0203 → d = r.payload → s.flag PWR.STAT.PDW = true →
    exec (.cfgConfirm r) s = .next (s.reply q Status.busy [])) ∧
  (∀ (s : State) (r : Request) (q : OpenReq) (d : List Nat) (w : When),
    s.passes cmdCfgRollback r = true → q = s.asked r 0x0204 → d = r.payload → s.commitTick (fieldOf d 0 4) = some w → s.flag PWR.STAT.PDW = false → s.cfg.state ≠ CfgState.pending →
    exec (.cfgRollback r) s = .next ((((s.rollBegin w false).hold w 0x0204 d q.ch q.tag).twinShare w.tick 0x0204 d).wait q .rollback)) ∧
  (∀ (s : State) (r : Request) (q : OpenReq) (d : List Nat) (w : When),
    s.passes cmdCfgRollback r = true → q = s.asked r 0x0204 → d = r.payload → s.commitTick (fieldOf d 0 4) = some w → s.flag PWR.STAT.PDW = false → s.cfg.state = CfgState.pending →
    exec (.cfgRollback r) s = .next ((s.cfgCancel.twinShare s.tickSeq 0x0204 d).ok q (leBytes 4 w.tick))) ∧
  (∀ (s : State) (r : Request) (q : OpenReq) (d : List Nat),
    s.passes cmdCfgStatus r = true → q = s.asked r 0x0205 → d = r.payload →
    exec (.cfgStatus r) s = .next (s.ok q s.cfgSection)) ∧
  (∀ (s : State) (r : Request) (q : OpenReq) (d : List Nat) (k off n : Nat),
    s.passes cmdCfgRead r = true → q = s.asked r 0x0206 → d = r.payload → k = fieldOf d 0 1 → off = fieldOf d 4 4 → n = fieldOf d 8 2 → k ≤ 1 → (s.cfg.slot k).state ≠ Slot.empty → 1 ≤ n → n ≤ 4064 → off + n ≤ (s.cfg.slot k).bytes.length →
    exec (.cfgRead r) s = .next (s.ok q (((s.cfg.slot k).bytes.drop off).take n))) ∧
  (∀ (s : State) (r : Request) (q : OpenReq) (d : List Nat),
    s.passes cmdCfgRead r = true → q = s.asked r 0x0206 → d = r.payload → 1 < fieldOf d 0 1 →
    exec (.cfgRead r) s = .next (s.reply q Status.badParam [])) ∧
  (∀ (s : State) (r : Request) (q : OpenReq) (d : List Nat) (t : State),
    s.passes cmdCfgDiscard r = true → q = s.asked r 0x0207 → d = r.payload → t = State.showCfg { s with cfg := { s.cfg with loaded := none } } →
    exec (.cfgDiscard r) s = .next ((t.twinShare s.tickSeq 0x0207 []).ok q []))

/-- Requests of the ring, redundancy and stack groups: RING_STATUS, SYNC_STATUS, RED_STATUS and STACK_STATUS answer the registers and numbers the catalogue lists; RING_GET_LAYOUT the bytes asked for of the layout in force. RING_RENUMBER starts a topology change and answers PENDING. RING_MERGE, at the master and authorised, starts a merge with the partner on the link; elsewhere it is NOT_PERMITTED. RING_SET_RANK takes a rank of at most 15; RING_LINK_CTRL enables, disables or retrains the link; RING_SET_PARAM sets the parameters that are not 0 and in range. MASTER_HANDOVER at the master distributes a layout with the new master; TWIN_RESYNC sets RESYNC and answers PENDING; STACK_MEMBER_RESET resets a present member. -/
def Obligations.RingAndRedundancyRequests : Prop :=
  (∀ (s : State) (r : Request) (q : OpenReq) (d : List Nat),
    s.passes cmdRingStatus r = true → q = s.asked r 0x0301 → d = r.payload →
    exec (.ringStatus r) s = .next (s.ok q ([s.position, s.get STK.STAT.SUB, s.get RING.ENG_STAT.ORIENT, s.role, s.phase, s.istate, 0, 0] ++ leBytes 2 (s.get RING.ENG_STAT.TOPO) ++ leBytes 2 (s.get RING.LAYOUT.LAYOUT_VER) ++ leBytes 2 (s.get RED.EPOCH.FOLLOWED) ++ [0, 0] ++ leBytes 8 (s.get64 RED.MASTER_LO.UID RED.MASTER_HI.UID) ++ [s.get RING.INAUG_STAT.COUNT_A, s.get RING.INAUG_STAT.COUNT_B, 0, 0] ++ (List.range 4).flatMap (fun n => s.wordLe (RING.LINKSTAT.off n))))) ∧
  (∀ (s : State) (r : Request) (q : OpenReq) (d : List Nat) (l : Layout) (n : Nat),
    s.passes cmdRingGetLayout r = true → q = s.asked r 0x0302 → d = r.payload → s.layout? = some l → n = fieldOf d 2 2 → 1 ≤ n → n ≤ 4064 → fieldOf d 0 2 + n ≤ 4096 →
    exec (.ringGetLayout r) s = .next (s.ok q (l.image.slice (fieldOf d 0 2) n))) ∧
  (∀ (s : State) (r : Request) (q : OpenReq) (d : List Nat) (l : Layout),
    s.passes cmdRingGetLayout r = true → q = s.asked r 0x0302 → d = r.payload → s.layout? = some l → fieldOf d 2 2 = 0 →
    exec (.ringGetLayout r) s = .next (s.reply q Status.badParam [])) ∧
  (∀ (s : State) (r : Request) (q : OpenReq) (d : List Nat) (n : Nat),
    s.passes cmdRingRenumber r = true → q = s.asked r 0x0303 → d = r.payload → n = s.totalOf RING.INAUG_CNT.ABANDONED →
    exec (.ringRenumber r) s = .next (s.topoChange.wait q (.renumber n))) ∧
  (∀ (s₀ s : State) (r : Request) (q : OpenReq) (d : List Nat) (x : PartnerRec) (t : State),
    s₀.passes cmdRingMerge r = true → s = s₀.opened cmdRingMerge r → q = s₀.asked r 0x0304 → d = r.payload → s.isMaster = true → fieldOf d 0 1 ≤ 3 → s.runningPartner (fieldOf d 0 1) = some x → t = s.set RING.MERGE_STAT.RESULT 0 →
    exec (.ringMerge r) s₀ = .next ((State.mergeStart { t with inaug := { s.inaug with merge := { s.inaug.merge with attempts := 0 } } } (fieldOf d 0 1) x.count).wait q .merge)) ∧
  (∀ (s₀ s : State) (r : Request) (q : OpenReq) (d : List Nat),
    s₀.passes cmdRingMerge r = true → s = s₀.opened cmdRingMerge r → q = s₀.asked r 0x0304 → d = r.payload → s.isMaster = false →
    exec (.ringMerge r) s₀ = .next (s.reply q Status.notPermitted [])) ∧
  (∀ (s₀ s : State) (r : Request) (q : OpenReq) (d : List Nat),
    s₀.passes cmdRingSetRank r = true → s = s₀.opened cmdRingSetRank r → q = s₀.asked r 0x0305 → d = r.payload → fieldOf d 0 1 ≤ 15 →
    exec (.ringSetRank r) s₀ = .next ((s.rankSet (fieldOf d 0 1)).ok q [])) ∧
  (∀ (s₀ s : State) (r : Request) (q : OpenReq) (d : List Nat),
    s₀.passes cmdRingSetRank r = true → s = s₀.opened cmdRingSetRank r → q = s₀.asked r 0x0305 → d = r.payload → 15 < fieldOf d 0 1 →
    exec (.ringSetRank r) s₀ = .next (s.reply q Status.badParam [])) ∧
  (∀ (s₀ s : State) (r : Request) (q : OpenReq) (d : List Nat),
    s₀.passes cmdRingLinkCtrl r = true → s = s₀.opened cmdRingLinkCtrl r → q = s₀.asked r 0x0306 → d = r.payload → fieldOf d 0 1 ≤ 3 → fieldOf d 1 1 = 0 →
    exec (.ringLinkCtrl r) s₀ = .next ((linkDisable s (linkIx (fieldOf d 0 1)) false).ok q [])) ∧
  (∀ (s₀ s : State) (r : Request) (q : OpenReq) (d : List Nat),
    s₀.passes cmdRingLinkCtrl r = true → s = s₀.opened cmdRingLinkCtrl r → q = s₀.asked r 0x0306 → d = r.payload → fieldOf d 0 1 ≤ 3 → fieldOf d 1 1 = 1 →
    exec (.ringLinkCtrl r) s₀ = .next ((linkDisable s (linkIx (fieldOf d 0 1)) true).ok q [])) ∧
  (∀ (s₀ s : State) (r : Request) (q : OpenReq) (d : List Nat),
    s₀.passes cmdRingLinkCtrl r = true → s = s₀.opened cmdRingLinkCtrl r → q = s₀.asked r 0x0306 → d = r.payload → fieldOf d 0 1 ≤ 3 → fieldOf d 1 1 = 2 →
    exec (.ringLinkCtrl r) s₀ = .next ((linkRetrain s (linkIx (fieldOf d 0 1))).ok q [])) ∧
  (∀ (s₀ s : State) (r : Request) (q : OpenReq) (d : List Nat),
    s₀.passes cmdRingLinkCtrl r = true → s = s₀.opened cmdRingLinkCtrl r → q = s₀.asked r 0x0306 → d = r.payload → 3 < fieldOf d 0 1 →
    exec (.ringLinkCtrl r) s₀ = .next (s.reply q Status.badParam [])) ∧
  (∀ (s : State) (r : Request) (q : OpenReq) (d : List Nat),
    s.passes cmdRingSetParam r = true → q = s.asked r 0x0307 → d = r.payload → between 10 1000 (fieldOf d 0 2) = true → between 16 128 (fieldOf d 2 1) = true →
    exec (.ringSetParam r) s = .next (((s.set RING.LINK_QUAL.QUAL_MS (fieldOf d 0 2)).set RING.INAUG_CFG.SWITCH_LEAD (fieldOf d 2 1)).ok q [])) ∧
  (∀ (s : State) (r : Request) (q : OpenReq) (d : List Nat),
    s.passes cmdRingSetParam r = true → q = s.asked r 0x0307 → d = r.payload → fieldOf d 0 2 = 0 → fieldOf d 2 1 = 0 →
    exec (.ringSetParam r) s = .next (s.ok q [])) ∧
  (∀ (s : State) (r : Request) (q : OpenReq) (d : List Nat),
    s.passes cmdRingSetParam r = true → q = s.asked r 0x0307 → d = r.payload → 1000 < fieldOf d 0 2 →
    exec (.ringSetParam r) s = .next (s.reply q Status.badParam [])) ∧
  (∀ (s : State) (r : Request) (q : OpenReq) (d : List Nat),
    s.passes cmdSyncStatus r = true → q = s.asked r 0x0308 → d = r.payload →
    exec (.syncStatus r) s = .next (s.ok q (s.wordLe SYNC.STAT.off ++ s.wordLe SYNC.OFFSET.off ++ s.wordLe SYNC.RATE.off ++ s.wordLe SYNC.SLEW_REM.off ++ (List.range 8).flatMap (fun e => s.wordLe (SYNC.ENT_DEV.off e)) ++ (List.range 8).flatMap (fun e => s.wordLe (SYNC.ENT_STAT.off e))))) ∧
  (∀ (s : State) (r : Request) (q : OpenReq) (d : List Nat),
    s.passes cmdRedStatus r = true → q = s.asked r 0x0D01 → d = r.payload →
    exec (.redStatus r) s = .next (s.ok q (s.wordLe RED.STAT.off ++ s.wordLe RED.HB.off ++ s.wordLe RED.EPOCH.off ++ s.wordLe RED.TAKEOVER.off ++ s.wordLe RED.TWIN_STAT.off ++ leBytes 8 (s.get64 RED.STANDBY_LO.UID RED.STANDBY_HI.UID)))) ∧
  (∀ (s : State) (r : Request) (q : OpenReq) (d : List Nat) (p : Nat) (l m : Layout) (t u : State),
    s.passes cmdMasterHandover r = true → q = s.asked r 0x0D02 → d = r.payload → s.isMaster = true → s.handoverTarget (fieldOf d 0 8) = some p → s.layout? = some l → m = l.handover p s.newLayout ((s.ring.followEpoch + 1) % 2 ^ 16) → t = { s with red := { s.red with handover := some (BitVec.ofNat 64 (fieldOf d 0 8)) } } → u = (((t.set RING.PEND.NEW_TOPO m.topo).set RING.PEND.NEW_LAYOUT m.version).toPhase Phase.distribute).sendLayout m →
    exec (.masterHandover r) s = .next (State.wait { u with inaug := { u.inaug with image := some m, admissions := (m.positions.filter (fun x => x.role != 0)).map (fun x => (x.hopIdx, Admission.admitted)), acked := [1], frags := (List.range 20).map (fun i => (i, 0)) } } q .handover)) ∧
  (∀ (s : State) (r : Request) (q : OpenReq) (d : List Nat),
    s.passes cmdMasterHandover r = true → q = s.asked r 0x0D02 → d = r.payload → s.isMaster = false →
    exec (.masterHandover r) s = .next (s.reply q Status.notPermitted [])) ∧
  (∀ (s : State) (r : Request) (q : OpenReq) (d : List Nat),
    s.passes cmdMasterHandover r = true → q = s.asked r 0x0D02 → d = r.payload → s.isMaster = true → s.handoverTarget (fieldOf d 0 8) = none →
    exec (.masterHandover r) s = .next (s.reply q Status.badParam [])) ∧
  (∀ (s : State) (r : Request) (q : OpenReq) (d : List Nat),
    s.passes cmdTwinResync r = true → q = s.asked r 0x0D03 → d = r.payload →
    exec (.twinResync r) s = .next ((s.setFlag RED.TWIN_STAT.RESYNC true).wait q .resync)) ∧
  (∀ (s : State) (r : Request) (q : OpenReq) (d : List Nat),
    s.passes cmdStackStatus r = true → q = s.asked r 0x0D04 → d = r.payload →
    exec (.stackStatus r) s = .next (s.ok q ([s.get STK.STAT.ROLE, s.get STK.STAT.SUB, s.get STK.STAT.MEMBERS, 0] ++ s.wordLe STK.STAT.off ++ s.wordLe (STK.LINKSTAT.off 0) ++ s.wordLe (STK.LINKSTAT.off 1) ++ s.wordLe STK.MEMBER_MAP.off))) ∧
  (∀ (s₀ s : State) (r : Request) (q : OpenReq) (d : List Nat) (m : Nat),
    s₀.passes cmdStackMemberReset r = true → s = s₀.opened cmdStackMemberReset r → q = s₀.asked r 0x0D05 → d = r.payload → m = fieldOf d 0 1 → 1 ≤ m → m ≤ 3 → s.flag (STK.MEMBER_STAT.PRESENT m) = true →
    exec (.stackMemberReset r) s₀ = .next ((s.emit (.memberReset m)).ok q [])) ∧
  (∀ (s₀ s : State) (r : Request) (q : OpenReq) (d : List Nat),
    s₀.passes cmdStackMemberReset r = true → s = s₀.opened cmdStackMemberReset r → q = s₀.asked r 0x0D05 → d = r.payload → fieldOf d 0 1 = 0 →
    exec (.stackMemberReset r) s₀ = .next (s.reply q Status.badParam []))

/-- Requests of the routing and zone group: XP_SET, ZONE_SET, ZONE_CAND, ZONE_EQ, ZONE_OUT, STREAM_SET and TESTGEN_SET whose parameters are in range and whose effective tick is allowed are held until that tick and answered OK with it; a tick that is not allowed, or parameters out of range, are BAD_PARAM, and a matrix or a generator that finds no room NO_RESOURCE. XP_GET answers the crosspoints of a sink, in the order of their creation (the model's choice, notes/assumptions/55.md); ZONE_STATUS the zone's words. -/
def Obligations.RoutingRequests : Prop :=
  (∀ (s : State) (r : Request) (q : OpenReq) (d : List Nat) (w : When),
    s.passes cmdXpSet r = true → q = s.asked r 0x0401 → d = r.payload → s.etick (fieldOf d 0 4) = some w → s.xpStatus d = Status.ok →
    exec (.xpSet r) s = .next (s.takeTimed q w d)) ∧
  (∀ (s : State) (r : Request) (q : OpenReq) (d : List Nat) (w : When),
    s.passes cmdXpSet r = true → q = s.asked r 0x0401 → d = r.payload → s.etick (fieldOf d 0 4) = some w → s.xpStatus d = Status.noResource →
    exec (.xpSet r) s = .next (s.reply q Status.noResource [])) ∧
  (∀ (s : State) (r : Request) (q : OpenReq) (d : List Nat),
    s.passes cmdXpSet r = true → q = s.asked r 0x0401 → d = r.payload → s.etick (fieldOf d 0 4) = none →
    exec (.xpSet r) s = .next (s.reply q Status.badParam [])) ∧
  (∀ (s : State) (r : Request) (q : OpenReq) (d : List Nat) (l : List Xpoint),
    s.passes cmdXpGet r = true → q = s.asked r 0x0402 → d = r.payload → fieldOf d 0 2 < 0x360 → l = (s.aud.xps.filter (fun (x : Xpoint) => x.sink == fieldOf d 0 2)).drop (fieldOf d 2 2) → l.length ≤ 509 →
    exec (.xpGet r) s = .next (s.ok q (leBytes 2 l.length ++ [0, 0] ++ l.flatMap (fun (x : Xpoint) => leBytes 2 x.src ++ leBytes 2 x.sink ++ gainBytes x.target ++ gainBytes (x.applied.map (fun g => ratio g 1048576)))))) ∧
  (∀ (s : State) (r : Request) (q : OpenReq) (d : List Nat) (w : When),
    s.passes cmdZoneSet r = true → q = s.asked r 0x0403 → d = r.payload → s.etick (fieldOf d 12 4) = some w → fieldOf d 0 1 < 16 → fieldOf d 1 1 ≤ 1 → betweenInt (-1200) 240 (signedOf d 2 2) = true → fieldOf d 4 1 ≤ 60 → fieldOf d 6 2 ≤ 100 → fieldOf d 8 2 ≤ 5000 → fieldOf d 10 2 ≤ 5000 →
    exec (.zoneSet r) s = .next (s.takeTimed q w d)) ∧
  (∀ (s : State) (r : Request) (q : OpenReq) (d : List Nat) (w : When),
    s.passes cmdZoneSet r = true → q = s.asked r 0x0403 → d = r.payload → s.etick (fieldOf d 12 4) = some w → 16 ≤ fieldOf d 0 1 →
    exec (.zoneSet r) s = .next (s.reply q Status.badParam [])) ∧
  (∀ (s : State) (r : Request) (q : OpenReq) (d : List Nat) (w : When),
    s.passes cmdZoneCand r = true → q = s.asked r 0x0404 → d = r.payload → s.etick (fieldOf d 4 4) = some w → fieldOf d 0 1 < 16 → fieldOf d 1 1 < 16 → fieldOf d 2 1 ≤ 7 →
    exec (.zoneCand r) s = .next (s.takeTimed q w d)) ∧
  (∀ (s : State) (r : Request) (q : OpenReq) (d : List Nat) (w : When),
    s.passes cmdZoneCand r = true → q = s.asked r 0x0404 → d = r.payload → s.etick (fieldOf d 4 4) = some w → 16 ≤ fieldOf d 1 1 →
    exec (.zoneCand r) s = .next (s.reply q Status.badParam [])) ∧
  (∀ (s : State) (r : Request) (q : OpenReq) (d : List Nat) (w : When),
    s.passes cmdZoneEq r = true → q = s.asked r 0x0405 → d = r.payload → s.etick (fieldOf d 4 4) = some w → fieldOf d 0 1 < 16 → between 1 10 (fieldOf d 2 1) = true → fieldOf d 1 1 + fieldOf d 2 1 ≤ 10 → (List.range (fieldOf d 2 1)).all (fun i => eqStable (eqSet d i)) = true →
    exec (.zoneEq r) s = .next (s.takeTimed q w d)) ∧
  (∀ (s : State) (r : Request) (q : OpenReq) (d : List Nat) (w : When),
    s.passes cmdZoneEq r = true → q = s.asked r 0x0405 → d = r.payload → s.etick (fieldOf d 4 4) = some w → 10 < fieldOf d 1 1 + fieldOf d 2 1 →
    exec (.zoneEq r) s = .next (s.reply q Status.badParam [])) ∧
  (∀ (s : State) (r : Request) (q : OpenReq) (d : List Nat) (w : When),
    s.passes cmdZoneOut r = true → q = s.asked r 0x0406 → d = r.payload → s.etick (fieldOf d 12 4) = some w → fieldOf d 0 1 < 16 → fieldOf d 2 2 ≤ 2400 → betweenInt (-300) 0 (signedOf d 4 2) = true → between 1 100 (fieldOf d 6 2) = true → between 10 2000 (fieldOf d 8 2) = true →
    exec (.zoneOut r) s = .next (s.takeTimed q w d)) ∧
  (∀ (s : State) (r : Request) (q : OpenReq) (d : List Nat) (w : When),
    s.passes cmdZoneOut r = true → q = s.asked r 0x0406 → d = r.payload → s.etick (fieldOf d 12 4) = some w → 2400 < fieldOf d 2 2 →
    exec (.zoneOut r) s = .next (s.reply q Status.badParam [])) ∧
  (∀ (s : State) (r : Request) (q : OpenReq) (d : List Nat) (w : When),
    s.passes cmdStreamSet r = true → q = s.asked r 0x0407 → d = r.payload → s.etick (fieldOf d 8 4) = some w → fieldOf d 0 1 ≤ 127 → fieldOf d 1 1 ≤ 7 → fieldOf d 2 1 ≤ 2 → fieldOf d 4 2 ≤ 2000 →
    exec (.streamSet r) s = .next (s.takeTimed q w d)) ∧
  (∀ (s : State) (r : Request) (q : OpenReq) (d : List Nat) (w : When),
    s.passes cmdStreamSet r = true → q = s.asked r 0x0407 → d = r.payload → s.etick (fieldOf d 8 4) = some w → 127 < fieldOf d 0 1 →
    exec (.streamSet r) s = .next (s.reply q Status.badParam [])) ∧
  (∀ (s : State) (r : Request) (q : OpenReq) (d : List Nat) (w : When),
    s.passes cmdTestgenSet r = true → q = s.asked r 0x0408 → d = r.payload → s.etick (fieldOf d 8 4) = some w → fieldOf d 0 1 < 8 → fieldOf d 1 1 ≤ 3 → betweenInt (-1200) 0 (signedOf d 2 2) = true → between 20 20000 (fieldOf d 4 2) = true → s.roomInstead (0x0408 * 65536 + fieldOf d 0 1) (genCost (fieldOf d 1 1)) = true →
    exec (.testgenSet r) s = .next (s.takeTimed q w d)) ∧
  (∀ (s : State) (r : Request) (q : OpenReq) (d : List Nat) (w : When),
    s.passes cmdTestgenSet r = true → q = s.asked r 0x0408 → d = r.payload → s.etick (fieldOf d 8 4) = some w → 8 ≤ fieldOf d 0 1 →
    exec (.testgenSet r) s = .next (s.reply q Status.badParam [])) ∧
  (∀ (s : State) (r : Request) (q : OpenReq) (d : List Nat) (z : Nat),
    s.passes cmdZoneStatus r = true → q = s.asked r 0x0409 → d = r.payload → z = fieldOf d 0 1 → z < 16 →
    exec (.zoneStatus r) s = .next (s.ok q ([AUD.ZONE_STAT.off z, AUD.ZONE_METER.off z, AUD.NF_GAIN.off z, AUD.PMON_GAIN.off z, AUD.PMON_STAT.off z, AUD.STALE_CNT.off z].flatMap s.wordLe))) ∧
  (∀ (s : State) (r : Request) (q : OpenReq) (d : List Nat),
    s.passes cmdZoneStatus r = true → q = s.asked r 0x0409 → d = r.payload → 16 ≤ fieldOf d 0 1 →
    exec (.zoneStatus r) s = .next (s.reply q Status.badParam []))

/-- Requests of the library and playback group: LIB_LOAD takes a fragment in order with OK, completes with the library's own status, drops a transfer that breaks its order with BAD_PARAM, and answers NO_RESOURCE for a transfer over 1 GiB and 48 bytes. LIB_DELETE marks the clip and answers OK, or PENDING while a voice plays it, and BAD_PARAM for a clip that is not there. LIB_LIST answers the descriptors asked for. PLAY_START answers the voice and its start tick, or the status that the voice's check gives; PLAY_STOP is held until its effective tick; PLAY_STATUS answers the 32 voices. -/
def Obligations.PlaybackRequests : Prop :=
  (∀ (s : State) (r : Request) (q : OpenReq) (d : List Nat) (t : State),
    s.passes cmdLibLoad r = true → q = s.asked r 0x0501 → d = r.payload → fieldOf d 0 4 ≤ 48 + 2 ^ 30 → s.takeFragment q.ch 0x0501 d = (.more, t) →
    exec (.libLoad r) s = .next (t.ok q [])) ∧
  (∀ (s : State) (r : Request) (q : OpenReq) (d : List Nat) (t u : State) (b : List Nat),
    s.passes cmdLibLoad r = true → q = s.asked r 0x0501 → d = r.payload → fieldOf d 0 4 ≤ 48 + 2 ^ 30 → s.takeFragment q.ch 0x0501 d = (.whole b, t) → t.libTake b = (Status.ok, u) →
    exec (.libLoad r) s = .next (u.reply q Status.ok (b.take 4 ++ (b.drop 4).take 2 ++ [0, 0]))) ∧
  (∀ (s : State) (r : Request) (q : OpenReq) (d : List Nat) (t u : State) (b : List Nat) (st : Nat),
    s.passes cmdLibLoad r = true → q = s.asked r 0x0501 → d = r.payload → fieldOf d 0 4 ≤ 48 + 2 ^ 30 → s.takeFragment q.ch 0x0501 d = (.whole b, t) → t.libTake b = (st, u) → st ≠ Status.ok →
    exec (.libLoad r) s = .next (u.reply q st [])) ∧
  (∀ (s : State) (r : Request) (q : OpenReq) (d : List Nat) (t : State),
    s.passes cmdLibLoad r = true → q = s.asked r 0x0501 → d = r.payload → fieldOf d 0 4 ≤ 48 + 2 ^ 30 → s.takeFragment q.ch 0x0501 d = (.bad, t) →
    exec (.libLoad r) s = .next (t.reply q Status.badParam [])) ∧
  (∀ (s : State) (r : Request) (q : OpenReq) (d : List Nat),
    s.passes cmdLibLoad r = true → q = s.asked r 0x0501 → d = r.payload → 48 + 2 ^ 30 < fieldOf d 0 4 →
    exec (.libLoad r) s = .next (s.reply q Status.noResource [])) ∧
  (∀ (s : State) (r : Request) (q : OpenReq) (d : List Nat) (hit : Clip → Bool) (t : State),
    s.passes cmdLibDelete r = true → q = s.asked r 0x0502 → d = r.payload → hit = (fun (c : Clip) => c.id == fieldOf d 0 4 && (fieldOf d 4 2 == 0 || c.version == fieldOf d 4 2)) → s.vox.clips.any hit = true → t = State.clipSweep { s with vox := { s.vox with clips := s.vox.clips.map (fun (c : Clip) => if hit c then { c with deleting := true } else c) } } → t.vox.clips.any hit = false →
    exec (.libDelete r) s = .next (t.ok q [])) ∧
  (∀ (s : State) (r : Request) (q : OpenReq) (d : List Nat) (hit : Clip → Bool) (t : State),
    s.passes cmdLibDelete r = true → q = s.asked r 0x0502 → d = r.payload → hit = (fun (c : Clip) => c.id == fieldOf d 0 4 && (fieldOf d 4 2 == 0 || c.version == fieldOf d 4 2)) → s.vox.clips.any hit = true → t = State.clipSweep { s with vox := { s.vox with clips := s.vox.clips.map (fun (c : Clip) => if hit c then { c with deleting := true } else c) } } → t.vox.clips.any hit = true →
    exec (.libDelete r) s = .next (t.wait q (.clipDelete (fieldOf d 0 4) (fieldOf d 4 2)))) ∧
  (∀ (s : State) (r : Request) (q : OpenReq) (d : List Nat),
    s.passes cmdLibDelete r = true → q = s.asked r 0x0502 → d = r.payload → s.vox.clips.any (fun (c : Clip) => c.id == fieldOf d 0 4 && (fieldOf d 4 2 == 0 || c.version == fieldOf d 4 2)) = false →
    exec (.libDelete r) s = .next (s.reply q Status.badParam [])) ∧
  (∀ (s : State) (r : Request) (q : OpenReq) (d : List Nat) (l : List Clip) (n : Nat),
    s.passes cmdLibList r = true → q = s.asked r 0x0503 → d = r.payload → n = fieldOf d 2 2 → 1 ≤ n → n ≤ 78 → l = s.libEntries.drop (fieldOf d 0 2) →
    exec (.libList r) s = .next (s.ok q (leBytes 2 (min l.length n) ++ [if n < l.length then 1 else 0, 0, 0, 0, 0, 0] ++ (l.take (min l.length n)).flatMap (fun (c : Clip) => c.descriptor ++ [c.stateByte, bankOf c.addr, (s.vox.voices.filter (fun (v : Voice) => v.playing && v.clips.contains (c.id, c.version))).length, 0])))) ∧
  (∀ (s : State) (r : Request) (q : OpenReq) (d : List Nat),
    s.passes cmdLibList r = true → q = s.asked r 0x0503 → d = r.payload → 78 < fieldOf d 2 2 →
    exec (.libList r) s = .next (s.reply q Status.badParam [])) ∧
  (∀ (s : State) (r : Request) (q : OpenReq) (d : List Nat) (x : Voice) (cost seq : Nat),
    s.passes cmdPlayStart r = true → q = s.asked r 0x0504 → d = r.payload → s.playCheck d = (Status.ok, x, cost) → seq = (if s.tickSeq = 0 then 0 else x.start % 2 ^ 32) →
    exec (.playStart r) s = .next (((s.playBegin x cost).twinShare s.tickSeq 0x0504 ([x.ix, Nat.lor (fieldOf d 1 1) 1] ++ (d.drop 2).take 6 ++ leBytes 4 seq ++ d.drop 12)).ok q ([x.ix, 0, 0, 0] ++ leBytes 4 seq))) ∧
  (∀ (s : State) (r : Request) (q : OpenReq) (d : List Nat) (x : Voice) (cost st : Nat),
    s.passes cmdPlayStart r = true → q = s.asked r 0x0504 → d = r.payload → s.playCheck d = (st, x, cost) → st ≠ Status.ok →
    exec (.playStart r) s = .next (s.reply q st [])) ∧
  (∀ (s : State) (r : Request) (q : OpenReq) (d : List Nat) (w : When),
    s.passes cmdPlayStop r = true → q = s.asked r 0x0505 → d = r.payload → s.etick (fieldOf d 4 4) = some w → fieldOf d 0 1 < 32 → fieldOf d 2 2 ≤ 1000 →
    exec (.playStop r) s = .next (s.takeTimed q w d)) ∧
  (∀ (s : State) (r : Request) (q : OpenReq) (d : List Nat) (w : When),
    s.passes cmdPlayStop r = true → q = s.asked r 0x0505 → d = r.payload → s.etick (fieldOf d 4 4) = some w → 1000 < fieldOf d 2 2 →
    exec (.playStop r) s = .next (s.reply q Status.badParam [])) ∧
  (∀ (s : State) (r : Request) (q : OpenReq) (d : List Nat),
    s.passes cmdPlayStatus r = true → q = s.asked r 0x0506 → d = r.payload →
    exec (.playStatus r) s = .next (s.ok q ((List.range 32).flatMap s.voiceStatus)))

/-- Requests of the intercom, echo canceller, path monitor and recorder group: CALL_OPEN whose parameters stand and whose resources are free is held to its tick and answers the call's index and the tick; CALL_CLOSE and AEC_SET are held to theirs; CALL_STATUS answers the eight calls. PMON_COMMISSION starts a commissioning of the zone and answers PENDING; PMON_CLEAR, authorised, drops the references. STIPA_RUN with an external signal and no noise step starts the measurement and answers PENDING; while one runs it is BUSY. REC_LOCK locks the units of a call within the limit, REC_UNLOCK, authorised, unlocks them, REC_INDEX answers the entries, REC_EXPORT to host memory answers PENDING. -/
def Obligations.CallAndRecorderRequests : Prop :=
  (∀ (s : State) (r : Request) (q : OpenReq) (d : List Nat) (w : When) (i : Nat),
    s.passes cmdCallOpen r = true → q = s.asked r 0x0601 → d = r.payload → s.etick (fieldOf d 20 4) = some w → s.callStatus d = Status.ok → i = s.freeCall.getD 0 →
    exec (.callOpen r) s = .next (((s.hold w 0x0601 (d ++ [i]) q.ch q.tag).twinShare w.tick 0x0601 (d ++ [i])).ok q ([i, 0, 0, 0] ++ leBytes 4 w.tick))) ∧
  (∀ (s : State) (r : Request) (q : OpenReq) (d : List Nat) (w : When),
    s.passes cmdCallOpen r = true → q = s.asked r 0x0601 → d = r.payload → s.etick (fieldOf d 20 4) = some w → s.callStatus d = Status.noResource →
    exec (.callOpen r) s = .next (s.reply q Status.noResource [])) ∧
  (∀ (s : State) (r : Request) (q : OpenReq) (d : List Nat),
    s.passes cmdCallOpen r = true → q = s.asked r 0x0601 → d = r.payload → s.etick (fieldOf d 20 4) = none →
    exec (.callOpen r) s = .next (s.reply q Status.badParam [])) ∧
  (∀ (s : State) (r : Request) (q : OpenReq) (d : List Nat) (w : When),
    s.passes cmdCallClose r = true → q = s.asked r 0x0602 → d = r.payload → s.etick (fieldOf d 4 4) = some w → fieldOf d 0 1 < 8 →
    exec (.callClose r) s = .next (s.takeTimed q w d)) ∧
  (∀ (s : State) (r : Request) (q : OpenReq) (d : List Nat) (w : When),
    s.passes cmdCallClose r = true → q = s.asked r 0x0602 → d = r.payload → s.etick (fieldOf d 4 4) = some w → 8 ≤ fieldOf d 0 1 →
    exec (.callClose r) s = .next (s.reply q Status.badParam [])) ∧
  (∀ (s : State) (r : Request) (q : OpenReq) (d : List Nat),
    s.passes cmdCallStatus r = true → q = s.asked r 0x0603 → d = r.payload →
    exec (.callStatus r) s = .next (s.ok q ((List.range 8).flatMap (fun i => [s.callState i, s.get (AUD.CALL_STAT.FLOOR i), s.get (AUD.CALL_STAT.CAN_CH i), 0] ++ leBytes 4 (match s.vox.call i with | some c => c.id | none => 0))))) ∧
  (∀ (s : State) (r : Request) (q : OpenReq) (d : List Nat) (w : When),
    s.passes cmdAecSet r = true → q = s.asked r 0x0604 → d = r.payload → s.etick (fieldOf d 8 4) = some w → fieldOf d 0 1 < 8 → fieldOf d 1 1 ≤ 3 → fieldOf d 2 1 ≤ 30 → fieldOf d 3 1 ≤ 1 → fieldOf d 4 2 ≤ 1600 → s.roomInstead (aecOwner (fieldOf d 0 1)) (s.aecNext (fieldOf d 0 1) (32 * 2 ^ fieldOf d 1 1)) = true →
    exec (.aecSet r) s = .next (s.takeTimed q w d)) ∧
  (∀ (s : State) (r : Request) (q : OpenReq) (d : List Nat) (w : When),
    s.passes cmdAecSet r = true → q = s.asked r 0x0604 → d = r.payload → s.etick (fieldOf d 8 4) = some w → 8 ≤ fieldOf d 0 1 →
    exec (.aecSet r) s = .next (s.reply q Status.badParam [])) ∧
  (∀ (s : State) (r : Request) (q : OpenReq) (d : List Nat) (z : Nat) (x : PmonSt),
    s.passes cmdPmonCommission r = true → q = s.asked r 0x0605 → d = r.payload → z = fieldOf d 0 1 → z < 16 → s.pmonMics z ≠ [] → x = s.vox.pmonOf z → x.commission = none →
    exec (.pmonCommission r) s = .next ((s.setPmon z { x with commission := some ((s.pmonMics z).map (fun m => (m, 20, 0, 0))), deadline := s.decik.upTicks + 600 * 48000 }).wait q (.pmon z))) ∧
  (∀ (s : State) (r : Request) (q : OpenReq) (d : List Nat),
    s.passes cmdPmonCommission r = true → q = s.asked r 0x0605 → d = r.payload → 16 ≤ fieldOf d 0 1 →
    exec (.pmonCommission r) s = .next (s.reply q Status.badParam [])) ∧
  (∀ (s₀ s : State) (r : Request) (q : OpenReq) (d : List Nat) (z : Nat),
    s₀.passes cmdPmonClear r = true → s = s₀.opened cmdPmonClear r → q = s₀.asked r 0x0606 → d = r.payload → z = fieldOf d 0 1 → z < 16 →
    exec (.pmonClear r) s₀ = .next (((s.setPmon z { s.vox.pmonOf z with refs := [], low := 0, high := 0 }).verdictTo z Verdict.notCommissioned).ok q [])) ∧
  (∀ (s : State) (r : Request) (q : OpenReq) (d : List Nat) (e : StipaSt),
    s.passes cmdStipaRun r = true → q = s.asked r 0x0607 → d = r.payload → s.vox.stipa = none → fieldOf d 0 1 < 16 → fieldOf d 1 1 < 16 → fieldOf d 2 1 = 0xFE → 15 ≤ fieldOf d 10 1 → fieldOf d 10 1 ≤ 60 → fieldOf d 11 1 = 0 → s.roomFor 900 = true → e = ⟨fieldOf d 0 1, fieldOf d 1 1, none, (fieldOf d 4 4, fieldOf d 8 2), fieldOf d 10 1, 0, s.decik.upTicks⟩ →
    exec (.stipaRun r) s = .next ((((s.setFlag AUD.STIPA_RESULT.VALID false).addJob 0x0607 0 900 []).stipaSignal e).wait q .stipa)) ∧
  (∀ (s : State) (r : Request) (q : OpenReq) (d : List Nat) (x : StipaSt),
    s.passes cmdStipaRun r = true → q = s.asked r 0x0607 → d = r.payload → s.vox.stipa = some x →
    exec (.stipaRun r) s = .next (s.reply q Status.busy [])) ∧
  (∀ (s : State) (r : Request) (q : OpenReq) (d : List Nat) (us : List RecUnit),
    s.passes cmdRecLock r = true → q = s.asked r 0x0608 → d = r.payload → us = s.vox.unitsOf (fieldOf d 0 4) → us ≠ [] → (s.vox.recUnits.filter (fun (r : RecUnit) => r.locked && !r.lost && r.call != fieldOf d 0 4)).length + us.length ≤ recLockMax →
    exec (.recLock r) s = .next ((s.lockUnits (fieldOf d 0 4) true).ok q (leBytes 4 us.length))) ∧
  (∀ (s : State) (r : Request) (q : OpenReq) (d : List Nat) (us : List RecUnit),
    s.passes cmdRecLock r = true → q = s.asked r 0x0608 → d = r.payload → us = s.vox.unitsOf (fieldOf d 0 4) → us ≠ [] → recLockMax < (s.vox.recUnits.filter (fun (r : RecUnit) => r.locked && !r.lost && r.call != fieldOf d 0 4)).length + us.length →
    exec (.recLock r) s = .next ((s.evt AUD.REC_EVT.LOCK_FULL 1 Src.AUD_RECORDER).reply q Status.noResource [])) ∧
  (∀ (s₀ s : State) (r : Request) (q : OpenReq) (d : List Nat) (us : List RecUnit),
    s₀.passes cmdRecUnlock r = true → s = s₀.opened cmdRecUnlock r → q = s₀.asked r 0x0609 → d = r.payload → us = s.vox.unitsOf (fieldOf d 0 4) → us ≠ [] →
    exec (.recUnlock r) s₀ = .next ((s.lockUnits (fieldOf d 0 4) false).ok q (leBytes 4 (us.filter (fun (r : RecUnit) => r.locked)).length))) ∧
  (∀ (s₀ s : State) (r : Request) (q : OpenReq) (d : List Nat),
    s₀.passes cmdRecUnlock r = true → s = s₀.opened cmdRecUnlock r → q = s₀.asked r 0x0609 → d = r.payload → s.vox.unitsOf (fieldOf d 0 4) = [] →
    exec (.recUnlock r) s₀ = .next (s.reply q Status.badParam [])) ∧
  (∀ (s : State) (r : Request) (q : OpenReq) (d : List Nat) (first n : Nat),
    s.passes cmdRecIndex r = true → q = s.asked r 0x060A → d = r.payload → first = fieldOf d 0 4 → n = fieldOf d 4 2 → 1 ≤ n → n ≤ 127 → first < recUnits →
    exec (.recIndex r) s = .next (s.ok q ((List.range n).flatMap (fun i => s.vox.entryOf ((first + i) % recUnits))))) ∧
  (∀ (s : State) (r : Request) (q : OpenReq) (d : List Nat),
    s.passes cmdRecIndex r = true → q = s.asked r 0x060A → d = r.payload → 127 < fieldOf d 4 2 →
    exec (.recIndex r) s = .next (s.reply q Status.badParam [])) ∧
  (∀ (s₀ s : State) (r : Request) (q : OpenReq) (d : List Nat) (n : Nat),
    s₀.passes cmdRecExport r = true → s = s₀.opened cmdRecExport r → q = s₀.asked r 0x060B → d = r.payload → n = fieldOf d 4 4 → fieldOf d 0 4 < recUnits → 1 ≤ n → n ≤ 65536 → s.inHost (fieldOf d 8 4) (4096 * n) = true →
    exec (.recExport r) s₀ = .next (s.wait q (.recExport (fieldOf d 0 4) n (fieldOf d 8 4)))) ∧
  (∀ (s₀ s : State) (r : Request) (q : OpenReq) (d : List Nat) (n : Nat),
    s₀.passes cmdRecExport r = true → s = s₀.opened cmdRecExport r → q = s₀.asked r 0x060B → d = r.payload → n = fieldOf d 4 4 → fieldOf d 0 4 < recUnits → 1 ≤ n → n ≤ 65536 → s.inHost (fieldOf d 8 4) (4096 * n) = false →
    exec (.recExport r) s₀ = .next (s.reply q Status.notPermitted []))

/-- Requests of the Ethernet, PTP and AES67 group: ETH_STATUS and ETH_COUNTERS answer the port's registers and its 36 totals; ETH_MDIO waits for its transaction; ETH_GATE_SET with a valid list is held to its tick and answers the tick of the first cycle; PTP_SET and PTP_STATUS write and answer the PTP settings. STREAM_ADD answers the unit of the new stream, or NO_RESOURCE; STREAM_REMOVE removes it; PRALINE_SET writes the queue's key and flags. A port of 2 or more, and a gate list that is not valid, are BAD_PARAM. -/
def Obligations.EthernetAndStreamRequests : Prop :=
  (∀ (s : State) (r : Request) (q : OpenReq) (d : List Nat) (p : Nat),
    s.passes cmdEthStatus r = true → q = s.asked r 0x0701 → d = r.payload → p = fieldOf d 0 1 → p < 2 →
    exec (.ethStatus r) s = .next (s.ok q ([s.get (ETH.STAT.LINK p), s.get (TST.ELANE.MODE p), if (s.ethPort p).pauseLeft = 0 then 0 else 1, 0, s.get (ETH.PRALINE_STAT.EN p), 0, 0, 0] ++ leBytes 4 (s.totalOf (ETH.TSQ_STAT.LOST p)) ++ leBytes 2 (s.get (ETH.TSQ_FIRST.SEQ p)) ++ [0, 0]))) ∧
  (∀ (s : State) (r : Request) (q : OpenReq) (d : List Nat),
    s.passes cmdEthStatus r = true → q = s.asked r 0x0701 → d = r.payload → 2 ≤ fieldOf d 0 1 →
    exec (.ethStatus r) s = .next (s.reply q Status.badParam [])) ∧
  (∀ (s : State) (r : Request) (q : OpenReq) (d : List Nat) (p : Nat),
    s.passes cmdEthCounters r = true → q = s.asked r 0x0702 → d = r.payload → p = fieldOf d 0 1 → p < 2 →
    exec (.ethCounters r) s = .next (s.ok q ((List.range 36).flatMap (fun i => leBytes 8 ((s.ethPort p).totals.getD i 0))))) ∧
  (∀ (s : State) (r : Request) (q : OpenReq) (d : List Nat),
    s.passes cmdEthCounters r = true → q = s.asked r 0x0702 → d = r.payload → 2 ≤ fieldOf d 0 1 →
    exec (.ethCounters r) s = .next (s.reply q Status.badParam [])) ∧
  (∀ (s : State) (r : Request) (q : OpenReq) (d : List Nat) (t : State),
    s.passes cmdEthMdio r = true → q = s.asked r 0x0703 → d = r.payload → fieldOf d 0 1 < 2 → fieldOf d 1 1 < 2 → fieldOf d 2 1 < 32 → fieldOf d 3 1 < 32 → t = { s with mbx := { s.mbx with opens := s.mbx.opens ++ [{ q with pend := .mdio (fieldOf d 0 1) (fieldOf d 2 1) (fieldOf d 3 1) }] } } →
    exec (.ethMdio r) s = .next (t.showOpen q.ch)) ∧
  (∀ (s : State) (r : Request) (q : OpenReq) (d : List Nat),
    s.passes cmdEthMdio r = true → q = s.asked r 0x0703 → d = r.payload → 32 ≤ fieldOf d 2 1 →
    exec (.ethMdio r) s = .next (s.reply q Status.badParam [])) ∧
  (∀ (s : State) (r : Request) (q : OpenReq) (d : List Nat) (w : When),
    s.passes cmdEthGateSet r = true → q = s.asked r 0x0704 → d = r.payload → s.etick (fieldOf d 8 4) = some w → gateValid d = true →
    exec (.ethGateSet r) s = .next (((s.hold w 0x0704 d q.ch q.tag).twinShare w.tick 0x0704 d).ok q (leBytes 4 (w.atick (firstCycle (fieldOf d 4 2) (s.numberOf w)))))) ∧
  (∀ (s : State) (r : Request) (q : OpenReq) (d : List Nat) (w : When),
    s.passes cmdEthGateSet r = true → q = s.asked r 0x0704 → d = r.payload → s.etick (fieldOf d 8 4) = some w → gateValid d = false →
    exec (.ethGateSet r) s = .next (s.reply q Status.badParam [])) ∧
  (∀ (s : State) (r : Request) (q : OpenReq) (d : List Nat) (t : State),
    s.passes cmdPtpSet r = true → q = s.asked r 0x0705 → d = r.payload → fieldOf d 0 1 < 2 → fieldOf d 4 1 < 3 → fieldOf d 5 1 < 3 → t = s.ptpSet (fieldOf d 0 1 == 1) (fieldOf d 1 1) (fieldOf d 2 1) (fieldOf d 3 1) [fieldOf d 4 1, fieldOf d 5 1] →
    exec (.ptpSet r) s = .next ((t.twinShare s.tickSeq 0x0705 d).ok q [])) ∧
  (∀ (s : State) (r : Request) (q : OpenReq) (d : List Nat),
    s.passes cmdPtpSet r = true → q = s.asked r 0x0705 → d = r.payload → 3 ≤ fieldOf d 4 1 →
    exec (.ptpSet r) s = .next (s.reply q Status.badParam [])) ∧
  (∀ (s : State) (r : Request) (q : OpenReq) (d : List Nat),
    s.passes cmdPtpStatus r = true → q = s.asked r 0x0706 → d = r.payload →
    exec (.ptpStatus r) s = .next (s.ok q ([s.ptpState 0, s.ptpState 1, s.get PTP.STAT.CLASS, 0] ++ leBytes 8 (s.get PTP.GM_ID_LO.ID + 2 ^ 32 * s.get PTP.GM_ID_HI.ID) ++ s.wordLe SYNC.PTP_DIFF.off ++ s.wordLe SYNC.PTP_RATIO.off))) ∧
  (∀ (s : State) (r : Request) (q : OpenReq) (d : List Nat) (t : State) (id : Nat),
    s.passes cmdStreamAdd r = true → q = s.asked r 0x0707 → d = r.payload → streamValid d = true → s.addStream d (fun _ => 0) = (some id, t) →
    exec (.streamAdd r) s = .next ((t.twinShare t.tickSeq 0x0707 d).ok q (leBytes 4 id))) ∧
  (∀ (s : State) (r : Request) (q : OpenReq) (d : List Nat) (t : State),
    s.passes cmdStreamAdd r = true → q = s.asked r 0x0707 → d = r.payload → streamValid d = true → s.addStream d (fun _ => 0) = (none, t) →
    exec (.streamAdd r) s = .next (t.reply q Status.noResource [])) ∧
  (∀ (s : State) (r : Request) (q : OpenReq) (d : List Nat),
    s.passes cmdStreamAdd r = true → q = s.asked r 0x0707 → d = r.payload → streamValid d = false →
    exec (.streamAdd r) s = .next (s.reply q Status.badParam [])) ∧
  (∀ (s : State) (r : Request) (q : OpenReq) (d : List Nat) (x : RtpStream),
    s.passes cmdStreamRemove r = true → q = s.asked r 0x0708 → d = r.payload → s.unitStream (fieldOf d 0 4) = some x →
    exec (.streamRemove r) s = .next (((s.removeStream (fieldOf d 0 4)).twinShare s.tickSeq 0x0708 d).ok q [])) ∧
  (∀ (s : State) (r : Request) (q : OpenReq) (d : List Nat),
    s.passes cmdStreamRemove r = true → q = s.asked r 0x0708 → d = r.payload → s.unitStream (fieldOf d 0 4) = none →
    exec (.streamRemove r) s = .next (s.reply q Status.badParam [])) ∧
  (∀ (s : State) (r : Request) (q : OpenReq) (d : List Nat) (f : Nat),
    s.passes cmdPralineSet r = true → q = s.asked r 0x0709 → d = r.payload → f = fieldOf d 2 1 → fieldOf d 0 1 < 2 → f < 2 → fieldOf d 1 1 < 8 →
    exec (.pralineSet r) s = .next ((s.pralineSet (fieldOf d 0 1) (fieldOf d 1 1) (bit f 0) (bit f 1) (fieldOf d 4 2) (d.drop 8)).ok q [])) ∧
  (∀ (s : State) (r : Request) (q : OpenReq) (d : List Nat) (f : Nat),
    s.passes cmdPralineSet r = true → q = s.asked r 0x0709 → d = r.payload → f = fieldOf d 2 1 → fieldOf d 0 1 < 2 → 2 ≤ f → f < 4 → fieldOf d 1 1 = 7 →
    exec (.pralineSet r) s = .next ((s.pralineSet (fieldOf d 0 1) 7 (bit f 0) (bit f 1) (fieldOf d 4 2) (d.drop 8)).ok q [])) ∧
  (∀ (s : State) (r : Request) (q : OpenReq) (d : List Nat),
    s.passes cmdPralineSet r = true → q = s.asked r 0x0709 → d = r.payload → 8 ≤ fieldOf d 1 1 →
    exec (.pralineSet r) s = .next (s.reply q Status.badParam []))

/-- Requests of the CAN group: CAN_STATUS answers the error state and counters, the tick source, the violations and the two voice channels; where the node's tick comes neither from the ring nor from the reference, its tick source byte is free. CAN_SET_RATE sets the rates and the delay offset where the schedule in force fits them; CAN_SCHED_SET with a schedule that fits is held to its tick and answers the tick of its first cycle. CAN_OBJ_SET configures and enables one of objects 16 to 127; CAN_SEND writes the data, sets the length code and requests the sending, BUSY while one is pending; CAN_WAKE_SET sets the wake filter and its mode. -/
def Obligations.CanRequests : Prop :=
  (∀ (s : State) (r : Request) (q : OpenReq) (d : List Nat) (x src : Nat) (t : State),
    s.passes cmdCanStatus r = true → q = s.asked r 0x0801 → d = r.payload → s.fresh = (x, t) → src = (if t.tsrc = Tsrc.ring then 0 else if t.tsrc = Tsrc.reference then 1 else x % 256) →
    exec (.canStatus r) s = .next (t.ok q ([t.get CAN.STAT.ERR_STATE, t.get CAN.ERR.TEC, t.get CAN.ERR.REC, src] ++ leBytes 4 (t.totalOf CAN.VIOL_TOTAL.COUNT) ++ [t.get CAN.VOICE_STAT.CH0 / 128 + 2 * (t.get CAN.VOICE_STAT.CH1 / 128), 0, 0, 0]))) ∧
  (∀ (s : State) (r : Request) (q : OpenReq) (d : List Nat),
    s.passes cmdCanSetRate r = true → q = s.asked r 0x0802 → d = r.payload → fieldOf d 0 1 < 4 → fieldOf d 1 1 < 3 → betweenInt (-32) 31 (signedOf d 2 1) = true → s.schedFits (fieldOf d 0 1) (fieldOf d 1 1) s.can.sched = true →
    exec (.canSetRate r) s = .next (((((s.set CAN.CFG.NOM (fieldOf d 0 1)).set CAN.CFG.DATA (fieldOf d 1 1)).set CAN.CFG.TDC_OFS (fieldOf d 2 1 % 64)).twinShare s.tickSeq 0x0802 d).ok q [])) ∧
  (∀ (s : State) (r : Request) (q : OpenReq) (d : List Nat),
    s.passes cmdCanSetRate r = true → q = s.asked r 0x0802 → d = r.payload → s.schedFits (fieldOf d 0 1) (fieldOf d 1 1) s.can.sched = false →
    exec (.canSetRate r) s = .next (s.reply q Status.badParam [])) ∧
  (∀ (s : State) (r : Request) (q : OpenReq) (d : List Nat) (w : When),
    s.passes cmdCanSchedSet r = true → q = s.asked r 0x0803 → d = r.payload → s.etick (fieldOf d 4 4) = some w → 1 ≤ fieldOf d 0 1 → fieldOf d 0 1 ≤ 64 → (List.range (fieldOf d 0 1)).all (fun i => decide (fieldOf d (12 + 8 * i) 1 < 2) && fieldOf d (14 + 8 * i) 2 == 0) = true → s.schedFits (s.get CAN.CFG.NOM) (s.get CAN.CFG.DATA) (schedList d) = true →
    exec (.canSchedSet r) s = .next (((s.hold w 0x0803 d q.ch q.tag).twinShare w.tick 0x0803 d).ok q (leBytes 4 (w.atick (firstCycle 480 (s.numberOf w)))))) ∧
  (∀ (s : State) (r : Request) (q : OpenReq) (d : List Nat) (w : When),
    s.passes cmdCanSchedSet r = true → q = s.asked r 0x0803 → d = r.payload → s.etick (fieldOf d 4 4) = some w → 64 < fieldOf d 0 1 →
    exec (.canSchedSet r) s = .next (s.reply q Status.badParam [])) ∧
  (∀ (s : State) (r : Request) (q : OpenReq) (d : List Nat) (id : Nat) (ext : Bool),
    s.passes cmdCanObjSet r = true → q = s.asked r 0x0804 → d = r.payload → ext = bit (fieldOf d 2 1) 3 → id = fieldOf d 4 4 → 16 ≤ fieldOf d 0 1 → fieldOf d 0 1 ≤ 127 → fieldOf d 1 1 < 2 → fieldOf d 2 1 < 16 → fieldOf d 3 1 < 16 → id < (if ext then 2 ^ 29 else 2 ^ 11) → fieldOf d 8 4 < 2 ^ 29 → s.ownId id ext = false →
    exec (.canObjSet r) s = .next ((s.applyCanObjSet d).ok q [])) ∧
  (∀ (s : State) (r : Request) (q : OpenReq) (d : List Nat),
    s.passes cmdCanObjSet r = true → q = s.asked r 0x0804 → d = r.payload → fieldOf d 0 1 < 16 →
    exec (.canObjSet r) s = .next (s.reply q Status.badParam [])) ∧
  (∀ (s : State) (r : Request) (q : OpenReq) (d : List Nat) (k n : Nat) (t : State),
    s.passes cmdCanSend r = true → q = s.asked r 0x0805 → d = r.payload → k = fieldOf d 0 1 → n = fieldOf d 1 1 → 16 ≤ k → k ≤ 127 → n ≤ 64 → (n ≤ 8 ∨ s.flag (CAN.OBJ_CFG.FD k) = true) → s.flag (CAN.OBJ_STAT.TX_PEND k) = false → t = s.storeWrite (s.objCopy k 0 + 16) (padTo 64 (d.drop 4)) →
    exec (.canSend r) s = .next (((t.set (CAN.OBJ_CFG.DLC k) (dlcFor n)).objSend k).ok q [])) ∧
  (∀ (s : State) (r : Request) (q : OpenReq) (d : List Nat) (k n : Nat),
    s.passes cmdCanSend r = true → q = s.asked r 0x0805 → d = r.payload → k = fieldOf d 0 1 → n = fieldOf d 1 1 → 16 ≤ k → k ≤ 127 → n ≤ 8 → s.flag (CAN.OBJ_STAT.TX_PEND k) = true →
    exec (.canSend r) s = .next (s.reply q Status.busy [])) ∧
  (∀ (s : State) (r : Request) (q : OpenReq) (d : List Nat),
    s.passes cmdCanSend r = true → q = s.asked r 0x0805 → d = r.payload → 64 < fieldOf d 1 1 →
    exec (.canSend r) s = .next (s.reply q Status.badParam [])) ∧
  (∀ (s : State) (r : Request) (q : OpenReq) (d : List Nat) (t : State),
    s.passes cmdCanWakeSet r = true → q = s.asked r 0x0806 → d = r.payload → fieldOf d 0 1 < 2 → t = { s with can := { s.can with wake := (fieldOf d 4 4, fieldOf d 8 4, (d.drop 12).take 8, (d.drop 20).take 8) } } →
    exec (.canWakeSet r) s = .next ((t.set CAN.WAKE_CFG.MODE (fieldOf d 0 1)).ok q [])) ∧
  (∀ (s : State) (r : Request) (q : OpenReq) (d : List Nat),
    s.passes cmdCanWakeSet r = true → q = s.asked r 0x0806 → d = r.payload → 2 ≤ fieldOf d 0 1 →
    exec (.canWakeSet r) s = .next (s.reply q Status.badParam []))

/-- A request is answered with the first check that it fails: For every command of the catalogue and every local request that Decik takes: LEN above 4,080 is BAD_LENGTH; then a TAG of 0 or of an open request, or a reserved bit or byte that is not 0, is BAD_PARAM; then a command the channel does not permit is NOT_PERMITTED; then a LEN the command does not allow is BAD_LENGTH; then a missing authorisation block is TAMPER_LOCK under tamper and AUTH_FAILED otherwise; then a state in which the command is not accepted is WRONG_STATE; then a failed version check is VERSION_MISMATCH. While Decik is stopped, or the channel has no room, nothing happens. -/
def Obligations.RequestChecksInOrder : Prop :=
  ∀ (c : Cmd) (s : State) (r : Request) (q : OpenReq) (d : List Nat),
    q = s.asked r c.opcode → d = r.payload →
    (s.decikRuns = false → s.serve c r = s) ∧
    (s.mayConsume r.ch.val = false → r.ch.val ≠ 3 → s.serve c r = s) ∧
    (s.decikRuns = true → s.mayConsume r.ch.val = true →
      (4080 < r.len → s.serve c r = s.reply q Status.badLength []) ∧
      (r.len ≤ 4080 →
        ((r.tag % 65536 = 0 ∨ (∃ o ∈ s.opensOf r.ch.val, o.tag = r.tag % 65536) ∨ r.flags / 4 ≠ 0 ∨ r.rsv ≠ 0) →
          s.serve c r = s.reply q Status.badParam []) ∧
        (r.tag % 65536 ≠ 0 → (∀ o ∈ s.opensOf r.ch.val, o.tag ≠ r.tag % 65536) → (r.flags = 0 ∨ r.flags = 1) → r.rsv = 0 →
          (s.permits c r.ch.val d = false → s.serve c r = s.reply q Status.notPermitted []) ∧
          (s.permits c r.ch.val d = true →
            (c.len d = false → s.serve c r = s.reply q Status.badLength []) ∧
            (c.len d = true → r.flags = 0 → c.auth s r.ch.val d = true → s.flag SEC.STAT.TAMPER = true → c.opcode ≠ 0x0A05 →
              s.serve c r = s.reply q Status.tamperLock []) ∧
            (c.len d = true → r.flags = 0 → c.auth s r.ch.val d = true → s.flag SEC.STAT.TAMPER = false →
              s.serve c r = s.reply q Status.authFailed []) ∧
            (c.len d = true → r.flags = 0 → c.auth s r.ch.val d = false →
              ((s.modeAccepts c.opcode = false ∨ c.accept s d = false) → s.serve c r = s.reply q Status.wrongState []) ∧
              (s.modeAccepts c.opcode = true → c.accept s d = true → c.versioned = true →
                s.versionOk r.cfgver (c.effective s d) = false → s.serve c r = s.reply q Status.versionMismatch []))))))

/-- TICK_SEQ and TICK_PHASE are sampled together: A read of GLB.TICK_SEQ at a phase p of the tick, followed at once by a read of GLB.TICK_PHASE at any phase, answers the sequence number and then p. After any read at another register, aligned or not, after any write that is no whole aligned word, and after a write of PWR.WAKE_TO0, a read of GLB.TICK_PHASE answers the phase at which it is made. -/
def Obligations.TickPositionIsReadConsistently : Prop :=
  (∀ (s : State) (p x : Fin 20854), s.domOn (regDomain GLB.TICK_SEQ.off) = true →
    ∃ t u, exec (.tickSeqRead p) s = .next t ∧ t.outbox = s.outbox ++ [.hostRead (s.word GLB.TICK_SEQ.off).toNat] ∧
      exec (.rcFieldRead GLB.TICK_PHASE.off 4 x) t = .next u ∧ u.outbox = t.outbox ++ [.hostRead p.val]) ∧
  (∀ (s t : State) (a n : Nat) (p x : Fin 20854), a / 4 * 4 ≠ GLB.TICK_SEQ.off → exec (.rcFieldRead a n p) s = .next t →
    t.domOn (regDomain GLB.TICK_SEQ.off) = true →
    ∃ u, exec (.rcFieldRead GLB.TICK_PHASE.off 4 x) t = .next u ∧ u.outbox = t.outbox ++ [.hostRead x.val]) ∧
  (∀ (s t : State) (a : Nat) (e : Fin 16) (w : Word) (x : Fin 20854),
    wholeWord a e.val = false ∨ (a = PWR.WAKE_TO0.off ∧ e.val = 15) →
    exec (.registerWrite a e w) s = .next t → t.domOn (regDomain GLB.TICK_SEQ.off) = true →
    ∃ u, exec (.rcFieldRead GLB.TICK_PHASE.off 4 x) t = .next u ∧ u.outbox = t.outbox ++ [.hostRead x.val])

/-- Which of two masters is the better one: For any two masters with 16-bit epochs, the first is better exactly when its EPOCH is later (their difference modulo 65,536 lies between 1 and 32,767), or the epochs are equal and its RANK is higher, or those are equal too and its UID is lower. No master is better than itself, and of two different masters whose epochs do not differ by exactly 32,768, one is better than the other and not the other way round. -/
def Obligations.BetterMaster : Prop :=
  ∀ (ex rx ey ry : Nat) (ux uy : DWord), ex < 65536 → ey < 65536 →
    (betterMaster ex rx ux ey ry uy = true ↔
      (1 ≤ ((ex : Int) - ey) % 65536 ∧ ((ex : Int) - ey) % 65536 ≤ 32767) ∨ (ex = ey ∧ (ry < rx ∨ (rx = ry ∧ ux < uy)))) ∧
    betterMaster ex rx ux ex rx ux = false ∧
    (((ex : Int) - ey) % 65536 ≠ 32768 → (ex ≠ ey ∨ rx ≠ ry ∨ ux ≠ uy) →
      betterMaster ex rx ux ey ry uy = !betterMaster ey ry uy ex rx ux)

/-- The pattern of the canary pages: Word i of the canary page of bank b is the sum of the rule modulo 2^32, with 0x5A5A5A5A added by exclusive or where i is odd. For every word, two different sleep counts below 2^32 give different patterns, and so do two different banks, so a page left from an earlier sleep or from another bank fails the check. -/
def Obligations.CanaryPattern : Prop :=
  (∀ n b i : Nat, i % 2 = 0 → canaryWord n b i = (n * 0x9E3779B9 + b * 0x01000193 + i * 0x01010101) % 2 ^ 32) ∧
  (∀ n b i : Nat, i % 2 = 1 → canaryWord n b i = (n * 0x9E3779B9 + b * 0x01000193 + i * 0x01010101) % 2 ^ 32 ^^^ 0x5A5A5A5A) ∧
  (∀ n m b i : Nat, n < 2 ^ 32 → m < 2 ^ 32 → n ≠ m → canaryWord n b i ≠ canaryWord m b i) ∧
  (∀ n b c i : Nat, b < 16 → c < 16 → b ≠ c → canaryWord n b i ≠ canaryWord n c i)

/-- Malformed pause frames, and valid ones under PAUSE_IGN: A MAC control frame that arrives whole at a port that is up, with an opcode other than 1, or a destination that is neither the group address nor the port's, or a length other than 64 bytes with its check sequence, is counted RX_PAUSE_BAD (counter 6) and sets PAUSE_BAD, and nothing else. With PAUSE_IGN set, a valid one is counted RX_PAUSE (counter 5), and nothing else. -/
def Obligations.PauseFramesThatAreDropped : Prop :=
  ∀ (s u t : State) (p : Fin 2) (f : EthRx), s.ethUp p.val = true → rxFault f = none → f.bufFull = false →
    ethType f.bytes = 0x8808 → u = s.rxCounted p.val f.bytes → t = u.ethCount p.val 5 1 →
    ((beAt f.bytes 14 2 ≠ 1 ∨ (ethDst f.bytes ≠ 0x0180C2000001 ∧ ethDst f.bytes ≠ u.ethMac p.val) ∨ f.bytes.length ≠ 60) →
      exec (.ethFrameReceive p f) s = .next ((u.ethCount p.val 6 1).evt (ETH.ERR_EVT.PAUSE_BAD p.val) 1 (ethSrcErr p.val))) ∧
    (beAt f.bytes 14 2 = 1 → (ethDst f.bytes = 0x0180C2000001 ∨ ethDst f.bytes = u.ethMac p.val) → f.bytes.length = 60 →
      t.flag (ETH.CFG.PAUSE_IGN p.val) = true → exec (.ethFrameReceive p f) s = .next t)
end

