-- ==== Sys2Proof/Laws/Sparse.lean ====
section
/-! SUPPORT. The laws of the sparse tables: a read after a write, and the canonical form kept. -/

namespace Sys2Proof.Machine

variable {α : Type}

theorem Sparse.get_erase_self (d : Nat → α) (l : List (Nat × α)) (a : Nat) :
    Sparse.get d (Sparse.erase l a) a = d a := by
  induction l with
  | nil => rfl
  | cons e t ih =>
    obtain ⟨k, v⟩ := e
    by_cases h : k = a <;> simp [Sparse.erase, Sparse.get, h, ih]

theorem Sparse.get_erase_ne (d : Nat → α) (l : List (Nat × α)) {a b : Nat} (h : b ≠ a) :
    Sparse.get d (Sparse.erase l a) b = Sparse.get d l b := by
  induction l with
  | nil => rfl
  | cons e t ih =>
    obtain ⟨k, v⟩ := e
    by_cases hk : k = a
    · have hb : k ≠ b := fun e => h (e.symm.trans hk)
      simp [Sparse.erase, Sparse.get, hk, ih]
      intro e; exact absurd e.symm h
    · simp only [Sparse.erase, hk, if_false, Sparse.get, ih]

theorem Sparse.get_insert_ne (d : Nat → α) (l : List (Nat × α)) {a b : Nat} (x : α) (h : b ≠ a) :
    Sparse.get d (Sparse.insert l a x) b = Sparse.get d l b := by
  induction l with
  | nil => simp [Sparse.insert, Sparse.get, Ne.symm h]
  | cons e t ih =>
    obtain ⟨k, v⟩ := e
    by_cases hk : a < k
    · simp [Sparse.insert, Sparse.get, hk, Ne.symm h]
    · simp only [Sparse.insert, hk, if_false, Sparse.get, ih]

theorem Sparse.get_insert_erase (d : Nat → α) (l : List (Nat × α)) (a : Nat) (x : α) :
    Sparse.get d (Sparse.insert (Sparse.erase l a) a x) a = x := by
  induction l with
  | nil => simp [Sparse.erase, Sparse.insert, Sparse.get]
  | cons e t ih =>
    obtain ⟨k, v⟩ := e
    by_cases h : k = a
    · simpa [Sparse.erase, h] using ih
    · by_cases hl : a < k <;> simp [Sparse.erase, Sparse.insert, Sparse.get, h, hl, ih]

/-- A read of the written key gives the value written. -/
@[simp] theorem Sparse.get_put_self [DecidableEq α] (d : Nat → α) (l : List (Nat × α)) (a : Nat) (x : α) :
    Sparse.get d (Sparse.put d l a x) a = x := by
  unfold Sparse.put
  split
  · rename_i h; rw [h, Sparse.get_erase_self]
  · exact Sparse.get_insert_erase d l a x

/-- A write leaves every other key alone. -/
theorem Sparse.get_put_ne [DecidableEq α] (d : Nat → α) (l : List (Nat × α)) {a b : Nat} (x : α) (h : b ≠ a) :
    Sparse.get d (Sparse.put d l a x) b = Sparse.get d l b := by
  unfold Sparse.put
  split
  · exact Sparse.get_erase_ne d l h
  · rw [Sparse.get_insert_ne d _ x h, Sparse.get_erase_ne d l h]

theorem Sparse.risingFrom_weaken {lo lo' : Option Nat} (l : List (Nat × α))
    (h : ∀ b, lo' = some b → ∃ c, lo = some c ∧ b ≤ c) (hr : Sparse.risingFrom lo l = true) :
    Sparse.risingFrom lo' l = true := by
  cases l with
  | nil => rfl
  | cons e t =>
    obtain ⟨k, v⟩ := e
    simp only [Sparse.risingFrom, Bool.and_eq_true] at hr ⊢
    refine ⟨?_, hr.2⟩
    cases lo' with
    | none => rfl
    | some b =>
      obtain ⟨c, rfl, hc⟩ := h b rfl
      have := hr.1
      simp only [decide_eq_true_eq] at this ⊢
      omega

theorem Sparse.risingFrom_erase (lo : Option Nat) (l : List (Nat × α)) (a : Nat)
    (h : Sparse.risingFrom lo l = true) : Sparse.risingFrom lo (Sparse.erase l a) = true := by
  induction l generalizing lo with
  | nil => rfl
  | cons e t ih =>
    obtain ⟨k, v⟩ := e
    simp only [Sparse.risingFrom, Bool.and_eq_true] at h
    by_cases hk : k = a
    · simp only [Sparse.erase, hk, if_true]
      apply ih
      refine Sparse.risingFrom_weaken t ?_ h.2
      intro b hb
      refine ⟨k, rfl, ?_⟩
      subst hb
      have := h.1
      simp only [decide_eq_true_eq] at this
      omega
    · simp only [Sparse.erase, hk, if_false, Sparse.risingFrom, Bool.and_eq_true]
      exact ⟨h.1, ih _ h.2⟩

theorem Sparse.risingFrom_insert (lo : Option Nat) (l : List (Nat × α)) (a : Nat) (x : α)
    (h : Sparse.risingFrom lo l = true) (hlo : ∀ b, lo = some b → b < a) (hn : ∀ e ∈ l, e.1 ≠ a) :
    Sparse.risingFrom lo (Sparse.insert l a x) = true := by
  induction l generalizing lo with
  | nil => cases lo <;> simp_all [Sparse.insert, Sparse.risingFrom]
  | cons e t ih =>
    obtain ⟨k, v⟩ := e
    simp only [Sparse.risingFrom, Bool.and_eq_true] at h
    by_cases hk : a < k
    · simp only [Sparse.insert, hk, if_true, Sparse.risingFrom, Bool.and_eq_true, decide_eq_true_eq]
      refine ⟨?_, trivial, h.2⟩
      cases lo with
      | none => rfl
      | some b => simpa using hlo b rfl
    · simp only [Sparse.insert, hk, if_false, Sparse.risingFrom, Bool.and_eq_true]
      refine ⟨h.1, ih _ h.2 ?_ (fun e he => hn e (List.mem_cons_of_mem _ he))⟩
      intro b hb
      have hne := hn (k, v) (List.mem_cons_self ..)
      simp only [Option.some.injEq] at hb
      simp only at hne
      omega

theorem Sparse.erase_key_ne (l : List (Nat × α)) (a : Nat) : ∀ e ∈ Sparse.erase l a, e.1 ≠ a := by
  induction l with
  | nil => simp [Sparse.erase]
  | cons e t ih =>
    obtain ⟨k, v⟩ := e
    by_cases hk : k = a
    · simpa [Sparse.erase, hk] using ih
    · simp only [Sparse.erase, hk, if_false, List.mem_cons]
      rintro e (rfl | he)
      · exact hk
      · exact ih e he

theorem Sparse.mem_erase {l : List (Nat × α)} {a : Nat} {e : Nat × α} (h : e ∈ Sparse.erase l a) : e ∈ l := by
  induction l with
  | nil => simp [Sparse.erase] at h
  | cons f t ih =>
    obtain ⟨k, v⟩ := f
    by_cases hk : k = a
    · simp only [Sparse.erase, hk, if_true] at h
      exact List.mem_cons_of_mem _ (ih h)
    · simp only [Sparse.erase, hk, if_false, List.mem_cons] at h
      rcases h with rfl | h
      · exact List.mem_cons_self ..
      · exact List.mem_cons_of_mem _ (ih h)

theorem Sparse.mem_insert {l : List (Nat × α)} {a : Nat} {x : α} {e : Nat × α}
    (h : e ∈ Sparse.insert l a x) : e = (a, x) ∨ e ∈ l := by
  induction l with
  | nil => simpa [Sparse.insert] using h
  | cons f t ih =>
    obtain ⟨k, v⟩ := f
    by_cases hk : a < k
    · simpa only [Sparse.insert, hk, if_true, List.mem_cons] using h
    · simp only [Sparse.insert, hk, if_false, List.mem_cons] at h
      rcases h with rfl | h
      · exact .inr (List.mem_cons_self ..)
      · rcases ih h with h | h
        · exact .inl h
        · exact .inr (List.mem_cons_of_mem _ h)

/-- A write keeps the canonical form. -/
theorem Sparse.wf_put [DecidableEq α] (d : Nat → α) (l : List (Nat × α)) (a : Nat) (x : α)
    (h : Sparse.wf d l = true) : Sparse.wf d (Sparse.put d l a x) = true := by
  simp only [Sparse.wf, Bool.and_eq_true, List.all_eq_true, decide_eq_true_eq] at h ⊢
  unfold Sparse.put
  split
  · exact ⟨Sparse.risingFrom_erase _ _ _ h.1, fun e he => h.2 e (Sparse.mem_erase he)⟩
  · rename_i hx
    refine ⟨Sparse.risingFrom_insert _ _ _ _ (Sparse.risingFrom_erase _ _ _ h.1) (by simp)
      (Sparse.erase_key_ne l a), ?_⟩
    intro e he
    rcases Sparse.mem_insert he with rfl | he
    · exact hx
    · exact h.2 e (Sparse.mem_erase he)

end Sys2Proof.Machine
end

