-- ==== Sys2Proof/Laws/State.lean ====
section
/-! SUPPORT. What the updates of single parts of the state leave unchanged: one lemma per field and update. -/

namespace Sys2Proof.Machine

/-! ## State.setWord -/

@[simp] theorem State.setWord_pending (s : State) (off : Nat) (w : Word) : (s.setWord off w).pending = s.pending := rfl
@[simp] theorem State.setWord_free (s : State) (off : Nat) (w : Word) : (s.setWord off w).free = s.free := rfl
@[simp] theorem State.setWord_store (s : State) (off : Nat) (w : Word) : (s.setWord off w).store = s.store := rfl
@[simp] theorem State.setWord_outbox (s : State) (off : Nat) (w : Word) : (s.setWord off w).outbox = s.outbox := rfl
@[simp] theorem State.setWord_mem (s : State) (off : Nat) (w : Word) : (s.setWord off w).mem = s.mem := rfl
@[simp] theorem State.setWord_brg (s : State) (off : Nat) (w : Word) : (s.setWord off w).brg = s.brg := rfl
@[simp] theorem State.setWord_totals (s : State) (off : Nat) (w : Word) : (s.setWord off w).totals = s.totals := rfl
@[simp] theorem State.setWord_mbx (s : State) (off : Nat) (w : Word) : (s.setWord off w).mbx = s.mbx := rfl
@[simp] theorem State.setWord_units (s : State) (off : Nat) (w : Word) : (s.setWord off w).units = s.units := rfl
@[simp] theorem State.setWord_cfg (s : State) (off : Nat) (w : Word) : (s.setWord off w).cfg = s.cfg := rfl
@[simp] theorem State.setWord_straps (s : State) (off : Nat) (w : Word) : (s.setWord off w).straps = s.straps := rfl
@[simp] theorem State.setWord_uid (s : State) (off : Nat) (w : Word) : (s.setWord off w).uid = s.uid := rfl
@[simp] theorem State.setWord_decik (s : State) (off : Nat) (w : Word) : (s.setWord off w).decik = s.decik := rfl
@[simp] theorem State.setWord_jobs (s : State) (off : Nat) (w : Word) : (s.setWord off w).jobs = s.jobs := rfl
@[simp] theorem State.setWord_links (s : State) (off : Nat) (w : Word) : (s.setWord off w).links = s.links := rfl
@[simp] theorem State.setWord_ring (s : State) (off : Nat) (w : Word) : (s.setWord off w).ring = s.ring := rfl
@[simp] theorem State.setWord_inaug (s : State) (off : Nat) (w : Word) : (s.setWord off w).inaug = s.inaug := rfl
@[simp] theorem State.setWord_dring (s : State) (off : Nat) (w : Word) : (s.setWord off w).dring = s.dring := rfl
@[simp] theorem State.setWord_red (s : State) (off : Nat) (w : Word) : (s.setWord off w).red = s.red := rfl
@[simp] theorem State.setWord_aud (s : State) (off : Nat) (w : Word) : (s.setWord off w).aud = s.aud := rfl
@[simp] theorem State.setWord_vox (s : State) (off : Nat) (w : Word) : (s.setWord off w).vox = s.vox := rfl
@[simp] theorem State.setWord_clk (s : State) (off : Nat) (w : Word) : (s.setWord off w).clk = s.clk := rfl
@[simp] theorem State.setWord_rtc (s : State) (off : Nat) (w : Word) : (s.setWord off w).rtc = s.rtc := rfl
@[simp] theorem State.setWord_pins (s : State) (off : Nat) (w : Word) : (s.setWord off w).pins = s.pins := rfl
@[simp] theorem State.setWord_claim (s : State) (off : Nat) (w : Word) : (s.setWord off w).claim = s.claim := rfl
@[simp] theorem State.setWord_engines (s : State) (off : Nat) (w : Word) : (s.setWord off w).engines = s.engines := rfl
@[simp] theorem State.setWord_msix (s : State) (off : Nat) (w : Word) : (s.setWord off w).msix = s.msix := rfl
@[simp] theorem State.setWord_evr (s : State) (off : Nat) (w : Word) : (s.setWord off w).evr = s.evr := rfl
@[simp] theorem State.setWord_eth (s : State) (off : Nat) (w : Word) : (s.setWord off w).eth = s.eth := rfl
@[simp] theorem State.setWord_can (s : State) (off : Nat) (w : Word) : (s.setWord off w).can = s.can := rfl
@[simp] theorem State.setWord_stk (s : State) (off : Nat) (w : Word) : (s.setWord off w).stk = s.stk := rfl
@[simp] theorem State.setWord_pwr (s : State) (off : Nat) (w : Word) : (s.setWord off w).pwr = s.pwr := rfl
@[simp] theorem State.setWord_net (s : State) (off : Nat) (w : Word) : (s.setWord off w).net = s.net := rfl
@[simp] theorem State.setWord_sec (s : State) (off : Nat) (w : Word) : (s.setWord off w).sec = s.sec := rfl
@[simp] theorem State.setWord_storeTest (s : State) (off : Nat) (w : Word) : (s.setWord off w).storeTest = s.storeTest := rfl
@[simp] theorem State.setWord_dio (s : State) (off : Nat) (w : Word) : (s.setWord off w).dio = s.dio := rfl

/-! ## State.set -/

@[simp] theorem State.set_pending (s : State) (f : Fld) (x : Nat) : (s.set f x).pending = s.pending := rfl
@[simp] theorem State.set_free (s : State) (f : Fld) (x : Nat) : (s.set f x).free = s.free := rfl
@[simp] theorem State.set_store (s : State) (f : Fld) (x : Nat) : (s.set f x).store = s.store := rfl
@[simp] theorem State.set_outbox (s : State) (f : Fld) (x : Nat) : (s.set f x).outbox = s.outbox := rfl
@[simp] theorem State.set_mem (s : State) (f : Fld) (x : Nat) : (s.set f x).mem = s.mem := rfl
@[simp] theorem State.set_brg (s : State) (f : Fld) (x : Nat) : (s.set f x).brg = s.brg := rfl
@[simp] theorem State.set_totals (s : State) (f : Fld) (x : Nat) : (s.set f x).totals = s.totals := rfl
@[simp] theorem State.set_mbx (s : State) (f : Fld) (x : Nat) : (s.set f x).mbx = s.mbx := rfl
@[simp] theorem State.set_units (s : State) (f : Fld) (x : Nat) : (s.set f x).units = s.units := rfl
@[simp] theorem State.set_cfg (s : State) (f : Fld) (x : Nat) : (s.set f x).cfg = s.cfg := rfl
@[simp] theorem State.set_straps (s : State) (f : Fld) (x : Nat) : (s.set f x).straps = s.straps := rfl
@[simp] theorem State.set_uid (s : State) (f : Fld) (x : Nat) : (s.set f x).uid = s.uid := rfl
@[simp] theorem State.set_decik (s : State) (f : Fld) (x : Nat) : (s.set f x).decik = s.decik := rfl
@[simp] theorem State.set_jobs (s : State) (f : Fld) (x : Nat) : (s.set f x).jobs = s.jobs := rfl
@[simp] theorem State.set_links (s : State) (f : Fld) (x : Nat) : (s.set f x).links = s.links := rfl
@[simp] theorem State.set_ring (s : State) (f : Fld) (x : Nat) : (s.set f x).ring = s.ring := rfl
@[simp] theorem State.set_inaug (s : State) (f : Fld) (x : Nat) : (s.set f x).inaug = s.inaug := rfl
@[simp] theorem State.set_dring (s : State) (f : Fld) (x : Nat) : (s.set f x).dring = s.dring := rfl
@[simp] theorem State.set_red (s : State) (f : Fld) (x : Nat) : (s.set f x).red = s.red := rfl
@[simp] theorem State.set_aud (s : State) (f : Fld) (x : Nat) : (s.set f x).aud = s.aud := rfl
@[simp] theorem State.set_vox (s : State) (f : Fld) (x : Nat) : (s.set f x).vox = s.vox := rfl
@[simp] theorem State.set_clk (s : State) (f : Fld) (x : Nat) : (s.set f x).clk = s.clk := rfl
@[simp] theorem State.set_rtc (s : State) (f : Fld) (x : Nat) : (s.set f x).rtc = s.rtc := rfl
@[simp] theorem State.set_pins (s : State) (f : Fld) (x : Nat) : (s.set f x).pins = s.pins := rfl
@[simp] theorem State.set_claim (s : State) (f : Fld) (x : Nat) : (s.set f x).claim = s.claim := rfl
@[simp] theorem State.set_engines (s : State) (f : Fld) (x : Nat) : (s.set f x).engines = s.engines := rfl
@[simp] theorem State.set_msix (s : State) (f : Fld) (x : Nat) : (s.set f x).msix = s.msix := rfl
@[simp] theorem State.set_evr (s : State) (f : Fld) (x : Nat) : (s.set f x).evr = s.evr := rfl
@[simp] theorem State.set_eth (s : State) (f : Fld) (x : Nat) : (s.set f x).eth = s.eth := rfl
@[simp] theorem State.set_can (s : State) (f : Fld) (x : Nat) : (s.set f x).can = s.can := rfl
@[simp] theorem State.set_stk (s : State) (f : Fld) (x : Nat) : (s.set f x).stk = s.stk := rfl
@[simp] theorem State.set_pwr (s : State) (f : Fld) (x : Nat) : (s.set f x).pwr = s.pwr := rfl
@[simp] theorem State.set_net (s : State) (f : Fld) (x : Nat) : (s.set f x).net = s.net := rfl
@[simp] theorem State.set_sec (s : State) (f : Fld) (x : Nat) : (s.set f x).sec = s.sec := rfl
@[simp] theorem State.set_storeTest (s : State) (f : Fld) (x : Nat) : (s.set f x).storeTest = s.storeTest := rfl
@[simp] theorem State.set_dio (s : State) (f : Fld) (x : Nat) : (s.set f x).dio = s.dio := rfl

/-! ## State.setFlag -/

@[simp] theorem State.setFlag_pending (s : State) (f : Fld) (b : Bool) : (s.setFlag f b).pending = s.pending := rfl
@[simp] theorem State.setFlag_free (s : State) (f : Fld) (b : Bool) : (s.setFlag f b).free = s.free := rfl
@[simp] theorem State.setFlag_store (s : State) (f : Fld) (b : Bool) : (s.setFlag f b).store = s.store := rfl
@[simp] theorem State.setFlag_outbox (s : State) (f : Fld) (b : Bool) : (s.setFlag f b).outbox = s.outbox := rfl
@[simp] theorem State.setFlag_mem (s : State) (f : Fld) (b : Bool) : (s.setFlag f b).mem = s.mem := rfl
@[simp] theorem State.setFlag_brg (s : State) (f : Fld) (b : Bool) : (s.setFlag f b).brg = s.brg := rfl
@[simp] theorem State.setFlag_totals (s : State) (f : Fld) (b : Bool) : (s.setFlag f b).totals = s.totals := rfl
@[simp] theorem State.setFlag_mbx (s : State) (f : Fld) (b : Bool) : (s.setFlag f b).mbx = s.mbx := rfl
@[simp] theorem State.setFlag_units (s : State) (f : Fld) (b : Bool) : (s.setFlag f b).units = s.units := rfl
@[simp] theorem State.setFlag_cfg (s : State) (f : Fld) (b : Bool) : (s.setFlag f b).cfg = s.cfg := rfl
@[simp] theorem State.setFlag_straps (s : State) (f : Fld) (b : Bool) : (s.setFlag f b).straps = s.straps := rfl
@[simp] theorem State.setFlag_uid (s : State) (f : Fld) (b : Bool) : (s.setFlag f b).uid = s.uid := rfl
@[simp] theorem State.setFlag_decik (s : State) (f : Fld) (b : Bool) : (s.setFlag f b).decik = s.decik := rfl
@[simp] theorem State.setFlag_jobs (s : State) (f : Fld) (b : Bool) : (s.setFlag f b).jobs = s.jobs := rfl
@[simp] theorem State.setFlag_links (s : State) (f : Fld) (b : Bool) : (s.setFlag f b).links = s.links := rfl
@[simp] theorem State.setFlag_ring (s : State) (f : Fld) (b : Bool) : (s.setFlag f b).ring = s.ring := rfl
@[simp] theorem State.setFlag_inaug (s : State) (f : Fld) (b : Bool) : (s.setFlag f b).inaug = s.inaug := rfl
@[simp] theorem State.setFlag_dring (s : State) (f : Fld) (b : Bool) : (s.setFlag f b).dring = s.dring := rfl
@[simp] theorem State.setFlag_red (s : State) (f : Fld) (b : Bool) : (s.setFlag f b).red = s.red := rfl
@[simp] theorem State.setFlag_aud (s : State) (f : Fld) (b : Bool) : (s.setFlag f b).aud = s.aud := rfl
@[simp] theorem State.setFlag_vox (s : State) (f : Fld) (b : Bool) : (s.setFlag f b).vox = s.vox := rfl
@[simp] theorem State.setFlag_clk (s : State) (f : Fld) (b : Bool) : (s.setFlag f b).clk = s.clk := rfl
@[simp] theorem State.setFlag_rtc (s : State) (f : Fld) (b : Bool) : (s.setFlag f b).rtc = s.rtc := rfl
@[simp] theorem State.setFlag_pins (s : State) (f : Fld) (b : Bool) : (s.setFlag f b).pins = s.pins := rfl
@[simp] theorem State.setFlag_claim (s : State) (f : Fld) (b : Bool) : (s.setFlag f b).claim = s.claim := rfl
@[simp] theorem State.setFlag_engines (s : State) (f : Fld) (b : Bool) : (s.setFlag f b).engines = s.engines := rfl
@[simp] theorem State.setFlag_msix (s : State) (f : Fld) (b : Bool) : (s.setFlag f b).msix = s.msix := rfl
@[simp] theorem State.setFlag_evr (s : State) (f : Fld) (b : Bool) : (s.setFlag f b).evr = s.evr := rfl
@[simp] theorem State.setFlag_eth (s : State) (f : Fld) (b : Bool) : (s.setFlag f b).eth = s.eth := rfl
@[simp] theorem State.setFlag_can (s : State) (f : Fld) (b : Bool) : (s.setFlag f b).can = s.can := rfl
@[simp] theorem State.setFlag_stk (s : State) (f : Fld) (b : Bool) : (s.setFlag f b).stk = s.stk := rfl
@[simp] theorem State.setFlag_pwr (s : State) (f : Fld) (b : Bool) : (s.setFlag f b).pwr = s.pwr := rfl
@[simp] theorem State.setFlag_net (s : State) (f : Fld) (b : Bool) : (s.setFlag f b).net = s.net := rfl
@[simp] theorem State.setFlag_sec (s : State) (f : Fld) (b : Bool) : (s.setFlag f b).sec = s.sec := rfl
@[simp] theorem State.setFlag_storeTest (s : State) (f : Fld) (b : Bool) : (s.setFlag f b).storeTest = s.storeTest := rfl
@[simp] theorem State.setFlag_dio (s : State) (f : Fld) (b : Bool) : (s.setFlag f b).dio = s.dio := rfl

/-! ## State.wrapInc -/

@[simp] theorem State.wrapInc_pending (s : State) (f : Fld) : (s.wrapInc f).pending = s.pending := rfl
@[simp] theorem State.wrapInc_free (s : State) (f : Fld) : (s.wrapInc f).free = s.free := rfl
@[simp] theorem State.wrapInc_store (s : State) (f : Fld) : (s.wrapInc f).store = s.store := rfl
@[simp] theorem State.wrapInc_outbox (s : State) (f : Fld) : (s.wrapInc f).outbox = s.outbox := rfl
@[simp] theorem State.wrapInc_mem (s : State) (f : Fld) : (s.wrapInc f).mem = s.mem := rfl
@[simp] theorem State.wrapInc_brg (s : State) (f : Fld) : (s.wrapInc f).brg = s.brg := rfl
@[simp] theorem State.wrapInc_totals (s : State) (f : Fld) : (s.wrapInc f).totals = s.totals := rfl
@[simp] theorem State.wrapInc_mbx (s : State) (f : Fld) : (s.wrapInc f).mbx = s.mbx := rfl
@[simp] theorem State.wrapInc_units (s : State) (f : Fld) : (s.wrapInc f).units = s.units := rfl
@[simp] theorem State.wrapInc_cfg (s : State) (f : Fld) : (s.wrapInc f).cfg = s.cfg := rfl
@[simp] theorem State.wrapInc_straps (s : State) (f : Fld) : (s.wrapInc f).straps = s.straps := rfl
@[simp] theorem State.wrapInc_uid (s : State) (f : Fld) : (s.wrapInc f).uid = s.uid := rfl
@[simp] theorem State.wrapInc_decik (s : State) (f : Fld) : (s.wrapInc f).decik = s.decik := rfl
@[simp] theorem State.wrapInc_jobs (s : State) (f : Fld) : (s.wrapInc f).jobs = s.jobs := rfl
@[simp] theorem State.wrapInc_links (s : State) (f : Fld) : (s.wrapInc f).links = s.links := rfl
@[simp] theorem State.wrapInc_ring (s : State) (f : Fld) : (s.wrapInc f).ring = s.ring := rfl
@[simp] theorem State.wrapInc_inaug (s : State) (f : Fld) : (s.wrapInc f).inaug = s.inaug := rfl
@[simp] theorem State.wrapInc_dring (s : State) (f : Fld) : (s.wrapInc f).dring = s.dring := rfl
@[simp] theorem State.wrapInc_red (s : State) (f : Fld) : (s.wrapInc f).red = s.red := rfl
@[simp] theorem State.wrapInc_aud (s : State) (f : Fld) : (s.wrapInc f).aud = s.aud := rfl
@[simp] theorem State.wrapInc_vox (s : State) (f : Fld) : (s.wrapInc f).vox = s.vox := rfl
@[simp] theorem State.wrapInc_clk (s : State) (f : Fld) : (s.wrapInc f).clk = s.clk := rfl
@[simp] theorem State.wrapInc_rtc (s : State) (f : Fld) : (s.wrapInc f).rtc = s.rtc := rfl
@[simp] theorem State.wrapInc_pins (s : State) (f : Fld) : (s.wrapInc f).pins = s.pins := rfl
@[simp] theorem State.wrapInc_claim (s : State) (f : Fld) : (s.wrapInc f).claim = s.claim := rfl
@[simp] theorem State.wrapInc_engines (s : State) (f : Fld) : (s.wrapInc f).engines = s.engines := rfl
@[simp] theorem State.wrapInc_msix (s : State) (f : Fld) : (s.wrapInc f).msix = s.msix := rfl
@[simp] theorem State.wrapInc_evr (s : State) (f : Fld) : (s.wrapInc f).evr = s.evr := rfl
@[simp] theorem State.wrapInc_eth (s : State) (f : Fld) : (s.wrapInc f).eth = s.eth := rfl
@[simp] theorem State.wrapInc_can (s : State) (f : Fld) : (s.wrapInc f).can = s.can := rfl
@[simp] theorem State.wrapInc_stk (s : State) (f : Fld) : (s.wrapInc f).stk = s.stk := rfl
@[simp] theorem State.wrapInc_pwr (s : State) (f : Fld) : (s.wrapInc f).pwr = s.pwr := rfl
@[simp] theorem State.wrapInc_net (s : State) (f : Fld) : (s.wrapInc f).net = s.net := rfl
@[simp] theorem State.wrapInc_sec (s : State) (f : Fld) : (s.wrapInc f).sec = s.sec := rfl
@[simp] theorem State.wrapInc_storeTest (s : State) (f : Fld) : (s.wrapInc f).storeTest = s.storeTest := rfl
@[simp] theorem State.wrapInc_dio (s : State) (f : Fld) : (s.wrapInc f).dio = s.dio := rfl

/-! ## State.putBit -/

@[simp] theorem State.putBit_pending (s : State) (f : Fld) (i : Nat) (b : Bool) : (s.putBit f i b).pending = s.pending := rfl
@[simp] theorem State.putBit_free (s : State) (f : Fld) (i : Nat) (b : Bool) : (s.putBit f i b).free = s.free := rfl
@[simp] theorem State.putBit_store (s : State) (f : Fld) (i : Nat) (b : Bool) : (s.putBit f i b).store = s.store := rfl
@[simp] theorem State.putBit_outbox (s : State) (f : Fld) (i : Nat) (b : Bool) : (s.putBit f i b).outbox = s.outbox := rfl
@[simp] theorem State.putBit_mem (s : State) (f : Fld) (i : Nat) (b : Bool) : (s.putBit f i b).mem = s.mem := rfl
@[simp] theorem State.putBit_brg (s : State) (f : Fld) (i : Nat) (b : Bool) : (s.putBit f i b).brg = s.brg := rfl
@[simp] theorem State.putBit_totals (s : State) (f : Fld) (i : Nat) (b : Bool) : (s.putBit f i b).totals = s.totals := rfl
@[simp] theorem State.putBit_mbx (s : State) (f : Fld) (i : Nat) (b : Bool) : (s.putBit f i b).mbx = s.mbx := rfl
@[simp] theorem State.putBit_units (s : State) (f : Fld) (i : Nat) (b : Bool) : (s.putBit f i b).units = s.units := rfl
@[simp] theorem State.putBit_cfg (s : State) (f : Fld) (i : Nat) (b : Bool) : (s.putBit f i b).cfg = s.cfg := rfl
@[simp] theorem State.putBit_straps (s : State) (f : Fld) (i : Nat) (b : Bool) : (s.putBit f i b).straps = s.straps := rfl
@[simp] theorem State.putBit_uid (s : State) (f : Fld) (i : Nat) (b : Bool) : (s.putBit f i b).uid = s.uid := rfl
@[simp] theorem State.putBit_decik (s : State) (f : Fld) (i : Nat) (b : Bool) : (s.putBit f i b).decik = s.decik := rfl
@[simp] theorem State.putBit_jobs (s : State) (f : Fld) (i : Nat) (b : Bool) : (s.putBit f i b).jobs = s.jobs := rfl
@[simp] theorem State.putBit_links (s : State) (f : Fld) (i : Nat) (b : Bool) : (s.putBit f i b).links = s.links := rfl
@[simp] theorem State.putBit_ring (s : State) (f : Fld) (i : Nat) (b : Bool) : (s.putBit f i b).ring = s.ring := rfl
@[simp] theorem State.putBit_inaug (s : State) (f : Fld) (i : Nat) (b : Bool) : (s.putBit f i b).inaug = s.inaug := rfl
@[simp] theorem State.putBit_dring (s : State) (f : Fld) (i : Nat) (b : Bool) : (s.putBit f i b).dring = s.dring := rfl
@[simp] theorem State.putBit_red (s : State) (f : Fld) (i : Nat) (b : Bool) : (s.putBit f i b).red = s.red := rfl
@[simp] theorem State.putBit_aud (s : State) (f : Fld) (i : Nat) (b : Bool) : (s.putBit f i b).aud = s.aud := rfl
@[simp] theorem State.putBit_vox (s : State) (f : Fld) (i : Nat) (b : Bool) : (s.putBit f i b).vox = s.vox := rfl
@[simp] theorem State.putBit_clk (s : State) (f : Fld) (i : Nat) (b : Bool) : (s.putBit f i b).clk = s.clk := rfl
@[simp] theorem State.putBit_rtc (s : State) (f : Fld) (i : Nat) (b : Bool) : (s.putBit f i b).rtc = s.rtc := rfl
@[simp] theorem State.putBit_pins (s : State) (f : Fld) (i : Nat) (b : Bool) : (s.putBit f i b).pins = s.pins := rfl
@[simp] theorem State.putBit_claim (s : State) (f : Fld) (i : Nat) (b : Bool) : (s.putBit f i b).claim = s.claim := rfl
@[simp] theorem State.putBit_engines (s : State) (f : Fld) (i : Nat) (b : Bool) : (s.putBit f i b).engines = s.engines := rfl
@[simp] theorem State.putBit_msix (s : State) (f : Fld) (i : Nat) (b : Bool) : (s.putBit f i b).msix = s.msix := rfl
@[simp] theorem State.putBit_evr (s : State) (f : Fld) (i : Nat) (b : Bool) : (s.putBit f i b).evr = s.evr := rfl
@[simp] theorem State.putBit_eth (s : State) (f : Fld) (i : Nat) (b : Bool) : (s.putBit f i b).eth = s.eth := rfl
@[simp] theorem State.putBit_can (s : State) (f : Fld) (i : Nat) (b : Bool) : (s.putBit f i b).can = s.can := rfl
@[simp] theorem State.putBit_stk (s : State) (f : Fld) (i : Nat) (b : Bool) : (s.putBit f i b).stk = s.stk := rfl
@[simp] theorem State.putBit_pwr (s : State) (f : Fld) (i : Nat) (b : Bool) : (s.putBit f i b).pwr = s.pwr := rfl
@[simp] theorem State.putBit_net (s : State) (f : Fld) (i : Nat) (b : Bool) : (s.putBit f i b).net = s.net := rfl
@[simp] theorem State.putBit_sec (s : State) (f : Fld) (i : Nat) (b : Bool) : (s.putBit f i b).sec = s.sec := rfl
@[simp] theorem State.putBit_storeTest (s : State) (f : Fld) (i : Nat) (b : Bool) : (s.putBit f i b).storeTest = s.storeTest := rfl
@[simp] theorem State.putBit_dio (s : State) (f : Fld) (i : Nat) (b : Bool) : (s.putBit f i b).dio = s.dio := rfl

/-! ## State.set64 -/

@[simp] theorem State.set64_pending (s : State) (lo hi : Fld) (x : Nat) : (s.set64 lo hi x).pending = s.pending := rfl
@[simp] theorem State.set64_free (s : State) (lo hi : Fld) (x : Nat) : (s.set64 lo hi x).free = s.free := rfl
@[simp] theorem State.set64_store (s : State) (lo hi : Fld) (x : Nat) : (s.set64 lo hi x).store = s.store := rfl
@[simp] theorem State.set64_outbox (s : State) (lo hi : Fld) (x : Nat) : (s.set64 lo hi x).outbox = s.outbox := rfl
@[simp] theorem State.set64_mem (s : State) (lo hi : Fld) (x : Nat) : (s.set64 lo hi x).mem = s.mem := rfl
@[simp] theorem State.set64_brg (s : State) (lo hi : Fld) (x : Nat) : (s.set64 lo hi x).brg = s.brg := rfl
@[simp] theorem State.set64_totals (s : State) (lo hi : Fld) (x : Nat) : (s.set64 lo hi x).totals = s.totals := rfl
@[simp] theorem State.set64_mbx (s : State) (lo hi : Fld) (x : Nat) : (s.set64 lo hi x).mbx = s.mbx := rfl
@[simp] theorem State.set64_units (s : State) (lo hi : Fld) (x : Nat) : (s.set64 lo hi x).units = s.units := rfl
@[simp] theorem State.set64_cfg (s : State) (lo hi : Fld) (x : Nat) : (s.set64 lo hi x).cfg = s.cfg := rfl
@[simp] theorem State.set64_straps (s : State) (lo hi : Fld) (x : Nat) : (s.set64 lo hi x).straps = s.straps := rfl
@[simp] theorem State.set64_uid (s : State) (lo hi : Fld) (x : Nat) : (s.set64 lo hi x).uid = s.uid := rfl
@[simp] theorem State.set64_decik (s : State) (lo hi : Fld) (x : Nat) : (s.set64 lo hi x).decik = s.decik := rfl
@[simp] theorem State.set64_jobs (s : State) (lo hi : Fld) (x : Nat) : (s.set64 lo hi x).jobs = s.jobs := rfl
@[simp] theorem State.set64_links (s : State) (lo hi : Fld) (x : Nat) : (s.set64 lo hi x).links = s.links := rfl
@[simp] theorem State.set64_ring (s : State) (lo hi : Fld) (x : Nat) : (s.set64 lo hi x).ring = s.ring := rfl
@[simp] theorem State.set64_inaug (s : State) (lo hi : Fld) (x : Nat) : (s.set64 lo hi x).inaug = s.inaug := rfl
@[simp] theorem State.set64_dring (s : State) (lo hi : Fld) (x : Nat) : (s.set64 lo hi x).dring = s.dring := rfl
@[simp] theorem State.set64_red (s : State) (lo hi : Fld) (x : Nat) : (s.set64 lo hi x).red = s.red := rfl
@[simp] theorem State.set64_aud (s : State) (lo hi : Fld) (x : Nat) : (s.set64 lo hi x).aud = s.aud := rfl
@[simp] theorem State.set64_vox (s : State) (lo hi : Fld) (x : Nat) : (s.set64 lo hi x).vox = s.vox := rfl
@[simp] theorem State.set64_clk (s : State) (lo hi : Fld) (x : Nat) : (s.set64 lo hi x).clk = s.clk := rfl
@[simp] theorem State.set64_rtc (s : State) (lo hi : Fld) (x : Nat) : (s.set64 lo hi x).rtc = s.rtc := rfl
@[simp] theorem State.set64_pins (s : State) (lo hi : Fld) (x : Nat) : (s.set64 lo hi x).pins = s.pins := rfl
@[simp] theorem State.set64_claim (s : State) (lo hi : Fld) (x : Nat) : (s.set64 lo hi x).claim = s.claim := rfl
@[simp] theorem State.set64_engines (s : State) (lo hi : Fld) (x : Nat) : (s.set64 lo hi x).engines = s.engines := rfl
@[simp] theorem State.set64_msix (s : State) (lo hi : Fld) (x : Nat) : (s.set64 lo hi x).msix = s.msix := rfl
@[simp] theorem State.set64_evr (s : State) (lo hi : Fld) (x : Nat) : (s.set64 lo hi x).evr = s.evr := rfl
@[simp] theorem State.set64_eth (s : State) (lo hi : Fld) (x : Nat) : (s.set64 lo hi x).eth = s.eth := rfl
@[simp] theorem State.set64_can (s : State) (lo hi : Fld) (x : Nat) : (s.set64 lo hi x).can = s.can := rfl
@[simp] theorem State.set64_stk (s : State) (lo hi : Fld) (x : Nat) : (s.set64 lo hi x).stk = s.stk := rfl
@[simp] theorem State.set64_pwr (s : State) (lo hi : Fld) (x : Nat) : (s.set64 lo hi x).pwr = s.pwr := rfl
@[simp] theorem State.set64_net (s : State) (lo hi : Fld) (x : Nat) : (s.set64 lo hi x).net = s.net := rfl
@[simp] theorem State.set64_sec (s : State) (lo hi : Fld) (x : Nat) : (s.set64 lo hi x).sec = s.sec := rfl
@[simp] theorem State.set64_storeTest (s : State) (lo hi : Fld) (x : Nat) : (s.set64 lo hi x).storeTest = s.storeTest := rfl
@[simp] theorem State.set64_dio (s : State) (lo hi : Fld) (x : Nat) : (s.set64 lo hi x).dio = s.dio := rfl

/-! ## State.resetRegs -/

@[simp] theorem State.resetRegs_pending (s : State) (lo hi : Nat) : (s.resetRegs lo hi).pending = s.pending := rfl
@[simp] theorem State.resetRegs_free (s : State) (lo hi : Nat) : (s.resetRegs lo hi).free = s.free := rfl
@[simp] theorem State.resetRegs_store (s : State) (lo hi : Nat) : (s.resetRegs lo hi).store = s.store := rfl
@[simp] theorem State.resetRegs_outbox (s : State) (lo hi : Nat) : (s.resetRegs lo hi).outbox = s.outbox := rfl
@[simp] theorem State.resetRegs_mem (s : State) (lo hi : Nat) : (s.resetRegs lo hi).mem = s.mem := rfl
@[simp] theorem State.resetRegs_brg (s : State) (lo hi : Nat) : (s.resetRegs lo hi).brg = s.brg := rfl
@[simp] theorem State.resetRegs_totals (s : State) (lo hi : Nat) : (s.resetRegs lo hi).totals = s.totals := rfl
@[simp] theorem State.resetRegs_mbx (s : State) (lo hi : Nat) : (s.resetRegs lo hi).mbx = s.mbx := rfl
@[simp] theorem State.resetRegs_units (s : State) (lo hi : Nat) : (s.resetRegs lo hi).units = s.units := rfl
@[simp] theorem State.resetRegs_cfg (s : State) (lo hi : Nat) : (s.resetRegs lo hi).cfg = s.cfg := rfl
@[simp] theorem State.resetRegs_straps (s : State) (lo hi : Nat) : (s.resetRegs lo hi).straps = s.straps := rfl
@[simp] theorem State.resetRegs_uid (s : State) (lo hi : Nat) : (s.resetRegs lo hi).uid = s.uid := rfl
@[simp] theorem State.resetRegs_decik (s : State) (lo hi : Nat) : (s.resetRegs lo hi).decik = s.decik := rfl
@[simp] theorem State.resetRegs_jobs (s : State) (lo hi : Nat) : (s.resetRegs lo hi).jobs = s.jobs := rfl
@[simp] theorem State.resetRegs_links (s : State) (lo hi : Nat) : (s.resetRegs lo hi).links = s.links := rfl
@[simp] theorem State.resetRegs_ring (s : State) (lo hi : Nat) : (s.resetRegs lo hi).ring = s.ring := rfl
@[simp] theorem State.resetRegs_inaug (s : State) (lo hi : Nat) : (s.resetRegs lo hi).inaug = s.inaug := rfl
@[simp] theorem State.resetRegs_dring (s : State) (lo hi : Nat) : (s.resetRegs lo hi).dring = s.dring := rfl
@[simp] theorem State.resetRegs_red (s : State) (lo hi : Nat) : (s.resetRegs lo hi).red = s.red := rfl
@[simp] theorem State.resetRegs_aud (s : State) (lo hi : Nat) : (s.resetRegs lo hi).aud = s.aud := rfl
@[simp] theorem State.resetRegs_vox (s : State) (lo hi : Nat) : (s.resetRegs lo hi).vox = s.vox := rfl
@[simp] theorem State.resetRegs_clk (s : State) (lo hi : Nat) : (s.resetRegs lo hi).clk = s.clk := rfl
@[simp] theorem State.resetRegs_rtc (s : State) (lo hi : Nat) : (s.resetRegs lo hi).rtc = s.rtc := rfl
@[simp] theorem State.resetRegs_pins (s : State) (lo hi : Nat) : (s.resetRegs lo hi).pins = s.pins := rfl
@[simp] theorem State.resetRegs_claim (s : State) (lo hi : Nat) : (s.resetRegs lo hi).claim = s.claim := rfl
@[simp] theorem State.resetRegs_engines (s : State) (lo hi : Nat) : (s.resetRegs lo hi).engines = s.engines := rfl
@[simp] theorem State.resetRegs_msix (s : State) (lo hi : Nat) : (s.resetRegs lo hi).msix = s.msix := rfl
@[simp] theorem State.resetRegs_evr (s : State) (lo hi : Nat) : (s.resetRegs lo hi).evr = s.evr := rfl
@[simp] theorem State.resetRegs_eth (s : State) (lo hi : Nat) : (s.resetRegs lo hi).eth = s.eth := rfl
@[simp] theorem State.resetRegs_can (s : State) (lo hi : Nat) : (s.resetRegs lo hi).can = s.can := rfl
@[simp] theorem State.resetRegs_stk (s : State) (lo hi : Nat) : (s.resetRegs lo hi).stk = s.stk := rfl
@[simp] theorem State.resetRegs_pwr (s : State) (lo hi : Nat) : (s.resetRegs lo hi).pwr = s.pwr := rfl
@[simp] theorem State.resetRegs_net (s : State) (lo hi : Nat) : (s.resetRegs lo hi).net = s.net := rfl
@[simp] theorem State.resetRegs_sec (s : State) (lo hi : Nat) : (s.resetRegs lo hi).sec = s.sec := rfl
@[simp] theorem State.resetRegs_storeTest (s : State) (lo hi : Nat) : (s.resetRegs lo hi).storeTest = s.storeTest := rfl
@[simp] theorem State.resetRegs_dio (s : State) (lo hi : Nat) : (s.resetRegs lo hi).dio = s.dio := rfl

/-! ## State.tally -/

@[simp] theorem State.tally_pending (s : State) (key d : Nat) : (s.tally key d).pending = s.pending := rfl
@[simp] theorem State.tally_free (s : State) (key d : Nat) : (s.tally key d).free = s.free := rfl
@[simp] theorem State.tally_regs (s : State) (key d : Nat) : (s.tally key d).regs = s.regs := rfl
@[simp] theorem State.tally_store (s : State) (key d : Nat) : (s.tally key d).store = s.store := rfl
@[simp] theorem State.tally_outbox (s : State) (key d : Nat) : (s.tally key d).outbox = s.outbox := rfl
@[simp] theorem State.tally_mem (s : State) (key d : Nat) : (s.tally key d).mem = s.mem := rfl
@[simp] theorem State.tally_brg (s : State) (key d : Nat) : (s.tally key d).brg = s.brg := rfl
@[simp] theorem State.tally_mbx (s : State) (key d : Nat) : (s.tally key d).mbx = s.mbx := rfl
@[simp] theorem State.tally_units (s : State) (key d : Nat) : (s.tally key d).units = s.units := rfl
@[simp] theorem State.tally_cfg (s : State) (key d : Nat) : (s.tally key d).cfg = s.cfg := rfl
@[simp] theorem State.tally_straps (s : State) (key d : Nat) : (s.tally key d).straps = s.straps := rfl
@[simp] theorem State.tally_uid (s : State) (key d : Nat) : (s.tally key d).uid = s.uid := rfl
@[simp] theorem State.tally_decik (s : State) (key d : Nat) : (s.tally key d).decik = s.decik := rfl
@[simp] theorem State.tally_jobs (s : State) (key d : Nat) : (s.tally key d).jobs = s.jobs := rfl
@[simp] theorem State.tally_links (s : State) (key d : Nat) : (s.tally key d).links = s.links := rfl
@[simp] theorem State.tally_ring (s : State) (key d : Nat) : (s.tally key d).ring = s.ring := rfl
@[simp] theorem State.tally_inaug (s : State) (key d : Nat) : (s.tally key d).inaug = s.inaug := rfl
@[simp] theorem State.tally_dring (s : State) (key d : Nat) : (s.tally key d).dring = s.dring := rfl
@[simp] theorem State.tally_red (s : State) (key d : Nat) : (s.tally key d).red = s.red := rfl
@[simp] theorem State.tally_aud (s : State) (key d : Nat) : (s.tally key d).aud = s.aud := rfl
@[simp] theorem State.tally_vox (s : State) (key d : Nat) : (s.tally key d).vox = s.vox := rfl
@[simp] theorem State.tally_clk (s : State) (key d : Nat) : (s.tally key d).clk = s.clk := rfl
@[simp] theorem State.tally_rtc (s : State) (key d : Nat) : (s.tally key d).rtc = s.rtc := rfl
@[simp] theorem State.tally_pins (s : State) (key d : Nat) : (s.tally key d).pins = s.pins := rfl
@[simp] theorem State.tally_claim (s : State) (key d : Nat) : (s.tally key d).claim = s.claim := rfl
@[simp] theorem State.tally_engines (s : State) (key d : Nat) : (s.tally key d).engines = s.engines := rfl
@[simp] theorem State.tally_msix (s : State) (key d : Nat) : (s.tally key d).msix = s.msix := rfl
@[simp] theorem State.tally_evr (s : State) (key d : Nat) : (s.tally key d).evr = s.evr := rfl
@[simp] theorem State.tally_eth (s : State) (key d : Nat) : (s.tally key d).eth = s.eth := rfl
@[simp] theorem State.tally_can (s : State) (key d : Nat) : (s.tally key d).can = s.can := rfl
@[simp] theorem State.tally_stk (s : State) (key d : Nat) : (s.tally key d).stk = s.stk := rfl
@[simp] theorem State.tally_pwr (s : State) (key d : Nat) : (s.tally key d).pwr = s.pwr := rfl
@[simp] theorem State.tally_net (s : State) (key d : Nat) : (s.tally key d).net = s.net := rfl
@[simp] theorem State.tally_sec (s : State) (key d : Nat) : (s.tally key d).sec = s.sec := rfl
@[simp] theorem State.tally_storeTest (s : State) (key d : Nat) : (s.tally key d).storeTest = s.storeTest := rfl
@[simp] theorem State.tally_dio (s : State) (key d : Nat) : (s.tally key d).dio = s.dio := rfl

/-! ## State.count -/

@[simp] theorem State.count_pending (s : State) (f : Fld) (d : Nat) : (s.count f d).pending = s.pending := rfl
@[simp] theorem State.count_free (s : State) (f : Fld) (d : Nat) : (s.count f d).free = s.free := rfl
@[simp] theorem State.count_store (s : State) (f : Fld) (d : Nat) : (s.count f d).store = s.store := rfl
@[simp] theorem State.count_outbox (s : State) (f : Fld) (d : Nat) : (s.count f d).outbox = s.outbox := rfl
@[simp] theorem State.count_mem (s : State) (f : Fld) (d : Nat) : (s.count f d).mem = s.mem := rfl
@[simp] theorem State.count_brg (s : State) (f : Fld) (d : Nat) : (s.count f d).brg = s.brg := rfl
@[simp] theorem State.count_mbx (s : State) (f : Fld) (d : Nat) : (s.count f d).mbx = s.mbx := rfl
@[simp] theorem State.count_units (s : State) (f : Fld) (d : Nat) : (s.count f d).units = s.units := rfl
@[simp] theorem State.count_cfg (s : State) (f : Fld) (d : Nat) : (s.count f d).cfg = s.cfg := rfl
@[simp] theorem State.count_straps (s : State) (f : Fld) (d : Nat) : (s.count f d).straps = s.straps := rfl
@[simp] theorem State.count_uid (s : State) (f : Fld) (d : Nat) : (s.count f d).uid = s.uid := rfl
@[simp] theorem State.count_decik (s : State) (f : Fld) (d : Nat) : (s.count f d).decik = s.decik := rfl
@[simp] theorem State.count_jobs (s : State) (f : Fld) (d : Nat) : (s.count f d).jobs = s.jobs := rfl
@[simp] theorem State.count_links (s : State) (f : Fld) (d : Nat) : (s.count f d).links = s.links := rfl
@[simp] theorem State.count_ring (s : State) (f : Fld) (d : Nat) : (s.count f d).ring = s.ring := rfl
@[simp] theorem State.count_inaug (s : State) (f : Fld) (d : Nat) : (s.count f d).inaug = s.inaug := rfl
@[simp] theorem State.count_dring (s : State) (f : Fld) (d : Nat) : (s.count f d).dring = s.dring := rfl
@[simp] theorem State.count_red (s : State) (f : Fld) (d : Nat) : (s.count f d).red = s.red := rfl
@[simp] theorem State.count_aud (s : State) (f : Fld) (d : Nat) : (s.count f d).aud = s.aud := rfl
@[simp] theorem State.count_vox (s : State) (f : Fld) (d : Nat) : (s.count f d).vox = s.vox := rfl
@[simp] theorem State.count_clk (s : State) (f : Fld) (d : Nat) : (s.count f d).clk = s.clk := rfl
@[simp] theorem State.count_rtc (s : State) (f : Fld) (d : Nat) : (s.count f d).rtc = s.rtc := rfl
@[simp] theorem State.count_pins (s : State) (f : Fld) (d : Nat) : (s.count f d).pins = s.pins := rfl
@[simp] theorem State.count_claim (s : State) (f : Fld) (d : Nat) : (s.count f d).claim = s.claim := rfl
@[simp] theorem State.count_engines (s : State) (f : Fld) (d : Nat) : (s.count f d).engines = s.engines := rfl
@[simp] theorem State.count_msix (s : State) (f : Fld) (d : Nat) : (s.count f d).msix = s.msix := rfl
@[simp] theorem State.count_evr (s : State) (f : Fld) (d : Nat) : (s.count f d).evr = s.evr := rfl
@[simp] theorem State.count_eth (s : State) (f : Fld) (d : Nat) : (s.count f d).eth = s.eth := rfl
@[simp] theorem State.count_can (s : State) (f : Fld) (d : Nat) : (s.count f d).can = s.can := rfl
@[simp] theorem State.count_stk (s : State) (f : Fld) (d : Nat) : (s.count f d).stk = s.stk := rfl
@[simp] theorem State.count_pwr (s : State) (f : Fld) (d : Nat) : (s.count f d).pwr = s.pwr := rfl
@[simp] theorem State.count_net (s : State) (f : Fld) (d : Nat) : (s.count f d).net = s.net := rfl
@[simp] theorem State.count_sec (s : State) (f : Fld) (d : Nat) : (s.count f d).sec = s.sec := rfl
@[simp] theorem State.count_storeTest (s : State) (f : Fld) (d : Nat) : (s.count f d).storeTest = s.storeTest := rfl
@[simp] theorem State.count_dio (s : State) (f : Fld) (d : Nat) : (s.count f d).dio = s.dio := rfl

/-! ## State.emit -/

@[simp] theorem State.emit_pending (s : State) (o : Output) : (s.emit o).pending = s.pending := rfl
@[simp] theorem State.emit_free (s : State) (o : Output) : (s.emit o).free = s.free := rfl
@[simp] theorem State.emit_regs (s : State) (o : Output) : (s.emit o).regs = s.regs := rfl
@[simp] theorem State.emit_store (s : State) (o : Output) : (s.emit o).store = s.store := rfl
@[simp] theorem State.emit_mem (s : State) (o : Output) : (s.emit o).mem = s.mem := rfl
@[simp] theorem State.emit_brg (s : State) (o : Output) : (s.emit o).brg = s.brg := rfl
@[simp] theorem State.emit_totals (s : State) (o : Output) : (s.emit o).totals = s.totals := rfl
@[simp] theorem State.emit_mbx (s : State) (o : Output) : (s.emit o).mbx = s.mbx := rfl
@[simp] theorem State.emit_units (s : State) (o : Output) : (s.emit o).units = s.units := rfl
@[simp] theorem State.emit_cfg (s : State) (o : Output) : (s.emit o).cfg = s.cfg := rfl
@[simp] theorem State.emit_straps (s : State) (o : Output) : (s.emit o).straps = s.straps := rfl
@[simp] theorem State.emit_uid (s : State) (o : Output) : (s.emit o).uid = s.uid := rfl
@[simp] theorem State.emit_decik (s : State) (o : Output) : (s.emit o).decik = s.decik := rfl
@[simp] theorem State.emit_jobs (s : State) (o : Output) : (s.emit o).jobs = s.jobs := rfl
@[simp] theorem State.emit_links (s : State) (o : Output) : (s.emit o).links = s.links := rfl
@[simp] theorem State.emit_ring (s : State) (o : Output) : (s.emit o).ring = s.ring := rfl
@[simp] theorem State.emit_inaug (s : State) (o : Output) : (s.emit o).inaug = s.inaug := rfl
@[simp] theorem State.emit_dring (s : State) (o : Output) : (s.emit o).dring = s.dring := rfl
@[simp] theorem State.emit_red (s : State) (o : Output) : (s.emit o).red = s.red := rfl
@[simp] theorem State.emit_aud (s : State) (o : Output) : (s.emit o).aud = s.aud := rfl
@[simp] theorem State.emit_vox (s : State) (o : Output) : (s.emit o).vox = s.vox := rfl
@[simp] theorem State.emit_clk (s : State) (o : Output) : (s.emit o).clk = s.clk := rfl
@[simp] theorem State.emit_rtc (s : State) (o : Output) : (s.emit o).rtc = s.rtc := rfl
@[simp] theorem State.emit_pins (s : State) (o : Output) : (s.emit o).pins = s.pins := rfl
@[simp] theorem State.emit_claim (s : State) (o : Output) : (s.emit o).claim = s.claim := rfl
@[simp] theorem State.emit_engines (s : State) (o : Output) : (s.emit o).engines = s.engines := rfl
@[simp] theorem State.emit_msix (s : State) (o : Output) : (s.emit o).msix = s.msix := rfl
@[simp] theorem State.emit_evr (s : State) (o : Output) : (s.emit o).evr = s.evr := rfl
@[simp] theorem State.emit_eth (s : State) (o : Output) : (s.emit o).eth = s.eth := rfl
@[simp] theorem State.emit_can (s : State) (o : Output) : (s.emit o).can = s.can := rfl
@[simp] theorem State.emit_stk (s : State) (o : Output) : (s.emit o).stk = s.stk := rfl
@[simp] theorem State.emit_pwr (s : State) (o : Output) : (s.emit o).pwr = s.pwr := rfl
@[simp] theorem State.emit_net (s : State) (o : Output) : (s.emit o).net = s.net := rfl
@[simp] theorem State.emit_sec (s : State) (o : Output) : (s.emit o).sec = s.sec := rfl
@[simp] theorem State.emit_storeTest (s : State) (o : Output) : (s.emit o).storeTest = s.storeTest := rfl
@[simp] theorem State.emit_dio (s : State) (o : Output) : (s.emit o).dio = s.dio := rfl

/-! ## State.define -/

@[simp] theorem State.define_pending (s : State) (a n : Nat) : (s.define a n).pending = s.pending := rfl
@[simp] theorem State.define_free (s : State) (a n : Nat) : (s.define a n).free = s.free := rfl
@[simp] theorem State.define_regs (s : State) (a n : Nat) : (s.define a n).regs = s.regs := rfl
@[simp] theorem State.define_store (s : State) (a n : Nat) : (s.define a n).store = s.store := rfl
@[simp] theorem State.define_outbox (s : State) (a n : Nat) : (s.define a n).outbox = s.outbox := rfl
@[simp] theorem State.define_brg (s : State) (a n : Nat) : (s.define a n).brg = s.brg := rfl
@[simp] theorem State.define_totals (s : State) (a n : Nat) : (s.define a n).totals = s.totals := rfl
@[simp] theorem State.define_mbx (s : State) (a n : Nat) : (s.define a n).mbx = s.mbx := rfl
@[simp] theorem State.define_units (s : State) (a n : Nat) : (s.define a n).units = s.units := rfl
@[simp] theorem State.define_cfg (s : State) (a n : Nat) : (s.define a n).cfg = s.cfg := rfl
@[simp] theorem State.define_straps (s : State) (a n : Nat) : (s.define a n).straps = s.straps := rfl
@[simp] theorem State.define_uid (s : State) (a n : Nat) : (s.define a n).uid = s.uid := rfl
@[simp] theorem State.define_decik (s : State) (a n : Nat) : (s.define a n).decik = s.decik := rfl
@[simp] theorem State.define_jobs (s : State) (a n : Nat) : (s.define a n).jobs = s.jobs := rfl
@[simp] theorem State.define_links (s : State) (a n : Nat) : (s.define a n).links = s.links := rfl
@[simp] theorem State.define_ring (s : State) (a n : Nat) : (s.define a n).ring = s.ring := rfl
@[simp] theorem State.define_inaug (s : State) (a n : Nat) : (s.define a n).inaug = s.inaug := rfl
@[simp] theorem State.define_dring (s : State) (a n : Nat) : (s.define a n).dring = s.dring := rfl
@[simp] theorem State.define_red (s : State) (a n : Nat) : (s.define a n).red = s.red := rfl
@[simp] theorem State.define_aud (s : State) (a n : Nat) : (s.define a n).aud = s.aud := rfl
@[simp] theorem State.define_vox (s : State) (a n : Nat) : (s.define a n).vox = s.vox := rfl
@[simp] theorem State.define_clk (s : State) (a n : Nat) : (s.define a n).clk = s.clk := rfl
@[simp] theorem State.define_rtc (s : State) (a n : Nat) : (s.define a n).rtc = s.rtc := rfl
@[simp] theorem State.define_pins (s : State) (a n : Nat) : (s.define a n).pins = s.pins := rfl
@[simp] theorem State.define_claim (s : State) (a n : Nat) : (s.define a n).claim = s.claim := rfl
@[simp] theorem State.define_engines (s : State) (a n : Nat) : (s.define a n).engines = s.engines := rfl
@[simp] theorem State.define_msix (s : State) (a n : Nat) : (s.define a n).msix = s.msix := rfl
@[simp] theorem State.define_evr (s : State) (a n : Nat) : (s.define a n).evr = s.evr := rfl
@[simp] theorem State.define_eth (s : State) (a n : Nat) : (s.define a n).eth = s.eth := rfl
@[simp] theorem State.define_can (s : State) (a n : Nat) : (s.define a n).can = s.can := rfl
@[simp] theorem State.define_stk (s : State) (a n : Nat) : (s.define a n).stk = s.stk := rfl
@[simp] theorem State.define_pwr (s : State) (a n : Nat) : (s.define a n).pwr = s.pwr := rfl
@[simp] theorem State.define_net (s : State) (a n : Nat) : (s.define a n).net = s.net := rfl
@[simp] theorem State.define_sec (s : State) (a n : Nat) : (s.define a n).sec = s.sec := rfl
@[simp] theorem State.define_storeTest (s : State) (a n : Nat) : (s.define a n).storeTest = s.storeTest := rfl
@[simp] theorem State.define_dio (s : State) (a n : Nat) : (s.define a n).dio = s.dio := rfl

/-! ## State.putByte -/

@[simp] theorem State.putByte_pending (s : State) (a : Nat) (x : Byte) : (s.putByte a x).pending = s.pending := rfl
@[simp] theorem State.putByte_free (s : State) (a : Nat) (x : Byte) : (s.putByte a x).free = s.free := rfl
@[simp] theorem State.putByte_regs (s : State) (a : Nat) (x : Byte) : (s.putByte a x).regs = s.regs := rfl
@[simp] theorem State.putByte_outbox (s : State) (a : Nat) (x : Byte) : (s.putByte a x).outbox = s.outbox := rfl
@[simp] theorem State.putByte_brg (s : State) (a : Nat) (x : Byte) : (s.putByte a x).brg = s.brg := rfl
@[simp] theorem State.putByte_totals (s : State) (a : Nat) (x : Byte) : (s.putByte a x).totals = s.totals := rfl
@[simp] theorem State.putByte_mbx (s : State) (a : Nat) (x : Byte) : (s.putByte a x).mbx = s.mbx := rfl
@[simp] theorem State.putByte_units (s : State) (a : Nat) (x : Byte) : (s.putByte a x).units = s.units := rfl
@[simp] theorem State.putByte_cfg (s : State) (a : Nat) (x : Byte) : (s.putByte a x).cfg = s.cfg := rfl
@[simp] theorem State.putByte_straps (s : State) (a : Nat) (x : Byte) : (s.putByte a x).straps = s.straps := rfl
@[simp] theorem State.putByte_uid (s : State) (a : Nat) (x : Byte) : (s.putByte a x).uid = s.uid := rfl
@[simp] theorem State.putByte_decik (s : State) (a : Nat) (x : Byte) : (s.putByte a x).decik = s.decik := rfl
@[simp] theorem State.putByte_jobs (s : State) (a : Nat) (x : Byte) : (s.putByte a x).jobs = s.jobs := rfl
@[simp] theorem State.putByte_links (s : State) (a : Nat) (x : Byte) : (s.putByte a x).links = s.links := rfl
@[simp] theorem State.putByte_ring (s : State) (a : Nat) (x : Byte) : (s.putByte a x).ring = s.ring := rfl
@[simp] theorem State.putByte_inaug (s : State) (a : Nat) (x : Byte) : (s.putByte a x).inaug = s.inaug := rfl
@[simp] theorem State.putByte_dring (s : State) (a : Nat) (x : Byte) : (s.putByte a x).dring = s.dring := rfl
@[simp] theorem State.putByte_red (s : State) (a : Nat) (x : Byte) : (s.putByte a x).red = s.red := rfl
@[simp] theorem State.putByte_aud (s : State) (a : Nat) (x : Byte) : (s.putByte a x).aud = s.aud := rfl
@[simp] theorem State.putByte_vox (s : State) (a : Nat) (x : Byte) : (s.putByte a x).vox = s.vox := rfl
@[simp] theorem State.putByte_clk (s : State) (a : Nat) (x : Byte) : (s.putByte a x).clk = s.clk := rfl
@[simp] theorem State.putByte_rtc (s : State) (a : Nat) (x : Byte) : (s.putByte a x).rtc = s.rtc := rfl
@[simp] theorem State.putByte_pins (s : State) (a : Nat) (x : Byte) : (s.putByte a x).pins = s.pins := rfl
@[simp] theorem State.putByte_claim (s : State) (a : Nat) (x : Byte) : (s.putByte a x).claim = s.claim := rfl
@[simp] theorem State.putByte_engines (s : State) (a : Nat) (x : Byte) : (s.putByte a x).engines = s.engines := rfl
@[simp] theorem State.putByte_msix (s : State) (a : Nat) (x : Byte) : (s.putByte a x).msix = s.msix := rfl
@[simp] theorem State.putByte_evr (s : State) (a : Nat) (x : Byte) : (s.putByte a x).evr = s.evr := rfl
@[simp] theorem State.putByte_eth (s : State) (a : Nat) (x : Byte) : (s.putByte a x).eth = s.eth := rfl
@[simp] theorem State.putByte_can (s : State) (a : Nat) (x : Byte) : (s.putByte a x).can = s.can := rfl
@[simp] theorem State.putByte_stk (s : State) (a : Nat) (x : Byte) : (s.putByte a x).stk = s.stk := rfl
@[simp] theorem State.putByte_pwr (s : State) (a : Nat) (x : Byte) : (s.putByte a x).pwr = s.pwr := rfl
@[simp] theorem State.putByte_net (s : State) (a : Nat) (x : Byte) : (s.putByte a x).net = s.net := rfl
@[simp] theorem State.putByte_sec (s : State) (a : Nat) (x : Byte) : (s.putByte a x).sec = s.sec := rfl
@[simp] theorem State.putByte_storeTest (s : State) (a : Nat) (x : Byte) : (s.putByte a x).storeTest = s.storeTest := rfl
@[simp] theorem State.putByte_dio (s : State) (a : Nat) (x : Byte) : (s.putByte a x).dio = s.dio := rfl

/-! ## Interrupts and FAULT_N: registers, output and MSI-X alone -/

@[simp] theorem State.statSet_pending (s : State) (n : Nat) : (s.statSet n).pending = s.pending := by
  unfold State.statSet; split <;> (try split) <;> rfl
@[simp] theorem State.statSet_free (s : State) (n : Nat) : (s.statSet n).free = s.free := by
  unfold State.statSet; split <;> (try split) <;> rfl
@[simp] theorem State.statSet_regs (s : State) (n : Nat) : (s.statSet n).regs = s.regs := by
  unfold State.statSet; split <;> (try split) <;> rfl
@[simp] theorem State.statSet_store (s : State) (n : Nat) : (s.statSet n).store = s.store := by
  unfold State.statSet; split <;> (try split) <;> rfl
@[simp] theorem State.statSet_mem (s : State) (n : Nat) : (s.statSet n).mem = s.mem := by
  unfold State.statSet; split <;> (try split) <;> rfl
@[simp] theorem State.statSet_brg (s : State) (n : Nat) : (s.statSet n).brg = s.brg := by
  unfold State.statSet; split <;> (try split) <;> rfl
@[simp] theorem State.statSet_totals (s : State) (n : Nat) : (s.statSet n).totals = s.totals := by
  unfold State.statSet; split <;> (try split) <;> rfl
@[simp] theorem State.statSet_mbx (s : State) (n : Nat) : (s.statSet n).mbx = s.mbx := by
  unfold State.statSet; split <;> (try split) <;> rfl
@[simp] theorem State.statSet_units (s : State) (n : Nat) : (s.statSet n).units = s.units := by
  unfold State.statSet; split <;> (try split) <;> rfl
@[simp] theorem State.statSet_cfg (s : State) (n : Nat) : (s.statSet n).cfg = s.cfg := by
  unfold State.statSet; split <;> (try split) <;> rfl
@[simp] theorem State.statSet_straps (s : State) (n : Nat) : (s.statSet n).straps = s.straps := by
  unfold State.statSet; split <;> (try split) <;> rfl
@[simp] theorem State.statSet_uid (s : State) (n : Nat) : (s.statSet n).uid = s.uid := by
  unfold State.statSet; split <;> (try split) <;> rfl
@[simp] theorem State.statSet_decik (s : State) (n : Nat) : (s.statSet n).decik = s.decik := by
  unfold State.statSet; split <;> (try split) <;> rfl
@[simp] theorem State.statSet_jobs (s : State) (n : Nat) : (s.statSet n).jobs = s.jobs := by
  unfold State.statSet; split <;> (try split) <;> rfl
@[simp] theorem State.statSet_links (s : State) (n : Nat) : (s.statSet n).links = s.links := by
  unfold State.statSet; split <;> (try split) <;> rfl
@[simp] theorem State.statSet_ring (s : State) (n : Nat) : (s.statSet n).ring = s.ring := by
  unfold State.statSet; split <;> (try split) <;> rfl
@[simp] theorem State.statSet_inaug (s : State) (n : Nat) : (s.statSet n).inaug = s.inaug := by
  unfold State.statSet; split <;> (try split) <;> rfl
@[simp] theorem State.statSet_dring (s : State) (n : Nat) : (s.statSet n).dring = s.dring := by
  unfold State.statSet; split <;> (try split) <;> rfl
@[simp] theorem State.statSet_red (s : State) (n : Nat) : (s.statSet n).red = s.red := by
  unfold State.statSet; split <;> (try split) <;> rfl
@[simp] theorem State.statSet_aud (s : State) (n : Nat) : (s.statSet n).aud = s.aud := by
  unfold State.statSet; split <;> (try split) <;> rfl
@[simp] theorem State.statSet_vox (s : State) (n : Nat) : (s.statSet n).vox = s.vox := by
  unfold State.statSet; split <;> (try split) <;> rfl
@[simp] theorem State.statSet_clk (s : State) (n : Nat) : (s.statSet n).clk = s.clk := by
  unfold State.statSet; split <;> (try split) <;> rfl
@[simp] theorem State.statSet_rtc (s : State) (n : Nat) : (s.statSet n).rtc = s.rtc := by
  unfold State.statSet; split <;> (try split) <;> rfl
@[simp] theorem State.statSet_pins (s : State) (n : Nat) : (s.statSet n).pins = s.pins := by
  unfold State.statSet; split <;> (try split) <;> rfl
@[simp] theorem State.statSet_claim (s : State) (n : Nat) : (s.statSet n).claim = s.claim := by
  unfold State.statSet; split <;> (try split) <;> rfl
@[simp] theorem State.statSet_engines (s : State) (n : Nat) : (s.statSet n).engines = s.engines := by
  unfold State.statSet; split <;> (try split) <;> rfl
@[simp] theorem State.statSet_evr (s : State) (n : Nat) : (s.statSet n).evr = s.evr := by
  unfold State.statSet; split <;> (try split) <;> rfl
@[simp] theorem State.statSet_eth (s : State) (n : Nat) : (s.statSet n).eth = s.eth := by
  unfold State.statSet; split <;> (try split) <;> rfl
@[simp] theorem State.statSet_can (s : State) (n : Nat) : (s.statSet n).can = s.can := by
  unfold State.statSet; split <;> (try split) <;> rfl
@[simp] theorem State.statSet_stk (s : State) (n : Nat) : (s.statSet n).stk = s.stk := by
  unfold State.statSet; split <;> (try split) <;> rfl
@[simp] theorem State.statSet_pwr (s : State) (n : Nat) : (s.statSet n).pwr = s.pwr := by
  unfold State.statSet; split <;> (try split) <;> rfl
@[simp] theorem State.statSet_net (s : State) (n : Nat) : (s.statSet n).net = s.net := by
  unfold State.statSet; split <;> (try split) <;> rfl
@[simp] theorem State.statSet_sec (s : State) (n : Nat) : (s.statSet n).sec = s.sec := by
  unfold State.statSet; split <;> (try split) <;> rfl
@[simp] theorem State.statSet_storeTest (s : State) (n : Nat) : (s.statSet n).storeTest = s.storeTest := by
  unfold State.statSet; split <;> (try split) <;> rfl
@[simp] theorem State.statSet_dio (s : State) (n : Nat) : (s.statSet n).dio = s.dio := by
  unfold State.statSet; split <;> (try split) <;> rfl

@[simp] theorem State.irqLevel_pending (s : State) : (s.irqLevel).pending = s.pending := by
  unfold State.irqLevel; dsimp only; split <;> rfl
@[simp] theorem State.irqLevel_free (s : State) : (s.irqLevel).free = s.free := by
  unfold State.irqLevel; dsimp only; split <;> rfl
@[simp] theorem State.irqLevel_store (s : State) : (s.irqLevel).store = s.store := by
  unfold State.irqLevel; dsimp only; split <;> rfl
@[simp] theorem State.irqLevel_mem (s : State) : (s.irqLevel).mem = s.mem := by
  unfold State.irqLevel; dsimp only; split <;> rfl
@[simp] theorem State.irqLevel_brg (s : State) : (s.irqLevel).brg = s.brg := by
  unfold State.irqLevel; dsimp only; split <;> rfl
@[simp] theorem State.irqLevel_totals (s : State) : (s.irqLevel).totals = s.totals := by
  unfold State.irqLevel; dsimp only; split <;> rfl
@[simp] theorem State.irqLevel_mbx (s : State) : (s.irqLevel).mbx = s.mbx := by
  unfold State.irqLevel; dsimp only; split <;> rfl
@[simp] theorem State.irqLevel_units (s : State) : (s.irqLevel).units = s.units := by
  unfold State.irqLevel; dsimp only; split <;> rfl
@[simp] theorem State.irqLevel_cfg (s : State) : (s.irqLevel).cfg = s.cfg := by
  unfold State.irqLevel; dsimp only; split <;> rfl
@[simp] theorem State.irqLevel_straps (s : State) : (s.irqLevel).straps = s.straps := by
  unfold State.irqLevel; dsimp only; split <;> rfl
@[simp] theorem State.irqLevel_uid (s : State) : (s.irqLevel).uid = s.uid := by
  unfold State.irqLevel; dsimp only; split <;> rfl
@[simp] theorem State.irqLevel_decik (s : State) : (s.irqLevel).decik = s.decik := by
  unfold State.irqLevel; dsimp only; split <;> rfl
@[simp] theorem State.irqLevel_jobs (s : State) : (s.irqLevel).jobs = s.jobs := by
  unfold State.irqLevel; dsimp only; split <;> rfl
@[simp] theorem State.irqLevel_links (s : State) : (s.irqLevel).links = s.links := by
  unfold State.irqLevel; dsimp only; split <;> rfl
@[simp] theorem State.irqLevel_ring (s : State) : (s.irqLevel).ring = s.ring := by
  unfold State.irqLevel; dsimp only; split <;> rfl
@[simp] theorem State.irqLevel_inaug (s : State) : (s.irqLevel).inaug = s.inaug := by
  unfold State.irqLevel; dsimp only; split <;> rfl
@[simp] theorem State.irqLevel_dring (s : State) : (s.irqLevel).dring = s.dring := by
  unfold State.irqLevel; dsimp only; split <;> rfl
@[simp] theorem State.irqLevel_red (s : State) : (s.irqLevel).red = s.red := by
  unfold State.irqLevel; dsimp only; split <;> rfl
@[simp] theorem State.irqLevel_aud (s : State) : (s.irqLevel).aud = s.aud := by
  unfold State.irqLevel; dsimp only; split <;> rfl
@[simp] theorem State.irqLevel_vox (s : State) : (s.irqLevel).vox = s.vox := by
  unfold State.irqLevel; dsimp only; split <;> rfl
@[simp] theorem State.irqLevel_clk (s : State) : (s.irqLevel).clk = s.clk := by
  unfold State.irqLevel; dsimp only; split <;> rfl
@[simp] theorem State.irqLevel_rtc (s : State) : (s.irqLevel).rtc = s.rtc := by
  unfold State.irqLevel; dsimp only; split <;> rfl
@[simp] theorem State.irqLevel_pins (s : State) : (s.irqLevel).pins = s.pins := by
  unfold State.irqLevel; dsimp only; split <;> rfl
@[simp] theorem State.irqLevel_claim (s : State) : (s.irqLevel).claim = s.claim := by
  unfold State.irqLevel; dsimp only; split <;> rfl
@[simp] theorem State.irqLevel_engines (s : State) : (s.irqLevel).engines = s.engines := by
  unfold State.irqLevel; dsimp only; split <;> rfl
@[simp] theorem State.irqLevel_evr (s : State) : (s.irqLevel).evr = s.evr := by
  unfold State.irqLevel; dsimp only; split <;> rfl
@[simp] theorem State.irqLevel_eth (s : State) : (s.irqLevel).eth = s.eth := by
  unfold State.irqLevel; dsimp only; split <;> rfl
@[simp] theorem State.irqLevel_can (s : State) : (s.irqLevel).can = s.can := by
  unfold State.irqLevel; dsimp only; split <;> rfl
@[simp] theorem State.irqLevel_stk (s : State) : (s.irqLevel).stk = s.stk := by
  unfold State.irqLevel; dsimp only; split <;> rfl
@[simp] theorem State.irqLevel_pwr (s : State) : (s.irqLevel).pwr = s.pwr := by
  unfold State.irqLevel; dsimp only; split <;> rfl
@[simp] theorem State.irqLevel_net (s : State) : (s.irqLevel).net = s.net := by
  unfold State.irqLevel; dsimp only; split <;> rfl
@[simp] theorem State.irqLevel_sec (s : State) : (s.irqLevel).sec = s.sec := by
  unfold State.irqLevel; dsimp only; split <;> rfl
@[simp] theorem State.irqLevel_storeTest (s : State) : (s.irqLevel).storeTest = s.storeTest := by
  unfold State.irqLevel; dsimp only; split <;> rfl
@[simp] theorem State.irqLevel_dio (s : State) : (s.irqLevel).dio = s.dio := by
  unfold State.irqLevel; dsimp only; split <;> rfl

@[simp] theorem State.setPend_pending (s : State) (n : Nat) : (s.setPend n).pending = s.pending := by
  unfold State.setPend; rw [State.irqLevel_pending]; split <;> simp
@[simp] theorem State.setPend_free (s : State) (n : Nat) : (s.setPend n).free = s.free := by
  unfold State.setPend; rw [State.irqLevel_free]; split <;> simp
@[simp] theorem State.setPend_store (s : State) (n : Nat) : (s.setPend n).store = s.store := by
  unfold State.setPend; rw [State.irqLevel_store]; split <;> simp
@[simp] theorem State.setPend_mem (s : State) (n : Nat) : (s.setPend n).mem = s.mem := by
  unfold State.setPend; rw [State.irqLevel_mem]; split <;> simp
@[simp] theorem State.setPend_brg (s : State) (n : Nat) : (s.setPend n).brg = s.brg := by
  unfold State.setPend; rw [State.irqLevel_brg]; split <;> simp
@[simp] theorem State.setPend_totals (s : State) (n : Nat) : (s.setPend n).totals = s.totals := by
  unfold State.setPend; rw [State.irqLevel_totals]; split <;> simp
@[simp] theorem State.setPend_mbx (s : State) (n : Nat) : (s.setPend n).mbx = s.mbx := by
  unfold State.setPend; rw [State.irqLevel_mbx]; split <;> simp
@[simp] theorem State.setPend_units (s : State) (n : Nat) : (s.setPend n).units = s.units := by
  unfold State.setPend; rw [State.irqLevel_units]; split <;> simp
@[simp] theorem State.setPend_cfg (s : State) (n : Nat) : (s.setPend n).cfg = s.cfg := by
  unfold State.setPend; rw [State.irqLevel_cfg]; split <;> simp
@[simp] theorem State.setPend_straps (s : State) (n : Nat) : (s.setPend n).straps = s.straps := by
  unfold State.setPend; rw [State.irqLevel_straps]; split <;> simp
@[simp] theorem State.setPend_uid (s : State) (n : Nat) : (s.setPend n).uid = s.uid := by
  unfold State.setPend; rw [State.irqLevel_uid]; split <;> simp
@[simp] theorem State.setPend_decik (s : State) (n : Nat) : (s.setPend n).decik = s.decik := by
  unfold State.setPend; rw [State.irqLevel_decik]; split <;> simp
@[simp] theorem State.setPend_jobs (s : State) (n : Nat) : (s.setPend n).jobs = s.jobs := by
  unfold State.setPend; rw [State.irqLevel_jobs]; split <;> simp
@[simp] theorem State.setPend_links (s : State) (n : Nat) : (s.setPend n).links = s.links := by
  unfold State.setPend; rw [State.irqLevel_links]; split <;> simp
@[simp] theorem State.setPend_ring (s : State) (n : Nat) : (s.setPend n).ring = s.ring := by
  unfold State.setPend; rw [State.irqLevel_ring]; split <;> simp
@[simp] theorem State.setPend_inaug (s : State) (n : Nat) : (s.setPend n).inaug = s.inaug := by
  unfold State.setPend; rw [State.irqLevel_inaug]; split <;> simp
@[simp] theorem State.setPend_dring (s : State) (n : Nat) : (s.setPend n).dring = s.dring := by
  unfold State.setPend; rw [State.irqLevel_dring]; split <;> simp
@[simp] theorem State.setPend_red (s : State) (n : Nat) : (s.setPend n).red = s.red := by
  unfold State.setPend; rw [State.irqLevel_red]; split <;> simp
@[simp] theorem State.setPend_aud (s : State) (n : Nat) : (s.setPend n).aud = s.aud := by
  unfold State.setPend; rw [State.irqLevel_aud]; split <;> simp
@[simp] theorem State.setPend_vox (s : State) (n : Nat) : (s.setPend n).vox = s.vox := by
  unfold State.setPend; rw [State.irqLevel_vox]; split <;> simp
@[simp] theorem State.setPend_clk (s : State) (n : Nat) : (s.setPend n).clk = s.clk := by
  unfold State.setPend; rw [State.irqLevel_clk]; split <;> simp
@[simp] theorem State.setPend_rtc (s : State) (n : Nat) : (s.setPend n).rtc = s.rtc := by
  unfold State.setPend; rw [State.irqLevel_rtc]; split <;> simp
@[simp] theorem State.setPend_pins (s : State) (n : Nat) : (s.setPend n).pins = s.pins := by
  unfold State.setPend; rw [State.irqLevel_pins]; split <;> simp
@[simp] theorem State.setPend_claim (s : State) (n : Nat) : (s.setPend n).claim = s.claim := by
  unfold State.setPend; rw [State.irqLevel_claim]; split <;> simp
@[simp] theorem State.setPend_engines (s : State) (n : Nat) : (s.setPend n).engines = s.engines := by
  unfold State.setPend; rw [State.irqLevel_engines]; split <;> simp
@[simp] theorem State.setPend_evr (s : State) (n : Nat) : (s.setPend n).evr = s.evr := by
  unfold State.setPend; rw [State.irqLevel_evr]; split <;> simp
@[simp] theorem State.setPend_eth (s : State) (n : Nat) : (s.setPend n).eth = s.eth := by
  unfold State.setPend; rw [State.irqLevel_eth]; split <;> simp
@[simp] theorem State.setPend_can (s : State) (n : Nat) : (s.setPend n).can = s.can := by
  unfold State.setPend; rw [State.irqLevel_can]; split <;> simp
@[simp] theorem State.setPend_stk (s : State) (n : Nat) : (s.setPend n).stk = s.stk := by
  unfold State.setPend; rw [State.irqLevel_stk]; split <;> simp
@[simp] theorem State.setPend_pwr (s : State) (n : Nat) : (s.setPend n).pwr = s.pwr := by
  unfold State.setPend; rw [State.irqLevel_pwr]; split <;> simp
@[simp] theorem State.setPend_net (s : State) (n : Nat) : (s.setPend n).net = s.net := by
  unfold State.setPend; rw [State.irqLevel_net]; split <;> simp
@[simp] theorem State.setPend_sec (s : State) (n : Nat) : (s.setPend n).sec = s.sec := by
  unfold State.setPend; rw [State.irqLevel_sec]; split <;> simp
@[simp] theorem State.setPend_storeTest (s : State) (n : Nat) : (s.setPend n).storeTest = s.storeTest := by
  unfold State.setPend; rw [State.irqLevel_storeTest]; split <;> simp
@[simp] theorem State.setPend_dio (s : State) (n : Nat) : (s.setPend n).dio = s.dio := by
  unfold State.setPend; rw [State.irqLevel_dio]; split <;> simp

@[simp] theorem State.pend_pending (s : State) (n : Nat) : (s.pend n).pending = s.pending := by
  unfold State.pend; split <;> simp
@[simp] theorem State.pend_free (s : State) (n : Nat) : (s.pend n).free = s.free := by
  unfold State.pend; split <;> simp
@[simp] theorem State.pend_store (s : State) (n : Nat) : (s.pend n).store = s.store := by
  unfold State.pend; split <;> simp
@[simp] theorem State.pend_mem (s : State) (n : Nat) : (s.pend n).mem = s.mem := by
  unfold State.pend; split <;> simp
@[simp] theorem State.pend_brg (s : State) (n : Nat) : (s.pend n).brg = s.brg := by
  unfold State.pend; split <;> simp
@[simp] theorem State.pend_totals (s : State) (n : Nat) : (s.pend n).totals = s.totals := by
  unfold State.pend; split <;> simp
@[simp] theorem State.pend_mbx (s : State) (n : Nat) : (s.pend n).mbx = s.mbx := by
  unfold State.pend; split <;> simp
@[simp] theorem State.pend_units (s : State) (n : Nat) : (s.pend n).units = s.units := by
  unfold State.pend; split <;> simp
@[simp] theorem State.pend_cfg (s : State) (n : Nat) : (s.pend n).cfg = s.cfg := by
  unfold State.pend; split <;> simp
@[simp] theorem State.pend_straps (s : State) (n : Nat) : (s.pend n).straps = s.straps := by
  unfold State.pend; split <;> simp
@[simp] theorem State.pend_uid (s : State) (n : Nat) : (s.pend n).uid = s.uid := by
  unfold State.pend; split <;> simp
@[simp] theorem State.pend_decik (s : State) (n : Nat) : (s.pend n).decik = s.decik := by
  unfold State.pend; split <;> simp
@[simp] theorem State.pend_jobs (s : State) (n : Nat) : (s.pend n).jobs = s.jobs := by
  unfold State.pend; split <;> simp
@[simp] theorem State.pend_links (s : State) (n : Nat) : (s.pend n).links = s.links := by
  unfold State.pend; split <;> simp
@[simp] theorem State.pend_ring (s : State) (n : Nat) : (s.pend n).ring = s.ring := by
  unfold State.pend; split <;> simp
@[simp] theorem State.pend_inaug (s : State) (n : Nat) : (s.pend n).inaug = s.inaug := by
  unfold State.pend; split <;> simp
@[simp] theorem State.pend_dring (s : State) (n : Nat) : (s.pend n).dring = s.dring := by
  unfold State.pend; split <;> simp
@[simp] theorem State.pend_red (s : State) (n : Nat) : (s.pend n).red = s.red := by
  unfold State.pend; split <;> simp
@[simp] theorem State.pend_aud (s : State) (n : Nat) : (s.pend n).aud = s.aud := by
  unfold State.pend; split <;> simp
@[simp] theorem State.pend_vox (s : State) (n : Nat) : (s.pend n).vox = s.vox := by
  unfold State.pend; split <;> simp
@[simp] theorem State.pend_clk (s : State) (n : Nat) : (s.pend n).clk = s.clk := by
  unfold State.pend; split <;> simp
@[simp] theorem State.pend_rtc (s : State) (n : Nat) : (s.pend n).rtc = s.rtc := by
  unfold State.pend; split <;> simp
@[simp] theorem State.pend_pins (s : State) (n : Nat) : (s.pend n).pins = s.pins := by
  unfold State.pend; split <;> simp
@[simp] theorem State.pend_claim (s : State) (n : Nat) : (s.pend n).claim = s.claim := by
  unfold State.pend; split <;> simp
@[simp] theorem State.pend_engines (s : State) (n : Nat) : (s.pend n).engines = s.engines := by
  unfold State.pend; split <;> simp
@[simp] theorem State.pend_evr (s : State) (n : Nat) : (s.pend n).evr = s.evr := by
  unfold State.pend; split <;> simp
@[simp] theorem State.pend_eth (s : State) (n : Nat) : (s.pend n).eth = s.eth := by
  unfold State.pend; split <;> simp
@[simp] theorem State.pend_can (s : State) (n : Nat) : (s.pend n).can = s.can := by
  unfold State.pend; split <;> simp
@[simp] theorem State.pend_stk (s : State) (n : Nat) : (s.pend n).stk = s.stk := by
  unfold State.pend; split <;> simp
@[simp] theorem State.pend_pwr (s : State) (n : Nat) : (s.pend n).pwr = s.pwr := by
  unfold State.pend; split <;> simp
@[simp] theorem State.pend_net (s : State) (n : Nat) : (s.pend n).net = s.net := by
  unfold State.pend; split <;> simp
@[simp] theorem State.pend_sec (s : State) (n : Nat) : (s.pend n).sec = s.sec := by
  unfold State.pend; split <;> simp
@[simp] theorem State.pend_storeTest (s : State) (n : Nat) : (s.pend n).storeTest = s.storeTest := by
  unfold State.pend; split <;> simp
@[simp] theorem State.pend_dio (s : State) (n : Nat) : (s.pend n).dio = s.dio := by
  unfold State.pend; split <;> simp

@[simp] theorem State.evt_pending (s : State) (f : Fld) (mask src : Nat) : (s.evt f mask src).pending = s.pending := by
  unfold State.evt; dsimp only; split <;> simp
@[simp] theorem State.evt_free (s : State) (f : Fld) (mask src : Nat) : (s.evt f mask src).free = s.free := by
  unfold State.evt; dsimp only; split <;> simp
@[simp] theorem State.evt_store (s : State) (f : Fld) (mask src : Nat) : (s.evt f mask src).store = s.store := by
  unfold State.evt; dsimp only; split <;> simp
@[simp] theorem State.evt_mem (s : State) (f : Fld) (mask src : Nat) : (s.evt f mask src).mem = s.mem := by
  unfold State.evt; dsimp only; split <;> simp
@[simp] theorem State.evt_brg (s : State) (f : Fld) (mask src : Nat) : (s.evt f mask src).brg = s.brg := by
  unfold State.evt; dsimp only; split <;> simp
@[simp] theorem State.evt_totals (s : State) (f : Fld) (mask src : Nat) : (s.evt f mask src).totals = s.totals := by
  unfold State.evt; dsimp only; split <;> simp
@[simp] theorem State.evt_mbx (s : State) (f : Fld) (mask src : Nat) : (s.evt f mask src).mbx = s.mbx := by
  unfold State.evt; dsimp only; split <;> simp
@[simp] theorem State.evt_units (s : State) (f : Fld) (mask src : Nat) : (s.evt f mask src).units = s.units := by
  unfold State.evt; dsimp only; split <;> simp
@[simp] theorem State.evt_cfg (s : State) (f : Fld) (mask src : Nat) : (s.evt f mask src).cfg = s.cfg := by
  unfold State.evt; dsimp only; split <;> simp
@[simp] theorem State.evt_straps (s : State) (f : Fld) (mask src : Nat) : (s.evt f mask src).straps = s.straps := by
  unfold State.evt; dsimp only; split <;> simp
@[simp] theorem State.evt_uid (s : State) (f : Fld) (mask src : Nat) : (s.evt f mask src).uid = s.uid := by
  unfold State.evt; dsimp only; split <;> simp
@[simp] theorem State.evt_decik (s : State) (f : Fld) (mask src : Nat) : (s.evt f mask src).decik = s.decik := by
  unfold State.evt; dsimp only; split <;> simp
@[simp] theorem State.evt_jobs (s : State) (f : Fld) (mask src : Nat) : (s.evt f mask src).jobs = s.jobs := by
  unfold State.evt; dsimp only; split <;> simp
@[simp] theorem State.evt_links (s : State) (f : Fld) (mask src : Nat) : (s.evt f mask src).links = s.links := by
  unfold State.evt; dsimp only; split <;> simp
@[simp] theorem State.evt_ring (s : State) (f : Fld) (mask src : Nat) : (s.evt f mask src).ring = s.ring := by
  unfold State.evt; dsimp only; split <;> simp
@[simp] theorem State.evt_inaug (s : State) (f : Fld) (mask src : Nat) : (s.evt f mask src).inaug = s.inaug := by
  unfold State.evt; dsimp only; split <;> simp
@[simp] theorem State.evt_dring (s : State) (f : Fld) (mask src : Nat) : (s.evt f mask src).dring = s.dring := by
  unfold State.evt; dsimp only; split <;> simp
@[simp] theorem State.evt_red (s : State) (f : Fld) (mask src : Nat) : (s.evt f mask src).red = s.red := by
  unfold State.evt; dsimp only; split <;> simp
@[simp] theorem State.evt_aud (s : State) (f : Fld) (mask src : Nat) : (s.evt f mask src).aud = s.aud := by
  unfold State.evt; dsimp only; split <;> simp
@[simp] theorem State.evt_vox (s : State) (f : Fld) (mask src : Nat) : (s.evt f mask src).vox = s.vox := by
  unfold State.evt; dsimp only; split <;> simp
@[simp] theorem State.evt_clk (s : State) (f : Fld) (mask src : Nat) : (s.evt f mask src).clk = s.clk := by
  unfold State.evt; dsimp only; split <;> simp
@[simp] theorem State.evt_rtc (s : State) (f : Fld) (mask src : Nat) : (s.evt f mask src).rtc = s.rtc := by
  unfold State.evt; dsimp only; split <;> simp
@[simp] theorem State.evt_pins (s : State) (f : Fld) (mask src : Nat) : (s.evt f mask src).pins = s.pins := by
  unfold State.evt; dsimp only; split <;> simp
@[simp] theorem State.evt_claim (s : State) (f : Fld) (mask src : Nat) : (s.evt f mask src).claim = s.claim := by
  unfold State.evt; dsimp only; split <;> simp
@[simp] theorem State.evt_engines (s : State) (f : Fld) (mask src : Nat) : (s.evt f mask src).engines = s.engines := by
  unfold State.evt; dsimp only; split <;> simp
@[simp] theorem State.evt_evr (s : State) (f : Fld) (mask src : Nat) : (s.evt f mask src).evr = s.evr := by
  unfold State.evt; dsimp only; split <;> simp
@[simp] theorem State.evt_eth (s : State) (f : Fld) (mask src : Nat) : (s.evt f mask src).eth = s.eth := by
  unfold State.evt; dsimp only; split <;> simp
@[simp] theorem State.evt_can (s : State) (f : Fld) (mask src : Nat) : (s.evt f mask src).can = s.can := by
  unfold State.evt; dsimp only; split <;> simp
@[simp] theorem State.evt_stk (s : State) (f : Fld) (mask src : Nat) : (s.evt f mask src).stk = s.stk := by
  unfold State.evt; dsimp only; split <;> simp
@[simp] theorem State.evt_pwr (s : State) (f : Fld) (mask src : Nat) : (s.evt f mask src).pwr = s.pwr := by
  unfold State.evt; dsimp only; split <;> simp
@[simp] theorem State.evt_net (s : State) (f : Fld) (mask src : Nat) : (s.evt f mask src).net = s.net := by
  unfold State.evt; dsimp only; split <;> simp
@[simp] theorem State.evt_sec (s : State) (f : Fld) (mask src : Nat) : (s.evt f mask src).sec = s.sec := by
  unfold State.evt; dsimp only; split <;> simp
@[simp] theorem State.evt_storeTest (s : State) (f : Fld) (mask src : Nat) : (s.evt f mask src).storeTest = s.storeTest := by
  unfold State.evt; dsimp only; split <;> simp
@[simp] theorem State.evt_dio (s : State) (f : Fld) (mask src : Nat) : (s.evt f mask src).dio = s.dio := by
  unfold State.evt; dsimp only; split <;> simp

@[simp] theorem State.evtBit_pending (s : State) (f : Fld) (i src : Nat) : (s.evtBit f i src).pending = s.pending := by
  unfold State.evtBit; simp
@[simp] theorem State.evtBit_free (s : State) (f : Fld) (i src : Nat) : (s.evtBit f i src).free = s.free := by
  unfold State.evtBit; simp
@[simp] theorem State.evtBit_store (s : State) (f : Fld) (i src : Nat) : (s.evtBit f i src).store = s.store := by
  unfold State.evtBit; simp
@[simp] theorem State.evtBit_mem (s : State) (f : Fld) (i src : Nat) : (s.evtBit f i src).mem = s.mem := by
  unfold State.evtBit; simp
@[simp] theorem State.evtBit_brg (s : State) (f : Fld) (i src : Nat) : (s.evtBit f i src).brg = s.brg := by
  unfold State.evtBit; simp
@[simp] theorem State.evtBit_totals (s : State) (f : Fld) (i src : Nat) : (s.evtBit f i src).totals = s.totals := by
  unfold State.evtBit; simp
@[simp] theorem State.evtBit_mbx (s : State) (f : Fld) (i src : Nat) : (s.evtBit f i src).mbx = s.mbx := by
  unfold State.evtBit; simp
@[simp] theorem State.evtBit_units (s : State) (f : Fld) (i src : Nat) : (s.evtBit f i src).units = s.units := by
  unfold State.evtBit; simp
@[simp] theorem State.evtBit_cfg (s : State) (f : Fld) (i src : Nat) : (s.evtBit f i src).cfg = s.cfg := by
  unfold State.evtBit; simp
@[simp] theorem State.evtBit_straps (s : State) (f : Fld) (i src : Nat) : (s.evtBit f i src).straps = s.straps := by
  unfold State.evtBit; simp
@[simp] theorem State.evtBit_uid (s : State) (f : Fld) (i src : Nat) : (s.evtBit f i src).uid = s.uid := by
  unfold State.evtBit; simp
@[simp] theorem State.evtBit_decik (s : State) (f : Fld) (i src : Nat) : (s.evtBit f i src).decik = s.decik := by
  unfold State.evtBit; simp
@[simp] theorem State.evtBit_jobs (s : State) (f : Fld) (i src : Nat) : (s.evtBit f i src).jobs = s.jobs := by
  unfold State.evtBit; simp
@[simp] theorem State.evtBit_links (s : State) (f : Fld) (i src : Nat) : (s.evtBit f i src).links = s.links := by
  unfold State.evtBit; simp
@[simp] theorem State.evtBit_ring (s : State) (f : Fld) (i src : Nat) : (s.evtBit f i src).ring = s.ring := by
  unfold State.evtBit; simp
@[simp] theorem State.evtBit_inaug (s : State) (f : Fld) (i src : Nat) : (s.evtBit f i src).inaug = s.inaug := by
  unfold State.evtBit; simp
@[simp] theorem State.evtBit_dring (s : State) (f : Fld) (i src : Nat) : (s.evtBit f i src).dring = s.dring := by
  unfold State.evtBit; simp
@[simp] theorem State.evtBit_red (s : State) (f : Fld) (i src : Nat) : (s.evtBit f i src).red = s.red := by
  unfold State.evtBit; simp
@[simp] theorem State.evtBit_aud (s : State) (f : Fld) (i src : Nat) : (s.evtBit f i src).aud = s.aud := by
  unfold State.evtBit; simp
@[simp] theorem State.evtBit_vox (s : State) (f : Fld) (i src : Nat) : (s.evtBit f i src).vox = s.vox := by
  unfold State.evtBit; simp
@[simp] theorem State.evtBit_clk (s : State) (f : Fld) (i src : Nat) : (s.evtBit f i src).clk = s.clk := by
  unfold State.evtBit; simp
@[simp] theorem State.evtBit_rtc (s : State) (f : Fld) (i src : Nat) : (s.evtBit f i src).rtc = s.rtc := by
  unfold State.evtBit; simp
@[simp] theorem State.evtBit_pins (s : State) (f : Fld) (i src : Nat) : (s.evtBit f i src).pins = s.pins := by
  unfold State.evtBit; simp
@[simp] theorem State.evtBit_claim (s : State) (f : Fld) (i src : Nat) : (s.evtBit f i src).claim = s.claim := by
  unfold State.evtBit; simp
@[simp] theorem State.evtBit_engines (s : State) (f : Fld) (i src : Nat) : (s.evtBit f i src).engines = s.engines := by
  unfold State.evtBit; simp
@[simp] theorem State.evtBit_evr (s : State) (f : Fld) (i src : Nat) : (s.evtBit f i src).evr = s.evr := by
  unfold State.evtBit; simp
@[simp] theorem State.evtBit_eth (s : State) (f : Fld) (i src : Nat) : (s.evtBit f i src).eth = s.eth := by
  unfold State.evtBit; simp
@[simp] theorem State.evtBit_can (s : State) (f : Fld) (i src : Nat) : (s.evtBit f i src).can = s.can := by
  unfold State.evtBit; simp
@[simp] theorem State.evtBit_stk (s : State) (f : Fld) (i src : Nat) : (s.evtBit f i src).stk = s.stk := by
  unfold State.evtBit; simp
@[simp] theorem State.evtBit_pwr (s : State) (f : Fld) (i src : Nat) : (s.evtBit f i src).pwr = s.pwr := by
  unfold State.evtBit; simp
@[simp] theorem State.evtBit_net (s : State) (f : Fld) (i src : Nat) : (s.evtBit f i src).net = s.net := by
  unfold State.evtBit; simp
@[simp] theorem State.evtBit_sec (s : State) (f : Fld) (i src : Nat) : (s.evtBit f i src).sec = s.sec := by
  unfold State.evtBit; simp
@[simp] theorem State.evtBit_storeTest (s : State) (f : Fld) (i src : Nat) : (s.evtBit f i src).storeTest = s.storeTest := by
  unfold State.evtBit; simp
@[simp] theorem State.evtBit_dio (s : State) (f : Fld) (i src : Nat) : (s.evtBit f i src).dio = s.dio := by
  unfold State.evtBit; simp

@[simp] theorem State.pendDirect_pending (s : State) (n : Nat) (miss : Fld) : (s.pendDirect n miss).pending = s.pending := by
  unfold State.pendDirect; split <;> simp
@[simp] theorem State.pendDirect_free (s : State) (n : Nat) (miss : Fld) : (s.pendDirect n miss).free = s.free := by
  unfold State.pendDirect; split <;> simp
@[simp] theorem State.pendDirect_store (s : State) (n : Nat) (miss : Fld) : (s.pendDirect n miss).store = s.store := by
  unfold State.pendDirect; split <;> simp
@[simp] theorem State.pendDirect_mem (s : State) (n : Nat) (miss : Fld) : (s.pendDirect n miss).mem = s.mem := by
  unfold State.pendDirect; split <;> simp
@[simp] theorem State.pendDirect_brg (s : State) (n : Nat) (miss : Fld) : (s.pendDirect n miss).brg = s.brg := by
  unfold State.pendDirect; split <;> simp
@[simp] theorem State.pendDirect_mbx (s : State) (n : Nat) (miss : Fld) : (s.pendDirect n miss).mbx = s.mbx := by
  unfold State.pendDirect; split <;> simp
@[simp] theorem State.pendDirect_units (s : State) (n : Nat) (miss : Fld) : (s.pendDirect n miss).units = s.units := by
  unfold State.pendDirect; split <;> simp
@[simp] theorem State.pendDirect_cfg (s : State) (n : Nat) (miss : Fld) : (s.pendDirect n miss).cfg = s.cfg := by
  unfold State.pendDirect; split <;> simp
@[simp] theorem State.pendDirect_straps (s : State) (n : Nat) (miss : Fld) : (s.pendDirect n miss).straps = s.straps := by
  unfold State.pendDirect; split <;> simp
@[simp] theorem State.pendDirect_uid (s : State) (n : Nat) (miss : Fld) : (s.pendDirect n miss).uid = s.uid := by
  unfold State.pendDirect; split <;> simp
@[simp] theorem State.pendDirect_decik (s : State) (n : Nat) (miss : Fld) : (s.pendDirect n miss).decik = s.decik := by
  unfold State.pendDirect; split <;> simp
@[simp] theorem State.pendDirect_jobs (s : State) (n : Nat) (miss : Fld) : (s.pendDirect n miss).jobs = s.jobs := by
  unfold State.pendDirect; split <;> simp
@[simp] theorem State.pendDirect_links (s : State) (n : Nat) (miss : Fld) : (s.pendDirect n miss).links = s.links := by
  unfold State.pendDirect; split <;> simp
@[simp] theorem State.pendDirect_ring (s : State) (n : Nat) (miss : Fld) : (s.pendDirect n miss).ring = s.ring := by
  unfold State.pendDirect; split <;> simp
@[simp] theorem State.pendDirect_inaug (s : State) (n : Nat) (miss : Fld) : (s.pendDirect n miss).inaug = s.inaug := by
  unfold State.pendDirect; split <;> simp
@[simp] theorem State.pendDirect_dring (s : State) (n : Nat) (miss : Fld) : (s.pendDirect n miss).dring = s.dring := by
  unfold State.pendDirect; split <;> simp
@[simp] theorem State.pendDirect_red (s : State) (n : Nat) (miss : Fld) : (s.pendDirect n miss).red = s.red := by
  unfold State.pendDirect; split <;> simp
@[simp] theorem State.pendDirect_aud (s : State) (n : Nat) (miss : Fld) : (s.pendDirect n miss).aud = s.aud := by
  unfold State.pendDirect; split <;> simp
@[simp] theorem State.pendDirect_vox (s : State) (n : Nat) (miss : Fld) : (s.pendDirect n miss).vox = s.vox := by
  unfold State.pendDirect; split <;> simp
@[simp] theorem State.pendDirect_clk (s : State) (n : Nat) (miss : Fld) : (s.pendDirect n miss).clk = s.clk := by
  unfold State.pendDirect; split <;> simp
@[simp] theorem State.pendDirect_rtc (s : State) (n : Nat) (miss : Fld) : (s.pendDirect n miss).rtc = s.rtc := by
  unfold State.pendDirect; split <;> simp
@[simp] theorem State.pendDirect_pins (s : State) (n : Nat) (miss : Fld) : (s.pendDirect n miss).pins = s.pins := by
  unfold State.pendDirect; split <;> simp
@[simp] theorem State.pendDirect_claim (s : State) (n : Nat) (miss : Fld) : (s.pendDirect n miss).claim = s.claim := by
  unfold State.pendDirect; split <;> simp
@[simp] theorem State.pendDirect_engines (s : State) (n : Nat) (miss : Fld) : (s.pendDirect n miss).engines = s.engines := by
  unfold State.pendDirect; split <;> simp
@[simp] theorem State.pendDirect_evr (s : State) (n : Nat) (miss : Fld) : (s.pendDirect n miss).evr = s.evr := by
  unfold State.pendDirect; split <;> simp
@[simp] theorem State.pendDirect_eth (s : State) (n : Nat) (miss : Fld) : (s.pendDirect n miss).eth = s.eth := by
  unfold State.pendDirect; split <;> simp
@[simp] theorem State.pendDirect_can (s : State) (n : Nat) (miss : Fld) : (s.pendDirect n miss).can = s.can := by
  unfold State.pendDirect; split <;> simp
@[simp] theorem State.pendDirect_stk (s : State) (n : Nat) (miss : Fld) : (s.pendDirect n miss).stk = s.stk := by
  unfold State.pendDirect; split <;> simp
@[simp] theorem State.pendDirect_pwr (s : State) (n : Nat) (miss : Fld) : (s.pendDirect n miss).pwr = s.pwr := by
  unfold State.pendDirect; split <;> simp
@[simp] theorem State.pendDirect_net (s : State) (n : Nat) (miss : Fld) : (s.pendDirect n miss).net = s.net := by
  unfold State.pendDirect; split <;> simp
@[simp] theorem State.pendDirect_sec (s : State) (n : Nat) (miss : Fld) : (s.pendDirect n miss).sec = s.sec := by
  unfold State.pendDirect; split <;> simp
@[simp] theorem State.pendDirect_storeTest (s : State) (n : Nat) (miss : Fld) : (s.pendDirect n miss).storeTest = s.storeTest := by
  unfold State.pendDirect; split <;> simp
@[simp] theorem State.pendDirect_dio (s : State) (n : Nat) (miss : Fld) : (s.pendDirect n miss).dio = s.dio := by
  unfold State.pendDirect; split <;> simp

@[simp] theorem State.showFault_pending (s : State) : (s.showFault).pending = s.pending := by
  rfl
@[simp] theorem State.showFault_free (s : State) : (s.showFault).free = s.free := by
  rfl
@[simp] theorem State.showFault_store (s : State) : (s.showFault).store = s.store := by
  rfl
@[simp] theorem State.showFault_outbox (s : State) : (s.showFault).outbox = s.outbox := by
  rfl
@[simp] theorem State.showFault_mem (s : State) : (s.showFault).mem = s.mem := by
  rfl
@[simp] theorem State.showFault_brg (s : State) : (s.showFault).brg = s.brg := by
  rfl
@[simp] theorem State.showFault_totals (s : State) : (s.showFault).totals = s.totals := by
  rfl
@[simp] theorem State.showFault_mbx (s : State) : (s.showFault).mbx = s.mbx := by
  rfl
@[simp] theorem State.showFault_units (s : State) : (s.showFault).units = s.units := by
  rfl
@[simp] theorem State.showFault_cfg (s : State) : (s.showFault).cfg = s.cfg := by
  rfl
@[simp] theorem State.showFault_straps (s : State) : (s.showFault).straps = s.straps := by
  rfl
@[simp] theorem State.showFault_uid (s : State) : (s.showFault).uid = s.uid := by
  rfl
@[simp] theorem State.showFault_decik (s : State) : (s.showFault).decik = s.decik := by
  rfl
@[simp] theorem State.showFault_jobs (s : State) : (s.showFault).jobs = s.jobs := by
  rfl
@[simp] theorem State.showFault_links (s : State) : (s.showFault).links = s.links := by
  rfl
@[simp] theorem State.showFault_ring (s : State) : (s.showFault).ring = s.ring := by
  rfl
@[simp] theorem State.showFault_inaug (s : State) : (s.showFault).inaug = s.inaug := by
  rfl
@[simp] theorem State.showFault_dring (s : State) : (s.showFault).dring = s.dring := by
  rfl
@[simp] theorem State.showFault_red (s : State) : (s.showFault).red = s.red := by
  rfl
@[simp] theorem State.showFault_aud (s : State) : (s.showFault).aud = s.aud := by
  rfl
@[simp] theorem State.showFault_vox (s : State) : (s.showFault).vox = s.vox := by
  rfl
@[simp] theorem State.showFault_clk (s : State) : (s.showFault).clk = s.clk := by
  rfl
@[simp] theorem State.showFault_rtc (s : State) : (s.showFault).rtc = s.rtc := by
  rfl
@[simp] theorem State.showFault_pins (s : State) : (s.showFault).pins = s.pins := by
  rfl
@[simp] theorem State.showFault_claim (s : State) : (s.showFault).claim = s.claim := by
  rfl
@[simp] theorem State.showFault_engines (s : State) : (s.showFault).engines = s.engines := by
  rfl
@[simp] theorem State.showFault_msix (s : State) : (s.showFault).msix = s.msix := by
  rfl
@[simp] theorem State.showFault_evr (s : State) : (s.showFault).evr = s.evr := by
  rfl
@[simp] theorem State.showFault_eth (s : State) : (s.showFault).eth = s.eth := by
  rfl
@[simp] theorem State.showFault_can (s : State) : (s.showFault).can = s.can := by
  rfl
@[simp] theorem State.showFault_stk (s : State) : (s.showFault).stk = s.stk := by
  rfl
@[simp] theorem State.showFault_pwr (s : State) : (s.showFault).pwr = s.pwr := by
  rfl
@[simp] theorem State.showFault_net (s : State) : (s.showFault).net = s.net := by
  rfl
@[simp] theorem State.showFault_sec (s : State) : (s.showFault).sec = s.sec := by
  rfl
@[simp] theorem State.showFault_storeTest (s : State) : (s.showFault).storeTest = s.storeTest := by
  rfl
@[simp] theorem State.showFault_dio (s : State) : (s.showFault).dio = s.dio := by
  rfl

@[simp] theorem State.faultCause_pending (s : State) (cause evtF : Fld) (on : Bool) : (s.faultCause cause evtF on).pending = s.pending := by
  unfold State.faultCause; dsimp only; rw [State.showFault_pending]; split <;> simp
@[simp] theorem State.faultCause_free (s : State) (cause evtF : Fld) (on : Bool) : (s.faultCause cause evtF on).free = s.free := by
  unfold State.faultCause; dsimp only; rw [State.showFault_free]; split <;> simp
@[simp] theorem State.faultCause_store (s : State) (cause evtF : Fld) (on : Bool) : (s.faultCause cause evtF on).store = s.store := by
  unfold State.faultCause; dsimp only; rw [State.showFault_store]; split <;> simp
@[simp] theorem State.faultCause_mem (s : State) (cause evtF : Fld) (on : Bool) : (s.faultCause cause evtF on).mem = s.mem := by
  unfold State.faultCause; dsimp only; rw [State.showFault_mem]; split <;> simp
@[simp] theorem State.faultCause_brg (s : State) (cause evtF : Fld) (on : Bool) : (s.faultCause cause evtF on).brg = s.brg := by
  unfold State.faultCause; dsimp only; rw [State.showFault_brg]; split <;> simp
@[simp] theorem State.faultCause_totals (s : State) (cause evtF : Fld) (on : Bool) : (s.faultCause cause evtF on).totals = s.totals := by
  unfold State.faultCause; dsimp only; rw [State.showFault_totals]; split <;> simp
@[simp] theorem State.faultCause_mbx (s : State) (cause evtF : Fld) (on : Bool) : (s.faultCause cause evtF on).mbx = s.mbx := by
  unfold State.faultCause; dsimp only; rw [State.showFault_mbx]; split <;> simp
@[simp] theorem State.faultCause_units (s : State) (cause evtF : Fld) (on : Bool) : (s.faultCause cause evtF on).units = s.units := by
  unfold State.faultCause; dsimp only; rw [State.showFault_units]; split <;> simp
@[simp] theorem State.faultCause_cfg (s : State) (cause evtF : Fld) (on : Bool) : (s.faultCause cause evtF on).cfg = s.cfg := by
  unfold State.faultCause; dsimp only; rw [State.showFault_cfg]; split <;> simp
@[simp] theorem State.faultCause_straps (s : State) (cause evtF : Fld) (on : Bool) : (s.faultCause cause evtF on).straps = s.straps := by
  unfold State.faultCause; dsimp only; rw [State.showFault_straps]; split <;> simp
@[simp] theorem State.faultCause_uid (s : State) (cause evtF : Fld) (on : Bool) : (s.faultCause cause evtF on).uid = s.uid := by
  unfold State.faultCause; dsimp only; rw [State.showFault_uid]; split <;> simp
@[simp] theorem State.faultCause_decik (s : State) (cause evtF : Fld) (on : Bool) : (s.faultCause cause evtF on).decik = s.decik := by
  unfold State.faultCause; dsimp only; rw [State.showFault_decik]; split <;> simp
@[simp] theorem State.faultCause_jobs (s : State) (cause evtF : Fld) (on : Bool) : (s.faultCause cause evtF on).jobs = s.jobs := by
  unfold State.faultCause; dsimp only; rw [State.showFault_jobs]; split <;> simp
@[simp] theorem State.faultCause_links (s : State) (cause evtF : Fld) (on : Bool) : (s.faultCause cause evtF on).links = s.links := by
  unfold State.faultCause; dsimp only; rw [State.showFault_links]; split <;> simp
@[simp] theorem State.faultCause_ring (s : State) (cause evtF : Fld) (on : Bool) : (s.faultCause cause evtF on).ring = s.ring := by
  unfold State.faultCause; dsimp only; rw [State.showFault_ring]; split <;> simp
@[simp] theorem State.faultCause_inaug (s : State) (cause evtF : Fld) (on : Bool) : (s.faultCause cause evtF on).inaug = s.inaug := by
  unfold State.faultCause; dsimp only; rw [State.showFault_inaug]; split <;> simp
@[simp] theorem State.faultCause_dring (s : State) (cause evtF : Fld) (on : Bool) : (s.faultCause cause evtF on).dring = s.dring := by
  unfold State.faultCause; dsimp only; rw [State.showFault_dring]; split <;> simp
@[simp] theorem State.faultCause_red (s : State) (cause evtF : Fld) (on : Bool) : (s.faultCause cause evtF on).red = s.red := by
  unfold State.faultCause; dsimp only; rw [State.showFault_red]; split <;> simp
@[simp] theorem State.faultCause_aud (s : State) (cause evtF : Fld) (on : Bool) : (s.faultCause cause evtF on).aud = s.aud := by
  unfold State.faultCause; dsimp only; rw [State.showFault_aud]; split <;> simp
@[simp] theorem State.faultCause_vox (s : State) (cause evtF : Fld) (on : Bool) : (s.faultCause cause evtF on).vox = s.vox := by
  unfold State.faultCause; dsimp only; rw [State.showFault_vox]; split <;> simp
@[simp] theorem State.faultCause_clk (s : State) (cause evtF : Fld) (on : Bool) : (s.faultCause cause evtF on).clk = s.clk := by
  unfold State.faultCause; dsimp only; rw [State.showFault_clk]; split <;> simp
@[simp] theorem State.faultCause_rtc (s : State) (cause evtF : Fld) (on : Bool) : (s.faultCause cause evtF on).rtc = s.rtc := by
  unfold State.faultCause; dsimp only; rw [State.showFault_rtc]; split <;> simp
@[simp] theorem State.faultCause_pins (s : State) (cause evtF : Fld) (on : Bool) : (s.faultCause cause evtF on).pins = s.pins := by
  unfold State.faultCause; dsimp only; rw [State.showFault_pins]; split <;> simp
@[simp] theorem State.faultCause_claim (s : State) (cause evtF : Fld) (on : Bool) : (s.faultCause cause evtF on).claim = s.claim := by
  unfold State.faultCause; dsimp only; rw [State.showFault_claim]; split <;> simp
@[simp] theorem State.faultCause_engines (s : State) (cause evtF : Fld) (on : Bool) : (s.faultCause cause evtF on).engines = s.engines := by
  unfold State.faultCause; dsimp only; rw [State.showFault_engines]; split <;> simp
@[simp] theorem State.faultCause_evr (s : State) (cause evtF : Fld) (on : Bool) : (s.faultCause cause evtF on).evr = s.evr := by
  unfold State.faultCause; dsimp only; rw [State.showFault_evr]; split <;> simp
@[simp] theorem State.faultCause_eth (s : State) (cause evtF : Fld) (on : Bool) : (s.faultCause cause evtF on).eth = s.eth := by
  unfold State.faultCause; dsimp only; rw [State.showFault_eth]; split <;> simp
@[simp] theorem State.faultCause_can (s : State) (cause evtF : Fld) (on : Bool) : (s.faultCause cause evtF on).can = s.can := by
  unfold State.faultCause; dsimp only; rw [State.showFault_can]; split <;> simp
@[simp] theorem State.faultCause_stk (s : State) (cause evtF : Fld) (on : Bool) : (s.faultCause cause evtF on).stk = s.stk := by
  unfold State.faultCause; dsimp only; rw [State.showFault_stk]; split <;> simp
@[simp] theorem State.faultCause_pwr (s : State) (cause evtF : Fld) (on : Bool) : (s.faultCause cause evtF on).pwr = s.pwr := by
  unfold State.faultCause; dsimp only; rw [State.showFault_pwr]; split <;> simp
@[simp] theorem State.faultCause_net (s : State) (cause evtF : Fld) (on : Bool) : (s.faultCause cause evtF on).net = s.net := by
  unfold State.faultCause; dsimp only; rw [State.showFault_net]; split <;> simp
@[simp] theorem State.faultCause_sec (s : State) (cause evtF : Fld) (on : Bool) : (s.faultCause cause evtF on).sec = s.sec := by
  unfold State.faultCause; dsimp only; rw [State.showFault_sec]; split <;> simp
@[simp] theorem State.faultCause_storeTest (s : State) (cause evtF : Fld) (on : Bool) : (s.faultCause cause evtF on).storeTest = s.storeTest := by
  unfold State.faultCause; dsimp only; rw [State.showFault_storeTest]; split <;> simp
@[simp] theorem State.faultCause_dio (s : State) (cause evtF : Fld) (on : Bool) : (s.faultCause cause evtF on).dio = s.dio := by
  unfold State.faultCause; dsimp only; rw [State.showFault_dio]; split <;> simp

end Sys2Proof.Machine
end

