-- ==== Sys2Proof/Laws/Ops.lean ====
section
/-! SUPPORT. What reading a register word or field answers after a write of one. -/

namespace Sys2Proof.Machine

/-! ## Words -/

@[simp] theorem State.word_setWord_self (s : State) (off : Nat) (w : Word) : (s.setWord off w).word off = w :=
  Sparse.get_put_self resetWord s.regs off w

theorem State.word_setWord_ne (s : State) {a b : Nat} (w : Word) (h : b ≠ a) : (s.setWord a w).word b = s.word b :=
  Sparse.get_put_ne resetWord s.regs w h

/-! ## Fields of a word -/

theorem testBit_bitsOf (w : Word) (hi lo i : Nat) :
    (bitsOf w hi lo).testBit i = (decide (i < hi + 1 - lo) && w.getLsbD (lo + i)) := by
  unfold bitsOf
  rw [Nat.testBit_mod_two_pow, Nat.testBit_div_two_pow, BitVec.testBit_toNat, Nat.add_comm i lo]

theorem getLsbD_maskBits (hi lo i : Nat) :
    (maskBits hi lo).getLsbD i = (decide (i < 32) && decide (lo ≤ i) && decide (i - lo < hi + 1 - lo)) := by
  unfold maskBits
  rw [BitVec.getLsbD_shiftLeft, BitVec.getLsbD_ofNat, Nat.testBit_two_pow_sub_one]
  by_cases h1 : i < 32
  · by_cases h2 : lo ≤ i
    · have h3 : ¬ i < lo := by omega
      have h4 : i - lo < 32 := by omega
      simp [h1, h2, h3, h4]
    · have h3 : i < lo := by omega
      simp [h1, h2, h3]
  · simp [h1]

theorem getLsbD_putBits (w : Word) (hi lo x i : Nat) (hi32 : i < 32) :
    (putBits w hi lo x).getLsbD i = if lo ≤ i ∧ i ≤ hi then x.testBit (i - lo) else w.getLsbD i := by
  unfold putBits
  rw [BitVec.getLsbD_or, BitVec.getLsbD_and, BitVec.getLsbD_and, BitVec.getLsbD_not, getLsbD_maskBits,
    BitVec.getLsbD_shiftLeft, BitVec.getLsbD_ofNat]
  by_cases h1 : lo ≤ i
  · by_cases h2 : i ≤ hi
    · have h3 : i - lo < hi + 1 - lo := by omega
      have h4 : ¬ i < lo := by omega
      have h5 : i - lo < 32 := by omega
      simp [h1, h2, h3, h4, h5, hi32]
    · have h3 : ¬ i - lo < hi + 1 - lo := by omega
      simp [h2, h3, hi32]
  · have h4 : i < lo := by omega
    simp [h1, h4, hi32]

/-- A field reads as the low bits of what was last written to it. -/
theorem bitsOf_putBits_self (w : Word) {hi lo : Nat} (x : Nat) (h1 : lo ≤ hi) (h2 : hi < 32) :
    bitsOf (putBits w hi lo x) hi lo = x % 2 ^ (hi + 1 - lo) := by
  apply Nat.eq_of_testBit_eq
  intro i
  rw [testBit_bitsOf, Nat.testBit_mod_two_pow]
  by_cases h : i < hi + 1 - lo
  · rw [getLsbD_putBits w hi lo x (lo + i) (by omega)]
    have h3 : lo ≤ lo + i ∧ lo + i ≤ hi := by omega
    rw [if_pos h3, Nat.add_sub_cancel_left]
  · simp [h]

/-- A field does not change with one that it shares no bit with. -/
theorem bitsOf_putBits_other (w : Word) {hi lo hi' lo' : Nat} (x : Nat) (h : hi < lo' ∨ hi' < lo) :
    bitsOf (putBits w hi lo x) hi' lo' = bitsOf w hi' lo' := by
  apply Nat.eq_of_testBit_eq
  intro i
  rw [testBit_bitsOf, testBit_bitsOf]
  by_cases h1 : i < hi' + 1 - lo'
  · by_cases h2 : lo' + i < 32
    · rw [getLsbD_putBits w hi lo x (lo' + i) h2, if_neg (by omega)]
    · rw [BitVec.getLsbD_of_ge _ _ (by omega), BitVec.getLsbD_of_ge _ _ (by omega)]
  · simp [h1]

/-! ## Fields of the state -/

/-- Is the field a field of a register word? -/
@[simp] def Fld.ok (f : Fld) : Bool := decide (f.lo ≤ f.hi) && decide (f.hi < 32)

/-- Do two fields share no bit? -/
@[simp] def Fld.apart (f g : Fld) : Bool := f.off != g.off || decide (f.hi < g.lo) || decide (g.hi < f.lo)

@[simp] theorem State.get_set_self (s : State) (f : Fld) (x : Nat) (h : f.ok = true) : (s.set f x).get f = x % 2 ^ f.width := by
  simp only [Fld.ok, Bool.and_eq_true, decide_eq_true_eq] at h
  unfold State.get State.set
  rw [State.word_setWord_self, bitsOf_putBits_self _ _ h.1 h.2]
  rfl

@[simp] theorem State.get_set_apart (s : State) {f g : Fld} (x : Nat) (h : f.apart g = true) : (s.set f x).get g = s.get g := by
  simp only [Fld.apart, Bool.or_eq_true, bne_iff_ne, ne_eq, decide_eq_true_eq] at h
  unfold State.get State.set
  by_cases ho : g.off = f.off
  · rw [ho, State.word_setWord_self]
    refine bitsOf_putBits_other _ _ ?_
    obtain (h | h) | h := h
    · exact absurd ho.symm h
    · exact .inl h
    · exact .inr h
  · rw [State.word_setWord_ne s _ ho]

theorem State.word_set_ne (s : State) (f : Fld) (x : Nat) {off : Nat} (h : off ≠ f.off) : (s.set f x).word off = s.word off :=
  State.word_setWord_ne s _ h

@[simp] theorem State.flag_setFlag_self (s : State) (f : Fld) (b : Bool) (h : f.ok = true) : (s.setFlag f b).flag f = b := by
  unfold State.flag State.setFlag
  rw [State.get_set_self s f _ h]
  have hw : 1 ≤ f.width := by
    simp only [Fld.ok, Bool.and_eq_true, decide_eq_true_eq] at h
    unfold Fld.width; omega
  have h2 : 2 ≤ 2 ^ f.width := by
    calc 2 = 2 ^ 1 := rfl
      _ ≤ 2 ^ f.width := Nat.pow_le_pow_right (by omega) hw
  cases b
  · simp [b2n]
  · rw [show b2n true = 1 from rfl, Nat.mod_eq_of_lt (by omega)]; rfl

@[simp] theorem State.get_setFlag_apart (s : State) {f g : Fld} (b : Bool) (h : f.apart g = true) : (s.setFlag f b).get g = s.get g :=
  State.get_set_apart s _ h

@[simp] theorem State.get_putBit_apart (s : State) {f g : Fld} (i : Nat) (b : Bool) (h : f.apart g = true) :
    (s.putBit f i b).get g = s.get g := State.get_set_apart s _ h

/-- What a field reads as is decided by the register file alone. -/
theorem State.get_congr {s t : State} (h : s.regs = t.regs) (f : Fld) : s.get f = t.get f := by
  unfold State.get State.word; rw [h]

/-- Replacing parts of the state other than the register file changes no register. -/
@[simp] theorem State.word_mk (s : State) (x0 : List Instr) (x1 : Nat) (x3 : List Host.Cell) (x4 : List Output) (x5 : StoreSt) (x6 : BridgeSt) (x7 : List (Nat × Nat)) (x8 : MbxSt) (x9 : List UnitSt) (x10 : CfgSt) (x11 : Straps) (x12 : DWord) (x13 : DecikSt) (x14 : List Job) (x15 : Vector LinkSt 4) (x16 : RingSt) (x17 : InaugSt) (x18 : DurableRing) (x19 : RedSt) (x20 : AudSt) (x21 : VoxSt) (x22 : ClockSt) (x23 : Nat) (x24 : PinsSt) (x25 : ClaimFacts) (x26 : Vector EngineSt 4) (x27 : MsixSt) (x28 : EvrSt) (x29 : EthSt) (x30 : CanSt) (x31 : StackSt) (x32 : PwrSt) (x33 : NetSt) (x34 : SecSt) (x35 : Option StoreTestSt) (x36 : DioSt) (a : Nat) :
    (State.mk x0 x1 s.regs x3 x4 x5 x6 x7 x8 x9 x10 x11 x12 x13 x14 x15 x16 x17 x18 x19 x20 x21 x22 x23 x24 x25 x26 x27 x28 x29 x30 x31 x32 x33 x34 x35 x36).word a = s.word a := rfl

@[simp] theorem State.get_mk (s : State) (x0 : List Instr) (x1 : Nat) (x3 : List Host.Cell) (x4 : List Output) (x5 : StoreSt) (x6 : BridgeSt) (x7 : List (Nat × Nat)) (x8 : MbxSt) (x9 : List UnitSt) (x10 : CfgSt) (x11 : Straps) (x12 : DWord) (x13 : DecikSt) (x14 : List Job) (x15 : Vector LinkSt 4) (x16 : RingSt) (x17 : InaugSt) (x18 : DurableRing) (x19 : RedSt) (x20 : AudSt) (x21 : VoxSt) (x22 : ClockSt) (x23 : Nat) (x24 : PinsSt) (x25 : ClaimFacts) (x26 : Vector EngineSt 4) (x27 : MsixSt) (x28 : EvrSt) (x29 : EthSt) (x30 : CanSt) (x31 : StackSt) (x32 : PwrSt) (x33 : NetSt) (x34 : SecSt) (x35 : Option StoreTestSt) (x36 : DioSt) (f : Fld) :
    (State.mk x0 x1 s.regs x3 x4 x5 x6 x7 x8 x9 x10 x11 x12 x13 x14 x15 x16 x17 x18 x19 x20 x21 x22 x23 x24 x25 x26 x27 x28 x29 x30 x31 x32 x33 x34 x35 x36).get f = s.get f := rfl

@[simp] theorem State.get_tally (s : State) (k d : Nat) (f : Fld) : (s.tally k d).get f = s.get f := rfl
@[simp] theorem State.get_emit (s : State) (o : Output) (f : Fld) : (s.emit o).get f = s.get f := rfl
@[simp] theorem State.word_tally (s : State) (k d : Nat) (a : Nat) : (s.tally k d).word a = s.word a := rfl
@[simp] theorem State.word_emit (s : State) (o : Output) (a : Nat) : (s.emit o).word a = s.word a := rfl

@[simp] theorem State.get_count_self (s : State) (f : Fld) (d : Nat) (h : f.ok = true) :
    (s.count f d).get f = satAdd f.width (s.get f) d := by
  unfold State.count
  rw [State.get_tally, State.get_set_self s f _ h, Nat.mod_eq_of_lt]
  have : 0 < 2 ^ f.width := Nat.pow_pos (by omega)
  unfold satAdd; omega

@[simp] theorem State.get_count_apart (s : State) {f g : Fld} (d : Nat) (h : f.apart g = true) : (s.count f d).get g = s.get g := by
  unfold State.count
  rw [State.get_tally, State.get_set_apart s _ h]

/-! ## Flags -/

@[simp] theorem State.flag_setFlag_apart (s : State) {f g : Fld} (b : Bool) (h : f.apart g = true) :
    (s.setFlag f b).flag g = s.flag g := by
  unfold State.flag; rw [State.get_setFlag_apart s b h]

@[simp] theorem State.flag_set_apart (s : State) {f g : Fld} (x : Nat) (h : f.apart g = true) : (s.set f x).flag g = s.flag g := by
  unfold State.flag; rw [State.get_set_apart s x h]

@[simp] theorem State.flag_putBit_apart (s : State) {f g : Fld} (i : Nat) (b : Bool) (h : f.apart g = true) :
    (s.putBit f i b).flag g = s.flag g := by
  unfold State.flag; rw [State.get_putBit_apart s i b h]

@[simp] theorem State.flag_count_apart (s : State) {f g : Fld} (d : Nat) (h : f.apart g = true) : (s.count f d).flag g = s.flag g := by
  unfold State.flag; rw [State.get_count_apart s d h]

@[simp] theorem State.flag_tally (s : State) (k d : Nat) (f : Fld) : (s.tally k d).flag f = s.flag f := rfl
@[simp] theorem State.flag_emit (s : State) (o : Output) (f : Fld) : (s.emit o).flag f = s.flag f := rfl

@[simp] theorem State.flag_mk (s : State) (x0 : List Instr) (x1 : Nat) (x3 : List Host.Cell) (x4 : List Output) (x5 : StoreSt) (x6 : BridgeSt) (x7 : List (Nat × Nat)) (x8 : MbxSt) (x9 : List UnitSt) (x10 : CfgSt) (x11 : Straps) (x12 : DWord) (x13 : DecikSt) (x14 : List Job) (x15 : Vector LinkSt 4) (x16 : RingSt) (x17 : InaugSt) (x18 : DurableRing) (x19 : RedSt) (x20 : AudSt) (x21 : VoxSt) (x22 : ClockSt) (x23 : Nat) (x24 : PinsSt) (x25 : ClaimFacts) (x26 : Vector EngineSt 4) (x27 : MsixSt) (x28 : EvrSt) (x29 : EthSt) (x30 : CanSt) (x31 : StackSt) (x32 : PwrSt) (x33 : NetSt) (x34 : SecSt) (x35 : Option StoreTestSt) (x36 : DioSt) (f : Fld) :
    (State.mk x0 x1 s.regs x3 x4 x5 x6 x7 x8 x9 x10 x11 x12 x13 x14 x15 x16 x17 x18 x19 x20 x21 x22 x23 x24 x25 x26 x27 x28 x29 x30 x31 x32 x33 x34 x35 x36).flag f = s.flag f := rfl

/-! ## The store -/

/-- Writing a byte of defined store: it reads back. -/
theorem State.store_putByte_self (s : State) (a : Nat) (x : Byte) : Sparse.get memDflt (s.putByte a x).store a = x :=
  Sparse.get_put_self memDflt s.store a x

theorem State.store_putByte_ne (s : State) {a b : Nat} (x : Byte) (h : b ≠ a) :
    Sparse.get memDflt (s.putByte a x).store b = Sparse.get memDflt s.store b :=
  Sparse.get_put_ne memDflt s.store x h

end Sys2Proof.Machine
end

