-- ==== Sys2Proof/Laws/Host.lean ====
section
/-! SUPPORT. Host accesses of registers, and the two kinds of port. -/

namespace Sys2Proof.Machine

theorem State.access_reaches {s : State} {off : Nat} (h : s.reaches off = true) (f : State → State) : s.access off f = f s.uncaptured := by
  unfold State.access
  exact if_pos h

theorem State.access_unreached {s : State} {off : Nat} (h : s.reaches off = false) (f : State → State) : s.access off f = s.uncaptured := by
  unfold State.access
  exact if_neg (show ¬ s.reaches off = true by rw [h]; decide)

@[simp] theorem State.get_uncaptured (s : State) (f : Fld) : s.uncaptured.get f = s.get f := rfl
@[simp] theorem State.word_uncaptured (s : State) (a : Nat) : s.uncaptured.word a = s.word a := rfl
@[simp] theorem State.pending_uncaptured (s : State) : s.uncaptured.pending = s.pending := rfl
@[simp] theorem State.free_uncaptured (s : State) : s.uncaptured.free = s.free := rfl
@[simp] theorem State.regs_uncaptured (s : State) : s.uncaptured.regs = s.regs := rfl
@[simp] theorem State.store_uncaptured (s : State) : s.uncaptured.store = s.store := rfl
@[simp] theorem State.outbox_uncaptured (s : State) : s.uncaptured.outbox = s.outbox := rfl
@[simp] theorem State.mem_uncaptured (s : State) : s.uncaptured.mem = s.mem := rfl
@[simp] theorem State.brg_uncaptured (s : State) : s.uncaptured.brg = s.brg := rfl
@[simp] theorem State.totals_uncaptured (s : State) : s.uncaptured.totals = s.totals := rfl
@[simp] theorem State.mbx_uncaptured (s : State) : s.uncaptured.mbx = s.mbx := rfl
@[simp] theorem State.units_uncaptured (s : State) : s.uncaptured.units = s.units := rfl
@[simp] theorem State.cfg_uncaptured (s : State) : s.uncaptured.cfg = s.cfg := rfl
@[simp] theorem State.straps_uncaptured (s : State) : s.uncaptured.straps = s.straps := rfl
@[simp] theorem State.uid_uncaptured (s : State) : s.uncaptured.uid = s.uid := rfl
@[simp] theorem State.decik_uncaptured (s : State) : s.uncaptured.decik = s.decik := rfl
@[simp] theorem State.jobs_uncaptured (s : State) : s.uncaptured.jobs = s.jobs := rfl
@[simp] theorem State.links_uncaptured (s : State) : s.uncaptured.links = s.links := rfl
@[simp] theorem State.ring_uncaptured (s : State) : s.uncaptured.ring = s.ring := rfl
@[simp] theorem State.inaug_uncaptured (s : State) : s.uncaptured.inaug = s.inaug := rfl
@[simp] theorem State.dring_uncaptured (s : State) : s.uncaptured.dring = s.dring := rfl
@[simp] theorem State.red_uncaptured (s : State) : s.uncaptured.red = s.red := rfl
@[simp] theorem State.aud_uncaptured (s : State) : s.uncaptured.aud = s.aud := rfl
@[simp] theorem State.vox_uncaptured (s : State) : s.uncaptured.vox = s.vox := rfl
@[simp] theorem State.rtc_uncaptured (s : State) : s.uncaptured.rtc = s.rtc := rfl
@[simp] theorem State.pins_uncaptured (s : State) : s.uncaptured.pins = s.pins := rfl
@[simp] theorem State.claim_uncaptured (s : State) : s.uncaptured.claim = s.claim := rfl
@[simp] theorem State.engines_uncaptured (s : State) : s.uncaptured.engines = s.engines := rfl
@[simp] theorem State.msix_uncaptured (s : State) : s.uncaptured.msix = s.msix := rfl
@[simp] theorem State.evr_uncaptured (s : State) : s.uncaptured.evr = s.evr := rfl
@[simp] theorem State.eth_uncaptured (s : State) : s.uncaptured.eth = s.eth := rfl
@[simp] theorem State.can_uncaptured (s : State) : s.uncaptured.can = s.can := rfl
@[simp] theorem State.stk_uncaptured (s : State) : s.uncaptured.stk = s.stk := rfl
@[simp] theorem State.pwr_uncaptured (s : State) : s.uncaptured.pwr = s.pwr := rfl
@[simp] theorem State.net_uncaptured (s : State) : s.uncaptured.net = s.net := rfl
@[simp] theorem State.sec_uncaptured (s : State) : s.uncaptured.sec = s.sec := rfl
@[simp] theorem State.storeTest_uncaptured (s : State) : s.uncaptured.storeTest = s.storeTest := rfl
@[simp] theorem State.dio_uncaptured (s : State) : s.uncaptured.dio = s.dio := rfl

@[simp] theorem onPort_couplerPort (m : LinkIx) (c : LinkIx → State) (k : Nat → State) : onPort (couplerPort m) c k = c m := by
  unfold onPort couplerPort
  simp

@[simp] theorem onPort_stackPort (p : Fin 2) (c : LinkIx → State) (k : Nat → State) : onPort (stackPort p) c k = k p.val := by
  unfold onPort stackPort
  rw [dif_neg (by simp)]
  simp

@[simp] theorem portReg_couplerPort (m : LinkIx) (a b : Nat) : portReg (couplerPort m) a b = a := by
  unfold portReg couplerPort
  simp

@[simp] theorem portReg_stackPort (p : Fin 2) (a b : Nat) : portReg (stackPort p) a b = b := by
  unfold portReg stackPort
  rw [if_neg (by simp)]

end Sys2Proof.Machine
end

