-- ==== Sys2Proof/Laws/Keeps.lean ====
section
/-! SUPPORT. The frame of every command: what no command changes, and the lemmas of the shared operations about it. -/

namespace Sys2Proof.Machine

/-- What every command leaves of the state: the queue and the UID as they were, and the canonical forms of the register file and the
store where they held. -/
structure Keeps (s t : State) : Prop where
  pending : t.pending = s.pending
  uid : t.uid = s.uid
  regs : Sparse.wf resetWord s.regs = true → Sparse.wf resetWord t.regs = true
  store : Memory.wf s.store = true → Memory.wf t.store = true

theorem Keeps.refl (s : State) : Keeps s s := ⟨rfl, rfl, id, id⟩

theorem Keeps.update {s t : State} (h : Keeps s t) (x1 : Nat) (x4 : List Output) (x5 : StoreSt) (x6 : BridgeSt) (x7 : List (Nat × Nat)) (x8 : MbxSt) (x9 : List UnitSt) (x10 : CfgSt) (x11 : Straps) (x13 : DecikSt) (x14 : List Job) (x15 : Vector LinkSt 4) (x16 : RingSt) (x17 : InaugSt) (x18 : DurableRing) (x19 : RedSt) (x20 : AudSt) (x21 : VoxSt) (x22 : ClockSt) (x23 : Nat) (x24 : PinsSt) (x25 : ClaimFacts) (x26 : Vector EngineSt 4) (x27 : MsixSt) (x28 : EvrSt) (x29 : EthSt) (x30 : CanSt) (x31 : StackSt) (x32 : PwrSt) (x33 : NetSt) (x34 : SecSt) (x35 : Option StoreTestSt) (x36 : DioSt) :
    Keeps s (State.mk t.pending x1 t.regs t.store x4 x5 x6 x7 x8 x9 x10 x11 t.uid x13 x14 x15 x16 x17 x18 x19 x20 x21 x22 x23 x24 x25 x26 x27 x28 x29 x30 x31 x32 x33 x34 x35 x36) :=
  ⟨h.1, h.2, h.3, h.4⟩

theorem Keeps.foldl {α : Type} {s : State} {f : State → α → State} {l : List α} {t : State} (h : Keeps s t)
    (hf : ∀ u x, Keeps s u → Keeps s (f u x)) : Keeps s (l.foldl f t) := by
  induction l generalizing t with
  | nil => exact h
  | cons a l ih => exact ih (hf t a h)

theorem State.setWord_keeps {s t : State} (h : Keeps s t) (off : Nat) (w : Word) : Keeps s (t.setWord off w) :=
  ⟨h.1, h.2, fun x => Sparse.wf_put resetWord t.regs off w (h.3 x), h.4⟩

theorem Sparse.risingFrom_filter {α : Type} (p : Nat × α → Bool) (l : List (Nat × α)) :
    ∀ lo, Sparse.risingFrom lo l = true → Sparse.risingFrom lo (l.filter p) = true := by
  induction l with
  | nil => intro lo h; exact h
  | cons e l ih =>
    intro lo h
    obtain ⟨k, v⟩ := e
    simp only [Sparse.risingFrom, Bool.and_eq_true] at h
    by_cases hp : p (k, v) = true
    · simp only [List.filter_cons, hp, if_true, Sparse.risingFrom, Bool.and_eq_true]
      exact ⟨h.1, ih _ h.2⟩
    · simp only [List.filter_cons, hp]
      refine ih lo (Sparse.risingFrom_weaken l ?_ h.2)
      rintro b rfl
      exact ⟨k, rfl, by have := h.1; simp only [decide_eq_true_eq] at this; omega⟩

theorem Sparse.wf_filter {α : Type} [DecidableEq α] (d : Nat → α) (p : Nat × α → Bool) (l : List (Nat × α))
    (h : Sparse.wf d l = true) : Sparse.wf d (l.filter p) = true := by
  simp only [Sparse.wf, Bool.and_eq_true, List.all_eq_true] at h ⊢
  exact ⟨Sparse.risingFrom_filter p l _ h.1, fun x hx => h.2 x ((List.mem_filter.mp hx).1)⟩

theorem State.resetRegs_keeps {s t : State} (h : Keeps s t) (lo hi : Nat) : Keeps s (t.resetRegs lo hi) :=
  ⟨h.1, h.2, fun x => Sparse.wf_filter resetWord _ t.regs (h.3 x), h.4⟩

theorem Sparse.wf_putAll {α β : Type} [DecidableEq α] (d : Nat → α) (l : List β) (f : β → Nat) (g : β → α) :
    ∀ m, Sparse.wf d m = true → Sparse.wf d (l.foldl (fun m e => Sparse.put d m (f e) (g e)) m) = true := by
  induction l with
  | nil => intro m h; exact h
  | cons e l ih => intro m h; exact ih _ (Sparse.wf_put d m (f e) (g e) h)

theorem State.putByte_keeps {s t : State} (h : Keeps s t) (a : Nat) (x : Byte) : Keeps s (t.putByte a x) :=
  ⟨h.1, h.2, h.3, fun w => Sparse.wf_put memDflt t.store a x (h.4 w)⟩

theorem State.putBytes_keeps {s : State} (a : Nat) (l : List Nat) : ∀ {t : State}, Keeps s t → Keeps s (t.putBytes a l) := by
  induction l generalizing a with
  | nil => intro t h; exact h
  | cons x l ih => intro t h; exact ih _ (State.putByte_keeps h a _)

theorem State.putBlock_keeps {s t : State} (h : Keeps s t) (a n : Nat) (b : Bytes) : Keeps s (t.putBlock a n b) :=
  ⟨h.1, h.2, h.3, fun w => by
    have h1 := Sparse.wf_putAll memDflt (t.store.filter (fun e => decide (a ≤ e.1) && decide (e.1 < a + n)))
      (fun e : Nat × Byte => e.1) (fun _ => (0 : Byte)) t.store (h.4 w)
    exact Sparse.wf_putAll memDflt (b.filter (fun e => decide (e.1 < n))) (fun e : Nat × Byte => a + e.1) (fun e => e.2) _ h1⟩

/-- Where an outcome is a next state, that state keeps. -/
def NextKeeps (s : State) (o : Host.Outcome State Fault Refusal) : Prop :=
  match o with
  | .next u => Keeps s u
  | .fault _ => True
  | .refused _ => True

theorem NextKeeps.next {s u : State} (h : Keeps s u) : NextKeeps s (.next u) := h

theorem Keeps.ite {s a b : State} {c : Prop} [Decidable c] (ha : Keeps s a) (hb : Keeps s b) : Keeps s (if c then a else b) := by
  split
  · exact ha
  · exact hb

theorem Keeps.filterStore {s t : State} (h : Keeps s t) (p : Host.Cell → Bool) (x1 : Nat) (x4 : List Output) (x5 : StoreSt) (x6 : BridgeSt) (x7 : List (Nat × Nat)) (x8 : MbxSt) (x9 : List UnitSt) (x10 : CfgSt) (x11 : Straps) (x13 : DecikSt) (x14 : List Job) (x15 : Vector LinkSt 4) (x16 : RingSt) (x17 : InaugSt) (x18 : DurableRing) (x19 : RedSt) (x20 : AudSt) (x21 : VoxSt) (x22 : ClockSt) (x23 : Nat) (x24 : PinsSt) (x25 : ClaimFacts) (x26 : Vector EngineSt 4) (x27 : MsixSt) (x28 : EvrSt) (x29 : EthSt) (x30 : CanSt) (x31 : StackSt) (x32 : PwrSt) (x33 : NetSt) (x34 : SecSt) (x35 : Option StoreTestSt) (x36 : DioSt) :
    Keeps s (State.mk t.pending x1 t.regs (t.store.filter p) x4 x5 x6 x7 x8 x9 x10 x11 t.uid x13 x14 x15 x16 x17 x18 x19 x20 x21 x22 x23 x24 x25 x26 x27 x28 x29 x30 x31 x32 x33 x34 x35 x36) :=
  ⟨h.1, h.2, h.3, fun w => Sparse.wf_filter memDflt p t.store (h.4 w)⟩

theorem Keeps.foldl_snd {α β : Type} {s : State} {f : β × State → α → β × State} {l : List α} {a : β × State} (h : Keeps s a.2)
    (hf : ∀ b x, Keeps s b.2 → Keeps s (f b x).2) : Keeps s (l.foldl f a).2 := by
  induction l generalizing a with
  | nil => exact h
  | cons x l ih => exact ih (hf a x h)

theorem NextKeeps.refused {s : State} (r : Refusal) : NextKeeps s (.refused r) := True.intro

/-- The effect of a catalogue entry keeps. -/
def CmdKeeps (c : Cmd) : Prop := ∀ (s t : State) (q : OpenReq) (d : List Nat), Keeps s t → Keeps s (c.run t q d)

end Sys2Proof.Machine
end

