-- ==== Sys2Proof/Laws/KeepsRing.lean ====
section
/-! SUPPORT. What no command changes: registers, store, ring and frames. -/

namespace Sys2Proof.Machine

/-! ## Ops -/

theorem State.set_keeps {s t : State} (h : Keeps s t) (f : Fld) (x : Nat) : Keeps s (State.set t f x) := by
  unfold State.set
  repeat' with_reducible (first
    | assumption
    | apply State.setWord_keeps)

theorem State.setFlag_keeps {s t : State} (h : Keeps s t) (f : Fld) (b : Bool) : Keeps s (State.setFlag t f b) := by
  unfold State.setFlag
  repeat' with_reducible (first
    | assumption
    | apply State.set_keeps)

theorem State.tally_keeps {s t : State} (h : Keeps s t) (key d : Nat) : Keeps s (State.tally t key d) := by
  unfold State.tally
  repeat' with_reducible (first
    | assumption
    | apply Keeps.update)

theorem State.count_keeps {s t : State} (h : Keeps s t) (f : Fld) (d : Nat) : Keeps s (State.count t f d) := by
  unfold State.count
  repeat' with_reducible (first
    | assumption
    | apply State.tally_keeps
    | apply State.set_keeps)

theorem State.wrapInc_keeps {s t : State} (h : Keeps s t) (f : Fld) : Keeps s (State.wrapInc t f) := by
  unfold State.wrapInc
  repeat' with_reducible (first
    | assumption
    | apply State.set_keeps)

theorem State.putBit_keeps {s t : State} (h : Keeps s t) (f : Fld) (i : Nat) (b : Bool) : Keeps s (State.putBit t f i b) := by
  unfold State.putBit
  repeat' with_reducible (first
    | assumption
    | apply State.set_keeps)

theorem State.set64_keeps {s t : State} (h : Keeps s t) (lo hi : Fld) (x : Nat) : Keeps s (State.set64 t lo hi x) := by
  unfold State.set64
  repeat' with_reducible (first
    | assumption
    | apply State.set_keeps)

theorem State.access_keeps {s t : State} (h : Keeps s t) (off : Nat) (f : State → State) (hf : ∀ u, Keeps s u → Keeps s (f u)) : Keeps s (t.access off f) := by
  unfold State.access
  refine (?_ : ∀ v, Keeps s v → Keeps s (if v.domOn Dom.core && v.domOn (regDomain off) then f v else v)) _ (by apply Keeps.update; exact h)
  intro v hv
  split
  · exact hf _ hv
  · exact hv

theorem State.fresh_keeps {s t : State} (h : Keeps s t) : Keeps s (State.fresh t).2 := by
  unfold State.fresh
  repeat' with_reducible (first
    | assumption
    | apply Keeps.update)

theorem State.fresh_keeps_eq {s t u : State} (h : Keeps s t) {z} (e : State.fresh t = (z, u)) : Keeps s u := by
  have k := State.fresh_keeps h 
  rw [e] at k; exact k

theorem State.emit_keeps {s t : State} (h : Keeps s t) (o : Output) : Keeps s (State.emit t o) := by
  unfold State.emit
  repeat' with_reducible (first
    | assumption
    | apply Keeps.update)

theorem State.define_keeps {s t : State} (h : Keeps s t) (a n : Nat) : Keeps s (State.define t a n) := by
  unfold State.define
  repeat' with_reducible (first
    | assumption
    | apply Keeps.update)

theorem State.undefine_keeps {s t : State} (h : Keeps s t) (a n : Nat) : Keeps s (State.undefine t a n) := by
  unfold State.undefine
  repeat' with_reducible (first
    | assumption
    | apply State.define_keeps
    | apply Keeps.update)

theorem State.statSet_keeps {s t : State} (h : Keeps s t) (n : Nat) : Keeps s (State.statSet t n) := by
  unfold State.statSet
  repeat' with_reducible (first
    | assumption
    | apply State.emit_keeps
    | apply Keeps.ite
    | apply Keeps.update)

theorem State.irqLevel_keeps {s t : State} (h : Keeps s t) : Keeps s (State.irqLevel t) := by
  unfold State.irqLevel
  repeat' with_reducible (first
    | assumption
    | apply State.emit_keeps
    | apply State.setFlag_keeps
    | apply Keeps.ite
    | apply Keeps.update)

theorem State.setPend_keeps {s t : State} (h : Keeps s t) (n : Nat) : Keeps s (State.setPend t n) := by
  unfold State.setPend
  repeat' with_reducible (first
    | assumption
    | apply State.irqLevel_keeps
    | apply State.statSet_keeps
    | apply State.putBit_keeps
    | apply Keeps.ite)

theorem State.pend_keeps {s t : State} (h : Keeps s t) (n : Nat) : Keeps s (State.pend t n) := by
  unfold State.pend
  repeat' with_reducible (first
    | assumption
    | apply State.setPend_keeps
    | apply Keeps.ite)

theorem State.evt_keeps {s t : State} (h : Keeps s t) (f : Fld) (mask src : Nat) : Keeps s (State.evt t f mask src) := by
  unfold State.evt
  repeat' with_reducible (first
    | assumption
    | apply State.pend_keeps
    | apply State.set_keeps
    | apply Keeps.ite)

theorem State.evtBit_keeps {s t : State} (h : Keeps s t) (f : Fld) (i src : Nat) : Keeps s (State.evtBit t f i src) := by
  unfold State.evtBit
  repeat' with_reducible (first
    | assumption
    | apply State.evt_keeps)

theorem State.pendDirect_keeps {s t : State} (h : Keeps s t) (n : Nat) (miss : Fld) : Keeps s (State.pendDirect t n miss) := by
  unfold State.pendDirect
  repeat' with_reducible (first
    | assumption
    | apply State.pend_keeps
    | apply State.count_keeps
    | apply Keeps.ite)

theorem State.showFault_keeps {s t : State} (h : Keeps s t) : Keeps s (State.showFault t) := by
  unfold State.showFault
  repeat' with_reducible (first
    | assumption
    | apply State.setFlag_keeps)

theorem State.faultCause_keeps {s t : State} (h : Keeps s t) (cause evtF : Fld) (on : Bool) : Keeps s (State.faultCause t cause evtF on) := by
  unfold State.faultCause
  repeat' with_reducible (first
    | assumption
    | apply State.showFault_keeps
    | apply State.evt_keeps
    | apply State.setFlag_keeps
    | apply Keeps.ite)

theorem State.pendingPost_keeps {s t : State} (h : Keeps s t) (r : Record) : Keeps s (State.pendingPost t r) := by
  unfold State.pendingPost
  repeat' with_reducible (first
    | assumption
    | apply State.evt_keeps
    | apply State.count_keeps
    | apply State.set_keeps
    | apply Keeps.ite
    | apply Keeps.update)

theorem State.postBy_keeps {s t : State} (h : Keeps s t) (w : Writer) (e' : EvtCode) (inst : Nat) (data : List Nat) : Keeps s (State.postBy t w e' inst data) := by
  unfold State.postBy
  repeat' with_reducible (first
    | assumption
    | apply State.pendingPost_keeps
    | apply State.tally_keeps
    | split
    | apply Keeps.update)

theorem State.post_keeps {s t : State} (h : Keeps s t) (e' : EvtCode) (inst : Nat) (data : List Nat) : Keeps s (State.post t e' inst data) := by
  unfold State.post
  repeat' with_reducible (first
    | assumption
    | lift_lets
    | apply State.postBy_keeps)

/-! ## RingOps -/

theorem State.toPhase_keeps {s t : State} (h : Keeps s t) (p : Nat) : Keeps s (State.toPhase t p) := by
  unfold State.toPhase
  repeat' with_reducible (first
    | assumption
    | apply State.set_keeps
    | apply Keeps.update)

theorem State.agreeSleep_keeps {s t : State} (h : Keeps s t) (t' : Nat) : Keeps s (State.agreeSleep t t') := by
  unfold State.agreeSleep
  repeat' with_reducible (first
    | assumption
    | apply State.evt_keeps
    | apply State.set_keeps
    | apply Keeps.ite
    | apply Keeps.update)

theorem State.validComm_keeps {s t : State} (h : Keeps s t) : Keeps s (State.validComm t) := by
  unfold State.validComm
  repeat' with_reducible (first
    | assumption
    | apply State.set_keeps
    | apply Keeps.ite
    | apply Keeps.update)

theorem State.netRestart_keeps {s t : State} (h : Keeps s t) : Keeps s (State.netRestart t) := by
  unfold State.netRestart
  repeat' with_reducible (first
    | assumption
    | apply Keeps.update)

theorem State.inaugTrigger_keeps {s t : State} (h : Keeps s t) : Keeps s (State.inaugTrigger t) := by
  unfold State.inaugTrigger
  repeat' with_reducible (first
    | assumption
    | apply State.toPhase_keeps
    | apply Keeps.ite
    | apply Keeps.update)

theorem State.topoChange_keeps {s t : State} (h : Keeps s t) : Keeps s (State.topoChange t) := by
  unfold State.topoChange
  repeat' with_reducible (first
    | assumption
    | apply State.inaugTrigger_keeps
    | apply Keeps.ite
    | apply Keeps.update)

theorem State.inaugForget_keeps {s t : State} (h : Keeps s t) : Keeps s (State.inaugForget t) := by
  unfold State.inaugForget
  repeat' with_reducible (first
    | assumption
    | apply State.setFlag_keeps
    | apply Keeps.update)

theorem State.inaugAbandon_keeps {s t : State} (h : Keeps s t) : Keeps s (State.inaugAbandon t) := by
  unfold State.inaugAbandon
  repeat' with_reducible (first
    | assumption
    | apply State.inaugForget_keeps
    | apply State.toPhase_keeps
    | apply State.post_keeps
    | apply State.evt_keeps
    | apply State.count_keeps
    | apply State.set_keeps
    | apply Keeps.update)

theorem State.inaugDisturbed_keeps {s t : State} (h : Keeps s t) : Keeps s (State.inaugDisturbed t) := by
  unfold State.inaugDisturbed
  repeat' with_reducible (first
    | assumption
    | apply State.inaugAbandon_keeps
    | apply Keeps.ite)

theorem State.setLink_keeps {s t : State} (h : Keeps s t) (n : LinkIx) (l : LinkSt) : Keeps s (State.setLink t n l) := by
  unfold State.setLink
  repeat' with_reducible (first
    | assumption
    | apply Keeps.update)

theorem State.linkTo_keeps {s t : State} (h : Keeps s t) (n : LinkIx) (st : Nat) : Keeps s (State.linkTo t n st) := by
  unfold State.linkTo
  repeat' with_reducible (first
    | assumption
    | apply State.setLink_keeps
    | apply State.putBit_keeps
    | apply State.setFlag_keeps
    | apply State.set_keeps
    | apply Keeps.ite)

theorem State.qualRestart_keeps {s t : State} (h : Keeps s t) (n : LinkIx) : Keeps s (State.qualRestart t n) := by
  unfold State.qualRestart
  repeat' with_reducible (first
    | assumption
    | apply State.count_keeps)

theorem State.linkQualified_keeps {s t : State} (h : Keeps s t) (n : LinkIx) : Keeps s (State.linkQualified t n) := by
  unfold State.linkQualified
  repeat' with_reducible (first
    | assumption
    | apply State.linkTo_keeps
    | apply State.topoChange_keeps
    | apply State.validComm_keeps
    | apply State.evtBit_keeps)

theorem State.linkLost_keeps {s t : State} (h : Keeps s t) (n : LinkIx) (goal : Nat) : Keeps s (State.linkLost t n goal) := by
  unfold State.linkLost
  repeat' with_reducible (first
    | assumption
    | apply State.linkTo_keeps
    | apply State.setLink_keeps
    | apply State.inaugDisturbed_keeps
    | apply State.topoChange_keeps
    | apply State.evtBit_keeps
    | apply State.count_keeps
    | apply Keeps.ite
    | apply Keeps.update)

theorem State.linkLockCheck_keeps {s t : State} (h : Keeps s t) (n : LinkIx) : Keeps s (State.linkLockCheck t n) := by
  unfold State.linkLockCheck
  repeat' with_reducible (first
    | assumption
    | apply State.linkTo_keeps
    | apply State.setLink_keeps
    | apply Keeps.ite)

theorem State.linkQualCheck_keeps {s t : State} (h : Keeps s t) (n : LinkIx) : Keeps s (State.linkQualCheck t n) := by
  unfold State.linkQualCheck
  repeat' with_reducible (first
    | assumption
    | apply State.linkQualified_keeps
    | apply Keeps.ite)

theorem State.linkQualError_keeps {s t : State} (h : Keeps s t) (n : LinkIx) (lockHeld : Bool) : Keeps s (State.linkQualError t n lockHeld) := by
  unfold State.linkQualError
  repeat' with_reducible (first
    | assumption
    | apply State.qualRestart_keeps
    | apply State.linkTo_keeps
    | apply State.setLink_keeps)

theorem State.updateWriteEn_keeps {s t : State} (h : Keeps s t) : Keeps s (State.updateWriteEn t) := by
  unfold State.updateWriteEn
  repeat' with_reducible (first
    | assumption
    | apply State.setFlag_keeps)

theorem State.passThrough_keeps {s t : State} (h : Keeps s t) : Keeps s (State.passThrough t) := by
  unfold State.passThrough
  repeat' with_reducible (first
    | assumption
    | apply State.updateWriteEn_keeps
    | apply State.set_keeps
    | apply Keeps.update)

/-! ## Frames -/

theorem State.decideNow_keeps {s t : State} (h : Keeps s t) (l : Layout) (p tseq : Nat) : Keeps s (State.decideNow t l p tseq) := by
  unfold State.decideNow
  repeat' with_reducible (first
    | assumption
    | apply State.count_keeps
    | apply State.set_keeps
    | apply Keeps.ite
    | apply Keeps.update)

theorem State.decideStaging_keeps {s t : State} (h : Keeps s t) (l : Layout) (p tseq : Nat) : Keeps s (State.decideStaging t l p tseq) := by
  unfold State.decideStaging
  repeat' with_reducible (first
    | assumption
    | apply State.decideNow_keeps
    | split)

theorem State.countNotWritten_keeps {s t : State} (h : Keeps s t) (tseq : Nat) : Keeps s (State.countNotWritten t tseq) := by
  unfold State.countNotWritten
  repeat' with_reducible (first
    | assumption
    | apply State.count_keeps
    | apply Keeps.ite
    | apply Keeps.update)

theorem State.claimCells_keeps {s : State} (l : Line) (b : Bytes) (me master n : Nat) : ∀ {t : State}, Keeps s t → Keeps s (State.claimCells t l b me master n).2 := by
  induction n with
  | zero => intro t h; exact h
  | succ n ih =>
    intro t h
    have k := ih h
    unfold State.claimCells
    revert k
    generalize State.claimCells t l b me master n = p
    obtain ⟨b', t'⟩ := p
    intro k
    simp only
    split
    · exact k
    · split
      · dsimp only
        apply Keeps.update
        apply State.count_keeps
        exact k
      · exact k

theorem State.writePass_keeps {s t : State} (h : Keeps s t) (f : RxFrame) (b : Bytes) : Keeps s (State.writePass t f b).2 := by
  unfold State.writePass
  repeat' with_reducible (first
    | assumption
    | (intro x; first | (refine_lift have hx : Keeps s x := ?_; ?_; dsimp only [x]) | (clear_value x))
    | lift_lets
    | apply State.claimCells_keeps
    | apply State.countNotWritten_keeps
    | apply State.decideStaging_keeps
    | split)

theorem State.writePass_keeps_eq {s t u : State} (h : Keeps s t) {f : RxFrame} {b : Bytes} {z} (e : State.writePass t f b = (z, u)) : Keeps s u := by
  have k := State.writePass_keeps h f b
  rw [e] at k; exact k

theorem State.forward_keeps {s t : State} (h : Keeps s t) (f : RxFrame) (b : Bytes) : Keeps s (State.forward t f b) := by
  unfold State.forward
  repeat' with_reducible (first
    | assumption
    | apply State.emit_keeps
    | apply Keeps.ite)

theorem State.countRefusal_keeps {s t : State} (h : Keeps s t) (f : RxFrame) : Keeps s (State.countRefusal t f) := by
  unfold State.countRefusal
  repeat' with_reducible (first
    | assumption
    | apply State.count_keeps
    | apply Keeps.ite)

theorem State.markSeen_keeps {s t : State} (h : Keeps s t) (l : Line) : Keeps s (State.markSeen t l) := by
  unfold State.markSeen
  repeat' with_reducible (first
    | assumption
    | apply Keeps.update)

theorem State.mergeChecked_keeps {s t : State} (h : Keeps s t) (l : Layout) (tseq p : Nat) : Keeps s (State.mergeChecked t l tseq p) := by
  unfold State.mergeChecked
  repeat' with_reducible (first
    | assumption
    | apply State.evtBit_keeps
    | apply State.putBit_keeps
    | apply State.count_keeps
    | split
    | apply Keeps.update)

theorem State.mergeDeep_keeps {s t : State} (h : Keeps s t) (l : Layout) (tseq p : Nat) : Keeps s (State.mergeDeep t l tseq p) := by
  unfold State.mergeDeep
  repeat' with_reducible (first
    | assumption
    | (intro u; dsimp only)
    | apply State.mergeChecked_keeps
    | apply State.count_keeps
    | split
    | apply Keeps.update)

theorem State.mergeRegion_keeps {s t : State} (h : Keeps s t) (l : Layout) (tseq p : Nat) : Keeps s (State.mergeRegion t l tseq p) := by
  unfold State.mergeRegion
  repeat' with_reducible (first
    | assumption
    | (intro u; dsimp only)
    | apply State.mergeDeep_keeps
    | apply State.mergeChecked_keeps
    | apply Keeps.ite)

theorem State.degrade_keeps {s t : State} (h : Keeps s t) (l : Line) (failed otherOk : Bool) : Keeps s (State.degrade t l failed otherOk) := by
  unfold State.degrade
  repeat' with_reducible (first
    | assumption
    | apply State.evt_keeps
    | apply State.setFlag_keeps
    | apply Keeps.ite
    | apply Keeps.update)

theorem State.writeHistory_keeps {s t : State} (h : Keeps s t) (tseq : Nat) : Keeps s (State.writeHistory t tseq) := by
  unfold State.writeHistory
  repeat' with_reducible (first
    | assumption
    | apply State.set_keeps
    | apply State.putBlock_keeps)

theorem State.mergeFrame_keeps {s t : State} (h : Keeps s t) (tseq : Nat) : Keeps s (State.mergeFrame t tseq) := by
  unfold State.mergeFrame
  repeat' with_reducible (first
    | assumption
    | apply State.writeHistory_keeps
    | apply State.degrade_keeps
    | apply State.mergeRegion_keeps
    | apply State.set_keeps
    | refine Keeps.foldl ?_ (fun u x hu => ?_)
    | split
    | apply Keeps.update)

theorem execLineDegradedClear_keeps {s t : State} (h : Keeps s t) (l : Line) : NextKeeps s (execLineDegradedClear l t) := by
  unfold execLineDegradedClear
  repeat' with_reducible (first
    | assumption
    | refine NextKeeps.next ?_
    | apply State.evt_keeps
    | apply State.setFlag_keeps
    | apply Keeps.ite)

theorem State.commitLate_keeps {s t : State} (h : Keeps s t) (l : Layout) (p : Nat) (b : Bytes) : Keeps s (State.commitLate t l p b) := by
  unfold State.commitLate
  repeat' with_reducible (first
    | assumption
    | apply Keeps.update)

theorem execRelayLateCheck_keeps {s t : State} (h : Keeps s t) (l : Line) (tseq : Nat) : NextKeeps s (execRelayLateCheck l tseq t) := by
  unfold execRelayLateCheck
  repeat' with_reducible (first
    | assumption
    | refine NextKeeps.next ?_
    | apply State.commitLate_keeps
    | apply State.count_keeps
    | refine Keeps.foldl ?_ (fun u x hu => ?_)
    | split
    | apply Keeps.update)

/-! ## Cells -/

theorem State.setGen_keeps {s t : State} (h : Keeps s t) (previous : Bool) : Keeps s (State.setGen t previous) := by
  unfold State.setGen
  repeat' with_reducible (first
    | assumption
    | apply State.setFlag_keeps
    | apply State.set_keeps
    | apply Keeps.ite
    | apply Keeps.update)

theorem State.reserveNonce_keeps {s t : State} (h : Keeps s t) : Keeps s (State.reserveNonce t) := by
  unfold State.reserveNonce
  repeat' with_reducible (first
    | assumption
    | apply Keeps.ite
    | apply Keeps.update)

theorem State.queueCell_keeps {s t : State} (h : Keeps s t) (b : Bytes) : Keeps s (State.queueCell t b) := by
  unfold State.queueCell
  repeat' with_reducible (first
    | assumption
    | apply Keeps.update)

theorem State.stageCell_keeps {s t : State} (h : Keeps s t) (kind dstPos dstSub msgId frag : Nat) (last encrypt : Bool) (payload : List Nat) : Keeps s (State.stageCell t kind dstPos dstSub msgId frag last encrypt payload) := by
  unfold State.stageCell
  repeat' with_reducible (first
    | assumption
    | (intro x; first | (refine_lift have hx : Keeps s x := ?_; ?_; dsimp only [x]) | (clear_value x))
    | lift_lets
    | apply State.queueCell_keeps
    | apply State.reserveNonce_keeps
    | apply State.set_keeps
    | split)

theorem State.stageFrags_keeps {s : State} (kind dstPos dstSub msgId : Nat) (encrypt : Bool) (l : List (List Nat)) : ∀ (i : Nat) {t : State}, Keeps s t → Keeps s (t.stageFrags kind dstPos dstSub msgId encrypt i l) := by
  induction l with
  | nil => intro i t h; exact h
  | cons c l ih =>
    intro i t h
    cases l with
    | nil => exact State.stageCell_keeps h ..
    | cons d l => exact ih _ (State.stageCell_keeps h ..)

theorem State.stageMessage_keeps {s t : State} (h : Keeps s t) (kind dstPos dstSub : Nat) (payload : List Nat) : Keeps s (State.stageMessage t kind dstPos dstSub payload) := by
  unfold State.stageMessage
  repeat' with_reducible (first
    | assumption
    | apply State.stageFrags_keeps
    | apply Keeps.update)

theorem execCellStage_keeps {s t : State} (h : Keeps s t) (kind dstPos dstSub frag : Nat) (last : Bool) (msgId : Nat) (encrypt : Bool) (payload : List Nat) : NextKeeps s (execCellStage kind dstPos dstSub frag last msgId encrypt payload t) := by
  unfold execCellStage
  repeat' with_reducible (first
    | assumption
    | refine NextKeeps.next ?_
    | apply State.stageCell_keeps)

theorem State.reassemble_keeps {s t : State} (h : Keeps s t) (c : Bytes) (payload : List Nat) : Keeps s (State.reassemble t c payload).1 := by
  unfold State.reassemble
  repeat' with_reducible (first
    | assumption
    | lift_lets
    | split
    | apply Keeps.update)

theorem State.reassemble_keeps_eq {s t u : State} (h : Keeps s t) {c : Bytes} {payload : List Nat} {z} (e : State.reassemble t c payload = (u, z)) : Keeps s u := by
  have k := State.reassemble_keeps h c payload
  rw [e] at k; exact k

theorem State.ringAuthFail_keeps {s t : State} (h : Keeps s t) : Keeps s (State.ringAuthFail t) := by
  unfold State.ringAuthFail
  repeat' with_reducible (first
    | assumption
    | apply State.evt_keeps
    | apply State.count_keeps)

theorem State.readCell_keeps {s t : State} (h : Keeps s t) (c : Bytes) : Keeps s (State.readCell t c).1 := by
  unfold State.readCell
  repeat' with_reducible (first
    | assumption
    | (intro x; first | (refine_lift have hx : Keeps s x := ?_; ?_; dsimp only [x]) | (refine_lift have hx : Keeps s x.state := ?_; ?_; dsimp only [x]) | (refine_lift have hx : Keeps s x.2 := ?_; ?_; dsimp only [x]) | (refine_lift have hx : Keeps s x.1 := ?_; ?_; dsimp only [x]) | (clear_value x))
    | (intro u hu)
    | (intro u)
    | (intro u; dsimp only)
    | lift_lets
    | apply State.ringAuthFail_keeps
    | refine State.reassemble_keeps_eq ?_ (by assumption)
    | apply State.reassemble_keeps
    | apply State.setGen_keeps
    | apply State.pendDirect_keeps
    | apply State.count_keeps
    | refine Keeps.foldl ?_ (fun u x hu => ?_)
    | apply Keeps.ite
    | split
    | dsimp -zeta only
    | lift_lets
    | apply Keeps.update)

theorem State.readCell_keeps_eq {s t u : State} (h : Keeps s t) {c : Bytes} {z} (e : State.readCell t c = (u, z)) : Keeps s u := by
  have k := State.readCell_keeps h c
  rw [e] at k; exact k

theorem execReasmTimeout_keeps {s t : State} (h : Keeps s t) (srcPos srcSub msgId : Nat) : NextKeeps s (execReasmTimeout srcPos srcSub msgId t) := by
  unfold execReasmTimeout
  repeat' with_reducible (first
    | assumption
    | refine NextKeeps.next ?_
    | apply State.count_keeps
    | apply Keeps.ite
    | apply Keeps.update)

theorem State.tickCells_keeps {s t : State} (h : Keeps s t) : Keeps s (State.tickCells t) := by
  unfold State.tickCells
  repeat' with_reducible (first
    | assumption
    | apply Keeps.update)

theorem State.dropPartials_keeps {s t : State} (h : Keeps s t) : Keeps s (State.dropPartials t) := by
  unfold State.dropPartials
  repeat' with_reducible (first
    | assumption
    | apply State.count_keeps
    | apply Keeps.update)

end Sys2Proof.Machine
end

