-- ==== Sys2Proof/Laws/KeepsInaug.lean ====
section
/-! SUPPORT. What no command changes: inauguration, synchronisation, redundancy, merge and frame launch. -/

namespace Sys2Proof.Machine

/-! ## Inaug -/

theorem State.setOwnership_keeps {s t : State} (h : Keeps s t) (l : Layout) (p : Nat) : Keeps s (State.setOwnership t l p) := by
  unfold State.setOwnership
  repeat' with_reducible (first
    | assumption
    | (intro x; first | (refine_lift have hx : Keeps s x := ?_; ?_; dsimp only [x]) | (clear_value x))
    | lift_lets
    | apply State.setFlag_keeps
    | apply State.set_keeps
    | refine Keeps.foldl ?_ (fun u x hu => ?_)
    | split)

theorem State.setHops_keeps {s t : State} (h : Keeps s t) (l : Layout) : Keeps s (State.setHops t l) := by
  unfold State.setHops
  repeat' with_reducible (first
    | assumption
    | apply State.setFlag_keeps
    | apply State.set_keeps
    | refine Keeps.foldl ?_ (fun u x hu => ?_)
    | split)

theorem State.setEntryPos_keeps {s t : State} (h : Keeps s t) (l : Layout) : Keeps s (State.setEntryPos t l) := by
  unfold State.setEntryPos
  repeat' with_reducible (first
    | assumption
    | apply State.set_keeps
    | refine Keeps.foldl ?_ (fun u x hu => ?_))

theorem State.openCountSet_keeps {s t : State} (h : Keeps s t) : Keeps s (State.openCountSet t) := by
  unfold State.openCountSet
  repeat' with_reducible (first
    | assumption
    | apply State.linkTo_keeps
    | apply State.setFlag_keeps
    | refine Keeps.foldl ?_ (fun u x hu => ?_)
    | apply Keeps.ite)

theorem State.setLaneRoles_keeps {s t : State} (h : Keeps s t) (foreFaces : Bool) : Keeps s (State.setLaneRoles t foreFaces) := by
  unfold State.setLaneRoles
  repeat' with_reducible (first
    | assumption
    | apply State.setFlag_keeps
    | refine Keeps.foldl ?_ (fun u x hu => ?_)
    | apply Keeps.ite)

theorem State.takeRole_keeps {s t : State} (h : Keeps s t) (l : Layout) (p : Nat) : Keeps s (State.takeRole t l p) := by
  unfold State.takeRole
  repeat' with_reducible (first
    | assumption
    | apply State.setLaneRoles_keeps
    | apply State.setFlag_keeps
    | apply State.set_keeps
    | split)

theorem State.updateMrole_keeps {s t : State} (h : Keeps s t) : Keeps s (State.updateMrole t) := by
  unfold State.updateMrole
  repeat' with_reducible (first
    | assumption
    | apply State.set64_keeps
    | apply State.set_keeps
    | split)

theorem State.applyLayout_keeps {s t : State} (h : Keeps s t) (l : Layout) : Keeps s (State.applyLayout t l) := by
  unfold State.applyLayout
  repeat' with_reducible (first
    | assumption
    | apply State.updateMrole_keeps
    | apply State.takeRole_keeps
    | apply State.setEntryPos_keeps
    | apply State.setHops_keeps
    | apply State.setOwnership_keeps
    | apply State.dropPartials_keeps
    | apply State.updateWriteEn_keeps
    | apply State.set64_keeps
    | apply State.set_keeps
    | apply Keeps.ite
    | apply Keeps.update)

theorem State.startCount_keeps {s t : State} (h : Keeps s t) (newTopo newLayout : Nat) : Keeps s (State.startCount t newTopo newLayout) := by
  unfold State.startCount
  repeat' with_reducible (first
    | assumption
    | apply State.toPhase_keeps
    | apply State.evt_keeps
    | apply State.set_keeps
    | apply Keeps.update)

theorem execInaugSettleEnd_keeps {s t : State} (h : Keeps s t) : NextKeeps s (execInaugSettleEnd t) := by
  unfold execInaugSettleEnd
  repeat' with_reducible (first
    | assumption
    | refine NextKeeps.next ?_
    | apply State.startCount_keeps
    | apply Keeps.ite)

theorem State.countAgreed_keeps {s t : State} (h : Keeps s t) : Keeps s (State.countAgreed t) := by
  unfold State.countAgreed
  repeat' with_reducible (first
    | assumption
    | apply State.toPhase_keeps
    | apply State.post_keeps
    | apply State.evt_keeps
    | apply Keeps.ite
    | apply Keeps.update)

theorem State.countReturn_keeps {s t : State} (h : Keeps s t) (l : Line) (n : Nat) : Keeps s (State.countReturn t l n) := by
  unfold State.countReturn
  repeat' with_reducible (first
    | assumption
    | apply State.countAgreed_keeps
    | apply State.set_keeps
    | apply Keeps.ite
    | apply Keeps.update)

theorem execCountTimeout_keeps {s t : State} (h : Keeps s t) : NextKeeps s (execCountTimeout t) := by
  unfold execCountTimeout
  repeat' with_reducible (first
    | assumption
    | refine NextKeeps.next ?_
    | apply State.countAgreed_keeps
    | apply State.inaugAbandon_keeps
    | apply Keeps.ite)

theorem execClaimPairLaunch_keeps {s t : State} (h : Keeps s t) : NextKeeps s (execClaimPairLaunch t) := by
  unfold execClaimPairLaunch
  repeat' with_reducible (first
    | assumption
    | refine NextKeeps.next ?_
    | apply State.set_keeps
    | apply Keeps.ite
    | apply Keeps.update)

theorem State.recordAdmission_keeps {s t : State} (h : Keeps s t) (h' : Nat) (a : Admission) : Keeps s (State.recordAdmission t h' a) := by
  unfold State.recordAdmission
  repeat' with_reducible (first
    | assumption
    | (intro x; first | (refine_lift have hx : Keeps s x := ?_; ?_; dsimp only [x]) | (clear_value x))
    | lift_lets
    | apply State.ringAuthFail_keeps
    | apply State.post_keeps
    | apply State.evt_keeps
    | apply State.set64_keeps
    | split)

theorem execClaimWindowEnd_keeps {s t : State} (h : Keeps s t) : NextKeeps s (execClaimWindowEnd t) := by
  unfold execClaimWindowEnd
  repeat' with_reducible (first
    | assumption
    | refine NextKeeps.next ?_
    | apply State.stageMessage_keeps
    | apply State.setGen_keeps
    | apply State.toPhase_keeps
    | refine Keeps.foldl ?_ (fun u x hu => ?_)
    | apply Keeps.ite
    | apply Keeps.update)

theorem execComputeTimeout_keeps {s t : State} (h : Keeps s t) : NextKeeps s (execComputeTimeout t) := by
  unfold execComputeTimeout
  repeat' with_reducible (first
    | assumption
    | refine NextKeeps.next ?_
    | apply State.inaugAbandon_keeps
    | apply Keeps.ite)

theorem execLayoutFragmentResend_keeps {s t : State} (h : Keeps s t) (frag : Nat) : NextKeeps s (execLayoutFragmentResend frag t) := by
  unfold execLayoutFragmentResend
  repeat' with_reducible (first
    | assumption
    | refine NextKeeps.next ?_
    | apply State.stageCell_keeps
    | split)

theorem execDistributeEnd_keeps {s t : State} (h : Keeps s t) : NextKeeps s (execDistributeEnd t) := by
  unfold execDistributeEnd
  repeat' with_reducible (first
    | assumption
    | refine NextKeeps.next ?_
    | apply State.toPhase_keeps
    | apply State.setFlag_keeps
    | apply State.set_keeps
    | apply Keeps.ite
    | apply Keeps.update)

theorem execInaugBackoffExpiry_keeps {s t : State} (h : Keeps s t) : NextKeeps s (execInaugBackoffExpiry t) := by
  unfold execInaugBackoffExpiry
  repeat' with_reducible (first
    | assumption
    | refine NextKeeps.next ?_
    | apply State.inaugTrigger_keeps
    | apply Keeps.ite
    | apply Keeps.update)

theorem State.switchDone_keeps {s t : State} (h : Keeps s t) (oldMaster : DWord) : Keeps s (State.switchDone t oldMaster) := by
  unfold State.switchDone
  repeat' with_reducible (first
    | assumption
    | (intro x; first | (refine_lift have hx : Keeps s x := ?_; ?_; dsimp only [x]) | (refine_lift have hx : Keeps s x.state := ?_; ?_; dsimp only [x]) | (refine_lift have hx : Keeps s x.2 := ?_; ?_; dsimp only [x]) | (refine_lift have hx : Keeps s x.1 := ?_; ?_; dsimp only [x]) | (clear_value x))
    | (intro u hu)
    | (intro u)
    | (intro u; dsimp only)
    | lift_lets
    | apply State.inaugForget_keeps
    | apply State.inaugTrigger_keeps
    | apply State.toPhase_keeps
    | apply State.pendDirect_keeps
    | apply State.evt_keeps
    | apply State.count_keeps
    | apply State.set_keeps
    | refine Keeps.foldl ?_ (fun u x hu => ?_)
    | apply Keeps.ite
    | split
    | apply Keeps.update
    | apply Keeps.filterStore
    | lift_lets
    | dsimp only)

theorem State.layoutSwitch_keeps {s t : State} (h : Keeps s t) : Keeps s (State.layoutSwitch t) := by
  unfold State.layoutSwitch
  repeat' with_reducible (first
    | assumption
    | (intro x; first | (refine_lift have hx : Keeps s x := ?_; ?_; dsimp only [x]) | (refine_lift have hx : Keeps s x.state := ?_; ?_; dsimp only [x]) | (refine_lift have hx : Keeps s x.2 := ?_; ?_; dsimp only [x]) | (refine_lift have hx : Keeps s x.1 := ?_; ?_; dsimp only [x]) | (clear_value x))
    | (intro u hu)
    | (intro u)
    | (intro u; dsimp only)
    | lift_lets
    | apply State.switchDone_keeps
    | apply State.applyLayout_keeps
    | apply State.openCountSet_keeps
    | apply State.dropPartials_keeps
    | apply State.passThrough_keeps
    | apply State.inaugTrigger_keeps
    | apply State.set_keeps
    | refine Keeps.foldl ?_ (fun u x hu => ?_)
    | apply Keeps.ite
    | split
    | apply Keeps.update
    | apply Keeps.filterStore
    | lift_lets
    | dsimp only)

theorem execLayoutSave_keeps {s t : State} (h : Keeps s t) : NextKeeps s (execLayoutSave t) := by
  unfold execLayoutSave
  repeat' with_reducible (first
    | assumption
    | refine NextKeeps.next ?_
    | apply State.set_keeps
    | apply Keeps.ite
    | apply Keeps.update)

theorem execJoinDiscard_keeps {s t : State} (h : Keeps s t) : NextKeeps s (execJoinDiscard t) := by
  unfold execJoinDiscard
  repeat' with_reducible (first
    | assumption
    | refine NextKeeps.next ?_
    | apply State.inaugForget_keeps
    | apply State.toPhase_keeps
    | apply State.set_keeps
    | apply Keeps.ite
    | apply Keeps.update)

theorem State.formingStart_keeps {s t : State} (h : Keeps s t) : Keeps s (State.formingStart t) := by
  unfold State.formingStart
  repeat' with_reducible (first
    | assumption
    | apply State.set_keeps
    | apply Keeps.ite
    | apply Keeps.update)

theorem State.stopForming_keeps {s t : State} (h : Keeps s t) : Keeps s (State.stopForming t) := by
  unfold State.stopForming
  repeat' with_reducible (first
    | assumption
    | apply State.inaugForget_keeps
    | apply State.toPhase_keeps
    | apply Keeps.ite
    | apply Keeps.update)

theorem State.duplicateUid_keeps {s t : State} (h : Keeps s t) : Keeps s (State.duplicateUid t) := by
  unfold State.duplicateUid
  repeat' with_reducible (first
    | assumption
    | apply State.stopForming_keeps
    | apply State.post_keeps
    | apply State.evt_keeps
    | apply State.set64_keeps
    | apply State.set_keeps)

theorem State.rankSet_keeps {s t : State} (h : Keeps s t) (rank : Nat) : Keeps s (State.rankSet t rank) := by
  unfold State.rankSet
  repeat' with_reducible (first
    | assumption
    | apply State.set_keeps
    | apply Keeps.ite)

theorem execRankWrite_keeps {s t : State} (h : Keeps s t) (rank : Fin 16) : NextKeeps s (execRankWrite rank t) := by
  unfold execRankWrite
  repeat' with_reducible (first
    | assumption
    | refine NextKeeps.next ?_
    | (intro u hu)
    | apply State.rankSet_keeps
    | apply State.access_keeps)

theorem execRingHoldExpire_keeps {s t : State} (h : Keeps s t) : NextKeeps s (execRingHoldExpire t) := by
  unfold execRingHoldExpire
  repeat' with_reducible (first
    | assumption
    | refine NextKeeps.next ?_
    | apply State.formingStart_keeps
    | apply Keeps.update)

theorem State.shrinkStart_keeps {s t : State} (h : Keeps s t) (seen departed : Nat) : Keeps s (State.shrinkStart t seen departed) := by
  unfold State.shrinkStart
  repeat' with_reducible (first
    | assumption
    | apply State.toPhase_keeps
    | apply State.setFlag_keeps
    | apply State.set_keeps
    | apply Keeps.ite
    | apply Keeps.update)

theorem State.fastShrink_keeps {s t : State} (h : Keeps s t) : Keeps s (State.fastShrink t) := by
  unfold State.fastShrink
  split
  · exact h
  · next r _ =>
      extract_lets s1 s2 s3 a s4 s5 s6 s7 b c d s8
      have h3 : Keeps s s3 := State.setFlag_keeps (State.set_keeps (State.dropPartials_keeps h) _ _) _ _
      have h4 : Keeps s s4 := by
        simp only [s4]
        cases s3.ring.layout with
        | none => exact h3
        | some l => exact ⟨h3.1, h3.2, h3.3, h3.4⟩
      clear_value s4
      have h5 : Keeps s s5 := Keeps.ite (State.post_keeps h4 ..) h4
      have h7 : Keeps s s7 := State.toPhase_keeps (State.count_keeps (State.evt_keeps h5 ..) ..) _
      have h8 : Keeps s s8 := ⟨h7.1, h7.2, h7.3, h7.4⟩
      exact Keeps.ite (State.inaugTrigger_keeps h8 ..) h8

/-! ## Sync -/

theorem State.renumber_keeps {s t : State} (h : Keeps s t) (d : Int) : Keeps s (State.renumber t d) := by
  unfold State.renumber
  repeat' with_reducible (first
    | assumption
    | apply Keeps.ite
    | apply Keeps.update)

theorem State.setNodeTime_keeps {s t : State} (h : Keeps s t) (thirds : Nat) : Keeps s (State.setNodeTime t thirds) := by
  unfold State.setNodeTime
  repeat' with_reducible (first
    | assumption
    | apply State.renumber_keeps
    | apply State.set_keeps
    | apply Keeps.update)

theorem State.discardRound_keeps {s t : State} (h : Keeps s t) : Keeps s (State.discardRound t) := by
  unfold State.discardRound
  repeat' with_reducible (first
    | assumption
    | apply Keeps.update)

theorem State.tdmAdjustBy_keeps {s t : State} (h : Keeps s t) (thirds : Int) : Keeps s (State.tdmAdjustBy t thirds) := by
  unfold State.tdmAdjustBy
  repeat' with_reducible (first
    | assumption
    | apply State.count_keeps
    | refine Keeps.foldl ?_ (fun u x hu => ?_)
    | apply Keeps.ite)

theorem State.stepTime_keeps {s t : State} (h : Keeps s t) (thirds : Int) : Keeps s (State.stepTime t thirds) := by
  unfold State.stepTime
  repeat' with_reducible (first
    | assumption
    | apply State.tdmAdjustBy_keeps
    | apply State.discardRound_keeps
    | apply State.setNodeTime_keeps
    | apply State.evt_keeps
    | apply State.count_keeps
    | apply State.set_keeps
    | apply Keeps.update)

theorem State.enterLocked_keeps {s t : State} (h : Keeps s t) : Keeps s (State.enterLocked t) := by
  unfold State.enterLocked
  repeat' with_reducible (first
    | assumption
    | apply State.updateWriteEn_keeps
    | apply State.evt_keeps
    | apply State.set_keeps)

theorem State.leaveLocked_keeps {s t : State} (h : Keeps s t) (goal cause : Nat) : Keeps s (State.leaveLocked t goal cause) := by
  unfold State.leaveLocked
  repeat' with_reducible (first
    | assumption
    | apply State.updateWriteEn_keeps
    | apply State.post_keeps
    | apply State.evt_keeps
    | apply State.count_keeps
    | apply State.setFlag_keeps
    | apply State.set_keeps)

theorem State.lockAsMaster_keeps {s t : State} (h : Keeps s t) : Keeps s (State.lockAsMaster t) := by
  unfold State.lockAsMaster
  repeat' with_reducible (first
    | assumption
    | apply State.enterLocked_keeps
    | apply State.set_keeps
    | apply Keeps.ite)

theorem State.joinAcquire_keeps {s t : State} (h : Keeps s t) : Keeps s (State.joinAcquire t) := by
  unfold State.joinAcquire
  repeat' with_reducible (first
    | assumption
    | apply State.leaveLocked_keeps
    | apply State.set_keeps
    | apply Keeps.ite)

theorem State.addDeviation_keeps {s t : State} (h : Keeps s t) (e' : Nat) (d : Int) : Keeps s (State.addDeviation t e' d) := by
  unfold State.addDeviation
  repeat' with_reducible (first
    | assumption
    | apply Keeps.update)

theorem State.readEntry_keeps {s t : State} (h : Keeps s t) (l : Layout) (tseq e' q : Nat) : Keeps s (State.readEntry t l tseq e' q) := by
  unfold State.readEntry
  repeat' with_reducible (first
    | assumption
    | (intro x; clear_value x)
    | lift_lets
    | apply State.addDeviation_keeps
    | apply State.count_keeps
    | split)

theorem State.readSync_keeps {s t : State} (h : Keeps s t) (tseq : Nat) : Keeps s (State.readSync t tseq) := by
  unfold State.readSync
  repeat' with_reducible (first
    | assumption
    | (intro x; clear_value x)
    | lift_lets
    | apply State.readEntry_keeps
    | refine Keeps.foldl ?_ (fun u x hu => ?_)
    | split)

theorem State.readJoinEntry_keeps {s t : State} (h : Keeps s t) (f : RxFrame) : Keeps s (State.readJoinEntry t f) := by
  unfold State.readJoinEntry
  repeat' with_reducible (first
    | assumption
    | apply State.addDeviation_keeps
    | apply Keeps.ite)

theorem State.showEntries_keeps {s t : State} (h : Keeps s t) (part kept : List (Nat × Int)) : Keeps s (State.showEntries t part kept) := by
  unfold State.showEntries
  repeat' with_reducible (first
    | assumption
    | apply State.set_keeps
    | refine Keeps.foldl ?_ (fun u x hu => ?_)
    | split)

theorem State.markOutliers_keeps {s t : State} (h : Keeps s t) (part : List (Nat × Int)) (result : Int) : Keeps s (State.markOutliers t part result) := by
  unfold State.markOutliers
  repeat' with_reducible (first
    | assumption
    | apply State.evtBit_keeps
    | apply State.count_keeps
    | apply State.setFlag_keeps
    | refine Keeps.foldl ?_ (fun u x hu => ?_)
    | split)

theorem State.updateRate_keeps {s t : State} (h : Keeps s t) (result : Int) : Keeps s (State.updateRate t result) := by
  unfold State.updateRate
  repeat' with_reducible (first
    | assumption
    | apply State.setFlag_keeps
    | apply State.set_keeps)

theorem State.roundResult_keeps {s t : State} (h : Keeps s t) (part : List (Nat × Int)) : Keeps s (State.roundResult t part) := by
  unfold State.roundResult
  repeat' with_reducible (first
    | assumption
    | apply State.updateRate_keeps
    | apply State.markOutliers_keeps
    | apply State.showEntries_keeps
    | apply State.leaveLocked_keeps
    | apply State.setFlag_keeps
    | apply State.set_keeps
    | apply Keeps.ite
    | apply Keeps.update)

theorem State.roundEmpty_keeps {s t : State} (h : Keeps s t) : Keeps s (State.roundEmpty t) := by
  unfold State.roundEmpty
  repeat' with_reducible (first
    | assumption
    | apply State.showEntries_keeps
    | apply State.setFlag_keeps
    | apply State.set_keeps
    | apply Keeps.ite
    | apply Keeps.update)

theorem State.loadSyncCfg_keeps {s t : State} (h : Keeps s t) : Keeps s (State.loadSyncCfg t) := by
  unfold State.loadSyncCfg
  repeat' with_reducible (first
    | assumption
    | apply Keeps.update)

theorem State.roundPtp_keeps {s t : State} (h : Keeps s t) : Keeps s (State.roundPtp t) := by
  unfold State.roundPtp
  repeat' with_reducible (first
    | assumption
    | apply State.set_keeps
    | apply Keeps.ite)

theorem State.startRound_keeps {s t : State} (h : Keeps s t) : Keeps s (State.startRound t) := by
  unfold State.startRound
  repeat' with_reducible (first
    | assumption
    | apply State.loadSyncCfg_keeps
    | apply Keeps.update)

theorem execRoundEnd_keeps {s t : State} (h : Keeps s t) : NextKeeps s (execRoundEnd t) := by
  unfold execRoundEnd
  repeat' with_reducible (first
    | assumption
    | refine NextKeeps.next ?_
    | apply State.startRound_keeps
    | apply State.roundPtp_keeps
    | apply State.roundEmpty_keeps
    | apply State.roundResult_keeps
    | apply Keeps.ite)

theorem execAcquireStep_keeps {s t : State} (h : Keeps s t) : NextKeeps s (execAcquireStep t) := by
  unfold execAcquireStep
  repeat' with_reducible (first
    | assumption
    | refine NextKeeps.next ?_
    | apply State.stepTime_keeps
    | apply State.set_keeps
    | split
    | apply Keeps.update)

theorem execSyncLock_keeps {s t : State} (h : Keeps s t) : NextKeeps s (execSyncLock t) := by
  unfold execSyncLock
  repeat' with_reducible (first
    | assumption
    | refine NextKeeps.next ?_
    | apply State.enterLocked_keeps
    | apply Keeps.ite)

theorem execHoldoverExpire_keeps {s t : State} (h : Keeps s t) : NextKeeps s (execHoldoverExpire t) := by
  unfold execHoldoverExpire
  repeat' with_reducible (first
    | assumption
    | refine NextKeeps.next ?_
    | apply State.leaveLocked_keeps
    | apply State.set_keeps
    | apply Keeps.ite)

theorem State.mclkLock_keeps {s t : State} (h : Keeps s t) (on : Bool) : Keeps s (State.mclkLock t on) := by
  unfold State.mclkLock
  repeat' with_reducible (first
    | assumption
    | apply State.setFlag_keeps)

theorem execMclkUnlock_keeps {s t : State} (h : Keeps s t) : NextKeeps s (execMclkUnlock t) := by
  unfold execMclkUnlock
  repeat' with_reducible (first
    | assumption
    | refine NextKeeps.next ?_
    | apply State.mclkLock_keeps
    | apply State.evt_keeps)

theorem execMclkPllLock_keeps {s t : State} (h : Keeps s t) : NextKeeps s (execMclkPllLock t) := by
  unfold execMclkPllLock
  repeat' with_reducible (first
    | assumption
    | refine NextKeeps.next ?_
    | apply State.mclkLock_keeps
    | apply Keeps.ite)

theorem State.slewTick_keeps {s t : State} (h : Keeps s t) : Keeps s (State.slewTick t) := by
  unfold State.slewTick
  repeat' with_reducible (first
    | assumption
    | apply State.set_keeps)

theorem State.lockTick_keeps {s t : State} (h : Keeps s t) : Keeps s (State.lockTick t) := by
  unfold State.lockTick
  repeat' with_reducible (first
    | assumption
    | apply State.set_keeps
    | apply Keeps.ite
    | apply Keeps.update)

theorem State.advanceTick_keeps {s t : State} (h : Keeps s t) : Keeps s (State.advanceTick t) := by
  unfold State.advanceTick
  repeat' with_reducible (first
    | assumption
    | apply State.set_keeps
    | apply Keeps.ite
    | apply Keeps.update)

/-! ## Red -/

theorem State.shortOnset_keeps {s t : State} (h : Keeps s t) (fld : Fld) (line missing : Nat) : Keeps s (State.shortOnset t fld line missing) := by
  unfold State.shortOnset
  repeat' with_reducible (first
    | assumption
    | apply State.post_keeps
    | apply State.evt_keeps
    | apply State.setFlag_keeps
    | apply Keeps.ite)

theorem State.tickReach_keeps {s t : State} (h : Keeps s t) (l : Layout) (tseq : Nat) : Keeps s (State.tickReach t l tseq) := by
  unfold State.tickReach
  repeat' with_reducible (first
    | assumption
    | (intro x; first | (refine_lift have hx : Keeps s x := ?_; ?_; dsimp only [x]) | (refine_lift have hx : Keeps s x.state := ?_; ?_; dsimp only [x]) | (refine_lift have hx : Keeps s x.2 := ?_; ?_; dsimp only [x]) | (refine_lift have hx : Keeps s x.1 := ?_; ?_; dsimp only [x]) | (clear_value x))
    | (intro u hu)
    | (intro u)
    | (intro u; dsimp only)
    | lift_lets
    | apply State.shortOnset_keeps
    | apply State.set_keeps
    | refine Keeps.foldl ?_ (fun u x hu => ?_)
    | apply Keeps.ite
    | split
    | apply Keeps.update
    | apply Keeps.filterStore
    | lift_lets
    | dsimp only)

theorem execLineShortClear_keeps {s t : State} (h : Keeps s t) : NextKeeps s (execLineShortClear t) := by
  unfold execLineShortClear
  repeat' with_reducible (first
    | assumption
    | refine NextKeeps.next ?_
    | apply State.setFlag_keeps
    | apply Keeps.ite)

theorem State.ringHeartbeat_keeps {s t : State} (h : Keeps s t) : Keeps s (State.ringHeartbeat t) := by
  unfold State.ringHeartbeat
  repeat' with_reducible (first
    | assumption
    | apply State.setFlag_keeps
    | apply State.set_keeps
    | apply Keeps.ite
    | apply Keeps.update)

theorem State.sleepUnannounced_keeps {s t : State} (h : Keeps s t) : Keeps s (State.sleepUnannounced t) := by
  unfold State.sleepUnannounced
  repeat' with_reducible (first
    | assumption
    | apply State.post_keeps
    | apply State.set_keeps
    | apply Keeps.ite)

theorem State.masterFailed_keeps {s t : State} (h : Keeps s t) : Keeps s (State.masterFailed t) := by
  unfold State.masterFailed
  repeat' with_reducible (first
    | assumption
    | apply State.sleepUnannounced_keeps
    | apply State.post_keeps
    | apply State.evt_keeps
    | apply State.count_keeps
    | apply State.set_keeps
    | apply Keeps.ite
    | apply Keeps.update)

theorem State.ringPathFault_keeps {s t : State} (h : Keeps s t) : Keeps s (State.ringPathFault t) := by
  unfold State.ringPathFault
  repeat' with_reducible (first
    | assumption
    | apply State.post_keeps
    | apply State.evt_keeps
    | apply State.count_keeps
    | apply State.set_keeps
    | apply Keeps.ite)

theorem State.ringCutOff_keeps {s t : State} (h : Keeps s t) : Keeps s (State.ringCutOff t) := by
  unfold State.ringCutOff
  repeat' with_reducible (first
    | assumption
    | apply State.post_keeps
    | apply State.evt_keeps
    | apply State.set_keeps
    | apply Keeps.ite
    | apply Keeps.update)

theorem State.canPathFault_keeps {s t : State} (h : Keeps s t) : Keeps s (State.canPathFault t) := by
  unfold State.canPathFault
  repeat' with_reducible (first
    | assumption
    | apply State.post_keeps
    | apply State.evt_keeps
    | apply State.count_keeps
    | apply State.set_keeps
    | apply Keeps.ite)

theorem execRingHbLost_keeps {s t : State} (h : Keeps s t) : NextKeeps s (execRingHbLost t) := by
  unfold execRingHbLost
  repeat' with_reducible (first
    | assumption
    | refine NextKeeps.next ?_
    | apply State.masterFailed_keeps
    | apply State.setFlag_keeps
    | apply Keeps.ite)

theorem execCanHbLost_keeps {s t : State} (h : Keeps s t) : NextKeeps s (execCanHbLost t) := by
  unfold execCanHbLost
  repeat' with_reducible (first
    | assumption
    | refine NextKeeps.next ?_
    | apply State.canPathFault_keeps
    | apply State.masterFailed_keeps
    | apply State.setFlag_keeps
    | apply Keeps.ite)

theorem State.canHeartbeat_keeps {s t : State} (h : Keeps s t) (reach : Nat) : Keeps s (State.canHeartbeat t reach) := by
  unfold State.canHeartbeat
  repeat' with_reducible (first
    | assumption
    | apply State.ringCutOff_keeps
    | apply State.ringPathFault_keeps
    | apply State.setFlag_keeps
    | apply State.set_keeps
    | apply Keeps.ite
    | apply Keeps.update)

theorem State.relocateMaster_keeps {s t : State} (h : Keeps s t) (uid : DWord) : Keeps s (State.relocateMaster t uid) := by
  unfold State.relocateMaster
  repeat' with_reducible (first
    | assumption
    | apply State.discardRound_keeps
    | apply State.updateMrole_keeps
    | apply State.takeRole_keeps
    | apply State.updateWriteEn_keeps
    | split
    | apply Keeps.update)

theorem State.followMaster_keeps {s t : State} (h : Keeps s t) (uid : DWord) (epoch : Nat) : Keeps s (State.followMaster t uid epoch) := by
  unfold State.followMaster
  repeat' with_reducible (first
    | assumption
    | apply State.relocateMaster_keeps
    | apply State.pendDirect_keeps
    | apply State.set64_keeps
    | apply State.setFlag_keeps
    | apply State.set_keeps
    | apply Keeps.update)

theorem State.noteMaster_keeps {s t : State} (h : Keeps s t) (uid : DWord) : Keeps s (State.noteMaster t uid) := by
  unfold State.noteMaster
  repeat' with_reducible (first
    | assumption
    | apply State.evt_keeps
    | apply State.count_keeps
    | apply State.set_keeps
    | apply Keeps.ite
    | apply Keeps.update)

theorem State.dualYield_keeps {s t : State} (h : Keeps s t) (uid : DWord) (epoch : Nat) : Keeps s (State.dualYield t uid epoch) := by
  unfold State.dualYield
  repeat' with_reducible (first
    | assumption
    | apply State.followMaster_keeps
    | apply State.updateMrole_keeps
    | apply State.passThrough_keeps
    | apply State.inaugForget_keeps
    | apply State.toPhase_keeps
    | apply State.post_keeps
    | apply State.set_keeps
    | apply Keeps.update)

theorem State.otherMaster_keeps {s t : State} (h : Keeps s t) (b : Bytes) : Keeps s (State.otherMaster t b) := by
  unfold State.otherMaster
  repeat' with_reducible (first
    | assumption
    | apply State.dualYield_keeps
    | apply State.noteMaster_keeps
    | apply State.followMaster_keeps
    | apply Keeps.ite)

theorem State.takeOver_keeps {s t : State} (h : Keeps s t) (us10 : Nat) : Keeps s (State.takeOver t us10) := by
  unfold State.takeOver
  repeat' with_reducible (first
    | assumption
    | apply State.lockAsMaster_keeps
    | apply State.discardRound_keeps
    | apply State.updateMrole_keeps
    | apply State.takeRole_keeps
    | apply State.inaugForget_keeps
    | apply State.netRestart_keeps
    | apply State.toPhase_keeps
    | apply State.post_keeps
    | apply State.evt_keeps
    | apply State.set64_keeps
    | apply State.count_keeps
    | apply State.set_keeps
    | split
    | apply Keeps.update)

theorem execColdTakeoverLaunch_keeps {s t : State} (h : Keeps s t) (us10 : Nat) : NextKeeps s (execColdTakeoverLaunch us10 t) := by
  unfold execColdTakeoverLaunch
  repeat' with_reducible (first
    | assumption
    | refine NextKeeps.next ?_
    | apply State.takeOver_keeps
    | apply Keeps.ite)

theorem execReserveTakeover_keeps {s t : State} (h : Keeps s t) (us10 : Nat) : NextKeeps s (execReserveTakeover us10 t) := by
  unfold execReserveTakeover
  repeat' with_reducible (first
    | assumption
    | refine NextKeeps.next ?_
    | apply State.takeOver_keeps
    | apply State.formingStart_keeps
    | split
    | apply Keeps.update)

theorem State.driveOutActive_keeps {s t : State} (h : Keeps s t) : Keeps s (State.driveOutActive t) := by
  unfold State.driveOutActive
  repeat' with_reducible (first
    | assumption
    | apply State.putBit_keeps
    | apply Keeps.ite)

theorem State.twinDiverge_keeps {s t : State} (h : Keeps s t) : Keeps s (State.twinDiverge t) := by
  unfold State.twinDiverge
  repeat' with_reducible (first
    | assumption
    | apply State.evt_keeps
    | apply State.setFlag_keeps
    | apply Keeps.ite
    | apply Keeps.update)

theorem execTwinRecordReceive_keeps {s t : State} (h : Keeps s t) (r : TwinRecord) : NextKeeps s (execTwinRecordReceive r t) := by
  unfold execTwinRecordReceive
  repeat' with_reducible (first
    | assumption
    | refine NextKeeps.next ?_
    | apply State.twinDiverge_keeps
    | apply State.count_keeps
    | apply State.setFlag_keeps
    | apply Keeps.ite
    | split
    | apply Keeps.update)

theorem State.twinResume_keeps {s t : State} (h : Keeps s t) : Keeps s (State.twinResume t) := by
  unfold State.twinResume
  repeat' with_reducible (first
    | assumption
    | apply State.setFlag_keeps
    | apply Keeps.ite
    | apply Keeps.update)

theorem State.hotTakeover_keeps {s t : State} (h : Keeps s t) : Keeps s (State.hotTakeover t) := by
  unfold State.hotTakeover
  repeat' with_reducible (first
    | assumption
    | apply State.netRestart_keeps
    | apply State.post_keeps
    | apply State.evt_keeps
    | apply State.set64_keeps
    | apply State.count_keeps
    | apply State.set_keeps
    | apply Keeps.ite
    | apply Keeps.update)

theorem execTwinPartnerLoss_keeps {s t : State} (h : Keeps s t) (pairsLost : Bool) : NextKeeps s (execTwinPartnerLoss pairsLost t) := by
  unfold execTwinPartnerLoss
  repeat' with_reducible (first
    | assumption
    | refine NextKeeps.next ?_
    | apply State.hotTakeover_keeps
    | apply State.driveOutActive_keeps
    | apply State.post_keeps
    | apply State.evt_keeps
    | apply State.setFlag_keeps
    | apply State.set_keeps
    | apply Keeps.ite
    | apply Keeps.update)

theorem State.twinSeenAlive_keeps {s t : State} (h : Keeps s t) (uid : Nat) : Keeps s (State.twinSeenAlive t uid) := by
  unfold State.twinSeenAlive
  repeat' with_reducible (first
    | assumption
    | apply State.post_keeps
    | apply State.evt_keeps
    | apply Keeps.ite)

theorem execTwinPairFail_keeps {s t : State} (h : Keeps s t) (pair : Fin 2) : NextKeeps s (execTwinPairFail pair t) := by
  unfold execTwinPairFail
  repeat' with_reducible (first
    | assumption
    | refine NextKeeps.next ?_
    | apply State.post_keeps
    | apply State.setFlag_keeps
    | apply Keeps.ite
    | apply Keeps.update)

theorem State.tickTwin_keeps {s t : State} (h : Keeps s t) (host aes : List (Nat × Nat)) (changes : List (Nat × List Nat)) : Keeps s (State.tickTwin t host aes changes) := by
  unfold State.tickTwin
  repeat' with_reducible (first
    | assumption
    | apply State.emit_keeps
    | apply State.count_keeps
    | apply State.setFlag_keeps
    | apply State.set_keeps
    | apply Keeps.ite
    | apply Keeps.update)

theorem State.tickHeartbeats_keeps {s t : State} (h : Keeps s t) : Keeps s (State.tickHeartbeats t) := by
  unfold State.tickHeartbeats
  repeat' with_reducible (first
    | assumption
    | apply State.count_keeps
    | apply Keeps.ite
    | apply Keeps.update)

/-! ## Merge -/

theorem execFormingWaitEnd_keeps {s t : State} (h : Keeps s t) : NextKeeps s (execFormingWaitEnd t) := by
  unfold execFormingWaitEnd
  repeat' with_reducible (first
    | assumption
    | refine NextKeeps.next ?_
    | apply State.lockAsMaster_keeps
    | apply State.setNodeTime_keeps
    | apply State.startCount_keeps
    | apply State.set_keeps
    | apply Keeps.ite
    | apply Keeps.update)

theorem State.sendHandshakes_keeps {s t : State} (h : Keeps s t) (launchNs : Nat) : Keeps s (State.sendHandshakes t launchNs) := by
  unfold State.sendHandshakes
  repeat' with_reducible (first
    | assumption
    | apply State.reserveNonce_keeps
    | apply State.emit_keeps
    | apply State.count_keeps
    | apply State.set_keeps
    | refine Keeps.foldl ?_ (fun u x hu => ?_)
    | apply Keeps.ite
    | apply Keeps.update)

theorem State.mergeEnd_keeps {s t : State} (h : Keeps s t) (result : Nat) : Keeps s (State.mergeEnd t result) := by
  unfold State.mergeEnd
  repeat' with_reducible (first
    | assumption
    | apply State.toPhase_keeps
    | apply State.post_keeps
    | apply State.set_keeps
    | apply Keeps.ite
    | apply Keeps.update)

theorem State.mergeStart_keeps {s t : State} (h : Keeps s t) (n count : Nat) : Keeps s (State.mergeStart t n count) := by
  unfold State.mergeStart
  repeat' with_reducible (first
    | assumption
    | apply State.count_keeps
    | apply State.set_keeps
    | apply Keeps.ite
    | apply Keeps.update)

theorem State.mergeDecide_keeps {s t : State} (h : Keeps s t) (r : PartnerRec) : Keeps s (State.mergeDecide t r) := by
  unfold State.mergeDecide
  repeat' with_reducible (first
    | assumption
    | apply State.mergeEnd_keeps
    | apply State.post_keeps
    | apply State.evt_keeps
    | apply Keeps.ite
    | apply Keeps.update)

theorem State.mergeMessage_keeps {s t : State} (h : Keeps s t) (n step : Nat) (r : PartnerRec) (body : Bytes) (a b : Int) : Keeps s (State.mergeMessage t n step r body a b) := by
  unfold State.mergeMessage
  repeat' with_reducible (first
    | assumption
    | apply State.mergeDecide_keeps
    | apply State.mergeStart_keeps
    | apply State.mergeEnd_keeps
    | apply State.stageMessage_keeps
    | apply State.toPhase_keeps
    | apply State.setFlag_keeps
    | apply State.set_keeps
    | apply Keeps.ite
    | apply Keeps.update)

theorem State.sendLayout_keeps {s t : State} (h : Keeps s t) (l : Layout) : Keeps s (State.sendLayout t l) := by
  unfold State.sendLayout
  repeat' with_reducible (first
    | assumption
    | apply State.stageFrags_keeps
    | apply Keeps.update)

theorem State.mergeComputed_keeps {s t : State} (h : Keeps s t) (plan : LayoutPlan) : Keeps s (State.mergeComputed t plan) := by
  unfold State.mergeComputed
  repeat' with_reducible (first
    | assumption
    | apply State.sendLayout_keeps
    | apply State.setFlag_keeps
    | apply State.set_keeps
    | split
    | apply Keeps.update)

theorem execLayoutComputeDone_keeps {s t : State} (h : Keeps s t) (plan : LayoutPlan) : NextKeeps s (execLayoutComputeDone plan t) := by
  unfold execLayoutComputeDone
  repeat' with_reducible (first
    | assumption
    | refine NextKeeps.next ?_
    | apply State.mergeComputed_keeps
    | apply State.sendLayout_keeps
    | apply State.recordAdmission_keeps
    | apply State.toPhase_keeps
    | apply State.post_keeps
    | apply State.set_keeps
    | refine Keeps.foldl ?_ (fun u x hu => ?_)
    | apply Keeps.ite
    | apply Keeps.update)

theorem State.linkReport_keeps {s t : State} (h : Keeps s t) (n : LinkIx) (r : PartnerRec) : Keeps s (State.linkReport t n r) := by
  unfold State.linkReport
  repeat' with_reducible (first
    | assumption
    | apply State.stageMessage_keeps
    | split)

theorem execHandshakeReceive_keeps {s t : State} (h : Keeps s t) (n : LinkIx) (b : Bytes) (arrivalNs : Nat) : NextKeeps s (execHandshakeReceive n b arrivalNs t) := by
  unfold execHandshakeReceive
  repeat' with_reducible (first
    | assumption
    | refine NextKeeps.next ?_
    | exact trivial
    | (intro x; first | (refine_lift have hx : Keeps s x := ?_; ?_; dsimp only [x]) | (refine_lift have hx : Keeps s x.state := ?_; ?_; dsimp only [x]) | (refine_lift have hx : Keeps s x.2 := ?_; ?_; dsimp only [x]) | (refine_lift have hx : Keeps s x.1 := ?_; ?_; dsimp only [x]) | (clear_value x))
    | (intro u hu)
    | (intro u)
    | (intro u; dsimp only)
    | lift_lets
    | apply State.linkReport_keeps
    | apply State.mergeMessage_keeps
    | apply State.duplicateUid_keeps
    | apply State.stageMessage_keeps
    | apply State.count_keeps
    | refine Keeps.foldl ?_ (fun u x hu => ?_)
    | apply Keeps.ite
    | split
    | apply Keeps.update
    | apply Keeps.filterStore
    | lift_lets
    | dsimp only)

theorem execMergeMeasureDone_keeps {s t : State} (h : Keeps s t) (lead : Nat) : NextKeeps s (execMergeMeasureDone lead t) := by
  unfold execMergeMeasureDone
  repeat' with_reducible (first
    | assumption
    | refine NextKeeps.next ?_
    | apply State.set_keeps
    | apply Keeps.ite
    | apply Keeps.update)

theorem State.mergeStep_keeps {s t : State} (h : Keeps s t) : Keeps s (State.mergeStep t) := by
  unfold State.mergeStep
  repeat' with_reducible (first
    | assumption
    | apply State.stepTime_keeps
    | apply State.set_keeps
    | apply Keeps.update)

theorem execMergeMuteEnd_keeps {s t : State} (h : Keeps s t) : NextKeeps s (execMergeMuteEnd t) := by
  unfold execMergeMuteEnd
  repeat' with_reducible (first
    | assumption
    | refine NextKeeps.next ?_
    | apply Keeps.ite
    | apply Keeps.update)

theorem execMergeTagRefuse_keeps {s t : State} (h : Keeps s t) (n : LinkIx) : NextKeeps s (execMergeTagRefuse n t) := by
  unfold execMergeTagRefuse
  repeat' with_reducible (first
    | assumption
    | refine NextKeeps.next ?_
    | apply State.mergeEnd_keeps
    | apply State.ringAuthFail_keeps
    | apply State.set_keeps
    | apply Keeps.ite)

theorem execMergePhaseTimeout_keeps {s t : State} (h : Keeps s t) : NextKeeps s (execMergePhaseTimeout t) := by
  unfold execMergePhaseTimeout
  repeat' with_reducible (first
    | assumption
    | refine NextKeeps.next ?_
    | apply State.mergeEnd_keeps
    | apply State.setFlag_keeps
    | apply Keeps.ite)

theorem execMergeRetry_keeps {s t : State} (h : Keeps s t) : NextKeeps s (execMergeRetry t) := by
  unfold execMergeRetry
  repeat' with_reducible (first
    | assumption
    | refine NextKeeps.next ?_
    | apply State.mergeStart_keeps
    | split
    | apply Keeps.update)

/-! ## Launch -/

theorem State.writeSlot_keeps {s t : State} (h : Keeps s t) (f : RxFrame) (b : Bytes) (loops : Bool) : Keeps s (State.writeSlot t f b loops).2 := by
  unfold State.writeSlot
  repeat' with_reducible (first
    | assumption
    | (intro x; first | (refine_lift have hx : Keeps s x := ?_; ?_; dsimp only [x]) | (clear_value x))
    | lift_lets
    | apply State.reserveNonce_keeps
    | apply State.set_keeps
    | split
    | apply Keeps.update)

theorem State.writeSlot_keeps_eq {s t u : State} (h : Keeps s t) {f : RxFrame} {b : Bytes} {loops : Bool} {z} (e : State.writeSlot t f b loops = (z, u)) : Keeps s u := by
  have k := State.writeSlot_keeps h f b loops
  rw [e] at k; exact k

theorem State.readSlots_keeps {s t : State} (h : Keeps s t) (l : Line) (b : Bytes) : Keeps s (State.readSlots t l b) := by
  unfold State.readSlots
  repeat' with_reducible (first
    | assumption
    | apply Keeps.update)

theorem State.framePass_keeps {s t : State} (h : Keeps s t) (f : RxFrame) : Keeps s (State.framePass t f) := by
  unfold State.framePass
  repeat' with_reducible (first
    | assumption
    | (intro x; first | (refine_lift have hx : Keeps s x := ?_; ?_; dsimp only [x]) | (refine_lift have hx : Keeps s x.state := ?_; ?_; dsimp only [x]) | (refine_lift have hx : Keeps s x.2 := ?_; ?_; dsimp only [x]) | (refine_lift have hx : Keeps s x.1 := ?_; ?_; dsimp only [x]) | (clear_value x))
    | (intro u hu)
    | (intro u)
    | (intro u; dsimp only)
    | lift_lets
    | refine State.writeSlot_keeps_eq ?_ (by assumption)
    | apply State.writeSlot_keeps
    | apply State.markSeen_keeps
    | apply State.countRefusal_keeps
    | apply State.forward_keeps
    | refine State.writePass_keeps_eq ?_ (by assumption)
    | apply State.writePass_keeps
    | apply State.setFlag_keeps
    | apply State.set_keeps
    | refine Keeps.foldl ?_ (fun u x hu => ?_)
    | apply Keeps.ite
    | split
    | apply Keeps.update
    | apply Keeps.filterStore
    | lift_lets
    | dsimp only)

theorem State.adoptHeader_keeps {s t : State} (h : Keeps s t) (f : RxFrame) : Keeps s (State.adoptHeader t f) := by
  unfold State.adoptHeader
  repeat' with_reducible (first
    | assumption
    | apply State.setNodeTime_keeps
    | apply State.set64_keeps
    | apply State.set_keeps
    | apply Keeps.update)

theorem State.measureLoop_keeps {s t : State} (h : Keeps s t) (f : RxFrame) (out : Bool) : Keeps s (State.measureLoop t f out) := by
  unfold State.measureLoop
  repeat' with_reducible (first
    | assumption
    | apply State.set_keeps
    | apply Keeps.ite
    | apply Keeps.update)

theorem State.joinTime_keeps {s t : State} (h : Keeps s t) (f : RxFrame) : Keeps s (State.joinTime t f) := by
  unfold State.joinTime
  repeat' with_reducible (first
    | assumption
    | apply State.joinAcquire_keeps
    | apply State.stepTime_keeps
    | apply State.set_keeps
    | apply Keeps.update)

theorem State.countFrame_keeps {s t : State} (h : Keeps s t) (f : RxFrame) (out : Bool) : Keeps s (State.countFrame t f out) := by
  unfold State.countFrame
  repeat' with_reducible (first
    | assumption
    | apply State.joinTime_keeps
    | apply State.measureLoop_keeps
    | apply State.set_keeps
    | apply Keeps.ite
    | apply Keeps.update)

theorem State.followPhase_keeps {s t : State} (h : Keeps s t) (b : Bytes) : Keeps s (State.followPhase t b) := by
  unfold State.followPhase
  repeat' with_reducible (first
    | assumption
    | apply State.set_keeps
    | apply Keeps.ite)

theorem State.discardPending_keeps {s t : State} (h : Keeps s t) : Keeps s (State.discardPending t) := by
  unfold State.discardPending
  repeat' with_reducible (first
    | assumption
    | apply State.inaugForget_keeps
    | apply State.toPhase_keeps
    | apply State.set_keeps
    | apply Keeps.ite
    | apply Keeps.update)

theorem State.headerEvent_keeps {s t : State} (h : Keeps s t) (b : Bytes) : Keeps s (State.headerEvent t b) := by
  unfold State.headerEvent
  repeat' with_reducible (first
    | assumption
    | apply State.discardPending_keeps
    | apply State.setFlag_keeps
    | apply State.set_keeps
    | apply Keeps.ite
    | apply Keeps.update)

theorem State.mismatchCheck_keeps {s t : State} (h : Keeps s t) (b : Bytes) : Keeps s (State.mismatchCheck t b) := by
  unfold State.mismatchCheck
  repeat' with_reducible (first
    | assumption
    | apply State.updateMrole_keeps
    | apply State.passThrough_keeps
    | apply State.post_keeps
    | apply Keeps.ite
    | apply Keeps.update)

theorem State.takeHeaderValues_keeps {s t : State} (h : Keeps s t) (b : Bytes) : Keeps s (State.takeHeaderValues t b) := by
  unfold State.takeHeaderValues
  repeat' with_reducible (first
    | assumption
    | apply State.set_keeps
    | apply Keeps.ite)

theorem State.followerFrame_keeps {s t : State} (h : Keeps s t) (f : RxFrame) (out : Bool) : Keeps s (State.followerFrame t f out) := by
  unfold State.followerFrame
  repeat' with_reducible (first
    | assumption
    | apply State.takeHeaderValues_keeps
    | apply State.mismatchCheck_keeps
    | apply State.headerEvent_keeps
    | apply State.discardPending_keeps
    | apply State.followPhase_keeps
    | apply State.countFrame_keeps
    | apply State.adoptHeader_keeps
    | apply State.readSlots_keeps
    | apply State.readJoinEntry_keeps
    | apply Keeps.ite
    | apply Keeps.update)

theorem State.rivalFrame_keeps {s t : State} (h : Keeps s t) (f : RxFrame) : Keeps s (State.rivalFrame t f) := by
  unfold State.rivalFrame
  repeat' with_reducible (first
    | assumption
    | apply State.duplicateUid_keeps
    | apply State.stopForming_keeps
    | apply State.set_keeps
    | apply Keeps.ite
    | apply Keeps.update)

theorem State.relayCells_keeps {s t : State} (h : Keeps s t) (l : Layout) (ln : Line) (b : Bytes) : Keeps s (State.relayCells t l ln b) := by
  unfold State.relayCells
  repeat' with_reducible (first
    | assumption
    | refine Keeps.foldl ?_ (fun u x hu => ?_)
    | apply Keeps.ite
    | apply Keeps.update)

theorem State.masterReturn_keeps {s t : State} (h : Keeps s t) (f : RxFrame) : Keeps s (State.masterReturn t f) := by
  unfold State.masterReturn
  repeat' with_reducible (first
    | assumption
    | (intro x; first | (refine_lift have hx : Keeps s x := ?_; ?_; dsimp only [x]) | (refine_lift have hx : Keeps s x.state := ?_; ?_; dsimp only [x]) | (refine_lift have hx : Keeps s x.2 := ?_; ?_; dsimp only [x]) | (refine_lift have hx : Keeps s x.1 := ?_; ?_; dsimp only [x]) | (clear_value x))
    | (intro u hu)
    | (intro u)
    | (intro u; dsimp only)
    | lift_lets
    | apply State.relayCells_keeps
    | apply State.readSlots_keeps
    | apply State.countReturn_keeps
    | apply State.inaugTrigger_keeps
    | apply State.count_keeps
    | refine Keeps.foldl ?_ (fun u x hu => ?_)
    | apply Keeps.ite
    | split
    | apply Keeps.update
    | apply Keeps.filterStore
    | lift_lets
    | dsimp only)

theorem State.shrinkCheck_keeps {s t : State} (h : Keeps s t) (tseq : Nat) : Keeps s (State.shrinkCheck t tseq) := by
  unfold State.shrinkCheck
  repeat' with_reducible (first
    | assumption
    | apply State.shrinkStart_keeps
    | apply State.inaugDisturbed_keeps
    | split
    | apply Keeps.update)

theorem State.cellZero_keeps {s t : State} (h : Keeps s t) : Keeps s (State.cellZero t).2.2 := by
  unfold State.cellZero
  repeat' with_reducible (first
    | assumption
    | apply State.reserveNonce_keeps
    | apply State.set_keeps
    | split)

theorem State.launchCells_keeps {s t : State} (h : Keeps s t) (ln : Line) (b : Bytes) : Keeps s (State.launchCells t ln b).2 := by
  unfold State.launchCells
  repeat' with_reducible (first
    | assumption
    | apply State.cellZero_keeps
    | apply State.claimCells_keeps
    | apply State.count_keeps
    | split
    | apply Keeps.update)

theorem State.launchRegion_keeps {s t : State} (h : Keeps s t) (b : Bytes) : Keeps s (State.launchRegion t b).2 := by
  unfold State.launchRegion
  repeat' with_reducible (first
    | assumption
    | apply State.decideStaging_keeps
    | split)

theorem State.launchLine_keeps {s t : State} (h : Keeps s t) (ln : Line) (launchNs : Nat) (sleep : Option (Option Nat)) : Keeps s (State.launchLine t ln launchNs sleep) := by
  unfold State.launchLine
  repeat' with_reducible (first
    | assumption
    | apply State.launchRegion_keeps
    | apply State.launchCells_keeps
    | apply State.writeSlot_keeps
    | apply State.emit_keeps
    | refine Keeps.foldl ?_ (fun u x hu => ?_)
    | split)

theorem State.launchFrame_keeps {s t : State} (h : Keeps s t) (launchNs launchUi : Nat) (sleep : Option (Option Nat)) : Keeps s (State.launchFrame t launchNs launchUi sleep) := by
  unfold State.launchFrame
  repeat' with_reducible (first
    | assumption
    | (intro x; first | (refine_lift have hx : Keeps s x := ?_; ?_; dsimp only [x]) | (refine_lift have hx : Keeps s x.state := ?_; ?_; dsimp only [x]) | (refine_lift have hx : Keeps s x.2 := ?_; ?_; dsimp only [x]) | (refine_lift have hx : Keeps s x.1 := ?_; ?_; dsimp only [x]) | (clear_value x))
    | (intro u hu)
    | (intro u)
    | (intro u; dsimp only)
    | lift_lets
    | apply State.launchLine_keeps
    | apply State.count_keeps
    | refine Keeps.foldl ?_ (fun u x hu => ?_)
    | apply Keeps.ite
    | split
    | apply Keeps.update
    | apply Keeps.filterStore
    | lift_lets
    | dsimp only)

theorem State.inaugMessage_keeps {s t : State} (h : Keeps s t) (m : Message) : Keeps s (State.inaugMessage t m) := by
  unfold State.inaugMessage
  repeat' with_reducible (first
    | assumption
    | (intro x; first | (refine_lift have hx : Keeps s x := ?_; ?_; dsimp only [x]) | (clear_value x))
    | lift_lets
    | apply State.mergeMessage_keeps
    | apply State.stageMessage_keeps
    | apply State.inaugTrigger_keeps
    | apply State.set_keeps
    | split
    | apply Keeps.update)

theorem State.layoutMessage_keeps {s t : State} (h : Keeps s t) (m : Message) : Keeps s (State.layoutMessage t m) := by
  unfold State.layoutMessage
  repeat' with_reducible (first
    | assumption
    | apply State.stageMessage_keeps
    | apply State.set_keeps
    | split
    | apply Keeps.update)

end Sys2Proof.Machine
end

