-- ==== Sys2Proof/Laws/KeepsAudio.lean ====
section
/-! SUPPORT. What no command changes: audio, mailbox, store and voice. -/

namespace Sys2Proof.Machine

/-! ## Audio -/

theorem State.deliver_keeps {s t : State} (h : Keeps s t) (i n : Nat) (p : Sample) : Keeps s (State.deliver t i n p) := by
  unfold State.deliver
  repeat' with_reducible (first
    | assumption
    | apply Keeps.update)

theorem State.deliverRepeat_keeps {s t : State} (h : Keeps s t) (i n : Nat) : Keeps s (State.deliverRepeat t i n) := by
  unfold State.deliverRepeat
  repeat' with_reducible (first
    | assumption
    | apply State.deliver_keeps)

theorem State.meter_keeps {s t : State} (h : Keeps s t) (i : Nat) (x : Int) : Keeps s (State.meter t i x) := by
  unfold State.meter
  repeat' with_reducible (first
    | assumption
    | apply State.count_keeps
    | apply State.set_keeps
    | apply Keeps.ite
    | apply Keeps.update)

theorem State.setPort_keeps {s t : State} (h : Keeps s t) (n : Nat) (p : TdmSt) : Keeps s (State.setPort t n p) := by
  unfold State.setPort
  repeat' with_reducible (first
    | assumption
    | apply Keeps.update)

theorem State.setTdmRun_keeps {s t : State} (h : Keeps s t) (n : Nat) (on : Bool) : Keeps s (State.setTdmRun t n on) := by
  unfold State.setTdmRun
  repeat' with_reducible (first
    | assumption
    | apply State.putBit_keeps
    | apply State.setFlag_keeps)

theorem State.tdmEnable_keeps {s t : State} (h : Keeps s t) (n : Nat) : Keeps s (State.tdmEnable t n) := by
  unfold State.tdmEnable
  repeat' with_reducible (first
    | assumption
    | apply State.setPort_keeps
    | apply State.setFlag_keeps
    | apply Keeps.ite)

theorem State.tdmDisable_keeps {s t : State} (h : Keeps s t) (n : Nat) : Keeps s (State.tdmDisable t n) := by
  unfold State.tdmDisable
  repeat' with_reducible (first
    | assumption
    | apply State.setPort_keeps
    | apply State.setFlag_keeps
    | apply Keeps.ite)

theorem execTdmPortEnable_keeps {s t : State} (h : Keeps s t) (n : Fin 8) : NextKeeps s (execTdmPortEnable n t) := by
  unfold execTdmPortEnable
  repeat' with_reducible (first
    | assumption
    | refine NextKeeps.next ?_
    | (intro u hu)
    | apply State.tdmEnable_keeps
    | apply State.access_keeps)

theorem State.tdmStart_keeps {s t : State} (h : Keeps s t) (n : Nat) : Keeps s (State.tdmStart t n) := by
  unfold State.tdmStart
  repeat' with_reducible (first
    | assumption
    | apply State.setTdmRun_keeps
    | apply State.setPort_keeps
    | apply Keeps.ite)

theorem execTdmPortStart_keeps {s t : State} (h : Keeps s t) (n : Fin 8) : NextKeeps s (execTdmPortStart n t) := by
  unfold execTdmPortStart
  repeat' with_reducible (first
    | assumption
    | refine NextKeeps.next ?_
    | apply State.tdmStart_keeps)

theorem execTdmPortDisable_keeps {s t : State} (h : Keeps s t) (n : Fin 8) : NextKeeps s (execTdmPortDisable n t) := by
  unfold execTdmPortDisable
  repeat' with_reducible (first
    | assumption
    | refine NextKeeps.next ?_
    | (intro u hu)
    | apply State.tdmDisable_keeps
    | apply State.access_keeps)

theorem State.tdmStop_keeps {s t : State} (h : Keeps s t) (n : Nat) : Keeps s (State.tdmStop t n) := by
  unfold State.tdmStop
  repeat' with_reducible (first
    | assumption
    | apply State.setTdmRun_keeps
    | apply State.setPort_keeps
    | apply Keeps.ite)

theorem State.tdmReadback_keeps {s t : State} (h : Keeps s t) (n : Nat) (mismatch : Bool) : Keeps s (State.tdmReadback t n mismatch) := by
  unfold State.tdmReadback
  repeat' with_reducible (first
    | assumption
    | apply State.setPort_keeps
    | apply State.evtBit_keeps
    | apply State.count_keeps
    | apply State.setFlag_keeps
    | apply Keeps.ite)

theorem State.tdmCountdown_keeps {s t : State} (h : Keeps s t) (n : Nat) : Keeps s (State.tdmCountdown t n) := by
  unfold State.tdmCountdown
  repeat' with_reducible (first
    | assumption
    | (intro x; clear_value x)
    | lift_lets
    | apply State.setPort_keeps
    | split)

theorem State.tdmInput_keeps {s t : State} (h : Keeps s t) (n port : Nat) (slots : List Nat) : Keeps s (State.tdmInput t n port slots) := by
  unfold State.tdmInput
  repeat' with_reducible (first
    | assumption
    | (intro x; first | (refine_lift have hx : Keeps s x := ?_; ?_; dsimp only [x]) | (clear_value x))
    | lift_lets
    | apply State.meter_keeps
    | apply State.deliverRepeat_keeps
    | apply State.deliver_keeps
    | apply State.evtBit_keeps
    | apply State.count_keeps
    | refine Keeps.foldl ?_ (fun u x hu => ?_)
    | split)

theorem State.micTick_keeps {s t : State} (h : Keeps s t) (n m : Nat) (raw : Nat) (flat : Bool) : Keeps s (State.micTick t n m raw flat) := by
  unfold State.micTick
  repeat' with_reducible (first
    | assumption
    | apply State.meter_keeps
    | apply State.deliver_keeps
    | apply State.evtBit_keeps
    | apply State.evt_keeps
    | apply State.putBit_keeps
    | apply Keeps.ite
    | apply Keeps.update)

theorem State.pdmClocks_keeps {s t : State} (h : Keeps s t) : Keeps s (State.pdmClocks t) := by
  unfold State.pdmClocks
  repeat' with_reducible (first
    | assumption
    | apply State.putBit_keeps
    | refine Keeps.foldl ?_ (fun u x hu => ?_))

theorem State.hostRepeat_keeps {s t : State} (h : Keeps s t) (n : Nat) : Keeps s (State.hostRepeat t n) := by
  unfold State.hostRepeat
  repeat' with_reducible (first
    | assumption
    | apply State.deliverRepeat_keeps
    | refine Keeps.foldl ?_ (fun u x hu => ?_)
    | apply Keeps.ite)

theorem State.hdmaPlay_keeps {s t : State} (h : Keeps s t) (n : Nat) : Keeps s (State.hdmaPlay t n) := by
  unfold State.hdmaPlay
  repeat' with_reducible (first
    | assumption
    | apply State.hostRepeat_keeps
    | apply State.evt_keeps
    | apply State.emit_keeps
    | apply State.count_keeps
    | apply State.set_keeps
    | apply Keeps.ite
    | apply Keeps.update)

theorem execHdmaReadComplete_keeps {s t : State} (h : Keeps s t) (words : List Nat) (phaseNs : Nat) : NextKeeps s (execHdmaReadComplete words phaseNs t) := by
  unfold execHdmaReadComplete
  repeat' with_reducible (first
    | assumption
    | refine NextKeeps.next ?_
    | apply State.hostRepeat_keeps
    | apply State.deliver_keeps
    | apply State.evt_keeps
    | apply State.count_keeps
    | refine Keeps.foldl ?_ (fun u x hu => ?_)
    | apply Keeps.ite
    | apply Keeps.update)

theorem State.hdmaCapture_keeps {s t : State} (h : Keeps s t) (n : Nat) : Keeps s (State.hdmaCapture t n) := by
  unfold State.hdmaCapture
  repeat' with_reducible (first
    | assumption
    | apply State.evt_keeps
    | apply State.emit_keeps
    | apply State.count_keeps
    | apply State.set_keeps
    | apply Keeps.ite)

theorem State.setOut_keeps {s t : State} (h : Keeps s t) (k : Nat) (p : Sample) : Keeps s (State.setOut t k p) := by
  unfold State.setOut
  repeat' with_reducible (first
    | assumption
    | apply Keeps.update)

theorem State.mixSink_keeps {s t : State} (h : Keeps s t) (k c : Nat) : Keeps s (State.mixSink t k c).1 := by
  unfold State.mixSink
  repeat' with_reducible (first
    | assumption
    | apply State.setOut_keeps
    | split)

theorem State.mixSink_keeps_eq {s t u : State} (h : Keeps s t) {k c : Nat} {z} (e : State.mixSink t k c = (u, z)) : Keeps s u := by
  have k := State.mixSink_keeps h k c
  rw [e] at k; exact k

theorem State.sendStage_keeps {s t : State} (h : Keeps s t) (n : Nat) : Keeps s (State.sendStage t n) := by
  unfold State.sendStage
  repeat' with_reducible (first
    | assumption
    | (intro x; clear_value x)
    | lift_lets
    | refine State.mixSink_keeps_eq ?_ (by assumption)
    | apply State.setOut_keeps
    | apply State.evt_keeps
    | apply State.count_keeps
    | refine Keeps.foldl ?_ (fun u x hu => ?_)
    | split)

theorem State.setZone_keeps {s t : State} (h : Keeps s t) (z : Nat) (x : ZoneSt) : Keeps s (State.setZone t z x) := by
  unfold State.setZone
  repeat' with_reducible (first
    | assumption
    | apply Keeps.update)

theorem State.zoneTick_keeps {s t : State} (h : Keeps s t) (n z : Nat) : Keeps s (State.zoneTick t n z) := by
  unfold State.zoneTick
  repeat' with_reducible (first
    | assumption
    | apply State.setZone_keeps
    | apply State.setOut_keeps
    | apply State.deliver_keeps
    | apply State.evtBit_keeps
    | apply State.count_keeps
    | apply State.setFlag_keeps
    | apply State.set_keeps
    | refine Keeps.foldl ?_ (fun u x hu => ?_)
    | apply Keeps.ite)

theorem staleFadeEnd_keeps {s t : State} (h : Keeps s t) (where_ : Nat) : Keeps s (staleFadeEnd t where_) := by
  unfold staleFadeEnd
  repeat' with_reducible (first
    | assumption
    | apply State.evtBit_keeps
    | apply State.putBit_keeps)

theorem execStaleFadeEnd_keeps {s t : State} (h : Keeps s t) (place : Fin 25) : NextKeeps s (execStaleFadeEnd place t) := by
  unfold execStaleFadeEnd
  repeat' with_reducible (first
    | assumption
    | refine NextKeeps.next ?_
    | apply staleFadeEnd_keeps)

theorem State.staleMap_keeps {s t : State} (h : Keeps s t) (n : Nat) : Keeps s (State.staleMap t n) := by
  unfold State.staleMap
  repeat' with_reducible (first
    | assumption
    | apply State.putBit_keeps
    | apply State.setFlag_keeps
    | refine Keeps.foldl ?_ (fun u x hu => ?_))

theorem State.playStage_keeps {s t : State} (h : Keeps s t) (n : Nat) : Keeps s (State.playStage t n) := by
  unfold State.playStage
  repeat' with_reducible (first
    | assumption
    | apply State.zoneTick_keeps
    | apply State.mixSink_keeps
    | apply State.evtBit_keeps
    | refine Keeps.foldl ?_ (fun u x hu => ?_)
    | apply Keeps.ite)

theorem State.tdmOutput_keeps {s t : State} (h : Keeps s t) (n : Nat) : Keeps s (State.tdmOutput t n) := by
  unfold State.tdmOutput
  repeat' with_reducible (first
    | assumption
    | apply State.meter_keeps
    | apply State.emit_keeps
    | refine Keeps.foldl ?_ (fun u x hu => ?_)
    | apply Keeps.ite
    | apply Keeps.update)

theorem State.readRing_keeps {s t : State} (h : Keeps s t) (n : Nat) : Keeps s (State.readRing t n) := by
  unfold State.readRing
  repeat' with_reducible (first
    | assumption
    | (intro x; clear_value x)
    | lift_lets
    | apply State.deliver_keeps
    | refine Keeps.foldl ?_ (fun u x hu => ?_)
    | split)

theorem State.gateTick_keeps {s t : State} (h : Keeps s t) : Keeps s (State.gateTick t) := by
  unfold State.gateTick
  repeat' with_reducible (first
    | assumption
    | apply Keeps.update)

theorem State.genTick_keeps {s t : State} (h : Keeps s t) (n : Nat) : Keeps s (State.genTick t n) := by
  unfold State.genTick
  repeat' with_reducible (first
    | assumption
    | apply State.deliverRepeat_keeps
    | apply State.deliver_keeps
    | refine Keeps.foldl ?_ (fun u x hu => ?_)
    | split)

theorem State.rampTick_keeps {s t : State} (h : Keeps s t) : Keeps s (State.rampTick t) := by
  unfold State.rampTick
  repeat' with_reducible (first
    | assumption
    | apply Keeps.update)

/-! ## Mailbox -/

theorem State.putEntry_keeps {s t : State} (h : Keeps s t) (ch : Nat) (bytes : List Nat) : Keeps s (State.putEntry t ch bytes) := by
  unfold State.putEntry
  repeat' with_reducible (first
    | assumption
    | apply State.set_keeps
    | apply State.putBytes_keeps)

theorem State.putResponse_keeps {s t : State} (h : Keeps s t) (ch : Nat) (bytes : List Nat) : Keeps s (State.putResponse t ch bytes) := by
  unfold State.putResponse
  repeat' with_reducible (first
    | assumption
    | apply State.putEntry_keeps
    | apply State.evtBit_keeps)

theorem State.sendResponse_keeps {s t : State} (h : Keeps s t) (ch : Nat) (bytes : List Nat) : Keeps s (State.sendResponse t ch bytes) := by
  unfold State.sendResponse
  repeat' with_reducible (first
    | assumption
    | apply State.putResponse_keeps
    | apply Keeps.ite
    | apply Keeps.update)

theorem State.showOpen_keeps {s t : State} (h : Keeps s t) (ch : Nat) : Keeps s (State.showOpen t ch) := by
  unfold State.showOpen
  repeat' with_reducible (first
    | assumption
    | apply State.set_keeps)

theorem State.closeHeld_keeps {s t : State} (h : Keeps s t) (ch : Nat) (bytes : List Nat) : Keeps s (State.closeHeld t ch bytes) := by
  unfold State.closeHeld
  repeat' with_reducible (first
    | assumption
    | apply State.showOpen_keeps
    | apply Keeps.ite
    | apply Keeps.update)

theorem State.flushHeld_keeps {s : State} (ch : Nat) (n : Nat) : ∀ {t : State}, Keeps s t → Keeps s (State.flushHeld t ch n) := by
  induction n with
  | zero => intro t h; exact h
  | succ n ih =>
    intro t h
    unfold State.flushHeld
    repeat' with_reducible (first
    | assumption
    | apply ih
    | apply State.closeHeld_keeps
    | apply State.putResponse_keeps
    | split
    | apply Keeps.update)

theorem State.answerReq_keeps {s t : State} (h : Keeps s t) (r : OpenReq) (status : Nat) (final : Bool) (data : List Nat) : Keeps s (State.answerReq t r status final data) := by
  unfold State.answerReq
  repeat' with_reducible (first
    | assumption
    | (intro x; first | (refine_lift have hx : Keeps s x := ?_; ?_; dsimp only [x]) | (clear_value x))
    | lift_lets
    | apply State.sendResponse_keeps
    | apply State.putEntry_keeps
    | apply State.stageMessage_keeps
    | apply State.evtBit_keeps
    | apply State.set_keeps
    | split)

theorem State.reply_keeps {s t : State} (h : Keeps s t) (r : OpenReq) (status : Nat) (data : List Nat) : Keeps s (State.reply t r status data) := by
  unfold State.reply
  repeat' with_reducible (first
    | assumption
    | apply State.answerReq_keeps
    | apply State.showOpen_keeps
    | apply Keeps.ite
    | apply Keeps.update)

theorem State.wait_keeps {s t : State} (h : Keeps s t) (r : OpenReq) (p : Pend) : Keeps s (State.wait t r p) := by
  unfold State.wait
  repeat' with_reducible (first
    | assumption
    | apply State.answerReq_keeps
    | apply State.showOpen_keeps
    | apply Keeps.update)

theorem State.finish_keeps {s t : State} (h : Keeps s t) (r : OpenReq) (status : Nat) (data : List Nat) : Keeps s (State.finish t r status data) := by
  unfold State.finish
  repeat' with_reducible (first
    | assumption
    | apply State.answerReq_keeps
    | apply State.showOpen_keeps
    | apply Keeps.update)

theorem State.finishAll_keeps {s t : State} (h : Keeps s t) (p : Pend → Bool) (status : Nat) (data : List Nat) : Keeps s (State.finishAll t p status data) := by
  unfold State.finishAll
  repeat' with_reducible (first
    | assumption
    | apply State.finish_keeps
    | refine Keeps.foldl ?_ (fun u x hu => ?_))

theorem State.notify_keeps {s t : State} (h : Keeps s t) (cls : Nat) (data : List Nat) : Keeps s (State.notify t cls data) := by
  unfold State.notify
  repeat' with_reducible (first
    | assumption
    | apply State.putEntry_keeps
    | apply State.evt_keeps
    | apply State.count_keeps
    | apply Keeps.ite
    | apply Keeps.update)

theorem State.indexError_keeps {s t : State} (h : Keeps s t) (ch : Nat) : Keeps s (State.indexError t ch) := by
  unfold State.indexError
  repeat' with_reducible (first
    | assumption
    | apply State.evt_keeps
    | apply State.count_keeps)

theorem State.reqHeadWrite_keeps {s t : State} (h : Keeps s t) (ch head : Nat) : Keeps s (State.reqHeadWrite t ch head) := by
  unfold State.reqHeadWrite
  repeat' with_reducible (first
    | assumption
    | apply State.indexError_keeps
    | apply State.set_keeps
    | apply Keeps.ite)

theorem execMbxReqHeadWrite_keeps {s t : State} (h : Keeps s t) (ch : Fin 4) (head : Nat) : NextKeeps s (execMbxReqHeadWrite ch head t) := by
  unfold execMbxReqHeadWrite
  repeat' with_reducible (first
    | assumption
    | refine NextKeeps.next ?_
    | (intro u hu)
    | apply State.reqHeadWrite_keeps
    | apply State.access_keeps)

theorem State.rspTailWrite_keeps {s t : State} (h : Keeps s t) (ch tail : Nat) : Keeps s (State.rspTailWrite t ch tail) := by
  unfold State.rspTailWrite
  repeat' with_reducible (first
    | assumption
    | apply State.indexError_keeps
    | apply State.flushHeld_keeps
    | apply State.set_keeps
    | apply Keeps.ite)

theorem execMbxRspTailWrite_keeps {s t : State} (h : Keeps s t) (ch : Fin 4) (tail : Nat) : NextKeeps s (execMbxRspTailWrite ch tail t) := by
  unfold execMbxRspTailWrite
  repeat' with_reducible (first
    | assumption
    | refine NextKeeps.next ?_
    | (intro u hu)
    | apply State.rspTailWrite_keeps
    | apply State.access_keeps)

theorem State.chReset_keeps {s t : State} (h : Keeps s t) (ch : Nat) : Keeps s (State.chReset t ch) := by
  unfold State.chReset
  repeat' with_reducible (first
    | assumption
    | apply State.showOpen_keeps
    | apply State.set_keeps
    | apply Keeps.ite
    | apply Keeps.update)

theorem State.chResetWrite_keeps {s t : State} (h : Keeps s t) (ch : Nat) : Keeps s (State.chResetWrite t ch) := by
  unfold State.chResetWrite
  repeat' with_reducible (first
    | assumption
    | apply State.chReset_keeps
    | apply State.setFlag_keeps
    | apply Keeps.ite)

theorem execMbxChannelReset_keeps {s t : State} (h : Keeps s t) (ch : Fin 4) : NextKeeps s (execMbxChannelReset ch t) := by
  unfold execMbxChannelReset
  repeat' with_reducible (first
    | assumption
    | refine NextKeeps.next ?_
    | (intro u hu)
    | apply State.chResetWrite_keeps
    | apply State.access_keeps)

/-! ## Store -/

theorem State.setBank_keeps {s t : State} (h : Keeps s t) (b st : Nat) : Keeps s (State.setBank t b st) := by
  unfold State.setBank
  repeat' with_reducible (first
    | assumption
    | apply State.set_keeps)

theorem State.storeRead_keeps {s t : State} (h : Keeps s t) (a n : Nat) : Keeps s (State.storeRead t a n).2.2 := by
  unfold State.storeRead
  repeat' with_reducible (first
    | assumption
    | apply State.evt_keeps
    | apply Keeps.ite)

theorem State.storeRead_keeps_eq {s t u : State} (h : Keeps s t) {a n : Nat} {z w} (e : State.storeRead t a n = (z, w, u)) : Keeps s u := by
  have k := State.storeRead_keeps h a n
  rw [e] at k; exact k

theorem State.storeWrite_keeps {s t : State} (h : Keeps s t) (a : Nat) (bytes : List Nat) : Keeps s (State.storeWrite t a bytes) := by
  unfold State.storeWrite
  repeat' with_reducible (first
    | assumption
    | apply State.evt_keeps
    | apply State.putByte_keeps
    | refine Keeps.foldl ?_ (fun u x hu => ?_)
    | apply Keeps.ite
    | apply Keeps.update)

theorem State.applyMap_keeps {s t : State} (h : Keeps s t) (rs : List Region) : Keeps s (State.applyMap t rs) := by
  unfold State.applyMap
  repeat' with_reducible (first
    | assumption
    | apply State.setFlag_keeps
    | apply State.set_keeps
    | refine Keeps.foldl ?_ (fun u x hu => ?_)
    | split
    | apply Keeps.update)

theorem State.startMap_keeps {s t : State} (h : Keeps s t) : Keeps s (State.startMap t) := by
  unfold State.startMap
  repeat' with_reducible (first
    | assumption
    | apply State.applyMap_keeps
    | split
    | apply Keeps.filterStore)

theorem State.storeInit_keeps {s t : State} (h : Keeps s t) (mask : Nat) : Keeps s (State.storeInit t mask) := by
  unfold State.storeInit
  repeat' with_reducible (first
    | assumption
    | apply State.setBank_keeps
    | apply State.define_keeps
    | apply State.putBit_keeps
    | refine Keeps.foldl ?_ (fun u x hu => ?_)
    | apply Keeps.ite
    | apply Keeps.filterStore)

theorem execStoreInitStart_keeps {s t : State} (h : Keeps s t) (mask : Nat) : NextKeeps s (execStoreInitStart mask t) := by
  unfold execStoreInitStart
  repeat' with_reducible (first
    | assumption
    | refine NextKeeps.next ?_
    | (intro u hu)
    | apply State.storeInit_keeps
    | apply State.access_keeps)

theorem State.romReads_keeps {s t : State} (h : Keeps s t) : Keeps s (State.romReads t) := by
  unfold State.romReads
  repeat' with_reducible (first
    | assumption
    | apply State.set_keeps
    | apply Keeps.ite)

theorem execBankInitDone_keeps {s t : State} (h : Keeps s t) (b : Fin 16) : NextKeeps s (execBankInitDone b t) := by
  unfold execBankInitDone
  repeat' with_reducible (first
    | assumption
    | refine NextKeeps.next ?_
    | apply State.romReads_keeps
    | apply State.setBank_keeps
    | apply State.putBit_keeps
    | apply Keeps.ite)

theorem State.recCounts_keeps {s t : State} (h : Keeps s t) : Keeps s (State.recCounts t) := by
  unfold State.recCounts
  repeat' with_reducible (first
    | assumption
    | apply State.setFlag_keeps
    | apply State.set_keeps)

theorem State.handleLost_keeps {s t : State} (h : Keeps s t) (b cause : Nat) : Keeps s (State.handleLost t b cause) := by
  unfold State.handleLost
  repeat' with_reducible (first
    | assumption
    | (intro x; first | (refine_lift have hx : Keeps s x := ?_; ?_; dsimp only [x]) | (refine_lift have hx : Keeps s x.state := ?_; ?_; dsimp only [x]) | (refine_lift have hx : Keeps s x.2 := ?_; ?_; dsimp only [x]) | (refine_lift have hx : Keeps s x.1 := ?_; ?_; dsimp only [x]) | (clear_value x))
    | (intro u hu)
    | (intro u)
    | (intro u; dsimp only)
    | lift_lets
    | apply State.recCounts_keeps
    | apply State.storeInit_keeps
    | apply State.post_keeps
    | apply State.evt_keeps
    | apply State.count_keeps
    | refine Keeps.foldl ?_ (fun u x hu => ?_)
    | apply Keeps.ite
    | split
    | apply Keeps.update
    | apply Keeps.filterStore
    | lift_lets
    | dsimp only)

theorem State.storeTestEnd_keeps {s t : State} (h : Keeps s t) (errors first : Nat) (aborted : Bool) : Keeps s (State.storeTestEnd t errors first aborted) := by
  unfold State.storeTestEnd
  repeat' with_reducible (first
    | assumption
    | apply State.evt_keeps
    | apply State.undefine_keeps
    | apply State.setFlag_keeps
    | apply State.set_keeps
    | apply State.putBlock_keeps
    | split
    | apply Keeps.update)

theorem State.storeTestStart_keeps {s t : State} (h : Keeps s t) (offset length : Nat) : Keeps s (State.storeTestStart t offset length) := by
  unfold State.storeTestStart
  repeat' with_reducible (first
    | assumption
    | apply State.setFlag_keeps
    | apply State.set_keeps
    | apply Keeps.update)

theorem State.storeTestStop_keeps {s t : State} (h : Keeps s t) : Keeps s (State.storeTestStop t) := by
  unfold State.storeTestStop
  repeat' with_reducible (first
    | assumption
    | (intro u)
    | (intro u; dsimp only)
    | lift_lets
    | apply State.storeTestEnd_keeps
    | apply State.finishAll_keeps
    | apply Keeps.ite)

theorem State.bankLost_keeps {s t : State} (h : Keeps s t) (b cause : Nat) : Keeps s (State.bankLost t b cause) := by
  unfold State.bankLost
  repeat' with_reducible (first
    | assumption
    | (intro x; first | (refine_lift have hx : Keeps s x := ?_; ?_; dsimp only [x]) | (refine_lift have hx : Keeps s x.state := ?_; ?_; dsimp only [x]) | (refine_lift have hx : Keeps s x.2 := ?_; ?_; dsimp only [x]) | (refine_lift have hx : Keeps s x.1 := ?_; ?_; dsimp only [x]) | (clear_value x))
    | (intro u hu)
    | (intro u)
    | (intro u; dsimp only)
    | lift_lets
    | apply State.storeTestStop_keeps
    | apply State.handleLost_keeps
    | apply State.setBank_keeps
    | apply State.evtBit_keeps
    | apply State.putBit_keeps
    | refine Keeps.foldl ?_ (fun u x hu => ?_)
    | apply Keeps.ite
    | split
    | apply Keeps.update
    | apply Keeps.filterStore
    | lift_lets
    | dsimp only)

theorem State.handleLostBanks_keeps {s t : State} (h : Keeps s t) : Keeps s (State.handleLostBanks t) := by
  unfold State.handleLostBanks
  repeat' with_reducible (first
    | assumption
    | (intro x; first | (refine_lift have hx : Keeps s x := ?_; ?_; dsimp only [x]) | (refine_lift have hx : Keeps s x.state := ?_; ?_; dsimp only [x]) | (refine_lift have hx : Keeps s x.2 := ?_; ?_; dsimp only [x]) | (refine_lift have hx : Keeps s x.1 := ?_; ?_; dsimp only [x]) | (clear_value x))
    | (intro u hu)
    | (intro u)
    | (intro u; dsimp only)
    | lift_lets
    | apply State.handleLost_keeps
    | refine Keeps.foldl ?_ (fun u x hu => ?_)
    | apply Keeps.ite
    | split
    | apply Keeps.update
    | apply Keeps.filterStore
    | lift_lets
    | dsimp only)

theorem execStoreCorrectableError_keeps {s t : State} (h : Keeps s t) (offset initiator syndrome : Nat) : NextKeeps s (execStoreCorrectableError offset initiator syndrome t) := by
  unfold execStoreCorrectableError
  repeat' with_reducible (first
    | assumption
    | refine NextKeeps.next ?_
    | apply State.count_keeps
    | apply State.set_keeps
    | apply Keeps.ite
    | apply Keeps.update)

theorem execCeWriteback_keeps {s t : State} (h : Keeps s t) (offset : Nat) : NextKeeps s (execCeWriteback offset t) := by
  unfold execCeWriteback
  repeat' with_reducible (first
    | assumption
    | refine NextKeeps.next ?_
    | apply Keeps.update)

theorem State.ueLog_keeps {s t : State} (h : Keeps s t) (a initiator : Nat) : Keeps s (State.ueLog t a initiator) := by
  unfold State.ueLog
  repeat' with_reducible (first
    | assumption
    | apply State.setFlag_keeps
    | apply State.set_keeps
    | apply Keeps.ite)

theorem State.pageError_keeps {s t : State} (h : Keeps s t) (a : Nat) : Keeps s (State.pageError t a) := by
  unfold State.pageError
  repeat' with_reducible (first
    | assumption
    | apply Keeps.update)

theorem execStoreUncorrectableError_keeps {s t : State} (h : Keeps s t) (offset initiator : Nat) (affected : List Nat) : NextKeeps s (execStoreUncorrectableError offset initiator affected t) := by
  unfold execStoreUncorrectableError
  repeat' with_reducible (first
    | assumption
    | refine NextKeeps.next ?_
    | exact trivial
    | (intro x; first | (refine_lift have hx : Keeps s x := ?_; ?_; dsimp only [x]) | (refine_lift have hx : Keeps s x.state := ?_; ?_; dsimp only [x]) | (refine_lift have hx : Keeps s x.2 := ?_; ?_; dsimp only [x]) | (refine_lift have hx : Keeps s x.1 := ?_; ?_; dsimp only [x]) | (clear_value x))
    | (intro u hu)
    | (intro u)
    | (intro u; dsimp only)
    | lift_lets
    | apply State.pageError_keeps
    | apply State.ueLog_keeps
    | apply State.bankLost_keeps
    | apply State.deliverRepeat_keeps
    | apply State.post_keeps
    | apply State.evt_keeps
    | apply State.count_keeps
    | refine Keeps.foldl ?_ (fun u x hu => ?_)
    | apply Keeps.ite
    | split
    | apply Keeps.update
    | apply Keeps.filterStore
    | lift_lets
    | dsimp only)

theorem execScrubPassEnd_keeps {s t : State} (h : Keeps s t) : NextKeeps s (execScrubPassEnd t) := by
  unfold execScrubPassEnd
  repeat' with_reducible (first
    | assumption
    | refine NextKeeps.next ?_
    | apply State.post_keeps
    | apply State.evt_keeps
    | apply State.set_keeps
    | refine Keeps.foldl ?_ (fun u x hu => ?_)
    | apply Keeps.ite
    | apply Keeps.update)

theorem State.scrubTick_keeps {s t : State} (h : Keeps s t) : Keeps s (State.scrubTick t) := by
  unfold State.scrubTick
  repeat' with_reducible (first
    | assumption
    | apply State.set_keeps
    | apply Keeps.ite
    | apply Keeps.update)

theorem State.storeSleep_keeps {s t : State} (h : Keeps s t) : Keeps s (State.storeSleep t) := by
  unfold State.storeSleep
  repeat' with_reducible (first
    | assumption
    | apply State.setBank_keeps
    | apply State.wrapInc_keeps
    | apply State.set_keeps
    | refine Keeps.foldl ?_ (fun u x hu => ?_)
    | apply Keeps.update)

theorem State.dropBanks_keeps {s t : State} (h : Keeps s t) (keep : Nat) : Keeps s (State.dropBanks t keep) := by
  unfold State.dropBanks
  repeat' with_reducible (first
    | assumption
    | apply State.setBank_keeps
    | apply State.define_keeps
    | refine Keeps.foldl ?_ (fun u x hu => ?_)
    | apply Keeps.ite
    | apply Keeps.filterStore)

theorem State.storeCtlDown_keeps {s t : State} (h : Keeps s t) : Keeps s (State.storeCtlDown t) := by
  unfold State.storeCtlDown
  repeat' with_reducible (first
    | assumption
    | apply State.setWord_keeps
    | apply State.resetRegs_keeps
    | refine Keeps.foldl ?_ (fun u x hu => ?_)
    | apply Keeps.update)

theorem State.wakeChecksOver_keeps {s t : State} (h : Keeps s t) : Keeps s (State.wakeChecksOver t) := by
  unfold State.wakeChecksOver
  repeat' with_reducible (first
    | assumption
    | apply State.storeInit_keeps
    | apply State.setFlag_keeps
    | apply Keeps.ite
    | apply Keeps.update)

theorem execWakeCanaryCheck_keeps {s t : State} (h : Keeps s t) (decayed us : Nat) : NextKeeps s (execWakeCanaryCheck decayed us t) := by
  unfold execWakeCanaryCheck
  repeat' with_reducible (first
    | assumption
    | refine NextKeeps.next ?_
    | apply State.wakeChecksOver_keeps
    | apply State.bankLost_keeps
    | apply State.setBank_keeps
    | apply State.putBit_keeps
    | apply State.set_keeps
    | refine Keeps.foldl ?_ (fun u x hu => ?_)
    | apply Keeps.ite)

theorem execExtentCheckDone_keeps {s t : State} (h : Keeps s t) (b : Fin 16) (crc time100us : Nat) : NextKeeps s (execExtentCheckDone b crc time100us t) := by
  unfold execExtentCheckDone
  repeat' with_reducible (first
    | assumption
    | refine NextKeeps.next ?_
    | apply State.wakeChecksOver_keeps
    | apply State.bankLost_keeps
    | apply State.setBank_keeps
    | apply State.putBit_keeps
    | apply State.set_keeps
    | apply Keeps.ite)

theorem execWakeScrubBankDone_keeps {s t : State} (h : Keeps s t) (b : Fin 16) : NextKeeps s (execWakeScrubBankDone b t) := by
  unfold execWakeScrubBankDone
  repeat' with_reducible (first
    | assumption
    | refine NextKeeps.next ?_
    | apply State.setBank_keeps
    | apply State.setFlag_keeps
    | apply Keeps.ite)

/-! ## Voice -/

theorem execAecDiverge_keeps {s t : State} (h : Keeps s t) (e' : Fin 8) : NextKeeps s (execAecDiverge e' t) := by
  unfold execAecDiverge
  repeat' with_reducible (first
    | assumption
    | refine NextKeeps.next ?_
    | apply State.evtBit_keeps
    | apply State.count_keeps
    | apply State.setFlag_keeps
    | apply State.set_keeps
    | apply Keeps.ite
    | apply Keeps.update)

theorem State.aecBlock_keeps {s t : State} (h : Keeps s t) (e' erle : Nat) (dtalk abandoned : Bool) : Keeps s (State.aecBlock t e' erle dtalk abandoned) := by
  unfold State.aecBlock
  repeat' with_reducible (first
    | assumption
    | apply State.count_keeps
    | apply State.setFlag_keeps
    | apply State.set_keeps
    | apply Keeps.ite
    | apply Keeps.update)

theorem State.aecOutputs_keeps {s t : State} (h : Keeps s t) (n : Nat) : Keeps s (State.aecOutputs t n) := by
  unfold State.aecOutputs
  repeat' with_reducible (first
    | assumption
    | apply State.deliverRepeat_keeps
    | apply State.deliver_keeps
    | refine Keeps.foldl ?_ (fun u x hu => ?_)
    | apply Keeps.ite)

theorem State.setFb_keeps {s t : State} (h : Keeps s t) (m : Nat) (x : FbSt) : Keeps s (State.setFb t m x) := by
  unfold State.setFb
  repeat' with_reducible (first
    | assumption
    | apply State.set_keeps
    | apply Keeps.update)

theorem execHowlDetect_keeps {s t : State} (h : Keeps s t) (m : Fin 16) (freq : Nat) : NextKeeps s (execHowlDetect m freq t) := by
  unfold execHowlDetect
  repeat' with_reducible (first
    | assumption
    | refine NextKeeps.next ?_
    | apply State.setFb_keeps
    | apply State.evtBit_keeps
    | apply State.count_keeps
    | apply Keeps.ite)

theorem execNotchDeepen_keeps {s t : State} (h : Keeps s t) (m : Fin 16) (freq : Nat) : NextKeeps s (execNotchDeepen m freq t) := by
  unfold execNotchDeepen
  repeat' with_reducible (first
    | assumption
    | refine NextKeeps.next ?_
    | apply State.setFb_keeps
    | apply State.count_keeps
    | apply Keeps.ite)

theorem execNotchDecay_keeps {s t : State} (h : Keeps s t) (m : Fin 16) (freq : Nat) : NextKeeps s (execNotchDecay m freq t) := by
  unfold execNotchDecay
  repeat' with_reducible (first
    | assumption
    | refine NextKeeps.next ?_
    | apply State.setFb_keeps)

theorem State.fbDeliver_keeps {s t : State} (h : Keeps s t) (n m : Nat) : Keeps s (State.fbDeliver t n m) := by
  unfold State.fbDeliver
  repeat' with_reducible (first
    | assumption
    | apply Keeps.ite
    | apply Keeps.update)

theorem State.callTo_keeps {s t : State} (h : Keeps s t) (i st : Nat) : Keeps s (State.callTo t i st) := by
  unfold State.callTo
  repeat' with_reducible (first
    | assumption
    | apply State.notify_keeps
    | apply State.evtBit_keeps
    | apply State.set_keeps)

theorem State.moveFar_keeps {s t : State} (h : Keeps s t) (c : CallSt) (fromSrc toSrc : Nat) : Keeps s (State.moveFar t c fromSrc toSrc) := by
  unfold State.moveFar
  repeat' with_reducible (first
    | assumption
    | apply Keeps.update)

theorem State.callWait_keeps {s t : State} (h : Keeps s t) (i : Nat) : Keeps s (State.callWait t i) := by
  unfold State.callWait
  repeat' with_reducible (first
    | assumption
    | apply State.callTo_keeps
    | apply State.evtBit_keeps
    | split)

theorem State.feedEncoder_keeps {s t : State} (h : Keeps s t) (c : CallSt) (ch : Nat) (on : Bool) : Keeps s (State.feedEncoder t c ch on) := by
  unfold State.feedEncoder
  repeat' with_reducible (first
    | assumption
    | apply Keeps.update)

theorem execCallRingReturn_keeps {s t : State} (h : Keeps s t) (i : Fin 8) : NextKeeps s (execCallRingReturn i t) := by
  unfold execCallRingReturn
  repeat' with_reducible (first
    | assumption
    | refine NextKeeps.next ?_
    | apply State.callTo_keeps
    | apply Keeps.ite)

theorem State.callToCan_keeps {s t : State} (h : Keeps s t) (i ch : Nat) : Keeps s (State.callToCan t i ch) := by
  unfold State.callToCan
  repeat' with_reducible (first
    | assumption
    | (intro x; refine_lift have hx : Keeps s x := ?_; ?_; dsimp only [x])
    | lift_lets
    | apply State.feedEncoder_keeps
    | apply State.moveFar_keeps
    | apply State.callTo_keeps
    | apply State.evtBit_keeps
    | apply State.setFlag_keeps
    | apply State.set_keeps
    | split)

theorem execCallCanReturn_keeps {s t : State} (h : Keeps s t) (i : Fin 8) : NextKeeps s (execCallCanReturn i t) := by
  unfold execCallCanReturn
  repeat' with_reducible (first
    | assumption
    | refine NextKeeps.next ?_
    | (intro x; first | (refine_lift have hx : Keeps s x := ?_; ?_; dsimp only [x]) | (clear_value x))
    | lift_lets
    | apply State.feedEncoder_keeps
    | apply State.moveFar_keeps
    | apply State.callTo_keeps
    | apply State.evtBit_keeps
    | apply State.setFlag_keeps
    | split)

theorem execNoiseFrameEnd_keeps {s t : State} (h : Keeps s t) (z : Fin 16) (level : Option Nat) : NextKeeps s (execNoiseFrameEnd z level t) := by
  unfold execNoiseFrameEnd
  repeat' with_reducible (first
    | assumption
    | refine NextKeeps.next ?_
    | (intro u hu)
    | lift_lets
    | apply State.setZone_keeps
    | apply State.setFlag_keeps
    | apply State.set_keeps
    | split
    | apply Keeps.update)

theorem execNfFallback_keeps {s t : State} (h : Keeps s t) (z : Fin 16) : NextKeeps s (execNfFallback z t) := by
  unfold execNfFallback
  repeat' with_reducible (first
    | assumption
    | refine NextKeeps.next ?_
    | apply State.setFlag_keeps
    | split
    | apply Keeps.update)

theorem State.verdictTo_keeps {s t : State} (h : Keeps s t) (z v : Nat) : Keeps s (State.verdictTo t z v) := by
  unfold State.verdictTo
  repeat' with_reducible (first
    | assumption
    | apply State.post_keeps
    | apply State.evtBit_keeps
    | apply State.putBit_keeps
    | apply State.set_keeps
    | apply Keeps.ite)

theorem State.pmonDone_keeps {s t : State} (h : Keeps s t) (z : Nat) (x : PmonSt) (c : List (Nat × Nat × Nat × Int)) : Keeps s (State.pmonDone t z x c) := by
  unfold State.pmonDone
  repeat' with_reducible (first
    | assumption
    | apply State.verdictTo_keeps
    | apply State.finishAll_keeps
    | apply Keeps.update)

theorem execPmonWindowEnd_keeps {s t : State} (h : Keeps s t) (z : Fin 16) (windows : List (Nat × Nat × Int)) : NextKeeps s (execPmonWindowEnd z windows t) := by
  unfold execPmonWindowEnd
  repeat' with_reducible (first
    | assumption
    | refine NextKeeps.next ?_
    | (intro x; first | (refine_lift have hx : Keeps s x := ?_; ?_; dsimp only [x]) | (clear_value x))
    | lift_lets
    | apply State.pmonDone_keeps
    | apply State.verdictTo_keeps
    | apply State.count_keeps
    | apply State.set_keeps
    | apply Keeps.ite
    | split
    | apply Keeps.update)

theorem execPmonAgeOut_keeps {s t : State} (h : Keeps s t) (z : Fin 16) : NextKeeps s (execPmonAgeOut z t) := by
  unfold execPmonAgeOut
  repeat' with_reducible (first
    | assumption
    | refine NextKeeps.next ?_
    | apply State.verdictTo_keeps
    | apply Keeps.ite
    | apply Keeps.update)

theorem State.clipSweep_keeps {s t : State} (h : Keeps s t) : Keeps s (State.clipSweep t) := by
  unfold State.clipSweep
  repeat' with_reducible (first
    | assumption
    | apply Keeps.update)

theorem execClipDeleteComplete_keeps {s t : State} (h : Keeps s t) (id : Nat) : NextKeeps s (execClipDeleteComplete id t) := by
  unfold execClipDeleteComplete
  repeat' with_reducible (first
    | assumption
    | refine NextKeeps.next ?_
    | apply State.finishAll_keeps
    | apply Keeps.ite
    | apply Keeps.update)

theorem execVoiceStartTick_keeps {s t : State} (h : Keeps s t) (v : Fin 32) : NextKeeps s (execVoiceStartTick v t) := by
  unfold execVoiceStartTick
  repeat' with_reducible (first
    | assumption
    | refine NextKeeps.next ?_
    | apply State.deliver_keeps
    | apply State.set_keeps
    | split
    | apply Keeps.update)

theorem State.voiceGone_keeps {s t : State} (h : Keeps s t) (v cause : Nat) : Keeps s (State.voiceGone t v cause) := by
  unfold State.voiceGone
  repeat' with_reducible (first
    | assumption
    | apply State.notify_keeps
    | apply State.evtBit_keeps
    | apply State.putBit_keeps
    | split
    | apply Keeps.update)

theorem execVoiceEnd_keeps {s t : State} (h : Keeps s t) (v : Fin 32) (fault : Bool) : NextKeeps s (execVoiceEnd v fault t) := by
  unfold execVoiceEnd
  repeat' with_reducible (first
    | assumption
    | refine NextKeeps.next ?_
    | lift_lets
    | apply State.voiceGone_keeps
    | apply State.clipSweep_keeps
    | split)

theorem State.voiceTick_keeps {s t : State} (h : Keeps s t) (n : Nat) : Keeps s (State.voiceTick t n) := by
  unfold State.voiceTick
  repeat' with_reducible (first
    | assumption
    | apply State.deliverRepeat_keeps
    | apply State.deliver_keeps
    | refine Keeps.foldl ?_ (fun u x hu => ?_)
    | apply Keeps.ite)

theorem State.voiceMerge_keeps {s t : State} (h : Keeps s t) (mergeTick : Nat) : Keeps s (State.voiceMerge t mergeTick) := by
  unfold State.voiceMerge
  repeat' with_reducible (first
    | assumption
    | (intro u; dsimp only)
    | lift_lets
    | apply State.voiceGone_keeps
    | refine Keeps.foldl ?_ (fun u x hu => ?_)
    | apply Keeps.update)

theorem State.recShow_keeps {s t : State} (h : Keeps s t) : Keeps s (State.recShow t) := by
  unfold State.recShow
  repeat' with_reducible (first
    | assumption
    | apply State.setFlag_keeps
    | apply State.set_keeps)

theorem execRecUnitComplete_keeps {s t : State} (h : Keeps s t) (channel : Fin 16) (tick stale overrun inactive : Nat) (data : List Nat) : NextKeeps s (execRecUnitComplete channel tick stale overrun inactive data t) := by
  unfold execRecUnitComplete
  repeat' with_reducible (first
    | assumption
    | refine NextKeeps.next ?_
    | (intro x; first | (refine_lift have hx : Keeps s x := ?_; ?_; dsimp only [x]) | (clear_value x))
    | lift_lets
    | apply State.recCounts_keeps
    | apply State.evt_keeps
    | apply State.count_keeps
    | apply State.set_keeps
    | apply State.putBytes_keeps
    | split
    | apply Keeps.update)

theorem State.voiceStart_keeps {s t : State} (h : Keeps s t) (x : Voice) : Keeps s (State.voiceStart t x) := by
  unfold State.voiceStart
  repeat' with_reducible (first
    | assumption
    | apply State.putBit_keeps
    | apply Keeps.update)

theorem State.stipaSignal_keeps {s t : State} (h : Keeps s t) (r : StipaSt) : Keeps s (State.stipaSignal t r) := by
  unfold State.stipaSignal
  repeat' with_reducible (first
    | assumption
    | apply State.voiceStart_keeps
    | apply State.set_keeps
    | split
    | apply Keeps.update)

theorem State.stipaEnd_keeps {s t : State} (h : Keeps s t) (f : Nat) (ok : Bool) (data : List Nat) : Keeps s (State.stipaEnd t f ok data) := by
  unfold State.stipaEnd
  repeat' with_reducible (first
    | assumption
    | apply State.voiceGone_keeps
    | apply State.finishAll_keeps
    | apply State.setFlag_keeps
    | apply State.set_keeps
    | split
    | apply Keeps.update)

theorem execStipaPhaseEnd_keeps {s t : State} (h : Keeps s t) (sti : Nat) (lowSnr interrupted micFault : Bool) (ti : List Nat) (signal noise : Nat) : NextKeeps s (execStipaPhaseEnd sti lowSnr interrupted micFault ti signal noise t) := by
  unfold execStipaPhaseEnd
  repeat' with_reducible (first
    | assumption
    | refine NextKeeps.next ?_
    | (intro x; first | (refine_lift have hx : Keeps s x := ?_; ?_; dsimp only [x]) | (clear_value x))
    | lift_lets
    | apply State.stipaEnd_keeps
    | apply State.stipaSignal_keeps
    | apply State.setFlag_keeps
    | apply State.set_keeps
    | split)

end Sys2Proof.Machine
end

