-- ==== Sys2Proof/Laws/KeepsNet.lean ====
section
/-! SUPPORT. What no command changes: CAN, bridge, Ethernet, event recorder, links and stack. -/

namespace Sys2Proof.Machine

/-! ## Can -/

theorem State.canErr_keeps {s t : State} (h : Keeps s t) (f : Fld) : Keeps s (State.canErr t f) := by
  unfold State.canErr
  repeat' with_reducible (first
    | assumption
    | apply State.evt_keeps)

theorem State.canTsrc_keeps {s t : State} (h : Keeps s t) : Keeps s (State.canTsrc t) := by
  unfold State.canTsrc
  repeat' with_reducible (first
    | assumption
    | apply State.canErr_keeps
    | apply State.set_keeps
    | apply Keeps.ite)

theorem State.setChan_keeps {s t : State} (h : Keeps s t) (c : Nat) (x : CanChan) : Keeps s (State.setChan t c x) := by
  unfold State.setChan
  repeat' with_reducible (first
    | assumption
    | apply Keeps.update)

theorem State.showSched_keeps {s t : State} (h : Keeps s t) : Keeps s (State.showSched t) := by
  unfold State.showSched
  repeat' with_reducible (first
    | assumption
    | apply State.setFlag_keeps
    | apply State.set_keeps
    | refine Keeps.foldl ?_ (fun u x hu => ?_))

theorem State.schedSet_keeps {s t : State} (h : Keeps s t) (l : List CanWin) (n : Nat) : Keeps s (State.schedSet t l n) := by
  unfold State.schedSet
  repeat' with_reducible (first
    | assumption
    | apply Keeps.update)

theorem State.canQueue_keeps {s t : State} (h : Keeps s t) (obj id : Nat) (data : List Nat) : Keeps s (State.canQueue t obj id data) := by
  unfold State.canQueue
  repeat' with_reducible (first
    | assumption
    | apply State.setFlag_keeps
    | apply Keeps.update)

theorem State.canUnqueue_keeps {s t : State} (h : Keeps s t) (obj : Nat) : Keeps s (State.canUnqueue t obj) := by
  unfold State.canUnqueue
  repeat' with_reducible (first
    | assumption
    | apply State.setFlag_keeps
    | apply Keeps.update)

theorem State.showChan_keeps {s t : State} (h : Keeps s t) (c : Nat) : Keeps s (State.showChan t c) := by
  unfold State.showChan
  repeat' with_reducible (first
    | assumption
    | apply State.set_keeps)

theorem State.chanHeard_keeps {s t : State} (h : Keeps s t) (c : Nat) : Keeps s (State.chanHeard t c) := by
  unfold State.chanHeard
  repeat' with_reducible (first
    | assumption
    | apply State.showChan_keeps
    | apply State.setChan_keeps)

theorem State.chanGrant_keeps {s t : State} (h : Keeps s t) (i c : Nat) : Keeps s (State.chanGrant t i c) := by
  unfold State.chanGrant
  repeat' with_reducible (first
    | assumption
    | apply State.showChan_keeps
    | apply State.canUnqueue_keeps
    | apply State.setChan_keeps
    | apply State.callToCan_keeps
    | apply State.evt_keeps
    | split)

theorem State.claimSeen_keeps {s t : State} (h : Keeps s t) (callId c : Nat) : Keeps s (State.claimSeen t callId c) := by
  unfold State.claimSeen
  repeat' with_reducible (first
    | assumption
    | apply State.chanGrant_keeps
    | apply State.chanHeard_keeps
    | refine Keeps.foldl ?_ (fun u x hu => ?_)
    | apply Keeps.update)

theorem execCallFbWait_keeps {s t : State} (h : Keeps s t) (i : Fin 8) : NextKeeps s (execCallFbWait i t) := by
  unfold execCallFbWait
  repeat' with_reducible (first
    | assumption
    | refine NextKeeps.next ?_
    | apply State.chanGrant_keeps
    | apply State.callWait_keeps
    | split)

theorem State.floorSeen_keeps {s t : State} (h : Keeps s t) (callId c : Nat) (holder : DWord) : Keeps s (State.floorSeen t callId c holder) := by
  unfold State.floorSeen
  repeat' with_reducible (first
    | assumption
    | apply State.chanHeard_keeps
    | apply State.setChan_keeps
    | apply State.evt_keeps
    | apply Keeps.ite)

theorem State.floorTick_keeps {s t : State} (h : Keeps s t) (c : Nat) : Keeps s (State.floorTick t c) := by
  unfold State.floorTick
  repeat' with_reducible (first
    | assumption
    | (intro x; first | (refine_lift have hx : Keeps s x := ?_; ?_; dsimp only [x]) | (clear_value x))
    | lift_lets
    | apply State.canQueue_keeps
    | apply State.setChan_keeps
    | split)

theorem State.encodeTick_keeps {s t : State} (h : Keeps s t) (c : Nat) : Keeps s (State.encodeTick t c) := by
  unfold State.encodeTick
  repeat' with_reducible (first
    | assumption
    | (intro x; clear_value x)
    | lift_lets
    | apply State.setChan_keeps
    | split)

theorem State.decodeTick_keeps {s t : State} (h : Keeps s t) (c n : Nat) : Keeps s (State.decodeTick t c n) := by
  unfold State.decodeTick
  repeat' with_reducible (first
    | assumption
    | (intro x; first | (refine_lift have hx : Keeps s x := ?_; ?_; dsimp only [x]) | (clear_value x))
    | lift_lets
    | apply State.setChan_keeps
    | apply State.deliver_keeps
    | apply State.count_keeps
    | split)

theorem State.voiceSeen_keeps {s t : State} (h : Keeps s t) (c r : Nat) (data : List Nat) : Keeps s (State.voiceSeen t c r data) := by
  unfold State.voiceSeen
  repeat' with_reducible (first
    | assumption
    | (intro x; refine_lift have hx : Keeps s x := ?_; ?_; dsimp only [x])
    | lift_lets
    | apply State.chanHeard_keeps
    | apply State.setChan_keeps
    | apply State.count_keeps
    | split)

theorem State.canStart_keeps {s t : State} (h : Keeps s t) (nowUs : Nat) : Keeps s (State.canStart t nowUs) := by
  unfold State.canStart
  repeat' with_reducible (first
    | assumption
    | apply State.canQueue_keeps
    | split
    | apply Keeps.update)

theorem State.claimSend_keeps {s t : State} (h : Keeps s t) : Keeps s (State.claimSend t) := by
  unfold State.claimSend
  repeat' with_reducible (first
    | assumption
    | (intro x; refine_lift have hx : Keeps s x := ?_; ?_; dsimp only [x])
    | lift_lets
    | apply State.canUnqueue_keeps
    | apply State.canQueue_keeps
    | refine Keeps.foldl ?_ (fun u x hu => ?_)
    | split)

theorem State.voiceSend_keeps {s t : State} (h : Keeps s t) (c : Nat) : Keeps s (State.voiceSend t c) := by
  unfold State.voiceSend
  repeat' with_reducible (first
    | assumption
    | (intro x; clear_value x)
    | lift_lets
    | apply State.canQueue_keeps
    | apply State.setChan_keeps
    | split)

theorem State.windowOpen_keeps {s t : State} (h : Keeps s t) (x : Nat) : Keeps s (State.windowOpen t x) := by
  unfold State.windowOpen
  repeat' with_reducible (first
    | assumption
    | apply State.voiceSend_keeps
    | apply State.claimSend_keeps
    | apply State.canStart_keeps
    | apply State.canQueue_keeps
    | apply State.set_keeps
    | apply Keeps.ite
    | split
    | apply Keeps.update)

theorem execCanWindowOpen_keeps {s t : State} (h : Keeps s t) (win : Fin 64) : NextKeeps s (execCanWindowOpen win t) := by
  unfold execCanWindowOpen
  repeat' with_reducible (first
    | assumption
    | refine NextKeeps.next ?_
    | (intro u)
    | (intro u; dsimp only)
    | apply State.windowOpen_keeps
    | apply Keeps.ite)

theorem State.objTake_keeps {s t : State} (h : Keeps s t) (f : CanRx) (k : Nat) : Keeps s (State.objTake t f k) := by
  unfold State.objTake
  repeat' with_reducible (first
    | assumption
    | apply State.storeWrite_keeps
    | apply State.evtBit_keeps
    | apply State.count_keeps
    | apply State.setFlag_keeps
    | apply Keeps.ite
    | apply Keeps.update)

theorem State.objHold_keeps {s t : State} (h : Keeps s t) (k : Nat) : Keeps s (State.objHold t k) := by
  unfold State.objHold
  repeat' with_reducible (first
    | assumption
    | apply State.setFlag_keeps)

theorem State.objRelease_keeps {s t : State} (h : Keeps s t) (k : Nat) : Keeps s (State.objRelease t k) := by
  unfold State.objRelease
  repeat' with_reducible (first
    | assumption
    | apply State.setFlag_keeps
    | apply State.set_keeps
    | apply Keeps.ite
    | apply Keeps.update)

theorem State.objSend_keeps {s t : State} (h : Keeps s t) (k : Nat) : Keeps s (State.objSend t k) := by
  unfold State.objSend
  repeat' with_reducible (first
    | assumption
    | apply State.setFlag_keeps
    | apply State.set_keeps
    | apply Keeps.ite)

theorem State.objDisable_keeps {s t : State} (h : Keeps s t) (k : Nat) : Keeps s (State.objDisable t k) := by
  unfold State.objDisable
  repeat' with_reducible (first
    | assumption
    | apply State.setFlag_keeps
    | apply State.set_keeps
    | apply Keeps.ite)

theorem State.ownSent_keeps {s t : State} (h : Keeps s t) (f : CanOwn) : Keeps s (State.ownSent t f) := by
  unfold State.ownSent
  repeat' with_reducible (first
    | assumption
    | apply State.floorSeen_keeps
    | apply State.claimSeen_keeps
    | apply State.chanHeard_keeps
    | apply Keeps.ite)

theorem execCanFrameSent_keeps {s t : State} (h : Keeps s t) (obj : Fin 128) (sofNs endUs : Nat) : NextKeeps s (execCanFrameSent obj sofNs endUs t) := by
  unfold execCanFrameSent
  repeat' with_reducible (first
    | assumption
    | refine NextKeeps.next ?_
    | apply State.ownSent_keeps
    | apply State.canStart_keeps
    | apply State.canUnqueue_keeps
    | apply State.storeWrite_keeps
    | apply State.storeRead_keeps
    | apply State.evtBit_keeps
    | apply State.emit_keeps
    | apply State.setFlag_keeps
    | apply State.set_keeps
    | split
    | apply Keeps.update)

theorem State.canProtoError_keeps {s t : State} (h : Keeps s t) : Keeps s (State.canProtoError t) := by
  unfold State.canProtoError
  repeat' with_reducible (first
    | assumption
    | apply State.canErr_keeps
    | apply State.count_keeps
    | apply State.set_keeps
    | apply Keeps.ite)

theorem State.txFail_keeps {s t : State} (h : Keeps s t) (k cause : Nat) : Keeps s (State.txFail t k cause) := by
  unfold State.txFail
  repeat' with_reducible (first
    | assumption
    | apply State.canUnqueue_keeps
    | apply State.evtBit_keeps
    | apply State.setFlag_keeps
    | apply State.set_keeps
    | apply Keeps.ite)

theorem execCanTxFail_keeps {s t : State} (h : Keeps s t) (obj : Fin 128) (error : Bool) : NextKeeps s (execCanTxFail obj error t) := by
  unfold execCanTxFail
  repeat' with_reducible (first
    | assumption
    | refine NextKeeps.next ?_
    | apply State.txFail_keeps
    | apply State.canProtoError_keeps
    | apply Keeps.ite
    | apply Keeps.update)

theorem execCanBusOff_keeps {s t : State} (h : Keeps s t) : NextKeeps s (execCanBusOff t) := by
  unfold execCanBusOff
  repeat' with_reducible (first
    | assumption
    | refine NextKeeps.next ?_
    | apply State.txFail_keeps
    | apply State.canErr_keeps
    | apply State.post_keeps
    | apply State.count_keeps
    | apply State.setFlag_keeps
    | apply State.set_keeps
    | refine Keeps.foldl ?_ (fun u x hu => ?_)
    | apply Keeps.ite
    | apply Keeps.update)

theorem execCanBusoffRecovered_keeps {s t : State} (h : Keeps s t) : NextKeeps s (execCanBusoffRecovered t) := by
  unfold execCanBusoffRecovered
  repeat' with_reducible (first
    | assumption
    | refine NextKeeps.next ?_
    | apply State.setFlag_keeps
    | apply State.set_keeps
    | apply Keeps.ite)

theorem State.canEnable_keeps {s t : State} (h : Keeps s t) (on : Bool) : Keeps s (State.canEnable t on) := by
  unfold State.canEnable
  repeat' with_reducible (first
    | assumption
    | apply State.setFlag_keeps
    | apply State.set_keeps
    | apply Keeps.ite
    | apply Keeps.update)

theorem State.violation_keeps {s t : State} (h : Keeps s t) (id : Nat) (ext : Bool) (us : Int) : Keeps s (State.violation t id ext us) := by
  unfold State.violation
  repeat' with_reducible (first
    | assumption
    | (intro x; refine_lift have hx : Keeps s x := ?_; ?_; dsimp only [x])
    | lift_lets
    | apply State.evt_keeps
    | apply State.count_keeps
    | apply State.setFlag_keeps
    | apply State.set_keeps
    | split)

theorem State.judge_keeps {s t : State} (h : Keeps s t) (f : CanRx) : Keeps s (State.judge t f) := by
  unfold State.judge
  repeat' with_reducible (first
    | assumption
    | (intro x; clear_value x)
    | lift_lets
    | apply State.violation_keeps
    | apply State.fresh_keeps
    | split)

theorem State.reference_keeps {s t : State} (h : Keeps s t) (f : CanRx) : Keeps s (State.reference t f) := by
  unfold State.reference
  repeat' with_reducible (first
    | assumption
    | apply State.canTsrc_keeps
    | apply State.set64_keeps
    | apply State.set_keeps
    | apply Keeps.ite
    | apply Keeps.update)

theorem State.masterBeat_keeps {s t : State} (h : Keeps s t) (f : CanRx) : Keeps s (State.masterBeat t f) := by
  unfold State.masterBeat
  repeat' with_reducible (first
    | assumption
    | apply State.reference_keeps
    | apply State.canHeartbeat_keeps
    | apply State.validComm_keeps
    | apply Keeps.ite)

theorem State.nodeBeat_keeps {s t : State} (h : Keeps s t) (f : CanRx) : Keeps s (State.nodeBeat t f) := by
  unfold State.nodeBeat
  repeat' with_reducible (first
    | assumption
    | apply State.twinSeenAlive_keeps
    | apply State.validComm_keeps
    | apply Keeps.ite
    | apply Keeps.update)

theorem State.ringHoldSeen_keeps {s t : State} (h : Keeps s t) : Keeps s (State.ringHoldSeen t) := by
  unfold State.ringHoldSeen
  repeat' with_reducible (first
    | assumption
    | apply State.stopForming_keeps
    | apply Keeps.update)

theorem State.canOwnRx_keeps {s t : State} (h : Keeps s t) (f : CanRx) : Keeps s (State.canOwnRx t f) := by
  unfold State.canOwnRx
  repeat' with_reducible (first
    | assumption
    | apply State.ringHoldSeen_keeps
    | apply State.nodeBeat_keeps
    | apply State.masterBeat_keeps
    | apply State.voiceSeen_keeps
    | apply State.floorSeen_keeps
    | apply State.claimSeen_keeps
    | apply Keeps.ite)

theorem execCanFrameReceive_keeps {s t : State} (h : Keeps s t) (f : CanRx) : NextKeeps s (execCanFrameReceive f t) := by
  unfold execCanFrameReceive
  repeat' with_reducible (first
    | assumption
    | refine NextKeeps.next ?_
    | (intro x; refine_lift have hx : Keeps s x := ?_; ?_; dsimp only [x])
    | lift_lets
    | apply State.canOwnRx_keeps
    | apply State.judge_keeps
    | apply State.objTake_keeps
    | apply State.canStart_keeps
    | apply State.set_keeps
    | split)

theorem State.cycleTime_keeps {s t : State} (h : Keeps s t) (phaseNs : Nat) : Keeps s (State.cycleTime t phaseNs) := by
  unfold State.cycleTime
  repeat' with_reducible (first
    | assumption
    | split
    | apply Keeps.update)

theorem State.canSuspend_keeps {s t : State} (h : Keeps s t) : Keeps s (State.canSuspend t) := by
  unfold State.canSuspend
  repeat' with_reducible (first
    | assumption
    | apply State.canErr_keeps
    | apply State.setFlag_keeps
    | apply Keeps.ite)

theorem State.schedApply_keeps {s t : State} (h : Keeps s t) : Keeps s (State.schedApply t) := by
  unfold State.schedApply
  repeat' with_reducible (first
    | assumption
    | apply State.showSched_keeps
    | apply State.set_keeps
    | split
    | apply Keeps.update)

theorem State.chanCycle_keeps {s t : State} (h : Keeps s t) (c : Nat) : Keeps s (State.chanCycle t c) := by
  unfold State.chanCycle
  repeat' with_reducible (first
    | assumption
    | apply State.showChan_keeps
    | apply State.setChan_keeps
    | apply State.setFlag_keeps
    | split)

theorem execCanCycleStart_keeps {s t : State} (h : Keeps s t) (phaseNs : Nat) : NextKeeps s (execCanCycleStart phaseNs t) := by
  unfold execCanCycleStart
  repeat' with_reducible (first
    | assumption
    | refine NextKeeps.next ?_
    | apply State.chanCycle_keeps
    | apply State.schedApply_keeps
    | apply State.canSuspend_keeps
    | apply State.cycleTime_keeps
    | apply State.canTsrc_keeps
    | apply State.set_keeps
    | apply Keeps.ite
    | apply Keeps.update)

theorem execCanRefLockLost_keeps {s t : State} (h : Keeps s t) : NextKeeps s (execCanRefLockLost t) := by
  unfold execCanRefLockLost
  repeat' with_reducible (first
    | assumption
    | refine NextKeeps.next ?_
    | apply State.canTsrc_keeps
    | apply Keeps.ite
    | apply Keeps.update)

theorem execCanChannelRelease_keeps {s t : State} (h : Keeps s t) (ch : Fin 2) : NextKeeps s (execCanChannelRelease ch t) := by
  unfold execCanChannelRelease
  repeat' with_reducible (first
    | assumption
    | refine NextKeeps.next ?_
    | apply State.showChan_keeps
    | apply State.setChan_keeps
    | apply State.evt_keeps)

theorem execCanClaimBackoff_keeps {s t : State} (h : Keeps s t) (i : Fin 8) : NextKeeps s (execCanClaimBackoff i t) := by
  unfold execCanClaimBackoff
  repeat' with_reducible (first
    | assumption
    | refine NextKeeps.next ?_
    | apply State.canUnqueue_keeps
    | apply State.fresh_keeps
    | apply Keeps.ite
    | apply Keeps.update)

theorem State.canTick_keeps {s t : State} (h : Keeps s t) (n : Nat) : Keeps s (State.canTick t n) := by
  unfold State.canTick
  repeat' with_reducible (first
    | assumption
    | apply State.decodeTick_keeps
    | apply State.encodeTick_keeps
    | apply State.floorTick_keeps
    | apply State.canTsrc_keeps
    | refine Keeps.foldl ?_ (fun u x hu => ?_)
    | apply Keeps.ite)

theorem State.canUp_keeps {s t : State} (h : Keeps s t) : Keeps s (State.canUp t) := by
  unfold State.canUp
  repeat' with_reducible (first
    | assumption
    | apply State.showSched_keeps)

theorem State.canDown_keeps {s t : State} (h : Keeps s t) : Keeps s (State.canDown t) := by
  unfold State.canDown
  repeat' with_reducible (first
    | assumption
    | apply State.resetRegs_keeps
    | apply Keeps.update)

/-! ## Bridge -/

theorem State.localRead_keeps {s t : State} (h : Keeps s t) (tag o len : Nat) : Keeps s (State.localRead t tag o len) := by
  unfold State.localRead
  repeat' with_reducible (first
    | assumption
    | apply State.storeRead_keeps
    | apply State.emit_keeps
    | apply State.count_keeps
    | apply Keeps.ite
    | apply Keeps.update)

theorem State.localWrite_keeps {s t : State} (h : Keeps s t) (o : Nat) (bytes : List (Option Nat)) : Keeps s (State.localWrite t o bytes).2 := by
  unfold State.localWrite
  repeat' with_reducible (first
    | assumption
    | lift_lets
    | apply State.storeWrite_keeps
    | apply State.count_keeps
    | refine Keeps.foldl ?_ (fun u x hu => ?_)
    | split
    | apply Keeps.update)

theorem State.localWrite_keeps_eq {s t u : State} (h : Keeps s t) {o : Nat} {bytes : List (Option Nat)} {z} (e : State.localWrite t o bytes = (z, u)) : Keeps s u := by
  have k := State.localWrite_keeps h o bytes
  rw [e] at k; exact k

theorem State.localAtomic_keeps {s t : State} (h : Keeps s t) (tag : Nat) (op : AtomicOp) : Keeps s (State.localAtomic t tag op) := by
  unfold State.localAtomic
  repeat' with_reducible (first
    | assumption
    | apply State.storeWrite_keeps
    | apply State.storeRead_keeps
    | apply State.emit_keeps
    | apply State.count_keeps
    | apply Keeps.ite
    | apply Keeps.update)

theorem execBar0Atomicop_keeps {s t : State} (h : Keeps s t) (tag : Nat) (_op : AtomicOp) : NextKeeps s (execBar0Atomicop tag _op t) := by
  unfold execBar0Atomicop
  repeat' with_reducible (first
    | assumption
    | refine NextKeeps.next ?_
    | apply State.emit_keeps)

theorem execLocalWindowRead_keeps {s t : State} (h : Keeps s t) (tag off len : Nat) : NextKeeps s (execLocalWindowRead tag off len t) := by
  unfold execLocalWindowRead
  repeat' with_reducible (first
    | assumption
    | refine NextKeeps.next ?_
    | apply State.localRead_keeps)

theorem execLocalWindowWrite_keeps {s t : State} (h : Keeps s t) (off : Nat) (bytes : List (Option Nat)) : NextKeeps s (execLocalWindowWrite off bytes t) := by
  unfold execLocalWindowWrite
  repeat' with_reducible (first
    | assumption
    | refine NextKeeps.next ?_
    | refine State.localWrite_keeps_eq ?_ (by assumption)
    | apply State.localWrite_keeps
    | refine Keeps.foldl ?_ (fun u x hu => ?_))

theorem execLocalWindowAtomic_keeps {s t : State} (h : Keeps s t) (tag : Nat) (op : AtomicOp) : NextKeeps s (execLocalWindowAtomic tag op t) := by
  unfold execLocalWindowAtomic
  repeat' with_reducible (first
    | assumption
    | refine NextKeeps.next ?_
    | apply State.localAtomic_keeps)

theorem State.releaseHeld_keeps {s t : State} (h : Keeps s t) : Keeps s (State.releaseHeld t) := by
  unfold State.releaseHeld
  repeat' with_reducible (first
    | assumption
    | apply State.localAtomic_keeps
    | apply State.localWrite_keeps
    | apply State.localRead_keeps
    | refine Keeps.foldl ?_ (fun u x hu => ?_)
    | split
    | apply Keeps.update)

theorem State.brgShow_keeps {s t : State} (h : Keeps s t) : Keeps s (State.brgShow t) := by
  unfold State.brgShow
  repeat' with_reducible (first
    | assumption
    | apply State.setFlag_keeps
    | apply State.set_keeps
    | refine Keeps.foldl ?_ (fun u x hu => ?_))

theorem State.brgNames_keeps {s t : State} (h : Keeps s t) : Keeps s (State.brgNames t) := by
  unfold State.brgNames
  repeat' with_reducible (first
    | assumption
    | apply State.set_keeps
    | refine Keeps.foldl ?_ (fun u x hu => ?_)
    | apply Keeps.ite
    | apply Keeps.update)

theorem State.pfDiscard_keeps {s t : State} (h : Keeps s t) (w : Nat) : Keeps s (State.pfDiscard t w) := by
  unfold State.pfDiscard
  repeat' with_reducible (first
    | assumption
    | apply State.evt_keeps
    | apply State.count_keeps
    | apply State.setFlag_keeps
    | apply State.set_keeps
    | split
    | apply Keeps.update)

theorem execPrefetchAgeExpire_keeps {s t : State} (h : Keeps s t) (win : Fin 16) : NextKeeps s (execPrefetchAgeExpire win t) := by
  unfold execPrefetchAgeExpire
  repeat' with_reducible (first
    | assumption
    | refine NextKeeps.next ?_
    | (intro u)
    | (intro u; dsimp only)
    | lift_lets
    | apply State.pfDiscard_keeps)

theorem State.pfTick_keeps {s t : State} (h : Keeps s t) : Keeps s (State.pfTick t) := by
  unfold State.pfTick
  repeat' with_reducible (first
    | assumption
    | (intro u)
    | (intro u; dsimp only)
    | lift_lets
    | apply State.pfDiscard_keeps
    | refine Keeps.foldl ?_ (fun u x hu => ?_))

theorem State.readFailed_keeps {s t : State} (h : Keeps s t) (tag cause : Nat) : Keeps s (State.readFailed t tag cause) := by
  unfold State.readFailed
  repeat' with_reducible (first
    | assumption
    | apply State.evt_keeps
    | apply State.count_keeps
    | apply State.setFlag_keeps
    | apply Keeps.ite
    | apply Keeps.update)

theorem State.postFailed_keeps {s t : State} (h : Keeps s t) (w winOff tag cause : Nat) : Keeps s (State.postFailed t w winOff tag cause) := by
  unfold State.postFailed
  repeat' with_reducible (first
    | assumption
    | apply State.evt_keeps
    | apply State.putBit_keeps
    | apply State.count_keeps
    | apply State.tally_keeps
    | apply State.setFlag_keeps
    | apply State.set_keeps
    | split)

theorem State.barCheck_keeps {s t : State} (h : Keeps s t) : Keeps s (State.barCheck t) := by
  unfold State.barCheck
  repeat' with_reducible (first
    | assumption
    | apply State.emit_keeps
    | refine Keeps.foldl ?_ (fun u x hu => ?_)
    | apply Keeps.update)

theorem execTwinBarRead_keeps {s t : State} (h : Keeps s t) (win : Fin 16) : NextKeeps s (execTwinBarRead win t) := by
  unfold execTwinBarRead
  repeat' with_reducible (first
    | assumption
    | refine NextKeeps.next ?_
    | (intro u hu)
    | apply State.emit_keeps
    | apply State.access_keeps
    | apply Keeps.ite
    | apply Keeps.update)

theorem State.atomGone_keeps {s t : State} (h : Keeps s t) (out : Output) : Keeps s (State.atomGone t out) := by
  unfold State.atomGone
  repeat' with_reducible (first
    | assumption
    | apply Keeps.update)

theorem State.atomAbort_keeps {s t : State} (h : Keeps s t) (a : HostAtom) (cause : Nat) : Keeps s (State.atomAbort t a cause) := by
  unfold State.atomAbort
  repeat' with_reducible (first
    | assumption
    | apply State.atomGone_keeps
    | apply State.evt_keeps
    | apply State.count_keeps
    | apply State.setFlag_keeps
    | apply Keeps.ite)

theorem State.atomRefused_keeps {s t : State} (h : Keeps s t) (a : HostAtom) (cause : Nat) : Keeps s (State.atomRefused t a cause) := by
  unfold State.atomRefused
  repeat' with_reducible (first
    | assumption
    | apply State.atomGone_keeps
    | apply State.post_keeps
    | apply State.evt_keeps
    | apply State.count_keeps
    | apply State.setFlag_keeps
    | apply State.set_keeps)

theorem Served.counted_keeps {s : State} {x : Served} (h : Keeps s x.state) : Keeps s x.counted.state := by
  unfold Served.counted
  split
  · exact State.count_keeps h ..
  · exact State.count_keeps h ..

theorem State.tgtRead_keeps {s t : State} (h : Keeps s t) (off len : Nat) : Keeps s (State.tgtRead t off len).state := by
  unfold State.tgtRead
  repeat' with_reducible (first
    | assumption
    | refine State.storeRead_keeps_eq ?_ (by assumption)
    | apply State.evt_keeps
    | split)

theorem State.tgtWrite_keeps {s t : State} (h : Keeps s t) (off : Nat) (data : List Nat) : Keeps s (State.tgtWrite t off data).state := by
  unfold State.tgtWrite
  repeat' with_reducible (first
    | assumption
    | apply State.storeWrite_keeps
    | apply State.evt_keeps
    | split)

theorem State.serveWrite_keeps {s t : State} (h : Keeps s t) (r : TgtReq) : Keeps s (State.serveWrite t r).state := by
  unfold State.serveWrite
  repeat' with_reducible (first
    | assumption
    | apply State.tgtWrite_keeps
    | split)

theorem State.cinchRun_keeps {s t : State} (h : Keeps s t) (r : TgtReq) : Keeps s (State.cinchRun t r).state := by
  unfold State.cinchRun
  repeat' with_reducible (first
    | assumption
    | (intro x; clear_value x)
    | lift_lets
    | apply State.storeWrite_keeps
    | refine State.storeRead_keeps_eq ?_ (by assumption)
    | split)

theorem State.semFree_keeps {s t : State} (h : Keeps s t) (k : Nat) : Keeps s (State.semFree t k) := by
  unfold State.semFree
  repeat' with_reducible (first
    | assumption
    | apply State.setWord_keeps)

theorem State.serveSemAcq_keeps {s t : State} (h : Keeps s t) (r : TgtReq) : Keeps s (State.serveSemAcq t r).state := by
  unfold State.serveSemAcq
  repeat' with_reducible (first
    | assumption
    | apply State.count_keeps
    | apply State.setFlag_keeps
    | apply State.set_keeps
    | split)

theorem State.serveReadSem_keeps {s t : State} (h : Keeps s t) (r : TgtReq) : Keeps s (State.serveReadSem t r).state := by
  unfold State.serveReadSem
  repeat' with_reducible (first
    | assumption
    | apply State.tgtRead_keeps
    | split)

theorem State.serveWriteRel_keeps {s t : State} (h : Keeps s t) (r : TgtReq) : Keeps s (State.serveWriteRel t r).state := by
  unfold State.serveWriteRel
  repeat' with_reducible (first
    | assumption
    | apply State.semFree_keeps
    | apply State.tgtWrite_keeps
    | split)

theorem State.serveSemRel_keeps {s t : State} (h : Keeps s t) (r : TgtReq) : Keeps s (State.serveSemRel t r).state := by
  unfold State.serveSemRel
  repeat' with_reducible (first
    | assumption
    | apply State.semFree_keeps
    | split)

theorem State.answer_keeps {s t : State} (h : Keeps s t) (r : TgtReq) (status : Nat) (data : List Nat) : Keeps s (State.answer t r status data) := by
  unfold State.answer
  repeat' with_reducible (first
    | assumption
    | apply State.stageMessage_keeps
    | apply Keeps.ite
    | apply Keeps.update)

theorem State.brgDeliver_keeps {s t : State} (h : Keeps s t) (r : TgtReq) : Keeps s (State.brgDeliver t r) := by
  unfold State.brgDeliver
  repeat' with_reducible (first
    | assumption
    | apply State.answer_keeps
    | apply Keeps.ite
    | apply Keeps.update)

theorem State.serveFront_keeps {s t : State} (h : Keeps s t) (op : Nat) (f : State → TgtReq → Served) (hf : ∀ u r, Keeps s u → Keeps s (f u r).state) : Keeps s (t.serveFront op f) := by
  unfold State.serveFront
  split
  · split
    · dsimp only
      refine State.answer_keeps (Served.counted_keeps (hf _ _ ?_)) ..
      apply Keeps.update
      exact h
    · exact h
  · exact h

theorem execBridgeWriteServe_keeps {s t : State} (h : Keeps s t) : NextKeeps s (execBridgeWriteServe t) := by
  unfold execBridgeWriteServe
  repeat' with_reducible (first
    | assumption
    | refine NextKeeps.next ?_
    | (intro u)
    | apply State.serveFront_keeps
    | apply State.serveWrite_keeps)

theorem execSemAcqServe_keeps {s t : State} (h : Keeps s t) : NextKeeps s (execSemAcqServe t) := by
  unfold execSemAcqServe
  repeat' with_reducible (first
    | assumption
    | refine NextKeeps.next ?_
    | (intro u)
    | apply State.serveFront_keeps
    | apply State.serveSemAcq_keeps)

theorem execReadSemServe_keeps {s t : State} (h : Keeps s t) : NextKeeps s (execReadSemServe t) := by
  unfold execReadSemServe
  repeat' with_reducible (first
    | assumption
    | refine NextKeeps.next ?_
    | (intro u)
    | apply State.serveFront_keeps
    | apply State.serveReadSem_keeps)

theorem execWriteRelServe_keeps {s t : State} (h : Keeps s t) : NextKeeps s (execWriteRelServe t) := by
  unfold execWriteRelServe
  repeat' with_reducible (first
    | assumption
    | refine NextKeeps.next ?_
    | (intro u)
    | apply State.serveFront_keeps
    | apply State.serveWriteRel_keeps)

theorem execSemRelServe_keeps {s t : State} (h : Keeps s t) : NextKeeps s (execSemRelServe t) := by
  unfold execSemRelServe
  repeat' with_reducible (first
    | assumption
    | refine NextKeeps.next ?_
    | (intro u)
    | apply State.serveFront_keeps
    | apply State.serveSemRel_keeps)

theorem State.cinchEnd_keeps {s t : State} (h : Keeps s t) (c : Cinch) (status : Nat) (data : List Nat) : Keeps s (State.cinchEnd t c status data) := by
  unfold State.cinchEnd
  repeat' with_reducible (first
    | assumption
    | apply State.answer_keeps
    | apply State.releaseHeld_keeps
    | apply State.set_keeps
    | apply Keeps.update)

theorem State.cinchFinish_keeps {s t : State} (h : Keeps s t) (block : Nat) : Keeps s (State.cinchFinish t block) := by
  unfold State.cinchFinish
  repeat' with_reducible (first
    | assumption
    | apply State.cinchEnd_keeps
    | apply State.cinchRun_keeps
    | apply Served.counted_keeps
    | split)

theorem execCinchServe_keeps {s t : State} (h : Keeps s t) (stalled : Bool) : NextKeeps s (execCinchServe stalled t) := by
  unfold execCinchServe
  repeat' with_reducible (first
    | assumption
    | refine NextKeeps.next ?_
    | apply State.cinchFinish_keeps
    | apply State.answer_keeps
    | apply State.count_keeps
    | apply State.set_keeps
    | split
    | apply Keeps.update)

theorem execCinchExpire_keeps {s t : State} (h : Keeps s t) (block : Nat) : NextKeeps s (execCinchExpire block t) := by
  unfold execCinchExpire
  repeat' with_reducible (first
    | assumption
    | refine NextKeeps.next ?_
    | apply State.cinchEnd_keeps
    | apply State.count_keeps
    | split)

theorem State.semLapse_keeps {s t : State} (h : Keeps s t) (k : Nat) : Keeps s (State.semLapse t k) := by
  unfold State.semLapse
  repeat' with_reducible (first
    | assumption
    | apply State.semFree_keeps
    | apply State.count_keeps
    | apply Keeps.ite)

theorem execSemLeaseLapse_keeps {s t : State} (h : Keeps s t) (sem : Fin 32) : NextKeeps s (execSemLeaseLapse sem t) := by
  unfold execSemLeaseLapse
  repeat' with_reducible (first
    | assumption
    | refine NextKeeps.next ?_
    | apply State.semLapse_keeps)

theorem State.semTick_keeps {s t : State} (h : Keeps s t) : Keeps s (State.semTick t) := by
  unfold State.semTick
  repeat' with_reducible (first
    | assumption
    | apply State.semLapse_keeps
    | apply State.set_keeps
    | refine Keeps.foldl ?_ (fun u x hu => ?_)
    | apply Keeps.ite)

theorem State.semRead_keeps {s t : State} (h : Keeps s t) (k : Nat) : Keeps s (State.semRead t k).2 := by
  unfold State.semRead
  repeat' with_reducible (first
    | assumption
    | apply State.setFlag_keeps
    | apply State.set_keeps
    | apply Keeps.ite)

theorem execSemRead_keeps {s t : State} (h : Keeps s t) (sem : Fin 32) : NextKeeps s (execSemRead sem t) := by
  unfold execSemRead
  repeat' with_reducible (first
    | assumption
    | refine NextKeeps.next ?_
    | (intro u hu)
    | apply State.semRead_keeps
    | apply State.emit_keeps
    | apply State.access_keeps)

theorem State.semRelease_keeps {s t : State} (h : Keeps s t) (k : Nat) : Keeps s (State.semRelease t k) := by
  unfold State.semRelease
  repeat' with_reducible (first
    | assumption
    | apply State.semFree_keeps
    | apply Keeps.ite)

theorem execSemReleaseWrite_keeps {s t : State} (h : Keeps s t) (sem : Fin 32) : NextKeeps s (execSemReleaseWrite sem t) := by
  unfold execSemReleaseWrite
  repeat' with_reducible (first
    | assumption
    | refine NextKeeps.next ?_
    | (intro u hu)
    | apply State.semRelease_keeps
    | apply State.access_keeps)

theorem State.brgStage_keeps {s t : State} (h : Keeps s t) (r : BrgReq) (p : Nat × Nat) : Keeps s (State.brgStage t r p) := by
  unfold State.brgStage
  repeat' with_reducible (first
    | assumption
    | apply State.brgDeliver_keeps
    | apply State.stageMessage_keeps
    | apply Keeps.ite
    | apply Keeps.update)

theorem State.nextSeq_keeps {s t : State} (h : Keeps s t) (w : Nat) : Keeps s (State.nextSeq t w).2 := by
  unfold State.nextSeq
  repeat' with_reducible (first
    | assumption
    | apply Keeps.update)

theorem State.nextSeq_keeps_eq {s t u : State} (h : Keeps s t) {w : Nat} {z} (e : State.nextSeq t w = (z, u)) : Keeps s u := by
  have k := State.nextSeq_keeps h w
  rw [e] at k; exact k

theorem State.winRead_keeps {s t : State} (h : Keeps s t) (tag w off len : Nat) : Keeps s (State.winRead t tag w off len) := by
  unfold State.winRead
  repeat' with_reducible (first
    | assumption
    | apply State.nextSeq_keeps
    | apply State.brgStage_keeps
    | apply State.readFailed_keeps
    | apply State.pfDiscard_keeps
    | apply State.emit_keeps
    | refine Keeps.foldl ?_ (fun u x hu => ?_)
    | split
    | apply Keeps.update)

theorem State.winWrite_keeps {s t : State} (h : Keeps s t) (w off : Nat) (bytes : List Nat) : Keeps s (State.winWrite t w off bytes) := by
  unfold State.winWrite
  repeat' with_reducible (first
    | assumption
    | (intro x; first | (refine_lift have hx : Keeps s x := ?_; ?_; dsimp only [x]) | (clear_value x))
    | lift_lets
    | apply State.brgStage_keeps
    | apply State.postFailed_keeps
    | apply State.pfDiscard_keeps
    | apply State.set_keeps
    | split)

theorem State.brgAdmit_keeps {s : State} (n : Nat) : ∀ {t : State}, Keeps s t → Keeps s (State.brgAdmit t n) := by
  induction n with
  | zero => intro t h; exact h
  | succ n ih =>
    intro t h
    unfold State.brgAdmit
    repeat' with_reducible (first
    | assumption
    | (intro x; refine_lift have hx : Keeps s x := ?_; ?_; dsimp only [x])
    | (intro u hu)
    | apply ih
    | apply State.winWrite_keeps
    | apply State.winRead_keeps
    | split
    | apply Keeps.update)

theorem execTrainWindowRead_keeps {s t : State} (h : Keeps s t) (tag : Nat) (win : Fin 16) (off len : Nat) : NextKeeps s (execTrainWindowRead tag win off len t) := by
  unfold execTrainWindowRead
  repeat' with_reducible (first
    | assumption
    | refine NextKeeps.next ?_
    | apply State.brgAdmit_keeps
    | apply State.brgShow_keeps
    | apply State.emit_keeps
    | apply Keeps.ite
    | apply Keeps.update)

theorem execTrainWindowWrite_keeps {s t : State} (h : Keeps s t) (win : Fin 16) (off : Nat) (bytes : List Nat) : NextKeeps s (execTrainWindowWrite win off bytes t) := by
  unfold execTrainWindowWrite
  repeat' with_reducible (first
    | assumption
    | refine NextKeeps.next ?_
    | apply State.brgAdmit_keeps
    | apply State.brgShow_keeps
    | apply Keeps.ite
    | apply Keeps.update)

theorem State.atomSend_keeps {s t : State} (h : Keeps s t) (a : HostAtom) (op : Nat) : Keeps s (State.atomSend t a op) := by
  unfold State.atomSend
  repeat' with_reducible (first
    | assumption
    | apply State.nextSeq_keeps
    | apply State.brgStage_keeps
    | apply State.atomAbort_keeps
    | split
    | apply Keeps.update)

theorem State.atomStart_keeps {s t : State} (h : Keeps s t) (tag w : Nat) (op : AtomicOp) : Keeps s (State.atomStart t tag w op) := by
  unfold State.atomStart
  repeat' with_reducible (first
    | assumption
    | lift_lets
    | apply State.atomSend_keeps
    | apply State.atomRefused_keeps
    | apply State.pfDiscard_keeps
    | apply Keeps.ite)

theorem State.atomNext_keeps {s : State} (n : Nat) : ∀ {t : State}, Keeps s t → Keeps s (State.atomNext t n) := by
  induction n with
  | zero => intro t h; exact h
  | succ n ih =>
    intro t h
    unfold State.atomNext
    repeat' with_reducible (first
    | assumption
    | apply ih
    | apply State.atomStart_keeps
    | split
    | apply Keeps.update)

theorem execTrainWindowAtomic_keeps {s t : State} (h : Keeps s t) (tag : Nat) (win : Fin 16) (op : AtomicOp) : NextKeeps s (execTrainWindowAtomic tag win op t) := by
  unfold execTrainWindowAtomic
  repeat' with_reducible (first
    | assumption
    | refine NextKeeps.next ?_
    | apply State.atomNext_keeps
    | apply State.brgShow_keeps
    | apply State.emit_keeps
    | apply Keeps.ite
    | apply Keeps.update)

theorem State.atomLocked_keeps {s t : State} (h : Keeps s t) (a : HostAtom) (op : Nat) : Keeps s (State.atomLocked t a op) := by
  unfold State.atomLocked
  repeat' with_reducible (first
    | assumption
    | apply State.fresh_keeps
    | apply State.count_keeps
    | apply Keeps.update)

theorem execLockBackoffExpiry_keeps {s t : State} (h : Keeps s t) : NextKeeps s (execLockBackoffExpiry t) := by
  unfold execLockBackoffExpiry
  repeat' with_reducible (first
    | assumption
    | refine NextKeeps.next ?_
    | apply State.atomNext_keeps
    | apply State.atomSend_keeps
    | apply State.atomRefused_keeps
    | apply State.brgShow_keeps
    | split)

theorem State.atomDone_keeps {s t : State} (h : Keeps s t) (a : HostAtom) (old : Nat) (cnt : Fld) : Keeps s (State.atomDone t a old cnt) := by
  unfold State.atomDone
  repeat' with_reducible (first
    | assumption
    | apply State.atomGone_keeps
    | apply State.count_keeps)

theorem State.atomAnswer_keeps {s t : State} (h : Keeps s t) (a : HostAtom) (op status : Nat) (data : List Nat) : Keeps s (State.atomAnswer t a op status data) := by
  unfold State.atomAnswer
  repeat' with_reducible (first
    | assumption
    | apply State.atomDone_keeps
    | apply State.atomLocked_keeps
    | apply State.atomSend_keeps
    | apply State.atomRefused_keeps
    | apply State.atomAbort_keeps
    | apply Keeps.ite)

theorem State.readAnswer_keeps {s t : State} (h : Keeps s t) (q : BrgReq) (data : List Nat) : Keeps s (State.readAnswer t q data) := by
  unfold State.readAnswer
  repeat' with_reducible (first
    | assumption
    | split
    | apply Keeps.update)

theorem State.takeAnswer_keeps {s t : State} (h : Keeps s t) : Keeps s (State.takeAnswer t) := by
  unfold State.takeAnswer
  repeat' with_reducible (first
    | assumption
    | (intro x; first | (refine_lift have hx : Keeps s x := ?_; ?_; dsimp only [x]) | (clear_value x))
    | lift_lets
    | apply State.readAnswer_keeps
    | apply State.atomAnswer_keeps
    | apply State.brgStage_keeps
    | apply State.postFailed_keeps
    | apply State.readFailed_keeps
    | apply State.set_keeps
    | apply Keeps.ite
    | split
    | apply Keeps.update)

theorem execBridgeRspReceive_keeps {s t : State} (h : Keeps s t) : NextKeeps s (execBridgeRspReceive t) := by
  unfold execBridgeRspReceive
  repeat' with_reducible (first
    | assumption
    | refine NextKeeps.next ?_
    | exact trivial
    | (intro u; dsimp only)
    | apply State.takeAnswer_keeps
    | apply State.atomNext_keeps
    | apply State.brgAdmit_keeps
    | apply State.barCheck_keeps
    | apply State.brgShow_keeps
    | apply Keeps.ite)

theorem State.requestFailed_keeps {s t : State} (h : Keeps s t) (q : BrgReq) (cause : Nat) : Keeps s (State.requestFailed t q cause) := by
  unfold State.requestFailed
  repeat' with_reducible (first
    | assumption
    | apply State.atomAbort_keeps
    | apply State.postFailed_keeps
    | apply State.readFailed_keeps
    | split
    | apply Keeps.update)

theorem execBridgeTimeout_keeps {s t : State} (h : Keeps s t) (win : Fin 16) (seq op : Nat) : NextKeeps s (execBridgeTimeout win seq op t) := by
  unfold execBridgeTimeout
  repeat' with_reducible (first
    | assumption
    | refine NextKeeps.next ?_
    | apply State.requestFailed_keeps
    | apply State.atomNext_keeps
    | apply State.brgAdmit_keeps
    | apply State.barCheck_keeps
    | apply State.brgShow_keeps
    | split)

theorem State.brgTopology_keeps {s t : State} (h : Keeps s t) : Keeps s (State.brgTopology t) := by
  unfold State.brgTopology
  repeat' with_reducible (first
    | assumption
    | apply State.requestFailed_keeps
    | apply State.atomNext_keeps
    | apply State.brgAdmit_keeps
    | apply State.atomAbort_keeps
    | apply State.barCheck_keeps
    | apply State.pfDiscard_keeps
    | apply State.brgNames_keeps
    | apply State.brgShow_keeps
    | apply State.setFlag_keeps
    | refine Keeps.foldl ?_ (fun u x hu => ?_)
    | apply Keeps.ite
    | split)

theorem State.brgExpired_keeps {s t : State} (h : Keeps s t) (lineB : Bool) (ids : List Nat) : Keeps s (State.brgExpired t lineB ids) := by
  unfold State.brgExpired
  repeat' with_reducible (first
    | assumption
    | apply State.brgStage_keeps
    | refine Keeps.foldl ?_ (fun u x hu => ?_)
    | apply Keeps.update)

theorem State.cellsExpire_keeps {s t : State} (h : Keeps s t) (l : Line) : Keeps s (State.cellsExpire t l) := by
  unfold State.cellsExpire
  repeat' with_reducible (first
    | assumption
    | apply State.brgExpired_keeps
    | apply State.count_keeps
    | apply Keeps.update)

theorem State.brgTick_keeps {s t : State} (h : Keeps s t) : Keeps s (State.brgTick t) := by
  unfold State.brgTick
  repeat' with_reducible (first
    | assumption
    | apply State.brgAdmit_keeps
    | apply State.semTick_keeps
    | apply State.pfTick_keeps
    | apply State.brgShow_keeps
    | apply State.emit_keeps
    | refine Keeps.foldl ?_ (fun u x hu => ?_)
    | apply Keeps.update)

theorem State.winEnable_keeps {s t : State} (h : Keeps s t) (w : Nat) (on : Bool) : Keeps s (State.winEnable t w on) := by
  unfold State.winEnable
  repeat' with_reducible (first
    | assumption
    | lift_lets
    | apply State.pfDiscard_keeps
    | apply State.brgNames_keeps
    | apply State.setFlag_keeps
    | refine Keeps.foldl ?_ (fun u x hu => ?_)
    | apply Keeps.ite)

theorem execTwinWindowEnable_keeps {s t : State} (h : Keeps s t) (win : Fin 16) (on : Bool) : NextKeeps s (execTwinWindowEnable win on t) := by
  unfold execTwinWindowEnable
  repeat' with_reducible (first
    | assumption
    | refine NextKeeps.next ?_
    | (intro u hu)
    | apply State.winEnable_keeps
    | apply State.access_keeps)

theorem State.pcieDown_keeps {s t : State} (h : Keeps s t) : Keeps s (State.pcieDown t) := by
  unfold State.pcieDown
  repeat' with_reducible (first
    | assumption
    | apply State.brgShow_keeps
    | apply State.evt_keeps
    | apply State.irqLevel_keeps
    | apply State.setFlag_keeps
    | apply State.set_keeps
    | apply Keeps.update)

theorem execPcieLinkDown_keeps {s t : State} (h : Keeps s t) : NextKeeps s (execPcieLinkDown t) := by
  unfold execPcieLinkDown
  repeat' with_reducible (first
    | assumption
    | refine NextKeeps.next ?_
    | apply State.pcieDown_keeps
    | apply Keeps.ite)

theorem State.msixFlush_keeps {s t : State} (h : Keeps s t) : Keeps s (State.msixFlush t) := by
  unfold State.msixFlush
  repeat' with_reducible (first
    | assumption
    | apply State.emit_keeps
    | refine Keeps.foldl ?_ (fun u x hu => ?_)
    | apply Keeps.ite
    | apply Keeps.update)

theorem execPcieLinkUp_keeps {s t : State} (h : Keeps s t) (speed width : Fin 4) : NextKeeps s (execPcieLinkUp speed width t) := by
  unfold execPcieLinkUp
  repeat' with_reducible (first
    | assumption
    | refine NextKeeps.next ?_
    | apply State.msixFlush_keeps
    | apply State.irqLevel_keeps
    | apply State.setFlag_keeps
    | apply State.set_keeps
    | apply Keeps.ite)

theorem State.msixControl_keeps {s t : State} (h : Keeps s t) (enable functionMask : Bool) : Keeps s (State.msixControl t enable functionMask) := by
  unfold State.msixControl
  repeat' with_reducible (first
    | assumption
    | apply State.msixFlush_keeps
    | apply State.irqLevel_keeps
    | apply State.setFlag_keeps
    | apply Keeps.update)

theorem execMsixEnableWrite_keeps {s t : State} (h : Keeps s t) (enable functionMask : Bool) : NextKeeps s (execMsixEnableWrite enable functionMask t) := by
  unfold execMsixEnableWrite
  repeat' with_reducible (first
    | assumption
    | refine NextKeeps.next ?_
    | apply State.msixControl_keeps
    | apply Keeps.ite)

/-! ## Eth -/

theorem State.setEthPort_keeps {s t : State} (h : Keeps s t) (p : Nat) (x : EthPort) : Keeps s (State.setEthPort t p x) := by
  unfold State.setEthPort
  repeat' with_reducible (first
    | assumption
    | apply Keeps.update)

theorem State.ethCount_keeps {s t : State} (h : Keeps s t) (p i d : Nat) : Keeps s (State.ethCount t p i d) := by
  unfold State.ethCount
  repeat' with_reducible (first
    | assumption
    | apply State.setEthPort_keeps
    | apply State.count_keeps)

theorem State.htxRetire_keeps {s : State} (p : Nat) (n : Nat) : ∀ {t : State}, Keeps s t → Keeps s (State.htxRetire t p n) := by
  induction n with
  | zero => intro t h; exact h
  | succ n ih =>
    intro t h
    unfold State.htxRetire
    repeat' with_reducible (first
    | assumption
    | (intro x; first | (refine_lift have hx : Keeps s x := ?_; ?_; dsimp only [x]) | (clear_value x))
    | lift_lets
    | apply ih
    | apply State.setEthPort_keeps
    | apply State.storeWrite_keeps
    | apply State.set_keeps
    | split)

theorem State.htxFinish_keeps {s t : State} (h : Keeps s t) (p slot : Nat) (dropped : Bool) (ts : Int) : Keeps s (State.htxFinish t p slot dropped ts) := by
  unfold State.htxFinish
  repeat' with_reducible (first
    | assumption
    | apply State.htxRetire_keeps
    | apply State.setEthPort_keeps)

theorem State.txDiscard_keeps {s t : State} (h : Keeps s t) (p : Nat) (f : TxFrame) : Keeps s (State.txDiscard t p f) := by
  unfold State.txDiscard
  repeat' with_reducible (first
    | assumption
    | apply State.htxFinish_keeps
    | split)

theorem State.txDrop_keeps {s t : State} (h : Keeps s t) (p : Nat) (f : TxFrame) : Keeps s (State.txDrop t p f) := by
  unfold State.txDrop
  repeat' with_reducible (first
    | assumption
    | apply State.txDiscard_keeps
    | apply State.ethCount_keeps
    | apply State.evt_keeps)

theorem State.txEnqueue_keeps {s t : State} (h : Keeps s t) (p q : Nat) (f : TxFrame) : Keeps s (State.txEnqueue t p q f) := by
  unfold State.txEnqueue
  repeat' with_reducible (first
    | assumption
    | apply State.txDrop_keeps
    | apply State.setEthPort_keeps
    | apply Keeps.ite)

theorem State.htxFetch_keeps {s : State} (p : Nat) (n : Nat) : ∀ {t : State}, Keeps s t → Keeps s (State.htxFetch t p n) := by
  induction n with
  | zero => intro t h; exact h
  | succ n ih =>
    intro t h
    unfold State.htxFetch
    repeat' with_reducible (first
    | assumption
    | apply ih
    | apply State.txEnqueue_keeps
    | apply State.htxFinish_keeps
    | apply State.setEthPort_keeps
    | apply State.storeRead_keeps
    | apply Keeps.ite)

theorem State.htxWrWrite_keeps {s t : State} (h : Keeps s t) (p wr : Nat) : Keeps s (State.htxWrWrite t p wr) := by
  unfold State.htxWrWrite
  repeat' with_reducible (first
    | assumption
    | apply State.htxFetch_keeps
    | apply State.set_keeps
    | apply Keeps.ite)

theorem execHtxWrWrite_keeps {s t : State} (h : Keeps s t) (port : Fin 2) (wr : Nat) : NextKeeps s (execHtxWrWrite port wr t) := by
  unfold execHtxWrWrite
  repeat' with_reducible (first
    | assumption
    | refine NextKeeps.next ?_
    | (intro u hu)
    | apply State.htxWrWrite_keeps
    | apply State.access_keeps)

theorem State.hrxRdWrite_keeps {s t : State} (h : Keeps s t) (p rd : Nat) : Keeps s (State.hrxRdWrite t p rd) := by
  unfold State.hrxRdWrite
  repeat' with_reducible (first
    | assumption
    | apply State.set_keeps
    | apply Keeps.ite)

theorem State.hrEnable_keeps {s t : State} (h : Keeps s t) (p : Nat) (tx rx : Bool) : Keeps s (State.hrEnable t p tx rx) := by
  unfold State.hrEnable
  repeat' with_reducible (first
    | assumption
    | apply State.htxFetch_keeps
    | apply State.setFlag_keeps
    | apply Keeps.ite)

theorem State.hostRx_keeps {s t : State} (h : Keeps s t) (p : Nat) (f : EthRx) : Keeps s (State.hostRx t p f) := by
  unfold State.hostRx
  repeat' with_reducible (first
    | assumption
    | apply State.ethCount_keeps
    | apply State.storeWrite_keeps
    | apply State.evt_keeps
    | apply State.set_keeps
    | apply Keeps.ite)

theorem State.ipPacket_keeps {s t : State} (h : Keeps s t) (p traffic proto dst : Nat) (options body : List Nat) : Keeps s (State.ipPacket t p traffic proto dst options body).2 := by
  unfold State.ipPacket
  repeat' with_reducible (first
    | assumption
    | apply State.fresh_keeps)

theorem State.sendUdp_keeps {s t : State} (h : Keeps s t) (p traffic dst sport dport : Nat) (data : List Nat) (kind : TxKind) : Keeps s (State.sendUdp t p traffic dst sport dport data kind) := by
  unfold State.sendUdp
  repeat' with_reducible (first
    | assumption
    | apply State.ipPacket_keeps
    | apply State.txEnqueue_keeps)

theorem State.showGate_keeps {s t : State} (h : Keeps s t) (p entry : Nat) : Keeps s (State.showGate t p entry) := by
  unfold State.showGate
  repeat' with_reducible (first
    | assumption
    | apply State.set_keeps)

theorem State.gateSet_keeps {s t : State} (h : Keeps s t) (p : Nat) (g : GateList) (n : Nat) : Keeps s (State.gateSet t p g n).2 := by
  unfold State.gateSet
  repeat' with_reducible (first
    | assumption
    | apply State.setEthPort_keeps)

theorem State.ethGateTick_keeps {s t : State} (h : Keeps s t) (p n : Nat) : Keeps s (State.ethGateTick t p n) := by
  unfold State.ethGateTick
  repeat' with_reducible (first
    | assumption
    | apply State.showGate_keeps
    | apply State.setEthPort_keeps
    | apply State.set_keeps
    | split
    | apply Keeps.update)

theorem execGateEntryChange_keeps {s t : State} (h : Keeps s t) (port : Fin 2) : NextKeeps s (execGateEntryChange port t) := by
  unfold execGateEntryChange
  repeat' with_reducible (first
    | assumption
    | refine NextKeeps.next ?_
    | apply State.showGate_keeps
    | apply Keeps.ite)

theorem State.dropUnsendable_keeps {s : State} (p q : Nat) (n : Nat) : ∀ {t : State}, Keeps s t → Keeps s (State.dropUnsendable t p q n) := by
  induction n with
  | zero => intro t h; exact h
  | succ n ih =>
    intro t h
    unfold State.dropUnsendable
    repeat' with_reducible (first
    | assumption
    | (intro x; first | (refine_lift have hx : Keeps s x := ?_; ?_; dsimp only [x]) | (clear_value x))
    | lift_lets
    | apply ih
    | apply State.txDiscard_keeps
    | apply State.ethCount_keeps
    | apply State.setEthPort_keeps
    | apply State.evt_keeps
    | split)

theorem State.txStamp_keeps {s t : State} (h : Keeps s t) (p : Nat) (k : TxKind) (t' : Int) : Keeps s (State.txStamp t p k t') := by
  unfold State.txStamp
  repeat' with_reducible (first
    | assumption
    | (intro x; first | (refine_lift have hx : Keeps s x := ?_; ?_; dsimp only [x]) | (clear_value x))
    | lift_lets
    | apply State.htxFinish_keeps
    | apply State.setEthPort_keeps
    | apply State.evt_keeps
    | apply State.count_keeps
    | apply State.set_keeps
    | split)

theorem State.txCounted_keeps {s t : State} (h : Keeps s t) (p : Nat) (b : List Nat) : Keeps s (State.txCounted t p b) := by
  unfold State.txCounted
  repeat' with_reducible (first
    | assumption
    | apply State.ethCount_keeps)

theorem State.txSend_keeps {s t : State} (h : Keeps s t) (p q : Nat) (f : TxFrame) (phaseNs : Nat) : Keeps s (State.txSend t p q f phaseNs) := by
  unfold State.txSend
  repeat' with_reducible (first
    | assumption
    | apply State.txCounted_keeps
    | apply State.txStamp_keeps
    | apply State.htxFinish_keeps
    | apply State.setEthPort_keeps
    | apply State.emit_keeps
    | split)

theorem execEthFrameTransmit_keeps {s t : State} (h : Keeps s t) (port : Fin 2) (phaseNs : Nat) : NextKeeps s (execEthFrameTransmit port phaseNs t) := by
  unfold execEthFrameTransmit
  repeat' with_reducible (first
    | assumption
    | refine NextKeeps.next ?_
    | (intro x; refine_lift have hx : Keeps s x := ?_; ?_; dsimp only [x])
    | lift_lets
    | apply State.txSend_keeps
    | apply State.dropUnsendable_keeps
    | refine Keeps.foldl ?_ (fun u x hu => ?_)
    | split)

theorem State.pauseEnd_keeps {s t : State} (h : Keeps s t) (p : Nat) : Keeps s (State.pauseEnd t p) := by
  unfold State.pauseEnd
  repeat' with_reducible (first
    | assumption
    | apply State.ethCount_keeps
    | apply State.setEthPort_keeps
    | apply State.setFlag_keeps
    | apply State.set_keeps)

theorem State.pauseStart_keeps {s t : State} (h : Keeps s t) (p quanta : Nat) : Keeps s (State.pauseStart t p quanta) := by
  unfold State.pauseStart
  repeat' with_reducible (first
    | assumption
    | apply State.pauseEnd_keeps
    | apply State.setEthPort_keeps
    | apply State.setFlag_keeps
    | apply State.set_keeps
    | apply Keeps.ite)

theorem State.macControl_keeps {s t : State} (h : Keeps s t) (p : Nat) (f : EthRx) : Keeps s (State.macControl t p f) := by
  unfold State.macControl
  repeat' with_reducible (first
    | assumption
    | apply State.pauseStart_keeps
    | apply State.ethCount_keeps
    | apply State.evt_keeps
    | apply Keeps.ite)

theorem execPauseExpire_keeps {s t : State} (h : Keeps s t) (port : Fin 2) : NextKeeps s (execPauseExpire port t) := by
  unfold execPauseExpire
  repeat' with_reducible (first
    | assumption
    | refine NextKeeps.next ?_
    | apply State.pauseEnd_keeps
    | apply State.set_keeps
    | apply Keeps.ite)

theorem State.pauseTick_keeps {s t : State} (h : Keeps s t) (p : Nat) : Keeps s (State.pauseTick t p) := by
  unfold State.pauseTick
  repeat' with_reducible (first
    | assumption
    | apply State.setEthPort_keeps
    | apply State.set_keeps
    | apply Keeps.ite)

theorem execEthLinkUp_keeps {s t : State} (h : Keeps s t) (port : Fin 2) (accepted : Bool) : NextKeeps s (execEthLinkUp port accepted t) := by
  unfold execEthLinkUp
  repeat' with_reducible (first
    | assumption
    | refine NextKeeps.next ?_
    | apply State.ethCount_keeps
    | apply State.evt_keeps
    | apply State.setFlag_keeps
    | apply Keeps.ite)

theorem State.txFlush_keeps {s t : State} (h : Keeps s t) (p : Nat) : Keeps s (State.txFlush t p) := by
  unfold State.txFlush
  repeat' with_reducible (first
    | assumption
    | apply State.txDrop_keeps
    | apply State.setEthPort_keeps
    | refine Keeps.foldl ?_ (fun u x hu => ?_))

theorem State.ethLinkDown_keeps {s t : State} (h : Keeps s t) (p : Nat) : Keeps s (State.ethLinkDown t p) := by
  unfold State.ethLinkDown
  repeat' with_reducible (first
    | assumption
    | apply State.txFlush_keeps
    | apply State.ethCount_keeps
    | apply State.evt_keeps
    | apply State.setFlag_keeps
    | apply Keeps.ite)

theorem execEthLinkDown_keeps {s t : State} (h : Keeps s t) (port : Fin 2) : NextKeeps s (execEthLinkDown port t) := by
  unfold execEthLinkDown
  repeat' with_reducible (first
    | assumption
    | refine NextKeeps.next ?_
    | apply State.ethLinkDown_keeps)

theorem State.ethEnable_keeps {s t : State} (h : Keeps s t) (p : Nat) (on : Bool) : Keeps s (State.ethEnable t p on) := by
  unfold State.ethEnable
  repeat' with_reducible (first
    | assumption
    | apply State.ethLinkDown_keeps
    | apply State.pauseEnd_keeps
    | apply State.setFlag_keeps
    | apply State.set_keeps
    | apply Keeps.ite)

theorem State.setStream_keeps {s t : State} (h : Keeps s t) (x : RtpStream) : Keeps s (State.setStream t x) := by
  unfold State.setStream
  repeat' with_reducible (first
    | assumption
    | apply Keeps.update)

theorem State.streamEvt_keeps {s t : State} (h : Keeps s t) (tx : Bool) (ix : Nat) : Keeps s (State.streamEvt t tx ix) := by
  unfold State.streamEvt
  repeat' with_reducible (first
    | assumption
    | apply State.evtBit_keeps)

theorem State.streamEnable_keeps {s t : State} (h : Keeps s t) (tx : Bool) (ix : Nat) (on : Bool) : Keeps s (State.streamEnable t tx ix on) := by
  unfold State.streamEnable
  repeat' with_reducible (first
    | assumption
    | (intro x; refine_lift have hx : Keeps s x := ?_; ?_; dsimp only [x])
    | lift_lets
    | apply State.streamEvt_keeps
    | apply State.setStream_keeps
    | apply State.setFlag_keeps
    | apply State.set_keeps
    | split)

theorem State.streamArrived_keeps {s t : State} (h : Keeps s t) (ix : Nat) : Keeps s (State.streamArrived t ix) := by
  unfold State.streamArrived
  repeat' with_reducible (first
    | assumption
    | apply State.streamEvt_keeps
    | apply State.setFlag_keeps
    | apply Keeps.ite)

theorem State.aesPacket_keeps {s t : State} (h : Keeps s t) (x : RtpStream) (ts : Nat) (body : List Nat) : Keeps s (State.aesPacket t x ts body) := by
  unfold State.aesPacket
  repeat' with_reducible (first
    | assumption
    | apply State.streamArrived_keeps
    | apply State.setStream_keeps
    | apply State.count_keeps
    | apply State.set_keeps
    | apply Keeps.ite)

theorem State.codecPacket_keeps {s t : State} (h : Keeps s t) (x : RtpStream) (ts : Nat) (body : List Nat) : Keeps s (State.codecPacket t x ts body) := by
  unfold State.codecPacket
  repeat' with_reducible (first
    | assumption
    | apply State.streamArrived_keeps
    | apply State.setStream_keeps
    | apply State.count_keeps
    | apply State.set_keeps
    | apply Keeps.ite)

theorem State.streamPacket_keeps {s t : State} (h : Keeps s t) (x : RtpStream) (f : List Nat) : Keeps s (State.streamPacket t x f) := by
  unfold State.streamPacket
  repeat' with_reducible (first
    | assumption
    | apply State.codecPacket_keeps
    | apply State.aesPacket_keeps
    | apply State.setStream_keeps
    | apply State.count_keeps
    | apply Keeps.ite)

theorem State.streamDeliver_keeps {s t : State} (h : Keeps s t) (x : RtpStream) (n : Nat) (v : Option (List Int)) : Keeps s (State.streamDeliver t x n v) := by
  unfold State.streamDeliver
  repeat' with_reducible (first
    | assumption
    | apply State.deliver_keeps
    | refine Keeps.foldl ?_ (fun u x hu => ?_))

theorem State.streamRepeat_keeps {s t : State} (h : Keeps s t) (x : RtpStream) (n : Nat) : Keeps s (State.streamRepeat t x n) := by
  unfold State.streamRepeat
  repeat' with_reducible (first
    | assumption
    | apply State.deliverRepeat_keeps
    | refine Keeps.foldl ?_ (fun u x hu => ?_))

theorem State.aesTick_keeps {s t : State} (h : Keeps s t) (x : RtpStream) (n : Nat) : Keeps s (State.aesTick t x n) := by
  unfold State.aesTick
  repeat' with_reducible (first
    | assumption
    | apply State.streamRepeat_keeps
    | apply State.streamDeliver_keeps
    | apply State.setStream_keeps
    | apply State.count_keeps
    | apply State.set_keeps
    | apply Keeps.ite
    | split)

theorem State.codecTick_keeps {s t : State} (h : Keeps s t) (x : RtpStream) (n : Nat) : Keeps s (State.codecTick t x n) := by
  unfold State.codecTick
  repeat' with_reducible (first
    | assumption
    | (intro x; first | (refine_lift have hx : Keeps s x := ?_; ?_; dsimp only [x]) | (clear_value x))
    | lift_lets
    | apply State.streamDeliver_keeps
    | apply State.setStream_keeps
    | apply State.count_keeps
    | apply State.set_keeps
    | apply Keeps.ite
    | split)

theorem State.streamQueue_keeps {s t : State} (h : Keeps s t) (x : RtpStream) (ts : Nat) (samples : List (List Int)) : Keeps s (State.streamQueue t x ts samples) := by
  unfold State.streamQueue
  repeat' with_reducible (first
    | assumption
    | apply State.setStream_keeps
    | apply State.sendUdp_keeps
    | apply Keeps.ite)

theorem State.streamFull_keeps {s t : State} (h : Keeps s t) (x : RtpStream) : Keeps s (State.streamFull t x) := by
  unfold State.streamFull
  repeat' with_reducible (first
    | assumption
    | apply State.streamQueue_keeps
    | apply State.setStream_keeps
    | apply Keeps.ite)

theorem State.streamCollect_keeps {s t : State} (h : Keeps s t) (x : RtpStream) (c : Nat) : Keeps s (State.streamCollect t x c) := by
  unfold State.streamCollect
  repeat' with_reducible (first
    | assumption
    | (intro x; first | (refine_lift have hx : Keeps s x := ?_; ?_; dsimp only [x]) | (clear_value x))
    | lift_lets
    | apply State.streamFull_keeps
    | apply State.setStream_keeps
    | apply State.count_keeps
    | split)

theorem State.streamsCollect_keeps {s t : State} (h : Keeps s t) (c : Nat) : Keeps s (State.streamsCollect t c) := by
  unfold State.streamsCollect
  repeat' with_reducible (first
    | assumption
    | apply State.streamCollect_keeps
    | refine Keeps.foldl ?_ (fun u x hu => ?_))

theorem State.streamsDeliver_keeps {s t : State} (h : Keeps s t) (n : Nat) : Keeps s (State.streamsDeliver t n) := by
  unfold State.streamsDeliver
  repeat' with_reducible (first
    | assumption
    | apply State.codecTick_keeps
    | apply State.aesTick_keeps
    | refine Keeps.foldl ?_ (fun u x hu => ?_)
    | apply Keeps.ite)

theorem execAes67StreamStopped_keeps {s t : State} (h : Keeps s t) (n : Fin 64) : NextKeeps s (execAes67StreamStopped n t) := by
  unfold execAes67StreamStopped
  repeat' with_reducible (first
    | assumption
    | refine NextKeeps.next ?_
    | apply State.streamEvt_keeps
    | apply State.setFlag_keeps
    | apply Keeps.ite)

theorem execStreamPacketLate_keeps {s t : State} (h : Keeps s t) (n : Fin 64) : NextKeeps s (execStreamPacketLate n t) := by
  unfold execStreamPacketLate
  repeat' with_reducible (first
    | assumption
    | refine NextKeeps.next ?_
    | (intro x; first | (refine_lift have hx : Keeps s x := ?_; ?_; dsimp only [x]) | (clear_value x))
    | lift_lets
    | apply State.ethCount_keeps
    | apply State.setEthPort_keeps
    | apply State.evt_keeps
    | apply State.count_keeps
    | split)

theorem State.setPtpState_keeps {s t : State} (h : Keeps s t) (p x : Nat) : Keeps s (State.setPtpState t p x) := by
  unfold State.setPtpState
  repeat' with_reducible (first
    | assumption
    | apply State.evt_keeps
    | apply State.set_keeps
    | apply Keeps.ite)

theorem State.showGm_keeps {s t : State} (h : Keeps s t) (id : Nat) (self : Bool) : Keeps s (State.showGm t id self) := by
  unfold State.showGm
  repeat' with_reducible (first
    | assumption
    | apply State.evt_keeps
    | apply State.set64_keeps
    | apply State.setFlag_keeps
    | apply Keeps.ite)

theorem State.ptpForeign_keeps {s t : State} (h : Keeps s t) (p : Nat) (a : Announce) : Keeps s (State.ptpForeign t p a) := by
  unfold State.ptpForeign
  repeat' with_reducible (first
    | assumption
    | apply State.setPtpState_keeps
    | apply State.post_keeps
    | apply State.evt_keeps
    | apply Keeps.ite)

theorem State.ptpDecide_keeps {s t : State} (h : Keeps s t) : Keeps s (State.ptpDecide t) := by
  unfold State.ptpDecide
  repeat' with_reducible (first
    | assumption
    | (intro x; first | (refine_lift have hx : Keeps s x := ?_; ?_; dsimp only [x]) | (clear_value x))
    | lift_lets
    | apply State.ptpForeign_keeps
    | apply State.showGm_keeps
    | apply State.setPtpState_keeps
    | refine Keeps.foldl ?_ (fun u x hu => ?_)
    | split)

theorem State.ptpSet_keeps {s t : State} (h : Keeps s t) (external : Bool) (domain prio1 prio2 : Nat) (roles : List Nat) : Keeps s (State.ptpSet t external domain prio1 prio2 roles) := by
  unfold State.ptpSet
  repeat' with_reducible (first
    | assumption
    | apply State.ptpDecide_keeps
    | apply State.setPtpState_keeps
    | apply State.setEthPort_keeps
    | apply State.setFlag_keeps
    | refine Keeps.foldl ?_ (fun u x hu => ?_)
    | apply Keeps.ite
    | apply Keeps.update)

theorem State.ptpSend_keeps {s t : State} (h : Keeps s t) (p : Nat) (event : Bool) (d : List Nat) (k : TxKind) : Keeps s (State.ptpSend t p event d k) := by
  unfold State.ptpSend
  repeat' with_reducible (first
    | assumption
    | apply State.sendUdp_keeps)

theorem execPtpMessageInterval_keeps {s t : State} (h : Keeps s t) (port : Fin 2) (what : Fin 3) : NextKeeps s (execPtpMessageInterval port what t) := by
  unfold execPtpMessageInterval
  repeat' with_reducible (first
    | assumption
    | refine NextKeeps.next ?_
    | apply State.ptpSend_keeps
    | apply State.setEthPort_keeps
    | apply Keeps.ite)

theorem execPtpAnnounceTimeout_keeps {s t : State} (h : Keeps s t) (port : Fin 2) : NextKeeps s (execPtpAnnounceTimeout port t) := by
  unfold execPtpAnnounceTimeout
  repeat' with_reducible (first
    | assumption
    | refine NextKeeps.next ?_
    | apply State.ptpDecide_keeps
    | apply State.setPtpState_keeps
    | apply State.setEthPort_keeps
    | apply State.count_keeps
    | apply Keeps.ite)

theorem State.ptpServo_keeps {s t : State} (h : Keeps s t) (ofs : Int) : Keeps s (State.ptpServo t ofs) := by
  unfold State.ptpServo
  repeat' with_reducible (first
    | assumption
    | apply State.evt_keeps
    | apply State.count_keeps
    | apply State.setFlag_keeps
    | apply State.set_keeps
    | apply Keeps.ite
    | apply Keeps.update)

theorem State.ptpMeasure_keeps {s t : State} (h : Keeps s t) (t1 t2 : Int) : Keeps s (State.ptpMeasure t t1 t2) := by
  unfold State.ptpMeasure
  repeat' with_reducible (first
    | assumption
    | apply State.ptpServo_keeps
    | apply Keeps.ite
    | apply Keeps.update)

theorem State.ptpReceive_keeps {s t : State} (h : Keeps s t) (p : Nat) (d : List Nat) (ts : Int) : Keeps s (State.ptpReceive t p d ts) := by
  unfold State.ptpReceive
  repeat' with_reducible (first
    | assumption
    | apply State.ptpMeasure_keeps
    | apply State.ptpSend_keeps
    | apply State.ptpDecide_keeps
    | apply State.setEthPort_keeps
    | apply State.set_keeps
    | apply Keeps.ite
    | split
    | apply Keeps.update)

theorem State.tsqTake_keeps {s t : State} (h : Keeps s t) (p : Nat) (k : TxKind) (t' : Int) : Keeps s (State.tsqTake t p k t') := by
  unfold State.tsqTake
  repeat' with_reducible (first
    | assumption
    | apply State.ptpSend_keeps
    | apply State.htxFinish_keeps
    | apply State.setEthPort_keeps
    | split)

theorem State.tsqDrain_keeps {s t : State} (h : Keeps s t) (p : Nat) : Keeps s (State.tsqDrain t p) := by
  unfold State.tsqDrain
  repeat' with_reducible (first
    | assumption
    | apply State.tsqTake_keeps
    | apply State.setEthPort_keeps
    | apply State.set_keeps
    | refine Keeps.foldl ?_ (fun u x hu => ?_)
    | apply Keeps.ite)

theorem State.tsqRead_keeps {s t : State} (h : Keeps s t) (p : Nat) : Keeps s (State.tsqRead t p).2 := by
  unfold State.tsqRead
  repeat' with_reducible (first
    | assumption
    | apply State.setFlag_keeps
    | apply State.set_keeps)

theorem execTsqStatRead_keeps {s t : State} (h : Keeps s t) (port : Fin 2) : NextKeeps s (execTsqStatRead port t) := by
  unfold execTsqStatRead
  repeat' with_reducible (first
    | assumption
    | refine NextKeeps.next ?_
    | (intro u hu)
    | apply State.tsqRead_keeps
    | apply State.emit_keeps
    | apply State.access_keeps)

theorem State.ptpClassTick_keeps {s t : State} (h : Keeps s t) : Keeps s (State.ptpClassTick t) := by
  unfold State.ptpClassTick
  repeat' with_reducible (first
    | assumption
    | apply State.set_keeps
    | apply Keeps.ite
    | apply Keeps.update)

theorem State.ptpTick_keeps {s t : State} (h : Keeps s t) : Keeps s (State.ptpTick t) := by
  unfold State.ptpTick
  repeat' with_reducible (first
    | assumption
    | apply State.setFlag_keeps
    | apply Keeps.ite
    | apply Keeps.update)

theorem State.arpReply_keeps {s t : State} (h : Keeps s t) (p : Nat) (f : List Nat) : Keeps s (State.arpReply t p f) := by
  unfold State.arpReply
  repeat' with_reducible (first
    | assumption
    | apply State.txEnqueue_keeps
    | apply Keeps.ite)

theorem State.echoReply_keeps {s t : State} (h : Keeps s t) (p : Nat) (f : List Nat) : Keeps s (State.echoReply t p f) := by
  unfold State.echoReply
  repeat' with_reducible (first
    | assumption
    | apply State.ipPacket_keeps
    | apply State.txEnqueue_keeps
    | apply Keeps.ite)

theorem State.igmpReport_keeps {s t : State} (h : Keeps s t) (p : Nat) : Keeps s (State.igmpReport t p) := by
  unfold State.igmpReport
  repeat' with_reducible (first
    | assumption
    | apply State.ipPacket_keeps
    | apply State.txEnqueue_keeps
    | refine Keeps.foldl ?_ (fun u x hu => ?_)
    | apply Keeps.ite)

theorem State.igmpQuery_keeps {s t : State} (h : Keeps s t) (p : Nat) (f : List Nat) : Keeps s (State.igmpQuery t p f) := by
  unfold State.igmpQuery
  repeat' with_reducible (first
    | assumption
    | apply State.igmpReport_keeps
    | apply State.setEthPort_keeps
    | apply Keeps.ite)

theorem State.relayOut_keeps {s t : State} (h : Keeps s t) (p : Nat) (r : Config.RelayRule) (f : List Nat) : Keeps s (State.relayOut t p r f) := by
  unfold State.relayOut
  repeat' with_reducible (first
    | assumption
    | apply State.setEthPort_keeps
    | apply State.stageMessage_keeps)

theorem State.relayIn_keeps {s t : State} (h : Keeps s t) (m : List Nat) : Keeps s (State.relayIn t m) := by
  unfold State.relayIn
  repeat' with_reducible (first
    | assumption
    | apply State.txEnqueue_keeps
    | refine Keeps.foldl ?_ (fun u x hu => ?_)
    | apply Keeps.ite)

theorem State.relayExpired_keeps {s t : State} (h : Keeps s t) (ids : List Nat) : Keeps s (State.relayExpired t ids) := by
  unfold State.relayExpired
  repeat' with_reducible (first
    | assumption
    | apply State.ethCount_keeps
    | apply State.setEthPort_keeps
    | refine Keeps.foldl ?_ (fun u x hu => ?_))

theorem execCellExpire_keeps {s t : State} (h : Keeps s t) (l : Line) : NextKeeps s (execCellExpire l t) := by
  unfold execCellExpire
  repeat' with_reducible (first
    | assumption
    | refine NextKeeps.next ?_
    | apply State.relayExpired_keeps
    | apply State.cellsExpire_keeps)

theorem State.rxCounted_keeps {s t : State} (h : Keeps s t) (p : Nat) (b : List Nat) : Keeps s (State.rxCounted t p b) := by
  unfold State.rxCounted
  repeat' with_reducible (first
    | assumption
    | apply State.ethCount_keeps)

theorem State.decikHandles_keeps {s t : State} (h : Keeps s t) (p : Nat) (b : List Nat) : Keeps s (State.decikHandles t p b) := by
  unfold State.decikHandles
  repeat' with_reducible (first
    | assumption
    | apply State.igmpQuery_keeps
    | apply State.echoReply_keeps
    | apply State.arpReply_keeps
    | apply Keeps.ite)

theorem State.rxClassify_keeps {s t : State} (h : Keeps s t) (p : Nat) (f : EthRx) : Keeps s (State.rxClassify t p f) := by
  unfold State.rxClassify
  repeat' with_reducible (first
    | assumption
    | apply State.decikHandles_keeps
    | apply State.relayOut_keeps
    | apply State.ptpReceive_keeps
    | apply State.streamPacket_keeps
    | apply State.macControl_keeps
    | apply State.hostRx_keeps
    | apply State.ethCount_keeps
    | apply Keeps.ite
    | split)

theorem execEthFrameReceive_keeps {s t : State} (h : Keeps s t) (port : Fin 2) (f : EthRx) : NextKeeps s (execEthFrameReceive port f t) := by
  unfold execEthFrameReceive
  repeat' with_reducible (first
    | assumption
    | refine NextKeeps.next ?_
    | apply State.rxClassify_keeps
    | apply State.rxCounted_keeps
    | apply State.ethCount_keeps
    | apply State.evt_keeps
    | split)

theorem State.pralineSet_keeps {s t : State} (h : Keeps s t) (p k : Nat) (en magic : Bool) (crc : Nat) (mask : List Nat) : Keeps s (State.pralineSet t p k en magic crc mask) := by
  unfold State.pralineSet
  repeat' with_reducible (first
    | assumption
    | apply State.putBit_keeps
    | apply State.setFlag_keeps
    | apply State.set_keeps)

theorem State.ethDown_keeps {s t : State} (h : Keeps s t) (keepPraline : Bool) : Keeps s (State.ethDown t keepPraline) := by
  unfold State.ethDown
  repeat' with_reducible (first
    | assumption
    | apply State.resetRegs_keeps
    | apply Keeps.ite
    | apply Keeps.update)

theorem State.ethTick_keeps {s t : State} (h : Keeps s t) (n : Nat) : Keeps s (State.ethTick t n) := by
  unfold State.ethTick
  repeat' with_reducible (first
    | assumption
    | apply State.ptpTick_keeps
    | apply State.ptpClassTick_keeps
    | apply State.tsqDrain_keeps
    | apply State.streamsDeliver_keeps
    | apply State.streamsCollect_keeps
    | apply State.pauseTick_keeps
    | apply State.ethGateTick_keeps
    | refine Keeps.foldl ?_ (fun u x hu => ?_)
    | apply Keeps.ite)

/-! ## Recorder -/

theorem State.showRecorder_keeps {s t : State} (h : Keeps s t) : Keeps s (State.showRecorder t) := by
  unfold State.showRecorder
  repeat' with_reducible (first
    | assumption
    | apply State.set_keeps)

theorem State.showSeqs_keeps {s t : State} (h : Keeps s t) : Keeps s (State.showSeqs t) := by
  unfold State.showSeqs
  repeat' with_reducible (first
    | assumption
    | (intro x; clear_value x)
    | lift_lets
    | apply State.set_keeps
    | split)

theorem State.recordWritten_keeps {s t : State} (h : Keeps s t) (r : Record) : Keeps s (State.recordWritten t r) := by
  unfold State.recordWritten
  repeat' with_reducible (first
    | assumption
    | apply State.showSeqs_keeps
    | apply State.notify_keeps
    | apply State.evt_keeps
    | apply State.set_keeps
    | apply Keeps.ite
    | apply Keeps.update)

theorem State.sequenced_keeps {s t : State} (h : Keeps s t) (r : Record) : Keeps s (State.sequenced t r).2 := by
  unfold State.sequenced
  repeat' with_reducible (first
    | assumption
    | apply Keeps.update)

theorem State.storeRecord_keeps {s t : State} (h : Keeps s t) (r : Record) : Keeps s (State.storeRecord t r) := by
  unfold State.storeRecord
  repeat' with_reducible (first
    | assumption
    | apply Keeps.update)

theorem State.mirrorRecord_keeps {s t : State} (h : Keeps s t) (r : Record) : Keeps s (State.mirrorRecord t r) := by
  unfold State.mirrorRecord
  repeat' with_reducible (first
    | assumption
    | apply State.sequenced_keeps
    | apply State.recordWritten_keeps
    | apply State.set_keeps
    | apply Keeps.ite
    | apply Keeps.update)

theorem State.degradeRecorder_keeps {s t : State} (h : Keeps s t) (cause : Nat) : Keeps s (State.degradeRecorder t cause) := by
  unfold State.degradeRecorder
  repeat' with_reducible (first
    | assumption
    | apply State.mirrorRecord_keeps
    | apply State.showRecorder_keeps
    | apply State.faultCause_keeps
    | apply State.evt_keeps
    | apply Keeps.ite
    | apply Keeps.update)

theorem State.retireSector_keeps {s t : State} (h : Keeps s t) : Keeps s (State.retireSector t) := by
  unfold State.retireSector
  repeat' with_reducible (first
    | assumption
    | apply State.showRecorder_keeps
    | apply State.evt_keeps
    | apply Keeps.update)

theorem State.sectorRetired_keeps {s t : State} (h : Keeps s t) (sector : Nat) : Keeps s (State.sectorRetired t sector) := by
  unfold State.sectorRetired
  repeat' with_reducible (first
    | assumption
    | apply State.postBy_keeps)

theorem State.writeRecord_keeps {s t : State} (h : Keeps s t) (r : Record) (back : ReadBack) : Keeps s (State.writeRecord t r back) := by
  unfold State.writeRecord
  repeat' with_reducible (first
    | assumption
    | (intro x; first | (refine_lift have hx : Keeps s x := ?_; ?_; dsimp only [x]) | (clear_value x))
    | lift_lets
    | apply State.sectorRetired_keeps
    | apply State.retireSector_keeps
    | apply State.degradeRecorder_keeps
    | apply State.mirrorRecord_keeps
    | apply State.storeRecord_keeps
    | apply State.sequenced_keeps
    | apply State.recordWritten_keeps
    | split)

theorem State.setStorm_keeps {s t : State} (h : Keeps s t) (code : Nat) (x : Nat × Nat) : Keeps s (State.setStorm t code x) := by
  unfold State.setStorm
  repeat' with_reducible (first
    | assumption
    | apply Keeps.update)

theorem execEventPost_keeps {s t : State} (h : Keeps s t) (back : ReadBack) : NextKeeps s (execEventPost back t) := by
  unfold execEventPost
  repeat' with_reducible (first
    | assumption
    | refine NextKeeps.next ?_
    | apply State.setStorm_keeps
    | apply State.writeRecord_keeps
    | apply State.count_keeps
    | split
    | apply Keeps.update)

theorem execPendingPost_keeps {s t : State} (h : Keeps s t) (writer : Fin 3) (code inst : Nat) (data : List Nat) : NextKeeps s (execPendingPost writer code inst data t) := by
  unfold execPendingPost
  repeat' with_reducible (first
    | assumption
    | refine NextKeeps.next ?_
    | apply State.postBy_keeps
    | split)

theorem execStormSecondEnd_keeps {s t : State} (h : Keeps s t) : NextKeeps s (execStormSecondEnd t) := by
  unfold execStormSecondEnd
  repeat' with_reducible (first
    | assumption
    | refine NextKeeps.next ?_
    | apply State.postBy_keeps
    | apply State.set_keeps
    | refine Keeps.foldl ?_ (fun u x hu => ?_)
    | apply Keeps.ite
    | apply Keeps.update)

theorem execOptimeSave_keeps {s t : State} (h : Keeps s t) : NextKeeps s (execOptimeSave t) := by
  unfold execOptimeSave
  repeat' with_reducible (first
    | assumption
    | refine NextKeeps.next ?_
    | apply Keeps.ite
    | apply Keeps.update)

theorem State.flushPending_keeps {s t : State} (h : Keeps s t) : Keeps s (State.flushPending t) := by
  unfold State.flushPending
  repeat' with_reducible (first
    | assumption
    | apply State.set_keeps
    | apply Keeps.ite
    | apply Keeps.update)

theorem State.completeClear_keeps {s t : State} (h : Keeps s t) : Keeps s (State.completeClear t) := by
  unfold State.completeClear
  repeat' with_reducible (first
    | assumption
    | split
    | apply Keeps.update)

theorem State.startRecorder_keeps {s t : State} (h : Keeps s t) (media : Nat) : Keeps s (State.startRecorder t media) := by
  unfold State.startRecorder
  repeat' with_reducible (first
    | assumption
    | (intro x; first | (refine_lift have hx : Keeps s x := ?_; ?_; dsimp only [x]) | (refine_lift have hx : Keeps s x.state := ?_; ?_; dsimp only [x]) | (refine_lift have hx : Keeps s x.2 := ?_; ?_; dsimp only [x]) | (refine_lift have hx : Keeps s x.1 := ?_; ?_; dsimp only [x]) | (clear_value x))
    | (intro u hu)
    | (intro u)
    | (intro u; dsimp only)
    | lift_lets
    | apply State.completeClear_keeps
    | apply State.flushPending_keeps
    | apply State.degradeRecorder_keeps
    | apply State.showSeqs_keeps
    | apply State.showRecorder_keeps
    | refine State.nextSeq_keeps_eq ?_ (by assumption)
    | apply State.nextSeq_keeps
    | apply State.postBy_keeps
    | apply State.faultCause_keeps
    | apply State.set_keeps
    | refine Keeps.foldl ?_ (fun u x hu => ?_)
    | apply Keeps.ite
    | split
    | apply Keeps.update
    | apply Keeps.filterStore
    | lift_lets
    | dsimp only)

theorem State.clearRecorder_keeps {s t : State} (h : Keeps s t) (channel : Nat) : Keeps s (State.clearRecorder t channel).2 := by
  unfold State.clearRecorder
  repeat' with_reducible (first
    | assumption
    | apply State.storeRecord_keeps
    | apply State.sequenced_keeps
    | apply State.recordWritten_keeps
    | apply State.evt_keeps
    | apply Keeps.update)

/-! ## Links -/

theorem State.signalDetected_keeps {s t : State} (h : Keeps s t) (n : LinkIx) : Keeps s (State.signalDetected t n) := by
  unfold State.signalDetected
  repeat' with_reducible (first
    | assumption
    | apply State.linkTo_keeps
    | apply State.setFlag_keeps
    | apply Keeps.ite)

theorem State.blockLockAcquired_keeps {s t : State} (h : Keeps s t) (n : LinkIx) (ptUi loopUi : Nat) : Keeps s (State.blockLockAcquired t n ptUi loopUi) := by
  unfold State.blockLockAcquired
  repeat' with_reducible (first
    | assumption
    | apply State.linkLockCheck_keeps
    | apply State.linkTo_keeps
    | apply State.setFlag_keeps
    | apply State.set_keeps
    | apply Keeps.ite)

theorem State.trainTimeout_keeps {s t : State} (h : Keeps s t) (n : LinkIx) : Keeps s (State.trainTimeout t n) := by
  unfold State.trainTimeout
  repeat' with_reducible (first
    | assumption
    | apply State.qualRestart_keeps
    | apply State.linkTo_keeps
    | apply Keeps.ite)

theorem State.lossOfSignal_keeps {s t : State} (h : Keeps s t) (n : LinkIx) : Keeps s (State.lossOfSignal t n) := by
  unfold State.lossOfSignal
  repeat' with_reducible (first
    | assumption
    | apply State.linkQualError_keeps
    | apply State.linkLost_keeps
    | apply State.qualRestart_keeps
    | apply State.linkTo_keeps
    | apply State.setFlag_keeps
    | apply Keeps.ite)

theorem State.blockLockLost_keeps {s t : State} (h : Keeps s t) (n : LinkIx) : Keeps s (State.blockLockLost t n) := by
  unfold State.blockLockLost
  repeat' with_reducible (first
    | assumption
    | apply State.linkQualError_keeps
    | apply State.linkLost_keeps
    | apply State.qualRestart_keeps
    | apply State.linkTo_keeps
    | apply State.setFlag_keeps
    | apply Keeps.ite)

theorem execQualTimerExpiry_keeps {s t : State} (h : Keeps s t) (n : LinkIx) : NextKeeps s (execQualTimerExpiry n t) := by
  unfold execQualTimerExpiry
  repeat' with_reducible (first
    | assumption
    | refine NextKeeps.next ?_
    | apply State.linkQualCheck_keeps
    | apply State.setLink_keeps
    | apply Keeps.ite)

theorem State.qualReceiveError_keeps {s t : State} (h : Keeps s t) (n : LinkIx) (e' : RxError) : Keeps s (State.qualReceiveError t n e') := by
  unfold State.qualReceiveError
  repeat' with_reducible (first
    | assumption
    | apply State.linkQualError_keeps
    | apply State.count_keeps
    | apply State.setFlag_keeps
    | apply Keeps.ite)

theorem State.linkLossEvent_keeps {s t : State} (h : Keeps s t) (n : LinkIx) : Keeps s (State.linkLossEvent t n) := by
  unfold State.linkLossEvent
  repeat' with_reducible (first
    | assumption
    | apply State.linkLost_keeps
    | apply Keeps.ite)

theorem execStatusBlockMissing_keeps {s t : State} (h : Keeps s t) (n : LinkIx) : NextKeeps s (execStatusBlockMissing n t) := by
  unfold execStatusBlockMissing
  repeat' with_reducible (first
    | assumption
    | refine NextKeeps.next ?_
    | apply State.linkLost_keeps
    | apply Keeps.ite)

theorem execLoopbackClose_keeps {s t : State} (h : Keeps s t) (n : LinkIx) : NextKeeps s (execLoopbackClose n t) := by
  unfold execLoopbackClose
  repeat' with_reducible (first
    | assumption
    | refine NextKeeps.next ?_
    | apply State.setLink_keeps
    | apply State.setFlag_keeps
    | apply Keeps.ite)

theorem State.txeqApply_keeps {s t : State} (h : Keeps s t) (n : LinkIx) : Keeps s (State.txeqApply t n) := by
  unfold State.txeqApply
  repeat' with_reducible (first
    | assumption
    | apply State.setLink_keeps)

theorem State.prbsLock_keeps {s t : State} (h : Keeps s t) (n : LinkIx) : Keeps s (State.prbsLock t n) := by
  unfold State.prbsLock
  repeat' with_reducible (first
    | assumption
    | apply State.setFlag_keeps
    | apply Keeps.ite)

theorem State.prbsResync_keeps {s t : State} (h : Keeps s t) (n : LinkIx) : Keeps s (State.prbsResync t n) := by
  unfold State.prbsResync
  repeat' with_reducible (first
    | assumption
    | apply State.count_keeps
    | apply State.setFlag_keeps
    | apply Keeps.ite)

theorem linkDisable_keeps {s t : State} (h : Keeps s t) (n : LinkIx) (on : Bool) : Keeps s (linkDisable t n on) := by
  unfold linkDisable
  repeat' with_reducible (first
    | assumption
    | apply State.linkLost_keeps
    | apply State.linkTo_keeps
    | apply State.putBit_keeps
    | apply Keeps.ite)

theorem linkRetrain_keeps {s t : State} (h : Keeps s t) (n : LinkIx) : Keeps s (linkRetrain t n) := by
  unfold linkRetrain
  repeat' with_reducible (first
    | assumption
    | apply State.linkLost_keeps
    | apply State.linkTo_keeps
    | apply State.putBit_keeps
    | apply Keeps.ite)

theorem execLinkDisableWrite_keeps {s t : State} (h : Keeps s t) (n : LinkIx) (on : Bool) : NextKeeps s (execLinkDisableWrite n on t) := by
  unfold execLinkDisableWrite
  repeat' with_reducible (first
    | assumption
    | refine NextKeeps.next ?_
    | (intro u hu)
    | apply linkDisable_keeps
    | apply State.access_keeps
    | apply Keeps.ite)

theorem execLinkRetrainWrite_keeps {s t : State} (h : Keeps s t) (n : LinkIx) : NextKeeps s (execLinkRetrainWrite n t) := by
  unfold execLinkRetrainWrite
  repeat' with_reducible (first
    | assumption
    | refine NextKeeps.next ?_
    | (intro u hu)
    | apply linkRetrain_keeps
    | apply State.access_keeps)

theorem laneTestMode_keeps {s t : State} (h : Keeps s t) (n : LinkIx) (mode : Nat) : Keeps s (laneTestMode t n mode) := by
  unfold laneTestMode
  repeat' with_reducible (first
    | assumption
    | apply State.linkTo_keeps
    | apply State.count_keeps
    | apply State.setFlag_keeps
    | apply State.set_keeps
    | apply Keeps.ite)

theorem State.prbsInject_keeps {s t : State} (h : Keeps s t) (n : LinkIx) : Keeps s (State.prbsInject t n) := by
  unfold State.prbsInject
  repeat' with_reducible (first
    | assumption
    | apply State.emit_keeps
    | apply State.count_keeps
    | apply Keeps.ite)

/-! ## Stack -/

theorem State.setMember_keeps {s t : State} (h : Keeps s t) (sub : Nat) (m : MemberSt) : Keeps s (State.setMember t sub m) := by
  unfold State.setMember
  repeat' with_reducible (first
    | assumption
    | apply Keeps.update)

theorem State.stackEvt_keeps {s t : State} (h : Keeps s t) (f : Fld) : Keeps s (State.stackEvt t f) := by
  unfold State.stackEvt
  repeat' with_reducible (first
    | assumption
    | apply State.evt_keeps)

theorem State.stackTo_keeps {s t : State} (h : Keeps s t) (p st : Nat) : Keeps s (State.stackTo t p st) := by
  unfold State.stackTo
  repeat' with_reducible (first
    | assumption
    | apply State.set_keeps)

theorem State.stackLost_keeps {s t : State} (h : Keeps s t) (p goal : Nat) : Keeps s (State.stackLost t p goal) := by
  unfold State.stackLost
  repeat' with_reducible (first
    | assumption
    | apply State.stackTo_keeps
    | apply State.stackEvt_keeps
    | apply State.count_keeps
    | apply State.setFlag_keeps
    | apply State.set_keeps
    | apply Keeps.ite
    | apply Keeps.update)

theorem State.stackEnable_keeps {s t : State} (h : Keeps s t) (p : Nat) (on : Bool) : Keeps s (State.stackEnable t p on) := by
  unfold State.stackEnable
  repeat' with_reducible (first
    | assumption
    | apply State.stackLost_keeps
    | apply State.stackTo_keeps
    | apply Keeps.ite)

theorem State.stackSignal_keeps {s t : State} (h : Keeps s t) (p : Nat) : Keeps s (State.stackSignal t p) := by
  unfold State.stackSignal
  repeat' with_reducible (first
    | assumption
    | apply State.stackTo_keeps
    | apply State.setFlag_keeps
    | apply Keeps.ite)

theorem State.stackBlockLock_keeps {s t : State} (h : Keeps s t) (p latUi : Nat) : Keeps s (State.stackBlockLock t p latUi) := by
  unfold State.stackBlockLock
  repeat' with_reducible (first
    | assumption
    | apply State.stackTo_keeps
    | apply State.setFlag_keeps
    | apply State.set_keeps
    | apply Keeps.ite)

theorem State.stackTrainTimeout_keeps {s t : State} (h : Keeps s t) (p : Nat) : Keeps s (State.stackTrainTimeout t p) := by
  unfold State.stackTrainTimeout
  repeat' with_reducible (first
    | assumption
    | apply State.stackTo_keeps
    | apply Keeps.ite)

theorem State.stackSignalLost_keeps {s t : State} (h : Keeps s t) (p : Nat) : Keeps s (State.stackSignalLost t p) := by
  unfold State.stackSignalLost
  repeat' with_reducible (first
    | assumption
    | apply State.stackLost_keeps
    | apply State.stackTo_keeps
    | apply State.setFlag_keeps
    | apply Keeps.ite)

theorem State.stackBlockLost_keeps {s t : State} (h : Keeps s t) (p : Nat) : Keeps s (State.stackBlockLost t p) := by
  unfold State.stackBlockLost
  repeat' with_reducible (first
    | assumption
    | apply State.stackLost_keeps
    | apply State.stackTo_keeps
    | apply State.setFlag_keeps
    | apply Keeps.ite)

theorem State.stackRxError_keeps {s t : State} (h : Keeps s t) (p : Nat) : Keeps s (State.stackRxError t p) := by
  unfold State.stackRxError
  repeat' with_reducible (first
    | assumption
    | apply State.count_keeps
    | apply Keeps.ite)

theorem State.stackLinkLoss_keeps {s t : State} (h : Keeps s t) (p : Nat) : Keeps s (State.stackLinkLoss t p) := by
  unfold State.stackLinkLoss
  repeat' with_reducible (first
    | assumption
    | apply State.stackLost_keeps
    | apply Keeps.ite)

theorem State.stackTxeq_keeps {s t : State} (h : Keeps s t) (p : Nat) : Keeps s (State.stackTxeq t p) := by
  unfold State.stackTxeq
  repeat' with_reducible (first
    | assumption
    | apply Keeps.update)

theorem State.stackLaneMode_keeps {s t : State} (h : Keeps s t) (p mode : Nat) : Keeps s (State.stackLaneMode t p mode) := by
  unfold State.stackLaneMode
  repeat' with_reducible (first
    | assumption
    | apply State.stackTo_keeps
    | apply State.setFlag_keeps
    | apply State.set_keeps
    | apply Keeps.ite)

theorem State.stackPrbsLock_keeps {s t : State} (h : Keeps s t) (p : Nat) : Keeps s (State.stackPrbsLock t p) := by
  unfold State.stackPrbsLock
  repeat' with_reducible (first
    | assumption
    | apply State.setFlag_keeps
    | apply Keeps.ite)

theorem State.stackPrbsResync_keeps {s t : State} (h : Keeps s t) (p : Nat) : Keeps s (State.stackPrbsResync t p) := by
  unfold State.stackPrbsResync
  repeat' with_reducible (first
    | assumption
    | apply State.count_keeps
    | apply State.setFlag_keeps
    | apply Keeps.ite)

theorem State.stackInject_keeps {s t : State} (h : Keeps s t) (p : Nat) : Keeps s (State.stackInject t p) := by
  unfold State.stackInject
  repeat' with_reducible (first
    | assumption
    | apply State.emit_keeps
    | apply State.count_keeps
    | apply Keeps.ite)

theorem onPort_keeps {s : State} (n : PortIx) (coupler : LinkIx → State) (stack : Nat → State) (hc : ∀ i, Keeps s (coupler i)) (hs : ∀ i, Keeps s (stack i)) : Keeps s (onPort n coupler stack) := by
  unfold onPort
  split
  · exact hc _
  · exact hs _

theorem execSignalDetected_keeps {s t : State} (h : Keeps s t) (n : PortIx) : NextKeeps s (execSignalDetected n t) := by
  unfold execSignalDetected
  repeat' with_reducible (first
    | assumption
    | refine NextKeeps.next ?_
    | apply onPort_keeps
    | apply State.stackSignal_keeps
    | apply State.signalDetected_keeps)

theorem execBlockLockAcquired_keeps {s t : State} (h : Keeps s t) (n : PortIx) (ptUi loopUi : Nat) : NextKeeps s (execBlockLockAcquired n ptUi loopUi t) := by
  unfold execBlockLockAcquired
  repeat' with_reducible (first
    | assumption
    | refine NextKeeps.next ?_
    | (intro u)
    | apply onPort_keeps
    | apply State.stackBlockLock_keeps
    | apply State.blockLockAcquired_keeps)

theorem execTrainTimeout_keeps {s t : State} (h : Keeps s t) (n : PortIx) : NextKeeps s (execTrainTimeout n t) := by
  unfold execTrainTimeout
  repeat' with_reducible (first
    | assumption
    | refine NextKeeps.next ?_
    | apply onPort_keeps
    | apply State.stackTrainTimeout_keeps
    | apply State.trainTimeout_keeps)

theorem execLossOfSignal_keeps {s t : State} (h : Keeps s t) (n : PortIx) : NextKeeps s (execLossOfSignal n t) := by
  unfold execLossOfSignal
  repeat' with_reducible (first
    | assumption
    | refine NextKeeps.next ?_
    | apply onPort_keeps
    | apply State.stackSignalLost_keeps
    | apply State.lossOfSignal_keeps)

theorem execBlockLockLost_keeps {s t : State} (h : Keeps s t) (n : PortIx) : NextKeeps s (execBlockLockLost n t) := by
  unfold execBlockLockLost
  repeat' with_reducible (first
    | assumption
    | refine NextKeeps.next ?_
    | apply onPort_keeps
    | apply State.stackBlockLost_keeps
    | apply State.blockLockLost_keeps)

theorem execQualReceiveError_keeps {s t : State} (h : Keeps s t) (n : PortIx) (e' : RxError) : NextKeeps s (execQualReceiveError n e' t) := by
  unfold execQualReceiveError
  repeat' with_reducible (first
    | assumption
    | refine NextKeeps.next ?_
    | (intro u)
    | apply onPort_keeps
    | apply State.stackRxError_keeps
    | apply State.qualReceiveError_keeps)

theorem execLinkLoss_keeps {s t : State} (h : Keeps s t) (n : PortIx) : NextKeeps s (execLinkLoss n t) := by
  unfold execLinkLoss
  repeat' with_reducible (first
    | assumption
    | refine NextKeeps.next ?_
    | apply onPort_keeps
    | apply State.stackLinkLoss_keeps
    | apply State.linkLossEvent_keeps)

theorem execTxeqApply_keeps {s t : State} (h : Keeps s t) (n : PortIx) : NextKeeps s (execTxeqApply n t) := by
  unfold execTxeqApply
  repeat' with_reducible (first
    | assumption
    | refine NextKeeps.next ?_
    | apply onPort_keeps
    | apply State.stackTxeq_keeps
    | apply State.txeqApply_keeps)

theorem execPrbsCheckerLock_keeps {s t : State} (h : Keeps s t) (n : PortIx) : NextKeeps s (execPrbsCheckerLock n t) := by
  unfold execPrbsCheckerLock
  repeat' with_reducible (first
    | assumption
    | refine NextKeeps.next ?_
    | apply onPort_keeps
    | apply State.stackPrbsLock_keeps
    | apply State.prbsLock_keeps)

theorem execPrbsCheckerResync_keeps {s t : State} (h : Keeps s t) (n : PortIx) : NextKeeps s (execPrbsCheckerResync n t) := by
  unfold execPrbsCheckerResync
  repeat' with_reducible (first
    | assumption
    | refine NextKeeps.next ?_
    | apply onPort_keeps
    | apply State.stackPrbsResync_keeps
    | apply State.prbsResync_keeps)

theorem execLaneTestModeWrite_keeps {s t : State} (h : Keeps s t) (n : PortIx) (mode : Fin 4) : NextKeeps s (execLaneTestModeWrite n mode t) := by
  unfold execLaneTestModeWrite
  repeat' with_reducible (first
    | assumption
    | refine NextKeeps.next ?_
    | (intro u)
    | apply onPort_keeps
    | apply State.stackLaneMode_keeps
    | apply laneTestMode_keeps
    | apply State.access_keeps)

theorem execPrbsInjectWrite_keeps {s t : State} (h : Keeps s t) (n : PortIx) : NextKeeps s (execPrbsInjectWrite n t) := by
  unfold execPrbsInjectWrite
  repeat' with_reducible (first
    | assumption
    | refine NextKeeps.next ?_
    | (intro u hu)
    | apply onPort_keeps
    | apply State.stackInject_keeps
    | apply State.prbsInject_keeps
    | apply State.access_keeps)

theorem State.stackConflict_keeps {s t : State} (h : Keeps s t) (p : Nat) (record : Bool) : Keeps s (State.stackConflict t p record) := by
  unfold State.stackConflict
  repeat' with_reducible (first
    | assumption
    | apply State.stackTo_keeps
    | apply State.stackEvt_keeps
    | apply State.post_keeps
    | apply State.setFlag_keeps
    | apply Keeps.ite)

theorem State.memberAuth_keeps {s t : State} (h : Keeps s t) (e' : Nat × DWord × Bool) : Keeps s (State.memberAuth t e') := by
  unfold State.memberAuth
  repeat' with_reducible (first
    | assumption
    | apply State.stackEvt_keeps
    | apply State.setMember_keeps
    | apply State.post_keeps
    | apply State.set64_keeps
    | apply State.putBit_keeps
    | apply State.setFlag_keeps
    | apply State.set_keeps
    | apply Keeps.ite)

theorem execStackLinkInService_keeps {s t : State} (h : Keeps s t) (down : Bool) (upstream : Nat) (conflict : Bool) (members : List (Nat × DWord × Bool)) : NextKeeps s (execStackLinkInService down upstream conflict members t) := by
  unfold execStackLinkInService
  repeat' with_reducible (first
    | assumption
    | refine NextKeeps.next ?_
    | apply State.memberAuth_keeps
    | apply State.stackConflict_keeps
    | apply State.stackTo_keeps
    | apply State.validComm_keeps
    | apply State.setFlag_keeps
    | apply State.set_keeps
    | refine Keeps.foldl ?_ (fun u x hu => ?_)
    | apply Keeps.ite)

theorem execMemberRecordReceive_keeps {s t : State} (h : Keeps s t) (r : MemberRecord) : NextKeeps s (execMemberRecordReceive r t) := by
  unfold execMemberRecordReceive
  repeat' with_reducible (first
    | assumption
    | refine NextKeeps.next ?_
    | apply State.setMember_keeps
    | apply State.queueCell_keeps
    | apply State.setFlag_keeps
    | apply State.set_keeps
    | refine Keeps.foldl ?_ (fun u x hu => ?_)
    | apply Keeps.ite
    | apply Keeps.update)

theorem State.memberRepeat_keeps {s t : State} (h : Keeps s t) (sub : Nat) : Keeps s (State.memberRepeat t sub) := by
  unfold State.memberRepeat
  repeat' with_reducible (first
    | assumption
    | apply State.setMember_keeps)

theorem execMemberRecordLate_keeps {s t : State} (h : Keeps s t) (sub : Fin 4) : NextKeeps s (execMemberRecordLate sub t) := by
  unfold execMemberRecordLate
  repeat' with_reducible (first
    | assumption
    | refine NextKeeps.next ?_
    | apply State.memberRepeat_keeps
    | apply State.stackEvt_keeps
    | apply State.setMember_keeps
    | apply State.count_keeps
    | apply Keeps.ite)

theorem execMemberLost_keeps {s t : State} (h : Keeps s t) (sub : Fin 4) : NextKeeps s (execMemberLost sub t) := by
  unfold execMemberLost
  repeat' with_reducible (first
    | assumption
    | refine NextKeeps.next ?_
    | apply State.memberRepeat_keeps
    | apply State.stackEvt_keeps
    | apply State.setMember_keeps
    | apply State.post_keeps
    | apply State.putBit_keeps
    | apply State.count_keeps
    | apply State.setFlag_keeps
    | apply Keeps.ite)

theorem execRingImageReceive_keeps {s t : State} (h : Keeps s t) (r : RingImage) : NextKeeps s (execRingImageReceive r t) := by
  unfold execRingImageReceive
  repeat' with_reducible (first
    | assumption
    | refine NextKeeps.next ?_
    | exact trivial
    | (intro x; first | (refine_lift have hx : Keeps s x := ?_; ?_; dsimp only [x]) | (refine_lift have hx : Keeps s x.state := ?_; ?_; dsimp only [x]) | (refine_lift have hx : Keeps s x.2 := ?_; ?_; dsimp only [x]) | (refine_lift have hx : Keeps s x.1 := ?_; ?_; dsimp only [x]) | (clear_value x))
    | (intro u hu)
    | (intro u)
    | (intro u; dsimp only)
    | lift_lets
    | apply State.readRing_keeps
    | apply State.agreeSleep_keeps
    | apply State.set_keeps
    | refine Keeps.foldl ?_ (fun u x hu => ?_)
    | apply Keeps.ite
    | split
    | apply Keeps.update
    | apply Keeps.filterStore
    | lift_lets
    | dsimp only)

theorem execRingImageLate_keeps {s t : State} (h : Keeps s t) : NextKeeps s (execRingImageLate t) := by
  unfold execRingImageLate
  repeat' with_reducible (first
    | assumption
    | refine NextKeeps.next ?_
    | apply State.stackEvt_keeps
    | apply State.deliverRepeat_keeps
    | refine Keeps.foldl ?_ (fun u x hu => ?_)
    | apply Keeps.ite)

theorem execStackTimeMarker_keeps {s t : State} (h : Keeps s t) (n : Nat) (ofsNs : Int) (headLocked : Bool) : NextKeeps s (execStackTimeMarker n ofsNs headLocked t) := by
  unfold execStackTimeMarker
  repeat' with_reducible (first
    | assumption
    | refine NextKeeps.next ?_
    | apply State.leaveLocked_keeps
    | apply State.enterLocked_keeps
    | apply State.stepTime_keeps
    | apply State.setFlag_keeps
    | apply State.set_keeps
    | apply Keeps.ite
    | apply Keeps.update)

theorem State.stackStrap_keeps {s t : State} (h : Keeps s t) : Keeps s (State.stackStrap t) := by
  unfold State.stackStrap
  repeat' with_reducible (first
    | assumption
    | apply State.set_keeps
    | apply Keeps.ite)

theorem State.stackDown_keeps {s t : State} (h : Keeps s t) : Keeps s (State.stackDown t) := by
  unfold State.stackDown
  repeat' with_reducible (first
    | assumption
    | apply State.stackLost_keeps
    | apply State.set_keeps
    | apply State.resetRegs_keeps
    | apply Keeps.ite
    | apply Keeps.update)

end Sys2Proof.Machine
end

