-- ==== Sys2Proof/Laws/KeepsPower.lean ====
section
/-! SUPPORT. What no command changes: power, keys, units, interrupts and register access. -/

namespace Sys2Proof.Machine

/-! ## Power -/

theorem State.powerTo_keeps {s t : State} (h : Keeps s t) (st : Nat) : Keeps s (State.powerTo t st) := by
  unfold State.powerTo
  repeat' with_reducible (first
    | assumption
    | apply State.evt_keeps
    | apply State.set_keeps)

theorem State.setLevel_keeps {s t : State} (h : Keeps s t) (d level : Nat) : Keeps s (State.setLevel t d level) := by
  unfold State.setLevel
  repeat' with_reducible (first
    | assumption
    | apply State.setFlag_keeps
    | apply State.set_keeps
    | apply Keeps.ite)

theorem State.setLevels_keeps {s t : State} (h : Keeps s t) (f : Nat → Nat) : Keeps s (State.setLevels t f) := by
  unfold State.setLevels
  repeat' with_reducible (first
    | assumption
    | apply State.setLevel_keeps
    | refine Keeps.foldl ?_ (fun u x hu => ?_))

theorem State.dark_keeps {s t : State} (h : Keeps s t) (keep : Nat → Bool) : Keeps s (State.dark t keep) := by
  refine State.setWord_keeps (State.set_keeps (State.set_keeps (State.set_keeps (State.setFlag_keeps ?_ _ _) _ _) _ _) _ _) _ _
  exact ⟨h.1, h.2, fun x => Sparse.wf_filter resetWord _ t.regs (h.3 x), h.4⟩

theorem State.wakePulse_keeps {s t : State} (h : Keeps s t) (request : Bool) : Keeps s (State.wakePulse t request) := by
  unfold State.wakePulse
  repeat' with_reducible (first
    | assumption
    | apply State.count_keeps
    | apply State.setFlag_keeps
    | apply Keeps.ite
    | apply Keeps.update)

theorem State.wakeSteps_keeps {s t : State} (h : Keeps s t) : Keeps s (State.wakeSteps t) := by
  unfold State.wakeSteps
  repeat' with_reducible (first
    | assumption
    | apply State.powerTo_keeps
    | apply State.set_keeps
    | apply Keeps.update)

theorem State.wakeBegin_keeps {s t : State} (h : Keeps s t) (src detail : Nat) (also : List Nat) : Keeps s (State.wakeBegin t src detail also) := by
  unfold State.wakeBegin
  repeat' with_reducible (first
    | assumption
    | apply State.wakeSteps_keeps
    | apply State.wakePulse_keeps
    | apply State.set_keeps
    | apply Keeps.ite
    | apply Keeps.update)

theorem State.wakeEvents_keeps {s t : State} (h : Keeps s t) (fired : List (Nat × Nat)) : Keeps s (State.wakeEvents t fired) := by
  unfold State.wakeEvents
  repeat' with_reducible (first
    | assumption
    | lift_lets
    | apply State.wakeBegin_keeps
    | apply State.set_keeps
    | split
    | apply Keeps.update)

theorem State.wakeLatched_keeps {s t : State} (h : Keeps s t) : Keeps s (State.wakeLatched t) := by
  unfold State.wakeLatched
  repeat' with_reducible (first
    | assumption
    | apply State.wakeBegin_keeps
    | split)

theorem execWakeEvent_keeps {s t : State} (h : Keeps s t) (fired : List (Fin 11 × Fin 256)) : NextKeeps s (execWakeEvent fired t) := by
  unfold execWakeEvent
  repeat' with_reducible (first
    | assumption
    | refine NextKeeps.next ?_
    | (intro u; dsimp only)
    | lift_lets
    | apply State.wakeEvents_keeps)

theorem State.canWakeLast_keeps {s t : State} (h : Keeps s t) (id : Nat) (ext : Bool) : Keeps s (State.canWakeLast t id ext) := by
  unfold State.canWakeLast
  repeat' with_reducible (first
    | assumption
    | apply State.setFlag_keeps
    | apply State.set_keeps)

theorem execCanWake_keeps {s t : State} (h : Keeps s t) (frame : Option CanRx) : NextKeeps s (execCanWake frame t) := by
  unfold execCanWake
  repeat' with_reducible (first
    | assumption
    | refine NextKeeps.next ?_
    | (intro x; clear_value x)
    | lift_lets
    | apply State.canWakeLast_keeps
    | apply State.wakeEvents_keeps
    | split)

theorem execPralineMatch_keeps {s t : State} (h : Keeps s t) (port : Fin 2) (bytes : List Nat) (fcsOk : Bool) : NextKeeps s (execPralineMatch port bytes fcsOk t) := by
  unfold execPralineMatch
  repeat' with_reducible (first
    | assumption
    | refine NextKeeps.next ?_
    | (intro x; refine_lift have hx : Keeps s x := ?_; ?_; dsimp only [x])
    | lift_lets
    | apply State.wakeEvents_keeps
    | apply State.count_keeps
    | apply State.set_keeps
    | split)

theorem execRtcAlarm_keeps {s t : State} (h : Keeps s t) : NextKeeps s (execRtcAlarm t) := by
  unfold execRtcAlarm
  repeat' with_reducible (first
    | assumption
    | refine NextKeeps.next ?_
    | (intro u; dsimp only)
    | lift_lets
    | apply State.wakeEvents_keeps
    | apply Keeps.ite
    | apply Keeps.update)

theorem State.rtcAlarmHi_keeps {s t : State} (h : Keeps s t) (hi : Nat) : Keeps s (State.rtcAlarmHi t hi) := by
  unfold State.rtcAlarmHi
  repeat' with_reducible (first
    | assumption
    | apply State.set_keeps
    | apply Keeps.update)

theorem execRtcAlmHiWrite_keeps {s t : State} (h : Keeps s t) (hi : Nat) : NextKeeps s (execRtcAlmHiWrite hi t) := by
  unfold execRtcAlmHiWrite
  repeat' with_reducible (first
    | assumption
    | refine NextKeeps.next ?_
    | (intro u hu)
    | apply State.rtcAlarmHi_keeps
    | apply State.access_keeps)

theorem State.showRails_keeps {s t : State} (h : Keeps s t) : Keeps s (State.showRails t) := by
  unfold State.showRails
  repeat' with_reducible (first
    | assumption
    | apply State.setFlag_keeps)

theorem State.railsRun_keeps {s t : State} (h : Keeps s t) (up : Bool) (rails : Nat) : Keeps s (State.railsRun t up rails) := by
  unfold State.railsRun
  repeat' with_reducible (first
    | assumption
    | apply State.showRails_keeps
    | split
    | apply Keeps.update)

theorem State.railAdvance_keeps {s t : State} (h : Keeps s t) (q : RailSeq) (rest : List RailSeq) : Keeps s (State.railAdvance t q rest) := by
  unfold State.railAdvance
  repeat' with_reducible (first
    | assumption
    | apply State.showRails_keeps
    | split
    | apply Keeps.update)

theorem execRailDelayExpire_keeps {s t : State} (h : Keeps s t) : NextKeeps s (execRailDelayExpire t) := by
  unfold execRailDelayExpire
  repeat' with_reducible (first
    | assumption
    | refine NextKeeps.next ?_
    | apply State.railAdvance_keeps
    | apply State.putBit_keeps
    | refine Keeps.foldl ?_ (fun u x hu => ?_)
    | split
    | apply Keeps.update)

theorem execRailStepEnd_keeps {s t : State} (h : Keeps s t) (pg : Fin 256) : NextKeeps s (execRailStepEnd pg t) := by
  unfold execRailStepEnd
  repeat' with_reducible (first
    | assumption
    | refine NextKeeps.next ?_
    | apply State.railAdvance_keeps
    | apply State.putBit_keeps
    | refine Keeps.foldl ?_ (fun u x hu => ?_)
    | split)

theorem execRailPgFault_keeps {s t : State} (h : Keeps s t) (r : Fin 8) : NextKeeps s (execRailPgFault r t) := by
  unfold execRailPgFault
  repeat' with_reducible (first
    | assumption
    | refine NextKeeps.next ?_
    | apply State.postBy_keeps
    | apply State.evt_keeps
    | apply State.putBit_keeps
    | apply State.count_keeps
    | apply Keeps.ite)

theorem State.perfWrite_keeps {s t : State} (h : Keeps s t) (freq volt : Nat) : Keeps s (State.perfWrite t freq volt) := by
  unfold State.perfWrite
  repeat' with_reducible (first
    | assumption
    | apply State.postBy_keeps
    | apply State.evt_keeps
    | apply State.count_keeps
    | apply State.setFlag_keeps
    | apply State.set_keeps
    | apply Keeps.ite
    | apply Keeps.update)

theorem execPerfVoltWrite_keeps {s t : State} (h : Keeps s t) (pt : Fin 3) : NextKeeps s (execPerfVoltWrite pt t) := by
  unfold execPerfVoltWrite
  repeat' with_reducible (first
    | assumption
    | refine NextKeeps.next ?_
    | (intro u hu)
    | apply State.perfWrite_keeps
    | apply State.access_keeps)

theorem execPerfFreqWrite_keeps {s t : State} (h : Keeps s t) (pt : Fin 3) : NextKeeps s (execPerfFreqWrite pt t) := by
  unfold execPerfFreqWrite
  repeat' with_reducible (first
    | assumption
    | refine NextKeeps.next ?_
    | (intro u hu)
    | apply State.perfWrite_keeps
    | apply State.access_keeps)

theorem execVoltSettled_keeps {s t : State} (h : Keeps s t) : NextKeeps s (execVoltSettled t) := by
  unfold execVoltSettled
  repeat' with_reducible (first
    | assumption
    | refine NextKeeps.next ?_
    | apply State.setFlag_keeps)

theorem State.freqApply_keeps {s t : State} (h : Keeps s t) : Keeps s (State.freqApply t) := by
  unfold State.freqApply
  repeat' with_reducible (first
    | assumption
    | apply State.set_keeps
    | apply Keeps.ite
    | apply Keeps.update)

theorem execFreqChangeApply_keeps {s t : State} (h : Keeps s t) : NextKeeps s (execFreqChangeApply t) := by
  unfold execFreqChangeApply
  repeat' with_reducible (first
    | assumption
    | refine NextKeeps.next ?_
    | apply State.freqApply_keeps)

theorem execResidencySecond_keeps {s t : State} (h : Keeps s t) : NextKeeps s (execResidencySecond t) := by
  unfold execResidencySecond
  repeat' with_reducible (first
    | assumption
    | refine NextKeeps.next ?_
    | apply State.count_keeps
    | apply Keeps.ite)

theorem State.outputsSafe_keeps {s t : State} (h : Keeps s t) : Keeps s (State.outputsSafe t) := by
  unfold State.outputsSafe
  repeat' with_reducible (first
    | assumption
    | apply State.set_keeps
    | apply Keeps.update)

theorem State.entryStart_keeps {s t : State} (h : Keeps s t) (target : Nat) : Keeps s (State.entryStart t target) := by
  unfold State.entryStart
  repeat' with_reducible (first
    | assumption
    | apply State.outputsSafe_keeps
    | apply State.railsRun_keeps
    | apply State.wakeEvents_keeps
    | apply State.powerTo_keeps
    | apply State.storeTestStop_keeps
    | apply State.finishAll_keeps
    | apply State.set_keeps
    | apply Keeps.ite)

theorem execStandbyEntry_keeps {s t : State} (h : Keeps s t) : NextKeeps s (execStandbyEntry t) := by
  unfold execStandbyEntry
  repeat' with_reducible (first
    | assumption
    | refine NextKeeps.next ?_
    | apply State.entryStart_keeps
    | apply Keeps.ite)

theorem State.writePosted_keeps {s t : State} (h : Keeps s t) : Keeps s (State.writePosted t) := by
  unfold State.writePosted
  repeat' with_reducible (first
    | assumption
    | apply State.writeRecord_keeps
    | refine Keeps.foldl ?_ (fun u x hu => ?_)
    | apply Keeps.update)

theorem State.entryEnd_keeps {s t : State} (h : Keeps s t) : Keeps s (State.entryEnd t) := by
  unfold State.entryEnd
  repeat' with_reducible (first
    | assumption
    | (intro x; first | (refine_lift have hx : Keeps s x := ?_; ?_; dsimp only [x]) | (refine_lift have hx : Keeps s x.state := ?_; ?_; dsimp only [x]) | (refine_lift have hx : Keeps s x.2 := ?_; ?_; dsimp only [x]) | (refine_lift have hx : Keeps s x.1 := ?_; ?_; dsimp only [x]) | (clear_value x))
    | (intro u hu)
    | (intro u)
    | (intro u; dsimp only)
    | lift_lets
    | apply State.writePosted_keeps
    | apply State.outputsSafe_keeps
    | apply State.wakeLatched_keeps
    | apply State.wakePulse_keeps
    | apply State.dark_keeps
    | apply State.setLevels_keeps
    | apply State.powerTo_keeps
    | apply State.dropBanks_keeps
    | apply State.storeSleep_keeps
    | apply State.pend_keeps
    | apply State.setFlag_keeps
    | apply State.set_keeps
    | refine Keeps.foldl ?_ (fun u x hu => ?_)
    | split
    | apply Keeps.update
    | apply Keeps.filterStore
    | lift_lets
    | dsimp only)

theorem execStandbyEntryComplete_keeps {s t : State} (h : Keeps s t) : NextKeeps s (execStandbyEntryComplete t) := by
  unfold execStandbyEntryComplete
  repeat' with_reducible (first
    | assumption
    | refine NextKeeps.next ?_
    | exact trivial
    | (intro x; first | (refine_lift have hx : Keeps s x := ?_; ?_; dsimp only [x]) | (refine_lift have hx : Keeps s x.state := ?_; ?_; dsimp only [x]) | (refine_lift have hx : Keeps s x.2 := ?_; ?_; dsimp only [x]) | (refine_lift have hx : Keeps s x.1 := ?_; ?_; dsimp only [x]) | (clear_value x))
    | (intro u hu)
    | (intro u)
    | (intro u; dsimp only)
    | lift_lets
    | apply State.entryEnd_keeps
    | refine Keeps.foldl ?_ (fun u x hu => ?_)
    | apply Keeps.ite
    | split
    | apply Keeps.update
    | apply Keeps.filterStore
    | lift_lets
    | dsimp only)

theorem execStandbyDwellExpire_keeps {s t : State} (h : Keeps s t) : NextKeeps s (execStandbyDwellExpire t) := by
  unfold execStandbyDwellExpire
  repeat' with_reducible (first
    | assumption
    | refine NextKeeps.next ?_
    | apply State.setLevel_keeps
    | apply State.powerTo_keeps
    | apply State.ethDown_keeps
    | apply State.canDown_keeps
    | apply State.dropBanks_keeps
    | apply Keeps.ite
    | apply Keeps.update)

theorem State.logicReady_keeps {s t : State} (h : Keeps s t) : Keeps s (State.logicReady t) := by
  unfold State.logicReady
  repeat' with_reducible (first
    | assumption
    | (intro x; first | (refine_lift have hx : Keeps s x := ?_; ?_; dsimp only [x]) | (refine_lift have hx : Keeps s x.state := ?_; ?_; dsimp only [x]) | (refine_lift have hx : Keeps s x.2 := ?_; ?_; dsimp only [x]) | (refine_lift have hx : Keeps s x.1 := ?_; ?_; dsimp only [x]) | (clear_value x))
    | (intro u hu)
    | (intro u)
    | (intro u; dsimp only)
    | lift_lets
    | apply State.setLevels_keeps
    | apply State.powerTo_keeps
    | apply State.evt_keeps
    | apply State.count_keeps
    | apply State.setFlag_keeps
    | apply State.set_keeps
    | refine Keeps.foldl ?_ (fun u x hu => ?_)
    | apply Keeps.ite
    | split
    | apply Keeps.update
    | apply Keeps.filterStore
    | lift_lets
    | dsimp only)

theorem execWakeStepReady_keeps {s t : State} (h : Keeps s t) : NextKeeps s (execWakeStepReady t) := by
  unfold execWakeStepReady
  repeat' with_reducible (first
    | assumption
    | refine NextKeeps.next ?_
    | exact trivial
    | (intro x; first | (refine_lift have hx : Keeps s x := ?_; ?_; dsimp only [x]) | (refine_lift have hx : Keeps s x.state := ?_; ?_; dsimp only [x]) | (refine_lift have hx : Keeps s x.2 := ?_; ?_; dsimp only [x]) | (refine_lift have hx : Keeps s x.1 := ?_; ?_; dsimp only [x]) | (clear_value x))
    | (intro u hu)
    | (intro u)
    | (intro u; dsimp only)
    | lift_lets
    | apply State.logicReady_keeps
    | apply State.setLevel_keeps
    | apply State.setFlag_keeps
    | refine Keeps.foldl ?_ (fun u x hu => ?_)
    | apply Keeps.ite
    | split
    | apply Keeps.update
    | apply Keeps.filterStore
    | lift_lets
    | dsimp only)

theorem State.safeState_keeps {s t : State} (h : Keeps s t) : Keeps s (State.safeState t) := by
  unfold State.safeState
  repeat' with_reducible (first
    | assumption
    | apply State.setLevels_keeps)

theorem execWakeStepTimeout_keeps {s t : State} (h : Keeps s t) (fail : StepFail) : NextKeeps s (execWakeStepTimeout fail t) := by
  unfold execWakeStepTimeout
  repeat' with_reducible (first
    | assumption
    | refine NextKeeps.next ?_
    | apply State.safeState_keeps
    | apply State.powerTo_keeps
    | apply State.postBy_keeps
    | apply State.showFault_keeps
    | apply State.count_keeps
    | apply State.setFlag_keeps
    | apply State.set_keeps
    | apply Keeps.ite
    | apply Keeps.update)

theorem execWakeRetryWaitEnd_keeps {s t : State} (h : Keeps s t) : NextKeeps s (execWakeRetryWaitEnd t) := by
  unfold execWakeRetryWaitEnd
  repeat' with_reducible (first
    | assumption
    | refine NextKeeps.next ?_
    | apply State.set_keeps
    | apply Keeps.ite
    | apply Keeps.update)

theorem execWakeFailHoldEnd_keeps {s t : State} (h : Keeps s t) : NextKeeps s (execWakeFailHoldEnd t) := by
  unfold execWakeFailHoldEnd
  repeat' with_reducible (first
    | assumption
    | refine NextKeeps.next ?_
    | apply State.wakeLatched_keeps
    | apply State.wakeSteps_keeps
    | apply Keeps.ite
    | apply Keeps.update)

theorem execVmainRise_keeps {s t : State} (h : Keeps s t) : NextKeeps s (execVmainRise t) := by
  unfold execVmainRise
  repeat' with_reducible (first
    | assumption
    | refine NextKeeps.next ?_
    | apply State.wakeSteps_keeps
    | apply State.setFlag_keeps
    | apply Keeps.ite
    | apply Keeps.update)

/-! ## Dio -/

theorem State.diReport_keeps {s t : State} (h : Keeps s t) (i : Nat) (v : Bool) : Keeps s (State.diReport t i v) := by
  unfold State.diReport
  repeat' with_reducible (first
    | assumption
    | apply State.wakeEvents_keeps
    | apply State.evtBit_keeps
    | apply State.putBit_keeps
    | apply Keeps.ite)

theorem execDiDebouncedChange_keeps {s t : State} (h : Keeps s t) (i : Fin 32) (v : Bool) : NextKeeps s (execDiDebouncedChange i v t) := by
  unfold execDiDebouncedChange
  repeat' with_reducible (first
    | assumption
    | refine NextKeeps.next ?_
    | apply State.diReport_keeps
    | apply State.evtBit_keeps
    | apply State.putBit_keeps
    | apply Keeps.ite
    | apply Keeps.update)

theorem execChatterWindowEnd_keeps {s t : State} (h : Keeps s t) (i : Fin 32) : NextKeeps s (execChatterWindowEnd i t) := by
  unfold execChatterWindowEnd
  repeat' with_reducible (first
    | assumption
    | refine NextKeeps.next ?_
    | apply State.diReport_keeps
    | apply State.putBit_keeps
    | apply Keeps.ite
    | apply Keeps.update)

theorem execDiStuck_keeps {s t : State} (h : Keeps s t) (i : Fin 32) : NextKeeps s (execDiStuck i t) := by
  unfold execDiStuck
  repeat' with_reducible (first
    | assumption
    | refine NextKeeps.next ?_
    | apply State.evtBit_keeps
    | apply State.putBit_keeps
    | apply Keeps.ite)

theorem State.driveOutputs_keeps {s t : State} (h : Keeps s t) : Keeps s (State.driveOutputs t) := by
  unfold State.driveOutputs
  repeat' with_reducible (first
    | assumption
    | apply State.driveOutActive_keeps
    | apply State.set_keeps)

theorem State.outWrite_keeps {s t : State} (h : Keeps s t) (v : Nat) : Keeps s (State.outWrite t v) := by
  unfold State.outWrite
  repeat' with_reducible (first
    | assumption
    | apply State.driveOutputs_keeps
    | apply State.set_keeps)

theorem State.outSrcWrite_keeps {s t : State} (h : Keeps s t) (j w : Nat) : Keeps s (State.outSrcWrite t j w) := by
  unfold State.outSrcWrite
  repeat' with_reducible (first
    | assumption
    | apply State.driveOutputs_keeps
    | apply State.set_keeps
    | apply Keeps.ite)

/-! ## Keys -/

theorem State.setSlot_keeps {s t : State} (h : Keeps s t) (k : Nat) (x : KeySlot) : Keeps s (State.setSlot t k x) := by
  unfold State.setSlot
  repeat' with_reducible (first
    | assumption
    | apply Keeps.update)

theorem State.showKeys_keeps {s t : State} (h : Keeps s t) : Keeps s (State.showKeys t) := by
  unfold State.showKeys
  repeat' with_reducible (first
    | assumption
    | apply State.setFlag_keeps
    | apply State.set_keeps
    | refine Keeps.foldl ?_ (fun u x hu => ?_))

theorem State.showEngine_keeps {s t : State} (h : Keeps s t) (e' : Fin 4) (slot version : Nat) : Keeps s (State.showEngine t e' slot version) := by
  unfold State.showEngine
  repeat' with_reducible (first
    | assumption
    | apply State.setFlag_keeps
    | apply State.set_keeps)

theorem State.authFail_keeps {s t : State} (h : Keeps s t) (f : Fld) : Keeps s (State.authFail t f) := by
  unfold State.authFail
  repeat' with_reducible (first
    | assumption
    | apply State.evt_keeps
    | apply State.count_keeps)

theorem State.loadRefused_keeps {s t : State} (h : Keeps s t) : Keeps s (State.loadRefused t) := by
  unfold State.loadRefused
  repeat' with_reducible (first
    | assumption
    | apply State.evt_keeps)

theorem State.keyLoad_keeps {s t : State} (h : Keeps s t) (k : Nat) (e' : Fin 4) (previous : Bool) : Keeps s (State.keyLoad t k e' previous) := by
  unfold State.keyLoad
  repeat' with_reducible (first
    | assumption
    | apply State.loadRefused_keeps
    | apply State.authFail_keeps
    | apply State.showEngine_keeps
    | apply State.post_keeps
    | split
    | apply Keeps.update)

theorem execKloadWrite_keeps {s t : State} (h : Keeps s t) (slot : Fin 16) (engine : Fin 4) (previous : Bool) : NextKeeps s (execKloadWrite slot engine previous t) := by
  unfold execKloadWrite
  repeat' with_reducible (first
    | assumption
    | refine NextKeeps.next ?_
    | (intro u hu)
    | (intro u)
    | (intro u; dsimp only)
    | lift_lets
    | apply State.keyLoad_keeps
    | apply Keeps.ite)

theorem State.loadEngine_keeps {s t : State} (h : Keeps s t) (e' : Fin 4) : Keeps s (State.loadEngine t e') := by
  unfold State.loadEngine
  repeat' with_reducible (first
    | assumption
    | (intro u)
    | (intro u; dsimp only)
    | lift_lets
    | apply State.keyLoad_keeps
    | apply Keeps.ite
    | apply Keeps.update)

theorem State.loadEngines_keeps {s t : State} (h : Keeps s t) : Keeps s (State.loadEngines t) := by
  unfold State.loadEngines
  repeat' with_reducible (first
    | assumption
    | apply State.loadEngine_keeps)

theorem State.startKeys_keeps {s t : State} (h : Keeps s t) : Keeps s (State.startKeys t) := by
  unfold State.startKeys
  repeat' with_reducible (first
    | assumption
    | apply State.loadEngines_keeps
    | apply State.authFail_keeps
    | apply State.showKeys_keeps
    | apply State.setSlot_keeps
    | apply State.post_keeps
    | apply State.evt_keeps
    | refine Keeps.foldl ?_ (fun u x hu => ?_)
    | apply Keeps.ite)

theorem State.keyOpFailed_keeps {s t : State} (h : Keeps s t) (o : KeyOp) (result : Nat) : Keeps s (State.keyOpFailed t o result) := by
  unfold State.keyOpFailed
  repeat' with_reducible (first
    | assumption
    | apply State.post_keeps
    | apply State.evt_keeps
    | apply State.set_keeps
    | apply Keeps.update)

theorem State.ringKeyReplaced_keeps {s t : State} (h : Keeps s t) : Keeps s (State.ringKeyReplaced t) := by
  unfold State.ringKeyReplaced
  repeat' with_reducible (first
    | assumption
    | apply State.topoChange_keeps
    | apply State.setFlag_keeps
    | apply State.set_keeps
    | apply Keeps.ite
    | apply Keeps.update)

theorem State.keyReplace_keeps {s t : State} (h : Keeps s t) (mediaOk : Bool) : Keeps s (State.keyReplace t mediaOk).2.2 := by
  unfold State.keyReplace
  repeat' with_reducible (first
    | assumption
    | (intro x; first | (refine_lift have hx : Keeps s x := ?_; ?_; dsimp only [x]) | (clear_value x))
    | lift_lets
    | apply State.ringKeyReplaced_keeps
    | apply State.keyOpFailed_keeps
    | apply State.loadEngine_keeps
    | apply State.authFail_keeps
    | apply State.showKeys_keeps
    | apply State.setSlot_keeps
    | apply State.post_keeps
    | apply State.evt_keeps
    | apply State.set_keeps
    | refine Keeps.foldl ?_ (fun u x hu => ?_)
    | split
    | apply Keeps.update)

theorem State.setAuthSource_keeps {s t : State} (h : Keeps s t) (x : AuthSource) : Keeps s (State.setAuthSource t x) := by
  unfold State.setAuthSource
  repeat' with_reducible (first
    | assumption
    | apply Keeps.update)

theorem State.newChallenge_keeps {s t : State} (h : Keeps s t) (ch : Nat) (uid : DWord) : Keeps s (State.newChallenge t ch uid).2 := by
  unfold State.newChallenge
  repeat' with_reducible (first
    | assumption
    | apply State.fresh_keeps
    | apply Keeps.update)

theorem State.authBlockFailed_keeps {s t : State} (h : Keeps s t) (ch : Nat) (uid : DWord) (opcode : Nat) : Keeps s (State.authBlockFailed t ch uid opcode) := by
  unfold State.authBlockFailed
  repeat' with_reducible (first
    | assumption
    | apply State.setAuthSource_keeps
    | apply State.authFail_keeps
    | apply State.post_keeps
    | apply Keeps.ite)

theorem State.authCheck_keeps {s t : State} (h : Keeps s t) (ch : Nat) (uid : DWord) (opcode len cfgver : Nat) (data : List Nat) : Keeps s (State.authCheck t ch uid opcode len cfgver data).2 := by
  unfold State.authCheck
  repeat' with_reducible (first
    | assumption
    | lift_lets
    | apply State.authBlockFailed_keeps
    | apply State.setAuthSource_keeps
    | split
    | apply Keeps.update)

theorem State.authCheck_keeps_eq {s t u : State} (h : Keeps s t) {ch : Nat} {uid : DWord} {opcode len cfgver : Nat} {data : List Nat} {z} (e : State.authCheck t ch uid opcode len cfgver data = (z, u)) : Keeps s u := by
  have k := State.authCheck_keeps h ch uid opcode len cfgver data
  rw [e] at k; exact k

theorem State.tamperHold_keeps {s t : State} (h : Keeps s t) : Keeps s (State.tamperHold t) := by
  unfold State.tamperHold
  repeat' with_reducible (first
    | assumption
    | apply State.post_keeps
    | apply State.setFlag_keeps
    | apply State.set_keeps
    | apply Keeps.ite)

theorem State.tamperRunning_keeps {s t : State} (h : Keeps s t) : Keeps s (State.tamperRunning t) := by
  unfold State.tamperRunning
  repeat' with_reducible (first
    | assumption
    | apply State.keyOpFailed_keeps
    | apply State.finishAll_keeps
    | apply State.inaugAbandon_keeps
    | apply State.topoChange_keeps
    | split
    | apply Keeps.update)

theorem execTamperDetect_keeps {s t : State} (h : Keeps s t) (cause : Fin 5) : NextKeeps s (execTamperDetect cause t) := by
  unfold execTamperDetect
  repeat' with_reducible (first
    | assumption
    | refine NextKeeps.next ?_
    | apply State.tamperRunning_keeps
    | apply State.tamperHold_keeps
    | apply State.showEngine_keeps
    | apply State.showKeys_keeps
    | apply State.wakeEvents_keeps
    | apply State.recShow_keeps
    | apply State.postBy_keeps
    | apply State.faultCause_keeps
    | apply State.evt_keeps
    | apply State.putBit_keeps
    | apply State.count_keeps
    | apply State.setFlag_keeps
    | refine Keeps.foldl ?_ (fun u x hu => ?_)
    | apply Keeps.ite
    | apply Keeps.update)

theorem execTamperCauseEnd_keeps {s t : State} (h : Keeps s t) (cause : Fin 5) : NextKeeps s (execTamperCauseEnd cause t) := by
  unfold execTamperCauseEnd
  repeat' with_reducible (first
    | assumption
    | refine NextKeeps.next ?_
    | apply State.setFlag_keeps
    | apply Keeps.update)

theorem State.tamperClear_keeps {s t : State} (h : Keeps s t) : Keeps s (State.tamperClear t).2 := by
  unfold State.tamperClear
  repeat' with_reducible (first
    | assumption
    | apply State.loadEngines_keeps
    | apply State.showKeys_keeps
    | apply State.recShow_keeps
    | apply State.postBy_keeps
    | apply State.faultCause_keeps
    | apply State.evt_keeps
    | apply State.setFlag_keeps
    | apply State.set_keeps
    | apply Keeps.ite
    | apply Keeps.update)

/-! ## Units -/

theorem State.setUnit_keeps {s t : State} (h : Keeps s t) (u' : UnitSt) : Keeps s (State.setUnit t u') := by
  unfold State.setUnit
  repeat' with_reducible (first
    | assumption
    | apply Keeps.update)

theorem State.unitHw_keeps {s t : State} (h : Keeps s t) (id : Nat) (on : Bool) : Keeps s (State.unitHw t id on) := by
  unfold State.unitHw
  repeat' with_reducible (first
    | assumption
    | (intro u hu)
    | lift_lets
    | apply State.railsRun_keeps
    | apply State.stackEnable_keeps
    | apply linkDisable_keeps
    | apply State.streamEnable_keeps
    | apply State.ethEnable_keeps
    | apply State.canEnable_keeps
    | apply State.setZone_keeps
    | apply State.pdmClocks_keeps
    | apply State.tdmDisable_keeps
    | apply State.tdmEnable_keeps
    | apply State.setFlag_keeps
    | apply State.set_keeps
    | split)

theorem State.showUnits_keeps {s t : State} (h : Keeps s t) : Keeps s (State.showUnits t) := by
  unfold State.showUnits
  repeat' with_reducible (first
    | assumption
    | apply State.set_keeps)

theorem State.unitTo_keeps {s t : State} (h : Keeps s t) (id m : Nat) : Keeps s (State.unitTo t id m) := by
  unfold State.unitTo
  repeat' with_reducible (first
    | assumption
    | apply State.showUnits_keeps
    | apply State.setUnit_keeps
    | apply State.notify_keeps
    | apply State.evt_keeps
    | apply Keeps.ite)

theorem State.unitFaulted_keeps {s t : State} (h : Keeps s t) (id cause : Nat) : Keeps s (State.unitFaulted t id cause) := by
  unfold State.unitFaulted
  repeat' with_reducible (first
    | assumption
    | apply State.unitTo_keeps
    | apply State.setUnit_keeps
    | apply State.post_keeps
    | apply State.evt_keeps)

theorem State.unitLook_keeps {s t : State} (h : Keeps s t) (id : Nat) : Keeps s (State.unitLook t id) := by
  unfold State.unitLook
  repeat' with_reducible (first
    | assumption
    | apply State.setUnit_keeps
    | apply Keeps.ite)

theorem State.unitDone_keeps {s t : State} (h : Keeps s t) (id : Nat) (enable : Bool) (status : Nat) : Keeps s (State.unitDone t id enable status) := by
  unfold State.unitDone
  repeat' with_reducible (first
    | assumption
    | apply State.finish_keeps
    | refine Keeps.foldl ?_ (fun u x hu => ?_))

theorem State.unitStart_keeps {s t : State} (h : Keeps s t) (id : Nat) : Keeps s (State.unitStart t id) := by
  unfold State.unitStart
  repeat' with_reducible (first
    | assumption
    | apply State.unitDone_keeps
    | apply State.unitLook_keeps
    | apply State.unitTo_keeps
    | apply State.unitHw_keeps
    | apply Keeps.ite)

theorem State.unitOff_keeps {s t : State} (h : Keeps s t) (id : Nat) : Keeps s (State.unitOff t id) := by
  unfold State.unitOff
  repeat' with_reducible (first
    | assumption
    | apply State.unitDone_keeps
    | apply State.unitLook_keeps
    | apply State.unitTo_keeps
    | apply State.unitHw_keeps
    | apply State.setUnit_keeps
    | apply Keeps.ite)

theorem State.unitStep_keeps {s t : State} (h : Keeps s t) (id : Nat) : Keeps s (State.unitStep t id) := by
  unfold State.unitStep
  repeat' with_reducible (first
    | assumption
    | apply State.unitOff_keeps
    | apply State.unitDone_keeps
    | apply State.unitLook_keeps
    | apply State.unitTo_keeps
    | apply Keeps.ite)

theorem State.unitEnable_keeps {s t : State} (h : Keeps s t) (id : Nat) : Keeps s (State.unitEnable t id) := by
  unfold State.unitEnable
  repeat' with_reducible (first
    | assumption
    | (intro x; clear_value x)
    | lift_lets
    | apply State.unitStart_keeps
    | apply State.unitDone_keeps
    | apply State.setUnit_keeps
    | split)

theorem State.unitStop_keeps {s t : State} (h : Keeps s t) (id : Nat) : Keeps s (State.unitStop t id) := by
  unfold State.unitStop
  repeat' with_reducible (first
    | assumption
    | apply State.unitStep_keeps
    | apply State.unitTo_keeps
    | apply State.unitHw_keeps)

theorem State.unitDisable_keeps {s t : State} (h : Keeps s t) (id : Nat) : Keeps s (State.unitDisable t id) := by
  unfold State.unitDisable
  repeat' with_reducible (first
    | assumption
    | apply State.unitStop_keeps
    | apply State.unitDone_keeps
    | apply State.setUnit_keeps
    | apply Keeps.ite)

theorem execDpStateReached_keeps {s t : State} (h : Keeps s t) (id : Nat) : NextKeeps s (execDpStateReached id t) := by
  unfold execDpStateReached
  repeat' with_reducible (first
    | assumption
    | refine NextKeeps.next ?_
    | apply State.unitStep_keeps
    | apply Keeps.ite)

theorem execUnitStartLimit_keeps {s t : State} (h : Keeps s t) (id : Nat) : NextKeeps s (execUnitStartLimit id t) := by
  unfold execUnitStartLimit
  repeat' with_reducible (first
    | assumption
    | refine NextKeeps.next ?_
    | apply State.unitStep_keeps
    | apply State.unitDone_keeps
    | apply State.unitLook_keeps
    | apply State.unitFaulted_keeps
    | apply State.unitHw_keeps
    | apply Keeps.ite)

theorem execUnitStopLimit_keeps {s t : State} (h : Keeps s t) (id : Nat) : NextKeeps s (execUnitStopLimit id t) := by
  unfold execUnitStopLimit
  repeat' with_reducible (first
    | assumption
    | refine NextKeeps.next ?_
    | apply State.unitStep_keeps
    | apply State.unitDone_keeps
    | apply State.unitLook_keeps
    | apply State.unitFaulted_keeps
    | apply Keeps.ite)

theorem execUnitDivergence_keeps {s t : State} (h : Keeps s t) (id : Nat) : NextKeeps s (execUnitDivergence id t) := by
  unfold execUnitDivergence
  repeat' with_reducible (first
    | assumption
    | refine NextKeeps.next ?_
    | apply State.unitLook_keeps
    | apply State.showUnits_keeps
    | apply State.unitHw_keeps
    | apply State.setUnit_keeps
    | apply State.post_keeps
    | apply State.evt_keeps
    | apply State.count_keeps
    | apply Keeps.ite)

theorem execUnitDivergencePersist_keeps {s t : State} (h : Keeps s t) (id : Nat) : NextKeeps s (execUnitDivergencePersist id t) := by
  unfold execUnitDivergencePersist
  repeat' with_reducible (first
    | assumption
    | refine NextKeeps.next ?_
    | apply State.unitLook_keeps
    | apply State.unitFaulted_keeps
    | apply State.showUnits_keeps
    | apply State.setUnit_keeps
    | apply Keeps.ite)

theorem State.unitsTick_keeps {s t : State} (h : Keeps s t) : Keeps s (State.unitsTick t) := by
  unfold State.unitsTick
  repeat' with_reducible (first
    | assumption
    | apply State.unitLook_keeps
    | apply State.showUnits_keeps
    | apply State.setUnit_keeps
    | refine Keeps.foldl ?_ (fun u x hu => ?_)
    | apply Keeps.ite)

theorem State.remoteUnits_keeps {s t : State} (h : Keeps s t) : Keeps s (State.remoteUnits t) := by
  unfold State.remoteUnits
  repeat' with_reducible (first
    | assumption
    | apply State.unitTo_keeps
    | apply State.setUnit_keeps
    | refine Keeps.foldl ?_ (fun u x hu => ?_)
    | apply Keeps.ite)

/-! ## NetSleep -/

theorem State.wakeRequest_keeps {s t : State} (h : Keeps s t) (reason : Nat) : Keeps s (State.wakeRequest t reason) := by
  unfold State.wakeRequest
  repeat' with_reducible (first
    | assumption
    | apply State.setFlag_keeps
    | apply Keeps.ite
    | apply Keeps.update)

theorem State.holdsNow_keeps {s t : State} (h : Keeps s t) : Keeps s (State.holdsNow t) := by
  unfold State.holdsNow
  repeat' with_reducible (first
    | assumption
    | (intro x; first | (refine_lift have hx : Keeps s x := ?_; ?_; dsimp only [x]) | (clear_value x))
    | lift_lets
    | apply State.wakeRequest_keeps
    | apply State.setFlag_keeps
    | apply State.set_keeps
    | split)

theorem State.showHolders_keeps {s t : State} (h : Keeps s t) : Keeps s (State.showHolders t) := by
  unfold State.showHolders
  repeat' with_reducible (first
    | assumption
    | apply State.set64_keeps
    | apply State.set_keeps)

theorem State.withdraw_keeps {s t : State} (h : Keeps s t) (p reason : Nat) : Keeps s (State.withdraw t p reason) := by
  unfold State.withdraw
  repeat' with_reducible (first
    | assumption
    | apply State.post_keeps
    | apply State.evt_keeps
    | apply State.set_keeps
    | apply Keeps.update)

theorem State.proposalMerge_keeps {s t : State} (h : Keeps s t) : Keeps s (State.proposalMerge t) := by
  unfold State.proposalMerge
  repeat' with_reducible (first
    | assumption
    | apply State.withdraw_keeps
    | apply State.agreeSleep_keeps
    | apply State.post_keeps
    | apply State.set_keeps
    | refine Keeps.foldl ?_ (fun u x hu => ?_)
    | split
    | apply Keeps.update)

theorem State.netMerge_keeps {s t : State} (h : Keeps s t) : Keeps s (State.netMerge t) := by
  unfold State.netMerge
  repeat' with_reducible (first
    | assumption
    | apply State.proposalMerge_keeps
    | apply State.showHolders_keeps
    | apply State.set_keeps
    | apply Keeps.ite
    | apply Keeps.update)

theorem execIdleCountExpire_keeps {s t : State} (h : Keeps s t) : NextKeeps s (execIdleCountExpire t) := by
  unfold execIdleCountExpire
  repeat' with_reducible (first
    | assumption
    | refine NextKeeps.next ?_
    | apply State.evt_keeps
    | apply State.set_keeps
    | apply Keeps.ite
    | apply Keeps.update)

theorem execSleepAckTimeout_keeps {s t : State} (h : Keeps s t) : NextKeeps s (execSleepAckTimeout t) := by
  unfold execSleepAckTimeout
  repeat' with_reducible (first
    | assumption
    | refine NextKeeps.next ?_
    | apply State.withdraw_keeps
    | split)

theorem State.netFrame_keeps {s t : State} (h : Keeps s t) (b : Bytes) : Keeps s (State.netFrame t b) := by
  unfold State.netFrame
  repeat' with_reducible (first
    | assumption
    | apply State.validComm_keeps
    | apply State.agreeSleep_keeps
    | apply State.evt_keeps
    | apply State.set_keeps
    | apply Keeps.ite
    | apply Keeps.update)

theorem execSleepTick_keeps {s t : State} (h : Keeps s t) : NextKeeps s (execSleepTick t) := by
  unfold execSleepTick
  repeat' with_reducible (first
    | assumption
    | refine NextKeeps.next ?_
    | apply State.entryStart_keeps
    | apply Keeps.ite)

theorem execWakeInAssert_keeps {s t : State} (h : Keeps s t) : NextKeeps s (execWakeInAssert t) := by
  unfold execWakeInAssert
  repeat' with_reducible (first
    | assumption
    | refine NextKeeps.next ?_
    | apply State.wakeEvents_keeps
    | apply State.setFlag_keeps
    | apply Keeps.ite
    | apply Keeps.update)

theorem execWakeInDeassert_keeps {s t : State} (h : Keeps s t) : NextKeeps s (execWakeInDeassert t) := by
  unfold execWakeInDeassert
  repeat' with_reducible (first
    | assumption
    | refine NextKeeps.next ?_
    | apply State.count_keeps
    | apply State.setFlag_keeps
    | apply Keeps.ite
    | apply Keeps.update)

theorem execWakeInStuck_keeps {s t : State} (h : Keeps s t) : NextKeeps s (execWakeInStuck t) := by
  unfold execWakeInStuck
  repeat' with_reducible (first
    | assumption
    | refine NextKeeps.next ?_
    | apply State.postBy_keeps
    | apply State.evt_keeps
    | apply Keeps.ite
    | apply Keeps.update)

theorem execWakeOutPulseEnd_keeps {s t : State} (h : Keeps s t) : NextKeeps s (execWakeOutPulseEnd t) := by
  unfold execWakeOutPulseEnd
  repeat' with_reducible (first
    | assumption
    | refine NextKeeps.next ?_
    | apply State.setFlag_keeps)

theorem execHeldTimeRecord_keeps {s t : State} (h : Keeps s t) : NextKeeps s (execHeldTimeRecord t) := by
  unfold execHeldTimeRecord
  repeat' with_reducible (first
    | assumption
    | refine NextKeeps.next ?_
    | apply State.post_keeps
    | apply State.evt_keeps
    | apply State.count_keeps
    | refine Keeps.foldl ?_ (fun u x hu => ?_)
    | apply Keeps.ite)

theorem State.validateStart_keeps {s t : State} (h : Keeps s t) : Keeps s (State.validateStart t) := by
  unfold State.validateStart
  repeat' with_reducible (first
    | assumption
    | apply State.set_keeps
    | apply Keeps.ite
    | apply Keeps.update)

theorem execWakeValidExpire_keeps {s t : State} (h : Keeps s t) : NextKeeps s (execWakeValidExpire t) := by
  unfold execWakeValidExpire
  repeat' with_reducible (first
    | assumption
    | refine NextKeeps.next ?_
    | apply State.post_keeps
    | apply State.evt_keeps
    | apply State.count_keeps
    | apply State.set_keeps
    | apply Keeps.ite
    | apply Keeps.update)

theorem State.loneTick_keeps {s t : State} (h : Keeps s t) : Keeps s (State.loneTick t) := by
  unfold State.loneTick
  repeat' with_reducible (first
    | assumption
    | apply Keeps.ite
    | apply Keeps.update)

theorem execLoneCountExpire_keeps {s t : State} (h : Keeps s t) : NextKeeps s (execLoneCountExpire t) := by
  unfold execLoneCountExpire
  repeat' with_reducible (first
    | assumption
    | refine NextKeeps.next ?_
    | apply State.entryStart_keeps
    | apply State.post_keeps
    | apply State.evt_keeps
    | apply Keeps.ite)

theorem State.cabLevel_keeps {s t : State} (h : Keeps s t) (on : Bool) : Keeps s (State.cabLevel t on) := by
  unfold State.cabLevel
  repeat' with_reducible (first
    | assumption
    | apply State.holdsNow_keeps
    | apply Keeps.update)

/-! ## Domains -/

theorem State.showLoad_keeps {s t : State} (h : Keeps s t) : Keeps s (State.showLoad t) := by
  unfold State.showLoad
  repeat' with_reducible (first
    | assumption
    | apply State.set_keeps
    | refine Keeps.foldl ?_ (fun u x hu => ?_))

theorem State.addJob_keeps {s t : State} (h : Keeps s t) (opcode index cost : Nat) (sinks : List Nat) : Keeps s (State.addJob t opcode index cost sinks) := by
  unfold State.addJob
  repeat' with_reducible (first
    | assumption
    | apply State.showLoad_keeps
    | split
    | apply Keeps.update)

theorem State.dropJob_keeps {s t : State} (h : Keeps s t) (opcode index : Nat) : Keeps s (State.dropJob t opcode index) := by
  unfold State.dropJob
  repeat' with_reducible (first
    | assumption
    | apply State.showLoad_keeps
    | apply Keeps.update)

theorem State.showVotes_keeps {s t : State} (h : Keeps s t) : Keeps s (State.showVotes t) := by
  unfold State.showVotes
  repeat' with_reducible (first
    | assumption
    | apply State.setFlag_keeps
    | apply State.set_keeps
    | refine Keeps.foldl ?_ (fun u x hu => ?_))

theorem State.clearRegs_keeps {s t : State} (h : Keeps s t) (p : Nat → Bool) : Keeps s (State.clearRegs t p) :=
  ⟨h.1, h.2, fun x => Sparse.wf_filter resetWord _ t.regs (h.3 x), h.4⟩

theorem State.dspDown_keeps {s t : State} (h : Keeps s t) : Keeps s (State.dspDown t) := by
  unfold State.dspDown
  repeat' with_reducible (first
    | assumption
    | apply State.clearRegs_keeps
    | apply State.setFlag_keeps
    | apply State.set_keeps
    | apply State.setWord_keeps
    | refine Keeps.foldl ?_ (fun u x hu => ?_)
    | apply Keeps.update)

theorem State.ringDown_keeps {s t : State} (h : Keeps s t) : Keeps s (State.ringDown t) := by
  unfold State.ringDown
  repeat' with_reducible (first
    | assumption
    | apply State.setFlag_keeps
    | apply State.resetRegs_keeps
    | apply Keeps.update)

theorem State.secDown_keeps {s t : State} (h : Keeps s t) : Keeps s (State.secDown t) := by
  unfold State.secDown
  repeat' with_reducible (first
    | assumption
    | apply State.clearRegs_keeps
    | apply State.setFlag_keeps
    | apply State.set_keeps
    | apply Keeps.update)

theorem State.pcieOff_keeps {s t : State} (h : Keeps s t) : Keeps s (State.pcieOff t) := by
  unfold State.pcieOff
  repeat' with_reducible (first
    | assumption
    | apply State.pcieDown_keeps
    | apply State.irqLevel_keeps
    | apply State.setFlag_keeps
    | apply Keeps.ite
    | apply Keeps.update)

theorem State.startLinks_keeps {s t : State} (h : Keeps s t) : Keeps s (State.startLinks t) := by
  unfold State.startLinks
  repeat' with_reducible (first
    | assumption
    | apply State.linkTo_keeps
    | refine Keeps.foldl ?_ (fun u x hu => ?_)
    | apply Keeps.ite)

theorem State.startStack_keeps {s t : State} (h : Keeps s t) : Keeps s (State.startStack t) := by
  unfold State.startStack
  repeat' with_reducible (first
    | assumption
    | apply State.stackEnable_keeps)

theorem State.dropDomain_keeps {s t : State} (h : Keeps s t) (d : Nat) : Keeps s (State.dropDomain t d) := by
  unfold State.dropDomain
  repeat' with_reducible (first
    | assumption
    | apply State.pcieOff_keeps
    | apply State.secDown_keeps
    | apply State.ringDown_keeps
    | apply State.dspDown_keeps
    | apply State.clearRegs_keeps
    | apply State.setLevel_keeps
    | apply State.stackDown_keeps
    | apply State.ethDown_keeps
    | apply State.canDown_keeps
    | split
    | apply Keeps.update)

theorem State.raiseDomain_keeps {s t : State} (h : Keeps s t) (d : Nat) : Keeps s (State.raiseDomain t d) := by
  unfold State.raiseDomain
  repeat' with_reducible (first
    | assumption
    | apply State.startStack_keeps
    | apply State.startLinks_keeps
    | apply State.loadEngines_keeps
    | apply State.setLevel_keeps
    | apply State.canUp_keeps
    | split)

theorem State.followVotes_keeps {s t : State} (h : Keeps s t) : Keeps s (State.followVotes t) := by
  unfold State.followVotes
  repeat' with_reducible (first
    | assumption
    | apply State.raiseDomain_keeps
    | apply State.dropDomain_keeps
    | refine Keeps.foldl ?_ (fun u x hu => ?_)
    | apply Keeps.ite)

theorem State.votesTick_keeps {s t : State} (h : Keeps s t) : Keeps s (State.votesTick t) := by
  unfold State.votesTick
  repeat' with_reducible (first
    | assumption
    | apply State.followVotes_keeps
    | apply State.showVotes_keeps
    | apply Keeps.ite
    | apply Keeps.update)

theorem State.hostVote_keeps {s t : State} (h : Keeps s t) (votes : Nat) : Keeps s (State.hostVote t votes) := by
  unfold State.hostVote
  repeat' with_reducible (first
    | assumption
    | apply State.followVotes_keeps
    | apply State.showVotes_keeps
    | apply State.set_keeps
    | apply Keeps.ite)

theorem execHostVoteWrite_keeps {s t : State} (h : Keeps s t) (votes : Fin 2048) : NextKeeps s (execHostVoteWrite votes t) := by
  unfold execHostVoteWrite
  repeat' with_reducible (first
    | assumption
    | refine NextKeeps.next ?_
    | (intro u hu)
    | apply State.hostVote_keeps
    | apply State.access_keeps)

theorem State.pointTo_keeps {s t : State} (h : Keeps s t) (pt : Nat) : Keeps s (State.pointTo t pt) := by
  unfold State.pointTo
  repeat' with_reducible (first
    | assumption
    | apply State.set_keeps
    | apply Keeps.ite
    | apply Keeps.update)

theorem State.toQuiet_keeps {s t : State} (h : Keeps s t) : Keeps s (State.toQuiet t) := by
  unfold State.toQuiet
  repeat' with_reducible (first
    | assumption
    | apply State.pointTo_keeps
    | apply State.followVotes_keeps
    | apply State.showVotes_keeps
    | apply State.showLoad_keeps
    | apply State.powerTo_keeps
    | apply Keeps.update)

theorem State.toActive_keeps {s t : State} (h : Keeps s t) : Keeps s (State.toActive t) := by
  unfold State.toActive
  repeat' with_reducible (first
    | assumption
    | apply State.pointTo_keeps
    | apply State.raiseDomain_keeps
    | apply State.showVotes_keeps
    | apply State.showLoad_keeps
    | apply State.powerTo_keeps
    | refine Keeps.foldl ?_ (fun u x hu => ?_)
    | apply Keeps.ite
    | apply Keeps.update)

/-! ## Intc -/

theorem State.pendWrite_keeps {s t : State} (h : Keeps s t) (hi : Bool) (w : Nat) : Keeps s (State.pendWrite t hi w) := by
  unfold State.pendWrite
  repeat' with_reducible (first
    | assumption
    | apply State.pend_keeps
    | apply State.irqLevel_keeps
    | apply State.putBit_keeps
    | refine Keeps.foldl ?_ (fun u x hu => ?_)
    | apply Keeps.ite)

theorem execIntcPendWrite_keeps {s t : State} (h : Keeps s t) (hi : Bool) (w : Word) : NextKeeps s (execIntcPendWrite hi w t) := by
  unfold execIntcPendWrite
  repeat' with_reducible (first
    | assumption
    | refine NextKeeps.next ?_
    | (intro u hu)
    | apply State.pendWrite_keeps
    | apply State.access_keeps)

theorem State.enWrite_keeps {s t : State} (h : Keeps s t) (hi : Bool) (w : Nat) : Keeps s (State.enWrite t hi w) := by
  unfold State.enWrite
  repeat' with_reducible (first
    | assumption
    | apply State.irqLevel_keeps
    | apply State.statSet_keeps
    | apply State.set_keeps
    | refine Keeps.foldl ?_ (fun u x hu => ?_))

theorem execIntcEnWrite_keeps {s t : State} (h : Keeps s t) (hi : Bool) (w : Word) : NextKeeps s (execIntcEnWrite hi w t) := by
  unfold execIntcEnWrite
  repeat' with_reducible (first
    | assumption
    | refine NextKeeps.next ?_
    | (intro u hu)
    | apply State.enWrite_keeps
    | apply State.access_keeps)

theorem State.forceWrite_keeps {s t : State} (h : Keeps s t) (hi : Bool) (w : Nat) : Keeps s (State.forceWrite t hi w) := by
  unfold State.forceWrite
  repeat' with_reducible (first
    | assumption
    | apply State.setPend_keeps
    | refine Keeps.foldl ?_ (fun u x hu => ?_)
    | apply Keeps.ite)

theorem execIntcForceWrite_keeps {s t : State} (h : Keeps s t) (hi : Bool) (w : Word) : NextKeeps s (execIntcForceWrite hi w t) := by
  unfold execIntcForceWrite
  repeat' with_reducible (first
    | assumption
    | refine NextKeeps.next ?_
    | (intro u hu)
    | apply State.forceWrite_keeps
    | apply State.access_keeps)

theorem State.vectorMask_keeps {s t : State} (h : Keeps s t) (n : Nat) (masked : Bool) : Keeps s (State.vectorMask t n masked) := by
  unfold State.vectorMask
  repeat' with_reducible (first
    | assumption
    | apply State.msixFlush_keeps
    | apply Keeps.update)

theorem execMsixUnmask_keeps {s t : State} (h : Keeps s t) (vector : Option (Fin 64)) : NextKeeps s (execMsixUnmask vector t) := by
  unfold execMsixUnmask
  repeat' with_reducible (first
    | assumption
    | refine NextKeeps.next ?_
    | apply State.vectorMask_keeps
    | apply State.msixControl_keeps
    | split)

theorem State.pendAll_keeps {s t : State} (h : Keeps s t) : Keeps s (State.pendAll t) := by
  unfold State.pendAll
  repeat' with_reducible (first
    | assumption
    | apply State.pend_keeps
    | refine Keeps.foldl ?_ (fun u x hu => ?_)
    | apply Keeps.ite)

/-! ## SelfTest -/

theorem execStoreTestDone_keeps {s t : State} (h : Keeps s t) (errors first : Nat) : NextKeeps s (execStoreTestDone errors first t) := by
  unfold execStoreTestDone
  repeat' with_reducible (first
    | assumption
    | refine NextKeeps.next ?_
    | apply State.storeTestEnd_keeps)

theorem State.elaneWrite_keeps {s t : State} (h : Keeps s t) (port mode : Nat) (inject : Bool) : Keeps s (State.elaneWrite t port mode inject) := by
  unfold State.elaneWrite
  repeat' with_reducible (first
    | assumption
    | apply State.emit_keeps
    | apply State.count_keeps
    | apply State.setFlag_keeps
    | apply State.set_keeps
    | apply Keeps.ite)

theorem execElaneModeWrite_keeps {s t : State} (h : Keeps s t) (port : Fin 2) (mode : Fin 4) (inject : Bool) : NextKeeps s (execElaneModeWrite port mode inject t) := by
  unfold execElaneModeWrite
  repeat' with_reducible (first
    | assumption
    | refine NextKeeps.next ?_
    | (intro u hu)
    | apply State.elaneWrite_keeps
    | apply State.access_keeps)

/-! ## Regs -/

theorem State.measured_keeps {s t : State} (h : Keeps s t) (off : Nat) (w : Word) : Keeps s (State.measured t off w).2 := by
  unfold State.measured
  repeat' with_reducible (first
    | assumption
    | refine State.fresh_keeps_eq ?_ (by assumption)
    | split)

theorem State.readClear_keeps {s t : State} (h : Keeps s t) (off : Nat) : Keeps s (State.readClear t off) := by
  unfold State.readClear
  repeat' with_reducible (first
    | assumption
    | apply State.setWord_keeps)

theorem State.regRead_keeps {s t : State} (h : Keeps s t) (off phaseNs : Nat) : Keeps s (State.regRead t off phaseNs).2 := by
  unfold State.regRead
  repeat' with_reducible (first
    | assumption
    | apply State.readClear_keeps
    | apply State.measured_keeps
    | apply State.tsqRead_keeps
    | apply State.semRead_keeps
    | split
    | apply Keeps.update)

theorem State.readBytes_keeps {s t : State} (h : Keeps s t) (addr n phaseNs : Nat) : Keeps s (State.readBytes t addr n phaseNs).2 := by
  unfold State.readBytes
  repeat' with_reducible (first
    | assumption
    | (intro x; refine_lift have hx : Keeps s x := ?_; ?_; dsimp only [x])
    | (intro u)
    | lift_lets
    | apply State.regRead_keeps
    | split
    | apply Keeps.update)

theorem State.hostRegRead_keeps {s t : State} (h : Keeps s t) (addr n phaseNs : Nat) : Keeps s (State.hostRegRead t addr n phaseNs) := by
  unfold State.hostRegRead
  repeat' with_reducible (first
    | assumption
    | apply State.readBytes_keeps
    | apply State.emit_keeps)

theorem execRcFieldRead_keeps {s t : State} (h : Keeps s t) (addr n : Nat) (phaseNs : Fin 20854) : NextKeeps s (execRcFieldRead addr n phaseNs t) := by
  unfold execRcFieldRead
  repeat' with_reducible (first
    | assumption
    | refine NextKeeps.next ?_
    | apply State.hostRegRead_keeps)

theorem execTickSeqRead_keeps {s t : State} (h : Keeps s t) (phaseNs : Fin 20854) : NextKeeps s (execTickSeqRead phaseNs t) := by
  unfold execTickSeqRead
  repeat' with_reducible (first
    | assumption
    | refine NextKeeps.next ?_
    | apply State.hostRegRead_keeps)

theorem execSyncTimeLoRead_keeps {s t : State} (h : Keeps s t) (phaseNs : Fin 20854) : NextKeeps s (execSyncTimeLoRead phaseNs t) := by
  unfold execSyncTimeLoRead
  repeat' with_reducible (first
    | assumption
    | refine NextKeeps.next ?_
    | apply State.hostRegRead_keeps)

theorem execPtpTimeLoRead_keeps {s t : State} (h : Keeps s t) (phaseNs : Fin 20854) : NextKeeps s (execPtpTimeLoRead phaseNs t) := by
  unfold execPtpTimeLoRead
  repeat' with_reducible (first
    | assumption
    | refine NextKeeps.next ?_
    | apply State.hostRegRead_keeps)

theorem execRtcLoRead_keeps {s t : State} (h : Keeps s t) (phaseNs : Fin 20854) : NextKeeps s (execRtcLoRead phaseNs t) := by
  unfold execRtcLoRead
  repeat' with_reducible (first
    | assumption
    | refine NextKeeps.next ?_
    | apply State.hostRegRead_keeps)

theorem State.plain_keeps {s t : State} (h : Keeps s t) (off : Nat) (w : Word) (locked : Bool) : Keeps s (State.plain t off w locked) := by
  unfold State.plain
  repeat' with_reducible (first
    | assumption
    | apply State.setWord_keeps)

theorem State.lineEnWrite_keeps {s t : State} (h : Keeps s t) (w : Word) : Keeps s (State.lineEnWrite t w) := by
  unfold State.lineEnWrite
  repeat' with_reducible (first
    | assumption
    | apply State.plain_keeps
    | apply State.linkLost_keeps
    | apply State.linkTo_keeps
    | refine Keeps.foldl ?_ (fun u x hu => ?_)
    | apply Keeps.ite)

theorem State.linkCtrlWrite_keeps {s t : State} (h : Keeps s t) (w : Word) : Keeps s (State.linkCtrlWrite t w) := by
  unfold State.linkCtrlWrite
  repeat' with_reducible (first
    | assumption
    | apply linkRetrain_keeps
    | apply linkDisable_keeps
    | refine Keeps.foldl ?_ (fun u x hu => ?_)
    | apply Keeps.ite)

theorem State.inaugCfgWrite_keeps {s t : State} (h : Keeps s t) (w : Word) : Keeps s (State.inaugCfgWrite t w) := by
  unfold State.inaugCfgWrite
  repeat' with_reducible (first
    | assumption
    | apply State.plain_keeps
    | apply State.set_keeps
    | apply Keeps.ite)

theorem State.ringWrite_keeps {s t : State} (h : Keeps s t) (off : Nat) (w : Word) : Keeps s (State.ringWrite t off w) := by
  unfold State.ringWrite
  repeat' with_reducible (first
    | assumption
    | apply State.inaugCfgWrite_keeps
    | apply State.linkCtrlWrite_keeps
    | apply State.lineEnWrite_keeps
    | apply State.plain_keeps
    | apply State.prbsInject_keeps
    | apply laneTestMode_keeps
    | split)

theorem State.ptpOfsWrite_keeps {s t : State} (h : Keeps s t) (w : Word) : Keeps s (State.ptpOfsWrite t w) := by
  unfold State.ptpOfsWrite
  repeat' with_reducible (first
    | assumption
    | apply State.setWord_keeps
    | apply Keeps.update)

theorem State.audWrite_keeps {s t : State} (h : Keeps s t) (off : Nat) (w : Word) : Keeps s (State.audWrite t off w) := by
  unfold State.audWrite
  repeat' with_reducible (first
    | assumption
    | apply State.plain_keeps
    | apply State.pdmClocks_keeps
    | apply State.tdmDisable_keeps
    | apply State.tdmEnable_keeps
    | apply Keeps.ite
    | split)

theorem State.storeRegWrite_keeps {s t : State} (h : Keeps s t) (off : Nat) (w : Word) : Keeps s (State.storeRegWrite t off w) := by
  unfold State.storeRegWrite
  repeat' with_reducible (first
    | assumption
    | apply State.plain_keeps
    | apply State.storeInit_keeps
    | apply Keeps.ite)

theorem State.windowWrite_keeps {s t : State} (h : Keeps s t) (n off : Nat) (w : Word) : Keeps s (State.windowWrite t n off w) := by
  unfold State.windowWrite
  repeat' with_reducible (first
    | assumption
    | apply State.plain_keeps
    | apply State.winEnable_keeps
    | apply State.set_keeps
    | apply Keeps.ite)

theorem State.brgRegWrite_keeps {s t : State} (h : Keeps s t) (off : Nat) (w : Word) : Keeps s (State.brgRegWrite t off w) := by
  unfold State.brgRegWrite
  repeat' with_reducible (first
    | assumption
    | apply State.windowWrite_keeps
    | apply State.plain_keeps
    | apply State.semRelease_keeps
    | split)

theorem State.mbxRegWrite_keeps {s t : State} (h : Keeps s t) (off : Nat) (w : Word) : Keeps s (State.mbxRegWrite t off w) := by
  unfold State.mbxRegWrite
  repeat' with_reducible (first
    | assumption
    | apply State.plain_keeps
    | apply State.chResetWrite_keeps
    | apply State.rspTailWrite_keeps
    | apply State.reqHeadWrite_keeps
    | apply Keeps.ite)

theorem State.ethRegWrite_keeps {s t : State} (h : Keeps s t) (p off : Nat) (w : Word) : Keeps s (State.ethRegWrite t p off w) := by
  unfold State.ethRegWrite
  repeat' with_reducible (first
    | assumption
    | apply State.plain_keeps
    | apply State.ethEnable_keeps
    | apply State.hrEnable_keeps
    | apply State.hrxRdWrite_keeps
    | apply State.htxWrWrite_keeps
    | apply Keeps.ite)

theorem State.objWrite_keeps {s t : State} (h : Keeps s t) (k off : Nat) (w : Word) : Keeps s (State.objWrite t k off w) := by
  unfold State.objWrite
  repeat' with_reducible (first
    | assumption
    | apply State.plain_keeps
    | apply State.objDisable_keeps
    | apply State.objSend_keeps
    | apply State.objRelease_keeps
    | apply State.objHold_keeps
    | apply State.setFlag_keeps
    | apply Keeps.ite)

theorem State.canWrite_keeps {s t : State} (h : Keeps s t) (off : Nat) (w : Word) : Keeps s (State.canWrite t off w) := by
  unfold State.canWrite
  repeat' with_reducible (first
    | assumption
    | apply State.objWrite_keeps
    | apply State.plain_keeps
    | apply State.canEnable_keeps
    | apply Keeps.ite)

theorem State.stkWrite_keeps {s t : State} (h : Keeps s t) (off : Nat) (w : Word) : Keeps s (State.stkWrite t off w) := by
  unfold State.stkWrite
  repeat' with_reducible (first
    | assumption
    | apply State.plain_keeps
    | apply State.stackInject_keeps
    | apply State.stackLaneMode_keeps
    | split)

theorem State.pwrRegWrite_keeps {s t : State} (h : Keeps s t) (off : Nat) (w : Word) : Keeps s (State.pwrRegWrite t off w) := by
  unfold State.pwrRegWrite
  repeat' with_reducible (first
    | assumption
    | apply State.plain_keeps
    | apply State.hostVote_keeps
    | apply State.holdsNow_keeps
    | apply State.perfWrite_keeps
    | apply State.rtcAlarmHi_keeps
    | apply Keeps.ite)

theorem State.dioWrite_keeps {s t : State} (h : Keeps s t) (off : Nat) (w : Word) : Keeps s (State.dioWrite t off w) := by
  unfold State.dioWrite
  repeat' with_reducible (first
    | assumption
    | apply State.plain_keeps
    | apply State.outSrcWrite_keeps
    | apply State.outWrite_keeps
    | apply State.driveOutputs_keeps
    | split)

theorem State.intcWrite_keeps {s t : State} (h : Keeps s t) (off : Nat) (w : Word) : Keeps s (State.intcWrite t off w) := by
  unfold State.intcWrite
  repeat' with_reducible (first
    | assumption
    | apply State.forceWrite_keeps
    | apply State.enWrite_keeps
    | apply State.pendWrite_keeps
    | apply Keeps.ite)

theorem State.msixWrite_keeps {s t : State} (h : Keeps s t) (off : Nat) (w : Word) : Keeps s (State.msixWrite t off w) := by
  unfold State.msixWrite
  repeat' with_reducible (first
    | assumption
    | apply State.vectorMask_keeps
    | split
    | apply Keeps.update)

theorem State.regWriteUp_keeps {s t : State} (h : Keeps s t) (off : Nat) (w : Word) : Keeps s (State.regWriteUp t off w) := by
  unfold State.regWriteUp
  repeat' with_reducible (first
    | assumption
    | apply State.msixWrite_keeps
    | apply State.intcWrite_keeps
    | apply State.dioWrite_keeps
    | apply State.pwrRegWrite_keeps
    | apply State.stkWrite_keeps
    | apply State.canWrite_keeps
    | apply State.ethRegWrite_keeps
    | apply State.mbxRegWrite_keeps
    | apply State.brgRegWrite_keeps
    | apply State.storeRegWrite_keeps
    | apply State.audWrite_keeps
    | apply State.ptpOfsWrite_keeps
    | apply State.ringWrite_keeps
    | apply State.plain_keeps
    | apply State.elaneWrite_keeps
    | apply Keeps.ite
    | split)

theorem State.regWrite_keeps {s t : State} (h : Keeps s t) (off : Nat) (w : Word) : Keeps s (State.regWrite t off w) := by
  unfold State.regWrite
  repeat' with_reducible (first
    | assumption
    | (intro u hu)
    | apply State.regWriteUp_keeps
    | apply State.access_keeps)

theorem execPtpOfsHiWrite_keeps {s t : State} (h : Keeps s t) (w : Word) : NextKeeps s (execPtpOfsHiWrite w t) := by
  unfold execPtpOfsHiWrite
  repeat' with_reducible (first
    | assumption
    | refine NextKeeps.next ?_
    | apply State.regWrite_keeps)

theorem execCanTxReq_keeps {s t : State} (h : Keeps s t) (obj : Fin 128) : NextKeeps s (execCanTxReq obj t) := by
  unfold execCanTxReq
  repeat' with_reducible (first
    | assumption
    | refine NextKeeps.next ?_
    | (intro u hu)
    | apply State.objSend_keeps
    | apply State.access_keeps)

theorem execCanObjHold_keeps {s t : State} (h : Keeps s t) (obj : Fin 128) : NextKeeps s (execCanObjHold obj t) := by
  unfold execCanObjHold
  repeat' with_reducible (first
    | assumption
    | refine NextKeeps.next ?_
    | (intro u hu)
    | apply State.objHold_keeps
    | apply State.access_keeps)

theorem execCanObjRelease_keeps {s t : State} (h : Keeps s t) (obj : Fin 128) : NextKeeps s (execCanObjRelease obj t) := by
  unfold execCanObjRelease
  repeat' with_reducible (first
    | assumption
    | refine NextKeeps.next ?_
    | (intro u hu)
    | apply State.objRelease_keeps
    | apply State.access_keeps)

/-! ## Resets -/

theorem State.noteReset_keeps {s t : State} (h : Keeps s t) (cause : Nat) : Keeps s (State.noteReset t cause) := by
  unfold State.noteReset
  repeat' with_reducible (first
    | assumption
    | apply State.count_keeps
    | apply State.set_keeps
    | apply Keeps.ite)

theorem State.resetNode_keeps {s t : State} (h : Keeps s t) (cause bootSrc wait bist : Nat) : Keeps s (State.resetNode t cause bootSrc wait bist) := by
  unfold State.resetNode
  repeat' with_reducible (first
    | assumption
    | apply State.noteReset_keeps
    | apply State.outputsSafe_keeps
    | apply State.dark_keeps
    | apply State.setLevels_keeps
    | apply State.powerTo_keeps
    | apply State.dropBanks_keeps
    | apply State.showFault_keeps
    | apply State.setFlag_keeps
    | apply State.set_keeps
    | refine Keeps.foldl ?_ (fun u x hu => ?_)
    | apply Keeps.update)

theorem State.decikForget_keeps {s t : State} (h : Keeps s t) : Keeps s (State.decikForget t) := by
  unfold State.decikForget
  repeat' with_reducible (first
    | assumption
    | apply Keeps.update)

theorem State.decikStop_keeps {s t : State} (h : Keeps s t) (cause : Nat) (counted : Bool) : Keeps s (State.decikStop t cause counted) := by
  unfold State.decikStop
  repeat' with_reducible (first
    | assumption
    | apply State.decikForget_keeps
    | apply State.noteReset_keeps
    | apply State.postBy_keeps
    | apply State.faultCause_keeps
    | apply State.evt_keeps
    | apply State.setFlag_keeps
    | refine Keeps.foldl ?_ (fun u x hu => ?_)
    | apply Keeps.ite
    | apply Keeps.update)

theorem execLockstepMismatch_keeps {s t : State} (h : Keeps s t) : NextKeeps s (execLockstepMismatch t) := by
  unfold execLockstepMismatch
  repeat' with_reducible (first
    | assumption
    | refine NextKeeps.next ?_
    | apply State.decikStop_keeps)

theorem execWatchdogExpiry_keeps {s t : State} (h : Keeps s t) : NextKeeps s (execWatchdogExpiry t) := by
  unfold execWatchdogExpiry
  repeat' with_reducible (first
    | assumption
    | refine NextKeeps.next ?_
    | apply State.decikStop_keeps)

theorem execFirmwareFault_keeps {s t : State} (h : Keeps s t) : NextKeeps s (execFirmwareFault t) := by
  unfold execFirmwareFault
  repeat' with_reducible (first
    | assumption
    | refine NextKeeps.next ?_
    | apply State.decikStop_keeps)

end Sys2Proof.Machine
end

