-- ==== Sys2Proof/Laws/KeepsCmd.lean ====
section
/-! SUPPORT. What no command changes: the mailbox commands. -/

namespace Sys2Proof.Machine

/-! ## Summary -/

theorem State.rebuild_keeps {s t : State} (h : Keeps s t) : Keeps s (State.rebuild t) := by
  unfold State.rebuild
  repeat' with_reducible (first
    | assumption
    | apply State.fresh_keeps
    | apply State.wrapInc_keeps
    | apply Keeps.update)

theorem execSummaryRebuild_keeps {s t : State} (h : Keeps s t) : NextKeeps s (execSummaryRebuild t) := by
  unfold execSummaryRebuild
  repeat' with_reducible (first
    | assumption
    | refine NextKeeps.next ?_
    | apply State.rebuild_keeps
    | apply Keeps.ite)

theorem State.summaryReady_keeps {s t : State} (h : Keeps s t) : Keeps s (State.summaryReady t) := by
  unfold State.summaryReady
  repeat' with_reducible (first
    | assumption
    | apply State.rebuild_keeps
    | apply State.notify_keeps
    | apply State.evt_keeps)

/-! ## Cmd -/

theorem State.twinShare_keeps {s t : State} (h : Keeps s t) (tick opcode : Nat) (data : List Nat) : Keeps s (State.twinShare t tick opcode data) := by
  unfold State.twinShare
  repeat' with_reducible (first
    | assumption
    | apply Keeps.ite
    | apply Keeps.update)

theorem State.hold_keeps {s t : State} (h : Keeps s t) (w : When) (opcode : Nat) (data : List Nat) (ch tag : Nat) : Keeps s (State.hold t w opcode data ch tag) := by
  unfold State.hold
  repeat' with_reducible (first
    | assumption
    | apply Keeps.update)

theorem State.takeTimed_keeps {s t : State} (h : Keeps s t) (q : OpenReq) (w : When) (data : List Nat) : Keeps s (State.takeTimed t q w data) := by
  unfold State.takeTimed
  repeat' with_reducible (first
    | assumption
    | apply State.hold_keeps
    | apply State.twinShare_keeps
    | apply State.reply_keeps)

theorem State.cancelTimed_keeps {s t : State} (h : Keeps s t) (mergeTick : Nat) : Keeps s (State.cancelTimed t mergeTick) := by
  unfold State.cancelTimed
  repeat' with_reducible (first
    | assumption
    | apply State.post_keeps
    | apply Keeps.ite
    | apply Keeps.update)

theorem State.authorised_keeps {s t : State} (h : Keeps s t) (c : Cmd) (r : Request) (q : OpenReq) (body : List Nat) : Keeps s (State.authorised t c r q body).2 := by
  unfold State.authorised
  repeat' with_reducible (first
    | assumption
    | (intro x; clear_value x)
    | lift_lets
    | refine State.authCheck_keeps_eq ?_ (by assumption)
    | split)

theorem State.authorised_keeps_eq {s t u : State} (h : Keeps s t) {c : Cmd} {r : Request} {q : OpenReq} {body : List Nat} {z} (e : State.authorised t c r q body = (z, u)) : Keeps s u := by
  have k := State.authorised_keeps h c r q body
  rw [e] at k; exact k

theorem State.handle_keeps {s t : State} (h : Keeps s t) (c : Cmd) (hc : CmdKeeps c) (r : Request) (q : OpenReq) : Keeps s (State.handle t c r q) := by
  unfold State.handle
  lift_lets
  intro all signed d
  split
  · exact State.reply_keeps h ..
  · split
    · exact State.reply_keeps h ..
    · split
      next fail u he =>
        have hu := State.authorised_keeps_eq h he
        split
        · exact State.reply_keeps hu ..
        · split
          · exact State.reply_keeps hu ..
          · split
            · exact State.reply_keeps hu ..
            · split
              · exact State.reply_keeps hu ..
              · exact hc _ _ _ _ hu

theorem State.forwardRemote_keeps {s t : State} (h : Keeps s t) (c : Cmd) (r : Request) (q : OpenReq) : Keeps s (State.forwardRemote t c r q) := by
  unfold State.forwardRemote
  repeat' with_reducible (first
    | assumption
    | apply State.reply_keeps
    | apply State.showOpen_keeps
    | apply State.stageMessage_keeps
    | apply Keeps.ite
    | apply Keeps.update)

theorem State.serve_keeps {s t : State} (h : Keeps s t) (c : Cmd) (hc : CmdKeeps c) (r : Request) : Keeps s (State.serve t c r) := by
  unfold State.serve
  lift_lets
  intro q
  split
  · exact h
  · split
    · split
      · exact State.answerReq_keeps h ..
      · exact h
    · split
      · exact State.reply_keeps h ..
      · split
        · exact State.forwardRemote_keeps h ..
        · exact State.handle_keeps h c hc ..

theorem State.serveUnknown_keeps {s t : State} (h : Keeps s t) (opcode : Nat) (r : Request) : Keeps s (State.serveUnknown t opcode r) := by
  unfold State.serveUnknown
  repeat' with_reducible (first
    | assumption
    | apply State.reply_keeps
    | split)

theorem State.remoteAnswer_keeps {s t : State} (h : Keeps s t) (r : OpenReq) (status cfgver : Nat) (final : Bool) (data : List Nat) : Keeps s (State.remoteAnswer t r status cfgver final data) := by
  unfold State.remoteAnswer
  repeat' with_reducible (first
    | assumption
    | apply State.showOpen_keeps
    | apply State.sendResponse_keeps
    | apply Keeps.ite
    | apply Keeps.update)

theorem State.remoteResponse_keeps {s t : State} (h : Keeps s t) (r : OpenReq) (m : Message) : Keeps s (State.remoteResponse t r m) := by
  unfold State.remoteResponse
  repeat' with_reducible (first
    | assumption
    | apply State.remoteAnswer_keeps
    | split
    | apply Keeps.update)

theorem State.mailboxMessage_keeps {s t : State} (h : Keeps s t) (m : Message) : Keeps s (State.mailboxMessage t m) := by
  unfold State.mailboxMessage
  repeat' with_reducible (first
    | assumption
    | apply State.remoteResponse_keeps
    | apply State.answerReq_keeps
    | apply State.set_keeps
    | apply State.putBytes_keeps
    | split
    | apply Keeps.update)

theorem execRemoteTimeout_keeps {s t : State} (h : Keeps s t) (ch : Fin 4) (tag : Nat) : NextKeeps s (execRemoteTimeout ch tag t) := by
  unfold execRemoteTimeout
  repeat' with_reducible (first
    | assumption
    | refine NextKeeps.next ?_
    | apply State.finish_keeps
    | refine Keeps.foldl ?_ (fun u x hu => ?_))

theorem execRemoteBusyResend_keeps {s t : State} (h : Keeps s t) (ch : Fin 4) (tag : Nat) : NextKeeps s (execRemoteBusyResend ch tag t) := by
  unfold execRemoteBusyResend
  repeat' with_reducible (first
    | assumption
    | refine NextKeeps.next ?_
    | apply State.stageMessage_keeps
    | refine Keeps.foldl ?_ (fun u x hu => ?_)
    | split
    | apply Keeps.update)

theorem State.remoteTopology_keeps {s t : State} (h : Keeps s t) : Keeps s (State.remoteTopology t) := by
  unfold State.remoteTopology
  repeat' with_reducible (first
    | assumption
    | apply State.finish_keeps
    | refine Keeps.foldl ?_ (fun u x hu => ?_))

theorem State.dropTransfer_keeps {s t : State} (h : Keeps s t) (ch opcode : Nat) : Keeps s (State.dropTransfer t ch opcode) := by
  unfold State.dropTransfer
  repeat' with_reducible (first
    | assumption
    | apply Keeps.update)

theorem State.takeFragment_keeps {s t : State} (h : Keeps s t) (ch opcode : Nat) (d : List Nat) : Keeps s (State.takeFragment t ch opcode d).2 := by
  unfold State.takeFragment
  repeat' with_reducible (first
    | assumption
    | lift_lets
    | apply State.dropTransfer_keeps
    | split
    | apply Keeps.update)

theorem State.takeFragment_keeps_eq {s t u : State} (h : Keeps s t) {ch opcode : Nat} {d : List Nat} {z} (e : State.takeFragment t ch opcode d = (z, u)) : Keeps s u := by
  have k := State.takeFragment_keeps h ch opcode d
  rw [e] at k; exact k

theorem execFragmentTransferTimeout_keeps {s t : State} (h : Keeps s t) : NextKeeps s (execFragmentTransferTimeout t) := by
  unfold execFragmentTransferTimeout
  repeat' with_reducible (first
    | assumption
    | refine NextKeeps.next ?_
    | apply Keeps.update)

theorem execAuthNonceLapse_keeps {s t : State} (h : Keeps s t) : NextKeeps s (execAuthNonceLapse t) := by
  unfold execAuthNonceLapse
  repeat' with_reducible (first
    | assumption
    | refine NextKeeps.next ?_
    | apply Keeps.update)

theorem execAuthLockoutEnd_keeps {s t : State} (h : Keeps s t) : NextKeeps s (execAuthLockoutEnd t) := by
  unfold execAuthLockoutEnd
  repeat' with_reducible (first
    | assumption
    | refine NextKeeps.next ?_
    | apply Keeps.update)

/-! ## CmdSystem -/

theorem State.phaseNow_keeps {s t : State} (h : Keeps s t) : Keeps s (State.phaseNow t).2 := by
  unfold State.phaseNow
  repeat' with_reducible (first
    | assumption
    | apply State.fresh_keeps)

theorem State.ok_keeps {s t : State} (h : Keeps s t) (q : OpenReq) (data : List Nat) : Keeps s (State.ok t q data) := by
  unfold State.ok
  repeat' with_reducible (first
    | assumption
    | apply State.reply_keeps)

theorem cmdPing_keeps : CmdKeeps cmdPing := by
  intro s t q d h
  unfold cmdPing
  dsimp -zeta only
  repeat' with_reducible (first
    | assumption
    | apply State.ok_keeps)

theorem execPing_keeps {s t : State} (h : Keeps s t) (r : Request) : NextKeeps s (execPing r t) := by
  unfold execPing
  repeat' with_reducible (first
    | assumption
    | refine NextKeeps.next ?_
    | exact cmdPing_keeps
    | apply State.serve_keeps)

theorem State.withSummary_keeps {s t : State} (h : Keeps s t) : Keeps s (State.withSummary t) := by
  unfold State.withSummary
  repeat' with_reducible (first
    | assumption
    | apply State.rebuild_keeps
    | apply Keeps.ite)

theorem cmdStateSummary_keeps : CmdKeeps cmdStateSummary := by
  intro s t q d h
  unfold cmdStateSummary
  dsimp -zeta only
  repeat' with_reducible (first
    | assumption
    | apply State.withSummary_keeps
    | apply State.ok_keeps)

theorem execStateSummary_keeps {s t : State} (h : Keeps s t) (r : Request) : NextKeeps s (execStateSummary r t) := by
  unfold execStateSummary
  repeat' with_reducible (first
    | assumption
    | refine NextKeeps.next ?_
    | exact cmdStateSummary_keeps
    | apply State.serve_keeps)

theorem cmdReducedSummary_keeps : CmdKeeps cmdReducedSummary := by
  intro s t q d h
  unfold cmdReducedSummary
  dsimp -zeta only
  repeat' with_reducible (first
    | assumption
    | apply State.withSummary_keeps
    | apply State.ok_keeps)

theorem execReducedSummary_keeps {s t : State} (h : Keeps s t) (r : Request) : NextKeeps s (execReducedSummary r t) := by
  unfold execReducedSummary
  repeat' with_reducible (first
    | assumption
    | refine NextKeeps.next ?_
    | exact cmdReducedSummary_keeps
    | apply State.serve_keeps)

theorem cmdGetIdentity_keeps : CmdKeeps cmdGetIdentity := by
  intro s t q d h
  unfold cmdGetIdentity
  dsimp -zeta only
  repeat' with_reducible (first
    | assumption
    | apply State.ok_keeps)

theorem execGetIdentity_keeps {s t : State} (h : Keeps s t) (r : Request) : NextKeeps s (execGetIdentity r t) := by
  unfold execGetIdentity
  repeat' with_reducible (first
    | assumption
    | refine NextKeeps.next ?_
    | exact cmdGetIdentity_keeps
    | apply State.serve_keeps)

theorem cmdGetTime_keeps : CmdKeeps cmdGetTime := by
  intro s t q d h
  unfold cmdGetTime
  dsimp -zeta only
  repeat' with_reducible (first
    | assumption
    | apply State.ok_keeps
    | apply State.phaseNow_keeps)

theorem execGetTime_keeps {s t : State} (h : Keeps s t) (r : Request) : NextKeeps s (execGetTime r t) := by
  unfold execGetTime
  repeat' with_reducible (first
    | assumption
    | refine NextKeeps.next ?_
    | exact cmdGetTime_keeps
    | apply State.serve_keeps)

theorem cmdSetRtc_keeps : CmdKeeps cmdSetRtc := by
  intro s t q d h
  unfold cmdSetRtc
  dsimp -zeta only
  repeat' with_reducible (first
    | assumption
    | apply State.ok_keeps
    | apply State.phaseNow_keeps
    | apply Keeps.update)

theorem execSetRtc_keeps {s t : State} (h : Keeps s t) (r : Request) : NextKeeps s (execSetRtc r t) := by
  unfold execSetRtc
  repeat' with_reducible (first
    | assumption
    | refine NextKeeps.next ?_
    | exact cmdSetRtc_keeps
    | apply State.serve_keeps)

theorem cmdSetNoteLevel_keeps : CmdKeeps cmdSetNoteLevel := by
  intro s t q d h
  unfold cmdSetNoteLevel
  dsimp -zeta only
  repeat' with_reducible (first
    | assumption
    | apply State.ok_keeps
    | apply State.reply_keeps
    | apply Keeps.ite
    | apply Keeps.update)

theorem execSetNoteLevel_keeps {s t : State} (h : Keeps s t) (r : Request) : NextKeeps s (execSetNoteLevel r t) := by
  unfold execSetNoteLevel
  repeat' with_reducible (first
    | assumption
    | refine NextKeeps.next ?_
    | exact cmdSetNoteLevel_keeps
    | apply State.serve_keeps)

theorem cmdServiceMode_keeps : CmdKeeps cmdServiceMode := by
  intro s t q d h
  unfold cmdServiceMode
  dsimp -zeta only
  repeat' with_reducible (first
    | assumption
    | apply State.ok_keeps
    | apply State.reply_keeps
    | apply State.set_keeps
    | apply Keeps.ite)

theorem execServiceMode_keeps {s t : State} (h : Keeps s t) (r : Request) : NextKeeps s (execServiceMode r t) := by
  unfold execServiceMode
  repeat' with_reducible (first
    | assumption
    | refine NextKeeps.next ?_
    | exact cmdServiceMode_keeps
    | apply State.serve_keeps)

theorem cmdNodeReset_keeps : CmdKeeps cmdNodeReset := by
  intro s t q d h
  unfold cmdNodeReset
  dsimp -zeta only
  repeat' with_reducible (first
    | assumption
    | apply State.ok_keeps
    | apply State.decikStop_keeps
    | apply State.resetNode_keeps
    | apply State.reply_keeps
    | split)

theorem execNodeReset_keeps {s t : State} (h : Keeps s t) (r : Request) : NextKeeps s (execNodeReset r t) := by
  unfold execNodeReset
  repeat' with_reducible (first
    | assumption
    | refine NextKeeps.next ?_
    | exact cmdNodeReset_keeps
    | apply State.serve_keeps)

theorem cmdUnitGet_keeps : CmdKeeps cmdUnitGet := by
  intro s t q d h
  unfold cmdUnitGet
  dsimp -zeta only
  repeat' with_reducible (first
    | assumption
    | apply State.ok_keeps
    | apply State.reply_keeps
    | apply Keeps.ite)

theorem execUnitGet_keeps {s t : State} (h : Keeps s t) (r : Request) : NextKeeps s (execUnitGet r t) := by
  unfold execUnitGet
  repeat' with_reducible (first
    | assumption
    | refine NextKeeps.next ?_
    | exact cmdUnitGet_keeps
    | apply State.serve_keeps)

theorem State.unitCommand_keeps {s t : State} (h : Keeps s t) (q : OpenReq) (d : List Nat) (enable : Bool) : Keeps s (State.unitCommand t q d enable) := by
  unfold State.unitCommand
  repeat' with_reducible (first
    | assumption
    | (intro x; clear_value x)
    | lift_lets
    | apply State.hold_keeps
    | apply State.twinShare_keeps
    | apply State.wait_keeps
    | apply State.reply_keeps
    | split)

theorem cmdUnitEnable_keeps : CmdKeeps cmdUnitEnable := by
  intro s t q d h
  unfold cmdUnitEnable
  dsimp -zeta only
  repeat' with_reducible (first
    | assumption
    | apply State.unitCommand_keeps)

theorem execUnitEnable_keeps {s t : State} (h : Keeps s t) (r : Request) : NextKeeps s (execUnitEnable r t) := by
  unfold execUnitEnable
  repeat' with_reducible (first
    | assumption
    | refine NextKeeps.next ?_
    | exact cmdUnitEnable_keeps
    | apply State.serve_keeps)

theorem cmdUnitDisable_keeps : CmdKeeps cmdUnitDisable := by
  intro s t q d h
  unfold cmdUnitDisable
  dsimp -zeta only
  repeat' with_reducible (first
    | assumption
    | apply State.unitCommand_keeps)

theorem execUnitDisable_keeps {s t : State} (h : Keeps s t) (r : Request) : NextKeeps s (execUnitDisable r t) := by
  unfold execUnitDisable
  repeat' with_reducible (first
    | assumption
    | refine NextKeeps.next ?_
    | exact cmdUnitDisable_keeps
    | apply State.serve_keeps)

theorem State.railUnits_keeps {s t : State} (h : Keeps s t) (ids : List Nat) (on : Bool) : Keeps s (State.railUnits t ids on) := by
  unfold State.railUnits
  repeat' with_reducible (first
    | assumption
    | apply State.unitStep_keeps
    | apply State.unitTo_keeps
    | apply State.railsRun_keeps
    | refine Keeps.foldl ?_ (fun u x hu => ?_)
    | apply Keeps.ite)

theorem State.unitsEnable_keeps {s t : State} (h : Keeps s t) (ids : List Nat) : Keeps s (State.unitsEnable t ids) := by
  unfold State.unitsEnable
  repeat' with_reducible (first
    | assumption
    | apply State.railUnits_keeps
    | apply State.unitEnable_keeps
    | refine Keeps.foldl ?_ (fun u x hu => ?_))

/-! ## CmdConfig -/

theorem State.showCfg_keeps {s t : State} (h : Keeps s t) : Keeps s (State.showCfg t) := by
  unfold State.showCfg
  repeat' with_reducible (first
    | assumption
    | apply State.set_keeps)

theorem State.writeRecordCfg_keeps {s t : State} (h : Keeps s t) (c : CfgSt) : Keeps s (State.writeRecordCfg t c) := by
  unfold State.writeRecordCfg
  repeat' with_reducible (first
    | assumption
    | apply State.showCfg_keeps
    | apply Keeps.update)

theorem State.noteConfig_keeps {s t : State} (h : Keeps s t) (event left tick : Nat) : Keeps s (State.noteConfig t event left tick) := by
  unfold State.noteConfig
  repeat' with_reducible (first
    | assumption
    | apply State.notify_keeps)

theorem State.cfgEvt_keeps {s t : State} (h : Keeps s t) (f : Fld) (src : Nat) : Keeps s (State.cfgEvt t f src) := by
  unfold State.cfgEvt
  repeat' with_reducible (first
    | assumption
    | apply State.evt_keeps)

theorem State.imageLoaded_keeps {s t : State} (h : Keeps s t) (b : List Nat) : Keeps s (State.imageLoaded t b).2 := by
  unfold State.imageLoaded
  repeat' with_reducible (first
    | assumption
    | lift_lets
    | apply State.showCfg_keeps
    | apply State.twinShare_keeps
    | apply State.authFail_keeps
    | refine Keeps.foldl ?_ (fun u x hu => ?_)
    | split
    | apply Keeps.update)

theorem cmdCfgLoad_keeps : CmdKeeps cmdCfgLoad := by
  intro s t q d h
  unfold cmdCfgLoad
  dsimp -zeta only
  repeat' with_reducible (first
    | assumption
    | apply State.imageLoaded_keeps
    | apply State.ok_keeps
    | refine State.takeFragment_keeps_eq ?_ (by assumption)
    | apply State.takeFragment_keeps
    | apply State.dropTransfer_keeps
    | apply State.reply_keeps
    | split)

theorem execCfgLoad_keeps {s t : State} (h : Keeps s t) (r : Request) : NextKeeps s (execCfgLoad r t) := by
  unfold execCfgLoad
  repeat' with_reducible (first
    | assumption
    | refine NextKeeps.next ?_
    | exact cmdCfgLoad_keeps
    | apply State.serve_keeps)

theorem State.applyCfgLoad_keeps {s t : State} (h : Keeps s t) (d : List Nat) : Keeps s (State.applyCfgLoad t d) := by
  unfold State.applyCfgLoad
  repeat' with_reducible (first
    | assumption
    | apply State.imageLoaded_keeps
    | refine State.takeFragment_keeps_eq ?_ (by assumption)
    | apply State.takeFragment_keeps
    | refine Keeps.foldl ?_ (fun u x hu => ?_)
    | apply Keeps.ite
    | split)

theorem State.applyBegin_keeps {s t : State} (h : Keeps s t) (b : List Nat) (confirm : Nat) (w : When) : Keeps s (State.applyBegin t b confirm w) := by
  unfold State.applyBegin
  repeat' with_reducible (first
    | assumption
    | apply State.writeRecordCfg_keeps
    | apply State.set_keeps)

theorem cmdCfgApply_keeps : CmdKeeps cmdCfgApply := by
  intro s t q d h
  unfold cmdCfgApply
  dsimp -zeta only
  repeat' with_reducible (first
    | assumption
    | (intro x; clear_value x)
    | lift_lets
    | apply State.applyBegin_keeps
    | apply State.hold_keeps
    | apply State.twinShare_keeps
    | apply State.wait_keeps
    | apply State.reply_keeps
    | split)

theorem execCfgApply_keeps {s t : State} (h : Keeps s t) (r : Request) : NextKeeps s (execCfgApply r t) := by
  unfold execCfgApply
  repeat' with_reducible (first
    | assumption
    | refine NextKeeps.next ?_
    | exact cmdCfgApply_keeps
    | apply State.serve_keeps)

theorem State.cfgCancel_keeps {s t : State} (h : Keeps s t) : Keeps s (State.cfgCancel t) := by
  unfold State.cfgCancel
  repeat' with_reducible (first
    | assumption
    | apply State.cfgEvt_keeps
    | apply State.noteConfig_keeps
    | apply State.writeRecordCfg_keeps
    | apply State.finishAll_keeps
    | split
    | apply Keeps.update)

theorem State.cfgConfirm_keeps {s t : State} (h : Keeps s t) : Keeps s (State.cfgConfirm t) := by
  unfold State.cfgConfirm
  repeat' with_reducible (first
    | assumption
    | apply State.cfgEvt_keeps
    | apply State.noteConfig_keeps
    | apply State.writeRecordCfg_keeps)

theorem cmdCfgConfirm_keeps : CmdKeeps cmdCfgConfirm := by
  intro s t q d h
  unfold cmdCfgConfirm
  dsimp -zeta only
  repeat' with_reducible (first
    | assumption
    | apply State.cfgConfirm_keeps
    | apply State.ok_keeps
    | apply State.twinShare_keeps
    | apply State.reply_keeps
    | apply Keeps.ite)

theorem execCfgConfirm_keeps {s t : State} (h : Keeps s t) (r : Request) : NextKeeps s (execCfgConfirm r t) := by
  unfold execCfgConfirm
  repeat' with_reducible (first
    | assumption
    | refine NextKeeps.next ?_
    | exact cmdCfgConfirm_keeps
    | apply State.serve_keeps)

theorem State.rollBegin_keeps {s t : State} (h : Keeps s t) (w : When) (auto : Bool) : Keeps s (State.rollBegin t w auto) := by
  unfold State.rollBegin
  repeat' with_reducible (first
    | assumption
    | apply State.showCfg_keeps
    | apply State.set_keeps
    | apply Keeps.update)

theorem cmdCfgRollback_keeps : CmdKeeps cmdCfgRollback := by
  intro s t q d h
  unfold cmdCfgRollback
  dsimp -zeta only
  repeat' with_reducible (first
    | assumption
    | apply State.rollBegin_keeps
    | apply State.cfgCancel_keeps
    | apply State.ok_keeps
    | apply State.hold_keeps
    | apply State.twinShare_keeps
    | apply State.wait_keeps
    | apply State.reply_keeps
    | split)

theorem execCfgRollback_keeps {s t : State} (h : Keeps s t) (r : Request) : NextKeeps s (execCfgRollback r t) := by
  unfold execCfgRollback
  repeat' with_reducible (first
    | assumption
    | refine NextKeeps.next ?_
    | exact cmdCfgRollback_keeps
    | apply State.serve_keeps)

theorem cmdCfgStatus_keeps : CmdKeeps cmdCfgStatus := by
  intro s t q d h
  unfold cmdCfgStatus
  dsimp -zeta only
  repeat' with_reducible (first
    | assumption
    | apply State.ok_keeps)

theorem execCfgStatus_keeps {s t : State} (h : Keeps s t) (r : Request) : NextKeeps s (execCfgStatus r t) := by
  unfold execCfgStatus
  repeat' with_reducible (first
    | assumption
    | refine NextKeeps.next ?_
    | exact cmdCfgStatus_keeps
    | apply State.serve_keeps)

theorem cmdCfgRead_keeps : CmdKeeps cmdCfgRead := by
  intro s t q d h
  unfold cmdCfgRead
  dsimp -zeta only
  repeat' with_reducible (first
    | assumption
    | apply State.ok_keeps
    | apply State.reply_keeps
    | apply Keeps.ite)

theorem execCfgRead_keeps {s t : State} (h : Keeps s t) (r : Request) : NextKeeps s (execCfgRead r t) := by
  unfold execCfgRead
  repeat' with_reducible (first
    | assumption
    | refine NextKeeps.next ?_
    | exact cmdCfgRead_keeps
    | apply State.serve_keeps)

theorem cmdCfgDiscard_keeps : CmdKeeps cmdCfgDiscard := by
  intro s t q d h
  unfold cmdCfgDiscard
  dsimp -zeta only
  repeat' with_reducible (first
    | assumption
    | apply State.showCfg_keeps
    | apply State.ok_keeps
    | apply State.twinShare_keeps
    | apply Keeps.update)

theorem execCfgDiscard_keeps {s t : State} (h : Keeps s t) (r : Request) : NextKeeps s (execCfgDiscard r t) := by
  unfold execCfgDiscard
  repeat' with_reducible (first
    | assumption
    | refine NextKeeps.next ?_
    | exact cmdCfgDiscard_keeps
    | apply State.serve_keeps)

/-! ## CmdRing -/

theorem cmdRingStatus_keeps : CmdKeeps cmdRingStatus := by
  intro s t q d h
  unfold cmdRingStatus
  dsimp -zeta only
  repeat' with_reducible (first
    | assumption
    | apply State.ok_keeps)

theorem execRingStatus_keeps {s t : State} (h : Keeps s t) (r : Request) : NextKeeps s (execRingStatus r t) := by
  unfold execRingStatus
  repeat' with_reducible (first
    | assumption
    | refine NextKeeps.next ?_
    | exact cmdRingStatus_keeps
    | apply State.serve_keeps)

theorem cmdRingGetLayout_keeps : CmdKeeps cmdRingGetLayout := by
  intro s t q d h
  unfold cmdRingGetLayout
  dsimp -zeta only
  repeat' with_reducible (first
    | assumption
    | (intro x; clear_value x)
    | lift_lets
    | apply State.ok_keeps
    | apply State.reply_keeps
    | split)

theorem execRingGetLayout_keeps {s t : State} (h : Keeps s t) (r : Request) : NextKeeps s (execRingGetLayout r t) := by
  unfold execRingGetLayout
  repeat' with_reducible (first
    | assumption
    | refine NextKeeps.next ?_
    | exact cmdRingGetLayout_keeps
    | apply State.serve_keeps)

theorem cmdRingRenumber_keeps : CmdKeeps cmdRingRenumber := by
  intro s t q d h
  unfold cmdRingRenumber
  dsimp -zeta only
  repeat' with_reducible (first
    | assumption
    | apply State.wait_keeps
    | apply State.topoChange_keeps)

theorem execRingRenumber_keeps {s t : State} (h : Keeps s t) (r : Request) : NextKeeps s (execRingRenumber r t) := by
  unfold execRingRenumber
  repeat' with_reducible (first
    | assumption
    | refine NextKeeps.next ?_
    | exact cmdRingRenumber_keeps
    | apply State.serve_keeps)

theorem cmdRingMerge_keeps : CmdKeeps cmdRingMerge := by
  intro s t q d h
  unfold cmdRingMerge
  dsimp -zeta only
  repeat' with_reducible (first
    | assumption
    | apply State.wait_keeps
    | apply State.reply_keeps
    | apply State.mergeStart_keeps
    | apply State.set_keeps
    | split
    | apply Keeps.update)

theorem execRingMerge_keeps {s t : State} (h : Keeps s t) (r : Request) : NextKeeps s (execRingMerge r t) := by
  unfold execRingMerge
  repeat' with_reducible (first
    | assumption
    | refine NextKeeps.next ?_
    | lift_lets
    | exact cmdRingMerge_keeps
    | apply State.serve_keeps)

theorem cmdRingSetRank_keeps : CmdKeeps cmdRingSetRank := by
  intro s t q d h
  unfold cmdRingSetRank
  dsimp -zeta only
  repeat' with_reducible (first
    | assumption
    | apply State.ok_keeps
    | apply State.reply_keeps
    | apply State.rankSet_keeps
    | apply Keeps.ite)

theorem execRingSetRank_keeps {s t : State} (h : Keeps s t) (r : Request) : NextKeeps s (execRingSetRank r t) := by
  unfold execRingSetRank
  repeat' with_reducible (first
    | assumption
    | refine NextKeeps.next ?_
    | exact cmdRingSetRank_keeps
    | apply State.serve_keeps)

theorem cmdRingLinkCtrl_keeps : CmdKeeps cmdRingLinkCtrl := by
  intro s t q d h
  unfold cmdRingLinkCtrl
  dsimp -zeta only
  repeat' with_reducible (first
    | assumption
    | apply State.ok_keeps
    | apply linkRetrain_keeps
    | apply linkDisable_keeps
    | apply State.reply_keeps
    | split)

theorem execRingLinkCtrl_keeps {s t : State} (h : Keeps s t) (r : Request) : NextKeeps s (execRingLinkCtrl r t) := by
  unfold execRingLinkCtrl
  repeat' with_reducible (first
    | assumption
    | refine NextKeeps.next ?_
    | exact cmdRingLinkCtrl_keeps
    | apply State.serve_keeps)

theorem cmdRingSetParam_keeps : CmdKeeps cmdRingSetParam := by
  intro s t q d h
  unfold cmdRingSetParam
  dsimp -zeta only
  repeat' with_reducible (first
    | assumption
    | apply State.ok_keeps
    | apply State.reply_keeps
    | apply State.set_keeps
    | apply Keeps.ite)

theorem execRingSetParam_keeps {s t : State} (h : Keeps s t) (r : Request) : NextKeeps s (execRingSetParam r t) := by
  unfold execRingSetParam
  repeat' with_reducible (first
    | assumption
    | refine NextKeeps.next ?_
    | exact cmdRingSetParam_keeps
    | apply State.serve_keeps)

theorem cmdSyncStatus_keeps : CmdKeeps cmdSyncStatus := by
  intro s t q d h
  unfold cmdSyncStatus
  dsimp -zeta only
  repeat' with_reducible (first
    | assumption
    | apply State.ok_keeps)

theorem execSyncStatus_keeps {s t : State} (h : Keeps s t) (r : Request) : NextKeeps s (execSyncStatus r t) := by
  unfold execSyncStatus
  repeat' with_reducible (first
    | assumption
    | refine NextKeeps.next ?_
    | exact cmdSyncStatus_keeps
    | apply State.serve_keeps)

theorem cmdRedStatus_keeps : CmdKeeps cmdRedStatus := by
  intro s t q d h
  unfold cmdRedStatus
  dsimp -zeta only
  repeat' with_reducible (first
    | assumption
    | apply State.ok_keeps)

theorem execRedStatus_keeps {s t : State} (h : Keeps s t) (r : Request) : NextKeeps s (execRedStatus r t) := by
  unfold execRedStatus
  repeat' with_reducible (first
    | assumption
    | refine NextKeeps.next ?_
    | exact cmdRedStatus_keeps
    | apply State.serve_keeps)

theorem cmdMasterHandover_keeps : CmdKeeps cmdMasterHandover := by
  intro s t q d h
  unfold cmdMasterHandover
  dsimp -zeta only
  repeat' with_reducible (first
    | assumption
    | apply State.wait_keeps
    | apply State.reply_keeps
    | apply State.sendLayout_keeps
    | apply State.toPhase_keeps
    | apply State.set_keeps
    | split
    | apply Keeps.update)

theorem execMasterHandover_keeps {s t : State} (h : Keeps s t) (r : Request) : NextKeeps s (execMasterHandover r t) := by
  unfold execMasterHandover
  repeat' with_reducible (first
    | assumption
    | refine NextKeeps.next ?_
    | lift_lets
    | exact cmdMasterHandover_keeps
    | apply State.serve_keeps
    | refine Keeps.foldl ?_ (fun u x hu => ?_)
    | apply Keeps.ite)

theorem cmdTwinResync_keeps : CmdKeeps cmdTwinResync := by
  intro s t q d h
  unfold cmdTwinResync
  dsimp -zeta only
  repeat' with_reducible (first
    | assumption
    | apply State.wait_keeps
    | apply State.setFlag_keeps)

theorem execTwinResync_keeps {s t : State} (h : Keeps s t) (r : Request) : NextKeeps s (execTwinResync r t) := by
  unfold execTwinResync
  repeat' with_reducible (first
    | assumption
    | refine NextKeeps.next ?_
    | exact cmdTwinResync_keeps
    | apply State.serve_keeps)

theorem execTwinResyncResume_keeps {s t : State} (h : Keeps s t) : NextKeeps s (execTwinResyncResume t) := by
  unfold execTwinResyncResume
  repeat' with_reducible (first
    | assumption
    | refine NextKeeps.next ?_
    | apply State.finishAll_keeps
    | apply State.twinResume_keeps)

theorem cmdStackStatus_keeps : CmdKeeps cmdStackStatus := by
  intro s t q d h
  unfold cmdStackStatus
  dsimp -zeta only
  repeat' with_reducible (first
    | assumption
    | apply State.ok_keeps)

theorem execStackStatus_keeps {s t : State} (h : Keeps s t) (r : Request) : NextKeeps s (execStackStatus r t) := by
  unfold execStackStatus
  repeat' with_reducible (first
    | assumption
    | refine NextKeeps.next ?_
    | exact cmdStackStatus_keeps
    | apply State.serve_keeps)

theorem cmdStackMemberReset_keeps : CmdKeeps cmdStackMemberReset := by
  intro s t q d h
  unfold cmdStackMemberReset
  dsimp -zeta only
  repeat' with_reducible (first
    | assumption
    | apply State.ok_keeps
    | apply State.reply_keeps
    | apply State.emit_keeps
    | apply Keeps.ite)

theorem execStackMemberReset_keeps {s t : State} (h : Keeps s t) (r : Request) : NextKeeps s (execStackMemberReset r t) := by
  unfold execStackMemberReset
  repeat' with_reducible (first
    | assumption
    | refine NextKeeps.next ?_
    | exact cmdStackMemberReset_keeps
    | apply State.serve_keeps)

/-! ## CmdRoute -/

theorem State.timedRun_keeps {s t : State} (h : Keeps s t) (q : OpenReq) (d : List Nat) (etickAt status : Nat) : Keeps s (State.timedRun t q d etickAt status) := by
  unfold State.timedRun
  repeat' with_reducible (first
    | assumption
    | apply State.takeTimed_keeps
    | apply State.reply_keeps
    | split)

theorem State.setMatrix_keeps {s t : State} (h : Keeps s t) (xps : List Xpoint) : Keeps s (State.setMatrix t xps) := by
  unfold State.setMatrix
  repeat' with_reducible (first
    | assumption
    | apply State.dropJob_keeps
    | apply State.addJob_keeps
    | apply Keeps.ite
    | apply Keeps.update)

theorem cmdXpSet_keeps : CmdKeeps cmdXpSet := by
  intro s t q d h
  unfold cmdXpSet
  dsimp -zeta only
  repeat' with_reducible (first
    | assumption
    | apply State.timedRun_keeps)

theorem execXpSet_keeps {s t : State} (h : Keeps s t) (r : Request) : NextKeeps s (execXpSet r t) := by
  unfold execXpSet
  repeat' with_reducible (first
    | assumption
    | refine NextKeeps.next ?_
    | exact cmdXpSet_keeps
    | apply State.serve_keeps)

theorem State.applyXpSet_keeps {s t : State} (h : Keeps s t) (d : List Nat) : Keeps s (State.applyXpSet t d) := by
  unfold State.applyXpSet
  repeat' with_reducible (first
    | assumption
    | apply State.setMatrix_keeps
    | split)

theorem cmdXpGet_keeps : CmdKeeps cmdXpGet := by
  intro s t q d h
  unfold cmdXpGet
  dsimp -zeta only
  repeat' with_reducible (first
    | assumption
    | apply State.ok_keeps
    | apply State.reply_keeps
    | apply Keeps.ite)

theorem execXpGet_keeps {s t : State} (h : Keeps s t) (r : Request) : NextKeeps s (execXpGet r t) := by
  unfold execXpGet
  repeat' with_reducible (first
    | assumption
    | refine NextKeeps.next ?_
    | exact cmdXpGet_keeps
    | apply State.serve_keeps)

theorem cmdZoneSet_keeps : CmdKeeps cmdZoneSet := by
  intro s t q d h
  unfold cmdZoneSet
  dsimp -zeta only
  repeat' with_reducible (first
    | assumption
    | apply State.timedRun_keeps)

theorem execZoneSet_keeps {s t : State} (h : Keeps s t) (r : Request) : NextKeeps s (execZoneSet r t) := by
  unfold execZoneSet
  repeat' with_reducible (first
    | assumption
    | refine NextKeeps.next ?_
    | exact cmdZoneSet_keeps
    | apply State.serve_keeps)

theorem State.applyZoneSet_keeps {s t : State} (h : Keeps s t) (d : List Nat) : Keeps s (State.applyZoneSet t d) := by
  unfold State.applyZoneSet
  repeat' with_reducible (first
    | assumption
    | apply State.setZone_keeps)

theorem cmdZoneCand_keeps : CmdKeeps cmdZoneCand := by
  intro s t q d h
  unfold cmdZoneCand
  dsimp -zeta only
  repeat' with_reducible (first
    | assumption
    | apply State.timedRun_keeps)

theorem execZoneCand_keeps {s t : State} (h : Keeps s t) (r : Request) : NextKeeps s (execZoneCand r t) := by
  unfold execZoneCand
  repeat' with_reducible (first
    | assumption
    | refine NextKeeps.next ?_
    | exact cmdZoneCand_keeps
    | apply State.serve_keeps)

theorem State.applyZoneCand_keeps {s t : State} (h : Keeps s t) (d : List Nat) : Keeps s (State.applyZoneCand t d) := by
  unfold State.applyZoneCand
  repeat' with_reducible (first
    | assumption
    | apply State.setZone_keeps)

theorem cmdZoneEq_keeps : CmdKeeps cmdZoneEq := by
  intro s t q d h
  unfold cmdZoneEq
  dsimp -zeta only
  repeat' with_reducible (first
    | assumption
    | apply State.timedRun_keeps)

theorem execZoneEq_keeps {s t : State} (h : Keeps s t) (r : Request) : NextKeeps s (execZoneEq r t) := by
  unfold execZoneEq
  repeat' with_reducible (first
    | assumption
    | refine NextKeeps.next ?_
    | exact cmdZoneEq_keeps
    | apply State.serve_keeps)

theorem State.applyZoneEq_keeps {s t : State} (h : Keeps s t) (d : List Nat) : Keeps s (State.applyZoneEq t d) := by
  unfold State.applyZoneEq
  repeat' with_reducible (first
    | assumption
    | apply State.setZone_keeps)

theorem cmdZoneOut_keeps : CmdKeeps cmdZoneOut := by
  intro s t q d h
  unfold cmdZoneOut
  dsimp -zeta only
  repeat' with_reducible (first
    | assumption
    | apply State.timedRun_keeps)

theorem execZoneOut_keeps {s t : State} (h : Keeps s t) (r : Request) : NextKeeps s (execZoneOut r t) := by
  unfold execZoneOut
  repeat' with_reducible (first
    | assumption
    | refine NextKeeps.next ?_
    | exact cmdZoneOut_keeps
    | apply State.serve_keeps)

theorem State.applyZoneOut_keeps {s t : State} (h : Keeps s t) (d : List Nat) : Keeps s (State.applyZoneOut t d) := by
  unfold State.applyZoneOut
  repeat' with_reducible (first
    | assumption
    | apply State.setZone_keeps)

theorem cmdStreamSet_keeps : CmdKeeps cmdStreamSet := by
  intro s t q d h
  unfold cmdStreamSet
  dsimp -zeta only
  repeat' with_reducible (first
    | assumption
    | apply State.timedRun_keeps)

theorem execStreamSet_keeps {s t : State} (h : Keeps s t) (r : Request) : NextKeeps s (execStreamSet r t) := by
  unfold execStreamSet
  repeat' with_reducible (first
    | assumption
    | refine NextKeeps.next ?_
    | exact cmdStreamSet_keeps
    | apply State.serve_keeps)

theorem State.applyStreamSet_keeps {s t : State} (h : Keeps s t) (d : List Nat) : Keeps s (State.applyStreamSet t d) := by
  unfold State.applyStreamSet
  repeat' with_reducible (first
    | assumption
    | apply Keeps.update)

theorem cmdTestgenSet_keeps : CmdKeeps cmdTestgenSet := by
  intro s t q d h
  unfold cmdTestgenSet
  dsimp -zeta only
  repeat' with_reducible (first
    | assumption
    | apply State.timedRun_keeps)

theorem execTestgenSet_keeps {s t : State} (h : Keeps s t) (r : Request) : NextKeeps s (execTestgenSet r t) := by
  unfold execTestgenSet
  repeat' with_reducible (first
    | assumption
    | refine NextKeeps.next ?_
    | exact cmdTestgenSet_keeps
    | apply State.serve_keeps)

theorem State.applyTestgenSet_keeps {s t : State} (h : Keeps s t) (d : List Nat) : Keeps s (State.applyTestgenSet t d) := by
  unfold State.applyTestgenSet
  repeat' with_reducible (first
    | assumption
    | apply State.dropJob_keeps
    | apply State.addJob_keeps
    | apply Keeps.ite
    | apply Keeps.update)

theorem cmdZoneStatus_keeps : CmdKeeps cmdZoneStatus := by
  intro s t q d h
  unfold cmdZoneStatus
  dsimp -zeta only
  repeat' with_reducible (first
    | assumption
    | apply State.ok_keeps
    | apply State.reply_keeps
    | apply Keeps.ite)

theorem execZoneStatus_keeps {s t : State} (h : Keeps s t) (r : Request) : NextKeeps s (execZoneStatus r t) := by
  unfold execZoneStatus
  repeat' with_reducible (first
    | assumption
    | refine NextKeeps.next ?_
    | exact cmdZoneStatus_keeps
    | apply State.serve_keeps)

/-! ## CmdPlay -/

theorem State.libWrite_keeps {s t : State} (h : Keeps s t) (r : Region) (page : Nat) (data : List Nat) : Keeps s (State.libWrite t r page data) := by
  unfold State.libWrite
  repeat' with_reducible (first
    | assumption
    | apply State.putBytes_keeps
    | refine Keeps.foldl ?_ (fun u x hu => ?_))

theorem State.libTake_keeps {s t : State} (h : Keeps s t) (b : List Nat) : Keeps s (State.libTake t b).2 := by
  unfold State.libTake
  repeat' with_reducible (first
    | assumption
    | lift_lets
    | apply State.libWrite_keeps
    | apply State.clipSweep_keeps
    | split
    | apply Keeps.update)

theorem cmdLibLoad_keeps : CmdKeeps cmdLibLoad := by
  intro s t q d h
  unfold cmdLibLoad
  dsimp -zeta only
  repeat' with_reducible (first
    | assumption
    | apply State.libTake_keeps
    | apply State.ok_keeps
    | refine State.takeFragment_keeps_eq ?_ (by assumption)
    | apply State.takeFragment_keeps
    | apply State.reply_keeps
    | split)

theorem execLibLoad_keeps {s t : State} (h : Keeps s t) (r : Request) : NextKeeps s (execLibLoad r t) := by
  unfold execLibLoad
  repeat' with_reducible (first
    | assumption
    | refine NextKeeps.next ?_
    | exact cmdLibLoad_keeps
    | apply State.serve_keeps)

theorem cmdLibDelete_keeps : CmdKeeps cmdLibDelete := by
  intro s t q d h
  unfold cmdLibDelete
  dsimp -zeta only
  repeat' with_reducible (first
    | assumption
    | apply State.ok_keeps
    | apply State.clipSweep_keeps
    | apply State.wait_keeps
    | apply State.reply_keeps
    | apply Keeps.ite
    | apply Keeps.update)

theorem execLibDelete_keeps {s t : State} (h : Keeps s t) (r : Request) : NextKeeps s (execLibDelete r t) := by
  unfold execLibDelete
  repeat' with_reducible (first
    | assumption
    | refine NextKeeps.next ?_
    | exact cmdLibDelete_keeps
    | apply State.serve_keeps)

theorem cmdLibList_keeps : CmdKeeps cmdLibList := by
  intro s t q d h
  unfold cmdLibList
  dsimp -zeta only
  repeat' with_reducible (first
    | assumption
    | apply State.ok_keeps
    | apply State.reply_keeps
    | apply Keeps.ite)

theorem execLibList_keeps {s t : State} (h : Keeps s t) (r : Request) : NextKeeps s (execLibList r t) := by
  unfold execLibList
  repeat' with_reducible (first
    | assumption
    | refine NextKeeps.next ?_
    | exact cmdLibList_keeps
    | apply State.serve_keeps)

theorem State.playBegin_keeps {s t : State} (h : Keeps s t) (x : Voice) (cost : Nat) : Keeps s (State.playBegin t x cost) := by
  unfold State.playBegin
  repeat' with_reducible (first
    | assumption
    | apply State.addJob_keeps
    | apply State.voiceStart_keeps)

theorem cmdPlayStart_keeps : CmdKeeps cmdPlayStart := by
  intro s t q d h
  unfold cmdPlayStart
  dsimp -zeta only
  repeat' with_reducible (first
    | assumption
    | apply State.playBegin_keeps
    | apply State.ok_keeps
    | apply State.twinShare_keeps
    | apply State.reply_keeps
    | apply Keeps.ite)

theorem execPlayStart_keeps {s t : State} (h : Keeps s t) (r : Request) : NextKeeps s (execPlayStart r t) := by
  unfold execPlayStart
  repeat' with_reducible (first
    | assumption
    | refine NextKeeps.next ?_
    | exact cmdPlayStart_keeps
    | apply State.serve_keeps)

theorem State.applyPlayStart_keeps {s t : State} (h : Keeps s t) (d : List Nat) : Keeps s (State.applyPlayStart t d) := by
  unfold State.applyPlayStart
  repeat' with_reducible (first
    | assumption
    | apply State.playBegin_keeps
    | apply Keeps.ite)

theorem cmdPlayStop_keeps : CmdKeeps cmdPlayStop := by
  intro s t q d h
  unfold cmdPlayStop
  dsimp -zeta only
  repeat' with_reducible (first
    | assumption
    | apply State.timedRun_keeps)

theorem execPlayStop_keeps {s t : State} (h : Keeps s t) (r : Request) : NextKeeps s (execPlayStop r t) := by
  unfold execPlayStop
  repeat' with_reducible (first
    | assumption
    | refine NextKeeps.next ?_
    | exact cmdPlayStop_keeps
    | apply State.serve_keeps)

theorem State.applyPlayStop_keeps {s t : State} (h : Keeps s t) (d : List Nat) : Keeps s (State.applyPlayStop t d) := by
  unfold State.applyPlayStop
  repeat' with_reducible (first
    | assumption
    | apply State.voiceGone_keeps
    | apply State.clipSweep_keeps
    | split
    | apply Keeps.update)

theorem cmdPlayStatus_keeps : CmdKeeps cmdPlayStatus := by
  intro s t q d h
  unfold cmdPlayStatus
  dsimp -zeta only
  repeat' with_reducible (first
    | assumption
    | apply State.ok_keeps)

theorem execPlayStatus_keeps {s t : State} (h : Keeps s t) (r : Request) : NextKeeps s (execPlayStatus r t) := by
  unfold execPlayStatus
  repeat' with_reducible (first
    | assumption
    | refine NextKeeps.next ?_
    | exact cmdPlayStatus_keeps
    | apply State.serve_keeps)

/-! ## CmdCall -/

theorem cmdCallOpen_keeps : CmdKeeps cmdCallOpen := by
  intro s t q d h
  unfold cmdCallOpen
  dsimp -zeta only
  repeat' with_reducible (first
    | assumption
    | (intro x; clear_value x)
    | lift_lets
    | apply State.ok_keeps
    | apply State.hold_keeps
    | apply State.twinShare_keeps
    | apply State.reply_keeps
    | split)

theorem execCallOpen_keeps {s t : State} (h : Keeps s t) (r : Request) : NextKeeps s (execCallOpen r t) := by
  unfold execCallOpen
  repeat' with_reducible (first
    | assumption
    | refine NextKeeps.next ?_
    | exact cmdCallOpen_keeps
    | apply State.serve_keeps)

theorem State.callGate_keeps {s t : State} (h : Keeps s t) (ix : Nat) (prio : Option Nat) (isOpen : Bool) : Keeps s (State.callGate t ix prio isOpen) := by
  unfold State.callGate
  repeat' with_reducible (first
    | assumption
    | apply Keeps.update)

theorem State.applyCallOpen_keeps {s t : State} (h : Keeps s t) (d : List Nat) : Keeps s (State.applyCallOpen t d) := by
  unfold State.applyCallOpen
  repeat' with_reducible (first
    | assumption
    | apply State.callGate_keeps
    | apply State.setMatrix_keeps
    | apply State.recShow_keeps
    | apply State.callTo_keeps
    | apply State.setFlag_keeps
    | split
    | apply Keeps.update)

theorem cmdCallClose_keeps : CmdKeeps cmdCallClose := by
  intro s t q d h
  unfold cmdCallClose
  dsimp -zeta only
  repeat' with_reducible (first
    | assumption
    | apply State.timedRun_keeps)

theorem execCallClose_keeps {s t : State} (h : Keeps s t) (r : Request) : NextKeeps s (execCallClose r t) := by
  unfold execCallClose
  repeat' with_reducible (first
    | assumption
    | refine NextKeeps.next ?_
    | exact cmdCallClose_keeps
    | apply State.serve_keeps)

theorem State.applyCallClose_keeps {s t : State} (h : Keeps s t) (d : List Nat) : Keeps s (State.applyCallClose t d) := by
  unfold State.applyCallClose
  repeat' with_reducible (first
    | assumption
    | apply State.callGate_keeps
    | apply State.setMatrix_keeps
    | apply State.recShow_keeps
    | apply State.feedEncoder_keeps
    | apply State.callTo_keeps
    | apply State.evtBit_keeps
    | apply State.setFlag_keeps
    | split
    | apply Keeps.update)

theorem cmdCallStatus_keeps : CmdKeeps cmdCallStatus := by
  intro s t q d h
  unfold cmdCallStatus
  dsimp -zeta only
  repeat' with_reducible (first
    | assumption
    | apply State.ok_keeps)

theorem execCallStatus_keeps {s t : State} (h : Keeps s t) (r : Request) : NextKeeps s (execCallStatus r t) := by
  unfold execCallStatus
  repeat' with_reducible (first
    | assumption
    | refine NextKeeps.next ?_
    | exact cmdCallStatus_keeps
    | apply State.serve_keeps)

theorem cmdAecSet_keeps : CmdKeeps cmdAecSet := by
  intro s t q d h
  unfold cmdAecSet
  dsimp -zeta only
  repeat' with_reducible (first
    | assumption
    | apply State.timedRun_keeps)

theorem execAecSet_keeps {s t : State} (h : Keeps s t) (r : Request) : NextKeeps s (execAecSet r t) := by
  unfold execAecSet
  repeat' with_reducible (first
    | assumption
    | refine NextKeeps.next ?_
    | exact cmdAecSet_keeps
    | apply State.serve_keeps)

theorem State.applyAecSet_keeps {s t : State} (h : Keeps s t) (d : List Nat) : Keeps s (State.applyAecSet t d) := by
  unfold State.applyAecSet
  repeat' with_reducible (first
    | assumption
    | apply State.dropJob_keeps
    | apply State.addJob_keeps
    | apply State.setFlag_keeps
    | apply Keeps.ite
    | apply Keeps.update)

theorem State.setPmon_keeps {s t : State} (h : Keeps s t) (z : Nat) (x : PmonSt) : Keeps s (State.setPmon t z x) := by
  unfold State.setPmon
  repeat' with_reducible (first
    | assumption
    | apply Keeps.update)

theorem cmdPmonCommission_keeps : CmdKeeps cmdPmonCommission := by
  intro s t q d h
  unfold cmdPmonCommission
  dsimp -zeta only
  repeat' with_reducible (first
    | assumption
    | apply State.setPmon_keeps
    | apply State.wait_keeps
    | apply State.reply_keeps
    | apply Keeps.ite)

theorem execPmonCommission_keeps {s t : State} (h : Keeps s t) (r : Request) : NextKeeps s (execPmonCommission r t) := by
  unfold execPmonCommission
  repeat' with_reducible (first
    | assumption
    | refine NextKeeps.next ?_
    | exact cmdPmonCommission_keeps
    | apply State.serve_keeps)

theorem State.pmonTick_keeps {s t : State} (h : Keeps s t) : Keeps s (State.pmonTick t) := by
  unfold State.pmonTick
  repeat' with_reducible (first
    | assumption
    | apply State.setPmon_keeps
    | apply State.finishAll_keeps
    | refine Keeps.foldl ?_ (fun u x hu => ?_)
    | apply Keeps.ite)

theorem cmdPmonClear_keeps : CmdKeeps cmdPmonClear := by
  intro s t q d h
  unfold cmdPmonClear
  dsimp -zeta only
  repeat' with_reducible (first
    | assumption
    | apply State.setPmon_keeps
    | apply State.ok_keeps
    | apply State.verdictTo_keeps
    | apply State.reply_keeps
    | apply Keeps.ite)

theorem execPmonClear_keeps {s t : State} (h : Keeps s t) (r : Request) : NextKeeps s (execPmonClear r t) := by
  unfold execPmonClear
  repeat' with_reducible (first
    | assumption
    | refine NextKeeps.next ?_
    | exact cmdPmonClear_keeps
    | apply State.serve_keeps)

theorem cmdStipaRun_keeps : CmdKeeps cmdStipaRun := by
  intro s t q d h
  unfold cmdStipaRun
  dsimp -zeta only
  repeat' with_reducible (first
    | assumption
    | apply State.addJob_keeps
    | apply State.stipaSignal_keeps
    | apply State.wait_keeps
    | apply State.reply_keeps
    | apply State.setFlag_keeps
    | apply State.set_keeps
    | apply Keeps.ite
    | apply Keeps.update)

theorem execStipaRun_keeps {s t : State} (h : Keeps s t) (r : Request) : NextKeeps s (execStipaRun r t) := by
  unfold execStipaRun
  repeat' with_reducible (first
    | assumption
    | refine NextKeeps.next ?_
    | exact cmdStipaRun_keeps
    | apply State.serve_keeps)

theorem State.stipaTick_keeps {s t : State} (h : Keeps s t) : Keeps s (State.stipaTick t) := by
  unfold State.stipaTick
  repeat' with_reducible (first
    | assumption
    | apply State.set_keeps
    | split)

theorem State.lockUnits_keeps {s t : State} (h : Keeps s t) (call : Nat) (on : Bool) : Keeps s (State.lockUnits t call on) := by
  unfold State.lockUnits
  repeat' with_reducible (first
    | assumption
    | apply State.recCounts_keeps
    | apply Keeps.update)

theorem cmdRecLock_keeps : CmdKeeps cmdRecLock := by
  intro s t q d h
  unfold cmdRecLock
  dsimp -zeta only
  repeat' with_reducible (first
    | assumption
    | apply State.lockUnits_keeps
    | apply State.ok_keeps
    | apply State.reply_keeps
    | apply State.evt_keeps
    | apply Keeps.ite)

theorem execRecLock_keeps {s t : State} (h : Keeps s t) (r : Request) : NextKeeps s (execRecLock r t) := by
  unfold execRecLock
  repeat' with_reducible (first
    | assumption
    | refine NextKeeps.next ?_
    | exact cmdRecLock_keeps
    | apply State.serve_keeps)

theorem cmdRecUnlock_keeps : CmdKeeps cmdRecUnlock := by
  intro s t q d h
  unfold cmdRecUnlock
  dsimp -zeta only
  repeat' with_reducible (first
    | assumption
    | apply State.lockUnits_keeps
    | apply State.ok_keeps
    | apply State.reply_keeps
    | apply Keeps.ite)

theorem execRecUnlock_keeps {s t : State} (h : Keeps s t) (r : Request) : NextKeeps s (execRecUnlock r t) := by
  unfold execRecUnlock
  repeat' with_reducible (first
    | assumption
    | refine NextKeeps.next ?_
    | exact cmdRecUnlock_keeps
    | apply State.serve_keeps)

theorem cmdRecIndex_keeps : CmdKeeps cmdRecIndex := by
  intro s t q d h
  unfold cmdRecIndex
  dsimp -zeta only
  repeat' with_reducible (first
    | assumption
    | apply State.ok_keeps
    | apply State.reply_keeps
    | apply Keeps.ite)

theorem execRecIndex_keeps {s t : State} (h : Keeps s t) (r : Request) : NextKeeps s (execRecIndex r t) := by
  unfold execRecIndex
  repeat' with_reducible (first
    | assumption
    | refine NextKeeps.next ?_
    | exact cmdRecIndex_keeps
    | apply State.serve_keeps)

theorem cmdRecExport_keeps : CmdKeeps cmdRecExport := by
  intro s t q d h
  unfold cmdRecExport
  dsimp -zeta only
  repeat' with_reducible (first
    | assumption
    | apply State.wait_keeps
    | apply State.reply_keeps
    | apply Keeps.ite)

theorem execRecExport_keeps {s t : State} (h : Keeps s t) (r : Request) : NextKeeps s (execRecExport r t) := by
  unfold execRecExport
  repeat' with_reducible (first
    | assumption
    | refine NextKeeps.next ?_
    | exact cmdRecExport_keeps
    | apply State.serve_keeps)

theorem State.exportRun_keeps {s t : State} (h : Keeps s t) (first n dest : Nat) : Keeps s (State.exportRun t first n dest).2 := by
  unfold State.exportRun
  refine Keeps.foldl_snd h (fun b x hb => ?_)
  exact State.putBytes_keeps _ _ hb

/-! ## CmdEth -/

theorem cmdEthStatus_keeps : CmdKeeps cmdEthStatus := by
  intro s t q d h
  unfold cmdEthStatus
  dsimp -zeta only
  repeat' with_reducible (first
    | assumption
    | apply State.ok_keeps
    | apply State.reply_keeps
    | apply Keeps.ite)

theorem execEthStatus_keeps {s t : State} (h : Keeps s t) (r : Request) : NextKeeps s (execEthStatus r t) := by
  unfold execEthStatus
  repeat' with_reducible (first
    | assumption
    | refine NextKeeps.next ?_
    | exact cmdEthStatus_keeps
    | apply State.serve_keeps)

theorem cmdEthCounters_keeps : CmdKeeps cmdEthCounters := by
  intro s t q d h
  unfold cmdEthCounters
  dsimp -zeta only
  repeat' with_reducible (first
    | assumption
    | apply State.ok_keeps
    | apply State.reply_keeps
    | apply Keeps.ite)

theorem execEthCounters_keeps {s t : State} (h : Keeps s t) (r : Request) : NextKeeps s (execEthCounters r t) := by
  unfold execEthCounters
  repeat' with_reducible (first
    | assumption
    | refine NextKeeps.next ?_
    | exact cmdEthCounters_keeps
    | apply State.serve_keeps)

theorem State.open__keeps {s t : State} (h : Keeps s t) (q : OpenReq) (p : Pend) : Keeps s (State.open_ t q p) := by
  unfold State.open_
  repeat' with_reducible (first
    | assumption
    | apply State.showOpen_keeps
    | apply Keeps.update)

theorem cmdEthMdio_keeps : CmdKeeps cmdEthMdio := by
  intro s t q d h
  unfold cmdEthMdio
  dsimp -zeta only
  repeat' with_reducible (first
    | assumption
    | apply State.open__keeps
    | apply State.reply_keeps
    | apply Keeps.ite)

theorem execEthMdio_keeps {s t : State} (h : Keeps s t) (r : Request) : NextKeeps s (execEthMdio r t) := by
  unfold execEthMdio
  repeat' with_reducible (first
    | assumption
    | refine NextKeeps.next ?_
    | exact cmdEthMdio_keeps
    | apply State.serve_keeps)

theorem cmdEthGateSet_keeps : CmdKeeps cmdEthGateSet := by
  intro s t q d h
  unfold cmdEthGateSet
  dsimp -zeta only
  repeat' with_reducible (first
    | assumption
    | apply State.ok_keeps
    | apply State.hold_keeps
    | apply State.twinShare_keeps
    | apply State.reply_keeps
    | split)

theorem execEthGateSet_keeps {s t : State} (h : Keeps s t) (r : Request) : NextKeeps s (execEthGateSet r t) := by
  unfold execEthGateSet
  repeat' with_reducible (first
    | assumption
    | refine NextKeeps.next ?_
    | exact cmdEthGateSet_keeps
    | apply State.serve_keeps)

theorem State.applyEthGateSet_keeps {s t : State} (h : Keeps s t) (d : List Nat) : Keeps s (State.applyEthGateSet t d) := by
  unfold State.applyEthGateSet
  repeat' with_reducible (first
    | assumption
    | apply State.gateSet_keeps)

theorem cmdPtpSet_keeps : CmdKeeps cmdPtpSet := by
  intro s t q d h
  unfold cmdPtpSet
  dsimp -zeta only
  repeat' with_reducible (first
    | assumption
    | apply State.ok_keeps
    | apply State.twinShare_keeps
    | apply State.ptpSet_keeps
    | apply State.reply_keeps
    | apply Keeps.ite)

theorem execPtpSet_keeps {s t : State} (h : Keeps s t) (r : Request) : NextKeeps s (execPtpSet r t) := by
  unfold execPtpSet
  repeat' with_reducible (first
    | assumption
    | refine NextKeeps.next ?_
    | exact cmdPtpSet_keeps
    | apply State.serve_keeps)

theorem State.applyPtpSet_keeps {s t : State} (h : Keeps s t) (d : List Nat) : Keeps s (State.applyPtpSet t d) := by
  unfold State.applyPtpSet
  repeat' with_reducible (first
    | assumption
    | apply State.ptpSet_keeps)

theorem cmdPtpStatus_keeps : CmdKeeps cmdPtpStatus := by
  intro s t q d h
  unfold cmdPtpStatus
  dsimp -zeta only
  repeat' with_reducible (first
    | assumption
    | apply State.ok_keeps)

theorem execPtpStatus_keeps {s t : State} (h : Keeps s t) (r : Request) : NextKeeps s (execPtpStatus r t) := by
  unfold execPtpStatus
  repeat' with_reducible (first
    | assumption
    | refine NextKeeps.next ?_
    | exact cmdPtpStatus_keeps
    | apply State.serve_keeps)

theorem State.addStream_keeps {s t : State} (h : Keeps s t) (d : List Nat) (mco : Nat → Nat) : Keeps s (State.addStream t d mco).2 := by
  unfold State.addStream
  repeat' with_reducible (first
    | assumption
    | split
    | apply Keeps.update)

theorem State.addStream_keeps_eq {s t u : State} (h : Keeps s t) {d : List Nat} {mco : Nat → Nat} {z} (e : State.addStream t d mco = (z, u)) : Keeps s u := by
  have k := State.addStream_keeps h d mco
  rw [e] at k; exact k

theorem cmdStreamAdd_keeps : CmdKeeps cmdStreamAdd := by
  intro s t q d h
  unfold cmdStreamAdd
  dsimp -zeta only
  repeat' with_reducible (first
    | assumption
    | refine State.addStream_keeps_eq ?_ (by assumption)
    | apply State.ok_keeps
    | apply State.twinShare_keeps
    | apply State.reply_keeps
    | split)

theorem execStreamAdd_keeps {s t : State} (h : Keeps s t) (r : Request) : NextKeeps s (execStreamAdd r t) := by
  unfold execStreamAdd
  repeat' with_reducible (first
    | assumption
    | refine NextKeeps.next ?_
    | exact cmdStreamAdd_keeps
    | apply State.serve_keeps)

theorem State.removeStream_keeps {s t : State} (h : Keeps s t) (id : Nat) : Keeps s (State.removeStream t id) := by
  unfold State.removeStream
  repeat' with_reducible (first
    | assumption
    | apply Keeps.update)

theorem cmdStreamRemove_keeps : CmdKeeps cmdStreamRemove := by
  intro s t q d h
  unfold cmdStreamRemove
  dsimp -zeta only
  repeat' with_reducible (first
    | assumption
    | apply State.removeStream_keeps
    | apply State.ok_keeps
    | apply State.twinShare_keeps
    | apply State.reply_keeps
    | apply Keeps.ite)

theorem execStreamRemove_keeps {s t : State} (h : Keeps s t) (r : Request) : NextKeeps s (execStreamRemove r t) := by
  unfold execStreamRemove
  repeat' with_reducible (first
    | assumption
    | refine NextKeeps.next ?_
    | exact cmdStreamRemove_keeps
    | apply State.serve_keeps)

theorem cmdPralineSet_keeps : CmdKeeps cmdPralineSet := by
  intro s t q d h
  unfold cmdPralineSet
  dsimp -zeta only
  repeat' with_reducible (first
    | assumption
    | apply State.ok_keeps
    | apply State.pralineSet_keeps
    | apply State.reply_keeps
    | apply Keeps.ite)

theorem execPralineSet_keeps {s t : State} (h : Keeps s t) (r : Request) : NextKeeps s (execPralineSet r t) := by
  unfold execPralineSet
  repeat' with_reducible (first
    | assumption
    | refine NextKeeps.next ?_
    | exact cmdPralineSet_keeps
    | apply State.serve_keeps)

theorem cmdCanStatus_keeps : CmdKeeps cmdCanStatus := by
  intro s t q d h
  unfold cmdCanStatus
  dsimp -zeta only
  repeat' with_reducible (first
    | assumption
    | apply State.ok_keeps
    | apply State.fresh_keeps)

theorem execCanStatus_keeps {s t : State} (h : Keeps s t) (r : Request) : NextKeeps s (execCanStatus r t) := by
  unfold execCanStatus
  repeat' with_reducible (first
    | assumption
    | refine NextKeeps.next ?_
    | exact cmdCanStatus_keeps
    | apply State.serve_keeps)

theorem State.applyCanSetRate_keeps {s t : State} (h : Keeps s t) (d : List Nat) : Keeps s (State.applyCanSetRate t d) := by
  unfold State.applyCanSetRate
  repeat' with_reducible (first
    | assumption
    | apply State.set_keeps)

theorem cmdCanSetRate_keeps : CmdKeeps cmdCanSetRate := by
  intro s t q d h
  unfold cmdCanSetRate
  dsimp -zeta only
  repeat' with_reducible (first
    | assumption
    | apply State.applyCanSetRate_keeps
    | apply State.ok_keeps
    | apply State.twinShare_keeps
    | apply State.reply_keeps
    | apply Keeps.ite)

theorem execCanSetRate_keeps {s t : State} (h : Keeps s t) (r : Request) : NextKeeps s (execCanSetRate r t) := by
  unfold execCanSetRate
  repeat' with_reducible (first
    | assumption
    | refine NextKeeps.next ?_
    | exact cmdCanSetRate_keeps
    | apply State.serve_keeps)

theorem cmdCanSchedSet_keeps : CmdKeeps cmdCanSchedSet := by
  intro s t q d h
  unfold cmdCanSchedSet
  dsimp -zeta only
  repeat' with_reducible (first
    | assumption
    | apply State.ok_keeps
    | apply State.hold_keeps
    | apply State.twinShare_keeps
    | apply State.reply_keeps
    | split)

theorem execCanSchedSet_keeps {s t : State} (h : Keeps s t) (r : Request) : NextKeeps s (execCanSchedSet r t) := by
  unfold execCanSchedSet
  repeat' with_reducible (first
    | assumption
    | refine NextKeeps.next ?_
    | exact cmdCanSchedSet_keeps
    | apply State.serve_keeps)

theorem State.applyCanSchedSet_keeps {s t : State} (h : Keeps s t) (d : List Nat) : Keeps s (State.applyCanSchedSet t d) := by
  unfold State.applyCanSchedSet
  repeat' with_reducible (first
    | assumption
    | apply State.schedSet_keeps)

theorem State.applyCanObjSet_keeps {s t : State} (h : Keeps s t) (d : List Nat) : Keeps s (State.applyCanObjSet t d) := by
  unfold State.applyCanObjSet
  repeat' with_reducible (first
    | assumption
    | apply State.objDisable_keeps
    | apply State.setFlag_keeps
    | apply State.set_keeps)

theorem cmdCanObjSet_keeps : CmdKeeps cmdCanObjSet := by
  intro s t q d h
  unfold cmdCanObjSet
  dsimp -zeta only
  repeat' with_reducible (first
    | assumption
    | apply State.applyCanObjSet_keeps
    | apply State.ok_keeps
    | apply State.reply_keeps
    | apply Keeps.ite)

theorem execCanObjSet_keeps {s t : State} (h : Keeps s t) (r : Request) : NextKeeps s (execCanObjSet r t) := by
  unfold execCanObjSet
  repeat' with_reducible (first
    | assumption
    | refine NextKeeps.next ?_
    | exact cmdCanObjSet_keeps
    | apply State.serve_keeps)

theorem cmdCanSend_keeps : CmdKeeps cmdCanSend := by
  intro s t q d h
  unfold cmdCanSend
  dsimp -zeta only
  repeat' with_reducible (first
    | assumption
    | apply State.ok_keeps
    | apply State.objSend_keeps
    | apply State.storeWrite_keeps
    | apply State.reply_keeps
    | apply State.set_keeps
    | apply Keeps.ite)

theorem execCanSend_keeps {s t : State} (h : Keeps s t) (r : Request) : NextKeeps s (execCanSend r t) := by
  unfold execCanSend
  repeat' with_reducible (first
    | assumption
    | refine NextKeeps.next ?_
    | exact cmdCanSend_keeps
    | apply State.serve_keeps)

theorem cmdCanWakeSet_keeps : CmdKeeps cmdCanWakeSet := by
  intro s t q d h
  unfold cmdCanWakeSet
  dsimp -zeta only
  repeat' with_reducible (first
    | assumption
    | apply State.ok_keeps
    | apply State.reply_keeps
    | apply State.set_keeps
    | apply Keeps.ite
    | apply Keeps.update)

theorem execCanWakeSet_keeps {s t : State} (h : Keeps s t) (r : Request) : NextKeeps s (execCanWakeSet r t) := by
  unfold execCanWakeSet
  repeat' with_reducible (first
    | assumption
    | refine NextKeeps.next ?_
    | exact cmdCanWakeSet_keeps
    | apply State.serve_keeps)

/-! ## CmdPower -/

theorem cmdPwrStatus_keeps : CmdKeeps cmdPwrStatus := by
  intro s t q d h
  unfold cmdPwrStatus
  dsimp -zeta only
  repeat' with_reducible (first
    | assumption
    | apply State.ok_keeps)

theorem execPwrStatus_keeps {s t : State} (h : Keeps s t) (r : Request) : NextKeeps s (execPwrStatus r t) := by
  unfold execPwrStatus
  repeat' with_reducible (first
    | assumption
    | refine NextKeeps.next ?_
    | exact cmdPwrStatus_keeps
    | apply State.serve_keeps)

theorem State.abortOthers_keeps {s t : State} (h : Keeps s t) : Keeps s (State.abortOthers t) := by
  unfold State.abortOthers
  repeat' with_reducible (first
    | assumption
    | apply State.stipaEnd_keeps
    | apply State.storeTestStop_keeps
    | apply State.finishAll_keeps
    | apply Keeps.ite
    | apply Keeps.update)

theorem cmdPwrSetState_keeps : CmdKeeps cmdPwrSetState := by
  intro s t q d h
  unfold cmdPwrSetState
  dsimp -zeta only
  repeat' with_reducible (first
    | assumption
    | apply State.abortOthers_keeps
    | apply State.ok_keeps
    | apply State.toActive_keeps
    | apply State.toQuiet_keeps
    | apply State.reply_keeps
    | apply State.set_keeps
    | apply Keeps.ite)

theorem execPwrSetState_keeps {s t : State} (h : Keeps s t) (r : Request) : NextKeeps s (execPwrSetState r t) := by
  unfold execPwrSetState
  repeat' with_reducible (first
    | assumption
    | refine NextKeeps.next ?_
    | exact cmdPwrSetState_keeps
    | apply State.serve_keeps)

theorem cmdPwrVote_keeps : CmdKeeps cmdPwrVote := by
  intro s t q d h
  unfold cmdPwrVote
  dsimp -zeta only
  repeat' with_reducible (first
    | assumption
    | apply State.ok_keeps
    | apply State.hostVote_keeps
    | apply State.reply_keeps
    | apply Keeps.ite)

theorem execPwrVote_keeps {s t : State} (h : Keeps s t) (r : Request) : NextKeeps s (execPwrVote r t) := by
  unfold execPwrVote
  repeat' with_reducible (first
    | assumption
    | refine NextKeeps.next ?_
    | exact cmdPwrVote_keeps
    | apply State.serve_keeps)

theorem cmdPwrPerf_keeps : CmdKeeps cmdPwrPerf := by
  intro s t q d h
  unfold cmdPwrPerf
  dsimp -zeta only
  repeat' with_reducible (first
    | assumption
    | apply State.ok_keeps
    | apply State.twinShare_keeps
    | apply State.pointTo_keeps
    | apply State.reply_keeps
    | apply Keeps.ite)

theorem execPwrPerf_keeps {s t : State} (h : Keeps s t) (r : Request) : NextKeeps s (execPwrPerf r t) := by
  unfold execPwrPerf
  repeat' with_reducible (first
    | assumption
    | refine NextKeeps.next ?_
    | exact cmdPwrPerf_keeps
    | apply State.serve_keeps)

theorem cmdPwrWakeCfg_keeps : CmdKeeps cmdPwrWakeCfg := by
  intro s t q d h
  unfold cmdPwrWakeCfg
  dsimp -zeta only
  repeat' with_reducible (first
    | assumption
    | apply State.ok_keeps
    | apply State.reply_keeps
    | apply State.set_keeps
    | apply Keeps.ite)

theorem execPwrWakeCfg_keeps {s t : State} (h : Keeps s t) (r : Request) : NextKeeps s (execPwrWakeCfg r t) := by
  unfold execPwrWakeCfg
  repeat' with_reducible (first
    | assumption
    | refine NextKeeps.next ?_
    | exact cmdPwrWakeCfg_keeps
    | apply State.serve_keeps)

theorem cmdPwrResidency_keeps : CmdKeeps cmdPwrResidency := by
  intro s t q d h
  unfold cmdPwrResidency
  dsimp -zeta only
  repeat' with_reducible (first
    | assumption
    | apply State.ok_keeps)

theorem execPwrResidency_keeps {s t : State} (h : Keeps s t) (r : Request) : NextKeeps s (execPwrResidency r t) := by
  unfold execPwrResidency
  repeat' with_reducible (first
    | assumption
    | refine NextKeeps.next ?_
    | exact cmdPwrResidency_keeps
    | apply State.serve_keeps)

theorem cmdAwakeHold_keeps : CmdKeeps cmdAwakeHold := by
  intro s t q d h
  unfold cmdAwakeHold
  dsimp -zeta only
  repeat' with_reducible (first
    | assumption
    | apply State.ok_keeps
    | apply State.holdsNow_keeps
    | apply State.reply_keeps
    | apply State.set_keeps
    | apply Keeps.ite)

theorem execAwakeHold_keeps {s t : State} (h : Keeps s t) (r : Request) : NextKeeps s (execAwakeHold r t) := by
  unfold execAwakeHold
  repeat' with_reducible (first
    | assumption
    | refine NextKeeps.next ?_
    | exact cmdAwakeHold_keeps
    | apply State.serve_keeps)

theorem cmdNetSleepStatus_keeps : CmdKeeps cmdNetSleepStatus := by
  intro s t q d h
  unfold cmdNetSleepStatus
  dsimp -zeta only
  repeat' with_reducible (first
    | assumption
    | apply State.ok_keeps)

theorem execNetSleepStatus_keeps {s t : State} (h : Keeps s t) (r : Request) : NextKeeps s (execNetSleepStatus r t) := by
  unfold execNetSleepStatus
  repeat' with_reducible (first
    | assumption
    | refine NextKeeps.next ?_
    | exact cmdNetSleepStatus_keeps
    | apply State.serve_keeps)

theorem cmdSecStatus_keeps : CmdKeeps cmdSecStatus := by
  intro s t q d h
  unfold cmdSecStatus
  dsimp -zeta only
  repeat' with_reducible (first
    | assumption
    | apply State.ok_keeps)

theorem execSecStatus_keeps {s t : State} (h : Keeps s t) (r : Request) : NextKeeps s (execSecStatus r t) := by
  unfold execSecStatus
  repeat' with_reducible (first
    | assumption
    | refine NextKeeps.next ?_
    | exact cmdSecStatus_keeps
    | apply State.serve_keeps)

theorem cmdAuthChallenge_keeps : CmdKeeps cmdAuthChallenge := by
  intro s t q d h
  unfold cmdAuthChallenge
  dsimp -zeta only
  repeat' with_reducible (first
    | assumption
    | apply State.ok_keeps
    | apply State.newChallenge_keeps)

theorem execAuthChallenge_keeps {s t : State} (h : Keeps s t) (r : Request) : NextKeeps s (execAuthChallenge r t) := by
  unfold execAuthChallenge
  repeat' with_reducible (first
    | assumption
    | refine NextKeeps.next ?_
    | exact cmdAuthChallenge_keeps
    | apply State.serve_keeps)

theorem cmdKeyReplace_keeps : CmdKeeps cmdKeyReplace := by
  intro s t q d h
  unfold cmdKeyReplace
  dsimp -zeta only
  repeat' with_reducible (first
    | assumption
    | apply State.wait_keeps
    | apply State.reply_keeps
    | apply State.set_keeps
    | apply Keeps.ite
    | apply Keeps.update)

theorem execKeyReplace_keeps {s t : State} (h : Keeps s t) (r : Request) : NextKeeps s (execKeyReplace r t) := by
  unfold execKeyReplace
  repeat' with_reducible (first
    | assumption
    | refine NextKeeps.next ?_
    | exact cmdKeyReplace_keeps
    | apply State.serve_keeps)

theorem cmdKeyKcv_keeps : CmdKeeps cmdKeyKcv := by
  intro s t q d h
  unfold cmdKeyKcv
  dsimp -zeta only
  repeat' with_reducible (first
    | assumption
    | apply State.ok_keeps
    | apply State.reply_keeps
    | apply Keeps.ite)

theorem execKeyKcv_keeps {s t : State} (h : Keeps s t) (r : Request) : NextKeeps s (execKeyKcv r t) := by
  unfold execKeyKcv
  repeat' with_reducible (first
    | assumption
    | refine NextKeeps.next ?_
    | exact cmdKeyKcv_keeps
    | apply State.serve_keeps)

theorem cmdTamperClear_keeps : CmdKeeps cmdTamperClear := by
  intro s t q d h
  unfold cmdTamperClear
  dsimp -zeta only
  repeat' with_reducible (first
    | assumption
    | apply State.ok_keeps
    | apply State.tamperClear_keeps)

theorem execTamperClear_keeps {s t : State} (h : Keeps s t) (r : Request) : NextKeeps s (execTamperClear r t) := by
  unfold execTamperClear
  repeat' with_reducible (first
    | assumption
    | refine NextKeeps.next ?_
    | exact cmdTamperClear_keeps
    | apply State.serve_keeps)

theorem cmdGetMeasurement_keeps : CmdKeeps cmdGetMeasurement := by
  intro s t q d h
  unfold cmdGetMeasurement
  dsimp -zeta only
  repeat' with_reducible (first
    | assumption
    | apply State.ok_keeps)

theorem execGetMeasurement_keeps {s t : State} (h : Keeps s t) (r : Request) : NextKeeps s (execGetMeasurement r t) := by
  unfold execGetMeasurement
  repeat' with_reducible (first
    | assumption
    | refine NextKeeps.next ?_
    | exact cmdGetMeasurement_keeps
    | apply State.serve_keeps)

theorem cmdEvrStatus_keeps : CmdKeeps cmdEvrStatus := by
  intro s t q d h
  unfold cmdEvrStatus
  dsimp -zeta only
  repeat' with_reducible (first
    | assumption
    | apply State.ok_keeps)

theorem execEvrStatus_keeps {s t : State} (h : Keeps s t) (r : Request) : NextKeeps s (execEvrStatus r t) := by
  unfold execEvrStatus
  repeat' with_reducible (first
    | assumption
    | refine NextKeeps.next ?_
    | exact cmdEvrStatus_keeps
    | apply State.serve_keeps)

theorem cmdEvrRead_keeps : CmdKeeps cmdEvrRead := by
  intro s t q d h
  unfold cmdEvrRead
  dsimp -zeta only
  repeat' with_reducible (first
    | assumption
    | apply State.ok_keeps
    | apply State.reply_keeps
    | apply Keeps.ite)

theorem execEvrRead_keeps {s t : State} (h : Keeps s t) (r : Request) : NextKeeps s (execEvrRead r t) := by
  unfold execEvrRead
  repeat' with_reducible (first
    | assumption
    | refine NextKeeps.next ?_
    | exact cmdEvrRead_keeps
    | apply State.serve_keeps)

theorem cmdEvrClear_keeps : CmdKeeps cmdEvrClear := by
  intro s t q d h
  unfold cmdEvrClear
  dsimp -zeta only
  repeat' with_reducible (first
    | assumption
    | apply State.ok_keeps
    | apply State.clearRecorder_keeps
    | apply State.reply_keeps
    | apply Keeps.ite)

theorem execEvrClear_keeps {s t : State} (h : Keeps s t) (r : Request) : NextKeeps s (execEvrClear r t) := by
  unfold execEvrClear
  repeat' with_reducible (first
    | assumption
    | refine NextKeeps.next ?_
    | exact cmdEvrClear_keeps
    | apply State.serve_keeps)

theorem cmdEvrPendingRead_keeps : CmdKeeps cmdEvrPendingRead := by
  intro s t q d h
  unfold cmdEvrPendingRead
  dsimp -zeta only
  repeat' with_reducible (first
    | assumption
    | apply State.ok_keeps)

theorem execEvrPendingRead_keeps {s t : State} (h : Keeps s t) (r : Request) : NextKeeps s (execEvrPendingRead r t) := by
  unfold execEvrPendingRead
  repeat' with_reducible (first
    | assumption
    | refine NextKeeps.next ?_
    | exact cmdEvrPendingRead_keeps
    | apply State.serve_keeps)

theorem cmdBistRun_keeps : CmdKeeps cmdBistRun := by
  intro s t q d h
  unfold cmdBistRun
  dsimp -zeta only
  repeat' with_reducible (first
    | assumption
    | apply State.ok_keeps
    | apply State.resetNode_keeps
    | apply State.reply_keeps
    | apply Keeps.ite)

theorem execBistRun_keeps {s t : State} (h : Keeps s t) (r : Request) : NextKeeps s (execBistRun r t) := by
  unfold execBistRun
  repeat' with_reducible (first
    | assumption
    | refine NextKeeps.next ?_
    | exact cmdBistRun_keeps
    | apply State.serve_keeps)

theorem cmdBistResult_keeps : CmdKeeps cmdBistResult := by
  intro s t q d h
  unfold cmdBistResult
  dsimp -zeta only
  repeat' with_reducible (first
    | assumption
    | apply State.ok_keeps)

theorem execBistResult_keeps {s t : State} (h : Keeps s t) (r : Request) : NextKeeps s (execBistResult r t) := by
  unfold execBistResult
  repeat' with_reducible (first
    | assumption
    | refine NextKeeps.next ?_
    | exact cmdBistResult_keeps
    | apply State.serve_keeps)

theorem cmdStoreTest_keeps : CmdKeeps cmdStoreTest := by
  intro s t q d h
  unfold cmdStoreTest
  dsimp -zeta only
  repeat' with_reducible (first
    | assumption
    | apply State.storeTestStart_keeps
    | apply State.wait_keeps
    | apply State.reply_keeps
    | apply Keeps.ite)

theorem execStoreTest_keeps {s t : State} (h : Keeps s t) (r : Request) : NextKeeps s (execStoreTest r t) := by
  unfold execStoreTest
  repeat' with_reducible (first
    | assumption
    | refine NextKeeps.next ?_
    | exact cmdStoreTest_keeps
    | apply State.serve_keeps)

theorem cmdLaneTest_keeps : CmdKeeps cmdLaneTest := by
  intro s t q d h
  unfold cmdLaneTest
  dsimp -zeta only
  repeat' with_reducible (first
    | assumption
    | apply State.ok_keeps
    | apply State.stackLaneMode_keeps
    | apply laneTestMode_keeps
    | apply State.reply_keeps
    | apply Keeps.ite)

theorem execLaneTest_keeps {s t : State} (h : Keeps s t) (r : Request) : NextKeeps s (execLaneTest r t) := by
  unfold execLaneTest
  repeat' with_reducible (first
    | assumption
    | refine NextKeeps.next ?_
    | exact cmdLaneTest_keeps
    | apply State.serve_keeps)

theorem cmdLaneTestResult_keeps : CmdKeeps cmdLaneTestResult := by
  intro s t q d h
  unfold cmdLaneTestResult
  dsimp -zeta only
  repeat' with_reducible (first
    | assumption
    | apply State.ok_keeps
    | apply State.reply_keeps
    | apply Keeps.ite)

theorem execLaneTestResult_keeps {s t : State} (h : Keeps s t) (r : Request) : NextKeeps s (execLaneTestResult r t) := by
  unfold execLaneTestResult
  repeat' with_reducible (first
    | assumption
    | refine NextKeeps.next ?_
    | exact cmdLaneTestResult_keeps
    | apply State.serve_keeps)

/-! ## ConfigImg -/

theorem State.imageLoad_keeps {s t : State} (h : Keeps s t) (off word : Nat) : Keeps s (State.imageLoad t off word) := by
  unfold State.imageLoad
  repeat' with_reducible (first
    | assumption
    | apply State.regWriteUp_keeps
    | apply Keeps.ite)

theorem State.imageAudio_keeps {s t : State} (h : Keeps s t) (i : Config.Image) : Keeps s (State.imageAudio t i) := by
  unfold State.imageAudio
  repeat' with_reducible (first
    | assumption
    | apply State.applyTestgenSet_keeps
    | apply State.applyZoneOut_keeps
    | apply State.setFlag_keeps
    | refine Keeps.foldl ?_ (fun u x hu => ?_)
    | apply Keeps.ite
    | apply Keeps.update)

theorem State.imageMatrix_keeps {s t : State} (h : Keeps s t) (i : Config.Image) : Keeps s (State.imageMatrix t i) := by
  unfold State.imageMatrix
  repeat' with_reducible (first
    | assumption
    | apply Keeps.update)

theorem State.imageStreams_keeps {s t : State} (h : Keeps s t) (i : Config.Image) : Keeps s (State.imageStreams t i) := by
  unfold State.imageStreams
  repeat' with_reducible (first
    | assumption
    | apply State.addStream_keeps
    | refine Keeps.foldl ?_ (fun u x hu => ?_)
    | apply Keeps.update)

theorem State.imageSetting_keeps {s t : State} (h : Keeps s t) (op : Nat) (d : List Nat) : Keeps s (State.imageSetting t op d) := by
  unfold State.imageSetting
  repeat' with_reducible (first
    | assumption
    | (intro x; clear_value x)
    | lift_lets
    | apply State.applyCanObjSet_keeps
    | apply State.applyCanSchedSet_keeps
    | apply State.applyCanSetRate_keeps
    | apply State.applyPtpSet_keeps
    | apply State.applyEthGateSet_keeps
    | apply State.applyAecSet_keeps
    | apply State.applyTestgenSet_keeps
    | apply State.applyStreamSet_keeps
    | apply State.applyZoneOut_keeps
    | apply State.applyZoneEq_keeps
    | apply State.applyZoneCand_keeps
    | apply State.applyZoneSet_keeps
    | apply State.pralineSet_keeps
    | split)

theorem State.imageJobsIn_keeps {s t : State} (h : Keeps s t) (i : Config.Image) : Keeps s (State.imageJobsIn t i) := by
  unfold State.imageJobsIn
  repeat' with_reducible (first
    | assumption
    | apply State.showLoad_keeps
    | apply Keeps.update)

theorem State.imageMapIn_keeps {s t : State} (h : Keeps s t) (i : Config.Image) : Keeps s (State.imageMapIn t i) := by
  unfold State.imageMapIn
  repeat' with_reducible (first
    | assumption
    | apply Keeps.update)

theorem State.imageClips_keeps {s t : State} (h : Keeps s t) (i : Config.Image) : Keeps s (State.imageClips t i) := by
  unfold State.imageClips
  repeat' with_reducible (first
    | assumption
    | apply State.libTake_keeps
    | refine Keeps.foldl ?_ (fun u x hu => ?_)
    | apply Keeps.ite)

theorem State.takeImage_keeps {s t : State} (h : Keeps s t) (i : Config.Image) : Keeps s (State.takeImage t i) := by
  unfold State.takeImage
  repeat' with_reducible (first
    | assumption
    | apply State.imageClips_keeps
    | apply State.imageMapIn_keeps
    | apply State.imageJobsIn_keeps
    | apply State.imageSetting_keeps
    | apply State.imageStreams_keeps
    | apply State.imageMatrix_keeps
    | apply State.imageAudio_keeps
    | apply State.imageLoad_keeps
    | apply State.recShow_keeps
    | refine Keeps.foldl ?_ (fun u x hu => ?_)
    | apply Keeps.ite
    | apply Keeps.update)

theorem State.imageUnits_keeps {s t : State} (h : Keeps s t) (old new : Config.Image) : Keeps s (State.imageUnits t old new) := by
  unfold State.imageUnits
  repeat' with_reducible (first
    | assumption
    | apply State.unitsEnable_keeps
    | apply State.unitDisable_keeps
    | apply State.unitDone_keeps
    | refine Keeps.foldl ?_ (fun u x hu => ?_)
    | apply Keeps.update)

theorem State.changeImage_keeps {s t : State} (h : Keeps s t) (k : Nat) : Keeps s (State.changeImage t k) := by
  unfold State.changeImage
  repeat' with_reducible (first
    | assumption
    | apply State.imageUnits_keeps
    | apply State.takeImage_keeps)

theorem State.commitImage_keeps {s t : State} (h : Keeps s t) (k tick : Nat) : Keeps s (State.commitImage t k tick) := by
  unfold State.commitImage
  repeat' with_reducible (first
    | assumption
    | apply State.changeImage_keeps
    | apply State.cfgEvt_keeps
    | apply State.noteConfig_keeps
    | apply State.writeRecordCfg_keeps
    | apply State.showCfg_keeps
    | apply State.finishAll_keeps
    | apply State.post_keeps)

theorem State.takeDue_keeps {s t : State} (h : Keeps s t) (p : Timed → Bool) : Keeps s (State.takeDue t p).2 := by
  unfold State.takeDue
  repeat' with_reducible (first
    | assumption
    | apply Keeps.update)

theorem State.takeDue_keeps_eq {s t u : State} (h : Keeps s t) {p : Timed → Bool} {z} (e : State.takeDue t p = (z, u)) : Keeps s u := by
  have k := State.takeDue_keeps h p
  rw [e] at k; exact k

theorem execConfigCommit_keeps {s t : State} (h : Keeps s t) : NextKeeps s (execConfigCommit t) := by
  unfold execConfigCommit
  repeat' with_reducible (first
    | assumption
    | refine NextKeeps.next ?_
    | refine State.takeDue_keeps_eq ?_ (by assumption)
    | apply State.commitImage_keeps
    | apply State.applyBegin_keeps
    | split
    | apply Keeps.update)

theorem execConfirmTimerExpiry_keeps {s t : State} (h : Keeps s t) : NextKeeps s (execConfirmTimerExpiry t) := by
  unfold execConfirmTimerExpiry
  repeat' with_reducible (first
    | assumption
    | refine NextKeeps.next ?_
    | apply State.rollBegin_keeps
    | apply State.hold_keeps
    | split)

theorem State.returnImage_keeps {s t : State} (h : Keeps s t) (auto : Bool) (tick : Nat) : Keeps s (State.returnImage t auto tick) := by
  unfold State.returnImage
  repeat' with_reducible (first
    | assumption
    | apply State.imageUnits_keeps
    | apply State.takeImage_keeps
    | apply State.cfgEvt_keeps
    | apply State.noteConfig_keeps
    | apply State.writeRecordCfg_keeps
    | apply State.showCfg_keeps
    | apply State.finishAll_keeps
    | apply State.post_keeps)

theorem execRollbackApply_keeps {s t : State} (h : Keeps s t) : NextKeeps s (execRollbackApply t) := by
  unfold execRollbackApply
  repeat' with_reducible (first
    | assumption
    | refine NextKeeps.next ?_
    | apply State.returnImage_keeps
    | refine State.takeDue_keeps_eq ?_ (by assumption)
    | apply State.cfgCancel_keeps
    | split)

theorem State.applyTimed_keeps {s t : State} (h : Keeps s t) (t' : Timed) : Keeps s (State.applyTimed t t') := by
  unfold State.applyTimed
  repeat' with_reducible (first
    | assumption
    | apply State.applyCanSchedSet_keeps
    | apply State.applyCanSetRate_keeps
    | apply State.removeStream_keeps
    | apply State.addStream_keeps
    | apply State.applyPtpSet_keeps
    | apply State.applyEthGateSet_keeps
    | apply State.applyAecSet_keeps
    | apply State.applyCallClose_keeps
    | apply State.applyCallOpen_keeps
    | apply State.applyPlayStop_keeps
    | apply State.applyPlayStart_keeps
    | apply State.applyTestgenSet_keeps
    | apply State.applyStreamSet_keeps
    | apply State.applyZoneOut_keeps
    | apply State.applyZoneEq_keeps
    | apply State.applyZoneCand_keeps
    | apply State.applyZoneSet_keeps
    | apply State.applyXpSet_keeps
    | apply State.cfgConfirm_keeps
    | apply State.applyCfgLoad_keeps
    | apply State.showCfg_keeps
    | apply State.pointTo_keeps
    | split
    | apply Keeps.update)

theorem State.applyUnits_keeps {s t : State} (h : Keeps s t) (l : List Timed) : Keeps s (State.applyUnits t l) := by
  unfold State.applyUnits
  repeat' with_reducible (first
    | assumption
    | apply State.unitsEnable_keeps
    | apply State.railUnits_keeps
    | apply State.unitDisable_keeps
    | refine Keeps.foldl ?_ (fun u x hu => ?_))

theorem execTimedChangeApply_keeps {s t : State} (h : Keeps s t) : NextKeeps s (execTimedChangeApply t) := by
  unfold execTimedChangeApply
  repeat' with_reducible (first
    | assumption
    | refine NextKeeps.next ?_
    | exact trivial
    | (intro x; refine_lift have hx : Keeps s x := ?_; ?_; dsimp only [x])
    | (intro u hu)
    | (intro u)
    | (intro u; dsimp only)
    | lift_lets
    | apply State.applyUnits_keeps
    | apply State.applyTimed_keeps
    | refine State.takeDue_keeps_eq ?_ (by assumption)
    | apply State.takeDue_keeps
    | refine Keeps.foldl ?_ (fun u x hu => ?_))

theorem State.startConfig_keeps {s t : State} (h : Keeps s t) : Keeps s (State.startConfig t) := by
  unfold State.startConfig
  repeat' with_reducible (first
    | assumption
    | apply State.cfgEvt_keeps
    | apply State.noteConfig_keeps
    | apply State.writeRecordCfg_keeps
    | apply State.post_keeps
    | split
    | apply Keeps.update)

/-! ## Serve -/

theorem catalogue1_keeps : ∀ c ∈ catalogue1, CmdKeeps c := by
  intro c hc
  simp only [catalogue1, List.mem_cons, List.not_mem_nil, or_false] at hc
  obtain rfl | rfl | rfl | rfl | rfl | rfl | rfl | rfl | rfl | rfl | rfl | rfl | rfl | rfl | rfl | rfl | rfl | rfl | rfl | rfl | rfl | rfl | rfl | rfl := hc
  · exact cmdPing_keeps
  · exact cmdStateSummary_keeps
  · exact cmdReducedSummary_keeps
  · exact cmdGetIdentity_keeps
  · exact cmdGetTime_keeps
  · exact cmdSetRtc_keeps
  · exact cmdSetNoteLevel_keeps
  · exact cmdServiceMode_keeps
  · exact cmdNodeReset_keeps
  · exact cmdUnitGet_keeps
  · exact cmdUnitEnable_keeps
  · exact cmdUnitDisable_keeps
  · exact cmdCfgLoad_keeps
  · exact cmdCfgApply_keeps
  · exact cmdCfgConfirm_keeps
  · exact cmdCfgRollback_keeps
  · exact cmdCfgStatus_keeps
  · exact cmdCfgRead_keeps
  · exact cmdCfgDiscard_keeps
  · exact cmdRingStatus_keeps
  · exact cmdRingGetLayout_keeps
  · exact cmdRingRenumber_keeps
  · exact cmdRingMerge_keeps
  · exact cmdRingSetRank_keeps

theorem catalogue2_keeps : ∀ c ∈ catalogue2, CmdKeeps c := by
  intro c hc
  simp only [catalogue2, List.mem_cons, List.not_mem_nil, or_false] at hc
  obtain rfl | rfl | rfl | rfl | rfl | rfl | rfl | rfl | rfl | rfl | rfl | rfl | rfl | rfl | rfl | rfl | rfl | rfl | rfl | rfl | rfl | rfl | rfl | rfl := hc
  · exact cmdRingLinkCtrl_keeps
  · exact cmdRingSetParam_keeps
  · exact cmdSyncStatus_keeps
  · exact cmdXpSet_keeps
  · exact cmdXpGet_keeps
  · exact cmdZoneSet_keeps
  · exact cmdZoneCand_keeps
  · exact cmdZoneEq_keeps
  · exact cmdZoneOut_keeps
  · exact cmdStreamSet_keeps
  · exact cmdTestgenSet_keeps
  · exact cmdZoneStatus_keeps
  · exact cmdLibLoad_keeps
  · exact cmdLibDelete_keeps
  · exact cmdLibList_keeps
  · exact cmdPlayStart_keeps
  · exact cmdPlayStop_keeps
  · exact cmdPlayStatus_keeps
  · exact cmdCallOpen_keeps
  · exact cmdCallClose_keeps
  · exact cmdCallStatus_keeps
  · exact cmdAecSet_keeps
  · exact cmdPmonCommission_keeps
  · exact cmdPmonClear_keeps

theorem catalogue3_keeps : ∀ c ∈ catalogue3, CmdKeeps c := by
  intro c hc
  simp only [catalogue3, List.mem_cons, List.not_mem_nil, or_false] at hc
  obtain rfl | rfl | rfl | rfl | rfl | rfl | rfl | rfl | rfl | rfl | rfl | rfl | rfl | rfl | rfl | rfl | rfl | rfl | rfl | rfl | rfl | rfl | rfl | rfl := hc
  · exact cmdStipaRun_keeps
  · exact cmdRecLock_keeps
  · exact cmdRecUnlock_keeps
  · exact cmdRecIndex_keeps
  · exact cmdRecExport_keeps
  · exact cmdEthStatus_keeps
  · exact cmdEthCounters_keeps
  · exact cmdEthMdio_keeps
  · exact cmdEthGateSet_keeps
  · exact cmdPtpSet_keeps
  · exact cmdPtpStatus_keeps
  · exact cmdStreamAdd_keeps
  · exact cmdStreamRemove_keeps
  · exact cmdPralineSet_keeps
  · exact cmdCanStatus_keeps
  · exact cmdCanSetRate_keeps
  · exact cmdCanSchedSet_keeps
  · exact cmdCanObjSet_keeps
  · exact cmdCanSend_keeps
  · exact cmdCanWakeSet_keeps
  · exact cmdPwrStatus_keeps
  · exact cmdPwrSetState_keeps
  · exact cmdPwrVote_keeps
  · exact cmdPwrPerf_keeps

theorem catalogue4_keeps : ∀ c ∈ catalogue4, CmdKeeps c := by
  intro c hc
  simp only [catalogue4, List.mem_cons, List.not_mem_nil, or_false] at hc
  obtain rfl | rfl | rfl | rfl | rfl | rfl | rfl | rfl | rfl | rfl | rfl | rfl | rfl | rfl | rfl | rfl | rfl | rfl | rfl | rfl | rfl | rfl | rfl | rfl := hc
  · exact cmdPwrWakeCfg_keeps
  · exact cmdPwrResidency_keeps
  · exact cmdAwakeHold_keeps
  · exact cmdNetSleepStatus_keeps
  · exact cmdSecStatus_keeps
  · exact cmdAuthChallenge_keeps
  · exact cmdKeyReplace_keeps
  · exact cmdKeyKcv_keeps
  · exact cmdTamperClear_keeps
  · exact cmdGetMeasurement_keeps
  · exact cmdEvrStatus_keeps
  · exact cmdEvrRead_keeps
  · exact cmdEvrClear_keeps
  · exact cmdEvrPendingRead_keeps
  · exact cmdBistRun_keeps
  · exact cmdBistResult_keeps
  · exact cmdStoreTest_keeps
  · exact cmdLaneTest_keeps
  · exact cmdLaneTestResult_keeps
  · exact cmdRedStatus_keeps
  · exact cmdMasterHandover_keeps
  · exact cmdTwinResync_keeps
  · exact cmdStackStatus_keeps
  · exact cmdStackMemberReset_keeps

theorem catalogue_keeps (c : Cmd) (h : c ∈ catalogue) : CmdKeeps c := by
  unfold catalogue at h
  simp only [List.mem_append] at h
  obtain ((h | h) | h) | h := h
  · exact catalogue1_keeps c h
  · exact catalogue2_keeps c h
  · exact catalogue3_keeps c h
  · exact catalogue4_keeps c h

theorem State.serveAny_keeps {s t : State} (h : Keeps s t) (opcode : Nat) (r : Request) : Keeps s (State.serveAny t opcode r) := by
  unfold State.serveAny
  split
  next c hc => exact State.serve_keeps h c (catalogue_keeps c (List.mem_of_find?_eq_some hc)) r
  next => exact State.serveUnknown_keeps h ..

theorem State.lookAt_keeps {s : State} (ch : Fin 4) (n : Nat) : ∀ {t : State}, Keeps s t → Keeps s (State.lookAt t ch n) := by
  induction n with
  | zero => intro t h; exact h
  | succ n ih =>
    intro t h
    unfold State.lookAt
    repeat' with_reducible (first
    | assumption
    | apply ih
    | apply State.serveAny_keeps
    | apply State.storeRead_keeps
    | apply State.set_keeps
    | apply Keeps.ite)

theorem execMbxDoorbellWrite_keeps {s t : State} (h : Keeps s t) (ch : Fin 4) : NextKeeps s (execMbxDoorbellWrite ch t) := by
  unfold execMbxDoorbellWrite
  repeat' with_reducible (first
    | assumption
    | refine NextKeeps.next ?_
    | (intro u hu)
    | apply State.lookAt_keeps
    | apply State.access_keeps
    | apply Keeps.ite)

theorem execMbxPoll_keeps {s t : State} (h : Keeps s t) : NextKeeps s (execMbxPoll t) := by
  unfold execMbxPoll
  repeat' with_reducible (first
    | assumption
    | refine NextKeeps.next ?_
    | apply State.lookAt_keeps)

theorem State.complete_keeps {s t : State} (h : Keeps s t) (q : OpenReq) (result : List Nat) : Keeps s (State.complete t q result) := by
  unfold State.complete
  repeat' with_reducible (first
    | assumption
    | (intro x; clear_value x)
    | lift_lets
    | apply State.exportRun_keeps
    | apply State.keyReplace_keeps
    | apply State.finish_keeps
    | split)

theorem execFinalResponse_keeps {s t : State} (h : Keeps s t) (ch : Fin 4) (tag : Nat) (result : List Nat) : NextKeeps s (execFinalResponse ch tag result t) := by
  unfold execFinalResponse
  repeat' with_reducible (first
    | assumption
    | refine NextKeeps.next ?_
    | apply State.complete_keeps
    | split)

end Sys2Proof.Machine
end

