-- ==== Sys2Proof/Laws/KeepsBlock.lean ====
section
/-! SUPPORT. What no command changes: boot, host port and the tick. -/

namespace Sys2Proof.Machine

/-! ## Boot -/

theorem State.aoLost_keeps {s t : State} (h : Keeps s t) (wait : Nat) : Keeps s (State.aoLost t wait) := by
  have k := State.dark_keeps (State.dropBanks_keeps h 0) (fun _ => false)
  exact ⟨k.1, k.2, fun _ => (by decide : Sparse.wf resetWord State.reset.regs = true), k.4⟩

theorem State.restoreTamper_keeps {s t : State} (h : Keeps s t) : Keeps s (State.restoreTamper t) := by
  unfold State.restoreTamper
  repeat' with_reducible (first
    | assumption
    | apply State.faultCause_keeps
    | apply State.setFlag_keeps
    | apply State.set_keeps
    | apply Keeps.ite)

theorem execPowerOnReset_keeps {s t : State} (h : Keeps s t) (straps : Straps) : NextKeeps s (execPowerOnReset straps t) := by
  unfold execPowerOnReset
  repeat' with_reducible (first
    | assumption
    | refine NextKeeps.next ?_
    | apply State.restoreTamper_keeps
    | apply State.aoLost_keeps
    | apply State.set_keeps
    | apply Keeps.update)

theorem execVaoLost_keeps {s t : State} (h : Keeps s t) : NextKeeps s (execVaoLost t) := by
  unfold execVaoLost
  repeat' with_reducible (first
    | assumption
    | refine NextKeeps.next ?_
    | apply State.aoLost_keeps
    | apply State.setLevels_keeps
    | apply Keeps.update)

theorem execSupplyRestart_keeps {s t : State} (h : Keeps s t) (bootSrc : Fin 4) : NextKeeps s (execSupplyRestart bootSrc t) := by
  unfold execSupplyRestart
  repeat' with_reducible (first
    | assumption
    | refine NextKeeps.next ?_
    | apply State.resetNode_keeps
    | apply State.setFlag_keeps
    | apply Keeps.ite)

theorem execVmainRestored_keeps {s t : State} (h : Keeps s t) : NextKeeps s (execVmainRestored t) := by
  unfold execVmainRestored
  repeat' with_reducible (first
    | assumption
    | refine NextKeeps.next ?_
    | apply State.setFlag_keeps
    | apply Keeps.ite
    | apply Keeps.update)

theorem execResetPin_keeps {s t : State} (h : Keeps s t) (bootSrc : Fin 4) : NextKeeps s (execResetPin bootSrc t) := by
  unfold execResetPin
  repeat' with_reducible (first
    | assumption
    | refine NextKeeps.next ?_
    | apply State.resetNode_keeps
    | apply Keeps.ite)

theorem execRstNRelease_keeps {s t : State} (h : Keeps s t) : NextKeeps s (execRstNRelease t) := by
  unfold execRstNRelease
  repeat' with_reducible (first
    | assumption
    | refine NextKeeps.next ?_
    | apply Keeps.ite
    | apply Keeps.update)

theorem State.pdwRaise_keeps {s t : State} (h : Keeps s t) : Keeps s (State.pdwRaise t) := by
  unfold State.pdwRaise
  repeat' with_reducible (first
    | assumption
    | apply State.writePosted_keeps
    | apply State.postBy_keeps
    | apply State.evt_keeps
    | apply State.setFlag_keeps
    | apply Keeps.update)

theorem execPdwRaise_keeps {s t : State} (h : Keeps s t) : NextKeeps s (execPdwRaise t) := by
  unfold execPdwRaise
  repeat' with_reducible (first
    | assumption
    | refine NextKeeps.next ?_
    | apply State.pdwRaise_keeps
    | apply Keeps.ite)

theorem execPdwRecover_keeps {s t : State} (h : Keeps s t) : NextKeeps s (execPdwRecover t) := by
  unfold execPdwRecover
  repeat' with_reducible (first
    | assumption
    | refine NextKeeps.next ?_
    | apply State.postBy_keeps
    | apply State.setFlag_keeps
    | apply Keeps.ite)

theorem State.linksRise_keeps {s t : State} (h : Keeps s t) : Keeps s (State.linksRise t) := by
  unfold State.linksRise
  repeat' with_reducible (first
    | assumption
    | apply State.startStack_keeps
    | apply State.startLinks_keeps
    | apply State.setLevel_keeps
    | apply State.stackStrap_keeps
    | apply Keeps.ite)

theorem execBootRomStart_keeps {s t : State} (h : Keeps s t) : NextKeeps s (execBootRomStart t) := by
  unfold execBootRomStart
  repeat' with_reducible (first
    | assumption
    | refine NextKeeps.next ?_
    | apply State.linksRise_keeps
    | apply State.setLevel_keeps
    | apply State.storeInit_keeps
    | apply State.set_keeps
    | apply Keeps.ite
    | apply Keeps.update)

theorem State.putFirmware_keeps {s t : State} (h : Keeps s t) (b : List Nat) : Keeps s (State.putFirmware t b) := by
  unfold State.putFirmware
  repeat' with_reducible (first
    | assumption
    | apply State.putBytes_keeps
    | refine Keeps.foldl ?_ (fun u x hu => ?_))

theorem State.verified_keeps {s t : State} (h : Keeps s t) : Keeps s (State.verified t) := by
  unfold State.verified
  repeat' with_reducible (first
    | assumption
    | apply State.set_keeps
    | apply Keeps.ite)

theorem State.takeBundle_keeps {s t : State} (h : Keeps s t) (b : List Nat) : Keeps s (State.takeBundle t b) := by
  unfold State.takeBundle
  repeat' with_reducible (first
    | assumption
    | apply State.verified_keeps
    | apply State.putFirmware_keeps
    | apply Keeps.update)

theorem State.bundleFailed_keeps {s t : State} (h : Keeps s t) (cause : Nat) : Keeps s (State.bundleFailed t cause) := by
  unfold State.bundleFailed
  repeat' with_reducible (first
    | assumption
    | apply State.faultCause_keeps
    | apply State.set_keeps
    | split
    | apply Keeps.update)

theorem execBootVerifyDone_keeps {s t : State} (h : Keeps s t) (flash : Option (List Nat)) : NextKeeps s (execBootVerifyDone flash t) := by
  unfold execBootVerifyDone
  repeat' with_reducible (first
    | assumption
    | refine NextKeeps.next ?_
    | apply State.bundleFailed_keeps
    | apply State.takeBundle_keeps
    | apply State.verified_keeps
    | apply State.set_keeps
    | split
    | apply Keeps.update)

theorem State.bootCtrl_keeps {s t : State} (h : Keeps s t) (sizeKib : Nat) (go : Bool) : Keeps s (State.bootCtrl t sizeKib go) := by
  unfold State.bootCtrl
  repeat' with_reducible (first
    | assumption
    | apply State.faultCause_keeps
    | apply State.set_keeps
    | apply Keeps.ite)

theorem execBootGo_keeps {s t : State} (h : Keeps s t) (sizeKib : Fin 16384) : NextKeeps s (execBootGo sizeKib t) := by
  unfold execBootGo
  repeat' with_reducible (first
    | assumption
    | refine NextKeeps.next ?_
    | (intro u hu)
    | apply State.bootCtrl_keeps
    | apply State.access_keeps)

theorem execBistComplete_keeps {s t : State} (h : Keeps s t) (misr : List Nat) (failMap count ms : Nat) : NextKeeps s (execBistComplete misr failMap count ms t) := by
  unfold execBistComplete
  repeat' with_reducible (first
    | assumption
    | refine NextKeeps.next ?_
    | apply State.verified_keeps
    | apply State.linksRise_keeps
    | apply State.setFlag_keeps
    | apply State.set_keeps
    | refine Keeps.foldl ?_ (fun u x hu => ?_)
    | apply Keeps.ite
    | apply Keeps.update)

theorem State.mbxStart_keeps {s t : State} (h : Keeps s t) : Keeps s (State.mbxStart t) := by
  unfold State.mbxStart
  repeat' with_reducible (first
    | assumption
    | apply State.setFlag_keeps
    | apply State.set_keeps
    | refine Keeps.foldl ?_ (fun u x hu => ?_)
    | apply Keeps.update)

theorem State.showMap_keeps {s t : State} (h : Keeps s t) : Keeps s (State.showMap t) := by
  unfold State.showMap
  repeat' with_reducible (first
    | assumption
    | apply State.applyMap_keeps
    | apply Keeps.update)

theorem State.startRecords_keeps {s t : State} (h : Keeps s t) : Keeps s (State.startRecords t) := by
  unfold State.startRecords
  repeat' with_reducible (first
    | assumption
    | apply State.post_keeps
    | apply State.evt_keeps
    | apply Keeps.ite)

theorem execDecikInitDone_keeps {s t : State} (h : Keeps s t) (media : Fin 3) : NextKeeps s (execDecikInitDone media t) := by
  unfold execDecikInitDone
  repeat' with_reducible (first
    | assumption
    | refine NextKeeps.next ?_
    | apply State.startRecords_keeps
    | apply State.showMap_keeps
    | apply State.mbxStart_keeps
    | apply State.summaryReady_keeps
    | apply State.pendAll_keeps
    | apply State.tamperHold_keeps
    | apply State.startKeys_keeps
    | apply State.startRecorder_keeps
    | apply State.handleLostBanks_keeps
    | apply State.storeInit_keeps
    | apply State.faultCause_keeps
    | apply State.setFlag_keeps
    | apply State.set_keeps
    | apply Keeps.ite
    | apply Keeps.update)

theorem State.startRegions_keeps {s t : State} (h : Keeps s t) (i : Config.Image) : Keeps s (State.startRegions t i) := by
  unfold State.startRegions
  repeat' with_reducible (first
    | assumption
    | apply State.mbxStart_keeps
    | apply State.putFirmware_keeps
    | apply State.imageMapIn_keeps
    | apply State.startMap_keeps
    | apply Keeps.ite)

theorem State.startVerdicts_keeps {s t : State} (h : Keeps s t) : Keeps s (State.startVerdicts t) := by
  unfold State.startVerdicts
  repeat' with_reducible (first
    | assumption
    | apply State.set_keeps
    | refine Keeps.foldl ?_ (fun u x hu => ?_))

theorem execConfigLoadDone_keeps {s t : State} (h : Keeps s t) : NextKeeps s (execConfigLoadDone t) := by
  unfold execConfigLoadDone
  repeat' with_reducible (first
    | assumption
    | refine NextKeeps.next ?_
    | apply State.startVerdicts_keeps
    | apply State.startRegions_keeps
    | apply State.startConfig_keeps
    | apply State.takeImage_keeps
    | apply State.writeRecordCfg_keeps
    | apply State.showCfg_keeps
    | apply State.unitsEnable_keeps
    | apply State.summaryReady_keeps
    | apply State.formingStart_keeps
    | apply State.topoChange_keeps
    | apply State.post_keeps
    | apply State.set_keeps
    | split
    | apply Keeps.update)

theorem State.finishStart_keeps {s t : State} (h : Keeps s t) : Keeps s (State.finishStart t) := by
  unfold State.finishStart
  repeat' with_reducible (first
    | assumption
    | apply State.showVotes_keeps
    | apply State.validateStart_keeps
    | apply State.powerTo_keeps
    | apply State.showFault_keeps
    | apply State.evt_keeps
    | apply State.count_keeps
    | apply State.set_keeps
    | apply Keeps.ite
    | apply Keeps.update)

theorem execRingReady_keeps {s t : State} (h : Keeps s t) : NextKeeps s (execRingReady t) := by
  unfold execRingReady
  repeat' with_reducible (first
    | assumption
    | refine NextKeeps.next ?_
    | apply State.finishStart_keeps
    | apply State.setFlag_keeps
    | apply State.set_keeps
    | apply Keeps.ite)

theorem execStartupNoRing_keeps {s t : State} (h : Keeps s t) : NextKeeps s (execStartupNoRing t) := by
  unfold execStartupNoRing
  repeat' with_reducible (first
    | assumption
    | refine NextKeeps.next ?_
    | apply State.finishStart_keeps
    | apply State.post_keeps
    | apply Keeps.ite)

theorem State.restartConfig_keeps {s t : State} (h : Keeps s t) : Keeps s (State.restartConfig t) := by
  unfold State.restartConfig
  repeat' with_reducible (first
    | assumption
    | apply State.startConfig_keeps
    | apply State.imageUnits_keeps
    | apply State.takeImage_keeps
    | apply State.showCfg_keeps
    | apply Keeps.ite
    | apply Keeps.update)

theorem State.heldResets_keeps {s t : State} (h : Keeps s t) : Keeps s (State.heldResets t) := by
  unfold State.heldResets
  repeat' with_reducible (first
    | assumption
    | apply State.chReset_keeps
    | apply State.setFlag_keeps
    | refine Keeps.foldl ?_ (fun u x hu => ?_)
    | apply Keeps.ite)

theorem execDecikRestartDone_keeps {s t : State} (h : Keeps s t) : NextKeeps s (execDecikRestartDone t) := by
  unfold execDecikRestartDone
  repeat' with_reducible (first
    | assumption
    | refine NextKeeps.next ?_
    | apply State.heldResets_keeps
    | apply State.restartConfig_keeps
    | apply State.summaryReady_keeps
    | apply State.flushPending_keeps
    | apply State.handleLostBanks_keeps
    | apply State.finishAll_keeps
    | apply State.faultCause_keeps
    | apply State.setFlag_keeps
    | refine Keeps.foldl ?_ (fun u x hu => ?_)
    | apply Keeps.ite)

/-! ## HostPort -/

theorem State.hostWrite_keeps {s t : State} (h : Keeps s t) (off : Nat) (w : Word) : Keeps s (State.hostWrite t off w) := by
  unfold State.hostWrite
  repeat' with_reducible (first
    | assumption
    | (intro u hu)
    | apply State.bootCtrl_keeps
    | apply State.lookAt_keeps
    | apply State.regWrite_keeps
    | apply State.access_keeps
    | split)

theorem execRegisterWrite_keeps {s t : State} (h : Keeps s t) (addr : Nat) (enables : Fin 16) (w : Word) : NextKeeps s (execRegisterWrite addr enables w t) := by
  unfold execRegisterWrite
  split
  · exact ⟨h.1, h.2, h.3, h.4⟩
  · split
    · exact NextKeeps.refused _
    · exact State.hostWrite_keeps h _ _

theorem State.spiWord_keeps {s t : State} (h : Keeps s t) (addr : Nat) : Keeps s (State.spiWord t addr).2.2 := by
  unfold State.spiWord
  repeat' with_reducible (first
    | assumption
    | (intro x; clear_value x)
    | lift_lets
    | apply State.phaseNow_keeps
    | apply State.readBytes_keeps
    | refine State.storeRead_keeps_eq ?_ (by assumption)
    | apply State.fresh_keeps
    | apply State.count_keeps
    | split)

theorem State.spiReadOne_keeps {s t : State} (h : Keeps s t) (addr wait : Nat) : Keeps s (State.spiReadOne t addr wait).2 := by
  have k := State.spiWord_keeps h addr
  unfold State.spiReadOne
  revert k
  generalize State.spiWord t addr = p
  obtain ⟨a, b, u⟩ := p
  intro k
  dsimp only
  split
  · exact k
  · exact k

theorem State.spiRead_keeps {s t : State} (h : Keeps s t) (addr step : Nat) (waits : List Nat) : Keeps s (State.spiRead t addr step waits) := by
  unfold State.spiRead
  split
  · exact h
  · refine State.emit_keeps (Keeps.foldl_snd h (fun b x hb => ?_)) _
    exact State.spiReadOne_keeps hb _ _

theorem execSpiRead_keeps {s t : State} (h : Keeps s t) (addr : Nat) (waits : List Nat) : NextKeeps s (execSpiRead addr waits t) := by
  unfold execSpiRead
  repeat' with_reducible (first
    | assumption
    | refine NextKeeps.next ?_
    | apply State.spiRead_keeps)

theorem execSpiReadFixed_keeps {s t : State} (h : Keeps s t) (addr : Nat) (waits : List Nat) : NextKeeps s (execSpiReadFixed addr waits t) := by
  unfold execSpiReadFixed
  repeat' with_reducible (first
    | assumption
    | refine NextKeeps.next ?_
    | apply State.spiRead_keeps)

theorem State.spiWriteOne_keeps {s t u : State} (h : Keeps s t) (addr : Nat) (w : Word) {x : Nat} (e : State.spiWriteOne t addr w = some (x, u)) : Keeps s u := by
  unfold State.spiWriteOne at e
  split at e
  · split at e
    · obtain ⟨-, rfl⟩ := Prod.mk.inj (Option.some.inj e); exact h
    · split at e
      · exact nomatch e
      · obtain ⟨-, rfl⟩ := Prod.mk.inj (Option.some.inj e); exact State.hostWrite_keeps h _ _
  · split at e
    · split at e <;>
      · next he =>
          obtain ⟨-, rfl⟩ := Prod.mk.inj (Option.some.inj e)
          exact State.localWrite_keeps_eq h he
    · obtain ⟨-, rfl⟩ := Prod.mk.inj (Option.some.inj e); exact h

theorem State.spiWrites_keeps {s : State} (step : Nat) (l : List Word) : ∀ {t : State} (addr : Nat) (sts : List Nat) {u : State}, Keeps s t → State.spiWrites t addr step sts l = some u → Keeps s u := by
  induction l with
  | nil => intro t addr sts u h e; obtain rfl := Option.some.inj e; exact State.emit_keeps h _
  | cons w l ih =>
    intro t addr sts u h e
    unfold State.spiWrites at e
    split at e
    next st v he => exact ih _ _ (State.spiWriteOne_keeps h _ _ he) e
    next => exact nomatch e

theorem State.spiWrite_keeps {s t : State} (h : Keeps s t) (addr step : Nat) (words : List Word) : NextKeeps s (State.spiWrite t addr step words) := by
  unfold State.spiWrite
  split
  · exact h
  · split
    next u he => exact State.spiWrites_keeps _ _ _ _ h he
    next => exact NextKeeps.refused _

theorem execSpiWrite_keeps {s t : State} (h : Keeps s t) (addr : Nat) (words : List Word) : NextKeeps s (execSpiWrite addr words t) := State.spiWrite_keeps h _ _ _

theorem execSpiWriteFixed_keeps {s t : State} (h : Keeps s t) (addr : Nat) (words : List Word) : NextKeeps s (execSpiWriteFixed addr words t) := State.spiWrite_keeps h _ _ _

theorem execSpiUnknownCommand_keeps {s t : State} (h : Keeps s t) (cmd : Fin 256) : NextKeeps s (execSpiUnknownCommand cmd t) := by
  unfold execSpiUnknownCommand
  repeat' with_reducible (first
    | assumption
    | refine NextKeeps.next ?_
    | apply State.count_keeps
    | apply Keeps.ite)

theorem execSpiFrameTruncated_keeps {s t : State} (h : Keeps s t) : NextKeeps s (execSpiFrameTruncated t) := by
  unfold execSpiFrameTruncated
  repeat' with_reducible (first
    | assumption
    | refine NextKeeps.next ?_
    | apply State.count_keeps
    | apply State.setFlag_keeps
    | apply Keeps.ite)

theorem State.i2cSubmit_keeps {s t : State} (h : Keeps s t) (opcode : Nat) (payload : List Nat) : Keeps s (State.i2cSubmit t opcode payload) := by
  unfold State.i2cSubmit
  repeat' with_reducible (first
    | assumption
    | apply State.set_keeps
    | apply State.putBytes_keeps
    | apply Keeps.ite)

theorem execI2cRequestWrite_keeps {s t : State} (h : Keeps s t) (bytes : List Nat) : NextKeeps s (execI2cRequestWrite bytes t) := by
  unfold execI2cRequestWrite
  repeat' with_reducible (first
    | assumption
    | refine NextKeeps.next ?_
    | apply State.i2cSubmit_keeps
    | apply State.emit_keeps
    | apply State.count_keeps
    | apply Keeps.ite)

theorem execI2cRead_keeps {s t : State} (h : Keeps s t) (n : Nat) : NextKeeps s (execI2cRead n t) := by
  unfold execI2cRead
  repeat' with_reducible (first
    | assumption
    | refine NextKeeps.next ?_
    | apply State.flushHeld_keeps
    | apply State.emit_keeps
    | apply State.set_keeps
    | apply Keeps.ite)

theorem execI2cAddressWake_keeps {s t : State} (h : Keeps s t) : NextKeeps s (execI2cAddressWake t) := by
  unfold execI2cAddressWake
  repeat' with_reducible (first
    | assumption
    | refine NextKeeps.next ?_
    | apply State.wakeEvents_keeps
    | apply State.emit_keeps
    | apply Keeps.ite
    | apply Keeps.update)

theorem execPciePerst_keeps {s t : State} (h : Keeps s t) (high : Bool) : NextKeeps s (execPciePerst high t) := by
  unfold execPciePerst
  repeat' with_reducible (first
    | assumption
    | refine NextKeeps.next ?_
    | apply State.wakeEvents_keeps
    | apply State.pcieDown_keeps
    | apply State.irqLevel_keeps
    | apply State.setFlag_keeps
    | apply Keeps.ite
    | apply Keeps.update)

theorem State.serveRead_keeps {s t : State} (h : Keeps s t) (r : TgtReq) : Keeps s (State.serveRead t r).state := by
  unfold State.serveRead
  repeat' with_reducible (first
    | assumption
    | apply State.phaseNow_keeps
    | apply State.readBytes_keeps
    | apply State.tgtRead_keeps
    | split)

theorem execBridgeReadServe_keeps {s t : State} (h : Keeps s t) : NextKeeps s (execBridgeReadServe t) := by
  unfold execBridgeReadServe
  repeat' with_reducible (first
    | assumption
    | refine NextKeeps.next ?_
    | (intro u)
    | apply State.serveRead_keeps
    | apply State.serveFront_keeps)

/-! ## Compose -/

theorem State.noteStatus_keeps {s t : State} (h : Keeps s t) (n : LinkIx) (b : StatusBlock) : Keeps s (State.noteStatus t n b) := by
  unfold State.noteStatus
  repeat' with_reducible (first
    | assumption
    | apply State.setLink_keeps)

theorem State.statusBlock_keeps {s t : State} (h : Keeps s t) (n : LinkIx) (b : StatusBlock) : Keeps s (State.statusBlock t n b) := by
  unfold State.statusBlock
  repeat' with_reducible (first
    | assumption
    | apply State.noteStatus_keeps
    | apply State.qualReceiveError_keeps
    | apply State.linkQualError_keeps
    | apply State.linkQualCheck_keeps
    | apply State.linkLockCheck_keeps
    | apply State.linkLost_keeps
    | apply State.count_keeps
    | apply State.setFlag_keeps
    | apply Keeps.ite)

theorem execStatusBlockReceive_keeps {s t : State} (h : Keeps s t) (n : LinkIx) (b : StatusBlock) : NextKeeps s (execStatusBlockReceive n b t) := by
  unfold execStatusBlockReceive
  repeat' with_reducible (first
    | assumption
    | refine NextKeeps.next ?_
    | apply State.statusBlock_keeps)

theorem State.frameIn_keeps {s t : State} (h : Keeps s t) (f : RxFrame) : Keeps s (State.frameIn t f) := by
  unfold State.frameIn
  repeat' with_reducible (first
    | assumption
    | apply State.netFrame_keeps
    | apply State.masterReturn_keeps
    | apply State.rivalFrame_keeps
    | apply State.followerFrame_keeps
    | apply State.framePass_keeps
    | apply State.otherMaster_keeps
    | apply State.ringHeartbeat_keeps
    | apply Keeps.ite)

theorem execFrameReceived_keeps {s t : State} (h : Keeps s t) (f : RxFrame) : NextKeeps s (execFrameReceived f t) := by
  unfold execFrameReceived
  repeat' with_reducible (first
    | assumption
    | refine NextKeeps.next ?_
    | apply State.frameIn_keeps
    | apply Keeps.ite)

theorem State.lineMerge_keeps {s t : State} (h : Keeps s t) (l : Layout) (tseq : Nat) : Keeps s (State.lineMerge t l tseq) := by
  unfold State.lineMerge
  repeat' with_reducible (first
    | assumption
    | apply State.netMerge_keeps
    | apply State.driveOutputs_keeps
    | apply State.readRing_keeps
    | apply State.shrinkCheck_keeps
    | apply State.tickReach_keeps
    | apply State.readSync_keeps
    | apply State.mergeFrame_keeps
    | apply State.inaugTrigger_keeps
    | apply State.emit_keeps
    | apply Keeps.ite)

theorem execLineMerge_keeps {s t : State} (h : Keeps s t) (tseq : Nat) : NextKeeps s (execLineMerge tseq t) := by
  unfold execLineMerge
  repeat' with_reducible (first
    | assumption
    | refine NextKeeps.next ?_
    | apply State.lineMerge_keeps
    | split)

theorem State.cellToMembers_keeps {s t : State} (h : Keeps s t) (c : Bytes) : Keeps s (State.cellToMembers t c) := by
  unfold State.cellToMembers
  repeat' with_reducible (first
    | assumption
    | apply State.emit_keeps
    | apply Keeps.ite)

theorem State.message_keeps {s t : State} (h : Keeps s t) (m : Message) : Keeps s (State.message t m) := by
  unfold State.message
  repeat' with_reducible (first
    | assumption
    | apply State.mailboxMessage_keeps
    | apply State.relayIn_keeps
    | apply State.brgDeliver_keeps
    | apply State.layoutMessage_keeps
    | apply State.inaugMessage_keeps
    | apply Keeps.ite
    | apply Keeps.update)

theorem execCellReceive_keeps {s t : State} (h : Keeps s t) (cell : Bytes) : NextKeeps s (execCellReceive cell t) := by
  unfold execCellReceive
  repeat' with_reducible (first
    | assumption
    | refine NextKeeps.next ?_
    | apply State.message_keeps
    | apply State.cellToMembers_keeps
    | refine State.readCell_keeps_eq ?_ (by assumption)
    | split)

theorem State.stageRegion_keeps {s t : State} (h : Keeps s t) (n : Nat) (pdata : List (Nat × List Nat)) (done : Bool) : Keeps s (State.stageRegion t n pdata done) := by
  unfold State.stageRegion
  repeat' with_reducible (first
    | assumption
    | split
    | apply Keeps.update)

theorem State.cabReport_keeps {s t : State} (h : Keeps s t) : Keeps s (State.cabReport t) := by
  unfold State.cabReport
  repeat' with_reducible (first
    | assumption
    | apply State.stageMessage_keeps
    | apply State.inaugTrigger_keeps
    | split)

theorem execCabActiveChange_keeps {s t : State} (h : Keeps s t) (on : Bool) : NextKeeps s (execCabActiveChange on t) := by
  unfold execCabActiveChange
  repeat' with_reducible (first
    | assumption
    | refine NextKeeps.next ?_
    | apply State.cabReport_keeps
    | apply State.cabLevel_keeps
    | apply Keeps.ite
    | apply Keeps.update)

theorem State.ringNote_keeps {s t : State} (h : Keeps s t) : Keeps s (State.ringNote t) := by
  unfold State.ringNote
  repeat' with_reducible (first
    | assumption
    | apply State.notify_keeps)

theorem State.handoverDone_keeps {s t : State} (h : Keeps s t) (topo : Nat) (master : DWord) : Keeps s (State.handoverDone t topo master) := by
  unfold State.handoverDone
  repeat' with_reducible (first
    | assumption
    | apply State.evt_keeps
    | apply Keeps.ite)

theorem State.afterTopology_keeps {s t : State} (h : Keeps s t) : Keeps s (State.afterTopology t) := by
  unfold State.afterTopology
  repeat' with_reducible (first
    | assumption
    | apply State.ringNote_keeps
    | apply State.cabReport_keeps
    | apply State.stageRegion_keeps
    | apply State.remoteTopology_keeps
    | apply State.remoteUnits_keeps
    | apply State.brgTopology_keeps
    | apply State.finishAll_keeps
    | apply State.netRestart_keeps
    | apply Keeps.ite
    | apply Keeps.update)

theorem execLayoutSwitch_keeps {s t : State} (h : Keeps s t) : NextKeeps s (execLayoutSwitch t) := by
  unfold execLayoutSwitch
  repeat' with_reducible (first
    | assumption
    | refine NextKeeps.next ?_
    | apply State.afterTopology_keeps
    | apply State.handoverDone_keeps
    | apply State.layoutSwitch_keeps
    | apply Keeps.ite)

theorem execFastShrinkApply_keeps {s t : State} (h : Keeps s t) : NextKeeps s (execFastShrinkApply t) := by
  unfold execFastShrinkApply
  repeat' with_reducible (first
    | assumption
    | refine NextKeeps.next ?_
    | apply State.afterTopology_keeps
    | apply State.fastShrink_keeps
    | apply Keeps.ite)

theorem execMergeStep_keeps {s t : State} (h : Keeps s t) : NextKeeps s (execMergeStep t) := by
  unfold execMergeStep
  repeat' with_reducible (first
    | assumption
    | refine NextKeeps.next ?_
    | apply State.cfgCancel_keeps
    | apply State.cancelTimed_keeps
    | apply State.voiceMerge_keeps
    | apply State.mergeStep_keeps
    | apply Keeps.ite)

/-! ## Tick -/

theorem State.overrunRecord_keeps {s t : State} (h : Keeps s t) (c : Nat) : Keeps s (State.overrunRecord t c) := by
  unfold State.overrunRecord
  repeat' with_reducible (first
    | assumption
    | apply State.post_keeps
    | apply Keeps.ite
    | apply Keeps.update)

theorem State.coreOverrun_keeps {s t : State} (h : Keeps s t) (c : Nat) : Keeps s (State.coreOverrun t c) := by
  unfold State.coreOverrun
  repeat' with_reducible (first
    | assumption
    | apply State.overrunRecord_keeps
    | apply State.evtBit_keeps
    | apply State.count_keeps
    | apply Keeps.update)

theorem State.overrunLast_keeps {s t : State} (h : Keeps s t) (late : List (Nat × Nat)) : Keeps s (State.overrunLast t late) := by
  unfold State.overrunLast
  repeat' with_reducible (first
    | assumption
    | apply State.set_keeps
    | split)

theorem State.loadPeaks_keeps {s t : State} (h : Keeps s t) (cycles : List Nat) : Keeps s (State.loadPeaks t cycles) := by
  unfold State.loadPeaks
  repeat' with_reducible (first
    | assumption
    | apply State.set_keeps
    | refine Keeps.foldl ?_ (fun u x hu => ?_))

theorem State.tickJobs_keeps {s t : State} (h : Keeps s t) (t' : TickIn) (k : Nat) : Keeps s (State.tickJobs t t' k) := by
  unfold State.tickJobs
  repeat' with_reducible (first
    | assumption
    | apply State.loadPeaks_keeps
    | apply State.overrunLast_keeps
    | apply State.coreOverrun_keeps
    | refine Keeps.foldl ?_ (fun u x hu => ?_)
    | apply Keeps.ite
    | apply Keeps.update)

theorem State.twinTake_keeps {s t : State} (h : Keeps s t) (k : Nat) (r : TwinRecord) : Keeps s (State.twinTake t k r) := by
  unfold State.twinTake
  repeat' with_reducible (first
    | assumption
    | apply State.deliver_keeps
    | apply State.set_keeps
    | refine Keeps.foldl ?_ (fun u x hu => ?_)
    | apply Keeps.ite
    | apply Keeps.update)

theorem State.twinApply_keeps {s t : State} (h : Keeps s t) (k : Nat) : Keeps s (State.twinApply t k) := by
  unfold State.twinApply
  repeat' with_reducible (first
    | assumption
    | apply State.twinTake_keeps
    | refine Keeps.foldl ?_ (fun u x hu => ?_)
    | apply Keeps.update)

theorem State.twinSend_keeps {s t : State} (h : Keeps s t) (k : Nat) : Keeps s (State.twinSend t k) := by
  unfold State.twinSend
  repeat' with_reducible (first
    | assumption
    | apply State.tickTwin_keeps
    | apply Keeps.update)

theorem State.tdmFrames_keeps {s t : State} (h : Keeps s t) (t' : TickIn) (k : Nat) : Keeps s (State.tdmFrames t t' k) := by
  unfold State.tdmFrames
  repeat' with_reducible (first
    | assumption
    | apply State.tdmInput_keeps
    | apply State.tdmReadback_keeps
    | apply State.tdmStop_keeps
    | refine Keeps.foldl ?_ (fun u x hu => ?_)
    | apply Keeps.ite)

theorem State.micFrames_keeps {s t : State} (h : Keeps s t) (t' : TickIn) (k : Nat) : Keeps s (State.micFrames t t' k) := by
  unfold State.micFrames
  repeat' with_reducible (first
    | assumption
    | apply State.fbDeliver_keeps
    | apply State.micTick_keeps
    | refine Keeps.foldl ?_ (fun u x hu => ?_))

theorem State.aecBlocks_keeps {s t : State} (h : Keeps s t) (t' : TickIn) : Keeps s (State.aecBlocks t t') := by
  unfold State.aecBlocks
  repeat' with_reducible (first
    | assumption
    | apply State.aecBlock_keeps
    | refine Keeps.foldl ?_ (fun u x hu => ?_)
    | apply Keeps.ite)

theorem State.mclkRuns_keeps {s t : State} (h : Keeps s t) : Keeps s (State.mclkRuns t) := by
  unfold State.mclkRuns
  repeat' with_reducible (first
    | assumption
    | apply State.setFlag_keeps)

theorem State.tickPorts_keeps {s t : State} (h : Keeps s t) (t' : TickIn) : Keeps s (State.tickPorts t t') := by
  unfold State.tickPorts
  repeat' with_reducible (first
    | assumption
    | apply State.mclkRuns_keeps
    | apply State.pdmClocks_keeps
    | apply State.tdmCountdown_keeps
    | apply State.set_keeps
    | refine Keeps.foldl ?_ (fun u x hu => ?_)
    | apply Keeps.ite)

theorem State.tickAudio_keeps {s t : State} (h : Keeps s t) (t' : TickIn) (k : Nat) : Keeps s (State.tickAudio t t' k) := by
  unfold State.tickAudio
  repeat' with_reducible (first
    | assumption
    | apply State.aecBlocks_keeps
    | apply State.micFrames_keeps
    | apply State.tdmFrames_keeps
    | apply State.twinApply_keeps
    | apply State.voiceTick_keeps
    | apply State.aecOutputs_keeps
    | apply State.rampTick_keeps
    | apply State.genTick_keeps
    | apply State.gateTick_keeps
    | apply State.tdmOutput_keeps
    | apply State.playStage_keeps
    | apply State.staleMap_keeps
    | apply State.sendStage_keeps
    | apply State.hdmaCapture_keeps
    | apply Keeps.ite)

theorem State.lineEnd_keeps {s t : State} (h : Keeps s t) (l : Line) (seen got : Bool) : Keeps s (State.lineEnd t l seen got) := by
  unfold State.lineEnd
  repeat' with_reducible (first
    | assumption
    | apply State.count_keeps
    | apply State.setFlag_keeps
    | apply Keeps.ite)

theorem State.tickRing_keeps {s t : State} (h : Keeps s t) : Keeps s (State.tickRing t) := by
  unfold State.tickRing
  repeat' with_reducible (first
    | assumption
    | apply State.lineEnd_keeps
    | apply State.tickHeartbeats_keeps
    | apply Keeps.ite
    | apply Keeps.update)

theorem State.tickLaunch_keeps {s t : State} (h : Keeps s t) (t' : TickIn) : Keeps s (State.tickLaunch t t') := by
  unfold State.tickLaunch
  repeat' with_reducible (first
    | assumption
    | apply State.launchFrame_keeps
    | apply State.sendHandshakes_keeps
    | apply Keeps.ite)

theorem State.memberRecord_keeps {s t : State} (h : Keeps s t) (k : Nat) (pdata : List (Nat × List Nat)) : Keeps s (State.memberRecord t k pdata) := by
  unfold State.memberRecord
  repeat' with_reducible (first
    | assumption
    | apply State.emit_keeps
    | apply Keeps.update)

theorem State.timeMarker_keeps {s t : State} (h : Keeps s t) : Keeps s (State.timeMarker t) := by
  unfold State.timeMarker
  repeat' with_reducible (first
    | assumption
    | apply State.emit_keeps)

theorem State.tickStack_keeps {s t : State} (h : Keeps s t) (t' : TickIn) (k : Nat) : Keeps s (State.tickStack t t' k) := by
  unfold State.tickStack
  repeat' with_reducible (first
    | assumption
    | apply State.timeMarker_keeps
    | apply State.memberRecord_keeps
    | apply Keeps.ite)

theorem State.tickStage_keeps {s t : State} (h : Keeps s t) (t' : TickIn) (k : Nat) : Keeps s (State.tickStage t t' k) := by
  unfold State.tickStage
  repeat' with_reducible (first
    | assumption
    | apply State.stageRegion_keeps
    | apply State.set_keeps
    | apply Keeps.ite)

theorem State.tickMark_keeps {s t : State} (h : Keeps s t) : Keeps s (State.tickMark t) := by
  unfold State.tickMark
  repeat' with_reducible (first
    | assumption
    | apply State.pendDirect_keeps
    | apply Keeps.ite)

theorem State.tickClock_keeps {s t : State} (h : Keeps s t) : Keeps s (State.tickClock t) := by
  unfold State.tickClock
  repeat' with_reducible (first
    | assumption
    | apply State.tickMark_keeps
    | apply State.advanceTick_keeps
    | apply State.lockTick_keeps
    | apply State.slewTick_keeps
    | apply Keeps.ite)

theorem State.tickAlive_keeps {s t : State} (h : Keeps s t) : Keeps s (State.tickAlive t) := by
  unfold State.tickAlive
  repeat' with_reducible (first
    | assumption
    | apply State.wrapInc_keeps
    | apply Keeps.ite)

theorem State.tickDecik_keeps {s t : State} (h : Keeps s t) : Keeps s (State.tickDecik t) := by
  unfold State.tickDecik
  repeat' with_reducible (first
    | assumption
    | apply State.tickAlive_keeps
    | apply State.stipaTick_keeps
    | apply State.pmonTick_keeps
    | apply State.showCfg_keeps
    | apply State.loneTick_keeps
    | apply State.holdsNow_keeps
    | apply State.unitsTick_keeps
    | apply Keeps.ite)

theorem State.tickUnits_keeps {s t : State} (h : Keeps s t) : Keeps s (State.tickUnits t) := by
  unfold State.tickUnits
  repeat' with_reducible (first
    | assumption
    | apply State.tickDecik_keeps
    | apply State.votesTick_keeps
    | apply State.driveOutputs_keeps
    | apply State.brgTick_keeps
    | apply State.scrubTick_keeps
    | apply Keeps.ite)

theorem State.tickAlways_keeps {s t : State} (h : Keeps s t) : Keeps s (State.tickAlways t) := by
  unfold State.tickAlways
  repeat' with_reducible (first
    | assumption
    | apply Keeps.update)

theorem State.tickEnds_keeps {s t : State} (h : Keeps s t) (t' : TickIn) (k : Nat) : Keeps s (State.tickEnds t t' k) := by
  unfold State.tickEnds
  repeat' with_reducible (first
    | assumption
    | apply State.tickRing_keeps
    | apply State.tickAudio_keeps
    | apply State.tickPorts_keeps
    | apply State.twinSend_keeps
    | apply State.tickJobs_keeps
    | apply State.ethTick_keeps
    | apply State.canTick_keeps
    | apply State.tickCells_keeps)

theorem State.tickBegins_keeps {s t : State} (h : Keeps s t) (t' : TickIn) (k : Nat) : Keeps s (State.tickBegins t t' k) := by
  unfold State.tickBegins
  repeat' with_reducible (first
    | assumption
    | apply State.tickClock_keeps
    | apply State.tickStage_keeps
    | apply State.tickStack_keeps
    | apply State.tickLaunch_keeps
    | apply State.hdmaPlay_keeps)

theorem execTickBoundary_keeps {s t : State} (h : Keeps s t) (t' : TickIn) : NextKeeps s (execTickBoundary t' t) := by
  unfold execTickBoundary
  repeat' with_reducible (first
    | assumption
    | refine NextKeeps.next ?_
    | apply State.tickBegins_keeps
    | apply State.tickEnds_keeps
    | apply State.tickAlways_keeps
    | apply State.tickUnits_keeps
    | apply Keeps.ite)

end Sys2Proof.Machine
end

