-- ==== Sys2Proof/Laws/Serve.lean ====
section
/-! SUPPORT. A request that passes its checks has the effect of its command (R361). -/

namespace Sys2Proof.Machine

theorem State.handle_passes {s : State} {c : Cmd} {r : Request} (h : s.passes c r = true) :
    s.handle c r (s.asked r c.opcode) = c.run (s.opened c r) (s.asked r c.opcode) r.payload := by
  unfold State.passes at h
  simp only [Bool.and_eq_true, Bool.not_eq_true', Option.isNone_iff_eq_none] at h
  obtain ⟨⟨⟨⟨⟨⟨⟨⟨⟨⟨⟨-, -⟩, -⟩, -⟩, hp⟩, h36⟩, hl⟩, ha⟩, hm⟩, hacc⟩, hv⟩, hr⟩ := h
  have hq : (s.asked r c.opcode).ch = r.ch.val := rfl
  unfold State.handle
  dsimp only
  rw [show (if bit r.flags 0 = true then List.take (r.body.length - 36) r.body else r.body) = r.payload from rfl, hq, hp, h36, hl]
  unfold State.opened at hm hacc hv ⊢
  rcases he : s.authorised c r (s.asked r c.opcode) r.payload with ⟨f, t⟩
  rw [he] at ha hm hacc hv
  dsimp only at ha hm hacc hv
  subst ha
  have hv' : (c.versioned && !t.versionOk r.cfgver (c.effective t r.payload)) = false := by
    cases h1 : c.versioned
    · rfl
    · rw [h1] at hv; simpa using hv
  simp only [Bool.not_true, Bool.or_self, Bool.false_eq_true, if_false, hm, hacc, hv', hr]

/-- A request that passes its checks: the served state is that of the command's effect. -/
theorem State.serve_passes {s : State} {c : Cmd} {r : Request} (h : s.passes c r = true) :
    s.serve c r = c.run (s.opened c r) (s.asked r c.opcode) r.payload := by
  have k := State.handle_passes h
  unfold State.passes at h
  simp only [Bool.and_eq_true, Bool.not_eq_true', Option.isNone_iff_eq_none] at h
  obtain ⟨⟨⟨⟨⟨⟨⟨⟨⟨⟨⟨h1, h2⟩, h3⟩, h4⟩, -⟩, -⟩, -⟩, -⟩, -⟩, -⟩, -⟩, -⟩ := h
  have hq : (s.asked r c.opcode).ch = r.ch.val := rfl
  unfold State.serve
  dsimp only
  rw [h1, hq, h2, h3, h4]
  exact k

/-- A command that needs no authorisation acts on the state as it stands. -/
theorem State.opened_of_no_auth (s : State) {c : Cmd} {r : Request} (h : c.auth s r.ch.val r.payload = false) : s.opened c r = s := by
  unfold State.opened State.authorised
  have hq : (s.asked r c.opcode).ch = r.ch.val := rfl
  rw [hq, h]
  rfl

end Sys2Proof.Machine
end

