-- ==== Sys2Proof/WellFormed.lean ====
section
/-! DEFINITION. Which commands are well formed: every operand lies in the range that the spec gives the field it stands for. The meanings
do not need it: a command out of range has the effect that its fields' low bits or its range checks give it. -/

namespace Sys2Proof

/-- A number of `n` bits. -/
def fits (n x : Nat) : Bool := decide (x < 2 ^ n)

/-- A list of bytes. -/
def octets (l : List Nat) : Bool := l.all (fits 8)

/-- Sparse bytes in canonical form within `n` bytes. -/
def sparseBytes (n : Nat) (b : Bytes) : Bool := Machine.Sparse.wf (fun _ => (0 : Byte)) b && b.all (fun e => decide (e.1 < n))

/-- The nanoseconds of a tick that a phase lies in (GLB.TICK_PHASE, R46). -/
def tickNs : Nat := 20854

/-- R57: a LINKSTAT.STATE value and 16 bits of the UID. -/
def StatusBlock.wf (b : StatusBlock) : Bool := fits 4 b.state && fits 16 b.uid16

/-- R75: 6,240 bytes. -/
def RxFrame.wf (f : RxFrame) : Bool := sparseBytes 6240 f.bytes

/-- R130, R139, R195: hop indexes lie below 32. -/
def LayoutPlan.wf (p : LayoutPlan) : Bool :=
  p.sync.all (fun e => decide (e.1 < 32)) && p.wafers.all (fun e => decide (e.2.1 < 32)) && p.units.all (fun e => decide (e.2.1 < 32)) &&
    p.missing.all (fun h => decide (h < 32)) && fits 16 p.policy

/-- R191. -/
def TwinRecord.wf (r : TwinRecord) : Bool :=
  fits 32 r.tick && fits 32 r.seq && fits 32 r.regionCheck && r.cells.all (sparseBytes 256) && r.changes.all (fun c => fits 32 c.1 && octets c.2)

/-- R322: 32, 64 and 128 bits, 128 for CAS alone; operands of that width. -/
def AtomicOp.wf (op : AtomicOp) : Bool :=
  (op.width == 4 || op.width == 8 || (op.width == 16 && op.kind == .cas)) && decide (op.off % op.width = 0) &&
    fits (8 * op.width) op.operand && fits (8 * op.width) op.compare

/-- R360: the fields of a ring entry. -/
def Request.wf (r : Request) : Bool :=
  decide (r.idx < 128) && fits 16 r.tag && fits 16 r.len && fits 16 r.flags && fits 32 r.cfgver && fits 32 r.rsv && octets r.data &&
    decide (r.pos ≤ 32) && decide (r.sub ≤ 3)

/-- R418. -/
def EthRx.wf (f : EthRx) : Bool := octets f.bytes && decide (f.phaseNs < tickNs)

/-- R457: identifiers of 11 or 29 bits; 8 data bytes, or 64 in the FD format. -/
def CanRx.wf (f : CanRx) : Bool :=
  fits (if f.ext then 29 else 11) f.id && octets f.data && decide (f.data.length ≤ (if f.fd then 64 else 8))

/-- R486. -/
def MemberRecord.wf (r : MemberRecord) : Bool :=
  decide (1 ≤ r.sub) && decide (r.sub ≤ 3) && fits 32 r.tick && fits 32 r.seq && r.cells.all (sparseBytes 256)

/-- R490. -/
def RingImage.wf (r : RingImage) : Bool :=
  fits 32 r.tick && fits 16 r.topo && fits 16 r.layout && decide (r.position ≤ 32) && sparseBytes 6240 r.bytes

/-- R528, R634: the strap balls. -/
def Straps.wf (p : Straps) : Bool := decide (p.bootSrc < 4) && decide (p.stackRole < 4) && decide (p.i2cAdr < 8)

/-- R30, R39, R88. -/
def TickIn.wf (t : TickIn) : Bool :=
  t.tdm.all (fun p => decide (p.1 < 8)) && t.fsyncBad.all (fun p => decide (p < 8)) && t.mics.all (fun m => decide (m.1 < 16)) &&
    t.pdata.all (fun p => octets p.2)

/-- Is a command well formed? -/
def Instr.wf (i : Instr) : Bool :=
  match i with
  | .tickBoundary t => t.wf
  | .lockstepMismatch => true
  | .watchdogExpiry => true
  | .firmwareFault => true
  | .decikRestartDone => true
  | .signalDetected _ => true
  | .blockLockAcquired _ ptUi loopUi => fits 32 ptUi && fits 32 loopUi
  | .trainTimeout _ => true
  | .lossOfSignal _ => true
  | .blockLockLost _ => true
  | .qualTimerExpiry _ => true
  | .qualReceiveError _ _ => true
  | .linkLoss _ => true
  | .statusBlockReceive _ b => b.wf
  | .statusBlockMissing _ => true
  | .loopbackClose _ => true
  | .txeqApply _ => true
  | .prbsCheckerLock _ => true
  | .prbsCheckerResync _ => true
  | .frameReceived f => f.wf
  | .lineMerge tseq => fits 32 tseq
  | .lineDegradedClear _ => true
  | .lineShortClear => true
  | .relayLateCheck _ tseq => fits 32 tseq
  | .cellStage kind dstPos dstSub frag _ msgId _ payload => fits 4 kind && fits 8 dstPos && decide (dstSub ≤ 3) && fits 8 frag && fits 16 msgId && octets payload && decide (payload.length ≤ 212)
  | .cellExpire _ => true
  | .cellReceive cell => sparseBytes 256 cell
  | .reasmTimeout srcPos srcSub msgId => fits 8 srcPos && decide (srcSub ≤ 3) && fits 16 msgId
  | .handshakeReceive _ b _ => sparseBytes 6240 b
  | .inaugSettleEnd => true
  | .countTimeout => true
  | .claimPairLaunch => true
  | .claimWindowEnd => true
  | .layoutComputeDone plan => plan.wf
  | .computeTimeout => true
  | .layoutFragmentResend frag => decide (frag < 20)
  | .distributeEnd => true
  | .inaugBackoffExpiry => true
  | .layoutSwitch => true
  | .layoutSave => true
  | .joinDiscard => true
  | .formingWaitEnd => true
  | .fastShrinkApply => true
  | .mergeMeasureDone _ => true
  | .mergeStep => true
  | .mergeMuteEnd => true
  | .mergeTagRefuse _ => true
  | .mergePhaseTimeout => true
  | .mergeRetry => true
  | .roundEnd => true
  | .acquireStep => true
  | .syncLock => true
  | .holdoverExpire => true
  | .mclkUnlock => true
  | .twinRecordReceive r => r.wf
  | .twinResyncResume => true
  | .twinPartnerLoss _ => true
  | .twinPairFail _ => true
  | .ringHbLost => true
  | .canHbLost => true
  | .coldTakeoverLaunch _ => true
  | .reserveTakeover _ => true
  | .tdmPortEnable _ => true
  | .tdmPortStart _ => true
  | .tdmPortDisable _ => true
  | .hdmaReadComplete words phaseNs => words.all (fits 32) && decide (phaseNs < tickNs)
  | .timedChangeApply => true
  | .staleFadeEnd _ => true
  | .aecDiverge _ => true
  | .howlDetect _ _ => true
  | .notchDeepen _ _ => true
  | .notchDecay _ _ => true
  | .callFbWait _ => true
  | .callRingReturn _ => true
  | .callCanReturn _ => true
  | .noiseFrameEnd _ _ => true
  | .nfFallback _ => true
  | .pmonWindowEnd _ windows => windows.all (fun w => decide (w.1 < 16))
  | .pmonAgeOut _ => true
  | .stipaPhaseEnd sti _ _ _ ti _ _ => fits 8 sti && decide (ti.length ≤ 7)
  | .clipDeleteComplete id => fits 16 id
  | .voiceStartTick _ => true
  | .voiceEnd _ _ => true
  | .recUnitComplete _ tick _ _ _ data => fits 32 tick && octets data && decide (data.length ≤ 4096)
  | .storeCorrectableError offset initiator syndrome => fits 32 offset && decide (initiator ≤ 12) && fits 8 syndrome
  | .ceWriteback offset => fits 32 offset
  | .storeUncorrectableError offset initiator _ => fits 32 offset && decide (initiator ≤ 12)
  | .scrubPassEnd => true
  | .bankInitDone _ => true
  | .wakeCanaryCheck decayed _ => fits 16 decayed
  | .extentCheckDone _ crc _ => fits 32 crc
  | .wakeScrubBankDone _ => true
  | .rcFieldRead addr n _ => fits 18 addr && decide (n ≤ 4)
  | .registerWrite addr _ _ => fits 18 addr
  | .tickSeqRead _ => true
  | .syncTimeLoRead _ => true
  | .ptpTimeLoRead _ => true
  | .rtcLoRead _ => true
  | .tsqStatRead _ => true
  | .twinBarRead _ => true
  | .semRead _ => true
  | .semReleaseWrite _ => true
  | .linkDisableWrite _ _ => true
  | .linkRetrainWrite _ => true
  | .laneTestModeWrite _ _ => true
  | .prbsInjectWrite _ => true
  | .elaneModeWrite _ _ _ => true
  | .rankWrite _ => true
  | .storeInitStart mask => fits 16 mask
  | .bootGo _ => true
  | .kloadWrite _ _ _ => true
  | .perfVoltWrite _ => true
  | .perfFreqWrite _ => true
  | .voltSettled => true
  | .freqChangeApply => true
  | .ptpOfsHiWrite _ => true
  | .rtcAlmHiWrite hi => fits 32 hi
  | .hostVoteWrite _ => true
  | .twinWindowEnable _ _ => true
  | .htxWrWrite _ wr => fits 32 wr
  | .canTxReq _ => true
  | .canObjHold _ => true
  | .canObjRelease _ => true
  | .mbxDoorbellWrite _ => true
  | .mbxReqHeadWrite _ head => fits 32 head
  | .mbxRspTailWrite _ tail => fits 32 tail
  | .mbxChannelReset _ => true
  | .mbxPoll => true
  | .finalResponse _ tag result => fits 16 tag && octets result
  | .summaryRebuild => true
  | .unitDivergence id => fits 32 id
  | .unitDivergencePersist id => fits 32 id
  | .dpStateReached id => fits 32 id
  | .unitStartLimit id => fits 32 id
  | .unitStopLimit id => fits 32 id
  | .remoteTimeout _ tag => fits 16 tag
  | .remoteBusyResend _ tag => fits 16 tag
  | .configCommit => true
  | .confirmTimerExpiry => true
  | .rollbackApply => true
  | .fragmentTransferTimeout => true
  | .authNonceLapse => true
  | .authLockoutEnd => true
  | .spiRead addr _ => fits 32 addr
  | .spiReadFixed addr _ => fits 32 addr
  | .spiWrite addr _ => fits 32 addr
  | .spiWriteFixed addr _ => fits 32 addr
  | .spiUnknownCommand _ => true
  | .spiFrameTruncated => true
  | .i2cRequestWrite bytes => octets bytes
  | .i2cRead _ => true
  | .i2cAddressWake => true
  | .bar0Atomicop _ op => fits 18 op.off && op.wf
  | .localWindowRead _ off len => fits 28 off && decide (len ≤ 4096)
  | .localWindowWrite off bytes => fits 28 off && bytes.all (fun x => match x with | some v => fits 8 v | none => true)
  | .localWindowAtomic _ op => fits 28 op.off && op.wf
  | .trainWindowRead _ _ off len => fits 28 off && decide (len ≤ 4096)
  | .trainWindowWrite _ off bytes => fits 28 off && octets bytes
  | .trainWindowAtomic _ _ op => fits 28 op.off && op.wf
  | .bridgeReadServe => true
  | .bridgeWriteServe => true
  | .cinchServe _ => true
  | .semAcqServe => true
  | .readSemServe => true
  | .writeRelServe => true
  | .semRelServe => true
  | .bridgeRspReceive => true
  | .bridgeTimeout _ seq _ => fits 16 seq
  | .lockBackoffExpiry => true
  | .cinchExpire block => fits 32 block
  | .semLeaseLapse _ => true
  | .prefetchAgeExpire _ => true
  | .pcieLinkDown => true
  | .pciePerst _ => true
  | .ethLinkUp _ _ => true
  | .ethLinkDown _ => true
  | .ethFrameReceive _ f => f.wf
  | .pauseExpire _ => true
  | .ethFrameTransmit _ phaseNs => decide (phaseNs < tickNs)
  | .gateEntryChange _ => true
  | .pralineMatch _ bytes _ => octets bytes
  | .aes67StreamStopped _ => true
  | .streamPacketLate _ => true
  | .ptpAnnounceTimeout _ => true
  | .canCycleStart _ => true
  | .canWindowOpen _ => true
  | .canFrameReceive f => f.wf
  | .canRefLockLost => true
  | .canFrameSent _ _ _ => true
  | .canTxFail _ _ => true
  | .canBusOff => true
  | .canBusoffRecovered => true
  | .canChannelRelease _ => true
  | .canClaimBackoff _ => true
  | .canWake frame => match frame with | some f => f.wf | none => true
  | .ringHoldExpire => true
  | .stackLinkInService _ _ _ members => members.all (fun m => decide (m.1 ≤ 3))
  | .memberRecordReceive r => r.wf
  | .memberRecordLate _ => true
  | .memberLost _ => true
  | .ringImageReceive r => r.wf
  | .ringImageLate => true
  | .stackTimeMarker _ _ _ => true
  | .standbyEntry => true
  | .standbyEntryComplete => true
  | .standbyDwellExpire => true
  | .wakeEvent _ => true
  | .wakeStepReady => true
  | .wakeStepTimeout _ => true
  | .wakeRetryWaitEnd => true
  | .wakeFailHoldEnd => true
  | .vmainRise => true
  | .rtcAlarm => true
  | .railStepEnd _ => true
  | .railDelayExpire => true
  | .railPgFault _ => true
  | .residencySecond => true
  | .powerOnReset straps => straps.wf
  | .supplyRestart _ => true
  | .resetPin _ => true
  | .bootRomStart => true
  | .bootVerifyDone flash => match flash with | some l => octets l | none => true
  | .bistComplete misr failMap _ _ => misr.all (fits 32) && decide (misr.length ≤ 4) && fits 32 failMap
  | .decikInitDone _ => true
  | .configLoadDone => true
  | .ringReady => true
  | .startupNoRing => true
  | .pdwRaise => true
  | .pdwRecover => true
  | .optimeSave => true
  | .idleCountExpire => true
  | .sleepAckTimeout => true
  | .sleepTick => true
  | .wakeInAssert => true
  | .wakeOutPulseEnd => true
  | .wakeInStuck => true
  | .wakeValidExpire => true
  | .loneCountExpire => true
  | .heldTimeRecord => true
  | .tamperDetect _ => true
  | .eventPost _ => true
  | .pendingPost _ code inst data => fits 16 code && fits 32 inst && octets data
  | .stormSecondEnd => true
  | .storeTestDone errors first => fits 32 errors && fits 32 first
  | .diDebouncedChange _ _ => true
  | .chatterWindowEnd _ => true
  | .diStuck _ => true
  | .intcPendWrite _ _ => true
  | .intcEnWrite _ _ => true
  | .intcForceWrite _ _ => true
  | .msixUnmask _ => true
  | .ping r => r.wf
  | .stateSummary r => r.wf
  | .reducedSummary r => r.wf
  | .getIdentity r => r.wf
  | .getTime r => r.wf
  | .setRtc r => r.wf
  | .setNoteLevel r => r.wf
  | .serviceMode r => r.wf
  | .nodeReset r => r.wf
  | .unitGet r => r.wf
  | .unitEnable r => r.wf
  | .unitDisable r => r.wf
  | .cfgLoad r => r.wf
  | .cfgApply r => r.wf
  | .cfgConfirm r => r.wf
  | .cfgRollback r => r.wf
  | .cfgStatus r => r.wf
  | .cfgRead r => r.wf
  | .cfgDiscard r => r.wf
  | .ringStatus r => r.wf
  | .ringGetLayout r => r.wf
  | .ringRenumber r => r.wf
  | .ringMerge r => r.wf
  | .ringSetRank r => r.wf
  | .ringLinkCtrl r => r.wf
  | .ringSetParam r => r.wf
  | .syncStatus r => r.wf
  | .xpSet r => r.wf
  | .xpGet r => r.wf
  | .zoneSet r => r.wf
  | .zoneCand r => r.wf
  | .zoneEq r => r.wf
  | .zoneOut r => r.wf
  | .streamSet r => r.wf
  | .testgenSet r => r.wf
  | .zoneStatus r => r.wf
  | .libLoad r => r.wf
  | .libDelete r => r.wf
  | .libList r => r.wf
  | .playStart r => r.wf
  | .playStop r => r.wf
  | .playStatus r => r.wf
  | .callOpen r => r.wf
  | .callClose r => r.wf
  | .callStatus r => r.wf
  | .aecSet r => r.wf
  | .pmonCommission r => r.wf
  | .pmonClear r => r.wf
  | .stipaRun r => r.wf
  | .recLock r => r.wf
  | .recUnlock r => r.wf
  | .recIndex r => r.wf
  | .recExport r => r.wf
  | .ethStatus r => r.wf
  | .ethCounters r => r.wf
  | .ethMdio r => r.wf
  | .ethGateSet r => r.wf
  | .ptpSet r => r.wf
  | .ptpStatus r => r.wf
  | .streamAdd r => r.wf
  | .streamRemove r => r.wf
  | .pralineSet r => r.wf
  | .canStatus r => r.wf
  | .canSetRate r => r.wf
  | .canSchedSet r => r.wf
  | .canObjSet r => r.wf
  | .canSend r => r.wf
  | .canWakeSet r => r.wf
  | .pwrStatus r => r.wf
  | .pwrSetState r => r.wf
  | .pwrVote r => r.wf
  | .pwrPerf r => r.wf
  | .pwrWakeCfg r => r.wf
  | .pwrResidency r => r.wf
  | .awakeHold r => r.wf
  | .netSleepStatus r => r.wf
  | .secStatus r => r.wf
  | .authChallenge r => r.wf
  | .keyReplace r => r.wf
  | .keyKcv r => r.wf
  | .tamperClear r => r.wf
  | .getMeasurement r => r.wf
  | .evrStatus r => r.wf
  | .evrRead r => r.wf
  | .evrClear r => r.wf
  | .evrPendingRead r => r.wf
  | .bistRun r => r.wf
  | .bistResult r => r.wf
  | .storeTest r => r.wf
  | .laneTest r => r.wf
  | .laneTestResult r => r.wf
  | .redStatus r => r.wf
  | .masterHandover r => r.wf
  | .twinResync r => r.wf
  | .stackStatus r => r.wf
  | .stackMemberReset r => r.wf
  | .vaoLost => true
  | .rstNRelease => true
  | .vmainRestored => true
  | .tamperCauseEnd _ => true
  | .cabActiveChange _ => true
  | .wakeInDeassert => true
  | .pcieLinkUp _ _ => true
  | .msixEnableWrite _ _ => true
  | .mclkPllLock => true
  | .ptpMessageInterval _ _ => true

end Sys2Proof
end

