-- ==== Sys2Proof/Tests/Slice0.lean ====
section
/-! SUPPORT. Tests: for each check of Instr.wf a command that it refuses; checks against numbers that the spec gives; and for every
obligation with premises one theorem `witness_<Obligation>` that gives, for each of its clauses in order, a state and operands that
meet all the premises of that clause together. Clauses without premises are left out. Three clauses rest on a free value of Config
(a signature, the contents of an image, a digest): their witnesses, last below, take the free value's answer as a hypothesis. -/

namespace Sys2Proof.Tests

set_option linter.unusedVariables false
set_option Elab.async false

open Sys2Proof Sys2Proof.Machine

/-! ## Small states and operands -/

abbrev r0 : State := State.reset
def up : State := (((State.reset.setFlag GLB.FW_STAT.RUN true).set PWR.STAT.STATE Pw.active).set PWR.STAT.MODE Mode.normal).set MBX.CFG_VER.VER 1
def rq (d : List Nat) : Request := ⟨0, 0, 1, d.length, 0, 1, 0, d, 0, 0⟩
def rx (b : List Nat) : EthRx := ⟨b, true, false, false, 0⟩
def frame0 : RxFrame := ⟨.a, true, [], false, 0, 0⟩
def tick0 : TickIn := ⟨[], [], [], [], [], [], [], true, 0, 0, 0, 0⟩
def lay : Layout := ⟨1, 1, 1, 1, 0, 0, [⟨1, 0, 0, false, 2, false, 0, false, some 0, 0, 5⟩], [], []⟩
def plan : LayoutPlan := ⟨[], [], [], [], 0⟩
def partner : PartnerRec := ⟨Hs.running, 2, 2, 1, 1, 5, 1, true, 0, 0, 0⟩
def call0 : CallSt := ⟨0, 7, .pei, 0, none, 0, 0, [], [], true, none, false⟩
def clip0 : Clip := ⟨7, 1, 0, 0, 0, 2, [], 1, 0, 0, 0, false⟩
def voice0 : Voice := ⟨0, [(7, 1)], 0, 1, 0, false, none⟩
def tgt (op : Nat) : TgtReq := ⟨2, 0, op, false, false, 0, 0, 0, 0, 0, []⟩
def can0 : CanRx := ⟨5, false, false, false, false, [], 0, 0⟩
def image0 : RingImage := ⟨0, 1, 1, 1, [], none, true, 7000⟩
def member0 : MemberRecord := ⟨1, 1, 0, 0, [], [], [], false, true, true, 18000⟩
def rec0 : Record := ⟨0, 0, 0, 0, 1, 0, 0, [], true⟩
def twin0 : TwinRecord := ⟨5, 0, 2, 9, [], [], [], [], true⟩
def masterUp : State := (up.set RING.ENG_STAT.ROLE 2).set RING.ENG_STAT.POSITION 1
def ringUp : State := { masterUp with ring := { masterUp.ring with layout := some lay } }
def unit0 (mgmt : Nat) (dp : Nat) : UnitSt := ⟨unitId UClass.tdm 0, mgmt, false, false, dp, 0, 0⟩
def vx (s : State) (f : VoxSt → VoxSt) : State := { s with vox := f s.vox }
def inaug (s : State) (f : InaugSt → InaugSt) : State := { s with inaug := f s.inaug }
def fbState (n : List Notch) : State := vx up (fun v => { v with fb := v.fb.set 0 ⟨true, n, none⟩ })
def callUp : State := vx up (fun v => { v with calls := [call0] })
def nfState : State := vx up (fun v => { v with nf := v.nf.set 0 ⟨true, [], 10, 60, 0, 0, [], false⟩ })
def stipaUp : State := vx up (fun v => { v with stipa := some ⟨0, 0, none, (0, 0), 15, 0, 0⟩ })
def clipUp (d : Bool) : State := vx up (fun v => { v with clips := [{ clip0 with deleting := d }] })
def voiceUp : State := vx up (fun v => { v with voices := [voice0] })
def recUp : State := vx up (fun v => { v with recAlways := v.recAlways.set 0 true })
def pmonUp : State := { vx (up.set (AUD.PMON_STAT.VERDICT 0) Verdict.ok) (fun v => { v with pmon := v.pmon.set 0 ⟨[(0, 0, 100)], 4, 0, none, 0⟩ }) with
  cfg := { up.cfg with image := { up.cfg.image with pmonMics := [(0, 0)] } } }
def window (p : State) : State := p.setFlag BRG.LWIN_CTRL.EN true
def host : State := { up with mem := { up.mem with regions := [⟨0xF, 4, false, 0⟩] } }
theorem slice_length (b : Bytes) (a n : Nat) : (b.slice a n).length = n := by
  induction n generalizing a with
  | zero => rfl
  | succ n ih => simp [Bytes.slice, ih]
theorem first_chunk (l : List Nat) (h : 212 < l.length) : (chunks 212 256 l)[0]? = some (l.take 212) := by
  show (if l.length ≤ 212 then [l] else l.take 212 :: chunks 212 255 (l.drop 212))[0]? = _
  rw [if_neg (by omega)]; rfl
def op4 : AtomicOp := ⟨0, .swap, 4, 0, 0⟩
def pf0 : PfBuf := ⟨0, 0, [], [], 0⟩
def brq (op : Nat) : BrgReq := ⟨0, 0, 0, op, 0, 0, 0, 0, [], false, 2, 0, 0, 0⟩
def hostAtom : HostAtom := ⟨0, 0, 0, op4, false, false, 0, 0, 0, some (3, 0), 0⟩
def brg (s : State) (f : BridgeSt → BridgeSt) : State := { s with brg := f s.brg }
def racc : State := (((((up.setFlag BRG.RACC_CTRL.EN true).setFlag BRG.RACC_CTRL.CINCH_EN true).set (BRG.RACC_INFO.PAGES 0) 1).setFlag
  (BRG.RACC_INFO.R 0) true).setFlag (BRG.RACC_INFO.W 0) true).setFlag (BRG.RACC_INFO.LOCK 0) true
def asked (op : Nat) : State := brg (racc.setBank 0 Bank.ready) (fun b => { b with inbox := [tgt op] })
def unasked : State := racc.setBank 0 Bank.ready
def semUp (s : State) : State := (s.setFlag (BRG.SEM.HELD 0) true).set (BRG.SEM.OWNER_POS 0) 2
def open0 (p : Pend) : OpenReq := ⟨0, 0, 0, 0, p, none⟩
def opened (p : Pend) : State := { up with mbx := { up.mbx with opens := [open0 p] } }
def tdmOn : State := (up.setFlag (AUD.TDM_CFG.EN 0) true).setFlag (AUD.TDM_STAT.RUN 0) true
def tdm (u : UnitSt) (on : Bool) : State := { (if on then tdmOn else up) with units := [u] }
def timed0 (op : Nat) : Timed := ⟨0, some 0, op, [], 0, 0⟩
def spi : State := { up with straps := { up.straps with hostSpi := true } }
def pw (s : State) (f : PwrSt → PwrSt) : State := { s with pwr := f s.pwr }
def slots (a b : ImageSlot) : State := { up with cfg := { up.cfg with slots := [a, b] }, mbx := { up.mbx with timed := [timed0 0x0202] } }
def fwDown : State := { (r0.set PWR.STAT.STATE Pw.active).set GLB.BOOT_STAT.STATE 6 with
  pwr := { r0.pwr with images := [0, 0] }, sec := { r0.sec with hashes := [Config.sha256 [], Config.sha256 []] } }
theorem fwDown_good : fwDown.firmwareGood = true := by
  have h : fwDown.firmwareCopy = [[], []] := by decide +kernel
  have k : fwDown.sec.hashes = [Config.sha256 [], Config.sha256 []] := rfl
  unfold State.firmwareGood
  rw [h, k]
  simp only [List.map, beq_self_eq_true, Bool.and_true]
  decide +kernel
def eth (s : State) (f : EthPort → EthPort) : State := s.setEthPort 0 (f (s.ethPort 0))
def ethOn : State := (up.setFlag (ETH.CFG.EN 0) true).setFlag (ETH.STAT.LINK 0) true
def ethFrame : TxFrame := ⟨[], .other⟩
def txUp : State := eth ((ethOn.setFlag (ETH.STAT.PAUSED 0) false).set (ETH.GATE_STAT.GATES 0) 255)
  (fun p => { p with queues := p.queues.set 7 [ethFrame] })
def canUp (s : State) : State := (s.setFlag CAN.CFG.EN true).set CAN.STAT.ERR_STATE 0
def canSt (s : State) (f : CanSt → CanSt) : State := { s with can := f s.can }
def stk (s : State) (m : MemberSt) : State := { s with stk := { s.stk with members := s.stk.members.set 0 m } }
def headUp : State := (up.set STK.STAT.ROLE 0).setFlag (STK.MEMBER_STAT.ADMITTED 1) true
def post (r : Record) : State := { up with evr := { up.evr with posted := [r] } }
def keyed : State := { up.setFlag SEC.STAT.TAMPER false with sec := { up.sec with slots := up.sec.slots.set 1 ⟨1, 15, some ⟨1, 9⟩, none, up.sec.measurement, 0⟩ } }
def pause (b : List Nat) : List Nat := [1, 0x80, 0xC2, 0, 0, 1, 0, 0, 0, 0, 0, 1, 0x88, 0x08] ++ b ++ List.replicate (46 - b.length) 0
def heldTrain : State := { ringUp with ring := { ringUp.ring with merged := [(ctrlOff 1 + 2, 0x80)] } }
def testUp : State := up.set PWR.STAT.MODE Mode.test
def recorded : State := { up with evr := { up.evr with area := [(0, rec0)] } }
def replaceData : List Nat := [15, 1, 1, 0, 0, 0, 0, 0, 60, 0, 0, 0] ++ List.replicate 60 0
def unlocked0 : RecUnit := ⟨0, 0, 0, 0, 0, 0, 0, 0, false, false⟩
def lockedUp : State := vx up (fun v => { v with recUnits := unlocked0 :: List.replicate recLockMax { unlocked0 with call := 1, locked := true } })
theorem lockedUp_full : recLockMax < (lockedUp.vox.recUnits.filter (fun (r : RecUnit) => r.locked && !r.lost &&
    r.call != fieldOf (rq [0, 0, 0, 0]).payload 0 4)).length + (lockedUp.vox.unitsOf (fieldOf (rq [0, 0, 0, 0]).payload 0 4)).length := by
  simp [lockedUp, vx, VoxSt.unitsOf, unlocked0, show fieldOf (rq [0, 0, 0, 0]).payload 0 4 = 0 by decide]
theorem lockedUp_some : lockedUp.vox.unitsOf (fieldOf (rq [0, 0, 0, 0]).payload 0 4) ≠ [] := by
  simp [lockedUp, vx, VoxSt.unitsOf, unlocked0, show fieldOf (rq [0, 0, 0, 0]).payload 0 4 = 0 by decide]

/-! ## Well-formedness: for each check, a command that breaks it -/

/-- A request like `r` with one field changed is the ill-formed operand of a request command. -/
def badRequests : List Request :=
  let r := rq []
  [{ r with idx := 128 }, { r with tag := 65536 }, { r with len := 65536 }, { r with flags := 65536 }, { r with cfgver := 2 ^ 32 },
    { r with rsv := 2 ^ 32 }, { r with data := [256] }, { r with pos := 33 }, { r with sub := 4 }]

/-- Does a command of one request operand accept an empty request and refuse every ill-formed one? -/
def refusesBad (c : Request → Instr) : Bool := (c (rq [])).wf && badRequests.all (fun r => !(c r).wf)

theorem test_wf_refuses_requests_1 : List.all
    [.ping, .stateSummary, .reducedSummary, .getIdentity, .getTime, .setRtc, .setNoteLevel, .serviceMode, .nodeReset, .unitGet,
      .unitEnable, .unitDisable, .cfgLoad, .cfgApply, .cfgConfirm, .cfgRollback, .cfgStatus, .cfgRead, .cfgDiscard, .ringStatus,
      .ringGetLayout, .ringRenumber, .ringMerge, .ringSetRank, .ringLinkCtrl, .ringSetParam, .syncStatus, .xpSet, .xpGet, .zoneSet,
      .zoneCand, .zoneEq, .zoneOut, .streamSet, .testgenSet, .zoneStatus, .libLoad, .libDelete, .libList, .playStart, .playStop,
      .playStatus, .callOpen, .callClose, .callStatus, .aecSet, .pmonCommission, .pmonClear] refusesBad = true := by decide +kernel

theorem test_wf_refuses_requests_2 : List.all
    [.stipaRun, .recLock, .recUnlock, .recIndex, .recExport, .ethStatus, .ethCounters, .ethMdio, .ethGateSet, .ptpSet, .ptpStatus,
      .streamAdd, .streamRemove, .pralineSet, .canStatus, .canSetRate, .canSchedSet, .canObjSet, .canSend, .canWakeSet, .pwrStatus,
      .pwrSetState, .pwrVote, .pwrPerf, .pwrWakeCfg, .pwrResidency, .awakeHold, .netSleepStatus, .secStatus, .authChallenge, .keyReplace,
      .keyKcv, .tamperClear, .getMeasurement, .evrStatus, .evrRead, .evrClear, .evrPendingRead, .bistRun, .bistResult, .storeTest,
      .laneTest, .laneTestResult, .redStatus, .masterHandover, .twinResync, .stackStatus, .stackMemberReset] refusesBad = true := by decide +kernel

/-- Byte lists out of canonical form: not rising, a listed zero. -/
def badBytes : List Bytes := [[(1, 1), (0, 1)], [(0, 0)], [(6240, 1)]]

theorem test_wf_refuses_ring :
    ([.tickBoundary { tick0 with tdm := [(8, [])] }, .tickBoundary { tick0 with fsyncBad := [8] },
      .tickBoundary { tick0 with mics := [(16, 0, false)] }, .tickBoundary { tick0 with pdata := [(0, [256])] },
      .blockLockAcquired 0 (2 ^ 32) 0, .blockLockAcquired 0 0 (2 ^ 32), .statusBlockReceive 0 ⟨16, false, 0⟩,
      .statusBlockReceive 0 ⟨0, false, 65536⟩, .lineMerge (2 ^ 32), .relayLateCheck .a (2 ^ 32), .cellStage 16 0 0 0 true 0 false [],
      .cellStage 0 256 0 0 true 0 false [], .cellStage 0 0 4 0 true 0 false [], .cellStage 0 0 0 256 true 0 false [],
      .cellStage 0 0 0 0 true 65536 false [], .cellStage 0 0 0 0 true 0 false [256], .cellStage 0 0 0 0 true 0 false (List.replicate 213 0),
      .cellReceive [(256, 1)], .reasmTimeout 256 0 0, .reasmTimeout 0 4 0, .reasmTimeout 0 0 65536,
      .layoutComputeDone { plan with sync := [(32, 0)] }, .layoutComputeDone { plan with wafers := [(0, 32, 0)] },
      .layoutComputeDone { plan with units := [(0, 32, 0)] }, .layoutComputeDone { plan with missing := [32] },
      .layoutComputeDone { plan with policy := 65536 }, .layoutFragmentResend 20, .twinRecordReceive { twin0 with tick := 2 ^ 32 },
      .twinRecordReceive { twin0 with seq := 2 ^ 32 }, .twinRecordReceive { twin0 with regionCheck := 2 ^ 32 },
      .twinRecordReceive { twin0 with cells := [[(256, 1)]] }, .twinRecordReceive { twin0 with changes := [(2 ^ 32, [])] },
      .twinRecordReceive { twin0 with changes := [(0, [256])] }] : List Instr).all (fun i => !i.wf) = true ∧
    badBytes.all (fun b => !(Instr.frameReceived { frame0 with bytes := b }).wf && !(Instr.handshakeReceive 0 b 0).wf) = true := by
  decide +kernel

theorem test_wf_refuses_audio_and_store :
    ([.hdmaReadComplete [2 ^ 32] 0, .hdmaReadComplete [] 20854, .pmonWindowEnd 0 [(16, 0, 0)], .stipaPhaseEnd 256 false false false [] 0 0,
      .stipaPhaseEnd 0 false false false (List.replicate 8 0) 0 0, .clipDeleteComplete 65536, .recUnitComplete 0 (2 ^ 32) 0 0 0 [],
      .recUnitComplete 0 0 0 0 0 [256], .recUnitComplete 0 0 0 0 0 (List.replicate 4097 0), .storeCorrectableError (2 ^ 32) 0 0,
      .storeCorrectableError 0 13 0, .storeCorrectableError 0 0 256, .ceWriteback (2 ^ 32), .storeUncorrectableError (2 ^ 32) 0 [],
      .storeUncorrectableError 0 13 [], .wakeCanaryCheck 65536 0, .extentCheckDone 0 (2 ^ 32) 0, .storeInitStart 65536,
      .storeTestDone (2 ^ 32) 0, .storeTestDone 0 (2 ^ 32), .pendingPost 0 65536 0 [], .pendingPost 0 0 (2 ^ 32) [],
      .pendingPost 0 0 0 [256]] : List Instr).all (fun i => !i.wf) = true := by decide +kernel

theorem test_wf_refuses_host_ports :
    ([.rcFieldRead (2 ^ 18) 1 0, .rcFieldRead 0 5 0, .registerWrite (2 ^ 18) 15 0, .rtcAlmHiWrite (2 ^ 32), .htxWrWrite 0 (2 ^ 32),
      .mbxReqHeadWrite 0 (2 ^ 32), .mbxRspTailWrite 0 (2 ^ 32), .finalResponse 0 65536 [], .finalResponse 0 0 [256],
      .unitDivergence (2 ^ 32), .unitDivergencePersist (2 ^ 32), .dpStateReached (2 ^ 32), .unitStartLimit (2 ^ 32),
      .unitStopLimit (2 ^ 32), .remoteTimeout 0 65536, .remoteBusyResend 0 65536, .spiRead (2 ^ 32) [], .spiReadFixed (2 ^ 32) [],
      .spiWrite (2 ^ 32) [], .spiWriteFixed (2 ^ 32) [], .i2cRequestWrite [256], .bar0Atomicop 0 { op4 with off := 2 ^ 18 },
      .bar0Atomicop 0 { op4 with width := 2 }, .bar0Atomicop 0 { op4 with width := 16 }, .bar0Atomicop 0 { op4 with off := 2 },
      .bar0Atomicop 0 { op4 with operand := 2 ^ 32 }, .bar0Atomicop 0 { op4 with compare := 2 ^ 32 }, .localWindowRead 0 (2 ^ 28) 4,
      .localWindowRead 0 0 4097, .localWindowWrite (2 ^ 28) [], .localWindowWrite 0 [some 256], .localWindowAtomic 0 { op4 with off := 2 ^ 28 },
      .trainWindowRead 0 0 (2 ^ 28) 4, .trainWindowRead 0 0 0 4097, .trainWindowWrite 0 (2 ^ 28) [], .trainWindowWrite 0 0 [256],
      .trainWindowAtomic 0 0 { op4 with off := 2 ^ 28 }, .bridgeTimeout 0 65536 0, .cinchExpire (2 ^ 32)] : List Instr).all
      (fun i => !i.wf) = true := by decide +kernel

theorem test_wf_refuses_links_and_start :
    ([.ethFrameReceive 0 (rx [256]), .ethFrameReceive 0 { rx [] with phaseNs := 20854 }, .ethFrameTransmit 0 20854, .pralineMatch 0 [256] true,
      .canFrameReceive { can0 with id := 2 ^ 11 }, .canFrameReceive { can0 with ext := true, id := 2 ^ 29 }, .canFrameReceive { can0 with data := [256] },
      .canFrameReceive { can0 with data := List.replicate 9 0 }, .canFrameReceive { can0 with fd := true, data := List.replicate 65 0 },
      .stackLinkInService false 0 false [(4, 0, false)], .memberRecordReceive { member0 with sub := 0 }, .memberRecordReceive { member0 with sub := 4 },
      .memberRecordReceive { member0 with tick := 2 ^ 32 }, .memberRecordReceive { member0 with seq := 2 ^ 32 },
      .memberRecordReceive { member0 with cells := [[(256, 1)]] }, .ringImageReceive { image0 with tick := 2 ^ 32 },
      .ringImageReceive { image0 with topo := 65536 }, .ringImageReceive { image0 with layout := 65536 },
      .ringImageReceive { image0 with position := 33 }, .ringImageReceive { image0 with bytes := [(6240, 1)] },
      .powerOnReset { r0.straps with bootSrc := 4 }, .powerOnReset { r0.straps with stackRole := 4 }, .powerOnReset { r0.straps with i2cAdr := 8 },
      .bistComplete [2 ^ 32] 0 0 0, .bistComplete [0, 0, 0, 0, 0] 0 0 0, .bistComplete [] (2 ^ 32) 0 0] : List Instr).all
      (fun i => !i.wf) = true := by decide +kernel

/-! ## Checks against numbers that the spec gives -/

/-- The string 123456789. -/
def digits : List Nat := [0x31, 0x32, 0x33, 0x34, 0x35, 0x36, 0x37, 0x38, 0x39]

/-- The check value of chapter 3's CRC-32C. -/
theorem test_crc32c_check_value : crc32c digits = 0xE3069283 := by decide +kernel

/-- The check value of R433's CRC-16/CCITT. -/
theorem test_crc16_check_value : crc16 digits = 0x29B1 := by decide +kernel

/-- The means of chapter 5's worked example, in ps. -/
def exampleMeans : List (Nat × Int) := [(0, 1310), (1, -3620), (2, 1740900), (3, 7660), (4, -11690)]

/-- Chapter 5's worked example: entries 2 and 4 are discarded, and the rest average to +1.78 ns. -/
theorem test_averaging_worked_example :
    (keptDevs exampleMeans).map Prod.fst = [1, 0, 3] ∧ averageDevs exampleMeans = 1783 := by decide +kernel

/-- The jobs of chapter 1's worked example: 10,090 cycles on core 2 with the overhead; here the cores below it have no room. -/
def exampleJobs : List Job :=
  [(0, 8000), (1, 8000), (2, 1440), (2, 4200), (2, 4200)].map (fun e => ⟨e.1, e.2, 0, true, [], true, false, false, false, 0, false⟩)

/-- Chapter 1's worked example: the third echo canceller goes to the first other core with room; at P1 core 2 does not fit. -/
theorem test_admission_worked_example :
    coreLoad exampleJobs 2 = 10090 ∧ coreFor exampleJobs (pointBudget 0) 4200 = some 3 ∧ pointBudget 1 < coreLoad exampleJobs 2 := by
  decide +kernel

/-- The table gives no command any bits. -/
theorem test_no_word_spells_a_command : (List.range 64).all (fun w => (decodeTableWord 32 w).isNone) = true := by decide +kernel

/-- The block with nothing to do stays as it is. -/
theorem test_idle_at_reset : step State.reset = .next State.reset := rfl

/-- A command at the front of the queue runs and leaves it. -/
theorem test_front_command_runs : step { r0 with pending := [.scrubPassEnd, .mbxPoll] } = exec .scrubPassEnd { r0 with pending := [.mbxPoll] } := rfl

/-! ## A request with a right authorisation block -/

/-- The state with a challenge for channel 0 and transport key 9 (R577, R578). -/
def challenged (s : State) : State :=
  { s with sec := { s.sec with challenges := [⟨0, 0, [], 1⟩], slots := s.sec.slots.set 0 ⟨0, 0, some ⟨1, 9⟩, none, [], 0⟩ } }

/-- A request of channel 0 with the right authorisation block behind its data. -/
def signed (s : State) (op : Nat) (d : List Nat) : Request :=
  ⟨0, 0, 1, d.length + 36, 1, 1, 0, d ++ ([0, 0, 0, 0] ++ s.authMac 9 [] 0 op (d.length + 36) 1 d), 0, 0⟩

/-- The state in which its command acts. -/
def trusted (s : State) : State :=
  State.setAuthSource { s with sec := { s.sec with challenges := s.sec.challenges.filter (fun c => !(c.ch == 0)) } }
    { s.authSource 0 0 with fails := 0 }

/-- All that a signed request needs besides its block. -/
def signable (c : Cmd) (s : State) (d : List Nat) : Bool :=
  s.decikRuns && s.mayConsume 0 && (s.opensOf 0).isEmpty && decide (d.length + 36 ≤ 4080) && s.permits c 0 d && c.len d &&
    c.auth s 0 d && (!s.flag SEC.STAT.TAMPER || c.opcode == 0x0A05) && decide ((s.authSource 0 0).lockUntil ≤ s.decik.upTicks) &&
    (s.challenge 0 0).any (fun x => x.nonce == []) && s.authKey == (0, some 9) && d.all (fun x => decide (x < 256)) &&
    (trusted s).modeAccepts c.opcode && c.accept (trusted s) d && (!c.versioned || (trusted s).versionOk 1 (c.effective (trusted s) d)) &&
    rsvZero d c.rsv

theorem authMac_length (s : State) (k : Nat) (n : List Nat) (ch o l v : Nat) (d : List Nat) : (s.authMac k n ch o l v d).length = 32 := by
  simp [State.authMac]

theorem authMac_byte (s : State) (k : Nat) (n : List Nat) (ch o l v : Nat) (d : List Nat) :
    ∀ x ∈ s.authMac k n ch o l v d, x < 256 := by
  intro x hx
  have := List.mem_of_mem_take hx
  simp only [List.mem_append, List.mem_map, List.mem_replicate] at this
  rcases this with ⟨y, _, rfl⟩ | ⟨_, rfl⟩ <;> omega

theorem body_of_bytes (r : Request) (h : r.data.length = r.len) (k : ∀ x ∈ r.data, x < 256) : r.body = r.data := by
  have e : r.data.map (fun x => x % 256) = r.data := by
    conv => rhs; rw [← List.map_id r.data]
    exact List.map_congr_left (fun x hx => Nat.mod_eq_of_lt (k x hx))
  unfold Request.body
  rw [e, List.take_append_of_le_length (by omega), List.take_of_length_le (by omega)]

theorem signed_body (s : State) (o : Nat) (d : List Nat) (k : d.all (fun x => decide (x < 256)) = true) :
    (signed s o d).body = d ++ ([0, 0, 0, 0] ++ s.authMac 9 [] 0 o (d.length + 36) 1 d) := by
  refine body_of_bytes _ ?_ ?_
  · simp [signed, authMac_length]
  · intro x hx
    simp only [signed, List.mem_append, List.mem_cons, List.not_mem_nil, or_false] at hx
    rcases hx with h | h | h
    · simpa using List.all_eq_true.mp k x h
    · omega
    · exact authMac_byte _ _ _ _ _ _ _ _ x h

theorem signed_payload (s : State) (o : Nat) (d : List Nat) (k : d.all (fun x => decide (x < 256)) = true) :
    (signed s o d).payload = d := by
  unfold Request.payload
  rw [show bit (signed s o d).flags 0 = true from (show bit 1 0 = true by decide), if_pos rfl, signed_body s o d k]
  simp [authMac_length]

theorem authMac_sec (s : State) (x : SecSt) (k : Nat) (n : List Nat) (ch o l v : Nat) (d : List Nat) :
    State.authMac { s with sec := x } k n ch o l v d = s.authMac k n ch o l v d := rfl

theorem signed_authorised (c : Cmd) (s : State) (d : List Nat) (h : signable c s d = true) :
    s.authorised c (signed s c.opcode d) (s.asked (signed s c.opcode d) c.opcode) d = (none, trusted s) := by
  simp only [signable, Bool.and_eq_true, decide_eq_true_eq, beq_iff_eq] at h
  obtain ⟨⟨⟨⟨⟨⟨⟨⟨⟨⟨⟨⟨⟨⟨⟨_, _⟩, _⟩, _⟩, _⟩, _⟩, ha⟩, ht⟩, hl⟩, hc⟩, hk⟩, hb⟩, _⟩, _⟩, _⟩, _⟩ := h
  obtain ⟨x, hx, hn⟩ : ∃ x, s.challenge 0 0 = some x ∧ x.nonce = [] := by
    cases e : s.challenge 0 0 with
    | none => rw [e] at hc; simp at hc
    | some x => rw [e] at hc; exact ⟨x, rfl, by simpa using hc⟩
  unfold State.authorised
  have ha' : c.auth s (s.asked (signed s c.opcode d) c.opcode).ch d = true := ha
  rw [ha', if_neg (by decide)]
  have hb1 : bit (signed s c.opcode d).flags 0 = true := show bit 1 0 = true by decide
  have ht' : (s.flag SEC.STAT.TAMPER && c.opcode != 2565) = false := by
    cases e : s.flag SEC.STAT.TAMPER
    · rfl
    · rw [e] at ht; simp at ht; simp [ht]
  rw [if_neg (by rw [ht']; decide), hb1, if_neg (by decide)]
  have hq : (s.asked (signed s c.opcode d) c.opcode).origin = none := rfl
  have hch : (s.asked (signed s c.opcode d) c.opcode).ch = 0 := rfl
  rw [hq, hch, signed_body s _ d hb]
  unfold State.authCheck
  dsimp only
  rw [if_neg (Nat.not_lt.mpr hl), hx]
  have hk' : (State.authKey { s with sec := { s.sec with challenges := s.sec.challenges.filter (fun c => !(c.ch == 0 && (0 != 3 || c.uid == 0))) } }) = (0, some 9) := hk
  rw [hk']
  simp [hn, authMac_length, authMac_sec, signed, trusted, List.take_of_length_le (Nat.le_of_eq (authMac_length _ _ _ _ _ _ _ _))]

theorem signed_ok (c : Cmd) (s : State) (d : List Nat) (h : signable c s d = true) :
    s.passes c (signed s c.opcode d) = true ∧ s.opened c (signed s c.opcode d) = trusted s ∧ (signed s c.opcode d).payload = d := by
  have ha := signed_authorised c s d h
  simp only [signable, Bool.and_eq_true, decide_eq_true_eq, beq_iff_eq, List.isEmpty_iff] at h
  obtain ⟨⟨⟨⟨⟨⟨⟨⟨⟨⟨⟨⟨⟨⟨⟨h1, h2⟩, h3⟩, h4⟩, h5⟩, h6⟩, _⟩, _⟩, _⟩, _⟩, _⟩, hb⟩, h7⟩, h8⟩, h9⟩, h10⟩ := h
  have hp := signed_payload s c.opcode d hb
  have ho : s.opened c (signed s c.opcode d) = trusted s := by unfold State.opened; rw [hp, ha]
  refine ⟨?_, ho, hp⟩
  have hs : (s.headerStatus (signed s c.opcode d)).isNone = true := by
    have e : s.opensOf (signed s c.opcode d).ch.val = [] := h3
    unfold State.headerStatus
    have l : ¬ 4080 < (signed s c.opcode d).len := Nat.not_lt.mpr h4
    rw [e, if_neg l]
    simp [signed]
  unfold State.passes
  rw [hp, ho, ha, hs]
  simp only [h1, h6, h7, h8, h10, Bool.and_true, Bool.true_and, Option.isNone_none]
  have e1 : s.mayConsume (signed s c.opcode d).ch.val = true := h2
  have e2 : s.permits c (signed s c.opcode d).ch.val d = true := h5
  have e3 : (c.versioned = false ∨ (trusted s).versionOk (signed s c.opcode d).cfgver (c.effective (trusted s) d) = true) := by
    have h : c.versioned = false ∨ (trusted s).versionOk 1 (c.effective (trusted s) d) = true := by simpa using h9
    exact h
  rw [e1, e2, signed_body s _ d hb]
  simp [authMac_length, e3, show bit (signed s c.opcode d).flags 1 = false from (show bit 1 1 = false by decide)]

/-! ## Witnesses -/

theorem witness_EmptyQueueIdles :
    (∃ (s : State), (s.pending = [])) :=
  ⟨up, by decide +kernel⟩

theorem witness_EveryStepKeepsCanonicalForms :
    (∃ (s : State) (t : State), (s.canonical = true) ∧ (step s = .next t)) :=
  ⟨up, _, by decide +kernel, rfl⟩

theorem witness_NoCommandTouchesQueueOrIdentity :
    (∃ (c : Instr) (s : State) (t : State), (exec c s = .next t)) :=
  ⟨.mbxPoll, up, _, rfl⟩

theorem witness_RegisterWriteRules :
    (∃ (s : State) (a : Nat) (e : Fin 16) (w : Word), (wholeWord a e.val = false)) ∧
    (∃ (s : State) (a : Nat) (w : Word), (wholeWord a 15 = true) ∧ (reservedHit a w = true) ∧ (s.reaches a = true)) ∧
    (∃ (s : State) (w : Word), (s.reaches GLB.TICK_SEQ.off = true)) ∧
    (∃ (s : State) (w : Word) (a : Nat), (s.reaches GLB.TICK_SEQ.off = true)) :=
  ⟨⟨up, 0, 0, 0, by decide +kernel⟩,
    ⟨up, GLB.BOOT_CTRL.off, 0xFFFFFFFF, by decide +kernel, by decide +kernel, by decide +kernel⟩,
    ⟨up, 0, by decide +kernel⟩,
    ⟨up, 0, 0, by decide +kernel⟩⟩

theorem witness_LinkTrainingSteps :
    (∃ (s : State) (m : LinkIx), (s.linkState m = Lk.detect)) ∧
    (∃ (s : State) (m : LinkIx) (pt : Nat) (loop : Nat), (s.linkState m = Lk.train)) ∧
    (∃ (s : State) (m : LinkIx), (s.linkState m = Lk.train)) ∧
    (∃ (s : State) (m : LinkIx), (s.linkState m = Lk.lock)) ∧
    (∃ (s : State) (p : Fin 2), (s.stackLink p = Lk.detect)) ∧
    (∃ (s : State) (p : Fin 2) (pt : Nat) (loop : Nat), (s.stackLink p = Lk.train) ∧ (s.isMember = false)) ∧
    (∃ (s : State) (p : Fin 2), (s.stackLink p = Lk.train)) ∧
    (∃ (s : State) (p : Fin 2), (s.stackLink p = Lk.lock)) :=
  ⟨⟨up.set (RING.LINKSTAT.STATE 0) Lk.detect, 0, by decide +kernel⟩,
    ⟨up.set (RING.LINKSTAT.STATE 0) Lk.train, 0, 0, 0, by decide +kernel⟩,
    ⟨up.set (RING.LINKSTAT.STATE 0) Lk.train, 0, by decide +kernel⟩,
    ⟨up.set (RING.LINKSTAT.STATE 0) Lk.lock, 0, by decide +kernel⟩,
    ⟨up.set (STK.LINKSTAT.STATE 0) Lk.detect, 0, by decide +kernel⟩,
    ⟨up.set (STK.LINKSTAT.STATE 0) Lk.train, 0, 0, 0, by decide +kernel, by decide +kernel⟩,
    ⟨up.set (STK.LINKSTAT.STATE 0) Lk.train, 0, by decide +kernel⟩,
    ⟨up.set (STK.LINKSTAT.STATE 0) Lk.lock, 0, by decide +kernel⟩⟩

theorem witness_LinkQualificationSteps :
    (∃ (s : State) (m : LinkIx), (s.linkState m = Lk.qualifying)) ∧
    (∃ (s : State) (m : LinkIx) (e : RxError), (s.linkUp m = true)) ∧
    (∃ (s : State) (p : Fin 2) (e : RxError), (s.stackLink p = Lk.inRing)) ∧
    (∃ (s : State) (m : LinkIx), (s.linkUp m = true)) ∧
    (∃ (s : State) (p : Fin 2), (s.stackLink p = Lk.inRing)) ∧
    (∃ (s : State) (m : LinkIx), (s.linkUp m = true)) ∧
    (∃ (s : State) (m : LinkIx) (b : StatusBlock), (s.linkState m = Lk.lock)) ∧
    (∃ (s : State) (m : LinkIx) (b : StatusBlock), (s.linkUp m = true) ∧ b.state < Lk.qualified) ∧
    (∃ (s : State) (m : LinkIx), ((s.link m).closePend = true)) ∧
    (∃ (s : State) (m : LinkIx), ((s.link m).closePend = false)) :=
  ⟨⟨up.set (RING.LINKSTAT.STATE 0) Lk.qualifying, 0, by decide +kernel⟩,
    ⟨up.set (RING.LINKSTAT.STATE 0) Lk.inRing, 0, .lossOfSignal, by decide +kernel⟩,
    ⟨up.set (STK.LINKSTAT.STATE 0) Lk.inRing, 0, .lossOfSignal, by decide +kernel⟩,
    ⟨up.set (RING.LINKSTAT.STATE 0) Lk.inRing, 0, by decide +kernel⟩,
    ⟨up.set (STK.LINKSTAT.STATE 0) Lk.inRing, 0, by decide +kernel⟩,
    ⟨up.set (RING.LINKSTAT.STATE 0) Lk.inRing, 0, by decide +kernel⟩,
    ⟨up.set (RING.LINKSTAT.STATE 0) Lk.lock, 0, ⟨0, false, 0⟩, by decide +kernel⟩,
    ⟨up.set (RING.LINKSTAT.STATE 0) Lk.inRing, 0, ⟨0, false, 0⟩, by decide +kernel, by decide +kernel⟩,
    ⟨{ up with links := up.links.set 0 ⟨false, 0, none, true, 4, 3⟩ }, 0, by decide +kernel⟩,
    ⟨up, 0, by decide +kernel⟩⟩

theorem witness_LaneTestAndLinkControl :
    (∃ (s : State) (m : LinkIx), (s.linkState m = Lk.test) ∧ (2 ≤ s.get (RING.LTEST.MODE m))) ∧
    (∃ (s : State) (p : Fin 2), (s.stackPrbs p = true)) ∧
    (∃ (s : State) (m : LinkIx), (s.linkState m = Lk.test) ∧ (2 ≤ s.get (RING.LTEST.MODE m)) ∧ (s.flag (RING.LTEST.CHK_LOCK m) = true)) ∧
    (∃ (s : State) (p : Fin 2), (s.stackPrbs p = true) ∧ (s.flag (STK.LTEST.CHK_LOCK p) = true)) ∧
    (∃ (s : State) (m : LinkIx) (mode : Fin 4), (s.reaches (RING.LTEST.off 0) = true) ∧ (s.linkUp m = true) ∧ s.get (RING.LTEST.MODE m) ≠ mode.val) ∧
    (∃ (s : State) (m : LinkIx), (s.reaches (RING.LTEST.off 0) = true) ∧ (s.linkState m = Lk.detect) ∧ (s.get (RING.LTEST.MODE m) = 0)) ∧
    (∃ (s : State) (p : Fin 2), (s.reaches (STK.LTEST.off 0) = true) ∧ (s.stackLink p = Lk.detect) ∧ (s.get (STK.LTEST.MODE p) = 0)) ∧
    (∃ (s : State) (m : LinkIx), (s.reaches (RING.LTEST.off 0) = true) ∧ (s.linkState m = Lk.test) ∧ (s.get (RING.LTEST.MODE m) = 2)) ∧
    (∃ (s : State) (p : Fin 2), (s.reaches (STK.LTEST.off 0) = true) ∧ (s.stackPrbs p = true) ∧ (s.get (STK.LTEST.MODE p) = 2)) ∧
    (∃ (s : State) (m : LinkIx), (s.reaches RING.LINK_CTRL.off = true) ∧ (s.getBit RING.LINK_CTRL.DISABLE m = false) ∧ (s.linkUp m = true)) ∧
    (∃ (s : State) (m : LinkIx), (s.reaches RING.LINK_CTRL.off = true) ∧ (s.linkState m = Lk.test)) ∧
    (∃ (s : State) (m : LinkIx) (on : Bool), (s.reaches RING.LINK_CTRL.off = false)) :=
  ⟨⟨(up.set (RING.LINKSTAT.STATE 0) Lk.test).set (RING.LTEST.MODE 0) 2, 0, by decide +kernel, by decide +kernel⟩,
    ⟨(up.set (STK.LINKSTAT.STATE 0) Lk.test).set (STK.LTEST.MODE 0) 2, 0, by decide +kernel⟩,
    ⟨((up.set (RING.LINKSTAT.STATE 0) Lk.test).set (RING.LTEST.MODE 0) 2).setFlag (RING.LTEST.CHK_LOCK 0) true, 0, by decide +kernel, by decide +kernel, by decide +kernel⟩,
    ⟨((up.set (STK.LINKSTAT.STATE 0) Lk.test).set (STK.LTEST.MODE 0) 2).setFlag (STK.LTEST.CHK_LOCK 0) true, 0, by decide +kernel, by decide +kernel⟩,
    ⟨(up.set (RING.LINKSTAT.STATE 0) Lk.inRing).set (RING.LTEST.MODE 0) ((if 0 = 0 then 1 else 0)), 0, 0, by decide +kernel, by decide +kernel, by decide +kernel⟩,
    ⟨(up.set (RING.LINKSTAT.STATE 0) Lk.detect).set (RING.LTEST.MODE 0) (0), 0, by decide +kernel, by decide +kernel, by decide +kernel⟩,
    ⟨(up.set (STK.LINKSTAT.STATE 0) Lk.detect).set (STK.LTEST.MODE 0) (0), 0, by decide +kernel, by decide +kernel, by decide +kernel⟩,
    ⟨(up.set (RING.LINKSTAT.STATE 0) Lk.test).set (RING.LTEST.MODE 0) (2), 0, by decide +kernel, by decide +kernel, by decide +kernel⟩,
    ⟨((up.set (STK.LINKSTAT.STATE 0) Lk.test).set (STK.LTEST.MODE 0) 2).set (STK.LTEST.MODE 0) (2), 0, by decide +kernel, by decide +kernel, by decide +kernel⟩,
    ⟨up.set (RING.LINKSTAT.STATE 0) Lk.inRing, 0, by decide +kernel, by decide +kernel, by decide +kernel⟩,
    ⟨up.set (RING.LINKSTAT.STATE 0) Lk.test, 0, by decide +kernel, by decide +kernel⟩,
    ⟨up.setLevel Dom.ring 0, 0, false, by decide +kernel⟩⟩

theorem witness_FrameAndCellCommands :
    (∃ (s : State) (f : RxFrame), (s.domOn Dom.ring = true) ∧ (s.linkUp (linkOf f.line f.fore) = true)) ∧
    (∃ (s : State) (f : RxFrame), (s.linkUp (linkOf f.line f.fore) = false) ∧ (s.launches = false)) ∧
    (∃ (s : State) (l : Layout) (tseq : Nat), (s.layout? = some l) ∧ (s.domOn Dom.ring = true)) ∧
    (∃ (s : State), (s.flag RING.LINE_STAT.DEGRADED_A = true) ∧ (48 ≤ s.ring.okRunA)) ∧
    (∃ (s : State), (s.flag RING.LINE_STAT.DEGRADED_B = true) ∧ (48 ≤ s.ring.okRunB)) ∧
    (∃ (s : State), (48 ≤ s.red.equalRun)) ∧
    (∃ (s : State) (l : Layout) (ln : Line) (tseq : Nat), (s.layout? = some l) ∧ (s.ring.provisional.filter (fun e => e.2 == ln) = [])) ∧
    (∃ (s : State) (kind : Nat) (pos : Nat) (sub : Nat) (frag : Nat) (id : Nat) (last : Bool) (pay : List Nat), (s.encRequired kind = false) ∧ kind ≠ Kind.layout ∧ kind ≠ Kind.inaug) ∧
    (∃ (s : State) (c : Bytes), (s.domOn Dom.ring = true) ∧ (s.hasMembers = false) ∧ c.le 252 4 ≠ crc32c (c.slice 0 252)) ∧
    (∃ (s : State) (pos : Nat) (sub : Nat) (id : Nat), (s.ring.partials.any (fun p => p.srcPos == pos && p.srcSub == sub && p.msgId == id) = true)) ∧
    (∃ (s : State) (pos : Nat) (sub : Nat) (id : Nat), (s.ring.partials.any (fun p => p.srcPos == pos && p.srcSub == sub && p.msgId == id) = false)) :=
  ⟨⟨up.set (RING.LINKSTAT.STATE 0) Lk.inRing, frame0, by decide +kernel, by decide +kernel⟩,
    ⟨up, frame0, by decide +kernel, by decide +kernel⟩,
    ⟨ringUp, lay, 0, by decide +kernel, by decide +kernel⟩,
    ⟨(fun s : State => { s with ring := { s.ring with okRunA := 48 } }) (up.setFlag RING.LINE_STAT.DEGRADED_A true), by decide +kernel, by decide +kernel⟩,
    ⟨(fun s : State => { s with ring := { s.ring with okRunB := 48 } }) (up.setFlag RING.LINE_STAT.DEGRADED_B true), by decide +kernel, by decide +kernel⟩,
    ⟨(fun s : State => { s with red := { s.red with equalRun := 48 } }) up, by decide +kernel⟩,
    ⟨ringUp, lay, .a, 0, by decide +kernel, by decide +kernel⟩,
    ⟨up, 0, 0, 0, 0, 0, false, [], by decide +kernel, by decide +kernel, by decide +kernel⟩,
    ⟨up, [(0, 1)], by decide +kernel, by decide +kernel, by decide +kernel⟩,
    ⟨{ up with ring := { up.ring with partials := [⟨0, 0, 0, 0, [], none, 0⟩] } }, 0, 0, 0, by decide +kernel⟩,
    ⟨up, 0, 0, 0, by decide +kernel⟩⟩

theorem witness_InaugurationSteps :
    (∃ (s : State), (s.isMaster = true) ∧ (s.phase = Phase.settle) ∧ (s.decikRuns = true) ∧ (s.inaug.lossWait = false)) ∧
    (∃ (s : State), (s.launches = true) ∧ (s.phase = Phase.count) ∧ (s.inaug.agreedA = 0) ∧ (s.inaug.agreedB = 0)) ∧
    (∃ (s : State), (s.launches = true) ∧ (s.phase = Phase.count) ∧ s.inaug.agreedA ≠ 0) ∧
    (∃ (s : State), (s.launches = true) ∧ (s.phase = Phase.acquire)) ∧
    (∃ (s : State), (s.launches = true) ∧ (s.phase = Phase.claim) ∧ (s.inaug.slots = [])) ∧
    (∃ (s : State), (s.launches = true) ∧ (s.phase = Phase.compute)) ∧
    (∃ (s : State) (p : LayoutPlan), (s.launches = false) ∧ (s.isMaster = false)) ∧
    (∃ (s : State) (p : LayoutPlan), (s.launches = true) ∧ (s.phase = Phase.compute)) ∧
    (∃ (s : State) (l : Layout) (k : Nat) (c : List Nat), (s.phase = Phase.distribute) ∧ (s.inaug.image = some l) ∧ ((chunks 212 256 (l.image.slice 0 4096))[k]? = some c)) ∧
    (∃ (s : State), (s.launches = true) ∧ (s.phase = Phase.distribute)) ∧
    (∃ (s : State), (s.launches = false)) :=
  ⟨⟨(fun s : State => { s with inaug := { s.inaug with lossWait := false } }) ((up.set RING.ENG_STAT.ROLE 2).set RING.INAUG_STAT.PHASE Phase.settle), by decide +kernel, by decide +kernel, by decide +kernel, by decide +kernel⟩,
    ⟨(fun s : State => { s with inaug := { s.inaug with agreedB := 0 } }) ((fun s : State => { s with inaug := { s.inaug with agreedA := 0 } }) ((up.set RING.ENG_STAT.ROLE 2).set RING.INAUG_STAT.PHASE Phase.count)), by decide +kernel, by decide +kernel, by decide +kernel, by decide +kernel⟩,
    ⟨(fun s : State => { s with inaug := { s.inaug with agreedA := 1 } }) ((up.set RING.ENG_STAT.ROLE 2).set RING.INAUG_STAT.PHASE Phase.count), by decide +kernel, by decide +kernel, by decide +kernel⟩,
    ⟨(up.set RING.ENG_STAT.ROLE 2).set RING.INAUG_STAT.PHASE Phase.acquire, by decide +kernel, by decide +kernel⟩,
    ⟨(fun s : State => { s with inaug := { s.inaug with slots := [] } }) ((up.set RING.ENG_STAT.ROLE 2).set RING.INAUG_STAT.PHASE Phase.claim), by decide +kernel, by decide +kernel, by decide +kernel⟩,
    ⟨(up.set RING.ENG_STAT.ROLE 2).set RING.INAUG_STAT.PHASE Phase.compute, by decide +kernel, by decide +kernel⟩,
    ⟨up, plan, by decide +kernel, by decide +kernel⟩,
    ⟨(up.set RING.ENG_STAT.ROLE 2).set RING.INAUG_STAT.PHASE Phase.compute, plan, by decide +kernel, by decide +kernel⟩,
    ⟨inaug (up.set RING.INAUG_STAT.PHASE Phase.distribute) (fun x => { x with image := some lay }), lay, 0, (lay.image.slice 0 4096).take 212, by decide +kernel, by decide +kernel, first_chunk _ (by rw [slice_length]; decide)⟩,
    ⟨(up.set RING.ENG_STAT.ROLE 2).set RING.INAUG_STAT.PHASE Phase.distribute, by decide +kernel, by decide +kernel⟩,
    ⟨up, by decide +kernel⟩⟩

theorem witness_TopologyChanges :
    (∃ (s : State), (s.inaug.announced = true)) ∧
    (∃ (s : State), (s.flag RING.INAUG_STAT.SW_PEND = false) ∧ (s.inaug.announced = false)) ∧
    (∃ (s : State), (s.inaug.shrink.isSome = true)) ∧
    (∃ (s : State), (s.inaug.trigger = false)) ∧
    (∃ (s : State), (s.inaug.trigger = true)) ∧
    (∃ (s : State), (s.dring.saveDue = true)) ∧
    (∃ (s : State), (s.dring.saveDue = false)) ∧
    (∃ (s : State), (s.inaug.adopted = true)) ∧
    (∃ (s : State) (k : Fin 16), (s.reaches RING.INAUG_CFG.off = true)) ∧
    (∃ (s : State), (s.mayForm = false)) ∧
    (∃ (s : State), (s.mayForm = true) ∧ (s.inaug.formingWait = true)) :=
  ⟨⟨(fun s : State => { s with inaug := { s.inaug with announced := true } }) up, by decide +kernel⟩,
    ⟨(fun s : State => { s with inaug := { s.inaug with announced := false } }) (up.setFlag RING.INAUG_STAT.SW_PEND false), by decide +kernel, by decide +kernel⟩,
    ⟨inaug up (fun x => { x with shrink := some ⟨0, 0, 0⟩ }), by decide +kernel⟩,
    ⟨(fun s : State => { s with inaug := { s.inaug with trigger := false } }) up, by decide +kernel⟩,
    ⟨(fun s : State => { s with inaug := { s.inaug with trigger := true } }) up, by decide +kernel⟩,
    ⟨(fun s : State => { s with dring := { s.dring with saveDue := true } }) up, by decide +kernel⟩,
    ⟨(fun s : State => { s with dring := { s.dring with saveDue := false } }) up, by decide +kernel⟩,
    ⟨(fun s : State => { s with inaug := { s.inaug with adopted := true } }) up, by decide +kernel⟩,
    ⟨up, 0, by decide +kernel⟩,
    ⟨up, by decide +kernel⟩,
    ⟨inaug ((up.set RING.INAUG_CFG.RANK 5).set GLB.BOOT_STAT.STATE 7) (fun x => { x with noFrame := 8, formingWait := true }), by decide +kernel, by decide +kernel⟩⟩

theorem witness_MergeSteps :
    (∃ (s : State) (m : LinkIx) (b : Bytes) (a : Nat), s.linkState m ≠ Lk.qualified) ∧
    (∃ (s : State) (m : LinkIx) (b : Bytes) (a : Nat), (s.linkState m = Lk.qualified) ∧ (b.ftype = 3) ∧ (b.hdrOk = false)) ∧
    (∃ (s : State) (m : LinkIx) (b : Bytes) (a : Nat), (s.linkState m = Lk.qualified) ∧ (b.ftype = 3) ∧ (b.hdrOk = true)) ∧
    (∃ (s : State) (lead : Nat), (s.inaug.merge.phase = .b) ∧ (s.inaug.merge.winner = true) ∧ (96 ≤ s.inaug.merge.samples) ∧ (s.phase = Phase.idle)) ∧
    (∃ (s : State), (s.inaug.merge.muted = true) ∧ (s.inaug.merge.phase = .e)) ∧
    (∃ (s : State), (s.inaug.merge.muted = false)) ∧
    (∃ (s : State) (m : LinkIx) (r : PartnerRec), (s.linkState m = Lk.qualified) ∧ (s.inaug.partners.find? (fun e => e.1 == m.val) = some (m.val, r)) ∧ (r.tagOk = false)) ∧
    (∃ (s : State), s.inaug.merge.phase ≠ .idle) ∧
    (∃ (s : State), (s.inaug.merge.retryWait = false)) ∧
    (∃ (s : State) (r : PartnerRec), (s.inaug.merge.retryWait = true) ∧ (s.inaug.partners.find? (fun e => e.1 == s.inaug.merge.link) = some (s.inaug.merge.link, r)) ∧ (r.hsState = Hs.running)) ∧
    (∃ (s : State), (s.stepWaits = true)) ∧
    (∃ (s : State), (s.stepWaits = false)) :=
  ⟨⟨up, 0, [], 0, by decide +kernel⟩,
    ⟨up.set (RING.LINKSTAT.STATE 0) Lk.qualified, 0, [(0, 3)], 0, by decide +kernel, by decide +kernel, by decide +kernel⟩,
    ⟨up.set (RING.LINKSTAT.STATE 0) Lk.qualified, 0, [(0, 3), (6208, 97), (6209, 218), (6210, 219), (6211, 159)], 0, by decide +kernel, by decide +kernel, by decide +kernel⟩,
    ⟨((fun s : State => { s with inaug := { s.inaug with merge := { s.inaug.merge with samples := 96 } } }) ((fun s : State => { s with inaug := { s.inaug with merge := { s.inaug.merge with winner := true } } }) ((fun s : State => { s with inaug := { s.inaug with merge := { s.inaug.merge with phase := .b } } }) up))).set RING.INAUG_STAT.PHASE Phase.idle, 0, by decide +kernel, by decide +kernel, by decide +kernel, by decide +kernel⟩,
    ⟨(fun s : State => { s with inaug := { s.inaug with merge := { s.inaug.merge with phase := .e } } }) ((fun s : State => { s with inaug := { s.inaug with merge := { s.inaug.merge with muted := true } } }) up), by decide +kernel, by decide +kernel⟩,
    ⟨(fun s : State => { s with inaug := { s.inaug with merge := { s.inaug.merge with muted := false } } }) up, by decide +kernel⟩,
    ⟨inaug (up.set (RING.LINKSTAT.STATE 0) Lk.qualified) (fun x => { x with partners := [(0, { partner with tagOk := false })] }), 0, { partner with tagOk := false }, by decide +kernel, by decide +kernel, by decide +kernel⟩,
    ⟨(fun s : State => { s with inaug := { s.inaug with merge := { s.inaug.merge with phase := .b } } }) up, by decide +kernel⟩,
    ⟨(fun s : State => { s with inaug := { s.inaug with merge := { s.inaug.merge with retryWait := false } } }) up, by decide +kernel⟩,
    ⟨inaug up (fun x => { x with partners := [(0, partner)], merge := { x.merge with link := 0, retryWait := true } }), partner, by decide +kernel, by decide +kernel, by decide +kernel⟩,
    ⟨inaug up (fun x => { x with merge := { x.merge with phase := .e, winner := false, mergeTick := 5, muted := false } }), by decide +kernel⟩,
    ⟨up, by decide +kernel⟩⟩

theorem witness_FaultTolerantAverage :
    (∃ (part : List (Nat × Int)) (lo : Int) (hi : Int), part ≠ [] ∧ ((part.filter (fun e => !(decide (lo ≤ e.2) && decide (e.2 ≤ hi)))).length ≤ discardCount part.length)) :=
  ⟨[(0, -1000), (1, 0), (2, 7), (3, 900)], 0, 900, by decide +kernel, by decide +kernel⟩

theorem witness_SyncRoundsAndLock :
    (∃ (s : State), (s.clk.roundVoid = true)) ∧
    (∃ (s : State), (s.get STK.STAT.ROLE = 1) ∧ (s.flag STK.STAT.TIME_LOCK = true)) ∧
    (∃ (s : State), (s.clk.roundVoid = false) ∧ s.get STK.STAT.ROLE ≠ 1 ∧ s.roundEntries ≠ []) ∧
    (∃ (s : State), (s.clk.roundVoid = false) ∧ s.get STK.STAT.ROLE ≠ 1 ∧ (s.roundEntries = [])) ∧
    (∃ (s : State) (d : Int), (s.clk.stepDue = some d) ∧ (s.syncState = 1)) ∧
    (∃ (s : State), (s.clk.stepDue = none)) ∧
    (∃ (s : State), (s.syncState = 1) ∧ (48 ≤ s.get SYNC.STAT.LOCK_CNT)) ∧
    (∃ (s : State), s.get SYNC.STAT.LOCK_CNT < 48) ∧
    (∃ (s : State), (s.clk.cfg.holdRounds ≤ s.clk.noEntryRounds) ∧ (s.inSync = true)) ∧
    (∃ (s : State), s.clk.noEntryRounds < s.clk.cfg.holdRounds) ∧
    (∃ (s : State), (s.domOn Dom.ring = true)) :=
  ⟨⟨(fun s : State => { s with clk := { s.clk with roundVoid := true } }) up, by decide +kernel⟩,
    ⟨(up.set STK.STAT.ROLE (1)).setFlag STK.STAT.TIME_LOCK true, by decide +kernel, by decide +kernel⟩,
    ⟨{ up with clk := { up.clk with entries := [⟨24, 24⟩] } }, by decide +kernel, by decide +kernel, by decide +kernel⟩,
    ⟨((fun s : State => { s with clk := { s.clk with roundVoid := false } }) up).set STK.STAT.ROLE ((if 1 = 0 then 1 else 0)), by decide +kernel, by decide +kernel, by decide +kernel⟩,
    ⟨((fun s : State => { s with clk := { s.clk with stepDue := some 0 } }) up).set SYNC.STAT.STATE 1, 0, by decide +kernel, by decide +kernel⟩,
    ⟨(fun s : State => { s with clk := { s.clk with stepDue := none } }) up, by decide +kernel⟩,
    ⟨(up.set SYNC.STAT.STATE 1).set SYNC.STAT.LOCK_CNT 48, by decide +kernel, by decide +kernel⟩,
    ⟨up, by decide +kernel⟩,
    ⟨{ up.set SYNC.STAT.STATE 2 with clk := { up.clk with noEntryRounds := 64 } }, by decide +kernel, by decide +kernel⟩,
    ⟨up, by decide +kernel⟩,
    ⟨up, by decide +kernel⟩⟩

theorem witness_RedundancyTakeovers :
    (∃ (s : State), (s.flag RED.STAT.RING_HB = true) ∧ (s.flag RED.STAT.CAN_HB = true)) ∧
    (∃ (s : State), (s.flag RED.STAT.RING_HB = true) ∧ (s.flag RED.STAT.CAN_HB = false)) ∧
    (∃ (s : State), (s.flag RED.STAT.RING_HB = false)) ∧
    (∃ (s : State), (s.flag RED.STAT.CAN_HB = true) ∧ (s.flag RED.STAT.RING_HB = true)) ∧
    (∃ (s : State), (s.flag RED.STAT.CAN_HB = true) ∧ (s.flag RED.STAT.RING_HB = false)) ∧
    (∃ (s : State), (s.flag RED.STAT.CAN_HB = false)) ∧
    (∃ (s : State) (us10 : Nat), (s.red.failed = true) ∧ (s.net.agreed = none) ∧ (s.get RED.STAT.MROLE = 2)) ∧
    (∃ (s : State) (us10 : Nat) (l : Layout), (s.red.failed = true) ∧ (s.net.agreed = none) ∧ (s.isMaster = false) ∧ (s.ring.layout = some l) ∧ (s.get RED.STAT.MROLE = 3)) ∧
    (∃ (s : State) (us10 : Nat), (s.red.failed = false)) :=
  ⟨⟨(up.setFlag RED.STAT.RING_HB true).setFlag RED.STAT.CAN_HB true, by decide +kernel, by decide +kernel⟩,
    ⟨(up.setFlag RED.STAT.RING_HB true).setFlag RED.STAT.CAN_HB false, by decide +kernel, by decide +kernel⟩,
    ⟨up.setFlag RED.STAT.RING_HB false, by decide +kernel⟩,
    ⟨(up.setFlag RED.STAT.CAN_HB true).setFlag RED.STAT.RING_HB true, by decide +kernel, by decide +kernel⟩,
    ⟨(up.setFlag RED.STAT.CAN_HB true).setFlag RED.STAT.RING_HB false, by decide +kernel, by decide +kernel⟩,
    ⟨up.setFlag RED.STAT.CAN_HB false, by decide +kernel⟩,
    ⟨((fun s : State => { s with net := { s.net with agreed := none } }) ((fun s : State => { s with red := { s.red with failed := true } }) up)).set RED.STAT.MROLE (2), 0, by decide +kernel, by decide +kernel, by decide +kernel⟩,
    ⟨{ (up.set RED.STAT.MROLE 3) with red := { up.red with failed := true }, ring := { up.ring with layout := some lay } }, 0, lay, by decide +kernel, by decide +kernel, by decide +kernel, by decide +kernel, by decide +kernel⟩,
    ⟨(fun s : State => { s with red := { s.red with failed := false } }) up, 0, by decide +kernel⟩⟩

theorem witness_TwinEvents :
    (∃ (s : State) (r : TwinRecord), (r.good = false)) ∧
    (∃ (s : State) (r : TwinRecord), (s.twinOn = true) ∧ (s.flag RED.TWIN_STAT.PAIR1_UP = true) ∧ (r.good = true) ∧ s.twinState ≠ 2 ∧ (s.red.checks.find? (fun c => c.1 == r.tick) = none)) ∧
    (∃ (s : State) (r : TwinRecord) (k : Nat), (s.twinOn = true) ∧ (s.flag RED.TWIN_STAT.PAIR1_UP = true) ∧ (r.good = true) ∧ s.twinState ≠ 2 ∧ (s.red.checks.find? (fun c => c.1 == r.tick) = some (k, r.regionCheck))) ∧
    (∃ (s : State) (u : State) (v : State) (t : State), (s.twinOn = true) ∧ s.twinState ≠ 3 ∧ s.twinState ≠ 0 ∧ (u = (((s.setFlag RED.TWIN_STAT.MIRROR false).setFlag RED.TWIN_STAT.RECORD_OK false).set RED.STAT.TWIN 3).evt RED.EVT.TWIN_LOSS 1 Src.STACK_EVENT) ∧ (v = u.post Evt.TWIN_LOSS 0 (leBytes 8 (u.get64 RED.TWIN_PART_LO.UID RED.TWIN_PART_HI.UID))) ∧ (t = State.driveOutActive { v with red := { v.red with twinWrites := true } })) ∧
    (∃ (s : State) (lost : Bool), (s.twinState = 3)) ∧
    (∃ (s : State), (s.twinOn = true)) ∧
    (∃ (s : State) (t : State), (s.twinOn = true) ∧ (t = ((s.post Evt.TWIN_LINK_DEGRADED 1 []).setFlag RED.TWIN_STAT.PAIR1_UP false).setFlag RED.TWIN_STAT.RECORD_OK false)) ∧
    (∃ (s : State) (lost : Bool) (p : Fin 2), (s.twinOn = false)) :=
  ⟨⟨up, { twin0 with good := false }, by decide +kernel⟩,
    ⟨((up.setFlag RED.TWIN_CFG.EN true).setFlag RED.TWIN_STAT.PAIR1_UP true).set RED.STAT.TWIN 1, twin0, by decide +kernel, by decide +kernel, by decide +kernel, by decide +kernel, by decide +kernel⟩,
    ⟨{ ((up.setFlag RED.TWIN_CFG.EN true).setFlag RED.TWIN_STAT.PAIR1_UP true).set RED.STAT.TWIN 1 with red := { up.red with checks := [(5, 9)] } }, twin0, 5, by decide +kernel, by decide +kernel, by decide +kernel, by decide +kernel, by decide +kernel⟩,
    ⟨(up.setFlag RED.TWIN_CFG.EN true).set RED.STAT.TWIN 1, _, _, _, by decide +kernel, by decide +kernel, by decide +kernel, rfl, rfl, rfl⟩,
    ⟨up.set RED.STAT.TWIN 3, false, by decide +kernel⟩,
    ⟨up.setFlag RED.TWIN_CFG.EN true, by decide +kernel⟩,
    ⟨up.setFlag RED.TWIN_CFG.EN true, _, by decide +kernel, rfl⟩,
    ⟨up, false, 0, by decide +kernel⟩⟩

theorem witness_TickAndCabSwitch :
    (∃ (s : State) (t : TickIn), (s.isOff = true)) ∧
    (∃ (s : State) (t : TickIn), (s.isOff = false)) ∧
    (∃ (s : State) (on : Bool), (s.pins.cabActive = on)) ∧
    (∃ (s : State) (on : Bool), s.pins.cabActive ≠ on ∧ ((s.cabLevel on).decikRuns = true) ∧ (s.cabLevel on).position ≠ 0 ∧ ((s.cabLevel on).phase = Phase.idle)) ∧
    (∃ (s : State) (on : Bool), s.pins.cabActive ≠ on ∧ ((s.cabLevel on).decikRuns = true) ∧ (s.cabLevel on).position ≠ 0 ∧ (s.cabLevel on).phase ≠ Phase.idle) :=
  ⟨⟨(fun s : State => { s with pwr := { s.pwr with resetWait := Wait.vao } }) up, tick0, by decide +kernel⟩,
    ⟨up, tick0, by decide +kernel⟩,
    ⟨(fun s : State => { s with pins := { s.pins with cabActive := false } }) up, false, by decide +kernel⟩,
    ⟨(up.set RING.ENG_STAT.POSITION 1).set RING.INAUG_STAT.PHASE Phase.idle, true, by decide +kernel, by decide +kernel, by decide +kernel, by decide +kernel⟩,
    ⟨(up.set RING.ENG_STAT.POSITION 1).set RING.INAUG_STAT.PHASE Phase.settle, true, by decide +kernel, by decide +kernel, by decide +kernel, by decide +kernel⟩⟩

theorem witness_TdmHostAndTimedAudio :
    (∃ (s : State) (n : Fin 8), (s.reaches (AUD.TDM_CFG.off n) = true) ∧ (s.flag (AUD.TDM_CFG.EN n) = false)) ∧
    (∃ (s : State) (n : Fin 8), (s.reaches (AUD.TDM_CFG.off n) = true) ∧ (s.flag (AUD.TDM_CFG.EN n) = true)) ∧
    (∃ (s : State) (n : Fin 8), (s.flag (AUD.TDM_CFG.EN n) = true) ∧ ((s.aud.port n.val).startIn = some 0) ∧ (s.flag SYNC.MCLK_STAT.PLL_LOCK = true)) ∧
    (∃ (s : State) (n : Fin 8), (s.flag (AUD.TDM_CFG.EN n) = false)) ∧
    (∃ (s : State) (n : Fin 8), (s.reaches (AUD.TDM_CFG.off n) = true) ∧ (s.flag (AUD.TDM_CFG.EN n) = false)) ∧
    (∃ (s : State) (t : State) (n : Fin 8), (s.reaches (AUD.TDM_CFG.off n) = true) ∧ (s.flag (AUD.TDM_CFG.EN n) = true) ∧ (t = s.uncaptured.setFlag (AUD.TDM_CFG.EN n) false)) ∧
    (∃ (s : State) (ws : List Nat) (p : Nat), (s.aud.hdmaRead = false)) ∧
    (∃ (s : State) (ws : List Nat) (p : Nat), (s.aud.hdmaRead = true) ∧ (p ≤ 18000)) ∧
    (∃ (s : State) (t : State) (u : State) (ws : List Nat) (p : Nat), (s.aud.hdmaRead = true) ∧ 18000 < p ∧ (t = { s with aud := { s.aud with hdmaRead := false } }) ∧ (u = (t.count AUD.HDMA_CNT.LATE 1).evt AUD.PORT_EVT.HDMA_LATE 1 Src.AUD_PORT_ERR)) ∧
    (∃ (s : State) (t : State) (due : List Timed), (s.takeDue (fun x => x.opcode != 0x0202 && x.opcode != 0x0204) = (due, t))) :=
  ⟨⟨up.setFlag (AUD.TDM_CFG.EN 0) false, 0, by decide +kernel, by decide +kernel⟩,
    ⟨up.setFlag (AUD.TDM_CFG.EN 0) true, 0, by decide +kernel, by decide +kernel⟩,
    ⟨{ (up.setFlag (AUD.TDM_CFG.EN 0) true).setFlag SYNC.MCLK_STAT.PLL_LOCK true with aud := { up.aud with tdm := up.aud.tdm.set 0 ⟨some 0, false, 0, 0⟩ } }, 0, by decide +kernel, by decide +kernel, by decide +kernel⟩,
    ⟨up.setFlag (AUD.TDM_CFG.EN 0) false, 0, by decide +kernel⟩,
    ⟨up.setFlag (AUD.TDM_CFG.EN 0) false, 0, by decide +kernel, by decide +kernel⟩,
    ⟨up.setFlag (AUD.TDM_CFG.EN 0) true, _, 0, by decide +kernel, by decide +kernel, rfl⟩,
    ⟨(fun s : State => { s with aud := { s.aud with hdmaRead := false } }) up, [], 0, by decide +kernel⟩,
    ⟨(fun s : State => { s with aud := { s.aud with hdmaRead := true } }) up, [], 0, by decide +kernel, by decide +kernel⟩,
    ⟨(fun s : State => { s with aud := { s.aud with hdmaRead := true } }) up, _, _, [], 18001, by decide +kernel, by decide +kernel, rfl, rfl⟩,
    ⟨up, up, [], by decide +kernel⟩⟩

theorem witness_EchoHowlingAndNoise :
    (∃ (s : State) (t : State) (e : Fin 8), (s.flag (AUD.AEC_STAT.RUN e) = true) ∧ (t = ((((s.evtBit AUD.AEC_EVT.DIVERGE e.val Src.AUD_AEC_DIVERGE).evtBit AUD.AEC_EVT.RESET e.val Src.AUD_AEC_DIVERGE).count (AUD.AEC_CNT.RESETS e) 1).setFlag (AUD.AEC_STAT.CONVERGED e) false).set (AUD.AEC_STAT.ERLE e) 0)) ∧
    (∃ (s : State) (e : Fin 8), (s.flag (AUD.AEC_STAT.RUN e) = false)) ∧
    (∃ (s : State) (m : Fin 16) (f : Nat) (x : FbSt), (s.vox.fbOf m.val = x) ∧ (x.enabled = true) ∧ x.notches ≠ [] ∧ x.notches.length < 8) ∧
    (∃ (s : State) (m : Fin 16) (f : Nat) (x : FbSt), (s.vox.fbOf m.val = x) ∧ (x.enabled = true) ∧ (8 ≤ x.notches.length)) ∧
    (∃ (s : State) (m : Fin 16) (f : Nat), ((s.vox.fbOf m.val).enabled = false)) ∧
    (∃ (s : State) (m : Fin 16) (f : Nat) (d : Nat) (x : FbSt), (s.vox.fbOf m.val = x) ∧ (x.notches = [⟨f, d⟩]) ∧ d < 18) ∧
    (∃ (s : State) (m : Fin 16) (f : Nat), ((s.vox.fbOf m.val).notches = [])) ∧
    (∃ (s : State) (m : Fin 16) (f : Nat) (x : FbSt), (s.vox.fbOf m.val = x) ∧ (x.notches = [⟨f, 3⟩])) ∧
    (∃ (s : State) (m : Fin 16) (f : Nat) (x : FbSt), (s.vox.fbOf m.val = x) ∧ (x.notches = [⟨f, 18⟩])) ∧
    (∃ (s : State) (i : Fin 8), ((s.callWait i.val).can.claims = [])) ∧
    (∃ (s : State) (i : Fin 8), (s.callState i.val = CallState.wait)) ∧
    (∃ (s : State) (i : Fin 8), s.callState i.val ≠ CallState.wait) ∧
    (∃ (s : State) (t : State) (i : Fin 8) (c : CallSt) (r : Nat), (s.vox.call i.val = some c) ∧ (s.callState i.val = CallState.can) ∧ (t = (((s.callTo i.val CallState.ring).evtBit AUD.CALL_EVT.FB i.val Src.AUD_CALL).setFlag (AUD.CALL_STAT.FLOOR i) false).feedEncoder c (s.get (AUD.CALL_STAT.CAN_CH i)) false) ∧ (t.aud.ringInputOf c.far = some r)) ∧
    (∃ (s : State) (i : Fin 8), (s.vox.call i.val = none)) ∧
    (∃ (s : State) (z : Fin 16) (l : Option Nat) (x : NfSt), (s.vox.nf[z.val]? = some x) ∧ (x.enabled = false)) ∧
    (∃ (s : State) (z : Fin 16) (v : Nat) (x : NfSt), (s.vox.nf[z.val]? = some x) ∧ (x.enabled = true) ∧ (x.frames = [])) ∧
    (∃ (s : State) (t : State) (z : Fin 16) (x : NfSt), (s.vox.nf[z.val]? = some x) ∧ (x.enabled = true) ∧ (t = (s.setFlag (AUD.NF_GAIN.FALLBACK z) true).setFlag (AUD.NF_GAIN.HELD z) false)) :=
  ⟨⟨up.setFlag (AUD.AEC_STAT.RUN 0) true, _, 0, by decide +kernel, rfl⟩,
    ⟨up.setFlag (AUD.AEC_STAT.RUN 0) false, 0, by decide +kernel⟩,
    ⟨fbState [⟨100, 3⟩], 0, 0, ⟨true, [⟨100, 3⟩], none⟩, by decide +kernel, by decide +kernel, by decide +kernel, by decide +kernel⟩,
    ⟨fbState (List.replicate 8 ⟨100, 3⟩), 0, 0, ⟨true, List.replicate 8 ⟨100, 3⟩, none⟩, by decide +kernel, by decide +kernel, by decide +kernel⟩,
    ⟨up, 0, 0, by decide +kernel⟩,
    ⟨fbState [⟨0, 15⟩], 0, 0, 15, ⟨true, [⟨0, 15⟩], none⟩, by decide +kernel, by decide +kernel, by decide +kernel⟩,
    ⟨up, 0, 0, by decide +kernel⟩,
    ⟨fbState [⟨0, 3⟩], 0, 0, ⟨true, [⟨0, 3⟩], none⟩, by decide +kernel, by decide +kernel⟩,
    ⟨fbState [⟨0, 18⟩], 0, 0, ⟨true, [⟨0, 18⟩], none⟩, by decide +kernel, by decide +kernel⟩,
    ⟨up, 0, by decide +kernel⟩,
    ⟨up.set (AUD.CALL_STAT.STATE 0) CallState.wait, 0, by decide +kernel⟩,
    ⟨up, 0, by decide +kernel⟩,
    ⟨{ callUp.set (AUD.CALL_STAT.STATE 0) CallState.can with aud := { up.aud with ringTable := [(0x340, 0)] } }, _, 0, call0, 0x340, by decide +kernel, by decide +kernel, rfl, by decide +kernel⟩,
    ⟨up, 0, by decide +kernel⟩,
    ⟨up, 0, none, ⟨false, [], 10, 60, 0, 0, [], false⟩, by decide +kernel, by decide +kernel⟩,
    ⟨nfState, 0, 0, ⟨true, [], 10, 60, 0, 0, [], false⟩, by decide +kernel, by decide +kernel, by decide +kernel⟩,
    ⟨nfState, _, 0, ⟨true, [], 10, 60, 0, 0, [], false⟩, by decide +kernel, by decide +kernel, rfl⟩⟩

theorem witness_PathMonitorClipsAndRecorder :
    (∃ (s : State) (z : Fin 16) (x : PmonSt), (s.vox.pmon[z.val]? = some x)) ∧
    (∃ (s : State) (z : Fin 16) (m : Fin 16) (d : Nat) (e : Nat) (x : PmonSt) (g : Int), (s.vox.pmon[z.val]? = some x) ∧ (x.commission = none) ∧ (s.vox.stipa = none) ∧ (s.cfg.image.pmonMics.contains (z.val, m.val) = true) ∧ (x.rel [(m.val, d, (e : Int))] = [(g, d)]) ∧ (g ≤ -100) ∧ (x.low = 4) ∧ (s.get (AUD.PMON_STAT.VERDICT z) = Verdict.ok)) ∧
    (∃ (s : State) (t : State) (z : Fin 16), (s.get (AUD.PMON_STAT.VERDICT z) = Verdict.ok ∨ s.get (AUD.PMON_STAT.VERDICT z) = Verdict.degraded) ∧ (t = s.verdictTo z.val Verdict.unknown)) ∧
    (∃ (s : State) (z : Fin 16), (s.get (AUD.PMON_STAT.VERDICT z) = Verdict.unknown)) ∧
    (∃ (s : State) (r : StipaSt) (sti : Nat) (sg : Nat) (no : Nat) (low : Bool) (ti : List Nat), (s.vox.stipa = some r) ∧ (s.get AUD.STIPA_STAT.STATE = Stipa.noise)) ∧
    (∃ (s : State) (t : State) (r : StipaSt) (sti : Nat) (sg : Nat) (no : Nat) (low : Bool) (ti : List Nat), (s.vox.stipa = some r) ∧ (s.get AUD.STIPA_STAT.STATE = Stipa.signal) ∧ (t = ((s.set AUD.STIPA_RESULT.STI (min sti 100)).setFlag AUD.STIPA_RESULT.LOW_SNR low).set AUD.STIPA_STAT.STATE Stipa.done)) ∧
    (∃ (s : State) (r : StipaSt) (sti : Nat) (sg : Nat) (no : Nat) (low : Bool) (i : Bool) (ti : List Nat), (s.vox.stipa = some r)) ∧
    (∃ (s : State) (id : Nat), (s.vox.clips.any (fun c => c.id == id && c.deleting && !s.vox.inUse c.id c.version) = true)) ∧
    (∃ (s : State) (id : Nat), (s.vox.clips = [])) ∧
    (∃ (s : State) (t : State) (v : Fin 32) (x : Voice), (s.vox.voice v.val = some x) ∧ (x.playing = false) ∧ (t = State.set { s with vox := { s.vox with voices := s.vox.voices.map (fun (y : Voice) => if y.ix == v.val then { y with playing := true } else y) } } (AUD.PLAY_START.TSEQ v) (x.start % 2 ^ 32))) ∧
    (∃ (s : State) (v : Fin 32), (s.vox.voice v.val = none)) ∧
    (∃ (s : State) (v : Fin 32) (x : Voice) (f : Bool), (s.vox.voice v.val = some x)) ∧
    (∃ (s : State) (ch : Fin 16) (tick : Nat) (a : Nat) (b : Nat) (c : Nat) (d : List Nat), (s.recActive ch.val = false)) ∧
    (∃ (s : State) (ch : Fin 16) (tick : Nat) (u : Nat) (d : List Nat), (s.recActive ch.val = true) ∧ (s.flag SEC.STAT.TAMPER = false) ∧ (s.flag AUD.REC_STAT.ENC = false) ∧ (s.recNext = some u)) :=
  ⟨⟨up, 0, ⟨[], 0, 0, none, 0⟩, by decide +kernel⟩,
    ⟨pmonUp, 0, 0, 0, 0, ⟨[(0, 0, 100)], 4, 0, none, 0⟩, -100, by decide +kernel, by decide +kernel, by decide +kernel, by decide +kernel, by decide +kernel, by decide +kernel, by decide +kernel, by decide +kernel⟩,
    ⟨up.set (AUD.PMON_STAT.VERDICT 0) Verdict.ok, _, 0, by decide +kernel, rfl⟩,
    ⟨up.set (AUD.PMON_STAT.VERDICT 0) (Verdict.unknown), 0, by decide +kernel⟩,
    ⟨stipaUp.set AUD.STIPA_STAT.STATE Stipa.noise, ⟨0, 0, none, (0, 0), 15, 0, 0⟩, 0, 0, 0, false, [], by decide +kernel, by decide +kernel⟩,
    ⟨stipaUp.set AUD.STIPA_STAT.STATE Stipa.signal, _, ⟨0, 0, none, (0, 0), 15, 0, 0⟩, 0, 0, 0, false, [], by decide +kernel, by decide +kernel, rfl⟩,
    ⟨stipaUp, ⟨0, 0, none, (0, 0), 15, 0, 0⟩, 0, 0, 0, false, false, [], by decide +kernel⟩,
    ⟨clipUp true, 7, by decide +kernel⟩,
    ⟨(fun s : State => { s with vox := { s.vox with clips := [] } }) up, 0, by decide +kernel⟩,
    ⟨voiceUp, _, 0, voice0, by decide +kernel, by decide +kernel, rfl⟩,
    ⟨up, 0, by decide +kernel⟩,
    ⟨voiceUp, 0, voice0, false, by decide +kernel⟩,
    ⟨up, 0, 0, 0, 0, 0, [], by decide +kernel⟩,
    ⟨recUp.setFlag AUD.REC_STAT.ENC false, 0, 0, 0, [], by decide +kernel, by decide +kernel, by decide +kernel, by decide +kernel⟩⟩

theorem witness_StoreCommands :
    (∃ (s : State) (m : Nat), (s.reaches STORE.INIT_CTRL.off = true)) ∧
    (∃ (s : State) (m : Nat), (s.reaches STORE.INIT_CTRL.off = false)) ∧
    (∃ (s : State) (b : Fin 16), (s.bank b.val = Bank.init) ∧ b ≠ 0) ∧
    (∃ (s : State), (s.bank 0 = Bank.init)) ∧
    (∃ (s : State) (b : Fin 16), s.bank b.val ≠ Bank.init) ∧
    (∃ (s : State) (t : State) (off : Nat) (i : Nat) (syn : Nat), off < 2 ^ 32 ∧ i ≠ 0 ∧ (s.bankUsable (bankOf off) = true) ∧ (t = ((((s.count (if channelOf off = 0 then STORE.CE_CNT.CH0 else STORE.CE_CNT.CH1) 1).set STORE.CE_LAST.ADDR (off / 8 * 8)).set STORE.CE_INFO.INITIATOR i).set STORE.CE_INFO.SYNDROME syn))) ∧
    (∃ (s : State) (off : Nat) (i : Nat) (syn : Nat) (l : List Nat), (s.bank (bankOf (off % 2 ^ 32)) = Bank.down) ∧ (s.bankUsable (bankOf (off % 2 ^ 32)) = false)) ∧
    (∃ (s : State) (off : Nat), off < 2 ^ 32) ∧
    (∃ (s : State) (t : State) (u : State) (off : Nat), off < 2 ^ 32 ∧ (s.bankUsable (bankOf off) = true) ∧ (s.decikRuns = false) ∧ (t = { s with mem := { s.mem with poisoned := s.mem.poisoned.filter (· != off / 64) ++ [off / 64] } }) ∧ (u = (((t.count STORE.UE_CNT.ACCESS 1).ueLog off 3).evt STORE.ERR_EVT.UE 1 Src.STORE_ECC_RETENTION).post Evt.STORE_UE (bankOf off) (leBytes 4 off ++ [3])) ∧ (u.decikRuns = false) ∧ (u.bank (bankOf off) = Bank.ready)) ∧
    (∃ (s : State) (t : State), ((∀ b : Nat, b < 16 → s.mem.scrubCe.getD b 0 ≤ s.get STORE.CFG.CE_THRESH)) ∧ (t = (s.set STORE.STAT.SCRUB_PCT 0).set STORE.SCRUB_ADDR.ADDR 0)) ∧
    (∃ (s : State) (d : Nat) (us : Nat), ((List.range 16).any (fun b => s.bank b == Bank.retained) = false)) ∧
    (∃ (s : State) (us : Nat), ((List.range 16).any (fun b => s.bank b == Bank.retained) = true) ∧ ((∀ b : Nat, b < 16 → s.bank b = Bank.retained → s.mem.canary.contains (b, s.get STORE.SLEEP_CNT.COUNT) = true))) ∧
    (∃ (s : State) (us : Nat) (b : Nat), ((List.range 16).any (fun b => s.bank b == Bank.retained) = true) ∧ ((∀ b : Nat, b < 16 → s.bank b = Bank.retained → s.mem.canary.contains (b, s.get STORE.SLEEP_CNT.COUNT) = true)) ∧ b < 16 ∧ s.bank b ≠ Bank.retained) ∧
    (∃ (s : State) (us : Nat) (b : Nat), ((List.range 16).any (fun b => s.bank b == Bank.retained) = true) ∧ ((∀ b : Nat, b < 16 → s.bank b = Bank.retained → s.mem.canary.contains (b, s.get STORE.SLEEP_CNT.COUNT) = true)) ∧ b < 16 ∧ (s.bank b = Bank.retained)) ∧
    (∃ (s : State) (b : Fin 16) (time : Nat), (s.bank b.val = Bank.checking)) ∧
    (∃ (s : State) (b : Fin 16) (crc : Nat) (time : Nat), (s.bank b.val = Bank.checking) ∧ crc ≠ s.get (STORE.EXT_CRC.CRC b)) ∧
    (∃ (s : State) (b : Fin 16), (s.bank b.val = Bank.provisional)) ∧
    (∃ (s : State) (b : Fin 16) (crc : Nat) (time : Nat), (s.bank b.val = Bank.ready)) ∧
    (∃ (s : State) (b : Fin 16), (s.bank b.val = Bank.ready)) :=
  ⟨⟨up, 0, by decide +kernel⟩,
    ⟨up.setLevel Dom.storeCtl 0, 0, by decide +kernel⟩,
    ⟨up.setBank 1 Bank.init, 1, by decide +kernel, by decide +kernel⟩,
    ⟨up.setBank 0 Bank.init, by decide +kernel⟩,
    ⟨up, 0, by decide +kernel⟩,
    ⟨up.setBank 0 Bank.ready, _, 0, 1, 0, by decide +kernel, by decide +kernel, by decide +kernel, rfl⟩,
    ⟨up.setBank (bankOf (0 % 2 ^ 32)) Bank.down, 0, 0, 0, [], by decide +kernel, by decide +kernel⟩,
    ⟨up, 0, by decide +kernel⟩,
    ⟨r0.setBank 0 Bank.ready, _, _, 0, by decide +kernel, by decide +kernel, by decide +kernel, rfl, rfl, by decide +kernel, by decide +kernel⟩,
    ⟨up, _, by decide +kernel, rfl⟩,
    ⟨up, 0, 0, by decide +kernel⟩,
    ⟨{ up.setBank 0 Bank.retained with mem := { up.mem with canary := [(0, 0)] } }, 0, by decide +kernel, by decide +kernel⟩,
    ⟨{ up.setBank 0 Bank.retained with mem := { up.mem with canary := [(0, 0)] } }, 0, 1, by decide +kernel, by decide +kernel, by decide +kernel, by decide +kernel⟩,
    ⟨{ up.setBank 0 Bank.retained with mem := { up.mem with canary := [(0, 0)] } }, 0, 0, by decide +kernel, by decide +kernel, by decide +kernel, by decide +kernel⟩,
    ⟨up.setBank 0 Bank.checking, 0, 0, by decide +kernel⟩,
    ⟨up.setBank 0 Bank.checking, 0, 1, 0, by decide +kernel, by decide +kernel⟩,
    ⟨up.setBank 0 Bank.provisional, 0, by decide +kernel⟩,
    ⟨up.setBank 0 Bank.ready, 0, 0, 0, by decide +kernel⟩,
    ⟨up.setBank 0 Bank.ready, 0, by decide +kernel⟩⟩

theorem witness_LocalWindowCommands :
    (∃ (s : State) (tag : Nat) (off : Nat) (len : Nat) (op : AtomicOp) (bs : List (Option Nat)), (s.flag BRG.LWIN_CTRL.EN = false)) ∧
    (∃ (s : State) (t : State) (tag : Nat) (off : Nat) (len : Nat) (bytes : List Nat), (s.flag BRG.LWIN_CTRL.EN = true) ∧ (s.cinchHolds (s.localOffset off) len = false) ∧ (s.storeRead (s.localOffset off) len = (bytes, false, t))) ∧
    (∃ (s : State) (t : State) (tag : Nat) (off : Nat) (len : Nat) (bytes : List Nat), (s.flag BRG.LWIN_CTRL.EN = true) ∧ (s.cinchHolds (s.localOffset off) len = false) ∧ (s.storeRead (s.localOffset off) len = (bytes, true, t))) ∧
    (∃ (s : State) (off : Nat) (x : Nat), (s.flag BRG.LWIN_CTRL.EN = true) ∧ (s.hostWritable (s.localOffset off) = false)) ∧
    (∃ (s : State) (off : Nat) (x : Nat), (s.flag BRG.LWIN_CTRL.EN = true) ∧ (s.hostWritable (s.localOffset off) = true) ∧ (s.cinchHolds (s.localOffset off) 1 = false) ∧ (s.bankUsable (bankOf (s.localOffset off)) = true)) ∧
    (∃ (s : State) (t : State) (tag : Nat) (op : AtomicOp) (bytes : List Nat), (s.flag BRG.LWIN_CTRL.EN = true) ∧ (op.width = 4 ∨ op.width = 8) ∧ ((∀ i : Nat, i < op.width → s.hostWritable (s.localOffset op.off + i) = true)) ∧ (s.cinchHolds (s.localOffset op.off) op.width = false) ∧ (s.storeRead (s.localOffset op.off) op.width = (bytes, false, t))) :=
  ⟨⟨up.setFlag BRG.LWIN_CTRL.EN false, 0, 0, 0, ⟨0, .swap, 4, 0, 0⟩, [], by decide +kernel⟩,
    ⟨window (up.setBank 0 Bank.ready), _, 0, 0, 1, ((window (up.setBank 0 Bank.ready)).storeRead 0 1).1, by decide +kernel, by decide +kernel, Prod.ext rfl (Prod.ext (by decide +kernel) rfl)⟩,
    ⟨window up, _, 0, 0, 1, ((window up).storeRead 0 1).1, by decide +kernel, by decide +kernel, Prod.ext rfl (Prod.ext (by decide +kernel) rfl)⟩,
    ⟨up.setFlag BRG.LWIN_CTRL.EN true, 0, 0, by decide +kernel, by decide +kernel⟩,
    ⟨window (host.setBank 0 Bank.ready), 0, 0, by decide +kernel, by decide +kernel, by decide +kernel, by decide +kernel⟩,
    ⟨window (host.setBank 0 Bank.ready), _, 0, ⟨0, .fetchAdd, 4, 0, 0⟩, ((window (host.setBank 0 Bank.ready)).storeRead 0 4).1, by decide +kernel, by decide +kernel, by decide +kernel, by decide +kernel, Prod.ext rfl (Prod.ext (by decide +kernel) rfl)⟩⟩

theorem witness_TrainWindowRequester :
    (∃ (s : State) (tag : Nat) (off : Nat) (len : Nat) (w : Fin 16) (op : AtomicOp) (bs : List Nat), (s.flag (BRG.TWIN_CFG.EN w) = false)) ∧
    (∃ (s : State) (tag : Nat) (off : Nat) (len : Nat) (w : Fin 16), (s.flag (BRG.TWIN_CFG.EN w) = true)) ∧
    (∃ (s : State) (off : Nat) (w : Fin 16) (bs : List Nat), (s.flag (BRG.TWIN_CFG.EN w) = true)) ∧
    (∃ (s : State) (tag : Nat) (w : Fin 16) (op : AtomicOp), (s.flag (BRG.TWIN_CFG.EN w) = true) ∧ (op.width = 4 ∨ op.width = 8)) ∧
    (∃ (s : State) (tag : Nat) (w : Fin 16) (op : AtomicOp), (op.width = 16)) ∧
    (∃ (s : State) (w : Fin 16), (s.brg.buffers = [])) ∧
    (∃ (s : State) (t : State) (w : Fin 16) (b : PfBuf), (s.brg.buffers = [b]) ∧ (b.win = w.val) ∧ (b.unread = []) ∧ (t = { s with brg := { s.brg with buffers := [] } })) ∧
    (∃ (s : State) (w : Fin 16), (s.reaches (BRG.TWIN_CFG.off w) = true) ∧ (1 ≤ s.get (BRG.TWIN_CFG.POS w)) ∧ (s.get (BRG.TWIN_CFG.POS w) ≤ 32)) ∧
    (∃ (s : State) (w : Fin 16), (s.reaches (BRG.TWIN_CFG.off w) = true) ∧ (s.get (BRG.TWIN_CFG.POS w) = 0)) ∧
    (∃ (s : State) (w : Fin 16), (s.reaches (BRG.TWIN_CFG.off w) = true)) ∧
    (∃ (s : State) (w : Fin 16), (s.reaches (BRG.TWIN_BAR.off w) = true) ∧ (s.brg.reqs = [])) ∧
    (∃ (s : State) (w : Fin 16) (q : BrgReq), (s.reaches (BRG.TWIN_BAR.off w) = true) ∧ (s.brg.reqs = [q]) ∧ (q.op = BrgOp.write) ∧ (q.win = w.val)) ∧
    (∃ (s : State) (w : Fin 16) (n : Nat) (op : Nat) (q : BrgReq), (s.brg.reqs.find? (fun r => r.win == w.val && r.seq == n && r.op == op) = some q)) ∧
    (∃ (s : State) (w : Fin 16) (n : Nat) (op : Nat), (s.brg.reqs = [])) ∧
    (∃ (s : State) (a : HostAtom) (op : Nat) (k : Nat), (s.brg.atom = some a) ∧ (a.retry = some (op, k)) ∧ (a.first + 64 ≤ s.decik.upTicks)) ∧
    (∃ (s : State) (a : HostAtom) (op : Nat) (k : Nat), (s.brg.atom = some a) ∧ (a.retry = some (op, k)) ∧ s.decik.upTicks < a.first + 64) ∧
    (∃ (s : State), (s.brg.atom = none)) :=
  ⟨⟨up.setFlag (BRG.TWIN_CFG.EN 0) false, 0, 0, 0, 0, op4, [], by decide +kernel⟩,
    ⟨up.setFlag (BRG.TWIN_CFG.EN 0) true, 0, 0, 0, 0, by decide +kernel⟩,
    ⟨up.setFlag (BRG.TWIN_CFG.EN 0) true, 0, 0, [], by decide +kernel⟩,
    ⟨up.setFlag (BRG.TWIN_CFG.EN 0) true, 0, 0, op4, by decide +kernel, by decide +kernel⟩,
    ⟨up, 0, 0, ⟨0, .cas, 16, 0, 0⟩, by decide +kernel⟩,
    ⟨(fun s : State => { s with brg := { s.brg with buffers := [] } }) up, 0, by decide +kernel⟩,
    ⟨brg up (fun b => { b with buffers := [pf0] }), _, 0, pf0, by decide +kernel, by decide +kernel, by decide +kernel, rfl⟩,
    ⟨up.set (BRG.TWIN_CFG.POS 0) 1, 0, by decide +kernel, by decide +kernel, by decide +kernel⟩,
    ⟨up.set (BRG.TWIN_CFG.POS 0) (0), 0, by decide +kernel, by decide +kernel⟩,
    ⟨up, 0, by decide +kernel⟩,
    ⟨(fun s : State => { s with brg := { s.brg with reqs := [] } }) up, 0, by decide +kernel, by decide +kernel⟩,
    ⟨brg up (fun b => { b with reqs := [brq 2] }), 0, brq 2, by decide +kernel, by decide +kernel, by decide +kernel, by decide +kernel⟩,
    ⟨brg up (fun b => { b with reqs := [brq 2] }), 0, 0, 2, brq 2, by decide +kernel⟩,
    ⟨(fun s : State => { s with brg := { s.brg with reqs := [] } }) up, 0, 0, 0, by decide +kernel⟩,
    ⟨brg { up with decik := { up.decik with upTicks := 64 } } (fun b => { b with atom := some hostAtom }), hostAtom, 3, 0, by decide +kernel, by decide +kernel, by decide +kernel⟩,
    ⟨brg { up with decik := { up.decik with upTicks := 63 } } (fun b => { b with atom := some hostAtom }), hostAtom, 3, 0, by decide +kernel, by decide +kernel, by decide +kernel⟩,
    ⟨(fun s : State => { s with brg := { s.brg with atom := none } }) up, by decide +kernel⟩⟩

theorem witness_BridgeTarget :
    (∃ (s : State) (t : State) (r : TgtReq) (rest : List TgtReq) (bytes : List Nat), (s.brg.inbox = r :: rest) ∧ (r.op = BrgOp.read) ∧ (r.regs = false) ∧ (s.cinchHolds r.off (max r.len r.data.length) = false) ∧ (State.tgtRead { s with brg := { s.brg with inbox := rest } } r.off r.len = ⟨BrgSt.ok, bytes, t⟩)) ∧
    (∃ (s : State) (t : State) (r : TgtReq) (rest : List TgtReq), (s.brg.inbox = r :: rest) ∧ (r.op = BrgOp.write) ∧ (r.regs = false) ∧ (s.cinchHolds r.off (max r.len r.data.length) = false) ∧ (State.tgtWrite { s with brg := { s.brg with inbox := rest } } r.off r.data = ⟨BrgSt.ok, [], t⟩)) ∧
    (∃ (s : State) (t : State) (r : TgtReq) (rest : List TgtReq), (s.brg.inbox = r :: rest) ∧ (r.op = BrgOp.semAcq) ∧ r.sem < 32 ∧ (s.flag BRG.RACC_CTRL.EN = true) ∧ (s.flag (BRG.SEM.HELD r.sem) = false) ∧ (t = { s with brg := { s.brg with inbox := rest } })) ∧
    (∃ (s : State) (t : State) (r : TgtReq) (rest : List TgtReq), (s.brg.inbox = r :: rest) ∧ (r.op = BrgOp.semAcq) ∧ (s.flag BRG.RACC_CTRL.EN = true) ∧ (s.flag (BRG.SEM.HELD r.sem) = true) ∧ (t = { s with brg := { s.brg with inbox := rest } })) ∧
    (∃ (s : State) (t : State) (u : State) (r : TgtReq) (rest : List TgtReq) (bytes : List Nat), (s.brg.inbox = r :: rest) ∧ (r.op = BrgOp.readSem) ∧ (s.flag BRG.RACC_CTRL.EN = true) ∧ (r.regs = false) ∧ (s.cinchHolds r.off (max r.len r.data.length) = false) ∧ (s.semHeldBy r = true) ∧ (t = { s with brg := { s.brg with inbox := rest } }) ∧ (t.tgtRead r.off r.len = ⟨BrgSt.ok, bytes, u⟩)) ∧
    (∃ (s : State) (t : State) (u : State) (r : TgtReq) (rest : List TgtReq), (s.brg.inbox = r :: rest) ∧ (r.op = BrgOp.writeRel) ∧ (s.flag BRG.RACC_CTRL.EN = true) ∧ (r.regs = false) ∧ (s.cinchHolds r.off (max r.len r.data.length) = false) ∧ (s.semHeldBy r = true) ∧ (t = { s with brg := { s.brg with inbox := rest } }) ∧ (t.tgtWrite r.off r.data = ⟨BrgSt.ok, [], u⟩)) ∧
    (∃ (s : State) (t : State) (r : TgtReq) (rest : List TgtReq), (s.brg.inbox = r :: rest) ∧ (r.op = BrgOp.semRel) ∧ (s.flag BRG.RACC_CTRL.EN = true) ∧ (s.semHeldBy r = true) ∧ (t = { s with brg := { s.brg with inbox := rest } })) ∧
    (∃ (s : State) (t : State) (r : TgtReq) (rest : List TgtReq), (s.brg.inbox = r :: rest) ∧ (r.op = BrgOp.cinch) ∧ (t = { s with brg := { s.brg with inbox := rest } }) ∧ (t.cinchRefusal r = none)) ∧
    (∃ (s : State), (s.brg.inbox = [])) ∧
    (∃ (s : State) (b : Nat) (c : Cinch), (s.brg.cinches.find? (fun x => x.block == b) = some c)) ∧
    (∃ (s : State) (k : Fin 32), (s.flag (BRG.SEM.HELD k) = true)) ∧
    (∃ (s : State) (k : Fin 32), (s.flag (BRG.SEM.HELD k) = false)) ∧
    (∃ (s : State) (t : State) (k : Fin 32), (s.reaches (BRG.SEM.off k) = true) ∧ (s.flag (BRG.SEM.HELD k) = false) ∧ (t = ((s.uncaptured.setFlag (BRG.SEM.HELD k) true).setFlag (BRG.SEM.LOCAL k) true).set (BRG.SEM.LEASE k) 32)) ∧
    (∃ (s : State) (k : Fin 32), (s.reaches (BRG.SEM.off k) = true) ∧ (s.flag (BRG.SEM.LOCAL k) = true)) ∧
    (∃ (s : State) (k : Fin 32), (s.reaches (BRG.SEM.off k) = true) ∧ (s.flag (BRG.SEM.LOCAL k) = false)) :=
  ⟨⟨asked BrgOp.read, unasked, tgt BrgOp.read, [], [], by decide +kernel, by decide +kernel, by decide +kernel, by decide +kernel, by decide +kernel⟩,
    ⟨asked BrgOp.write, unasked, tgt BrgOp.write, [], by decide +kernel, by decide +kernel, by decide +kernel, by decide +kernel, by decide +kernel⟩,
    ⟨asked BrgOp.semAcq, _, tgt BrgOp.semAcq, [], by decide +kernel, by decide +kernel, by decide +kernel, by decide +kernel, by decide +kernel, rfl⟩,
    ⟨semUp (asked BrgOp.semAcq), _, tgt BrgOp.semAcq, [], by decide +kernel, by decide +kernel, by decide +kernel, by decide +kernel, rfl⟩,
    ⟨semUp (asked BrgOp.readSem), _, brg (semUp (asked BrgOp.readSem)) (fun b => { b with inbox := [] }), tgt BrgOp.readSem, [], [], by decide +kernel, by decide +kernel, by decide +kernel, by decide +kernel, by decide +kernel, by decide +kernel, rfl, by decide +kernel⟩,
    ⟨semUp (asked BrgOp.writeRel), _, brg (semUp (asked BrgOp.writeRel)) (fun b => { b with inbox := [] }), tgt BrgOp.writeRel, [], by decide +kernel, by decide +kernel, by decide +kernel, by decide +kernel, by decide +kernel, by decide +kernel, rfl, by decide +kernel⟩,
    ⟨semUp (asked BrgOp.semRel), _, tgt BrgOp.semRel, [], by decide +kernel, by decide +kernel, by decide +kernel, by decide +kernel, rfl⟩,
    ⟨brg unasked (fun b => { b with inbox := [{ tgt BrgOp.cinch with data := [4] }] }), _, { tgt BrgOp.cinch with data := [4] }, [], by decide +kernel, by decide +kernel, rfl, by decide +kernel⟩,
    ⟨(fun s : State => { s with brg := { s.brg with inbox := [] } }) up, by decide +kernel⟩,
    ⟨brg up (fun b => { b with cinches := [⟨tgt 3, 0, 0⟩] }), 0, ⟨tgt 3, 0, 0⟩, by decide +kernel⟩,
    ⟨up.setFlag (BRG.SEM.HELD 0) true, 0, by decide +kernel⟩,
    ⟨up.setFlag (BRG.SEM.HELD 0) false, 0, by decide +kernel⟩,
    ⟨up.setFlag (BRG.SEM.HELD 0) false, _, 0, by decide +kernel, by decide +kernel, rfl⟩,
    ⟨up.setFlag (BRG.SEM.LOCAL 0) true, 0, by decide +kernel, by decide +kernel⟩,
    ⟨up.setFlag (BRG.SEM.LOCAL 0) false, 0, by decide +kernel, by decide +kernel⟩⟩

theorem witness_PcieLinkAndMsix :
    (∃ (s : State) (t : State) (v : Fin 4) (w : Fin 4), (s.straps.hostSpi = false) ∧ (s.domOn Dom.pcie = true) ∧ (t = ((s.setFlag BRG.HOST_STAT.LINK_UP true).set BRG.HOST_STAT.LINK_SPEED v).set BRG.HOST_STAT.LINK_WIDTH w)) ∧
    (∃ (s : State) (v : Fin 4) (w : Fin 4) (a : Bool) (b : Bool), (s.straps.hostSpi = true)) ∧
    (∃ (s : State), (s.flag BRG.HOST_STAT.LINK_UP = true)) ∧
    (∃ (s : State), (s.flag BRG.HOST_STAT.LINK_UP = false)) ∧
    (∃ (s : State) (t : State), (s.straps.hostSpi = false) ∧ (s.isOff = false) ∧ (s.awake = true) ∧ (s.domOn Dom.pcie = true) ∧ (s.flag BRG.HOST_STAT.LINK_UP = true) ∧ (t = s.pcieDown)) ∧
    (∃ (s : State), (s.straps.hostSpi = false) ∧ (s.isOff = false) ∧ (s.awake = false)) ∧
    (∃ (s : State) (t : State) (en : Bool) (fm : Bool), (s.straps.hostSpi = false) ∧ (t = { s with msix := { s.msix with enable := en, functionMask := fm } })) ∧
    (∃ (s : State) (n : Fin 64), (s.straps.hostSpi = false) ∧ (s.domOn Dom.pcie = true)) ∧
    (∃ (s : State), (s.straps.hostSpi = false) ∧ (s.domOn Dom.pcie = true)) ∧
    (∃ (s : State) (hi : Bool) (w : Word), (s.reaches INTC.PEND_LO.off = true)) ∧
    (∃ (s : State) (hi : Bool) (w : Word), (s.reaches INTC.EN_LO.off = true)) ∧
    (∃ (s : State) (hi : Bool) (w : Word), (s.reaches INTC.FORCE_LO.off = true) ∧ s.get PWR.STAT.MODE ≠ 2) ∧
    (∃ (s : State) (n : Nat), (s.reaches INTC.FORCE_LO.off = true) ∧ (s.get PWR.STAT.MODE = 2) ∧ n < 32 ∧ (s.isPend n = false)) :=
  ⟨⟨(fun s : State => { s with straps := { s.straps with hostSpi := false } }) up, _, 0, 0, by decide +kernel, by decide +kernel, rfl⟩,
    ⟨(fun s : State => { s with straps := { s.straps with hostSpi := true } }) up, 0, 0, false, false, by decide +kernel⟩,
    ⟨up.setFlag BRG.HOST_STAT.LINK_UP true, by decide +kernel⟩,
    ⟨up.setFlag BRG.HOST_STAT.LINK_UP false, by decide +kernel⟩,
    ⟨((fun s : State => { s with straps := { s.straps with hostSpi := false } }) up).setFlag BRG.HOST_STAT.LINK_UP true, _, by decide +kernel, by decide +kernel, by decide +kernel, by decide +kernel, by decide +kernel, rfl⟩,
    ⟨((fun s : State => { s with straps := { s.straps with hostSpi := false } }) up).set PWR.STAT.STATE Pw.standby, by decide +kernel, by decide +kernel, by decide +kernel⟩,
    ⟨(fun s : State => { s with straps := { s.straps with hostSpi := false } }) up, _, false, false, by decide +kernel, rfl⟩,
    ⟨(fun s : State => { s with straps := { s.straps with hostSpi := false } }) up, 0, by decide +kernel, by decide +kernel⟩,
    ⟨(fun s : State => { s with straps := { s.straps with hostSpi := false } }) up, by decide +kernel, by decide +kernel⟩,
    ⟨up, false, 0, by decide +kernel⟩,
    ⟨up, false, 0, by decide +kernel⟩,
    ⟨up.set PWR.STAT.MODE ((if 2 = 0 then 1 else 0)), false, 0, by decide +kernel, by decide +kernel⟩,
    ⟨up.set PWR.STAT.MODE (2), 0, by decide +kernel, by decide +kernel, by decide +kernel, by decide +kernel⟩⟩

theorem witness_PendingBitsAreNeverLost :
    (∃ (s : State) (hi : Bool) (w : Nat) (n : Nat), n < 64 ∧ (s.domOn Dom.core = true) ∧ n ∈ namedSources hi w ∧ (decikSource n = false ∨ s.decikRuns = true)) ∧
    (∃ (s : State) (hi : Bool) (w : Nat) (n : Nat), n < 64 ∧ (s.domOn Dom.core = true) ∧ n ∉ namedSources hi w) ∧
    (∃ (s : State) (hi : Bool) (w : Nat) (n : Nat), n < 64 ∧ (s.domOn Dom.core = true)) :=
  ⟨⟨up, false, 1, 0, by decide +kernel, by decide +kernel, by decide +kernel, by decide +kernel⟩,
    ⟨up, false, 0, 0, by decide +kernel, by decide +kernel, by decide +kernel⟩,
    ⟨up, false, 0, 0, by decide +kernel, by decide +kernel⟩⟩

theorem witness_MailboxRings :
    (∃ (s : State) (ch : Fin 4) (h : Nat), (s.reaches (MBX.CH_REQ_HEAD.off ch) = true) ∧ (s.chWritable ch.val = true) ∧ (ringFill (h % 128) (s.get (MBX.CH_REQ_TAIL.TAIL ch)) ≤ 64)) ∧
    (∃ (s : State) (ch : Fin 4) (h : Nat), (s.reaches (MBX.CH_REQ_HEAD.off ch) = true) ∧ (s.chWritable ch.val = true) ∧ 64 < ringFill (h % 128) (s.get (MBX.CH_REQ_TAIL.TAIL ch))) ∧
    (∃ (s : State) (ch : Fin 4) (h : Nat), ch.val ≠ s.hostCh) ∧
    (∃ (s : State) (ch : Fin 4) (t : Nat), (s.reaches (MBX.CH_RSP_TAIL.off ch) = true) ∧ (s.chWritable ch.val = true) ∧ (ringFill (t % 128) (s.get (MBX.CH_RSP_TAIL.TAIL ch)) ≤ s.rspFill ch.val)) ∧
    (∃ (s : State) (t : State) (ch : Fin 4), (s.reaches (MBX.CH_STAT.off ch) = true) ∧ (ch.val = s.hostCh) ∧ (s.decikRuns = true) ∧ (t = { s.uncaptured with mbx := { s.mbx with opens := s.mbx.opens.filter (fun r => r.ch != ch.val), held := s.mbx.held.set ch.val [], transfers := s.mbx.transfers.filter (fun x => x.ch != ch.val) } })) ∧
    (∃ (s : State) (ch : Fin 4), (s.reaches (MBX.CH_STAT.off ch) = true) ∧ (ch.val = s.hostCh) ∧ (s.decikRuns = false)) ∧
    (∃ (s : State) (ch : Fin 4), (s.decikRuns = false)) ∧
    (∃ (s : State) (ch : Fin 4), (s.reaches (MBX.CH_DB.off ch) = true) ∧ (s.chWritable ch.val = true)) ∧
    (∃ (s : State) (t : State) (u : State) (b : List Nat) (e : Bool), (s.canTake 0 = true) ∧ (s.canTake 1 = false) ∧ (s.canTake 2 = false) ∧ (s.canTake 3 = false) ∧ (s.storeRead (s.reqEntry 0 (s.get (MBX.CH_REQ_TAIL.TAIL 0))) 4096 = (b, e, t)) ∧ (u = t.set (MBX.CH_REQ_TAIL.TAIL 0) ((s.get (MBX.CH_REQ_TAIL.TAIL 0) + 1) % 128)) ∧ ((∀ n : Fin 4, (u.serveAny (fieldOf b 0 2) (u.parseRequest 0 (s.get (MBX.CH_REQ_TAIL.TAIL 0)) b)).canTake n.val = false))) ∧
    (∃ (s : State) (ch : Fin 4) (tag : Nat) (p : Nat) (u : Nat) (t : Nat) (d : Nat) (i : DWord) (m : List Nat) (re : Bool) (r : OpenReq), (s.mbx.opens = [r]) ∧ (r.ch = ch.val) ∧ (r.tag = tag) ∧ (r.pend = .remote p u i t d m re false)) ∧
    (∃ (s : State) (ch : Fin 4) (tag : Nat) (p : Nat) (u : Nat) (t : Nat) (d : Nat) (i : DWord) (m : List Nat) (first : Bool) (r : OpenReq), (s.mbx.opens = [r]) ∧ (r.ch = ch.val) ∧ (r.tag = tag) ∧ (r.pend = .remote p u i t d m true first)) ∧
    (∃ (s : State) (ch : Fin 4) (tag : Nat), (s.mbx.opens = [])) ∧
    (∃ (s : State) (ch : Fin 4) (tag : Nat) (p : Nat) (f : Nat) (g : Nat) (a : Nat) (b : Nat) (r : OpenReq), (s.decikRuns = true) ∧ (s.mbx.opens = [r]) ∧ (r.ch = ch.val) ∧ (r.tag = tag) ∧ (r.pend = .mdio p f g)) :=
  ⟨⟨up, 0, 0, by decide +kernel, by decide +kernel, by decide +kernel⟩,
    ⟨up.set (MBX.CH_REQ_TAIL.TAIL 0) 63, 0, 0, by decide +kernel, by decide +kernel, by decide +kernel⟩,
    ⟨up, 1, 0, by decide +kernel⟩,
    ⟨up, 0, 0, by decide +kernel, by decide +kernel, by decide +kernel⟩,
    ⟨up, _, 0, by decide +kernel, by decide +kernel, by decide +kernel, rfl⟩,
    ⟨r0, 0, by decide +kernel, by decide +kernel, by decide +kernel⟩,
    ⟨r0, 0, by decide +kernel⟩,
    ⟨up, 0, by decide +kernel, by decide +kernel⟩,
    ⟨{ up.set (MBX.CH_REQ_HEAD.HEAD 0) 1 with mem := { up.mem with regions := [⟨6, 512, true, 0⟩] } }, _, _, _, _, by decide +kernel, by decide +kernel, by decide +kernel, by decide +kernel, rfl, rfl, by decide +kernel⟩,
    ⟨opened (.remote 0 0 0 0 0 [] false false), 0, 0, 0, 0, 0, 0, 0, [], false, open0 (.remote 0 0 0 0 0 [] false false), by decide +kernel, by decide +kernel, by decide +kernel, by decide +kernel⟩,
    ⟨opened (.remote 0 0 0 0 0 [] true false), 0, 0, 0, 0, 0, 0, 0, [], false, open0 (.remote 0 0 0 0 0 [] true false), by decide +kernel, by decide +kernel, by decide +kernel, by decide +kernel⟩,
    ⟨(fun s : State => { s with mbx := { s.mbx with opens := [] } }) up, 0, 0, by decide +kernel⟩,
    ⟨opened (.mdio 0 0 0), 0, 0, 0, 0, 0, 0, 0, open0 (.mdio 0 0 0), by decide +kernel, by decide +kernel, by decide +kernel, by decide +kernel, by decide +kernel⟩⟩

theorem witness_UnitsAndConfiguration :
    (∃ (s : State) (id : Nat), (s.decikRuns = true) ∧ (unitKnown id = true) ∧ ((s.unitLook id).unit id = (s.unit id)) ∧ (s.unitLook id = s) ∧ ((s.unit id).mgmt = Mgmt.starting) ∧ ((s.unit id).dp = Dp.running)) ∧
    (∃ (s : State) (id : Nat), (unitKnown id = false)) ∧
    (∃ (s : State) (id : Nat), (s.decikRuns = true) ∧ (unitKnown id = true) ∧ (s.unitLook id = s) ∧ ((s.unit id).mgmt = Mgmt.starting) ∧ (s.unit id).dp ≠ Dp.running) ∧
    (∃ (s : State) (id : Nat), (s.decikRuns = true) ∧ (unitKnown id = true) ∧ (s.unitLook id = s) ∧ ((s.unit id).mgmt = Mgmt.stopping) ∧ (s.unit id).dp ≠ Dp.off) ∧
    (∃ (s : State) (id : Nat), (s.unitLook id = s) ∧ ((s.unit id).mgmt = Mgmt.enabled)) ∧
    (∃ (s : State) (t : State) (id : Nat), (s.decikRuns = true) ∧ (unitKnown id = true) ∧ (s.unitLook id = s) ∧ ((s.unit id).diverged = false) ∧ (s.unitApart id = true) ∧ ((s.unit id).mgmt = Mgmt.enabled) ∧ (t = (((s.setUnit { s.unit id with diverged := true }).evt MBX.UNIT_EVT.DIVERGE 1 Src.DIVERGENCE).count MBX.UNIT_CNT.DIV_CNT 1).post Evt.UNIT_DIVERGENCE 0 (leBytes 4 id ++ [(s.unit id).mgmtByte, (s.unit id).dp]))) ∧
    (∃ (s : State) (id : Nat), (s.decikRuns = true) ∧ (unitKnown id = true) ∧ (s.unitLook id = s) ∧ ((s.unit id).diverged = true) ∧ (s.unitApart id = true)) ∧
    (∃ (s : State) (id : Nat), (s.decikRuns = true) ∧ (unitKnown id = true) ∧ (s.unitLook id = s) ∧ ((s.unit id).diverged = true) ∧ (s.unitApart id = false)) ∧
    (∃ (s : State) (t : State) (x : Timed) (r : List Timed) (k : Nat), (s.takeDue (fun y => y.opcode == 0x0202) = (x :: r, t)) ∧ (t.cfg.slotIn Slot.pend = some k)) ∧
    (∃ (s : State) (n : Nat), (s.cfg.confirmAt = some n) ∧ (s.decikRuns = true) ∧ (s.cfg.trial = true) ∧ (s.cfg.rollTo = none) ∧ (n ≤ s.decik.upTicks) ∧ s.tickSeq ≠ 0) ∧
    (∃ (s : State) (t : State) (x : Timed) (r : List Timed) (k : Nat) (auto : Bool), (s.takeDue (fun y => y.opcode == 0x0204) = (x :: r, t)) ∧ (t.cfg.rollTo = some (k, auto)) ∧ ((t.cfg.slotIn Slot.previous).isSome = true)) ∧
    (∃ (s : State), (s.mbx.timed = []) ∧ (s.cfg.confirmAt = none)) :=
  ⟨⟨tdm (unit0 Mgmt.starting Dp.running) true, 0x2000000, by decide +kernel, by decide +kernel, by decide +kernel, by decide +kernel, by decide +kernel, by decide +kernel⟩,
    ⟨up, 0, by decide +kernel⟩,
    ⟨tdm (unit0 Mgmt.starting Dp.off) false, 0x2000000, by decide +kernel, by decide +kernel, by decide +kernel, by decide +kernel, by decide +kernel⟩,
    ⟨tdm (unit0 Mgmt.stopping Dp.running) true, 0x2000000, by decide +kernel, by decide +kernel, by decide +kernel, by decide +kernel, by decide +kernel⟩,
    ⟨tdm (unit0 Mgmt.enabled Dp.running) true, 0x2000000, by decide +kernel, by decide +kernel⟩,
    ⟨tdm (unit0 Mgmt.enabled Dp.off) false, _, 0x2000000, by decide +kernel, by decide +kernel, by decide +kernel, by decide +kernel, by decide +kernel, by decide +kernel, rfl⟩,
    ⟨tdm { unit0 Mgmt.enabled Dp.off with diverged := true } false, 0x2000000, by decide +kernel, by decide +kernel, by decide +kernel, by decide +kernel, by decide +kernel⟩,
    ⟨tdm { unit0 Mgmt.enabled Dp.running with diverged := true } true, 0x2000000, by decide +kernel, by decide +kernel, by decide +kernel, by decide +kernel, by decide +kernel⟩,
    ⟨slots ⟨[], 2, Slot.pend⟩ ⟨[], 1, Slot.active⟩, _, timed0 0x0202, [], 0, Prod.ext (by decide +kernel) rfl, by decide +kernel⟩,
    ⟨{ up.set GLB.TICK_SEQ.SEQ 1 with cfg := { up.cfg with confirmAt := some 0, trial := true, rollTo := none } }, 0, by decide +kernel, by decide +kernel, by decide +kernel, by decide +kernel, by decide +kernel, by decide +kernel⟩,
    ⟨{ up with cfg := { up.cfg with slots := [⟨[], 2, Slot.active⟩, ⟨[], 1, Slot.previous⟩], rollTo := some (1, false) }, mbx := { up.mbx with timed := [timed0 0x0204] } }, _, timed0 0x0204, [], 1, false, Prod.ext (by decide +kernel) rfl, by decide +kernel, by decide +kernel⟩,
    ⟨(fun s : State => { s with cfg := { s.cfg with confirmAt := none } }) ((fun s : State => { s with mbx := { s.mbx with timed := [] } }) up), by decide +kernel, by decide +kernel⟩⟩

theorem witness_SpiAndI2cHost :
    (∃ (s : State) (a : Nat) (ws : List Nat) (xs : List Word) (c : Fin 256), (s.spiUp = false)) ∧
    (∃ (s : State) (t : State) (a : Nat) (n : Nat) (x : Nat), (s.spiUp = true) ∧ a < 2 ^ 32 ∧ (n ≤ 64) ∧ (s.spiWord a = (Spi.ok, x, t))) ∧
    (∃ (s : State) (a : Nat) (w : Word), (s.spiUp = true) ∧ (0x40000 ≤ a) ∧ a < 2 ^ 32 ∧ (spiWindow a = false)) ∧
    (∃ (s : State) (a : Nat) (w : Word), (s.spiUp = true) ∧ a < 0x40000 ∧ (a % 4 = 0) ∧ (reservedHit a w = false)) ∧
    (∃ (s : State) (c : Fin 256), (s.spiUp = true) ∧ c ≠ 0x0B ∧ c ≠ 0x0F ∧ c ≠ 2 ∧ c ≠ 3) ∧
    (∃ (s : State), (s.spiUp = true)) ∧
    (∃ (s : State) (bs : List Nat), (s.i2cUp = true) ∧ (s.i2cBusy = true)) ∧
    (∃ (s : State) (lo : Nat) (hi : Nat), (s.i2cUp = true) ∧ (s.i2cBusy = false)) ∧
    (∃ (s : State) (lo : Nat) (hi : Nat) (x : Nat), (s.i2cUp = true) ∧ (s.i2cBusy = false) ∧ x ≠ pec [s.i2cAddress false, lo, hi, 0]) ∧
    (∃ (s : State) (n : Nat), (s.i2cUp = true) ∧ (s.rspFill 2 = 0)) ∧
    (∃ (s : State), (s.isOff = false) ∧ (s.pwrState = Pw.standby) ∧ (s.wakeEnabled 2 = true)) ∧
    (∃ (s : State), (s.isOff = true)) :=
  ⟨⟨up, 0, [], [], 0, by decide +kernel⟩,
    ⟨spi, _, 0, 1, _, by decide +kernel, by decide +kernel, by decide +kernel, rfl⟩,
    ⟨spi, 0x40000, 0, by decide +kernel, by decide +kernel, by decide +kernel, by decide +kernel⟩,
    ⟨spi, 0, 0, by decide +kernel, by decide +kernel, by decide +kernel, by decide +kernel⟩,
    ⟨spi, 0, by decide +kernel, by decide +kernel, by decide +kernel, by decide +kernel, by decide +kernel⟩,
    ⟨spi, by decide +kernel⟩,
    ⟨up.set (MBX.CH_REQ_HEAD.HEAD 2) 1, [], by decide +kernel, by decide +kernel⟩,
    ⟨up, 0, 0, by decide +kernel, by decide +kernel⟩,
    ⟨up, 0, 0, 1, by decide +kernel, by decide +kernel, by decide +kernel⟩,
    ⟨up, 0, by decide +kernel, by decide +kernel⟩,
    ⟨up.set PWR.STAT.STATE Pw.standby, by decide +kernel, by decide +kernel, by decide +kernel⟩,
    ⟨(fun s : State => { s with pwr := { s.pwr with resetWait := Wait.vao } }) up, by decide +kernel⟩⟩

theorem witness_RegisterReads :
    (∃ (s : State) (a : Nat) (n : Nat) (p : Fin 20854), (n = 0 ∨ 4 < a % 4 + n)) ∧
    (∃ (s : State) (k : Nat) (n : Nat) (p : Fin 20854), (s.domOn (regDomain PWR.WAKE_TO0.off) = true) ∧ 0 < n ∧ (k + n ≤ 4)) ∧
    (∃ (s : State) (k : Nat) (n : Nat) (p : Fin 20854) (a : Nat), (s.domOn (regDomain PWR.WAKE_TO0.off) = true) ∧ 0 < n ∧ (k + n ≤ 4)) ∧
    (∃ (s : State) (k : Nat) (n : Nat) (p : Fin 20854), (s.domOn (regDomain PWR.WAKE_TO0.off) = true) ∧ 0 < n ∧ (k + n ≤ 4)) ∧
    (∃ (s : State) (p : Fin 20854), (s.domOn (regDomain GLB.TICK_SEQ.off) = true)) ∧
    (∃ (s : State) (p : Fin 20854), (s.domOn (regDomain SYNC.TIME_LO.off) = true)) ∧
    (∃ (s : State) (p : Fin 20854), (s.domOn (regDomain PTP.TIME_LO.off) = true)) ∧
    (∃ (s : State) (p : Fin 20854), (s.domOn (regDomain PWR.RTC_LO.off) = true)) ∧
    (∃ (s : State) (p : Fin 20854), (s.domOn (regDomain BRG.SPI_CNT.off) = true)) ∧
    (∃ (s : State) (p : Fin 2), (s.reaches (ETH.TSQ_STAT.off p) = true)) :=
  ⟨⟨up, 0, 0, 0, by decide +kernel⟩,
    ⟨up, 0, 4, 0, by decide +kernel, by decide +kernel, by decide +kernel⟩,
    ⟨up, 0, 4, 0, 0, by decide +kernel, by decide +kernel, by decide +kernel⟩,
    ⟨up, 0, 4, 0, by decide +kernel, by decide +kernel, by decide +kernel⟩,
    ⟨up, 0, by decide +kernel⟩,
    ⟨up, 0, by decide +kernel⟩,
    ⟨up, 0, by decide +kernel⟩,
    ⟨up, 0, by decide +kernel⟩,
    ⟨up, 0, by decide +kernel⟩,
    ⟨up, 0, by decide +kernel⟩⟩

theorem witness_PowerStateCommands :
    (∃ (s : State), (s.awake = true) ∧ s.get PWR.STAT.TARGET ≠ 0) ∧
    (∃ (s : State), (s.awake = false)) ∧
    (∃ (s : State), (s.pwrState = Pw.entering) ∧ (s.pwr.rails = [])) ∧
    (∃ (s : State), s.pwrState ≠ Pw.entering) ∧
    (∃ (s : State) (t : State), (s.pwrState = Pw.standby) ∧ (s.get PWR.STAT.TARGET = Pw.sleep) ∧ (t = s.ethDown false)) ∧
    (∃ (s : State), s.pwrState ≠ Pw.standby) ∧
    (∃ (s : State), (s.pwrState = Pw.sleep)) ∧
    (∃ (s : State) (f : Option CanRx), (s.pwrState = Pw.active)) ∧
    (∃ (s : State), (s.flag PWR.CFG.ALM_EN = true)) ∧
    (∃ (s : State), (s.flag PWR.CFG.ALM_EN = false)) ∧
    (∃ (s : State) (hi : Nat), (s.reaches PWR.RTC_ALM_HI.off = true)) ∧
    (∃ (s : State), (s.stepping = true) ∧ (s.pwr.step = 2)) ∧
    (∃ (s : State) (t : State), (s.stepping = true) ∧ (s.pwr.step = 3) ∧ (t = (s.setLevel Dom.storeArray 2).setLevel Dom.storeCtl 2)) ∧
    (∃ (s : State), (s.stepping = true) ∧ (s.pwr.step = 4)) ∧
    (∃ (s : State) (f : StepFail), (s.stepping = false)) ∧
    (∃ (s : State) (t : State) (f : StepFail), (s.stepping = true) ∧ s.pwr.attempt ≠ 1 ∧ (s.pwr.attempt ≤ s.get PWR.WAKE_CTRL.RETRIES) ∧ (t = ((((s.safeState.set PWR.AO_FAULT.CAUSE (s.failCause f)).set PWR.AO_FAULT.STEP s.pwr.step).set PWR.AO_FAULT.ATTEMPTS s.pwr.attempt).setFlag PWR.AO_FAULT.VALID true))) ∧
    (∃ (s : State), (s.pwr.waiting = true)) ∧
    (∃ (s : State), (s.pwr.waiting = false)) ∧
    (∃ (s : State), (s.pwrState = Pw.wakeFail) ∧ (s.pwr.failHold = true) ∧ s.pwr.latched ≠ []) ∧
    (∃ (s : State), (s.pwr.failHold = false)) ∧
    (∃ (s : State) (t : State), (t = s.setFlag PWR.STAT.VMAIN_OK true) ∧ t.pwrState ≠ Pw.wakeFail) :=
  ⟨⟨up.set PWR.STAT.TARGET ((if 0 = 0 then 1 else 0)), by decide +kernel, by decide +kernel⟩,
    ⟨up.set PWR.STAT.STATE Pw.standby, by decide +kernel⟩,
    ⟨(fun s : State => { s with pwr := { s.pwr with rails := [] } }) (up.set PWR.STAT.STATE Pw.entering), by decide +kernel, by decide +kernel⟩,
    ⟨up, by decide +kernel⟩,
    ⟨(up.set PWR.STAT.STATE Pw.standby).set PWR.STAT.TARGET (Pw.sleep), _, by decide +kernel, by decide +kernel, rfl⟩,
    ⟨up, by decide +kernel⟩,
    ⟨up.set PWR.STAT.STATE Pw.sleep, by decide +kernel⟩,
    ⟨up.set PWR.STAT.STATE Pw.active, none, by decide +kernel⟩,
    ⟨up.setFlag PWR.CFG.ALM_EN true, by decide +kernel⟩,
    ⟨up.setFlag PWR.CFG.ALM_EN false, by decide +kernel⟩,
    ⟨up, 0, by decide +kernel⟩,
    ⟨(fun s : State => { s with pwr := { s.pwr with step := 2 } }) ((fun s : State => { s with pwr := { s.pwr with step := 1, waiting := false, resetWait := 0 } }) (up.set PWR.STAT.STATE Pw.waking)), by decide +kernel, by decide +kernel⟩,
    ⟨(fun s : State => { s with pwr := { s.pwr with step := 3 } }) ((fun s : State => { s with pwr := { s.pwr with step := 1, waiting := false, resetWait := 0 } }) (up.set PWR.STAT.STATE Pw.waking)), _, by decide +kernel, by decide +kernel, rfl⟩,
    ⟨(fun s : State => { s with pwr := { s.pwr with step := 4 } }) ((fun s : State => { s with pwr := { s.pwr with step := 1, waiting := false, resetWait := 0 } }) (up.set PWR.STAT.STATE Pw.waking)), by decide +kernel, by decide +kernel⟩,
    ⟨up, .timeout, by decide +kernel⟩,
    ⟨pw ((up.set PWR.STAT.STATE Pw.waking).set PWR.WAKE_CTRL.RETRIES 3) (fun p => { p with step := 2, attempt := 3, waiting := false, resetWait := 0 }), _, .timeout, by decide +kernel, by decide +kernel, by decide +kernel, rfl⟩,
    ⟨(fun s : State => { s with pwr := { s.pwr with waiting := true } }) up, by decide +kernel⟩,
    ⟨(fun s : State => { s with pwr := { s.pwr with waiting := false } }) up, by decide +kernel⟩,
    ⟨pw (up.set PWR.STAT.STATE Pw.wakeFail) (fun p => { p with failHold := true, latched := [(1, 0)] }), by decide +kernel, by decide +kernel, by decide +kernel⟩,
    ⟨(fun s : State => { s with pwr := { s.pwr with failHold := false } }) up, by decide +kernel⟩,
    ⟨up, _, rfl, by decide +kernel⟩⟩

theorem witness_RailsPerformanceAndResidency :
    (∃ (s : State) (q : RailSeq) (rest : List RailSeq), (s.pwr.rails = q :: rest) ∧ (q.moved = true)) ∧
    (∃ (s : State) (t : State) (q : RailSeq) (rest : List RailSeq), (s.pwr.rails = q :: rest) ∧ (q.moved = false) ∧ (q.up = true) ∧ (t = (s.railsAt q.rails q.step).foldl (fun (u : State) (r : Nat) => (u.putBit PWR.RAIL_STAT.EN r true).putBit PWR.RAIL_STAT.FAULT r false) s)) ∧
    (∃ (s : State) (pg : Fin 256), (s.pwr.rails = [])) ∧
    (∃ (s : State) (t : State) (q : RailSeq) (rest : List RailSeq), (s.pwr.rails = q :: rest) ∧ (q.moved = true) ∧ (t = (s.railsAt q.rails q.step).foldl (fun (u : State) (r : Nat) => u.putBit PWR.RAIL_STAT.PG r true) s)) ∧
    (∃ (s : State) (t : State) (r : Fin 8), (s.getBit PWR.RAIL_STAT.EN r = true) ∧ (s.railMoving r.val = false) ∧ (t = ((s.putBit PWR.RAIL_STAT.EN r false).putBit PWR.RAIL_STAT.PG r false).putBit PWR.RAIL_STAT.FAULT r true)) ∧
    (∃ (s : State) (r : Fin 8), (s.getBit PWR.RAIL_STAT.EN r = false)) ∧
    (∃ (s : State) (v : Fin 3), (s.reaches PWR.PERF.off = true) ∧ v.val ≠ s.get PWR.PERF.VOLT_PT ∧ (v.val ≤ s.get PWR.PERF.FREQ_PT) ∧ s.get PWR.PERF.FREQ_PT < 3) ∧
    (∃ (s : State) (f : Fin 3), (s.reaches PWR.PERF.off = true) ∧ f.val ≠ s.get PWR.PERF.FREQ_PT ∧ (s.get PWR.PERF.VOLT_PT ≤ f.val) ∧ (s.flag PWR.PERF.VOLT_READY = true)) ∧
    (∃ (s : State) (f : Fin 3), (s.reaches PWR.PERF.off = true) ∧ f.val < s.get PWR.PERF.VOLT_PT ∧ s.get PWR.PERF.VOLT_PT < 3) ∧
    (∃ (s : State) (t : State), (s.pwr.freqNext = true) ∧ (t = (s.set GLB.DSP_PERF.POINT (s.get PWR.PERF.FREQ_PT)).set GLB.DSP_PERF.BUDGET (pointBudget (s.get PWR.PERF.FREQ_PT)))) ∧
    (∃ (s : State), (s.pwr.freqNext = false)) ∧
    (∃ (s : State) (v : Fin 2048) (t : State), (s.reaches PWR.HOST_VOTE.off = true) ∧ (s.pwrState = Pw.active) ∧ (t = (s.uncaptured.set PWR.HOST_VOTE.VOTE v).showVotes) ∧ (t.pwrState = Pw.active)) ∧
    (∃ (s : State), (s.mode = Mode.test) ∧ (s.pwrState = Pw.active)) ∧
    (∃ (s : State), (s.mode = Mode.test) ∧ (s.pwrState = Pw.standby)) ∧
    (∃ (s : State), (s.mode = Mode.normal)) :=
  ⟨⟨pw up (fun p => { p with rails := [⟨true, 1, 0, true⟩] }), ⟨true, 1, 0, true⟩, [], by decide +kernel, by decide +kernel⟩,
    ⟨pw up (fun p => { p with rails := [⟨true, 1, 0, false⟩] }), _, ⟨true, 1, 0, false⟩, [], by decide +kernel, by decide +kernel, by decide +kernel, rfl⟩,
    ⟨(fun s : State => { s with pwr := { s.pwr with rails := [] } }) up, 0, by decide +kernel⟩,
    ⟨pw up (fun p => { p with rails := [⟨true, 1, 0, true⟩] }), _, ⟨true, 1, 0, true⟩, [], by decide +kernel, by decide +kernel, rfl⟩,
    ⟨up.putBit PWR.RAIL_STAT.EN 0 true, _, 0, by decide +kernel, by decide +kernel, rfl⟩,
    ⟨up, 0, by decide +kernel⟩,
    ⟨(up.set PWR.PERF.VOLT_PT 1).set PWR.PERF.FREQ_PT 2, 0, by decide +kernel, by decide +kernel, by decide +kernel, by decide +kernel⟩,
    ⟨((up.set PWR.PERF.VOLT_PT 1).set PWR.PERF.FREQ_PT 2).setFlag PWR.PERF.VOLT_READY true, 1, by decide +kernel, by decide +kernel, by decide +kernel, by decide +kernel⟩,
    ⟨(up.set PWR.PERF.VOLT_PT 1).set PWR.PERF.FREQ_PT 2, 0, by decide +kernel, by decide +kernel, by decide +kernel⟩,
    ⟨(fun s : State => { s with pwr := { s.pwr with freqNext := true } }) up, _, by decide +kernel, rfl⟩,
    ⟨(fun s : State => { s with pwr := { s.pwr with freqNext := false } }) up, by decide +kernel⟩,
    ⟨up.set PWR.STAT.STATE Pw.active, 0, _, by decide +kernel, by decide +kernel, rfl, by decide +kernel⟩,
    ⟨(up.set PWR.STAT.MODE Mode.test).set PWR.STAT.STATE Pw.active, by decide +kernel, by decide +kernel⟩,
    ⟨(up.set PWR.STAT.MODE Mode.test).set PWR.STAT.STATE Pw.standby, by decide +kernel, by decide +kernel⟩,
    ⟨up.set PWR.STAT.MODE Mode.normal, by decide +kernel⟩⟩

theorem witness_ResetCommands :
    (∃ (s : State) (t : State) (x : Straps), (t = { s.aoLost 0 with straps := x }) ∧ (x.hostSpi = true)) ∧
    (∃ (s : State) (t : State) (x : Straps), (t = { s.aoLost 0 with straps := x }) ∧ (x.hostSpi = false)) ∧
    (∃ (s : State) (t : State), (t = (s.aoLost Wait.vao).setLevels (fun _ => 0))) ∧
    (∃ (s : State) (b : Fin 4), (s.isOff = true)) ∧
    (∃ (s : State) (b : Fin 4), (s.isOff = false) ∧ (s.awake = true)) ∧
    (∃ (s : State), (s.pwr.resetWait = Wait.supply)) ∧
    (∃ (s : State) (b : Fin 4), (s.isOff = false)) ∧
    (∃ (s : State), (s.pwr.resetWait = Wait.pin)) ∧
    (∃ (s : State), (s.pwr.resetWait = 0)) ∧
    (∃ (s : State), (s.vaoOnly = false) ∧ (s.flag PWR.STAT.PDW = false)) ∧
    (∃ (s : State), (s.flag PWR.STAT.PDW = true)) ∧
    (∃ (s : State), (s.flag PWR.STAT.PDW = true) ∧ (s.pwr.resetWait = 0)) ∧
    (∃ (s : State), (s.flag PWR.STAT.PDW = false)) ∧
    (∃ (s : State) (t : State) (k : Fin 16384), (s.reaches GLB.BOOT_CTRL.off = true) ∧ (t = s.uncaptured.set GLB.BOOT_CTRL.SIZE_KIB k) ∧ (t.bootIn 1 = true)) ∧
    (∃ (s : State) (t : State) (k : Fin 16384), (s.reaches GLB.BOOT_CTRL.off = true) ∧ (t = s.uncaptured.set GLB.BOOT_CTRL.SIZE_KIB k) ∧ (t.bootIn 1 = false)) :=
  ⟨⟨up, _, ⟨false, 0, true, 0, 0⟩, rfl, by decide +kernel⟩,
    ⟨up, _, ⟨false, 0, false, 0, 0⟩, rfl, by decide +kernel⟩,
    ⟨up, _, rfl⟩,
    ⟨(fun s : State => { s with pwr := { s.pwr with resetWait := Wait.vao } }) up, 0, by decide +kernel⟩,
    ⟨up, 0, by decide +kernel, by decide +kernel⟩,
    ⟨(fun s : State => { s with pwr := { s.pwr with resetWait := Wait.supply } }) up, by decide +kernel⟩,
    ⟨up, 0, by decide +kernel⟩,
    ⟨(fun s : State => { s with pwr := { s.pwr with resetWait := Wait.pin } }) up, by decide +kernel⟩,
    ⟨(fun s : State => { s with pwr := { s.pwr with resetWait := 0 } }) up, by decide +kernel⟩,
    ⟨up.setFlag PWR.STAT.PDW false, by decide +kernel, by decide +kernel⟩,
    ⟨up.setFlag PWR.STAT.PDW true, by decide +kernel⟩,
    ⟨(fun s : State => { s with pwr := { s.pwr with resetWait := 0 } }) (up.setFlag PWR.STAT.PDW true), by decide +kernel, by decide +kernel⟩,
    ⟨up.setFlag PWR.STAT.PDW false, by decide +kernel⟩,
    ⟨pw ((up.set PWR.STAT.STATE Pw.starting).set GLB.BOOT_STAT.STATE 1) (fun p => { p with step := 0, resetWait := 0, stopped := false }), _, 0, by decide +kernel, rfl, by decide +kernel⟩,
    ⟨up, _, 0, by decide +kernel, rfl, by decide +kernel⟩⟩

theorem witness_StartSteps :
    (∃ (s : State) (fl : Option (List Nat)) (m : List Nat) (a : Nat) (b : Nat) (c : Nat), ((∀ k : Nat, s.bootIn k = false))) ∧
    (∃ (s : State), s.pwrState ≠ Pw.starting) ∧
    (∃ (s : State) (t : State) (u : State), (s.pwrState = Pw.starting) ∧ (s.pwr.step = 5) ∧ (s.pwr.resetWait = 0) ∧ (s.pwr.wakeStart = false) ∧ (s.straps.bootSrc = 0) ∧ 2 < s.get GLB.RST_CAUSE.CAUSE ∧ (s.bistKinds = 0) ∧ (t = { s with pwr := { s.pwr with step := 0, bist := 0, copy := 0, strapBad := false } }) ∧ (u = (t.set GLB.BOOT_STAT.COPY 0).set GLB.BOOT_STAT.STATE 0)) ∧
    (∃ (s : State), (s.bootIn 2 = true) ∧ (s.pwr.copy = 0)) ∧
    (∃ (s : State) (b : List Nat), (s.bootIn 2 = true) ∧ (s.pwr.copy = 0) ∧ s.bundleFault b ≠ 0) ∧
    (∃ (s : State) (t : State) (u : State) (m : List Nat) (ms : Nat), (s.bootIn 3 = true) ∧ (s.pwr.bist = 0) ∧ (t = ((((s.setFlag TST.BIST_STAT.VALID true).set TST.BIST_STAT.KIND 0).set TST.BIST_STAT.PASS 0).set TST.BIST_STAT.DUR_MS (min ms 0xFFFF))) ∧ (u = { t with pwr := { t.pwr with bist := 0, bistFailed := false } })) ∧
    (∃ (s : State), (s.bootIn 4 = true)) ∧
    (∃ (s : State), (s.bootIn 5 = true) ∧ (s.decikRuns = true)) ∧
    (∃ (s : State) (t : State), (s.decikRuns = true) ∧ (s.get GLB.BOOT_STAT.STATE = 6) ∧ (s.flag GLB.BOOT_STAT.RING_READY = false) ∧ (s.role = 1) ∧ (s.get SYNC.STAT.STATE = 2) ∧ (t = (s.setFlag GLB.BOOT_STAT.RING_READY true).set GLB.BOOT_TIME.READY_MS (min ((s.decik.upTicks - s.pwr.t0) / 48) 0xFFFF))) ∧
    (∃ (s : State), s.get SYNC.STAT.STATE ≠ 2) ∧
    (∃ (s : State), (s.bootIn 6 = true) ∧ (s.decikRuns = true) ∧ (s.get RING.PORT_CFG.LINE_EN = 0)) ∧
    (∃ (s : State) (t : State) (u : State), (s.decikRuns = false) ∧ (s.flag GLB.FW_STAT.HALTED = false) ∧ (s.awake = true) ∧ (6 ≤ s.get GLB.BOOT_STAT.STATE) ∧ s.get GLB.BOOT_STAT.STATE ≠ 9 ∧ (s.firmwareGood = true) ∧ (t = ((s.setFlag GLB.FW_STAT.RUN true).faultCause GLB.FAULT_STAT.DECIK GLB.FAULT_EVT.DECIK false).flushPending.handleLostBanks) ∧ (u = (List.range 4).foldl (fun (v : State) (ch : Nat) => v.setFlag (MBX.CH_STAT.READY ch) (decide (2 ≤ ch) || ch == v.hostCh)) t)) ∧
    (∃ (s : State), (s.decikRuns = true)) :=
  ⟨⟨up, none, [], 0, 0, 0, fun k => by unfold State.bootIn; rw [show (up.pwrState == Pw.starting) = false by decide +kernel]; rfl⟩,
    ⟨up, by decide +kernel⟩,
    ⟨pw ((up.set PWR.STAT.STATE Pw.starting).set GLB.RST_CAUSE.CAUSE 3) (fun p => { p with step := 5, resetWait := 0, wakeStart := false }), _, _, by decide +kernel, by decide +kernel, by decide +kernel, by decide +kernel, by decide +kernel, by decide +kernel, by decide +kernel, rfl, rfl⟩,
    ⟨(fun s : State => { s with pwr := { s.pwr with copy := 0 } }) (((fun s : State => { s with pwr := { s.pwr with step := 0, resetWait := 0, stopped := false } }) (up.set PWR.STAT.STATE Pw.starting)).set GLB.BOOT_STAT.STATE 2), by decide +kernel, by decide +kernel⟩,
    ⟨(fun s : State => { s with pwr := { s.pwr with copy := 0 } }) (((fun s : State => { s with pwr := { s.pwr with step := 0, resetWait := 0, stopped := false } }) (up.set PWR.STAT.STATE Pw.starting)).set GLB.BOOT_STAT.STATE 2), [], by decide +kernel, by decide +kernel, by decide +kernel⟩,
    ⟨(fun s : State => { s with pwr := { s.pwr with bist := 0 } }) (((fun s : State => { s with pwr := { s.pwr with step := 0, resetWait := 0, stopped := false } }) (up.set PWR.STAT.STATE Pw.starting)).set GLB.BOOT_STAT.STATE 3), _, _, [], 0, by decide +kernel, by decide +kernel, rfl, rfl⟩,
    ⟨((fun s : State => { s with pwr := { s.pwr with step := 0, resetWait := 0, stopped := false } }) (up.set PWR.STAT.STATE Pw.starting)).set GLB.BOOT_STAT.STATE 4, by decide +kernel⟩,
    ⟨((fun s : State => { s with pwr := { s.pwr with step := 0, resetWait := 0, stopped := false } }) (up.set PWR.STAT.STATE Pw.starting)).set GLB.BOOT_STAT.STATE 5, by decide +kernel, by decide +kernel⟩,
    ⟨(((up.set GLB.BOOT_STAT.STATE (6)).setFlag GLB.BOOT_STAT.RING_READY false).set RING.ENG_STAT.ROLE 1).set SYNC.STAT.STATE (2), _, by decide +kernel, by decide +kernel, by decide +kernel, by decide +kernel, by decide +kernel, rfl⟩,
    ⟨up.set SYNC.STAT.STATE ((if 2 = 0 then 1 else 0)), by decide +kernel⟩,
    ⟨(((fun s : State => { s with pwr := { s.pwr with step := 0, resetWait := 0, stopped := false } }) (up.set PWR.STAT.STATE Pw.starting)).set GLB.BOOT_STAT.STATE 6).set RING.PORT_CFG.LINE_EN (0), by decide +kernel, by decide +kernel, by decide +kernel⟩,
    ⟨fwDown, _, _, by decide +kernel, by decide +kernel, by decide +kernel, by decide +kernel, by decide +kernel, fwDown_good, rfl, rfl⟩,
    ⟨up, by decide +kernel⟩⟩

theorem witness_KeysTamperInputsAndSelfTests :
    (∃ (s : State) (k : Fin 16) (e : Fin 4) (p : Bool), (s.decikRuns = false)) ∧
    (∃ (s : State) (k : Fin 16) (e : Fin 4) (p : Bool), (s.decikRuns = true) ∧ (s.domOn Dom.sec = true) ∧ (s.flag SEC.STAT.TAMPER = true)) ∧
    (∃ (s : State) (k : Fin 16) (e : Fin 4) (g : KeyGen), (s.decikRuns = true) ∧ (s.domOn Dom.sec = true) ∧ (s.flag SEC.STAT.TAMPER = false) ∧ ((s.slot k.val).state = 1) ∧ ((s.slot k.val).cur = some g) ∧ (s.unwraps k.val = true) ∧ (bit (s.slot k.val).mask e.val = true)) ∧
    (∃ (s : State), (s.flag SEC.TMP_CFG.EN0 = false)) ∧
    (∃ (s : State) (t : State) (u : State) (v : State) (w : State) (c : Fin 5), (s.tamperArmed c.val = true) ∧ (t = { s with sec := { s.sec with present := setBit s.sec.present c.val }, engines := Vector.replicate 4 ⟨none, none⟩ }) ∧ (u = (((([(0 : Fin 4), 1, 2, 3].foldl (fun (x : State) (e : Fin 4) => x.showEngine e (x.get (SEC.ENG.SLOT e)) 0) t).setFlag SEC.STAT.PRESENT true).setFlag SEC.STAT.TAMPER true).putBit SEC.STAT.CAUSE c.val true).count SEC.TMP_CNT.EVENTS 1) ∧ (v = (if u.durableOn then { u with sec := { u.sec with durable := u.get SEC.STAT.CAUSE } } else u)) ∧ (w = (((v.showKeys.postBy .security Evt.TAMPER 0 [u.get SEC.STAT.CAUSE]).evt SEC.EVT.TAMPER 1 Src.SEC_TAMPER).faultCause GLB.FAULT_STAT.TAMPER GLB.FAULT_EVT.TAMPER true).recShow) ∧ (w.decikRuns = false) ∧ w.pwrState ≠ Pw.starting) ∧
    (∃ (s : State) (t : State) (i : Fin 32) (v : Bool), (s.diSampled i.val = true) ∧ bit s.dio.under i.val ≠ v ∧ (t = s.putBit DIO.IN_RAW.LEVEL i v) ∧ (t.getBit DIO.CHATTER.FROZEN i = true)) ∧
    (∃ (s : State) (i : Fin 32) (v : Bool), (bit s.dio.under i.val = v)) ∧
    (∃ (s : State) (t : State) (i : Fin 32), (s.dio.changes.getD i.val 0 = 0) ∧ (s.getBit DIO.CHATTER.FROZEN i = true) ∧ (t = { s with dio := { s.dio with changes := s.dio.changes.set i.val 0 } })) ∧
    (∃ (s : State) (i : Fin 32), (s.getBit DIO.CHATTER.FROZEN i = false)) ∧
    (∃ (s : State) (i : Fin 32), (s.getBit DIO.IN_STATE.VALUE i = true) ∧ s.get (DIO.INTIM.STUCK_S i) ≠ 0 ∧ (s.getBit DIO.STUCK.STUCK i = false)) ∧
    (∃ (s : State) (i : Fin 32), (s.getBit DIO.STUCK.STUCK i = true)) ∧
    (∃ (s : State) (t : State) (p : Fin 2), (s.reaches (TST.ELANE.off p) = true) ∧ (s.mode = Mode.test) ∧ (s.flag (ETH.CFG.EN p) = false) ∧ (s.get (TST.ELANE.MODE p) = 0)) ∧
    (∃ (s : State) (p : Fin 2), (s.reaches (TST.ELANE.off p) = true) ∧ (s.mode = Mode.normal) ∧ (s.get (TST.ELANE.MODE p) = 0)) :=
  ⟨⟨r0, 0, 0, false, by decide +kernel⟩,
    ⟨up.setFlag SEC.STAT.TAMPER true, 0, 0, false, by decide +kernel, by decide +kernel, by decide +kernel⟩,
    ⟨keyed, 1, 0, ⟨1, 9⟩, by decide +kernel, by decide +kernel, by decide +kernel, by decide +kernel, by decide +kernel, by decide +kernel, by decide +kernel⟩,
    ⟨up.setFlag SEC.TMP_CFG.EN0 false, by decide +kernel⟩,
    ⟨(r0.set PWR.STAT.STATE Pw.active).setFlag SEC.TMP_CFG.EN0 true, _, _, _, _, 0, by decide +kernel, rfl, rfl, rfl, rfl, by decide +kernel, by decide +kernel⟩,
    ⟨up.putBit DIO.CHATTER.FROZEN 0 true, _, 0, true, by decide +kernel, by decide +kernel, rfl, by decide +kernel⟩,
    ⟨up, 0, false, by decide +kernel⟩,
    ⟨up.putBit DIO.CHATTER.FROZEN 0 true, _, 0, by decide +kernel, by decide +kernel, rfl⟩,
    ⟨up, 0, by decide +kernel⟩,
    ⟨(up.set (DIO.INTIM.STUCK_S 0) 1).putBit DIO.IN_STATE.VALUE 0 true, 0, by decide +kernel, by decide +kernel, by decide +kernel⟩,
    ⟨up.putBit DIO.STUCK.STUCK 0 true, 0, by decide +kernel⟩,
    ⟨((up.set PWR.STAT.MODE Mode.test).setFlag (ETH.CFG.EN 0) false).set (TST.ELANE.MODE 0) (0), up, 0, by decide +kernel, by decide +kernel, by decide +kernel, by decide +kernel⟩,
    ⟨(up.set PWR.STAT.MODE Mode.normal).set (TST.ELANE.MODE 0) (0), 0, by decide +kernel, by decide +kernel, by decide +kernel⟩⟩

theorem witness_EthernetPortCommands :
    (∃ (s : State) (p : Fin 2), (s.ethRuns p.val = true)) ∧
    (∃ (s : State) (p : Fin 2) (b : Bool), (s.ethRuns p.val = false)) ∧
    (∃ (s : State) (p : Fin 2) (f : EthRx), (s.ethUp p.val = false)) ∧
    (∃ (s : State) (p : Fin 2) (f : EthRx) (i : Nat), (s.ethUp p.val = true) ∧ (rxFault f = some i)) ∧
    (∃ (s : State) (p : Fin 2) (f : EthRx), (s.ethUp p.val = true) ∧ (rxFault f = none) ∧ (f.bufFull = true)) ∧
    (∃ (s : State) (p : Fin 2) (f : EthRx), (s.ethUp p.val = true) ∧ (rxFault f = none) ∧ (f.bufFull = false)) ∧
    (∃ (s : State) (p : Fin 2) (ph : Nat), (s.flag (ETH.STAT.PAUSED p) = true)) ∧
    (∃ (s : State) (t : State) (p : Fin 2) (ph : Nat) (q : Nat) (f : TxFrame), (s.ethUp p.val = true) ∧ (s.flag (ETH.STAT.PAUSED p) = false) ∧ (t = (List.range 8).foldl (fun (u : State) (k : Nat) => u.dropUnsendable p k 256) s) ∧ (t.txPick p ph = some (q, f))) ∧
    (∃ (s : State) (p : Fin 2), (s.flag (ETH.STAT.PAUSED p) = true)) ∧
    (∃ (s : State) (p : Fin 2), (s.flag (ETH.STAT.PAUSED p) = false)) ∧
    (∃ (s : State) (p : Fin 2), (s.domOn Dom.eth = true) ∧ s.get (ETH.GATE_STAT.ENTRY p) + 1 < (s.ethPort p).gates.spans.length) ∧
    (∃ (s : State) (p : Fin 2), ((s.ethPort p).gates.spans.length ≤ s.get (ETH.GATE_STAT.ENTRY p) + 1)) ∧
    (∃ (s : State) (p : Fin 2) (wr : Nat), (s.reaches (ETH.HTX_IDX.off p) = true)) ∧
    (∃ (s : State) (p : Fin 2) (b : List Nat) (k : Nat), s.get (PWR.VOTE.LEVEL Dom.eth) ≠ 0 ∧ (s.pralineSlot p.val b true = some k) ∧ (s.pwrState = Pw.active) ∧ ((s.count (ETH.PRALINE_STAT.MATCH_CNT p) 1).pwrState = Pw.active)) ∧
    (∃ (s : State) (p : Fin 2) (b : List Nat) (ok : Bool), (s.pralineSlot p.val b ok = none)) ∧
    (∃ (s : State) (n : Fin 64), (s.flag (PTP.SRX_STAT.ARRIVING n) = true)) ∧
    (∃ (s : State) (n : Fin 64), (s.flag (PTP.SRX_STAT.ARRIVING n) = false)) ∧
    (∃ (s : State) (n : Fin 64), (s.stream true n.val = none)) :=
  ⟨⟨up.setFlag (ETH.CFG.EN 0) true, 0, by decide +kernel⟩,
    ⟨up, 0, false, by decide +kernel⟩,
    ⟨up, 0, rx [], by decide +kernel⟩,
    ⟨(up.setFlag (ETH.CFG.EN 0) true).setFlag (ETH.STAT.LINK 0) true, 0, rx [], 8, by decide +kernel, by decide +kernel⟩,
    ⟨(up.setFlag (ETH.CFG.EN 0) true).setFlag (ETH.STAT.LINK 0) true, 0, { rx (pause []) with bufFull := true }, by decide +kernel, by decide +kernel, by decide +kernel⟩,
    ⟨(up.setFlag (ETH.CFG.EN 0) true).setFlag (ETH.STAT.LINK 0) true, 0, rx (pause []), by decide +kernel, by decide +kernel, by decide +kernel⟩,
    ⟨up.setFlag (ETH.STAT.PAUSED 0) true, 0, 0, by decide +kernel⟩,
    ⟨txUp, _, 0, 0, 7, ethFrame, by decide +kernel, by decide +kernel, rfl, by decide +kernel⟩,
    ⟨up.setFlag (ETH.STAT.PAUSED 0) true, 0, by decide +kernel⟩,
    ⟨up.setFlag (ETH.STAT.PAUSED 0) false, 0, by decide +kernel⟩,
    ⟨eth up (fun p => { p with gates := ⟨[(255, 1000), (1, 1000)], 1⟩ }), 0, by decide +kernel, by decide +kernel⟩,
    ⟨up, 0, by decide +kernel⟩,
    ⟨up, 0, 0, by decide +kernel⟩,
    ⟨(up.setFlag (ETH.PRALINE_CRC.EN 0 0) true).set (ETH.PRALINE_CRC.CRC 0 0) (crc16 []), 0, [], 0, by decide +kernel, by decide +kernel, by decide +kernel, by decide +kernel⟩,
    ⟨up, 0, [], false, by decide +kernel⟩,
    ⟨up.setFlag (PTP.SRX_STAT.ARRIVING 0) true, 0, by decide +kernel⟩,
    ⟨up.setFlag (PTP.SRX_STAT.ARRIVING 0) false, 0, by decide +kernel⟩,
    ⟨up, 0, by decide +kernel⟩⟩

theorem witness_PtpAndSleepCommands :
    (∃ (s : State) (t : State) (p : Fin 2), (s.decikRuns = true) ∧ (s.ethUp p.val = true) ∧ (s.ptpState p.val = Ptp.master) ∧ (t = s.setEthPort p { s.ethPort p with ptp := { (s.ethPort p).ptp with syncSeq := ((s.ethPort p).ptp.syncSeq + 1) % 65536 } })) ∧
    (∃ (s : State) (t : State) (w : Word), (s.reaches SYNC.PTP_OFS_HI.off = true) ∧ (t = s.uncaptured.setWord SYNC.PTP_OFS_HI.off w)) ∧
    (∃ (s : State) (p : Fin 2) (w : Fin 3), (s.ethUp p.val = false)) ∧
    (∃ (s : State) (t : State) (u : State) (p : Fin 2), (s.decikRuns = true) ∧ (s.ethPort p).ptp.role ≠ 0 ∧ (s.ptpState p.val = Ptp.listening) ∧ (t = s.count PTP.CNT.ANN_TIMEOUT 1) ∧ (u = t.setEthPort p { s.ethPort p with ptp := { (s.ethPort p).ptp with foreign := none, rxSync := none, reqSent := none } }) ∧ (u.ptpState p.val = Ptp.listening)) ∧
    (∃ (s : State) (p : Fin 2), (s.ptpState p.val = Ptp.master)) ∧
    (∃ (s : State) (t : State) (l : Layout), (s.isMaster = true) ∧ (s.decikRuns = true) ∧ (s.awake = true) ∧ (s.layout? = some l) ∧ (s.net.proposed = none) ∧ (s.net.agreed = none) ∧ (s.holders = []) ∧ (s.flag PWR.NET_STAT.HOLD = false) ∧ (t = { s with net := { s.net with proposed := some (s.decik.upTicks + 1), underProposal := true } })) ∧
    (∃ (s : State), (s.isMaster = false)) ∧
    (∃ (s : State) (k : Nat) (p : Nat), (s.isMaster = true) ∧ (s.net.proposed = some k) ∧ (s.net.announced = none) ∧ (s.netPositions.find? (fun q => !s.getBit PWR.ACK_MAP.MAP (q - 1)) = some p)) ∧
    (∃ (s : State) (k : Nat), (s.net.agreed = some k) ∧ (s.awake = true) ∧ (s.decikRuns = true)) ∧
    (∃ (s : State), (s.net.agreed = none)) ∧
    (∃ (s : State) (t : State), (s.pins.wakeIn = false) ∧ (s.net.stuck = false) ∧ (t = s.setFlag PWR.WAKE_OUT.IN true)) ∧
    (∃ (s : State), (s.pins.wakeIn = true)) ∧
    (∃ (s : State), (s.pins.wakeIn = true) ∧ (s.net.stuck = false)) ∧
    (∃ (s : State) (t : State), (s.pins.wakeIn = true) ∧ (s.net.stuck = false) ∧ (t = { s with net := { s.net with stuck := true, lowFrom := none } })) ∧
    (∃ (s : State), (s.net.stuck = true)) ∧
    (∃ (s : State) (t : State) (p : Nat), (s.isMaster = true) ∧ (s.decikRuns = true) ∧ (s.holders = [p]) ∧ (t = s.post Evt.SLEEP_HELD 0 ([p, s.awakeOf p % 128] ++ leBytes 2 (s.get PWR.HOLDER_STAT.HELD_MIN) ++ leBytes 4 (s.uidAt p).toNat))) ∧
    (∃ (s : State) (t : State) (u : State), (s.netState = Net.validating) ∧ (s.mode = Mode.normal) ∧ (t = ((s.count PWR.FALSE_WAKE.COUNT 1).set PWR.FALSE_WAKE.LAST_SRC (s.get PWR.WAKE_SRC.SRC)).evt PWR.NET_EVT.FALSE_WAKE 1 Src.NET_SLEEP) ∧ (u = t.post Evt.FALSE_WAKE 0 [s.get PWR.WAKE_SRC.SRC, t.get PWR.WAKE_SRC.DETAIL])) ∧
    (∃ (s : State), (s.netState = Net.awake)) ∧
    (∃ (s : State), (s.netState = Net.lone) ∧ (s.mode = Mode.normal) ∧ (s.awake = true) ∧ (s.decikRuns = true) ∧ (s.flag PWR.NET_STAT.HOLD = false)) :=
  ⟨⟨((up.setFlag (ETH.CFG.EN 0) true).setFlag (ETH.STAT.LINK 0) true).set (ptpStateFld 0) Ptp.master, _, 0, by decide +kernel, by decide +kernel, by decide +kernel, rfl⟩,
    ⟨up, _, 0, by decide +kernel, rfl⟩,
    ⟨up, 0, 0, by decide +kernel⟩,
    ⟨eth (up.set (ptpStateFld 0) Ptp.listening) (fun p => { p with ptp := { p.ptp with role := 1 } }), _, _, 0, by decide +kernel, by decide +kernel, by decide +kernel, rfl, rfl, by decide +kernel⟩,
    ⟨up.set (ptpStateFld 0) Ptp.master, 0, by decide +kernel⟩,
    ⟨ringUp, _, lay, by decide +kernel, by decide +kernel, by decide +kernel, by decide +kernel, by decide +kernel, by decide +kernel, by decide +kernel, by decide +kernel, rfl⟩,
    ⟨up, by decide +kernel⟩,
    ⟨{ ringUp with net := { ringUp.net with proposed := some 0 } }, 0, 1, by decide +kernel, by decide +kernel, by decide +kernel, by decide +kernel⟩,
    ⟨(fun s : State => { s with net := { s.net with agreed := some 0 } }) up, 0, by decide +kernel, by decide +kernel, by decide +kernel⟩,
    ⟨(fun s : State => { s with net := { s.net with agreed := none } }) up, by decide +kernel⟩,
    ⟨(fun s : State => { s with net := { s.net with stuck := false } }) ((fun s : State => { s with pins := { s.pins with wakeIn := false } }) up), _, by decide +kernel, by decide +kernel, rfl⟩,
    ⟨(fun s : State => { s with pins := { s.pins with wakeIn := true } }) up, by decide +kernel⟩,
    ⟨(fun s : State => { s with net := { s.net with stuck := false } }) ((fun s : State => { s with pins := { s.pins with wakeIn := true } }) up), by decide +kernel, by decide +kernel⟩,
    ⟨(fun s : State => { s with net := { s.net with stuck := false } }) ((fun s : State => { s with pins := { s.pins with wakeIn := true } }) up), _, by decide +kernel, by decide +kernel, rfl⟩,
    ⟨(fun s : State => { s with net := { s.net with stuck := true } }) up, by decide +kernel⟩,
    ⟨heldTrain, _, 1, by decide +kernel, by decide +kernel, by decide +kernel, rfl⟩,
    ⟨(up.set PWR.NET_STAT.NSTATE Net.validating).set PWR.STAT.MODE Mode.normal, _, _, by decide +kernel, by decide +kernel, rfl, rfl⟩,
    ⟨up.set PWR.NET_STAT.NSTATE Net.awake, by decide +kernel⟩,
    ⟨((up.set PWR.NET_STAT.NSTATE Net.lone).set PWR.STAT.MODE Mode.normal).setFlag PWR.NET_STAT.HOLD false, by decide +kernel, by decide +kernel, by decide +kernel, by decide +kernel, by decide +kernel⟩⟩

theorem witness_CanCommands :
    (∃ (s : State) (ph : Nat), (s.domOn Dom.can = false)) ∧
    (∃ (s : State) (t : State) (ph : Nat), (s.domOn Dom.can = true) ∧ (t = ((((s.canTsrc.set CAN.REF.MISS 0).cycleTime ph).set CAN.CYCLE.CNT (((s.canTsrc.set CAN.REF.MISS 0).cycleTime ph).can.cycle % 2 ^ 32)).canSuspend).schedApply) ∧ (s.canTsrc.can.refSeen = true) ∧ (t.can.claims = []) ∧ (t.can.backoff = [])) ∧
    (∃ (s : State) (k : Fin 128) (sof : Nat) (fin : Nat), (s.can.active = none)) ∧
    (∃ (s : State) (k : Fin 128) (sof : Nat) (fin : Nat), (s.can.active = some k.val) ∧ (16 ≤ k.val)) ∧
    (∃ (s : State) (t : State) (k : Fin 128), (s.can.active = some k.val) ∧ (t = { s with can := { s.can with active := none } }) ∧ (t.oneShot k.val false = true)) ∧
    (∃ (s : State) (u : State) (v : State), (s.canOn = true) ∧ (u = (((({ s with can := { s.can with active := none } } : State).set CAN.STAT.ERR_STATE 2).setFlag CAN.STAT.RECOVERING true).count CAN.ERR.BUSOFF_CNT 1).canErr CAN.EVT.BUS_OFF) ∧ (v = u.post Evt.CAN_BUS_OFF 0 [u.get CAN.ERR.TEC, u.get CAN.ERR.REC]) ∧ (v.txWaiting = [])) ∧
    (∃ (s : State), (s.canOn = false)) ∧
    (∃ (s : State), (s.flag CAN.STAT.RECOVERING = true)) ∧
    (∃ (s : State), (s.flag CAN.STAT.RECOVERING = false)) ∧
    (∃ (s : State) (f : CanRx), (s.flag CAN.STAT.LISTEN = true)) ∧
    (∃ (s : State) (t : State) (f : CanRx) (j : Nat), (s.canOn = true) ∧ (s.flag CAN.STAT.LISTEN = false) ∧ (t = (s.set CAN.ERR.REC (s.get CAN.ERR.REC - 1)).judge f) ∧ (t.ownId f.id f.ext = false) ∧ ((List.range 112).find? (fun i => t.objAccepts f (i + 16)) = some j) ∧ ((t.objTake f (j + 16)).can.active = none)) ∧
    (∃ (s : State), (4 ≤ s.get CAN.REF.MISS)) ∧
    (∃ (s : State), s.get CAN.REF.MISS < 4) ∧
    (∃ (s : State) (c : Fin 2) (x : CallSt), (s.chanCall c.val = some x)) ∧
    (∃ (s : State) (t : State) (i : Fin 8) (v : Nat), (s.callState i.val = CallState.wait) ∧ (s.fresh = (v, t))) ∧
    (∃ (s : State) (i : Fin 8), s.callState i.val ≠ CallState.wait) ∧
    (∃ (s : State) (k : Fin 128), (s.reaches (CAN.OBJ_STAT.off k) = true) ∧ (s.flag (CAN.OBJ_CFG.EN k) = true) ∧ (s.flag (CAN.OBJ_CFG.DIR k) = true)) ∧
    (∃ (s : State) (k : Fin 128), (s.reaches (CAN.OBJ_STAT.off k) = true) ∧ (s.flag (CAN.OBJ_CFG.EN k) = false)) ∧
    (∃ (s : State) (k : Fin 128), (s.reaches (CAN.OBJ_STAT.off k) = true)) ∧
    (∃ (s : State) (k : Fin 128), (s.reaches (CAN.OBJ_STAT.off k) = true) ∧ (s.can.shadow = [])) :=
  ⟨⟨up.setLevel Dom.can 0, 0, by decide +kernel⟩,
    ⟨canSt up (fun c => { c with refSeen := true }), _, 0, by decide +kernel, rfl, by decide +kernel, by decide +kernel, by decide +kernel⟩,
    ⟨(fun s : State => { s with can := { s.can with active := none } }) up, 0, 0, 0, by decide +kernel⟩,
    ⟨canSt up (fun c => { c with active := some 16 }), 16, 0, 0, by decide +kernel, by decide +kernel⟩,
    ⟨canSt up (fun c => { c with active := some 1 }), _, 1, by decide +kernel, rfl, by decide +kernel⟩,
    ⟨canUp up, _, _, by decide +kernel, rfl, rfl, by decide +kernel⟩,
    ⟨up, by decide +kernel⟩,
    ⟨up.setFlag CAN.STAT.RECOVERING true, by decide +kernel⟩,
    ⟨up.setFlag CAN.STAT.RECOVERING false, by decide +kernel⟩,
    ⟨up.setFlag CAN.STAT.LISTEN true, can0, by decide +kernel⟩,
    ⟨((canUp up).setFlag (CAN.OBJ_CFG.EN 16) true).setFlag (CAN.OBJ_CFG.DIR 16) false, _, can0, 0, by decide +kernel, by decide +kernel, rfl, by decide +kernel, by decide +kernel, by decide +kernel⟩,
    ⟨up.set CAN.REF.MISS 4, by decide +kernel⟩,
    ⟨up, by decide +kernel⟩,
    ⟨callUp.set (AUD.CALL_STAT.STATE 0) CallState.can, 0, call0, by decide +kernel⟩,
    ⟨up.set (AUD.CALL_STAT.STATE 0) CallState.wait, _, 0, _, by decide +kernel, rfl⟩,
    ⟨up, 0, by decide +kernel⟩,
    ⟨(up.setFlag (CAN.OBJ_CFG.EN 0) true).setFlag (CAN.OBJ_CFG.DIR 0) true, 0, by decide +kernel, by decide +kernel, by decide +kernel⟩,
    ⟨up.setFlag (CAN.OBJ_CFG.EN 0) false, 0, by decide +kernel, by decide +kernel⟩,
    ⟨up, 0, by decide +kernel⟩,
    ⟨(fun s : State => { s with can := { s.can with shadow := [] } }) up, 0, by decide +kernel, by decide +kernel⟩⟩

theorem witness_StackCommands :
    (∃ (s : State) (t : State) (k : Nat), (s.stackPorts = true) ∧ s.stackLink 0 ≠ Lk.disabled ∧ s.stackLink 0 ≠ Lk.inRing ∧ (s.isMember = true) ∧ k < 3 ∧ (t = (((s.stackTo 0 Lk.inRing).setFlag (STK.LINKSTAT.BLOCK_LOCK 0) true).setFlag (STK.LINKSTAT.LOS 0) false).validComm) ∧ (t.isMember = true)) ∧
    (∃ (s : State) (k : Nat) (c : Bool) (m : List (Nat × DWord × Bool)), (s.stackLink 0 = Lk.disabled)) ∧
    (∃ (s : State) (t : State) (r : MemberRecord), (s.isHead = true) ∧ (s.admitted r.sub = true) ∧ (r.good = true) ∧ (r.phaseNs ≤ 18000) ∧ (r.tick = (s.tickSeq + 1) % 2 ^ 32) ∧ (r.cells = []) ∧ (t = (s.setMember r.sub ⟨r.wafers, r.units, r.alarm, 0, false, r.hold⟩))) ∧
    (∃ (s : State) (r : MemberRecord), 18000 < r.phaseNs) ∧
    (∃ (s : State) (t : State) (k : Fin 4), (s.isHead = true) ∧ (s.admitted k.val = true) ∧ (t = s.memberRepeat k.val)) ∧
    (∃ (s : State) (k : Fin 4), (s.member k.val).missRun < 48) ∧
    (∃ (s : State) (t : State) (k : Fin 4), (s.isHead = true) ∧ (s.admitted k.val = true) ∧ ((s.member k.val).lost = false) ∧ (48 ≤ (s.member k.val).missRun) ∧ (t = (s.setMember k.val { s.member k.val with lost := true }).memberRepeat k.val)) ∧
    (∃ (s : State) (t : State) (r : RingImage), (s.isMember = true) ∧ (s.inaug.image = none) ∧ (r.sleep = none) ∧ (r.audioOk = true) ∧ (r.phaseNs ≤ 7000) ∧ (t = ((s.set RING.ENG_STAT.TOPO r.topo).set RING.LAYOUT.LAYOUT_VER r.layout).set RING.ENG_STAT.POSITION r.position)) ∧
    (∃ (s : State) (r : RingImage) (n : Nat) (o : Int) (h : Bool), (s.isMember = false)) ∧
    (∃ (s : State), (s.isMember = true) ∧ (s.aud.ringTable = [])) ∧
    (∃ (s : State) (t : State) (u : State) (o : Int), (s.isMember = true) ∧ (-5 ≤ o) ∧ (o ≤ 5) ∧ s.stk.timeRun < 47 ∧ (s.inSync = false) ∧ (t = s.set STK.TIME.OFS_NS (ofSigned 16 (satSigned 16 o))) ∧ (u = State.setFlag { t with stk := { s.stk with timeRun := s.stk.timeRun + 1 } } STK.STAT.TIME_LOCK false) ∧ (u.inSync = false)) :=
  ⟨⟨(up.set STK.STAT.ROLE 1).set (STK.LINKSTAT.STATE 0) Lk.detect, _, 0, by decide +kernel, by decide +kernel, by decide +kernel, by decide +kernel, by decide +kernel, rfl, by decide +kernel⟩,
    ⟨up.set (STK.LINKSTAT.STATE 0) Lk.disabled, 0, false, [], by decide +kernel⟩,
    ⟨headUp, _, member0, by decide +kernel, by decide +kernel, by decide +kernel, by decide +kernel, by decide +kernel, by decide +kernel, rfl⟩,
    ⟨up, { member0 with phaseNs := 18001 }, by decide +kernel⟩,
    ⟨headUp, _, 1, by decide +kernel, by decide +kernel, rfl⟩,
    ⟨up, 0, by decide +kernel⟩,
    ⟨stk headUp ⟨[], [], 0, 48, false, false⟩, _, 1, by decide +kernel, by decide +kernel, by decide +kernel, by decide +kernel, rfl⟩,
    ⟨(fun s : State => { s with inaug := { s.inaug with image := none } }) (up.set STK.STAT.ROLE 1), _, image0, by decide +kernel, by decide +kernel, by decide +kernel, by decide +kernel, by decide +kernel, rfl⟩,
    ⟨up, image0, 0, 0, false, by decide +kernel⟩,
    ⟨(fun s : State => { s with aud := { s.aud with ringTable := [] } }) (up.set STK.STAT.ROLE 1), by decide +kernel, by decide +kernel⟩,
    ⟨up.set STK.STAT.ROLE 1, _, _, 0, by decide +kernel, by decide +kernel, by decide +kernel, by decide +kernel, by decide +kernel, rfl, rfl, by decide +kernel⟩⟩

theorem witness_RecorderCommands :
    (∃ (s : State) (b : ReadBack), (s.decikRuns = false)) ∧
    (∃ (s : State) (b : ReadBack), (s.evr.posted = [])) ∧
    (∃ (s : State) (t : State) (b : ReadBack) (r : Record) (rest : List Record), (s.decikRuns = true) ∧ (s.evr.posted = r :: rest) ∧ (t = { s with evr := { s.evr with posted := rest } }) ∧ (bit r.sevflags 3 = true)) ∧
    (∃ (s : State) (t : State) (b : ReadBack) (r : Record) (rest : List Record) (w : Nat) (x : Nat), (s.decikRuns = true) ∧ (s.evr.posted = r :: rest) ∧ (t = { s with evr := { s.evr with posted := rest } }) ∧ (bit r.sevflags 3 = false) ∧ (t.stormOf r.code = (w, x)) ∧ w < t.stormLimit) ∧
    (∃ (s : State) (t : State) (b : ReadBack) (r : Record) (rest : List Record) (w : Nat) (x : Nat), (s.decikRuns = true) ∧ (s.evr.posted = r :: rest) ∧ (t = { s with evr := { s.evr with posted := rest } }) ∧ (bit r.sevflags 3 = false) ∧ (t.stormOf r.code = (w, x)) ∧ (t.stormLimit ≤ w)) ∧
    (∃ (s : State) (w : Fin 3) (code : Nat) (i : Nat) (d : List Nat), (s.decikRuns = true)) ∧
    (∃ (s : State) (code : Nat) (i : Nat) (d : List Nat) (e : EvtCode), (s.decikRuns = false) ∧ (hardwareEvents.find? (fun x => x.code == code) = some e)) ∧
    (∃ (s : State) (t : State), (s.get PWR.STAT.STATE = 0) ∧ (s.evr.storm = []) ∧ (t = s.set EVR.OPTIME.SECONDS (satAdd 32 (s.get EVR.OPTIME.SECONDS) 1))) ∧
    (∃ (s : State) (t : State) (c : Nat) (n : Nat) (x : Nat), (s.get PWR.STAT.STATE = 0) ∧ (s.evr.storm = [(c, n, x + 1)]) ∧ (t = s.set EVR.OPTIME.SECONDS (satAdd 32 (s.get EVR.OPTIME.SECONDS) 1))) ∧
    (∃ (s : State), (s.get PWR.STAT.STATE = Pw.sleep)) ∧
    (∃ (s : State), (s.decikRuns = true)) ∧
    (∃ (s : State), (s.decikRuns = false)) :=
  ⟨⟨r0, .good, by decide +kernel⟩,
    ⟨(fun s : State => { s with evr := { s.evr with posted := [] } }) up, .good, by decide +kernel⟩,
    ⟨post { rec0 with sevflags := 8 }, _, .good, { rec0 with sevflags := 8 }, [], by decide +kernel, by decide +kernel, rfl, by decide +kernel⟩,
    ⟨post rec0, _, .good, rec0, [], 0, 0, by decide +kernel, by decide +kernel, rfl, by decide +kernel, by decide +kernel, by decide +kernel⟩,
    ⟨{ post rec0 with evr := { (post rec0).evr with storm := [(1, 1000, 0)] } }, _, .good, rec0, [], 1000, 0, by decide +kernel, by decide +kernel, rfl, by decide +kernel, by decide +kernel, by decide +kernel⟩,
    ⟨up, 0, 0, 0, [], by decide +kernel⟩,
    ⟨r0, Evt.PDW.code, 0, [], Evt.PDW, by decide +kernel, by decide +kernel⟩,
    ⟨(fun s : State => { s with evr := { s.evr with storm := [] } }) (up.set PWR.STAT.STATE (0)), _, by decide +kernel, by decide +kernel, rfl⟩,
    ⟨(fun s : State => { s with evr := { s.evr with storm := [(0, 0, 0 + 1)] } }) (up.set PWR.STAT.STATE (0)), _, 0, 0, 0, by decide +kernel, by decide +kernel, rfl⟩,
    ⟨up.set PWR.STAT.STATE (Pw.sleep), by decide +kernel⟩,
    ⟨up, by decide +kernel⟩,
    ⟨r0, by decide +kernel⟩⟩

theorem witness_SystemRequests :
    (∃ (s : State) (r : Request) (q : OpenReq) (d : List Nat), (s.passes cmdPing r = true) ∧ (q = s.asked r 0x0100) ∧ (d = r.payload)) ∧
    (∃ (s : State) (r : Request) (q : OpenReq) (d : List Nat), (s.passes cmdStateSummary r = true) ∧ (q = s.asked r 0x0101) ∧ (d = r.payload)) ∧
    (∃ (s : State) (r : Request) (q : OpenReq) (d : List Nat), (s.passes cmdReducedSummary r = true) ∧ (q = s.asked r 0x0102) ∧ (d = r.payload)) ∧
    (∃ (s : State) (r : Request) (q : OpenReq) (d : List Nat), (s.passes cmdGetIdentity r = true) ∧ (q = s.asked r 0x0103) ∧ (d = r.payload)) ∧
    (∃ (s : State) (r : Request) (q : OpenReq) (d : List Nat) (t : State) (p : Nat), (s.passes cmdGetTime r = true) ∧ (q = s.asked r 0x0104) ∧ (d = r.payload) ∧ (s.phaseNow = (p, t))) ∧
    (∃ (s : State) (r : Request) (q : OpenReq) (d : List Nat) (t : State) (p : Nat), (s.passes cmdSetRtc r = true) ∧ (q = s.asked r 0x0105) ∧ (d = r.payload) ∧ (s.phaseNow = (p, t))) ∧
    (∃ (s : State) (r : Request) (q : OpenReq) (d : List Nat), (s.passes cmdSetNoteLevel r = true) ∧ (q = s.asked r 0x0106) ∧ (d = r.payload) ∧ (fieldOf d 0 1 ≤ 7)) ∧
    (∃ (s : State) (r : Request) (q : OpenReq) (d : List Nat), (s.passes cmdSetNoteLevel r = true) ∧ (q = s.asked r 0x0106) ∧ (d = r.payload) ∧ 7 < fieldOf d 0 1) ∧
    (∃ (s₀ : State) (s : State) (r : Request) (q : OpenReq) (d : List Nat), (s₀.passes cmdServiceMode r = true) ∧ (s = s₀.opened cmdServiceMode r) ∧ (q = s₀.asked r 0x0107) ∧ (d = r.payload) ∧ fieldOf d 0 1 ≠ Mode.startUp ∧ (fieldOf d 0 1 ≤ 3)) ∧
    (∃ (s₀ : State) (s : State) (r : Request) (q : OpenReq) (d : List Nat), (s₀.passes cmdNodeReset r = true) ∧ (s = s₀.opened cmdNodeReset r) ∧ (q = s₀.asked r 0x0108) ∧ (d = r.payload) ∧ (fieldOf d 0 1 = 0)) ∧
    (∃ (s₀ : State) (s : State) (r : Request) (q : OpenReq) (d : List Nat), (s₀.passes cmdNodeReset r = true) ∧ (s = s₀.opened cmdNodeReset r) ∧ (q = s₀.asked r 0x0108) ∧ (d = r.payload) ∧ (fieldOf d 0 1 = 1)) ∧
    (∃ (s₀ : State) (s : State) (r : Request) (q : OpenReq) (d : List Nat), (s₀.passes cmdNodeReset r = true) ∧ (s = s₀.opened cmdNodeReset r) ∧ (q = s₀.asked r 0x0108) ∧ (d = r.payload) ∧ (2 ≤ fieldOf d 0 1)) ∧
    (∃ (s : State) (r : Request) (q : OpenReq) (d : List Nat) (us : List Nat), (s.passes cmdUnitGet r = true) ∧ (q = s.asked r 0x0109) ∧ (d = r.payload) ∧ (fieldOf d 0 1 ≤ 11) ∧ (us = allUnits.filter (fun id => fieldOf d 0 1 == 0 || unitClass id == fieldOf d 0 1))) ∧
    (∃ (s : State) (r : Request) (q : OpenReq) (d : List Nat) (id : Nat) (w : When), (s.passes cmdUnitEnable r = true) ∧ (q = s.asked r 0x010A) ∧ (d = r.payload) ∧ (id = fieldOf d 0 4) ∧ (unitNamed id = true) ∧ (s.etick (fieldOf d 4 4) = some w) ∧ (s.unitHeld id = false) ∧ ((s.unit id).enableAnswer = none)) ∧
    (∃ (s : State) (r : Request) (q : OpenReq) (d : List Nat) (id : Nat) (w : When), (s.passes cmdUnitDisable r = true) ∧ (q = s.asked r 0x010B) ∧ (d = r.payload) ∧ (id = fieldOf d 0 4) ∧ (unitNamed id = true) ∧ (s.etick (fieldOf d 4 4) = some w) ∧ (s.unitHeld id = false) ∧ (s.unit id).mgmt ≠ Mgmt.disabled) ∧
    (∃ (s : State) (r : Request) (q : OpenReq) (d : List Nat) (id : Nat) (w : When), (s.passes cmdUnitDisable r = true) ∧ (q = s.asked r 0x010B) ∧ (d = r.payload) ∧ (id = fieldOf d 0 4) ∧ (unitNamed id = true) ∧ (s.etick (fieldOf d 4 4) = some w) ∧ (s.unitHeld id = false) ∧ ((s.unit id).mgmt = Mgmt.disabled)) :=
  ⟨⟨up, rq [], _, _, by decide +kernel, rfl, rfl⟩,
    ⟨up, rq [], _, _, by decide +kernel, rfl, rfl⟩,
    ⟨up, rq [], _, _, by decide +kernel, rfl, rfl⟩,
    ⟨up, rq [], _, _, by decide +kernel, rfl, rfl⟩,
    ⟨up, rq [], _, _, _, _, by decide +kernel, rfl, rfl, rfl⟩,
    ⟨up, rq [0, 0, 0, 0, 0, 0, 0, 0], _, _, _, _, by decide +kernel, rfl, rfl, rfl⟩,
    ⟨up, rq [7, 0, 0, 0], _, _, by decide +kernel, rfl, rfl, by decide +kernel⟩,
    ⟨up, rq [8, 0, 0, 0], _, _, by decide +kernel, rfl, rfl, by decide +kernel⟩,
    ⟨challenged (up), trusted (challenged (up)), signed (challenged (up)) cmdServiceMode.opcode [3, 0, 0, 0], _, [3, 0, 0, 0], (signed_ok cmdServiceMode (challenged (up)) ([3, 0, 0, 0]) (by decide +kernel)).1, (signed_ok cmdServiceMode (challenged (up)) ([3, 0, 0, 0]) (by decide +kernel)).2.1.symm, rfl, (signed_ok cmdServiceMode (challenged (up)) ([3, 0, 0, 0]) (by decide +kernel)).2.2.symm, by decide +kernel, by decide +kernel⟩,
    ⟨challenged (up), trusted (challenged (up)), signed (challenged (up)) cmdNodeReset.opcode [0, 0, 0, 0], _, [0, 0, 0, 0], (signed_ok cmdNodeReset (challenged (up)) ([0, 0, 0, 0]) (by decide +kernel)).1, (signed_ok cmdNodeReset (challenged (up)) ([0, 0, 0, 0]) (by decide +kernel)).2.1.symm, rfl, (signed_ok cmdNodeReset (challenged (up)) ([0, 0, 0, 0]) (by decide +kernel)).2.2.symm, by decide +kernel⟩,
    ⟨challenged (up), trusted (challenged (up)), signed (challenged (up)) cmdNodeReset.opcode [1, 0, 0, 0], _, [1, 0, 0, 0], (signed_ok cmdNodeReset (challenged (up)) ([1, 0, 0, 0]) (by decide +kernel)).1, (signed_ok cmdNodeReset (challenged (up)) ([1, 0, 0, 0]) (by decide +kernel)).2.1.symm, rfl, (signed_ok cmdNodeReset (challenged (up)) ([1, 0, 0, 0]) (by decide +kernel)).2.2.symm, by decide +kernel⟩,
    ⟨challenged (up), trusted (challenged (up)), signed (challenged (up)) cmdNodeReset.opcode [2, 0, 0, 0], _, [2, 0, 0, 0], (signed_ok cmdNodeReset (challenged (up)) ([2, 0, 0, 0]) (by decide +kernel)).1, (signed_ok cmdNodeReset (challenged (up)) ([2, 0, 0, 0]) (by decide +kernel)).2.1.symm, rfl, (signed_ok cmdNodeReset (challenged (up)) ([2, 0, 0, 0]) (by decide +kernel)).2.2.symm, by decide +kernel⟩,
    ⟨up, rq [11, 0, 0, 0], _, _, _, by decide +kernel, rfl, rfl, by decide +kernel, rfl⟩,
    ⟨up, rq [0, 0, 0, 2, 0, 0, 0, 0], _, _, _, ⟨0, some 49⟩, by decide +kernel, rfl, rfl, rfl, by decide +kernel, by decide +kernel, by decide +kernel, by decide +kernel⟩,
    ⟨tdm (unit0 Mgmt.enabled Dp.running) true, rq [0, 0, 0, 2, 0, 0, 0, 0], _, _, _, ⟨0, some 49⟩, by decide +kernel, rfl, rfl, rfl, by decide +kernel, by decide +kernel, by decide +kernel, by decide +kernel⟩,
    ⟨up, rq [0, 0, 0, 2, 0, 0, 0, 0], _, _, _, ⟨0, some 49⟩, by decide +kernel, rfl, rfl, rfl, by decide +kernel, by decide +kernel, by decide +kernel, by decide +kernel⟩⟩

theorem witness_PowerRequests :
    (∃ (s : State) (r : Request) (q : OpenReq) (d : List Nat), (s.passes cmdPwrStatus r = true) ∧ (q = s.asked r 0x0901) ∧ (d = r.payload)) ∧
    (∃ (s₀ : State) (s : State) (r : Request) (q : OpenReq) (d : List Nat), (s₀.passes cmdPwrSetState r = true) ∧ (s = s₀.opened cmdPwrSetState r) ∧ (q = s₀.asked r 0x0902) ∧ (d = r.payload) ∧ (fieldOf d 0 1 = 0) ∧ fieldOf d 1 1 < 2 ∧ (s.pwrState = Pw.quiet)) ∧
    (∃ (s₀ : State) (s : State) (r : Request) (q : OpenReq) (d : List Nat), (s₀.passes cmdPwrSetState r = true) ∧ (s = s₀.opened cmdPwrSetState r) ∧ (q = s₀.asked r 0x0902) ∧ (d = r.payload) ∧ (fieldOf d 0 1 = 1) ∧ fieldOf d 1 1 < 2 ∧ (s.pwrState = Pw.active) ∧ (s.retainedFit (s.get PWR.CFG.QUIET_POINT) = true)) ∧
    (∃ (s₀ : State) (s : State) (r : Request) (q : OpenReq) (d : List Nat), (s₀.passes cmdPwrSetState r = true) ∧ (s = s₀.opened cmdPwrSetState r) ∧ (q = s₀.asked r 0x0902) ∧ (d = r.payload) ∧ (fieldOf d 0 1 = 1) ∧ fieldOf d 1 1 < 2 ∧ (s.pwrState = Pw.active) ∧ (s.retainedFit (s.get PWR.CFG.QUIET_POINT) = false)) ∧
    (∃ (s₀ : State) (s : State) (r : Request) (q : OpenReq) (d : List Nat), (s₀.passes cmdPwrSetState r = true) ∧ (s = s₀.opened cmdPwrSetState r) ∧ (q = s₀.asked r 0x0902) ∧ (d = r.payload) ∧ (fieldOf d 0 1 = 2 ∨ fieldOf d 0 1 = 3) ∧ fieldOf d 1 1 < 2) ∧
    (∃ (s : State) (r : Request) (q : OpenReq) (d : List Nat), (s.passes cmdPwrVote r = true) ∧ (q = s.asked r 0x0903) ∧ (d = r.payload) ∧ (between 1 11 (fieldOf d 0 1) = true) ∧ (fieldOf d 1 1 = 1)) ∧
    (∃ (s : State) (r : Request) (q : OpenReq) (d : List Nat), (s.passes cmdPwrVote r = true) ∧ (q = s.asked r 0x0903) ∧ (d = r.payload) ∧ (between 1 11 (fieldOf d 0 1) = true) ∧ (fieldOf d 1 1 = 0)) ∧
    (∃ (s : State) (r : Request) (q : OpenReq) (d : List Nat), (s.passes cmdPwrVote r = true) ∧ (q = s.asked r 0x0903) ∧ (d = r.payload) ∧ (between 1 11 (fieldOf d 0 1) = false)) ∧
    (∃ (s : State) (r : Request) (q : OpenReq) (d : List Nat), (s.passes cmdPwrPerf r = true) ∧ (q = s.asked r 0x0904) ∧ (d = r.payload) ∧ fieldOf d 0 1 < 3 ∧ (s.retainedFit (fieldOf d 0 1) = true)) ∧
    (∃ (s : State) (r : Request) (q : OpenReq) (d : List Nat), (s.passes cmdPwrPerf r = true) ∧ (q = s.asked r 0x0904) ∧ (d = r.payload) ∧ (3 ≤ fieldOf d 0 1)) ∧
    (∃ (s : State) (r : Request) (q : OpenReq) (d : List Nat) (t : State), (s.passes cmdPwrWakeCfg r = true) ∧ (q = s.asked r 0x0905) ∧ (d = r.payload) ∧ fieldOf d 2 1 < 8 ∧ ([4, 6, 8, 10].all (fun a => between 1 5000 (fieldOf d a 2)) = true) ∧ (t = (s.set PWR.WAKE_EN.EN (setBit (fieldOf d 0 2 / 2 % 2 ^ 10) 7)).set PWR.WAKE_CTRL.RETRIES (fieldOf d 2 1))) ∧
    (∃ (s : State) (r : Request) (q : OpenReq) (d : List Nat), (s.passes cmdPwrWakeCfg r = true) ∧ (q = s.asked r 0x0905) ∧ (d = r.payload) ∧ (8 ≤ fieldOf d 2 1)) ∧
    (∃ (s : State) (r : Request) (q : OpenReq) (d : List Nat), (s.passes cmdPwrResidency r = true) ∧ (q = s.asked r 0x0906) ∧ (d = r.payload)) ∧
    (∃ (s : State) (r : Request) (q : OpenReq) (d : List Nat), (s.passes cmdAwakeHold r = true) ∧ (q = s.asked r 0x0907) ∧ (d = r.payload) ∧ (between 1 127 (fieldOf d 0 1) = true) ∧ fieldOf d 1 1 < 2) ∧
    (∃ (s : State) (r : Request) (q : OpenReq) (d : List Nat), (s.passes cmdAwakeHold r = true) ∧ (q = s.asked r 0x0907) ∧ (d = r.payload) ∧ (between 1 127 (fieldOf d 0 1) = false)) ∧
    (∃ (s : State) (r : Request) (q : OpenReq) (d : List Nat) (hs : List Nat), (s.passes cmdNetSleepStatus r = true) ∧ (q = s.asked r 0x0908) ∧ (d = r.payload) ∧ (hs = s.holders)) :=
  ⟨⟨up, rq [], _, _, by decide +kernel, rfl, rfl⟩,
    ⟨challenged (up.set PWR.STAT.STATE Pw.quiet), trusted (challenged (up.set PWR.STAT.STATE Pw.quiet)), signed (challenged (up.set PWR.STAT.STATE Pw.quiet)) cmdPwrSetState.opcode [0, 1, 0, 0], _, [0, 1, 0, 0], (signed_ok cmdPwrSetState (challenged (up.set PWR.STAT.STATE Pw.quiet)) ([0, 1, 0, 0]) (by decide +kernel)).1, (signed_ok cmdPwrSetState (challenged (up.set PWR.STAT.STATE Pw.quiet)) ([0, 1, 0, 0]) (by decide +kernel)).2.1.symm, rfl, (signed_ok cmdPwrSetState (challenged (up.set PWR.STAT.STATE Pw.quiet)) ([0, 1, 0, 0]) (by decide +kernel)).2.2.symm, by decide +kernel, by decide +kernel, by decide +kernel⟩,
    ⟨challenged (up.set PWR.STAT.STATE Pw.active), trusted (challenged (up.set PWR.STAT.STATE Pw.active)), signed (challenged (up.set PWR.STAT.STATE Pw.active)) cmdPwrSetState.opcode [1, 1, 0, 0], _, [1, 1, 0, 0], (signed_ok cmdPwrSetState (challenged (up.set PWR.STAT.STATE Pw.active)) ([1, 1, 0, 0]) (by decide +kernel)).1, (signed_ok cmdPwrSetState (challenged (up.set PWR.STAT.STATE Pw.active)) ([1, 1, 0, 0]) (by decide +kernel)).2.1.symm, rfl, (signed_ok cmdPwrSetState (challenged (up.set PWR.STAT.STATE Pw.active)) ([1, 1, 0, 0]) (by decide +kernel)).2.2.symm, by decide +kernel, by decide +kernel, by decide +kernel, by decide +kernel⟩,
    ⟨challenged ({ up with jobs := [⟨0, 1000000, 0, true, [], true, false, false, false, 0, false⟩] }), trusted (challenged ({ up with jobs := [⟨0, 1000000, 0, true, [], true, false, false, false, 0, false⟩] })), signed (challenged ({ up with jobs := [⟨0, 1000000, 0, true, [], true, false, false, false, 0, false⟩] })) cmdPwrSetState.opcode [1, 1, 0, 0], _, [1, 1, 0, 0], (signed_ok cmdPwrSetState (challenged ({ up with jobs := [⟨0, 1000000, 0, true, [], true, false, false, false, 0, false⟩] })) ([1, 1, 0, 0]) (by decide +kernel)).1, (signed_ok cmdPwrSetState (challenged ({ up with jobs := [⟨0, 1000000, 0, true, [], true, false, false, false, 0, false⟩] })) ([1, 1, 0, 0]) (by decide +kernel)).2.1.symm, rfl, (signed_ok cmdPwrSetState (challenged ({ up with jobs := [⟨0, 1000000, 0, true, [], true, false, false, false, 0, false⟩] })) ([1, 1, 0, 0]) (by decide +kernel)).2.2.symm, by decide +kernel, by decide +kernel, by decide +kernel, by decide +kernel⟩,
    ⟨challenged (up), trusted (challenged (up)), signed (challenged (up)) cmdPwrSetState.opcode [3, 1, 0, 0], _, [3, 1, 0, 0], (signed_ok cmdPwrSetState (challenged (up)) ([3, 1, 0, 0]) (by decide +kernel)).1, (signed_ok cmdPwrSetState (challenged (up)) ([3, 1, 0, 0]) (by decide +kernel)).2.1.symm, rfl, (signed_ok cmdPwrSetState (challenged (up)) ([3, 1, 0, 0]) (by decide +kernel)).2.2.symm, by decide +kernel, by decide +kernel⟩,
    ⟨up, rq [11, 1, 0, 0], _, _, by decide +kernel, rfl, rfl, by decide +kernel, by decide +kernel⟩,
    ⟨up, rq [11, 0, 0, 0], _, _, by decide +kernel, rfl, rfl, by decide +kernel, by decide +kernel⟩,
    ⟨up, rq [12, 0, 0, 0], _, _, by decide +kernel, rfl, rfl, by decide +kernel⟩,
    ⟨up, rq [2, 0, 0, 0], _, _, by decide +kernel, rfl, rfl, by decide +kernel, by decide +kernel⟩,
    ⟨up, rq [3, 0, 0, 0], _, _, by decide +kernel, rfl, rfl, by decide +kernel⟩,
    ⟨up, rq [0, 0, 7, 0, 136, 19, 1, 0, 1, 0, 1, 0], _, _, _, by decide +kernel, rfl, rfl, by decide +kernel, by decide +kernel, rfl⟩,
    ⟨up, rq [0, 0, 8, 0, 0, 0, 0, 0, 0, 0, 0, 0], _, _, by decide +kernel, rfl, rfl, by decide +kernel⟩,
    ⟨up, rq [], _, _, by decide +kernel, rfl, rfl⟩,
    ⟨up, rq [127, 0, 0, 0], _, _, by decide +kernel, rfl, rfl, by decide +kernel, by decide +kernel⟩,
    ⟨up, rq [0, 0, 0, 0], _, _, by decide +kernel, rfl, rfl, by decide +kernel⟩,
    ⟨up, rq [], _, _, _, by decide +kernel, rfl, rfl, rfl⟩⟩

theorem witness_SecurityAndTestRequests :
    (∃ (s : State) (r : Request) (q : OpenReq) (d : List Nat), (s.passes cmdSecStatus r = true) ∧ (q = s.asked r 0x0A01) ∧ (d = r.payload)) ∧
    (∃ (s : State) (r : Request) (q : OpenReq) (d : List Nat) (n : List Nat) (t : State), (s.passes cmdAuthChallenge r = true) ∧ (q = s.asked r 0x0A02) ∧ (d = r.payload) ∧ (s.newChallenge q.ch q.uid = (n, t))) ∧
    (∃ (s₀ : State) (s : State) (r : Request) (q : OpenReq) (d : List Nat) (t : State), (s₀.passes cmdKeyReplace r = true) ∧ (s = s₀.opened cmdKeyReplace r) ∧ (q = s₀.asked r 0x0A03) ∧ (d = r.payload) ∧ fieldOf d 0 1 < 16 ∧ (maskOk (fieldOf d 0 1) (fieldOf d 1 1) = true) ∧ (fieldOf d 8 2 = keyBytes (fieldOf d 1 1) + 28) ∧ ((s.slot (fieldOf d 0 1)).cur = none) ∧ (versionLater (fieldOf d 2 2) 0 = true) ∧ (s.sec.op = none) ∧ (s.flag PWR.STAT.PDW = false) ∧ (t = { s with sec := { s.sec with op := some ⟨fieldOf d 0 1, fieldOf d 1 1, fieldOf d 2 2, d.drop 12, (d.drop 4).take 3⟩ } })) ∧
    (∃ (s₀ : State) (s : State) (r : Request) (q : OpenReq) (d : List Nat), (s₀.passes cmdKeyReplace r = true) ∧ (s = s₀.opened cmdKeyReplace r) ∧ (q = s₀.asked r 0x0A03) ∧ (d = r.payload) ∧ (16 ≤ fieldOf d 0 1)) ∧
    (∃ (s : State) (r : Request) (q : OpenReq) (d : List Nat), (s.passes cmdKeyKcv r = true) ∧ (q = s.asked r 0x0A04) ∧ (d = r.payload) ∧ (s.flag SEC.STAT.TAMPER = false) ∧ fieldOf d 0 1 < 16) ∧
    (∃ (s : State) (r : Request) (q : OpenReq) (d : List Nat), (s.passes cmdKeyKcv r = true) ∧ (q = s.asked r 0x0A04) ∧ (d = r.payload) ∧ (s.flag SEC.STAT.TAMPER = true)) ∧
    (∃ (s₀ : State) (s : State) (r : Request) (q : OpenReq) (d : List Nat) (c : Nat) (t : State), (s₀.passes cmdTamperClear r = true) ∧ (s = s₀.opened cmdTamperClear r) ∧ (q = s₀.asked r 0x0A05) ∧ (d = r.payload) ∧ (s.tamperClear = (c, t))) ∧
    (∃ (s : State) (r : Request) (q : OpenReq) (d : List Nat) (hs : List (List Nat)), (s.passes cmdGetMeasurement r = true) ∧ (q = s.asked r 0x0A06) ∧ (d = r.payload) ∧ (hs = s.sec.hashes.filter (fun h => !h.isEmpty))) ∧
    (∃ (s₀ : State) (s : State) (r : Request) (q : OpenReq) (d : List Nat), (s₀.passes cmdBistRun r = true) ∧ (s = s₀.opened cmdBistRun r) ∧ (q = s₀.asked r 0x0C01) ∧ (d = r.payload) ∧ (between 1 3 (fieldOf d 0 1) = true)) ∧
    (∃ (s₀ : State) (s : State) (r : Request) (q : OpenReq) (d : List Nat), (s₀.passes cmdBistRun r = true) ∧ (s = s₀.opened cmdBistRun r) ∧ (q = s₀.asked r 0x0C01) ∧ (d = r.payload) ∧ (between 1 3 (fieldOf d 0 1) = false)) ∧
    (∃ (s : State) (r : Request) (q : OpenReq) (d : List Nat), (s.passes cmdBistResult r = true) ∧ (q = s.asked r 0x0C02) ∧ (d = r.payload)) ∧
    (∃ (s : State) (r : Request) (q : OpenReq) (d : List Nat) (a : Nat) (n : Nat), (s.passes cmdStoreTest r = true) ∧ (q = s.asked r 0x0C03) ∧ (d = r.payload) ∧ (a = fieldOf d 0 4) ∧ (n = fieldOf d 4 4) ∧ (a % 4096 = 0) ∧ (n % 4096 = 0) ∧ n ≠ 0 ∧ (s.inHost a n = true) ∧ (s.storeTest = none)) ∧
    (∃ (s : State) (r : Request) (q : OpenReq) (d : List Nat), (s.passes cmdStoreTest r = true) ∧ (q = s.asked r 0x0C03) ∧ (d = r.payload) ∧ (fieldOf d 4 4 = 0)) ∧
    (∃ (s : State) (r : Request) (q : OpenReq) (d : List Nat), (s.passes cmdLaneTest r = true) ∧ (q = s.asked r 0x0C04) ∧ (d = r.payload) ∧ (laneNamed d = true) ∧ fieldOf d 2 1 < 4 ∧ (fieldOf d 0 1 = 0)) ∧
    (∃ (s : State) (r : Request) (q : OpenReq) (d : List Nat), (s.passes cmdLaneTest r = true) ∧ (q = s.asked r 0x0C04) ∧ (d = r.payload) ∧ (laneNamed d = true) ∧ fieldOf d 2 1 < 4 ∧ (fieldOf d 0 1 = 1)) ∧
    (∃ (s : State) (r : Request) (q : OpenReq) (d : List Nat), (s.passes cmdLaneTest r = true) ∧ (q = s.asked r 0x0C04) ∧ (d = r.payload) ∧ (laneNamed d = false)) ∧
    (∃ (s : State) (r : Request) (q : OpenReq) (d : List Nat) (n : Nat), (s.passes cmdLaneTestResult r = true) ∧ (q = s.asked r 0x0C05) ∧ (d = r.payload) ∧ (n = fieldOf d 1 1) ∧ (laneNamed d = true) ∧ (fieldOf d 0 1 = 0)) ∧
    (∃ (s : State) (r : Request) (q : OpenReq) (d : List Nat) (n : Nat), (s.passes cmdLaneTestResult r = true) ∧ (q = s.asked r 0x0C05) ∧ (d = r.payload) ∧ (n = fieldOf d 1 1) ∧ (laneNamed d = true) ∧ (fieldOf d 0 1 = 1)) :=
  ⟨⟨up, rq [], _, _, by decide +kernel, rfl, rfl⟩,
    ⟨up, rq [], _, _, _, _, by decide +kernel, rfl, rfl, rfl⟩,
    ⟨challenged (up), trusted (challenged (up)), signed (challenged (up)) cmdKeyReplace.opcode (replaceData), _, replaceData, _, (signed_ok cmdKeyReplace (challenged (up)) (replaceData) (by decide +kernel)).1, (signed_ok cmdKeyReplace (challenged (up)) (replaceData) (by decide +kernel)).2.1.symm, rfl, (signed_ok cmdKeyReplace (challenged (up)) (replaceData) (by decide +kernel)).2.2.symm, by decide +kernel, by decide +kernel, by decide +kernel, by decide +kernel, by decide +kernel, by decide +kernel, by decide +kernel, rfl⟩,
    ⟨challenged (up), trusted (challenged (up)), signed (challenged (up)) cmdKeyReplace.opcode [16, 0, 0, 0, 0, 0, 0, 0, 0, 0, 0, 0], _, [16, 0, 0, 0, 0, 0, 0, 0, 0, 0, 0, 0], (signed_ok cmdKeyReplace (challenged (up)) ([16, 0, 0, 0, 0, 0, 0, 0, 0, 0, 0, 0]) (by decide +kernel)).1, (signed_ok cmdKeyReplace (challenged (up)) ([16, 0, 0, 0, 0, 0, 0, 0, 0, 0, 0, 0]) (by decide +kernel)).2.1.symm, rfl, (signed_ok cmdKeyReplace (challenged (up)) ([16, 0, 0, 0, 0, 0, 0, 0, 0, 0, 0, 0]) (by decide +kernel)).2.2.symm, by decide +kernel⟩,
    ⟨up.setFlag SEC.STAT.TAMPER false, rq [0, 0, 0, 0], _, _, by decide +kernel, rfl, rfl, by decide +kernel, by decide +kernel⟩,
    ⟨up.setFlag SEC.STAT.TAMPER true, rq [0, 0, 0, 0], _, _, by decide +kernel, rfl, rfl, by decide +kernel⟩,
    ⟨challenged (up.setFlag SEC.STAT.TAMPER true), trusted (challenged (up.setFlag SEC.STAT.TAMPER true)), signed (challenged (up.setFlag SEC.STAT.TAMPER true)) cmdTamperClear.opcode [], _, [], _, _, (signed_ok cmdTamperClear (challenged (up.setFlag SEC.STAT.TAMPER true)) ([]) (by decide +kernel)).1, (signed_ok cmdTamperClear (challenged (up.setFlag SEC.STAT.TAMPER true)) ([]) (by decide +kernel)).2.1.symm, rfl, (signed_ok cmdTamperClear (challenged (up.setFlag SEC.STAT.TAMPER true)) ([]) (by decide +kernel)).2.2.symm, rfl⟩,
    ⟨up, rq [], _, _, _, by decide +kernel, rfl, rfl, rfl⟩,
    ⟨challenged (testUp), trusted (challenged (testUp)), signed (challenged (testUp)) cmdBistRun.opcode [3, 0, 0, 0], _, [3, 0, 0, 0], (signed_ok cmdBistRun (challenged (testUp)) ([3, 0, 0, 0]) (by decide +kernel)).1, (signed_ok cmdBistRun (challenged (testUp)) ([3, 0, 0, 0]) (by decide +kernel)).2.1.symm, rfl, (signed_ok cmdBistRun (challenged (testUp)) ([3, 0, 0, 0]) (by decide +kernel)).2.2.symm, by decide +kernel⟩,
    ⟨challenged (testUp), trusted (challenged (testUp)), signed (challenged (testUp)) cmdBistRun.opcode [4, 0, 0, 0], _, [4, 0, 0, 0], (signed_ok cmdBistRun (challenged (testUp)) ([4, 0, 0, 0]) (by decide +kernel)).1, (signed_ok cmdBistRun (challenged (testUp)) ([4, 0, 0, 0]) (by decide +kernel)).2.1.symm, rfl, (signed_ok cmdBistRun (challenged (testUp)) ([4, 0, 0, 0]) (by decide +kernel)).2.2.symm, by decide +kernel⟩,
    ⟨up, rq [], _, _, by decide +kernel, rfl, rfl⟩,
    ⟨{ testUp with mem := { testUp.mem with regions := [⟨0xF, 4, false, 0⟩] } }, rq [0, 0, 0, 0, 0, 16, 0, 0], _, _, _, _, by decide +kernel, rfl, rfl, rfl, rfl, by decide +kernel, by decide +kernel, by decide +kernel, by decide +kernel, by decide +kernel⟩,
    ⟨testUp, rq [0, 0, 0, 0, 0, 0, 0, 0], _, _, by decide +kernel, rfl, rfl, by decide +kernel⟩,
    ⟨testUp, rq [0, 3, 3, 0], _, _, by decide +kernel, rfl, rfl, by decide +kernel, by decide +kernel, by decide +kernel⟩,
    ⟨testUp, rq [1, 1, 3, 0], _, _, by decide +kernel, rfl, rfl, by decide +kernel, by decide +kernel, by decide +kernel⟩,
    ⟨testUp, rq [1, 2, 0, 0], _, _, by decide +kernel, rfl, rfl, by decide +kernel⟩,
    ⟨up, rq [0, 3, 0, 0], _, _, _, by decide +kernel, rfl, rfl, rfl, by decide +kernel, by decide +kernel⟩,
    ⟨up, rq [1, 1, 0, 0], _, _, _, by decide +kernel, rfl, rfl, rfl, by decide +kernel, by decide +kernel⟩⟩

theorem witness_RecorderRequests :
    (∃ (s : State) (r : Request) (q : OpenReq) (d : List Nat), (s.passes cmdEvrStatus r = true) ∧ (q = s.asked r 0x0B01) ∧ (d = r.payload)) ∧
    (∃ (s : State) (r : Request) (q : OpenReq) (d : List Nat) (l : List Record) (x : Record) (rest : List Record), (s.passes cmdEvrRead r = true) ∧ (q = s.asked r 0x0B02) ∧ (d = r.payload) ∧ (between 1 (if q.ch = 2 then 111 else 127) (fieldOf d 4 1) = true) ∧ (l = (s.readable.filter (fun (y : Record) => y.seq == fieldOf d 0 4 || seqLater y.seq (fieldOf d 0 4))).take (fieldOf d 4 1)) ∧ (l = x :: rest)) ∧
    (∃ (s : State) (r : Request) (q : OpenReq) (d : List Nat), (s.passes cmdEvrRead r = true) ∧ (q = s.asked r 0x0B02) ∧ (d = r.payload) ∧ (s.readable = []) ∧ (between 1 111 (fieldOf d 4 1) = true)) ∧
    (∃ (s : State) (r : Request) (q : OpenReq) (d : List Nat), (s.passes cmdEvrRead r = true) ∧ (q = s.asked r 0x0B02) ∧ (d = r.payload) ∧ (fieldOf d 4 1 = 0)) ∧
    (∃ (s₀ : State) (s : State) (r : Request) (q : OpenReq) (d : List Nat) (n : Nat) (t : State), (s₀.passes cmdEvrClear r = true) ∧ (s = s₀.opened cmdEvrClear r) ∧ (q = s₀.asked r 0x0B03) ∧ (d = r.payload) ∧ (s.evr.degraded = false) ∧ (s.clearRecorder q.ch = (n, t))) ∧
    (∃ (s₀ : State) (s : State) (r : Request) (q : OpenReq) (d : List Nat), (s₀.passes cmdEvrClear r = true) ∧ (s = s₀.opened cmdEvrClear r) ∧ (q = s₀.asked r 0x0B03) ∧ (d = r.payload) ∧ (s.evr.degraded = true)) ∧
    (∃ (s : State) (r : Request) (q : OpenReq) (d : List Nat), (s.passes cmdEvrPendingRead r = true) ∧ (q = s.asked r 0x0B04) ∧ (d = r.payload)) :=
  ⟨⟨up, rq [], _, _, by decide +kernel, rfl, rfl⟩,
    ⟨recorded, rq [0, 0, 0, 0, 127, 0, 0, 0], _, _, _, rec0, [], by decide +kernel, rfl, rfl, by decide +kernel, rfl, by decide +kernel⟩,
    ⟨up, rq [0, 0, 0, 0, 111, 0, 0, 0], _, _, by decide +kernel, rfl, rfl, by decide +kernel, by decide +kernel⟩,
    ⟨up, rq [0, 0, 0, 0, 0, 0, 0, 0], _, _, by decide +kernel, rfl, rfl, by decide +kernel⟩,
    ⟨challenged (up), trusted (challenged (up)), signed (challenged (up)) cmdEvrClear.opcode [], _, [], _, _, (signed_ok cmdEvrClear (challenged (up)) ([]) (by decide +kernel)).1, (signed_ok cmdEvrClear (challenged (up)) ([]) (by decide +kernel)).2.1.symm, rfl, (signed_ok cmdEvrClear (challenged (up)) ([]) (by decide +kernel)).2.2.symm, by decide +kernel, Prod.ext rfl rfl⟩,
    ⟨challenged ({ up with evr := { up.evr with degraded := true } }), trusted (challenged ({ up with evr := { up.evr with degraded := true } })), signed (challenged ({ up with evr := { up.evr with degraded := true } })) cmdEvrClear.opcode [], _, [], (signed_ok cmdEvrClear (challenged ({ up with evr := { up.evr with degraded := true } })) ([]) (by decide +kernel)).1, (signed_ok cmdEvrClear (challenged ({ up with evr := { up.evr with degraded := true } })) ([]) (by decide +kernel)).2.1.symm, rfl, (signed_ok cmdEvrClear (challenged ({ up with evr := { up.evr with degraded := true } })) ([]) (by decide +kernel)).2.2.symm, by decide +kernel⟩,
    ⟨up, rq [], _, _, by decide +kernel, rfl, rfl⟩⟩

theorem witness_ConfigurationRequests :
    (∃ (s : State) (r : Request) (q : OpenReq) (d : List Nat) (t : State), (s.passes cmdCfgLoad r = true) ∧ (q = s.asked r 0x0201) ∧ (d = r.payload) ∧ (fieldOf d 0 4 ≤ 98304) ∧ (s.configWritable = true) ∧ (s.takeFragment q.ch 0x0201 d = (.more, t))) ∧
    (∃ (s : State) (r : Request) (q : OpenReq) (d : List Nat) (t : State) (u : State) (b : List Nat) (st : Nat), (s.passes cmdCfgLoad r = true) ∧ (q = s.asked r 0x0201) ∧ (d = r.payload) ∧ (fieldOf d 0 4 ≤ 98304) ∧ (s.configWritable = true) ∧ (s.takeFragment q.ch 0x0201 d = (.whole b, t)) ∧ (t.imageLoaded b = (st, u))) ∧
    (∃ (s : State) (r : Request) (q : OpenReq) (d : List Nat) (t : State), (s.passes cmdCfgLoad r = true) ∧ (q = s.asked r 0x0201) ∧ (d = r.payload) ∧ (fieldOf d 0 4 ≤ 98304) ∧ (s.configWritable = true) ∧ (s.takeFragment q.ch 0x0201 d = (.bad, t))) ∧
    (∃ (s : State) (r : Request) (q : OpenReq) (d : List Nat), (s.passes cmdCfgLoad r = true) ∧ (q = s.asked r 0x0201) ∧ (d = r.payload) ∧ 98304 < fieldOf d 0 4) ∧
    (∃ (s : State) (r : Request) (q : OpenReq) (d : List Nat), (s.passes cmdCfgApply r = true) ∧ (q = s.asked r 0x0202) ∧ (d = r.payload) ∧ (s.commitTick (fieldOf d 0 4) = none)) ∧
    (∃ (s : State) (r : Request) (q : OpenReq) (d : List Nat), (s.passes cmdCfgConfirm r = true) ∧ (q = s.asked r 0x0203) ∧ (d = r.payload) ∧ (s.flag PWR.STAT.PDW = false)) ∧
    (∃ (s : State) (r : Request) (q : OpenReq) (d : List Nat), (s.passes cmdCfgConfirm r = true) ∧ (q = s.asked r 0x0203) ∧ (d = r.payload) ∧ (s.flag PWR.STAT.PDW = true)) ∧
    (∃ (s : State) (r : Request) (q : OpenReq) (d : List Nat) (w : When), (s.passes cmdCfgRollback r = true) ∧ (q = s.asked r 0x0204) ∧ (d = r.payload) ∧ (s.commitTick (fieldOf d 0 4) = some w) ∧ (s.flag PWR.STAT.PDW = false) ∧ s.cfg.state ≠ CfgState.pending) ∧
    (∃ (s : State) (r : Request) (q : OpenReq) (d : List Nat) (w : When), (s.passes cmdCfgRollback r = true) ∧ (q = s.asked r 0x0204) ∧ (d = r.payload) ∧ (s.commitTick (fieldOf d 0 4) = some w) ∧ (s.flag PWR.STAT.PDW = false) ∧ (s.cfg.state = CfgState.pending)) ∧
    (∃ (s : State) (r : Request) (q : OpenReq) (d : List Nat), (s.passes cmdCfgStatus r = true) ∧ (q = s.asked r 0x0205) ∧ (d = r.payload)) ∧
    (∃ (s : State) (r : Request) (q : OpenReq) (d : List Nat) (k : Nat) (off : Nat) (n : Nat), (s.passes cmdCfgRead r = true) ∧ (q = s.asked r 0x0206) ∧ (d = r.payload) ∧ (k = fieldOf d 0 1) ∧ (off = fieldOf d 4 4) ∧ (n = fieldOf d 8 2) ∧ (k ≤ 1) ∧ (s.cfg.slot k).state ≠ Slot.empty ∧ (1 ≤ n) ∧ (n ≤ 4064) ∧ (off + n ≤ (s.cfg.slot k).bytes.length)) ∧
    (∃ (s : State) (r : Request) (q : OpenReq) (d : List Nat), (s.passes cmdCfgRead r = true) ∧ (q = s.asked r 0x0206) ∧ (d = r.payload) ∧ 1 < fieldOf d 0 1) ∧
    (∃ (s : State) (r : Request) (q : OpenReq) (d : List Nat) (t : State), (s.passes cmdCfgDiscard r = true) ∧ (q = s.asked r 0x0207) ∧ (d = r.payload) ∧ (t = State.showCfg { s with cfg := { s.cfg with loaded := none } })) :=
  ⟨⟨up, rq [4, 0, 0, 0, 0, 0, 0, 0, 2, 0, 1, 0, 0, 0, 0, 0, 0, 0], _, _, _, by decide +kernel, rfl, rfl, by decide +kernel, by decide +kernel, Prod.ext (by decide +kernel) rfl⟩,
    ⟨up, rq [2, 0, 0, 0, 0, 0, 0, 0, 2, 0, 3, 0, 0, 0, 0, 0, 0, 0], _, _, _, _, [0, 0], _, by decide +kernel, rfl, rfl, by decide +kernel, by decide +kernel, Prod.ext (by decide +kernel) rfl, rfl⟩,
    ⟨up, rq (List.replicate 16 0), _, _, _, by decide +kernel, rfl, rfl, by decide +kernel, by decide +kernel, Prod.ext (by decide +kernel) rfl⟩,
    ⟨up, rq [1, 128, 1, 0, 0, 0, 0, 0, 0, 0, 0, 0, 0, 0, 0, 0], _, _, by decide +kernel, rfl, rfl, by decide +kernel⟩,
    ⟨{ up with cfg := { up.cfg with loaded := some [] } }, rq [1, 0, 0, 0, 0, 0, 0, 0], _, _, by decide +kernel, rfl, rfl, by decide +kernel⟩,
    ⟨{ up.setFlag PWR.STAT.PDW false with cfg := { up.cfg with trial := true } }, rq [], _, _, by decide +kernel, rfl, rfl, by decide +kernel⟩,
    ⟨{ up.setFlag PWR.STAT.PDW true with cfg := { up.cfg with trial := true } }, rq [], _, _, by decide +kernel, rfl, rfl, by decide +kernel⟩,
    ⟨{ up.setFlag PWR.STAT.PDW false with cfg := { up.cfg with slots := [⟨[], 1, Slot.active⟩, ⟨[], 2, Slot.previous⟩] } }, rq [0, 0, 0, 0], _, _, ⟨0, some 4800⟩, by decide +kernel, rfl, rfl, by decide +kernel, by decide +kernel, by decide +kernel⟩,
    ⟨{ up.setFlag PWR.STAT.PDW false with cfg := { up.cfg with slots := [⟨[], 1, Slot.active⟩, ⟨[], 2, Slot.pend⟩] } }, rq [0, 0, 0, 0], _, _, ⟨0, some 4800⟩, by decide +kernel, rfl, rfl, by decide +kernel, by decide +kernel, by decide +kernel⟩,
    ⟨up, rq [], _, _, by decide +kernel, rfl, rfl⟩,
    ⟨{ up with cfg := { up.cfg with slots := [⟨[0, 0], 1, Slot.active⟩] } }, rq [0, 0, 0, 0, 0, 0, 0, 0, 1, 0, 0, 0], _, _, _, _, _, by decide +kernel, rfl, rfl, rfl, rfl, rfl, by decide +kernel, by decide +kernel, by decide +kernel, by decide +kernel, by decide +kernel⟩,
    ⟨up, rq [2, 0, 0, 0, 0, 0, 0, 0, 0, 0, 0, 0], _, _, by decide +kernel, rfl, rfl, by decide +kernel⟩,
    ⟨{ up with cfg := { up.cfg with loaded := some [] } }, rq [], _, _, _, by decide +kernel, rfl, rfl, rfl⟩⟩

theorem witness_RingAndRedundancyRequests :
    (∃ (s : State) (r : Request) (q : OpenReq) (d : List Nat), (s.passes cmdRingStatus r = true) ∧ (q = s.asked r 0x0301) ∧ (d = r.payload)) ∧
    (∃ (s : State) (r : Request) (q : OpenReq) (d : List Nat) (l : Layout) (n : Nat), (s.passes cmdRingGetLayout r = true) ∧ (q = s.asked r 0x0302) ∧ (d = r.payload) ∧ (s.layout? = some l) ∧ (n = fieldOf d 2 2) ∧ (1 ≤ n) ∧ (n ≤ 4064) ∧ (fieldOf d 0 2 + n ≤ 4096)) ∧
    (∃ (s : State) (r : Request) (q : OpenReq) (d : List Nat) (l : Layout), (s.passes cmdRingGetLayout r = true) ∧ (q = s.asked r 0x0302) ∧ (d = r.payload) ∧ (s.layout? = some l) ∧ (fieldOf d 2 2 = 0)) ∧
    (∃ (s : State) (r : Request) (q : OpenReq) (d : List Nat) (n : Nat), (s.passes cmdRingRenumber r = true) ∧ (q = s.asked r 0x0303) ∧ (d = r.payload) ∧ (n = s.totalOf RING.INAUG_CNT.ABANDONED)) ∧
    (∃ (s₀ : State) (s : State) (r : Request) (q : OpenReq) (d : List Nat) (x : PartnerRec) (t : State), (s₀.passes cmdRingMerge r = true) ∧ (s = s₀.opened cmdRingMerge r) ∧ (q = s₀.asked r 0x0304) ∧ (d = r.payload) ∧ (s.isMaster = true) ∧ (fieldOf d 0 1 ≤ 3) ∧ (s.runningPartner (fieldOf d 0 1) = some x) ∧ (t = s.set RING.MERGE_STAT.RESULT 0)) ∧
    (∃ (s₀ : State) (s : State) (r : Request) (q : OpenReq) (d : List Nat), (s₀.passes cmdRingMerge r = true) ∧ (s = s₀.opened cmdRingMerge r) ∧ (q = s₀.asked r 0x0304) ∧ (d = r.payload) ∧ (s.isMaster = false)) ∧
    (∃ (s₀ : State) (s : State) (r : Request) (q : OpenReq) (d : List Nat), (s₀.passes cmdRingSetRank r = true) ∧ (s = s₀.opened cmdRingSetRank r) ∧ (q = s₀.asked r 0x0305) ∧ (d = r.payload) ∧ (fieldOf d 0 1 ≤ 15)) ∧
    (∃ (s₀ : State) (s : State) (r : Request) (q : OpenReq) (d : List Nat), (s₀.passes cmdRingSetRank r = true) ∧ (s = s₀.opened cmdRingSetRank r) ∧ (q = s₀.asked r 0x0305) ∧ (d = r.payload) ∧ 15 < fieldOf d 0 1) ∧
    (∃ (s₀ : State) (s : State) (r : Request) (q : OpenReq) (d : List Nat), (s₀.passes cmdRingLinkCtrl r = true) ∧ (s = s₀.opened cmdRingLinkCtrl r) ∧ (q = s₀.asked r 0x0306) ∧ (d = r.payload) ∧ (fieldOf d 0 1 ≤ 3) ∧ (fieldOf d 1 1 = 0)) ∧
    (∃ (s₀ : State) (s : State) (r : Request) (q : OpenReq) (d : List Nat), (s₀.passes cmdRingLinkCtrl r = true) ∧ (s = s₀.opened cmdRingLinkCtrl r) ∧ (q = s₀.asked r 0x0306) ∧ (d = r.payload) ∧ (fieldOf d 0 1 ≤ 3) ∧ (fieldOf d 1 1 = 1)) ∧
    (∃ (s₀ : State) (s : State) (r : Request) (q : OpenReq) (d : List Nat), (s₀.passes cmdRingLinkCtrl r = true) ∧ (s = s₀.opened cmdRingLinkCtrl r) ∧ (q = s₀.asked r 0x0306) ∧ (d = r.payload) ∧ (fieldOf d 0 1 ≤ 3) ∧ (fieldOf d 1 1 = 2)) ∧
    (∃ (s₀ : State) (s : State) (r : Request) (q : OpenReq) (d : List Nat), (s₀.passes cmdRingLinkCtrl r = true) ∧ (s = s₀.opened cmdRingLinkCtrl r) ∧ (q = s₀.asked r 0x0306) ∧ (d = r.payload) ∧ 3 < fieldOf d 0 1) ∧
    (∃ (s : State) (r : Request) (q : OpenReq) (d : List Nat), (s.passes cmdRingSetParam r = true) ∧ (q = s.asked r 0x0307) ∧ (d = r.payload) ∧ (between 10 1000 (fieldOf d 0 2) = true) ∧ (between 16 128 (fieldOf d 2 1) = true)) ∧
    (∃ (s : State) (r : Request) (q : OpenReq) (d : List Nat), (s.passes cmdRingSetParam r = true) ∧ (q = s.asked r 0x0307) ∧ (d = r.payload) ∧ (fieldOf d 0 2 = 0) ∧ (fieldOf d 2 1 = 0)) ∧
    (∃ (s : State) (r : Request) (q : OpenReq) (d : List Nat), (s.passes cmdRingSetParam r = true) ∧ (q = s.asked r 0x0307) ∧ (d = r.payload) ∧ 1000 < fieldOf d 0 2) ∧
    (∃ (s : State) (r : Request) (q : OpenReq) (d : List Nat), (s.passes cmdSyncStatus r = true) ∧ (q = s.asked r 0x0308) ∧ (d = r.payload)) ∧
    (∃ (s : State) (r : Request) (q : OpenReq) (d : List Nat), (s.passes cmdRedStatus r = true) ∧ (q = s.asked r 0x0D01) ∧ (d = r.payload)) ∧
    (∃ (s : State) (r : Request) (q : OpenReq) (d : List Nat) (p : Nat) (l : Layout) (m : Layout) (t : State) (u : State), (s.passes cmdMasterHandover r = true) ∧ (q = s.asked r 0x0D02) ∧ (d = r.payload) ∧ (s.isMaster = true) ∧ (s.handoverTarget (fieldOf d 0 8) = some p) ∧ (s.layout? = some l) ∧ (m = l.handover p s.newLayout ((s.ring.followEpoch + 1) % 2 ^ 16)) ∧ (t = { s with red := { s.red with handover := some (BitVec.ofNat 64 (fieldOf d 0 8)) } }) ∧ (u = (((t.set RING.PEND.NEW_TOPO m.topo).set RING.PEND.NEW_LAYOUT m.version).toPhase Phase.distribute).sendLayout m)) ∧
    (∃ (s : State) (r : Request) (q : OpenReq) (d : List Nat), (s.passes cmdMasterHandover r = true) ∧ (q = s.asked r 0x0D02) ∧ (d = r.payload) ∧ (s.isMaster = false)) ∧
    (∃ (s : State) (r : Request) (q : OpenReq) (d : List Nat), (s.passes cmdMasterHandover r = true) ∧ (q = s.asked r 0x0D02) ∧ (d = r.payload) ∧ (s.isMaster = true) ∧ (s.handoverTarget (fieldOf d 0 8) = none)) ∧
    (∃ (s : State) (r : Request) (q : OpenReq) (d : List Nat), (s.passes cmdTwinResync r = true) ∧ (q = s.asked r 0x0D03) ∧ (d = r.payload)) ∧
    (∃ (s : State) (r : Request) (q : OpenReq) (d : List Nat), (s.passes cmdStackStatus r = true) ∧ (q = s.asked r 0x0D04) ∧ (d = r.payload)) ∧
    (∃ (s₀ : State) (s : State) (r : Request) (q : OpenReq) (d : List Nat) (m : Nat), (s₀.passes cmdStackMemberReset r = true) ∧ (s = s₀.opened cmdStackMemberReset r) ∧ (q = s₀.asked r 0x0D05) ∧ (d = r.payload) ∧ (m = fieldOf d 0 1) ∧ (1 ≤ m) ∧ (m ≤ 3) ∧ (s.flag (STK.MEMBER_STAT.PRESENT m) = true)) ∧
    (∃ (s₀ : State) (s : State) (r : Request) (q : OpenReq) (d : List Nat), (s₀.passes cmdStackMemberReset r = true) ∧ (s = s₀.opened cmdStackMemberReset r) ∧ (q = s₀.asked r 0x0D05) ∧ (d = r.payload) ∧ (fieldOf d 0 1 = 0)) :=
  ⟨⟨up, rq [], _, _, by decide +kernel, rfl, rfl⟩,
    ⟨ringUp, rq [0, 0, 1, 0], _, _, lay, _, by decide +kernel, rfl, rfl, by decide +kernel, rfl, by decide +kernel, by decide +kernel, by decide +kernel⟩,
    ⟨ringUp, rq [0, 0, 0, 0], _, _, lay, by decide +kernel, rfl, rfl, by decide +kernel, by decide +kernel⟩,
    ⟨up.set RING.ENG_STAT.ROLE 1, rq [], _, _, _, by decide +kernel, rfl, rfl, rfl⟩,
    ⟨challenged (inaug (masterUp.set (RING.LINKSTAT.STATE (linkIx 0)) Lk.qualified) (fun x => { x with partners := [(0, partner)] })), trusted (challenged (inaug (masterUp.set (RING.LINKSTAT.STATE (linkIx 0)) Lk.qualified) (fun x => { x with partners := [(0, partner)] }))), signed (challenged (inaug (masterUp.set (RING.LINKSTAT.STATE (linkIx 0)) Lk.qualified) (fun x => { x with partners := [(0, partner)] }))) cmdRingMerge.opcode [0, 0, 0, 0], _, [0, 0, 0, 0], partner, _, (signed_ok cmdRingMerge (challenged (inaug (masterUp.set (RING.LINKSTAT.STATE (linkIx 0)) Lk.qualified) (fun x => { x with partners := [(0, partner)] }))) ([0, 0, 0, 0]) (by decide +kernel)).1, (signed_ok cmdRingMerge (challenged (inaug (masterUp.set (RING.LINKSTAT.STATE (linkIx 0)) Lk.qualified) (fun x => { x with partners := [(0, partner)] }))) ([0, 0, 0, 0]) (by decide +kernel)).2.1.symm, rfl, (signed_ok cmdRingMerge (challenged (inaug (masterUp.set (RING.LINKSTAT.STATE (linkIx 0)) Lk.qualified) (fun x => { x with partners := [(0, partner)] }))) ([0, 0, 0, 0]) (by decide +kernel)).2.2.symm, by decide +kernel, by decide +kernel, by decide +kernel, rfl⟩,
    ⟨challenged (up), trusted (challenged (up)), signed (challenged (up)) cmdRingMerge.opcode [0, 0, 0, 0], _, [0, 0, 0, 0], (signed_ok cmdRingMerge (challenged (up)) ([0, 0, 0, 0]) (by decide +kernel)).1, (signed_ok cmdRingMerge (challenged (up)) ([0, 0, 0, 0]) (by decide +kernel)).2.1.symm, rfl, (signed_ok cmdRingMerge (challenged (up)) ([0, 0, 0, 0]) (by decide +kernel)).2.2.symm, by decide +kernel⟩,
    ⟨challenged (up), trusted (challenged (up)), signed (challenged (up)) cmdRingSetRank.opcode [0, 0, 0, 0], _, [0, 0, 0, 0], (signed_ok cmdRingSetRank (challenged (up)) ([0, 0, 0, 0]) (by decide +kernel)).1, (signed_ok cmdRingSetRank (challenged (up)) ([0, 0, 0, 0]) (by decide +kernel)).2.1.symm, rfl, (signed_ok cmdRingSetRank (challenged (up)) ([0, 0, 0, 0]) (by decide +kernel)).2.2.symm, by decide +kernel⟩,
    ⟨challenged (up), trusted (challenged (up)), signed (challenged (up)) cmdRingSetRank.opcode [16, 0, 0, 0], _, [16, 0, 0, 0], (signed_ok cmdRingSetRank (challenged (up)) ([16, 0, 0, 0]) (by decide +kernel)).1, (signed_ok cmdRingSetRank (challenged (up)) ([16, 0, 0, 0]) (by decide +kernel)).2.1.symm, rfl, (signed_ok cmdRingSetRank (challenged (up)) ([16, 0, 0, 0]) (by decide +kernel)).2.2.symm, by decide +kernel⟩,
    ⟨challenged (up.set (RING.LINKSTAT.STATE (linkIx 0)) Lk.inRing), trusted (challenged (up.set (RING.LINKSTAT.STATE (linkIx 0)) Lk.inRing)), signed (challenged (up.set (RING.LINKSTAT.STATE (linkIx 0)) Lk.inRing)) cmdRingLinkCtrl.opcode [0, 0, 0, 0], _, [0, 0, 0, 0], (signed_ok cmdRingLinkCtrl (challenged (up.set (RING.LINKSTAT.STATE (linkIx 0)) Lk.inRing)) ([0, 0, 0, 0]) (by decide +kernel)).1, (signed_ok cmdRingLinkCtrl (challenged (up.set (RING.LINKSTAT.STATE (linkIx 0)) Lk.inRing)) ([0, 0, 0, 0]) (by decide +kernel)).2.1.symm, rfl, (signed_ok cmdRingLinkCtrl (challenged (up.set (RING.LINKSTAT.STATE (linkIx 0)) Lk.inRing)) ([0, 0, 0, 0]) (by decide +kernel)).2.2.symm, by decide +kernel, by decide +kernel⟩,
    ⟨challenged (up.set (RING.LINKSTAT.STATE (linkIx 0)) Lk.inRing), trusted (challenged (up.set (RING.LINKSTAT.STATE (linkIx 0)) Lk.inRing)), signed (challenged (up.set (RING.LINKSTAT.STATE (linkIx 0)) Lk.inRing)) cmdRingLinkCtrl.opcode [0, 1, 0, 0], _, [0, 1, 0, 0], (signed_ok cmdRingLinkCtrl (challenged (up.set (RING.LINKSTAT.STATE (linkIx 0)) Lk.inRing)) ([0, 1, 0, 0]) (by decide +kernel)).1, (signed_ok cmdRingLinkCtrl (challenged (up.set (RING.LINKSTAT.STATE (linkIx 0)) Lk.inRing)) ([0, 1, 0, 0]) (by decide +kernel)).2.1.symm, rfl, (signed_ok cmdRingLinkCtrl (challenged (up.set (RING.LINKSTAT.STATE (linkIx 0)) Lk.inRing)) ([0, 1, 0, 0]) (by decide +kernel)).2.2.symm, by decide +kernel, by decide +kernel⟩,
    ⟨challenged (up.set (RING.LINKSTAT.STATE (linkIx 0)) Lk.inRing), trusted (challenged (up.set (RING.LINKSTAT.STATE (linkIx 0)) Lk.inRing)), signed (challenged (up.set (RING.LINKSTAT.STATE (linkIx 0)) Lk.inRing)) cmdRingLinkCtrl.opcode [0, 2, 0, 0], _, [0, 2, 0, 0], (signed_ok cmdRingLinkCtrl (challenged (up.set (RING.LINKSTAT.STATE (linkIx 0)) Lk.inRing)) ([0, 2, 0, 0]) (by decide +kernel)).1, (signed_ok cmdRingLinkCtrl (challenged (up.set (RING.LINKSTAT.STATE (linkIx 0)) Lk.inRing)) ([0, 2, 0, 0]) (by decide +kernel)).2.1.symm, rfl, (signed_ok cmdRingLinkCtrl (challenged (up.set (RING.LINKSTAT.STATE (linkIx 0)) Lk.inRing)) ([0, 2, 0, 0]) (by decide +kernel)).2.2.symm, by decide +kernel, by decide +kernel⟩,
    ⟨up, _, rq [4, 0, 0, 0], _, _, by decide +kernel, rfl, rfl, rfl, by decide +kernel⟩,
    ⟨up, rq [10, 0, 16, 0], _, _, by decide +kernel, rfl, rfl, by decide +kernel, by decide +kernel⟩,
    ⟨up, rq [0, 0, 0, 0], _, _, by decide +kernel, rfl, rfl, by decide +kernel, by decide +kernel⟩,
    ⟨up, rq [233, 3, 0, 0], _, _, by decide +kernel, rfl, rfl, by decide +kernel⟩,
    ⟨up, rq [], _, _, by decide +kernel, rfl, rfl⟩,
    ⟨up, rq [], _, _, by decide +kernel, rfl, rfl⟩,
    ⟨{ (masterUp.set SYNC.STAT.STATE 2) with ring := { masterUp.ring with layout := some { lay with positions := [⟨1, 0, 0, false, 1, false, 0, false, some 0, 0, 5⟩] } } }, rq [1, 0, 0, 0, 0, 0, 0, 0], _, _, 1, _, _, _, _, by decide +kernel, rfl, rfl, by decide +kernel, by decide +kernel, rfl, rfl, rfl, rfl⟩,
    ⟨up, rq [0, 0, 0, 0, 0, 0, 0, 0], _, _, by decide +kernel, rfl, rfl, by decide +kernel⟩,
    ⟨up.set RING.ENG_STAT.ROLE 2, rq [0, 0, 0, 0, 0, 0, 0, 0], _, _, by decide +kernel, rfl, rfl, by decide +kernel, by decide +kernel⟩,
    ⟨(((up.setFlag RED.TWIN_CFG.EN true).set RED.STAT.TWIN 1).setFlag RED.TWIN_STAT.PAIR1_UP true), rq [], _, _, by decide +kernel, rfl, rfl⟩,
    ⟨up, rq [], _, _, by decide +kernel, rfl, rfl⟩,
    ⟨challenged (up.setFlag (STK.MEMBER_STAT.PRESENT 1) true), trusted (challenged (up.setFlag (STK.MEMBER_STAT.PRESENT 1) true)), signed (challenged (up.setFlag (STK.MEMBER_STAT.PRESENT 1) true)) cmdStackMemberReset.opcode [1, 0, 0, 0], _, [1, 0, 0, 0], 1, (signed_ok cmdStackMemberReset (challenged (up.setFlag (STK.MEMBER_STAT.PRESENT 1) true)) ([1, 0, 0, 0]) (by decide +kernel)).1, (signed_ok cmdStackMemberReset (challenged (up.setFlag (STK.MEMBER_STAT.PRESENT 1) true)) ([1, 0, 0, 0]) (by decide +kernel)).2.1.symm, rfl, (signed_ok cmdStackMemberReset (challenged (up.setFlag (STK.MEMBER_STAT.PRESENT 1) true)) ([1, 0, 0, 0]) (by decide +kernel)).2.2.symm, by decide +kernel, by decide +kernel, by decide +kernel, by decide +kernel⟩,
    ⟨challenged (up), trusted (challenged (up)), signed (challenged (up)) cmdStackMemberReset.opcode [0, 0, 0, 0], _, [0, 0, 0, 0], (signed_ok cmdStackMemberReset (challenged (up)) ([0, 0, 0, 0]) (by decide +kernel)).1, (signed_ok cmdStackMemberReset (challenged (up)) ([0, 0, 0, 0]) (by decide +kernel)).2.1.symm, rfl, (signed_ok cmdStackMemberReset (challenged (up)) ([0, 0, 0, 0]) (by decide +kernel)).2.2.symm, by decide +kernel⟩⟩

theorem witness_RoutingRequests :
    (∃ (s : State) (r : Request) (q : OpenReq) (d : List Nat) (w : When), (s.passes cmdXpSet r = true) ∧ (q = s.asked r 0x0401) ∧ (d = r.payload) ∧ (s.etick (fieldOf d 0 4) = some w) ∧ (s.xpStatus d = Status.ok)) ∧
    (∃ (s : State) (r : Request) (q : OpenReq) (d : List Nat) (w : When), (s.passes cmdXpSet r = true) ∧ (q = s.asked r 0x0401) ∧ (d = r.payload) ∧ (s.etick (fieldOf d 0 4) = some w) ∧ (s.xpStatus d = Status.noResource)) ∧
    (∃ (s : State) (r : Request) (q : OpenReq) (d : List Nat), (s.passes cmdXpSet r = true) ∧ (q = s.asked r 0x0401) ∧ (d = r.payload) ∧ (s.etick (fieldOf d 0 4) = none)) ∧
    (∃ (s : State) (r : Request) (q : OpenReq) (d : List Nat) (l : List Xpoint), (s.passes cmdXpGet r = true) ∧ (q = s.asked r 0x0402) ∧ (d = r.payload) ∧ fieldOf d 0 2 < 0x360 ∧ (l = (s.aud.xps.filter (fun (x : Xpoint) => x.sink == fieldOf d 0 2)).drop (fieldOf d 2 2)) ∧ (l.length ≤ 509)) ∧
    (∃ (s : State) (r : Request) (q : OpenReq) (d : List Nat) (w : When), (s.passes cmdZoneSet r = true) ∧ (q = s.asked r 0x0403) ∧ (d = r.payload) ∧ (s.etick (fieldOf d 12 4) = some w) ∧ fieldOf d 0 1 < 16 ∧ (fieldOf d 1 1 ≤ 1) ∧ (betweenInt (-1200) 240 (signedOf d 2 2) = true) ∧ (fieldOf d 4 1 ≤ 60) ∧ (fieldOf d 6 2 ≤ 100) ∧ (fieldOf d 8 2 ≤ 5000) ∧ (fieldOf d 10 2 ≤ 5000)) ∧
    (∃ (s : State) (r : Request) (q : OpenReq) (d : List Nat) (w : When), (s.passes cmdZoneSet r = true) ∧ (q = s.asked r 0x0403) ∧ (d = r.payload) ∧ (s.etick (fieldOf d 12 4) = some w) ∧ (16 ≤ fieldOf d 0 1)) ∧
    (∃ (s : State) (r : Request) (q : OpenReq) (d : List Nat) (w : When), (s.passes cmdZoneCand r = true) ∧ (q = s.asked r 0x0404) ∧ (d = r.payload) ∧ (s.etick (fieldOf d 4 4) = some w) ∧ fieldOf d 0 1 < 16 ∧ fieldOf d 1 1 < 16 ∧ (fieldOf d 2 1 ≤ 7)) ∧
    (∃ (s : State) (r : Request) (q : OpenReq) (d : List Nat) (w : When), (s.passes cmdZoneCand r = true) ∧ (q = s.asked r 0x0404) ∧ (d = r.payload) ∧ (s.etick (fieldOf d 4 4) = some w) ∧ (16 ≤ fieldOf d 1 1)) ∧
    (∃ (s : State) (r : Request) (q : OpenReq) (d : List Nat) (w : When), (s.passes cmdZoneEq r = true) ∧ (q = s.asked r 0x0405) ∧ (d = r.payload) ∧ (s.etick (fieldOf d 4 4) = some w) ∧ fieldOf d 0 1 < 16 ∧ (between 1 10 (fieldOf d 2 1) = true) ∧ (fieldOf d 1 1 + fieldOf d 2 1 ≤ 10) ∧ ((List.range (fieldOf d 2 1)).all (fun i => eqStable (eqSet d i)) = true)) ∧
    (∃ (s : State) (r : Request) (q : OpenReq) (d : List Nat) (w : When), (s.passes cmdZoneEq r = true) ∧ (q = s.asked r 0x0405) ∧ (d = r.payload) ∧ (s.etick (fieldOf d 4 4) = some w) ∧ 10 < fieldOf d 1 1 + fieldOf d 2 1) ∧
    (∃ (s : State) (r : Request) (q : OpenReq) (d : List Nat) (w : When), (s.passes cmdZoneOut r = true) ∧ (q = s.asked r 0x0406) ∧ (d = r.payload) ∧ (s.etick (fieldOf d 12 4) = some w) ∧ fieldOf d 0 1 < 16 ∧ (fieldOf d 2 2 ≤ 2400) ∧ (betweenInt (-300) 0 (signedOf d 4 2) = true) ∧ (between 1 100 (fieldOf d 6 2) = true) ∧ (between 10 2000 (fieldOf d 8 2) = true)) ∧
    (∃ (s : State) (r : Request) (q : OpenReq) (d : List Nat) (w : When), (s.passes cmdZoneOut r = true) ∧ (q = s.asked r 0x0406) ∧ (d = r.payload) ∧ (s.etick (fieldOf d 12 4) = some w) ∧ 2400 < fieldOf d 2 2) ∧
    (∃ (s : State) (r : Request) (q : OpenReq) (d : List Nat) (w : When), (s.passes cmdStreamSet r = true) ∧ (q = s.asked r 0x0407) ∧ (d = r.payload) ∧ (s.etick (fieldOf d 8 4) = some w) ∧ (fieldOf d 0 1 ≤ 127) ∧ (fieldOf d 1 1 ≤ 7) ∧ (fieldOf d 2 1 ≤ 2) ∧ (fieldOf d 4 2 ≤ 2000)) ∧
    (∃ (s : State) (r : Request) (q : OpenReq) (d : List Nat) (w : When), (s.passes cmdStreamSet r = true) ∧ (q = s.asked r 0x0407) ∧ (d = r.payload) ∧ (s.etick (fieldOf d 8 4) = some w) ∧ 127 < fieldOf d 0 1) ∧
    (∃ (s : State) (r : Request) (q : OpenReq) (d : List Nat) (w : When), (s.passes cmdTestgenSet r = true) ∧ (q = s.asked r 0x0408) ∧ (d = r.payload) ∧ (s.etick (fieldOf d 8 4) = some w) ∧ fieldOf d 0 1 < 8 ∧ (fieldOf d 1 1 ≤ 3) ∧ (betweenInt (-1200) 0 (signedOf d 2 2) = true) ∧ (between 20 20000 (fieldOf d 4 2) = true) ∧ (s.roomInstead (0x0408 * 65536 + fieldOf d 0 1) (genCost (fieldOf d 1 1)) = true)) ∧
    (∃ (s : State) (r : Request) (q : OpenReq) (d : List Nat) (w : When), (s.passes cmdTestgenSet r = true) ∧ (q = s.asked r 0x0408) ∧ (d = r.payload) ∧ (s.etick (fieldOf d 8 4) = some w) ∧ (8 ≤ fieldOf d 0 1)) ∧
    (∃ (s : State) (r : Request) (q : OpenReq) (d : List Nat) (z : Nat), (s.passes cmdZoneStatus r = true) ∧ (q = s.asked r 0x0409) ∧ (d = r.payload) ∧ (z = fieldOf d 0 1) ∧ z < 16) ∧
    (∃ (s : State) (r : Request) (q : OpenReq) (d : List Nat), (s.passes cmdZoneStatus r = true) ∧ (q = s.asked r 0x0409) ∧ (d = r.payload) ∧ (16 ≤ fieldOf d 0 1)) :=
  ⟨⟨up, rq [0, 0, 0, 0, 1, 0, 0, 0, 0, 1, 0, 3, 0, 0, 0, 0], _, _, ⟨0, some 49⟩, by decide +kernel, rfl, rfl, by decide +kernel, by decide +kernel⟩,
    ⟨{ up with jobs := [0, 1, 2, 3].map (fun c => ⟨c, 1000000, 0, true, [], true, false, false, false, 0, false⟩) }, rq [0, 0, 0, 0, 1, 0, 0, 0, 0, 1, 0, 3, 0, 0, 0, 0], _, _, ⟨0, some 49⟩, by decide +kernel, rfl, rfl, by decide +kernel, by decide +kernel⟩,
    ⟨up, rq [1, 0, 0, 0, 0, 0, 0, 0], _, _, by decide +kernel, rfl, rfl, by decide +kernel⟩,
    ⟨up, rq [0, 0, 0, 0], _, _, _, by decide +kernel, rfl, rfl, by decide +kernel, rfl, by decide +kernel⟩,
    ⟨up, rq (List.replicate 16 0), _, _, ⟨0, some 49⟩, by decide +kernel, rfl, rfl, by decide +kernel, by decide +kernel, by decide +kernel, by decide +kernel, by decide +kernel, by decide +kernel, by decide +kernel, by decide +kernel⟩,
    ⟨up, rq [16, 0, 0, 0, 0, 0, 0, 0, 0, 0, 0, 0, 0, 0, 0, 0], _, _, ⟨0, some 49⟩, by decide +kernel, rfl, rfl, by decide +kernel, by decide +kernel⟩,
    ⟨up, rq [0, 0, 0, 0, 0, 0, 0, 0], _, _, ⟨0, some 49⟩, by decide +kernel, rfl, rfl, by decide +kernel, by decide +kernel, by decide +kernel, by decide +kernel⟩,
    ⟨up, rq [0, 16, 0, 0, 0, 0, 0, 0], _, _, ⟨0, some 49⟩, by decide +kernel, rfl, rfl, by decide +kernel, by decide +kernel⟩,
    ⟨up, rq [0, 0, 1, 0, 0, 0, 0, 0, 0, 0, 0, 0, 0, 0, 0, 0, 0, 0, 0, 0, 0, 0, 0, 0, 0, 0, 0, 0], _, _, ⟨0, some 49⟩, by decide +kernel, rfl, rfl, by decide +kernel, by decide +kernel, by decide +kernel, by decide +kernel, by decide +kernel⟩,
    ⟨up, rq [0, 0, 11, 0, 0, 0, 0, 0, 0, 0, 0, 0, 0, 0, 0, 0, 0, 0, 0, 0, 0, 0, 0, 0, 0, 0, 0, 0, 0, 0, 0, 0, 0, 0, 0, 0, 0, 0, 0, 0, 0, 0, 0, 0, 0, 0, 0, 0, 0, 0, 0, 0, 0, 0, 0, 0, 0, 0, 0, 0, 0, 0, 0, 0, 0, 0, 0, 0, 0, 0, 0, 0, 0, 0, 0, 0, 0, 0, 0, 0, 0, 0, 0, 0, 0, 0, 0, 0, 0, 0, 0, 0, 0, 0, 0, 0, 0, 0, 0, 0, 0, 0, 0, 0, 0, 0, 0, 0, 0, 0, 0, 0, 0, 0, 0, 0, 0, 0, 0, 0, 0, 0, 0, 0, 0, 0, 0, 0, 0, 0, 0, 0, 0, 0, 0, 0, 0, 0, 0, 0, 0, 0, 0, 0, 0, 0, 0, 0, 0, 0, 0, 0, 0, 0, 0, 0, 0, 0, 0, 0, 0, 0, 0, 0, 0, 0, 0, 0, 0, 0, 0, 0, 0, 0, 0, 0, 0, 0, 0, 0, 0, 0, 0, 0, 0, 0, 0, 0, 0, 0, 0, 0, 0, 0, 0, 0, 0, 0, 0, 0, 0, 0, 0, 0, 0, 0, 0, 0, 0, 0, 0, 0, 0, 0, 0, 0, 0, 0, 0, 0, 0, 0, 0, 0, 0, 0, 0, 0], _, _, ⟨0, some 49⟩, by decide +kernel, rfl, rfl, by decide +kernel, by decide +kernel⟩,
    ⟨up, rq [0, 0, 0, 0, 0, 0, 1, 0, 10, 0, 0, 0, 0, 0, 0, 0], _, _, ⟨0, some 49⟩, by decide +kernel, rfl, rfl, by decide +kernel, by decide +kernel, by decide +kernel, by decide +kernel, by decide +kernel, by decide +kernel⟩,
    ⟨up, rq [0, 0, 97, 9, 0, 0, 0, 0, 0, 0, 0, 0, 0, 0, 0, 0], _, _, ⟨0, some 49⟩, by decide +kernel, rfl, rfl, by decide +kernel, by decide +kernel⟩,
    ⟨up, rq (List.replicate 12 0), _, _, ⟨0, some 49⟩, by decide +kernel, rfl, rfl, by decide +kernel, by decide +kernel, by decide +kernel, by decide +kernel, by decide +kernel⟩,
    ⟨up, rq [128, 0, 0, 0, 0, 0, 0, 0, 0, 0, 0, 0], _, _, ⟨0, some 49⟩, by decide +kernel, rfl, rfl, by decide +kernel, by decide +kernel⟩,
    ⟨up, rq [0, 0, 0, 0, 20, 0, 0, 0, 0, 0, 0, 0], _, _, ⟨0, some 49⟩, by decide +kernel, rfl, rfl, by decide +kernel, by decide +kernel, by decide +kernel, by decide +kernel, by decide +kernel, by decide +kernel⟩,
    ⟨up, rq [8, 0, 0, 0, 0, 0, 0, 0, 0, 0, 0, 0], _, _, ⟨0, some 49⟩, by decide +kernel, rfl, rfl, by decide +kernel, by decide +kernel⟩,
    ⟨up, rq [0, 0, 0, 0], _, _, _, by decide +kernel, rfl, rfl, rfl, by decide +kernel⟩,
    ⟨up, rq [16, 0, 0, 0], _, _, by decide +kernel, rfl, rfl, by decide +kernel⟩⟩

theorem witness_PlaybackRequests :
    (∃ (s : State) (r : Request) (q : OpenReq) (d : List Nat) (t : State), (s.passes cmdLibLoad r = true) ∧ (q = s.asked r 0x0501) ∧ (d = r.payload) ∧ (fieldOf d 0 4 ≤ 48 + 2 ^ 30) ∧ (s.takeFragment q.ch 0x0501 d = (.more, t))) ∧
    (∃ (s : State) (r : Request) (q : OpenReq) (d : List Nat) (t : State) (u : State) (b : List Nat) (st : Nat), (s.passes cmdLibLoad r = true) ∧ (q = s.asked r 0x0501) ∧ (d = r.payload) ∧ (fieldOf d 0 4 ≤ 48 + 2 ^ 30) ∧ (s.takeFragment q.ch 0x0501 d = (.whole b, t)) ∧ (t.libTake b = (st, u)) ∧ st ≠ Status.ok) ∧
    (∃ (s : State) (r : Request) (q : OpenReq) (d : List Nat) (t : State), (s.passes cmdLibLoad r = true) ∧ (q = s.asked r 0x0501) ∧ (d = r.payload) ∧ (fieldOf d 0 4 ≤ 48 + 2 ^ 30) ∧ (s.takeFragment q.ch 0x0501 d = (.bad, t))) ∧
    (∃ (s : State) (r : Request) (q : OpenReq) (d : List Nat), (s.passes cmdLibLoad r = true) ∧ (q = s.asked r 0x0501) ∧ (d = r.payload) ∧ 48 + 2 ^ 30 < fieldOf d 0 4) ∧
    (∃ (s : State) (r : Request) (q : OpenReq) (d : List Nat) (hit : Clip → Bool) (t : State), (s.passes cmdLibDelete r = true) ∧ (q = s.asked r 0x0502) ∧ (d = r.payload) ∧ (hit = (fun (c : Clip) => c.id == fieldOf d 0 4 && (fieldOf d 4 2 == 0 || c.version == fieldOf d 4 2))) ∧ (s.vox.clips.any hit = true) ∧ (t = State.clipSweep { s with vox := { s.vox with clips := s.vox.clips.map (fun (c : Clip) => if hit c then { c with deleting := true } else c) } }) ∧ (t.vox.clips.any hit = false)) ∧
    (∃ (s : State) (r : Request) (q : OpenReq) (d : List Nat) (hit : Clip → Bool) (t : State), (s.passes cmdLibDelete r = true) ∧ (q = s.asked r 0x0502) ∧ (d = r.payload) ∧ (hit = (fun (c : Clip) => c.id == fieldOf d 0 4 && (fieldOf d 4 2 == 0 || c.version == fieldOf d 4 2))) ∧ (s.vox.clips.any hit = true) ∧ (t = State.clipSweep { s with vox := { s.vox with clips := s.vox.clips.map (fun (c : Clip) => if hit c then { c with deleting := true } else c) } }) ∧ (t.vox.clips.any hit = true)) ∧
    (∃ (s : State) (r : Request) (q : OpenReq) (d : List Nat), (s.passes cmdLibDelete r = true) ∧ (q = s.asked r 0x0502) ∧ (d = r.payload) ∧ (s.vox.clips.any (fun (c : Clip) => c.id == fieldOf d 0 4 && (fieldOf d 4 2 == 0 || c.version == fieldOf d 4 2)) = false)) ∧
    (∃ (s : State) (r : Request) (q : OpenReq) (d : List Nat) (l : List Clip) (n : Nat), (s.passes cmdLibList r = true) ∧ (q = s.asked r 0x0503) ∧ (d = r.payload) ∧ (n = fieldOf d 2 2) ∧ (1 ≤ n) ∧ (n ≤ 78) ∧ (l = s.libEntries.drop (fieldOf d 0 2))) ∧
    (∃ (s : State) (r : Request) (q : OpenReq) (d : List Nat), (s.passes cmdLibList r = true) ∧ (q = s.asked r 0x0503) ∧ (d = r.payload) ∧ 78 < fieldOf d 2 2) ∧
    (∃ (s : State) (r : Request) (q : OpenReq) (d : List Nat) (x : Voice) (cost : Nat) (seq : Nat), (s.passes cmdPlayStart r = true) ∧ (q = s.asked r 0x0504) ∧ (d = r.payload) ∧ (s.playCheck d = (Status.ok, x, cost)) ∧ (seq = (if s.tickSeq = 0 then 0 else x.start % 2 ^ 32))) ∧
    (∃ (s : State) (r : Request) (q : OpenReq) (d : List Nat) (x : Voice) (cost : Nat) (st : Nat), (s.passes cmdPlayStart r = true) ∧ (q = s.asked r 0x0504) ∧ (d = r.payload) ∧ (s.playCheck d = (st, x, cost)) ∧ st ≠ Status.ok) ∧
    (∃ (s : State) (r : Request) (q : OpenReq) (d : List Nat) (w : When), (s.passes cmdPlayStop r = true) ∧ (q = s.asked r 0x0505) ∧ (d = r.payload) ∧ (s.etick (fieldOf d 4 4) = some w) ∧ fieldOf d 0 1 < 32 ∧ (fieldOf d 2 2 ≤ 1000)) ∧
    (∃ (s : State) (r : Request) (q : OpenReq) (d : List Nat) (w : When), (s.passes cmdPlayStop r = true) ∧ (q = s.asked r 0x0505) ∧ (d = r.payload) ∧ (s.etick (fieldOf d 4 4) = some w) ∧ 1000 < fieldOf d 2 2) ∧
    (∃ (s : State) (r : Request) (q : OpenReq) (d : List Nat), (s.passes cmdPlayStatus r = true) ∧ (q = s.asked r 0x0506) ∧ (d = r.payload)) :=
  ⟨⟨up, rq [4, 0, 0, 0, 0, 0, 0, 0, 2, 0, 1, 0, 0, 0, 0, 0, 0, 0], _, _, _, by decide +kernel, rfl, rfl, by decide +kernel, Prod.ext (by decide +kernel) rfl⟩,
    ⟨up, rq [2, 0, 0, 0, 0, 0, 0, 0, 2, 0, 3, 0, 0, 0, 0, 0, 0, 0], _, _, _, _, [0, 0], Status.badParam, by decide +kernel, rfl, rfl, by decide +kernel, Prod.ext (by decide +kernel) rfl, Prod.ext (by decide +kernel) rfl, by decide +kernel⟩,
    ⟨up, rq (List.replicate 16 0), _, _, _, by decide +kernel, rfl, rfl, by decide +kernel, Prod.ext (by decide +kernel) rfl⟩,
    ⟨up, rq [49, 0, 0, 64, 0, 0, 0, 0, 0, 0, 0, 0, 0, 0, 0, 0], _, _, by decide +kernel, rfl, rfl, by decide +kernel⟩,
    ⟨clipUp false, rq [7, 0, 0, 0, 0, 0, 0, 0], _, _, _, _, by decide +kernel, rfl, rfl, rfl, by decide +kernel, rfl, by decide +kernel⟩,
    ⟨{ clipUp false with vox := { (clipUp false).vox with voices := [{ voice0 with playing := true }] } }, rq [7, 0, 0, 0, 0, 0, 0, 0], _, _, _, _, by decide +kernel, rfl, rfl, rfl, by decide +kernel, rfl, by decide +kernel⟩,
    ⟨up, rq [0, 0, 0, 0, 0, 0, 0, 0], _, _, by decide +kernel, rfl, rfl, by decide +kernel⟩,
    ⟨up, rq [0, 0, 1, 0], _, _, _, _, by decide +kernel, rfl, rfl, rfl, by decide +kernel, by decide +kernel, rfl⟩,
    ⟨up, rq [0, 0, 79, 0], _, _, by decide +kernel, rfl, rfl, by decide +kernel⟩,
    ⟨clipUp false, rq [0, 1, 1, 1, 0, 0, 0, 0, 0, 0, 0, 0, 7, 0, 0, 0, 1, 0, 0, 0], _, _, _, _, 0, by decide +kernel, rfl, rfl, Prod.ext (by decide +kernel) rfl, by decide +kernel⟩,
    ⟨up, rq (List.replicate 12 0), _, _, _, _, Status.badParam, by decide +kernel, rfl, rfl, Prod.ext (by decide +kernel) rfl, by decide +kernel⟩,
    ⟨voiceUp, rq [0, 0, 0, 0, 0, 0, 0, 0], _, _, ⟨0, some 49⟩, by decide +kernel, rfl, rfl, by decide +kernel, by decide +kernel, by decide +kernel⟩,
    ⟨voiceUp, rq [0, 0, 233, 3, 0, 0, 0, 0], _, _, ⟨0, some 49⟩, by decide +kernel, rfl, rfl, by decide +kernel, by decide +kernel⟩,
    ⟨up, rq [], _, _, by decide +kernel, rfl, rfl⟩⟩

theorem witness_CallAndRecorderRequests :
    (∃ (s : State) (r : Request) (q : OpenReq) (d : List Nat) (w : When) (i : Nat), (s.passes cmdCallOpen r = true) ∧ (q = s.asked r 0x0601) ∧ (d = r.payload) ∧ (s.etick (fieldOf d 20 4) = some w) ∧ (s.callStatus d = Status.ok) ∧ (i = s.freeCall.getD 0)) ∧
    (∃ (s : State) (r : Request) (q : OpenReq) (d : List Nat) (w : When), (s.passes cmdCallOpen r = true) ∧ (q = s.asked r 0x0601) ∧ (d = r.payload) ∧ (s.etick (fieldOf d 20 4) = some w) ∧ (s.callStatus d = Status.noResource)) ∧
    (∃ (s : State) (r : Request) (q : OpenReq) (d : List Nat), (s.passes cmdCallOpen r = true) ∧ (q = s.asked r 0x0601) ∧ (d = r.payload) ∧ (s.etick (fieldOf d 20 4) = none)) ∧
    (∃ (s : State) (r : Request) (q : OpenReq) (d : List Nat) (w : When), (s.passes cmdCallClose r = true) ∧ (q = s.asked r 0x0602) ∧ (d = r.payload) ∧ (s.etick (fieldOf d 4 4) = some w) ∧ fieldOf d 0 1 < 8) ∧
    (∃ (s : State) (r : Request) (q : OpenReq) (d : List Nat) (w : When), (s.passes cmdCallClose r = true) ∧ (q = s.asked r 0x0602) ∧ (d = r.payload) ∧ (s.etick (fieldOf d 4 4) = some w) ∧ (8 ≤ fieldOf d 0 1)) ∧
    (∃ (s : State) (r : Request) (q : OpenReq) (d : List Nat), (s.passes cmdCallStatus r = true) ∧ (q = s.asked r 0x0603) ∧ (d = r.payload)) ∧
    (∃ (s : State) (r : Request) (q : OpenReq) (d : List Nat) (w : When), (s.passes cmdAecSet r = true) ∧ (q = s.asked r 0x0604) ∧ (d = r.payload) ∧ (s.etick (fieldOf d 8 4) = some w) ∧ fieldOf d 0 1 < 8 ∧ (fieldOf d 1 1 ≤ 3) ∧ (fieldOf d 2 1 ≤ 30) ∧ (fieldOf d 3 1 ≤ 1) ∧ (fieldOf d 4 2 ≤ 1600) ∧ (s.roomInstead (aecOwner (fieldOf d 0 1)) (s.aecNext (fieldOf d 0 1) (32 * 2 ^ fieldOf d 1 1)) = true)) ∧
    (∃ (s : State) (r : Request) (q : OpenReq) (d : List Nat) (w : When), (s.passes cmdAecSet r = true) ∧ (q = s.asked r 0x0604) ∧ (d = r.payload) ∧ (s.etick (fieldOf d 8 4) = some w) ∧ (8 ≤ fieldOf d 0 1)) ∧
    (∃ (s : State) (r : Request) (q : OpenReq) (d : List Nat) (z : Nat) (x : PmonSt), (s.passes cmdPmonCommission r = true) ∧ (q = s.asked r 0x0605) ∧ (d = r.payload) ∧ (z = fieldOf d 0 1) ∧ z < 16 ∧ s.pmonMics z ≠ [] ∧ (x = s.vox.pmonOf z) ∧ (x.commission = none)) ∧
    (∃ (s : State) (r : Request) (q : OpenReq) (d : List Nat), (s.passes cmdPmonCommission r = true) ∧ (q = s.asked r 0x0605) ∧ (d = r.payload) ∧ (16 ≤ fieldOf d 0 1)) ∧
    (∃ (s₀ : State) (s : State) (r : Request) (q : OpenReq) (d : List Nat) (z : Nat), (s₀.passes cmdPmonClear r = true) ∧ (s = s₀.opened cmdPmonClear r) ∧ (q = s₀.asked r 0x0606) ∧ (d = r.payload) ∧ (z = fieldOf d 0 1) ∧ z < 16) ∧
    (∃ (s : State) (r : Request) (q : OpenReq) (d : List Nat) (e : StipaSt), (s.passes cmdStipaRun r = true) ∧ (q = s.asked r 0x0607) ∧ (d = r.payload) ∧ (s.vox.stipa = none) ∧ fieldOf d 0 1 < 16 ∧ fieldOf d 1 1 < 16 ∧ (fieldOf d 2 1 = 0xFE) ∧ (15 ≤ fieldOf d 10 1) ∧ (fieldOf d 10 1 ≤ 60) ∧ (fieldOf d 11 1 = 0) ∧ (s.roomFor 900 = true) ∧ (e = ⟨fieldOf d 0 1, fieldOf d 1 1, none, (fieldOf d 4 4, fieldOf d 8 2), fieldOf d 10 1, 0, s.decik.upTicks⟩)) ∧
    (∃ (s : State) (r : Request) (q : OpenReq) (d : List Nat) (x : StipaSt), (s.passes cmdStipaRun r = true) ∧ (q = s.asked r 0x0607) ∧ (d = r.payload) ∧ (s.vox.stipa = some x)) ∧
    (∃ (s : State) (r : Request) (q : OpenReq) (d : List Nat) (us : List RecUnit), (s.passes cmdRecLock r = true) ∧ (q = s.asked r 0x0608) ∧ (d = r.payload) ∧ (us = s.vox.unitsOf (fieldOf d 0 4)) ∧ us ≠ [] ∧ ((s.vox.recUnits.filter (fun (r : RecUnit) => r.locked && !r.lost && r.call != fieldOf d 0 4)).length + us.length ≤ recLockMax)) ∧
    (∃ (s : State) (r : Request) (q : OpenReq) (d : List Nat) (us : List RecUnit), (s.passes cmdRecLock r = true) ∧ (q = s.asked r 0x0608) ∧ (d = r.payload) ∧ (us = s.vox.unitsOf (fieldOf d 0 4)) ∧ us ≠ [] ∧ recLockMax < (s.vox.recUnits.filter (fun (r : RecUnit) => r.locked && !r.lost && r.call != fieldOf d 0 4)).length + us.length) ∧
    (∃ (s₀ : State) (s : State) (r : Request) (q : OpenReq) (d : List Nat) (us : List RecUnit), (s₀.passes cmdRecUnlock r = true) ∧ (s = s₀.opened cmdRecUnlock r) ∧ (q = s₀.asked r 0x0609) ∧ (d = r.payload) ∧ (us = s.vox.unitsOf (fieldOf d 0 4)) ∧ us ≠ []) ∧
    (∃ (s₀ : State) (s : State) (r : Request) (q : OpenReq) (d : List Nat), (s₀.passes cmdRecUnlock r = true) ∧ (s = s₀.opened cmdRecUnlock r) ∧ (q = s₀.asked r 0x0609) ∧ (d = r.payload) ∧ (s.vox.unitsOf (fieldOf d 0 4) = [])) ∧
    (∃ (s : State) (r : Request) (q : OpenReq) (d : List Nat) (first : Nat) (n : Nat), (s.passes cmdRecIndex r = true) ∧ (q = s.asked r 0x060A) ∧ (d = r.payload) ∧ (first = fieldOf d 0 4) ∧ (n = fieldOf d 4 2) ∧ (1 ≤ n) ∧ (n ≤ 127) ∧ first < recUnits) ∧
    (∃ (s : State) (r : Request) (q : OpenReq) (d : List Nat), (s.passes cmdRecIndex r = true) ∧ (q = s.asked r 0x060A) ∧ (d = r.payload) ∧ 127 < fieldOf d 4 2) ∧
    (∃ (s₀ : State) (s : State) (r : Request) (q : OpenReq) (d : List Nat) (n : Nat), (s₀.passes cmdRecExport r = true) ∧ (s = s₀.opened cmdRecExport r) ∧ (q = s₀.asked r 0x060B) ∧ (d = r.payload) ∧ (n = fieldOf d 4 4) ∧ fieldOf d 0 4 < recUnits ∧ (1 ≤ n) ∧ (n ≤ 65536) ∧ (s.inHost (fieldOf d 8 4) (4096 * n) = true)) ∧
    (∃ (s₀ : State) (s : State) (r : Request) (q : OpenReq) (d : List Nat) (n : Nat), (s₀.passes cmdRecExport r = true) ∧ (s = s₀.opened cmdRecExport r) ∧ (q = s₀.asked r 0x060B) ∧ (d = r.payload) ∧ (n = fieldOf d 4 4) ∧ fieldOf d 0 4 < recUnits ∧ (1 ≤ n) ∧ (n ≤ 65536) ∧ (s.inHost (fieldOf d 8 4) (4096 * n) = false)) :=
  ⟨⟨up, rq [0, 0, 0, 0, 2, 0, 0, 0, 255, 0, 255, 255, 0, 0, 0, 0, 208, 2, 80, 2, 0, 0, 0, 0, 1, 0, 0, 0, 0, 1], _, _, ⟨0, some 49⟩, _, by decide +kernel, rfl, rfl, by decide +kernel, by decide +kernel, rfl⟩,
    ⟨vx up (fun v => { v with calls := [0, 1, 2, 3, 4, 5, 6, 7].map (fun i => { call0 with ix := i }) }), rq [0, 0, 0, 0, 2, 0, 0, 0, 255, 0, 255, 255, 0, 0, 0, 0, 208, 2, 80, 2, 0, 0, 0, 0, 1, 0, 0, 0, 0, 1], _, _, ⟨0, some 49⟩, by decide +kernel, rfl, rfl, by decide +kernel, by decide +kernel⟩,
    ⟨up, rq [0, 0, 0, 0, 0, 0, 0, 0, 0, 0, 0, 0, 0, 0, 0, 0, 0, 0, 0, 0, 1, 0, 0, 0, 0, 0, 0, 0], _, _, by decide +kernel, rfl, rfl, by decide +kernel⟩,
    ⟨callUp, rq [0, 0, 0, 0, 0, 0, 0, 0], _, _, ⟨0, some 49⟩, by decide +kernel, rfl, rfl, by decide +kernel, by decide +kernel⟩,
    ⟨up, rq [8, 0, 0, 0, 0, 0, 0, 0], _, _, ⟨0, some 49⟩, by decide +kernel, rfl, rfl, by decide +kernel, by decide +kernel⟩,
    ⟨up, rq [], _, _, by decide +kernel, rfl, rfl⟩,
    ⟨up, rq (List.replicate 12 0), _, _, ⟨0, some 49⟩, by decide +kernel, rfl, rfl, by decide +kernel, by decide +kernel, by decide +kernel, by decide +kernel, by decide +kernel, by decide +kernel, by decide +kernel⟩,
    ⟨up, rq [8, 0, 0, 0, 0, 0, 0, 0, 0, 0, 0, 0], _, _, ⟨0, some 49⟩, by decide +kernel, rfl, rfl, by decide +kernel, by decide +kernel⟩,
    ⟨pmonUp, rq [0, 0, 0, 0], _, _, _, _, by decide +kernel, rfl, rfl, rfl, by decide +kernel, by decide +kernel, rfl, by decide +kernel⟩,
    ⟨up, rq [16, 0, 0, 0], _, _, by decide +kernel, rfl, rfl, by decide +kernel⟩,
    ⟨challenged (up), trusted (challenged (up)), signed (challenged (up)) cmdPmonClear.opcode [0, 0, 0, 0], _, [0, 0, 0, 0], _, (signed_ok cmdPmonClear (challenged (up)) ([0, 0, 0, 0]) (by decide +kernel)).1, (signed_ok cmdPmonClear (challenged (up)) ([0, 0, 0, 0]) (by decide +kernel)).2.1.symm, rfl, (signed_ok cmdPmonClear (challenged (up)) ([0, 0, 0, 0]) (by decide +kernel)).2.2.symm, rfl, by decide +kernel⟩,
    ⟨(fun s : State => { s with vox := { s.vox with stipa := none } }) up, rq [0, 0, 254, 0, 0, 0, 0, 0, 0, 0, 15, 0], _, _, _, by decide +kernel, rfl, rfl, by decide +kernel, by decide +kernel, by decide +kernel, by decide +kernel, by decide +kernel, by decide +kernel, by decide +kernel, by decide +kernel, rfl⟩,
    ⟨stipaUp, rq (List.replicate 12 0), _, _, ⟨0, 0, none, (0, 0), 15, 0, 0⟩, by decide +kernel, rfl, rfl, by decide +kernel⟩,
    ⟨vx up (fun v => { v with recUnits := [⟨0, 0, 0, 0, 0, 0, 0, 0, false, false⟩] }), rq [0, 0, 0, 0], _, _, _, by decide +kernel, rfl, rfl, rfl, by decide +kernel, by decide +kernel⟩,
    ⟨lockedUp, rq [0, 0, 0, 0], _, _, _, by decide +kernel, rfl, rfl, rfl, lockedUp_some, lockedUp_full⟩,
    ⟨challenged (vx up (fun v => { v with recUnits := [⟨0, 0, 0, 0, 0, 0, 0, 0, false, false⟩] })), trusted (challenged (vx up (fun v => { v with recUnits := [⟨0, 0, 0, 0, 0, 0, 0, 0, false, false⟩] }))), signed (challenged (vx up (fun v => { v with recUnits := [⟨0, 0, 0, 0, 0, 0, 0, 0, false, false⟩] }))) cmdRecUnlock.opcode [0, 0, 0, 0], _, [0, 0, 0, 0], _, (signed_ok cmdRecUnlock (challenged (vx up (fun v => { v with recUnits := [⟨0, 0, 0, 0, 0, 0, 0, 0, false, false⟩] }))) ([0, 0, 0, 0]) (by decide +kernel)).1, (signed_ok cmdRecUnlock (challenged (vx up (fun v => { v with recUnits := [⟨0, 0, 0, 0, 0, 0, 0, 0, false, false⟩] }))) ([0, 0, 0, 0]) (by decide +kernel)).2.1.symm, rfl, (signed_ok cmdRecUnlock (challenged (vx up (fun v => { v with recUnits := [⟨0, 0, 0, 0, 0, 0, 0, 0, false, false⟩] }))) ([0, 0, 0, 0]) (by decide +kernel)).2.2.symm, rfl, by decide +kernel⟩,
    ⟨challenged (up), trusted (challenged (up)), signed (challenged (up)) cmdRecUnlock.opcode [0, 0, 0, 0], _, [0, 0, 0, 0], (signed_ok cmdRecUnlock (challenged (up)) ([0, 0, 0, 0]) (by decide +kernel)).1, (signed_ok cmdRecUnlock (challenged (up)) ([0, 0, 0, 0]) (by decide +kernel)).2.1.symm, rfl, (signed_ok cmdRecUnlock (challenged (up)) ([0, 0, 0, 0]) (by decide +kernel)).2.2.symm, by decide +kernel⟩,
    ⟨up, rq [0, 0, 0, 0, 1, 0, 0, 0], _, _, _, _, by decide +kernel, rfl, rfl, rfl, rfl, by decide +kernel, by decide +kernel, by decide +kernel⟩,
    ⟨up, rq [0, 0, 0, 0, 128, 0, 0, 0], _, _, by decide +kernel, rfl, rfl, by decide +kernel⟩,
    ⟨challenged (host), trusted (challenged (host)), signed (challenged (host)) cmdRecExport.opcode [0, 0, 0, 0, 1, 0, 0, 0, 0, 0, 0, 0], _, [0, 0, 0, 0, 1, 0, 0, 0, 0, 0, 0, 0], _, (signed_ok cmdRecExport (challenged (host)) ([0, 0, 0, 0, 1, 0, 0, 0, 0, 0, 0, 0]) (by decide +kernel)).1, (signed_ok cmdRecExport (challenged (host)) ([0, 0, 0, 0, 1, 0, 0, 0, 0, 0, 0, 0]) (by decide +kernel)).2.1.symm, rfl, (signed_ok cmdRecExport (challenged (host)) ([0, 0, 0, 0, 1, 0, 0, 0, 0, 0, 0, 0]) (by decide +kernel)).2.2.symm, rfl, by decide +kernel, by decide +kernel, by decide +kernel, by decide +kernel⟩,
    ⟨challenged (up), trusted (challenged (up)), signed (challenged (up)) cmdRecExport.opcode [0, 0, 0, 0, 1, 0, 0, 0, 0, 0, 0, 0], _, [0, 0, 0, 0, 1, 0, 0, 0, 0, 0, 0, 0], _, (signed_ok cmdRecExport (challenged (up)) ([0, 0, 0, 0, 1, 0, 0, 0, 0, 0, 0, 0]) (by decide +kernel)).1, (signed_ok cmdRecExport (challenged (up)) ([0, 0, 0, 0, 1, 0, 0, 0, 0, 0, 0, 0]) (by decide +kernel)).2.1.symm, rfl, (signed_ok cmdRecExport (challenged (up)) ([0, 0, 0, 0, 1, 0, 0, 0, 0, 0, 0, 0]) (by decide +kernel)).2.2.symm, rfl, by decide +kernel, by decide +kernel, by decide +kernel, by decide +kernel⟩⟩

theorem witness_EthernetAndStreamRequests :
    (∃ (s : State) (r : Request) (q : OpenReq) (d : List Nat) (p : Nat), (s.passes cmdEthStatus r = true) ∧ (q = s.asked r 0x0701) ∧ (d = r.payload) ∧ (p = fieldOf d 0 1) ∧ p < 2) ∧
    (∃ (s : State) (r : Request) (q : OpenReq) (d : List Nat), (s.passes cmdEthStatus r = true) ∧ (q = s.asked r 0x0701) ∧ (d = r.payload) ∧ (2 ≤ fieldOf d 0 1)) ∧
    (∃ (s : State) (r : Request) (q : OpenReq) (d : List Nat) (p : Nat), (s.passes cmdEthCounters r = true) ∧ (q = s.asked r 0x0702) ∧ (d = r.payload) ∧ (p = fieldOf d 0 1) ∧ p < 2) ∧
    (∃ (s : State) (r : Request) (q : OpenReq) (d : List Nat), (s.passes cmdEthCounters r = true) ∧ (q = s.asked r 0x0702) ∧ (d = r.payload) ∧ (2 ≤ fieldOf d 0 1)) ∧
    (∃ (s : State) (r : Request) (q : OpenReq) (d : List Nat) (t : State), (s.passes cmdEthMdio r = true) ∧ (q = s.asked r 0x0703) ∧ (d = r.payload) ∧ fieldOf d 0 1 < 2 ∧ fieldOf d 1 1 < 2 ∧ fieldOf d 2 1 < 32 ∧ fieldOf d 3 1 < 32 ∧ (t = { s with mbx := { s.mbx with opens := s.mbx.opens ++ [{ q with pend := .mdio (fieldOf d 0 1) (fieldOf d 2 1) (fieldOf d 3 1) }] } })) ∧
    (∃ (s : State) (r : Request) (q : OpenReq) (d : List Nat), (s.passes cmdEthMdio r = true) ∧ (q = s.asked r 0x0703) ∧ (d = r.payload) ∧ (32 ≤ fieldOf d 2 1)) ∧
    (∃ (s : State) (r : Request) (q : OpenReq) (d : List Nat) (w : When), (s.passes cmdEthGateSet r = true) ∧ (q = s.asked r 0x0704) ∧ (d = r.payload) ∧ (s.etick (fieldOf d 8 4) = some w) ∧ (gateValid d = true)) ∧
    (∃ (s : State) (r : Request) (q : OpenReq) (d : List Nat) (w : When), (s.passes cmdEthGateSet r = true) ∧ (q = s.asked r 0x0704) ∧ (d = r.payload) ∧ (s.etick (fieldOf d 8 4) = some w) ∧ (gateValid d = false)) ∧
    (∃ (s : State) (r : Request) (q : OpenReq) (d : List Nat) (t : State), (s.passes cmdPtpSet r = true) ∧ (q = s.asked r 0x0705) ∧ (d = r.payload) ∧ fieldOf d 0 1 < 2 ∧ fieldOf d 4 1 < 3 ∧ fieldOf d 5 1 < 3 ∧ (t = s.ptpSet (fieldOf d 0 1 == 1) (fieldOf d 1 1) (fieldOf d 2 1) (fieldOf d 3 1) [fieldOf d 4 1, fieldOf d 5 1])) ∧
    (∃ (s : State) (r : Request) (q : OpenReq) (d : List Nat), (s.passes cmdPtpSet r = true) ∧ (q = s.asked r 0x0705) ∧ (d = r.payload) ∧ (3 ≤ fieldOf d 4 1)) ∧
    (∃ (s : State) (r : Request) (q : OpenReq) (d : List Nat), (s.passes cmdPtpStatus r = true) ∧ (q = s.asked r 0x0706) ∧ (d = r.payload)) ∧
    (∃ (s : State) (r : Request) (q : OpenReq) (d : List Nat) (t : State) (id : Nat), (s.passes cmdStreamAdd r = true) ∧ (q = s.asked r 0x0707) ∧ (d = r.payload) ∧ (streamValid d = true) ∧ (s.addStream d (fun _ => 0) = (some id, t))) ∧
    (∃ (s : State) (r : Request) (q : OpenReq) (d : List Nat) (t : State), (s.passes cmdStreamAdd r = true) ∧ (q = s.asked r 0x0707) ∧ (d = r.payload) ∧ (streamValid d = true) ∧ (s.addStream d (fun _ => 0) = (none, t))) ∧
    (∃ (s : State) (r : Request) (q : OpenReq) (d : List Nat), (s.passes cmdStreamAdd r = true) ∧ (q = s.asked r 0x0707) ∧ (d = r.payload) ∧ (streamValid d = false)) ∧
    (∃ (s : State) (r : Request) (q : OpenReq) (d : List Nat) (x : RtpStream), (s.passes cmdStreamRemove r = true) ∧ (q = s.asked r 0x0708) ∧ (d = r.payload) ∧ (s.unitStream (fieldOf d 0 4) = some x)) ∧
    (∃ (s : State) (r : Request) (q : OpenReq) (d : List Nat), (s.passes cmdStreamRemove r = true) ∧ (q = s.asked r 0x0708) ∧ (d = r.payload) ∧ (s.unitStream (fieldOf d 0 4) = none)) ∧
    (∃ (s : State) (r : Request) (q : OpenReq) (d : List Nat) (f : Nat), (s.passes cmdPralineSet r = true) ∧ (q = s.asked r 0x0709) ∧ (d = r.payload) ∧ (f = fieldOf d 2 1) ∧ fieldOf d 0 1 < 2 ∧ f < 2 ∧ fieldOf d 1 1 < 8) ∧
    (∃ (s : State) (r : Request) (q : OpenReq) (d : List Nat) (f : Nat), (s.passes cmdPralineSet r = true) ∧ (q = s.asked r 0x0709) ∧ (d = r.payload) ∧ (f = fieldOf d 2 1) ∧ fieldOf d 0 1 < 2 ∧ (2 ≤ f) ∧ f < 4 ∧ (fieldOf d 1 1 = 7)) ∧
    (∃ (s : State) (r : Request) (q : OpenReq) (d : List Nat), (s.passes cmdPralineSet r = true) ∧ (q = s.asked r 0x0709) ∧ (d = r.payload) ∧ (8 ≤ fieldOf d 1 1)) :=
  ⟨⟨up, rq [0, 0, 0, 0], _, _, _, by decide +kernel, rfl, rfl, rfl, by decide +kernel⟩,
    ⟨up, rq [2, 0, 0, 0], _, _, by decide +kernel, rfl, rfl, by decide +kernel⟩,
    ⟨up, rq [0, 0, 0, 0], _, _, _, by decide +kernel, rfl, rfl, rfl, by decide +kernel⟩,
    ⟨up, rq [2, 0, 0, 0], _, _, by decide +kernel, rfl, rfl, by decide +kernel⟩,
    ⟨up, rq [0, 0, 0, 0, 0, 0, 0, 0], _, _, _, by decide +kernel, rfl, rfl, by decide +kernel, by decide +kernel, by decide +kernel, by decide +kernel, rfl⟩,
    ⟨up, rq [0, 0, 32, 0, 0, 0, 0, 0], _, _, by decide +kernel, rfl, rfl, by decide +kernel⟩,
    ⟨up, rq [0, 0, 1, 0, 1, 0, 0, 0, 0, 0, 0, 0, 0, 0, 0, 0, 0, 0, 0, 0], _, _, ⟨0, some 49⟩, by decide +kernel, rfl, rfl, by decide +kernel, by decide +kernel⟩,
    ⟨up, rq (List.replicate 12 0), _, _, ⟨0, some 49⟩, by decide +kernel, rfl, rfl, by decide +kernel, by decide +kernel⟩,
    ⟨up, rq [0, 0, 0, 0, 0, 0, 0, 0], _, _, _, by decide +kernel, rfl, rfl, by decide +kernel, by decide +kernel, by decide +kernel, rfl⟩,
    ⟨up, rq [0, 0, 0, 0, 3, 0, 0, 0], _, _, by decide +kernel, rfl, rfl, by decide +kernel⟩,
    ⟨up, rq [], _, _, by decide +kernel, rfl, rfl⟩,
    ⟨up, rq [0, 0, 0, 1, 1, 0, 0, 0, 0, 0, 0, 0, 0, 0, 0, 0, 0, 0, 0, 0, 1, 0, 0, 0], _, _, _, _, by decide +kernel, rfl, rfl, by decide +kernel, Prod.ext (by decide +kernel) rfl⟩,
    ⟨{ up with eth := { up.eth with streams := [streamOf [0, 0, 0, 1, 1, 0, 0, 0, 0, 0, 0, 0, 0, 0, 0, 0, 0, 0, 0, 0, 1, 0, 0, 0] 0 0] } }, rq [0, 0, 0, 1, 1, 0, 0, 0, 0, 0, 0, 0, 0, 0, 0, 0, 0, 0, 0, 0, 1, 0, 0, 0], _, _, _, by decide +kernel, rfl, rfl, by decide +kernel, Prod.ext (by decide +kernel) rfl⟩,
    ⟨up, rq (List.replicate 24 0), _, _, by decide +kernel, rfl, rfl, by decide +kernel⟩,
    ⟨{ up with eth := { up.eth with streams := [streamOf [0, 0, 0, 1, 1, 0, 0, 0, 0, 0, 0, 0, 0, 0, 0, 0, 0, 0, 0, 0, 1, 0, 0, 0] 0 0] } }, rq ([] ++ leBytes 4 (unitId UClass.aes 0)), _, _, _, by decide +kernel, rfl, rfl, rfl⟩,
    ⟨up, rq [0, 0, 0, 0], _, _, by decide +kernel, rfl, rfl, by decide +kernel⟩,
    ⟨up, rq (List.replicate 24 0), _, _, _, by decide +kernel, rfl, rfl, rfl, by decide +kernel, by decide +kernel, by decide +kernel⟩,
    ⟨up, rq [0, 7, 2, 0, 0, 0, 0, 0, 0, 0, 0, 0, 0, 0, 0, 0, 0, 0, 0, 0, 0, 0, 0, 0], _, _, _, by decide +kernel, rfl, rfl, rfl, by decide +kernel, by decide +kernel, by decide +kernel, by decide +kernel⟩,
    ⟨up, rq [0, 8, 0, 0, 0, 0, 0, 0, 0, 0, 0, 0, 0, 0, 0, 0, 0, 0, 0, 0, 0, 0, 0, 0], _, _, by decide +kernel, rfl, rfl, by decide +kernel⟩⟩

theorem witness_CanRequests :
    (∃ (s : State) (r : Request) (q : OpenReq) (d : List Nat) (x : Nat) (src : Nat) (t : State), (s.passes cmdCanStatus r = true) ∧ (q = s.asked r 0x0801) ∧ (d = r.payload) ∧ (s.fresh = (x, t)) ∧ (src = (if t.tsrc = Tsrc.ring then 0 else if t.tsrc = Tsrc.reference then 1 else x % 256))) ∧
    (∃ (s : State) (r : Request) (q : OpenReq) (d : List Nat), (s.passes cmdCanSetRate r = true) ∧ (q = s.asked r 0x0802) ∧ (d = r.payload) ∧ fieldOf d 0 1 < 4 ∧ fieldOf d 1 1 < 3 ∧ (betweenInt (-32) 31 (signedOf d 2 1) = true) ∧ (s.schedFits (fieldOf d 0 1) (fieldOf d 1 1) s.can.sched = true)) ∧
    (∃ (s : State) (r : Request) (q : OpenReq) (d : List Nat), (s.passes cmdCanSetRate r = true) ∧ (q = s.asked r 0x0802) ∧ (d = r.payload) ∧ (s.schedFits (fieldOf d 0 1) (fieldOf d 1 1) s.can.sched = false)) ∧
    (∃ (s : State) (r : Request) (q : OpenReq) (d : List Nat) (w : When), (s.passes cmdCanSchedSet r = true) ∧ (q = s.asked r 0x0803) ∧ (d = r.payload) ∧ (s.etick (fieldOf d 4 4) = some w) ∧ (1 ≤ fieldOf d 0 1) ∧ (fieldOf d 0 1 ≤ 64) ∧ ((List.range (fieldOf d 0 1)).all (fun i => decide (fieldOf d (12 + 8 * i) 1 < 2) && fieldOf d (14 + 8 * i) 2 == 0) = true) ∧ (s.schedFits (s.get CAN.CFG.NOM) (s.get CAN.CFG.DATA) (schedList d) = true)) ∧
    (∃ (s : State) (r : Request) (q : OpenReq) (d : List Nat) (w : When), (s.passes cmdCanSchedSet r = true) ∧ (q = s.asked r 0x0803) ∧ (d = r.payload) ∧ (s.etick (fieldOf d 4 4) = some w) ∧ 64 < fieldOf d 0 1) ∧
    (∃ (s : State) (r : Request) (q : OpenReq) (d : List Nat) (id : Nat) (ext : Bool), (s.passes cmdCanObjSet r = true) ∧ (q = s.asked r 0x0804) ∧ (d = r.payload) ∧ (ext = bit (fieldOf d 2 1) 3) ∧ (id = fieldOf d 4 4) ∧ (16 ≤ fieldOf d 0 1) ∧ (fieldOf d 0 1 ≤ 127) ∧ fieldOf d 1 1 < 2 ∧ fieldOf d 2 1 < 16 ∧ fieldOf d 3 1 < 16 ∧ id < (if ext then 2 ^ 29 else 2 ^ 11) ∧ fieldOf d 8 4 < 2 ^ 29 ∧ (s.ownId id ext = false)) ∧
    (∃ (s : State) (r : Request) (q : OpenReq) (d : List Nat), (s.passes cmdCanObjSet r = true) ∧ (q = s.asked r 0x0804) ∧ (d = r.payload) ∧ fieldOf d 0 1 < 16) ∧
    (∃ (s : State) (r : Request) (q : OpenReq) (d : List Nat) (k : Nat) (n : Nat) (t : State), (s.passes cmdCanSend r = true) ∧ (q = s.asked r 0x0805) ∧ (d = r.payload) ∧ (k = fieldOf d 0 1) ∧ (n = fieldOf d 1 1) ∧ (16 ≤ k) ∧ (k ≤ 127) ∧ (n ≤ 64) ∧ ((n ≤ 8 ∨ s.flag (CAN.OBJ_CFG.FD k) = true)) ∧ (s.flag (CAN.OBJ_STAT.TX_PEND k) = false) ∧ (t = s.storeWrite (s.objCopy k 0 + 16) (padTo 64 (d.drop 4)))) ∧
    (∃ (s : State) (r : Request) (q : OpenReq) (d : List Nat) (k : Nat) (n : Nat), (s.passes cmdCanSend r = true) ∧ (q = s.asked r 0x0805) ∧ (d = r.payload) ∧ (k = fieldOf d 0 1) ∧ (n = fieldOf d 1 1) ∧ (16 ≤ k) ∧ (k ≤ 127) ∧ (n ≤ 8) ∧ (s.flag (CAN.OBJ_STAT.TX_PEND k) = true)) ∧
    (∃ (s : State) (r : Request) (q : OpenReq) (d : List Nat), (s.passes cmdCanSend r = true) ∧ (q = s.asked r 0x0805) ∧ (d = r.payload) ∧ 64 < fieldOf d 1 1) ∧
    (∃ (s : State) (r : Request) (q : OpenReq) (d : List Nat) (t : State), (s.passes cmdCanWakeSet r = true) ∧ (q = s.asked r 0x0806) ∧ (d = r.payload) ∧ fieldOf d 0 1 < 2 ∧ (t = { s with can := { s.can with wake := (fieldOf d 4 4, fieldOf d 8 4, (d.drop 12).take 8, (d.drop 20).take 8) } })) ∧
    (∃ (s : State) (r : Request) (q : OpenReq) (d : List Nat), (s.passes cmdCanWakeSet r = true) ∧ (q = s.asked r 0x0806) ∧ (d = r.payload) ∧ (2 ≤ fieldOf d 0 1)) :=
  ⟨⟨up, rq [], _, _, _, _, _, by decide +kernel, rfl, rfl, rfl, rfl⟩,
    ⟨canSt up (fun c => { c with sched := [⟨0, 10000, false, 0⟩] }), rq [3, 2, 0, 0], _, _, by decide +kernel, rfl, rfl, by decide +kernel, by decide +kernel, by decide +kernel, by decide +kernel⟩,
    ⟨up, rq [0, 0, 0, 0], _, _, by decide +kernel, rfl, rfl, by decide +kernel⟩,
    ⟨(up.set CAN.CFG.NOM 3).set CAN.CFG.DATA 2, rq [1, 0, 0, 0, 0, 0, 0, 0, 0, 0, 16, 39, 0, 0, 0, 0], _, _, ⟨0, some 49⟩, by decide +kernel, rfl, rfl, by decide +kernel, by decide +kernel, by decide +kernel, by decide +kernel, by decide +kernel⟩,
    ⟨up, rq [65, 0, 0, 0, 0, 0, 0, 0, 0, 0, 0, 0, 0, 0, 0, 0, 0, 0, 0, 0, 0, 0, 0, 0, 0, 0, 0, 0, 0, 0, 0, 0, 0, 0, 0, 0, 0, 0, 0, 0, 0, 0, 0, 0, 0, 0, 0, 0, 0, 0, 0, 0, 0, 0, 0, 0, 0, 0, 0, 0, 0, 0, 0, 0, 0, 0, 0, 0, 0, 0, 0, 0, 0, 0, 0, 0, 0, 0, 0, 0, 0, 0, 0, 0, 0, 0, 0, 0, 0, 0, 0, 0, 0, 0, 0, 0, 0, 0, 0, 0, 0, 0, 0, 0, 0, 0, 0, 0, 0, 0, 0, 0, 0, 0, 0, 0, 0, 0, 0, 0, 0, 0, 0, 0, 0, 0, 0, 0, 0, 0, 0, 0, 0, 0, 0, 0, 0, 0, 0, 0, 0, 0, 0, 0, 0, 0, 0, 0, 0, 0, 0, 0, 0, 0, 0, 0, 0, 0, 0, 0, 0, 0, 0, 0, 0, 0, 0, 0, 0, 0, 0, 0, 0, 0, 0, 0, 0, 0, 0, 0, 0, 0, 0, 0, 0, 0, 0, 0, 0, 0, 0, 0, 0, 0, 0, 0, 0, 0, 0, 0, 0, 0, 0, 0, 0, 0, 0, 0, 0, 0, 0, 0, 0, 0, 0, 0, 0, 0, 0, 0, 0, 0, 0, 0, 0, 0, 0, 0, 0, 0, 0, 0, 0, 0, 0, 0, 0, 0, 0, 0, 0, 0, 0, 0, 0, 0, 0, 0, 0, 0, 0, 0, 0, 0, 0, 0, 0, 0, 0, 0, 0, 0, 0, 0, 0, 0, 0, 0, 0, 0, 0, 0, 0, 0, 0, 0, 0, 0, 0, 0, 0, 0, 0, 0, 0, 0, 0, 0, 0, 0, 0, 0, 0, 0, 0, 0, 0, 0, 0, 0, 0, 0, 0, 0, 0, 0, 0, 0, 0, 0, 0, 0, 0, 0, 0, 0, 0, 0, 0, 0, 0, 0, 0, 0, 0, 0, 0, 0, 0, 0, 0, 0, 0, 0, 0, 0, 0, 0, 0, 0, 0, 0, 0, 0, 0, 0, 0, 0, 0, 0, 0, 0, 0, 0, 0, 0, 0, 0, 0, 0, 0, 0, 0, 0, 0, 0, 0, 0, 0, 0, 0, 0, 0, 0, 0, 0, 0, 0, 0, 0, 0, 0, 0, 0, 0, 0, 0, 0, 0, 0, 0, 0, 0, 0, 0, 0, 0, 0, 0, 0, 0, 0, 0, 0, 0, 0, 0, 0, 0, 0, 0, 0, 0, 0, 0, 0, 0, 0, 0, 0, 0, 0, 0, 0, 0, 0, 0, 0, 0, 0, 0, 0, 0, 0, 0, 0, 0, 0, 0, 0, 0, 0, 0, 0, 0, 0, 0, 0, 0, 0, 0, 0, 0, 0, 0, 0, 0, 0, 0, 0, 0, 0, 0, 0, 0, 0, 0, 0, 0, 0, 0, 0, 0, 0, 0, 0, 0, 0, 0, 0, 0, 0, 0, 0, 0, 0, 0, 0, 0, 0, 0, 0, 0, 0, 0, 0, 0, 0, 0, 0, 0, 0, 0, 0, 0, 0, 0, 0, 0, 0, 0, 0, 0, 0, 0, 0, 0, 0, 0, 0, 0, 0, 0, 0, 0, 0, 0, 0], _, _, ⟨0, some 49⟩, by decide +kernel, rfl, rfl, by decide +kernel, by decide +kernel⟩,
    ⟨up, rq [16, 0, 0, 0, 255, 7, 0, 0, 0, 0, 0, 0], _, _, _, _, by decide +kernel, rfl, rfl, rfl, rfl, by decide +kernel, by decide +kernel, by decide +kernel, by decide +kernel, by decide +kernel, by decide +kernel, by decide +kernel, by decide +kernel⟩,
    ⟨up, rq [15, 0, 0, 0, 0, 0, 0, 0, 0, 0, 0, 0], _, _, by decide +kernel, rfl, rfl, by decide +kernel⟩,
    ⟨((up.setFlag (CAN.OBJ_CFG.DIR 16) true).setFlag (CAN.OBJ_CFG.EN 16) true), rq [16, 0, 0, 0], _, _, 16, _, _, by decide +kernel, rfl, rfl, by decide +kernel, rfl, by decide +kernel, by decide +kernel, by decide +kernel, by decide +kernel, by decide +kernel, rfl⟩,
    ⟨(((up.setFlag (CAN.OBJ_CFG.DIR 16) true).setFlag (CAN.OBJ_CFG.EN 16) true).setFlag (CAN.OBJ_STAT.TX_PEND 16) true), rq [16, 0, 0, 0], _, _, 16, _, by decide +kernel, rfl, rfl, by decide +kernel, rfl, by decide +kernel, by decide +kernel, by decide +kernel, by decide +kernel⟩,
    ⟨up, rq [0, 65, 0, 0, 0, 0, 0, 0, 0, 0, 0, 0, 0, 0, 0, 0, 0, 0, 0, 0, 0, 0, 0, 0, 0, 0, 0, 0, 0, 0, 0, 0, 0, 0, 0, 0, 0, 0, 0, 0, 0, 0, 0, 0, 0, 0, 0, 0, 0, 0, 0, 0, 0, 0, 0, 0, 0, 0, 0, 0, 0, 0, 0, 0, 0, 0, 0, 0, 0], _, _, by decide +kernel, rfl, rfl, by decide +kernel⟩,
    ⟨up, rq (List.replicate 28 0), _, _, _, by decide +kernel, rfl, rfl, by decide +kernel, rfl⟩,
    ⟨up, rq [2, 0, 0, 0, 0, 0, 0, 0, 0, 0, 0, 0, 0, 0, 0, 0, 0, 0, 0, 0, 0, 0, 0, 0, 0, 0, 0, 0], _, _, by decide +kernel, rfl, rfl, by decide +kernel⟩⟩

theorem witness_RequestChecksInOrder :
    (∃ (c : Cmd) (s : State) (r : Request) (q : OpenReq) (d : List Nat), (q = s.asked r c.opcode) ∧ (d = r.payload) ∧ (s.decikRuns = false)) ∧
    (∃ (c : Cmd) (s : State) (r : Request) (q : OpenReq) (d : List Nat), (q = s.asked r c.opcode) ∧ (d = r.payload) ∧ (s.mayConsume r.ch.val = false) ∧ r.ch.val ≠ 3) ∧
    (∃ (c : Cmd) (s : State) (r : Request) (q : OpenReq) (d : List Nat), (q = s.asked r c.opcode) ∧ (d = r.payload) ∧ (s.decikRuns = true) ∧ (s.mayConsume r.ch.val = true) ∧ 4080 < r.len) ∧
    (∃ (c : Cmd) (s : State) (r : Request) (q : OpenReq) (d : List Nat), (q = s.asked r c.opcode) ∧ (d = r.payload) ∧ (s.decikRuns = true) ∧ (s.mayConsume r.ch.val = true) ∧ (r.len ≤ 4080) ∧ ((r.tag % 65536 = 0 ∨ (∃ o ∈ s.opensOf r.ch.val, o.tag = r.tag % 65536) ∨ r.flags / 4 ≠ 0 ∨ r.rsv ≠ 0))) ∧
    (∃ (c : Cmd) (s : State) (r : Request) (q : OpenReq) (d : List Nat), (q = s.asked r c.opcode) ∧ (d = r.payload) ∧ (s.decikRuns = true) ∧ (s.mayConsume r.ch.val = true) ∧ (r.len ≤ 4080) ∧ r.tag % 65536 ≠ 0 ∧ ((∀ o ∈ s.opensOf r.ch.val, o.tag ≠ r.tag % 65536)) ∧ ((r.flags = 0 ∨ r.flags = 1)) ∧ (r.rsv = 0) ∧ (s.permits c r.ch.val d = false)) ∧
    (∃ (c : Cmd) (s : State) (r : Request) (q : OpenReq) (d : List Nat), (q = s.asked r c.opcode) ∧ (d = r.payload) ∧ (s.decikRuns = true) ∧ (s.mayConsume r.ch.val = true) ∧ (r.len ≤ 4080) ∧ r.tag % 65536 ≠ 0 ∧ ((∀ o ∈ s.opensOf r.ch.val, o.tag ≠ r.tag % 65536)) ∧ ((r.flags = 0 ∨ r.flags = 1)) ∧ (r.rsv = 0) ∧ (s.permits c r.ch.val d = true) ∧ (c.len d = false)) ∧
    (∃ (c : Cmd) (s : State) (r : Request) (q : OpenReq) (d : List Nat), (q = s.asked r c.opcode) ∧ (d = r.payload) ∧ (s.decikRuns = true) ∧ (s.mayConsume r.ch.val = true) ∧ (r.len ≤ 4080) ∧ r.tag % 65536 ≠ 0 ∧ ((∀ o ∈ s.opensOf r.ch.val, o.tag ≠ r.tag % 65536)) ∧ ((r.flags = 0 ∨ r.flags = 1)) ∧ (r.rsv = 0) ∧ (s.permits c r.ch.val d = true) ∧ (c.len d = true) ∧ (r.flags = 0) ∧ (c.auth s r.ch.val d = true) ∧ (s.flag SEC.STAT.TAMPER = true) ∧ c.opcode ≠ 0x0A05) ∧
    (∃ (c : Cmd) (s : State) (r : Request) (q : OpenReq) (d : List Nat), (q = s.asked r c.opcode) ∧ (d = r.payload) ∧ (s.decikRuns = true) ∧ (s.mayConsume r.ch.val = true) ∧ (r.len ≤ 4080) ∧ r.tag % 65536 ≠ 0 ∧ ((∀ o ∈ s.opensOf r.ch.val, o.tag ≠ r.tag % 65536)) ∧ ((r.flags = 0 ∨ r.flags = 1)) ∧ (r.rsv = 0) ∧ (s.permits c r.ch.val d = true) ∧ (c.len d = true) ∧ (r.flags = 0) ∧ (c.auth s r.ch.val d = true) ∧ (s.flag SEC.STAT.TAMPER = false)) ∧
    (∃ (c : Cmd) (s : State) (r : Request) (q : OpenReq) (d : List Nat), (q = s.asked r c.opcode) ∧ (d = r.payload) ∧ (s.decikRuns = true) ∧ (s.mayConsume r.ch.val = true) ∧ (r.len ≤ 4080) ∧ r.tag % 65536 ≠ 0 ∧ ((∀ o ∈ s.opensOf r.ch.val, o.tag ≠ r.tag % 65536)) ∧ ((r.flags = 0 ∨ r.flags = 1)) ∧ (r.rsv = 0) ∧ (s.permits c r.ch.val d = true) ∧ (c.len d = true) ∧ (r.flags = 0) ∧ (c.auth s r.ch.val d = false) ∧ ((s.modeAccepts c.opcode = false ∨ c.accept s d = false))) ∧
    (∃ (c : Cmd) (s : State) (r : Request) (q : OpenReq) (d : List Nat), (q = s.asked r c.opcode) ∧ (d = r.payload) ∧ (s.decikRuns = true) ∧ (s.mayConsume r.ch.val = true) ∧ (r.len ≤ 4080) ∧ r.tag % 65536 ≠ 0 ∧ ((∀ o ∈ s.opensOf r.ch.val, o.tag ≠ r.tag % 65536)) ∧ ((r.flags = 0 ∨ r.flags = 1)) ∧ (r.rsv = 0) ∧ (s.permits c r.ch.val d = true) ∧ (c.len d = true) ∧ (r.flags = 0) ∧ (c.auth s r.ch.val d = false) ∧ (s.modeAccepts c.opcode = true) ∧ (c.accept s d = true) ∧ (c.versioned = true) ∧ (s.versionOk r.cfgver (c.effective s d) = false)) :=
  ⟨⟨cmdPing, r0, rq [], _, _, rfl, rfl, by decide +kernel⟩,
    ⟨cmdPing, { up with mbx := { up.mbx with opens := List.replicate 32 (open0 .answered) } }, rq [], _, _, rfl, rfl, by decide +kernel, by decide +kernel⟩,
    ⟨cmdPing, up, { rq [] with len := 4081 }, _, _, rfl, rfl, by decide +kernel, by decide +kernel, by decide +kernel⟩,
    ⟨cmdPing, up, { rq [] with len := 4080, tag := 0 }, _, _, rfl, rfl, by decide +kernel, by decide +kernel, by decide +kernel, by decide +kernel⟩,
    ⟨cmdPing, up, { rq [] with ch := 3 }, _, _, rfl, rfl, by decide +kernel, by decide +kernel, by decide +kernel, by decide +kernel, by decide +kernel, by decide +kernel, by decide +kernel, by decide +kernel⟩,
    ⟨cmdPlayStatus, up, rq [1], _, _, rfl, rfl, by decide +kernel, by decide +kernel, by decide +kernel, by decide +kernel, by decide +kernel, by decide +kernel, by decide +kernel, by decide +kernel, by decide +kernel⟩,
    ⟨cmdRingSetRank, up.setFlag SEC.STAT.TAMPER true, rq [0, 0, 0, 0], _, _, rfl, rfl, by decide +kernel, by decide +kernel, by decide +kernel, by decide +kernel, by decide +kernel, by decide +kernel, by decide +kernel, by decide +kernel, by decide +kernel, by decide +kernel, by decide +kernel, by decide +kernel, by decide +kernel⟩,
    ⟨cmdRingSetRank, up.setFlag SEC.STAT.TAMPER false, rq [0, 0, 0, 0], _, _, rfl, rfl, by decide +kernel, by decide +kernel, by decide +kernel, by decide +kernel, by decide +kernel, by decide +kernel, by decide +kernel, by decide +kernel, by decide +kernel, by decide +kernel, by decide +kernel, by decide +kernel⟩,
    ⟨cmdPlayStatus, up.set PWR.STAT.STATE Pw.standby, rq [], _, _, rfl, rfl, by decide +kernel, by decide +kernel, by decide +kernel, by decide +kernel, by decide +kernel, by decide +kernel, by decide +kernel, by decide +kernel, by decide +kernel, by decide +kernel, by decide +kernel, by decide +kernel⟩,
    ⟨cmdPlayStop, voiceUp, { rq [0, 0, 0, 0, 0, 0, 0, 0] with cfgver := 0 }, _, _, rfl, rfl, by decide +kernel, by decide +kernel, by decide +kernel, by decide +kernel, by decide +kernel, by decide +kernel, by decide +kernel, by decide +kernel, by decide +kernel, by decide +kernel, by decide +kernel, by decide +kernel, by decide +kernel, by decide +kernel, by decide +kernel⟩⟩

theorem witness_TickPositionIsReadConsistently :
    (∃ (s : State) (p : Fin 20854) (x : Fin 20854), (s.domOn (regDomain GLB.TICK_SEQ.off) = true)) ∧
    (∃ (s : State) (t : State) (a : Nat) (n : Nat) (p : Fin 20854) (x : Fin 20854), a / 4 * 4 ≠ GLB.TICK_SEQ.off ∧ (exec (.rcFieldRead a n p) s = .next t) ∧ (t.domOn (regDomain GLB.TICK_SEQ.off) = true)) ∧
    (∃ (s : State) (t : State) (a : Nat) (e : Fin 16) (w : Word) (x : Fin 20854), (wholeWord a e.val = false ∨ (a = PWR.WAKE_TO0.off ∧ e.val = 15)) ∧ (exec (.registerWrite a e w) s = .next t) ∧ (t.domOn (regDomain GLB.TICK_SEQ.off) = true)) :=
  ⟨⟨up, 0, 0, by decide +kernel⟩,
    ⟨up, _, 0, 0, 0, 0, by decide +kernel, rfl, by decide +kernel⟩,
    ⟨up, _, 0, 0, 0, 0, by decide +kernel, rfl, by decide +kernel⟩⟩

theorem witness_BetterMaster :
    (∃ (ex : Nat) (rx : Nat) (ey : Nat) (ry : Nat) (ux : DWord) (uy : DWord), ex < 65536 ∧ ey < 65536) ∧
    (∃ (ex : Nat) (rx : Nat) (ey : Nat) (ry : Nat) (ux : DWord) (uy : DWord), ex < 65536 ∧ ey < 65536 ∧ ((ex : Int) - ey) % 65536 ≠ 32768 ∧ ((ex ≠ ey ∨ rx ≠ ry ∨ ux ≠ uy))) :=
  ⟨⟨0, 0, 0, 0, 0, 0, by decide +kernel, by decide +kernel⟩,
    ⟨65535, 0, 0, 0, 0, 0, by decide +kernel, by decide +kernel, by decide +kernel, by decide +kernel⟩⟩

theorem witness_CanaryPattern :
    (∃ (n : Nat) (b : Nat) (i : Nat), (i % 2 = 0)) ∧
    (∃ (n : Nat) (b : Nat) (i : Nat), (i % 2 = 1)) ∧
    (∃ (n : Nat) (m : Nat) (b : Nat) (i : Nat), n < 2 ^ 32 ∧ m < 2 ^ 32 ∧ n ≠ m) ∧
    (∃ (n : Nat) (b : Nat) (c : Nat) (i : Nat), b < 16 ∧ c < 16 ∧ b ≠ c) :=
  ⟨⟨0, 0, 0, by decide +kernel⟩,
    ⟨0, 0, 1, by decide +kernel⟩,
    ⟨1, 0, 0, 0, by decide +kernel, by decide +kernel, by decide +kernel⟩,
    ⟨0, 15, 0, 0, by decide +kernel, by decide +kernel, by decide +kernel⟩⟩

theorem witness_PauseFramesThatAreDropped :
    (∃ (s : State) (u : State) (t : State) (p : Fin 2) (f : EthRx), (s.ethUp p.val = true) ∧ (rxFault f = none) ∧ (f.bufFull = false) ∧ (ethType f.bytes = 0x8808) ∧ (u = s.rxCounted p.val f.bytes) ∧ (t = u.ethCount p.val 5 1) ∧ ((beAt f.bytes 14 2 ≠ 1 ∨ (ethDst f.bytes ≠ 0x0180C2000001 ∧ ethDst f.bytes ≠ u.ethMac p.val) ∨ f.bytes.length ≠ 60))) ∧
    (∃ (s : State) (u : State) (t : State) (p : Fin 2) (f : EthRx), (s.ethUp p.val = true) ∧ (rxFault f = none) ∧ (f.bufFull = false) ∧ (ethType f.bytes = 0x8808) ∧ (u = s.rxCounted p.val f.bytes) ∧ (t = u.ethCount p.val 5 1) ∧ (beAt f.bytes 14 2 = 1) ∧ ((ethDst f.bytes = 0x0180C2000001 ∨ ethDst f.bytes = u.ethMac p.val)) ∧ (f.bytes.length = 60) ∧ (t.flag (ETH.CFG.PAUSE_IGN p.val) = true)) :=
  ⟨⟨(up.setFlag (ETH.CFG.EN 0) true).setFlag (ETH.STAT.LINK 0) true, _, _, 0, rx (pause [0, 2]), by decide +kernel, by decide +kernel, by decide +kernel, by decide +kernel, rfl, rfl, by decide +kernel⟩,
    ⟨ethOn.setFlag (ETH.CFG.PAUSE_IGN 0) true, _, _, 0, rx (pause [0, 1]), by decide +kernel, by decide +kernel, by decide +kernel, by decide +kernel, rfl, rfl, by decide +kernel, by decide +kernel, by decide +kernel, by decide +kernel⟩⟩

/-- RegisterWriteRules, the clause of PWR.WAKE_TO0 and those of GLB.TICK_SEQ: the registers are there. -/
theorem witness_RegisterWriteRules_reaches : up.reaches GLB.TICK_SEQ.off = true ∧ up.reaches PWR.WAKE_TO0.off = true := by decide +kernel

/-- The node in the verifying step of its start, its first copy next. -/
def verifying : State :=
  { (r0.set PWR.STAT.STATE Pw.starting).set GLB.BOOT_STAT.STATE 2 with pwr := { r0.pwr with step := 0, resetWait := 0, stopped := false, copy := 0 } }

/-- StartSteps, the clause of a good bundle: it rests on Config.signatureOk and Config.sha256, whose answers make the bundle good. -/
theorem witness_StartSteps_good (b : List Nat) (h : verifying.bundleFault b = 0) :
    ∃ (s : State) (b : List Nat), s.bootIn 2 = true ∧ s.pwr.copy = 0 ∧ s.bundleFault b = 0 :=
  ⟨verifying, b, by decide +kernel, by decide +kernel, h⟩

/-- A loaded image. -/
def loadedImage : List Nat := List.replicate 128 0

/-- A node that holds it. -/
def loadedUp : State := { up with cfg := { up.cfg with loaded := some loadedImage } }

/-- ConfigurationRequests, the clause of an accepted CFG_APPLY: it rests on Config.imageOf, headerOf and signatureOk. -/
theorem witness_ConfigurationRequests_apply (h : loadedUp.imageStatus loadedImage = Status.ok)
    (k : loadedUp.admits (Config.imageOf loadedImage) = true) :
    ∃ (s : State) (r : Request) (d : List Nat) (w : When) (b : List Nat), s.passes cmdCfgApply r = true ∧ d = r.payload ∧
      s.commitTick (fieldOf d 0 4) = some w ∧ s.cfg.loaded = some b ∧ fieldOf d 4 2 ≤ 600 ∧ s.imageStatus b = Status.ok ∧
      s.admits (Config.imageOf b) = true ∧ s.followerHas = true ∧ s.flag PWR.STAT.PDW = false ∧ s.cfg.mediaBad = false :=
  ⟨loadedUp, rq (List.replicate 8 0), List.replicate 8 0, ⟨0, some 4800⟩, loadedImage, by decide +kernel, by decide +kernel,
    by decide +kernel, by decide +kernel, by decide +kernel, h, k, by decide +kernel, by decide +kernel, by decide +kernel⟩

/-- A clip of one sample whose descriptor holds 32 zeros as its digest. -/
def clipBytes : List Nat := [7, 0, 0, 0, 1, 0, 0, 0, 1, 0, 0, 0] ++ List.replicate 38 0

/-- LIB_LOAD's only fragment with it. -/
def clipFragment : List Nat := [50, 0, 0, 0, 0, 0, 0, 0, 50, 0, 3, 0, 0, 0, 0, 0] ++ clipBytes

/-- A node with a library region. -/
def library : State := { up with mem := { up.mem with regions := [⟨4, 4, false, 0⟩] } }

/-- PlaybackRequests, the clause of a clip taken: it rests on Config.sha256. -/
theorem witness_PlaybackRequests_taken (h : Config.sha256 [0, 0] = List.replicate 32 0) :
    ∃ (s : State) (r : Request) (q : OpenReq) (d : List Nat) (t u : State) (b : List Nat), s.passes cmdLibLoad r = true ∧
      q = s.asked r 0x0501 ∧ d = r.payload ∧ fieldOf d 0 4 ≤ 48 + 2 ^ 30 ∧ s.takeFragment q.ch 0x0501 d = (.whole b, t) ∧
      t.libTake b = (Status.ok, u) := by
  refine ⟨library, rq clipFragment, _, clipFragment, _, _, clipBytes, by decide +kernel, rfl, by decide +kernel, by decide +kernel,
    Prod.ext (by decide +kernel) rfl, Prod.ext ?_ rfl⟩
  have e : clipBytes.drop 48 = [0, 0] := by decide +kernel
  unfold State.libTake
  simp only [e, h]
  decide +kernel

end Sys2Proof.Tests
end

section
/-! PROOFS. The order of two masters (R204): later EPOCH, then higher RANK, then lower UID. -/

namespace Sys2Proof.Machine

/-! ## Later counters (R137) -/

theorem topoLater_iff {a b : Nat} (ha : a < 65536) (hb : b < 65536) :
    topoLater a b = true ↔ 1 ≤ ((a : Int) - b) % 65536 ∧ ((a : Int) - b) % 65536 ≤ 32767 := by
  simp only [topoLater, Bool.and_eq_true, decide_eq_true_eq]
  omega

/-- The two differences of two different counters add up to 65,536: unless both are 32,768, exactly one is below it. -/
theorem topoLater_eq_not_swap {a b : Nat} (ha : a < 65536) (hb : b < 65536) (hne : a ≠ b)
    (hopp : ((a : Int) - b) % 65536 ≠ 32768) : topoLater a b = !topoLater b a := by
  rw [Bool.eq_iff_iff, Bool.not_eq_true', ← Bool.not_eq_true, topoLater_iff ha hb, topoLater_iff hb ha]
  have hsum : ((a : Int) - b) % 65536 + ((b : Int) - a) % 65536 = 65536 := by omega
  omega

/-! ## Higher rank, then lower UID -/

theorem betterRank_iff (rx ry : Nat) (ux uy : DWord) :
    betterRank rx ux ry uy = true ↔ ry < rx ∨ (rx = ry ∧ ux < uy) := by
  simp [betterRank, BitVec.lt_def]

theorem betterRank_self (r : Nat) (u : DWord) : betterRank r u r u = false := by
  rw [← Bool.not_eq_true, betterRank_iff]
  simp

/-- Two different pairs of rank and UID: by trichotomy of the ranks, then of the UIDs. -/
theorem betterRank_eq_not_swap {rx ry : Nat} {ux uy : DWord} (hne : rx ≠ ry ∨ ux ≠ uy) :
    betterRank rx ux ry uy = !betterRank ry uy rx ux := by
  rw [Bool.eq_iff_iff, Bool.not_eq_true', ← Bool.not_eq_true, betterRank_iff, betterRank_iff]
  rcases Nat.lt_trichotomy rx ry with hr | rfl | hr
  · simp [hr, hr.ne, hr.not_gt]
  · have hu : ux ≠ uy := hne.resolve_left (fun h => h rfl)
    simp only [lt_irrefl, true_and, false_or, BitVec.not_lt]
    exact ⟨BitVec.le_of_lt, fun h => BitVec.lt_of_le_ne h hu⟩
  · simp [hr, hr.ne, hr.not_gt]

/-! ## The better master (R204) -/

@[simp] theorem betterMaster_of_epoch_eq (e rx ry : Nat) (ux uy : DWord) :
    betterMaster e rx ux e ry uy = betterRank rx ux ry uy := if_pos rfl

theorem betterMaster_of_epoch_ne {ex ey : Nat} (h : ex ≠ ey) (rx ry : Nat) (ux uy : DWord) :
    betterMaster ex rx ux ey ry uy = topoLater ex ey := if_neg h

theorem betterMaster_iff {ex ey : Nat} (hx : ex < 65536) (hy : ey < 65536) (rx ry : Nat) (ux uy : DWord) :
    betterMaster ex rx ux ey ry uy = true ↔
      (1 ≤ ((ex : Int) - ey) % 65536 ∧ ((ex : Int) - ey) % 65536 ≤ 32767) ∨
        (ex = ey ∧ (ry < rx ∨ (rx = ry ∧ ux < uy))) := by
  by_cases he : ex = ey
  · subst he
    simp [betterRank_iff]
  · rw [betterMaster_of_epoch_ne he, topoLater_iff hx hy]
    simp [he]

theorem betterMaster_self (e r : Nat) (u : DWord) : betterMaster e r u e r u = false :=
  (betterMaster_of_epoch_eq e r r u u).trans (betterRank_self r u)

theorem betterMaster_eq_not_swap {ex rx ey ry : Nat} {ux uy : DWord} (hx : ex < 65536) (hy : ey < 65536)
    (hopp : ((ex : Int) - ey) % 65536 ≠ 32768) (hne : ex ≠ ey ∨ rx ≠ ry ∨ ux ≠ uy) :
    betterMaster ex rx ux ey ry uy = !betterMaster ey ry uy ex rx ux := by
  by_cases he : ex = ey
  · subst he
    simpa using betterRank_eq_not_swap (hne.resolve_left (fun h => h rfl))
  · rw [betterMaster_of_epoch_ne he, betterMaster_of_epoch_ne (Ne.symm he)]
    exact topoLater_eq_not_swap hx hy he hopp

end Sys2Proof.Machine

namespace Sys2Proof.Proofs

open Sys2Proof.Machine

/-- Settles O58: the epochs decide where they differ, rank and UID where they are equal, and swapping two different masters
negates either comparison. -/
theorem betterMaster : Obligations.BetterMaster := by
  intro ex rx ey ry ux uy hx hy
  exact ⟨betterMaster_iff hx hy rx ry ux uy, betterMaster_self ex rx ux, betterMaster_eq_not_swap hx hy⟩

end Sys2Proof.Proofs
end

section
/-! PROOFS. The pattern of the canary pages (R313). -/

namespace Sys2Proof.Machine

theorem canaryWord_of_even (n b : Nat) {i : Nat} (hi : i % 2 = 0) :
    canaryWord n b i = (n * 0x9E3779B9 + b * 0x01000193 + i * 0x01010101) % 2 ^ 32 :=
  if_neg (by omega)

theorem canaryWord_of_odd (n b : Nat) {i : Nat} (hi : i % 2 = 1) :
    canaryWord n b i = (n * 0x9E3779B9 + b * 0x01000193 + i * 0x01010101) % 2 ^ 32 ^^^ 0x5A5A5A5A :=
  if_pos hi

/-- The exclusive or of the odd words and the term of the word number are the same on both sides and cancel. -/
theorem canaryWord_eq_iff_modEq (n m b c i : Nat) :
    canaryWord n b i = canaryWord m c i ↔
      n * 0x9E3779B9 + b * 0x01000193 ≡ m * 0x9E3779B9 + c * 0x01000193 [MOD 2 ^ 32] := by
  rw [← Nat.ModEq.add_iff_right (Nat.ModEq.refl (i * 0x01010101)), Nat.ModEq]
  rcases Nat.mod_two_eq_zero_or_one i with hi | hi
  · rw [canaryWord_of_even n b hi, canaryWord_of_even m c hi]
  · rw [canaryWord_of_odd n b hi, canaryWord_of_odd m c hi, Nat.xor_left_inj]

/-- An odd factor cancels modulo 2^32, so two numbers below 2^32 with the same multiple are equal. -/
theorem eq_of_mul_odd_modEq {k n m : Nat} (hk : Odd k) (hn : n < 2 ^ 32) (hm : m < 2 ^ 32)
    (h : n * k ≡ m * k [MOD 2 ^ 32]) : n = m :=
  (h.cancel_right_of_coprime (hk.coprime_two_left.pow_left 32)).eq_of_lt_of_lt hn hm

/-- The factor of the sleep count is odd. -/
theorem canaryWord_count_inj {n m b i : Nat} (hn : n < 2 ^ 32) (hm : m < 2 ^ 32)
    (h : canaryWord n b i = canaryWord m b i) : n = m :=
  eq_of_mul_odd_modEq (by decide) hn hm (((canaryWord_eq_iff_modEq n m b b i).mp h).add_right_cancel' _)

/-- The factor of the bank is odd. -/
theorem canaryWord_bank_inj {n b c i : Nat} (hb : b < 2 ^ 32) (hc : c < 2 ^ 32)
    (h : canaryWord n b i = canaryWord n c i) : b = c :=
  eq_of_mul_odd_modEq (by decide) hb hc (((canaryWord_eq_iff_modEq n n b c i).mp h).add_left_cancel' _)

end Sys2Proof.Machine

namespace Sys2Proof.Proofs

open Sys2Proof.Machine

/-- Settles O59: the words by their two cases, and each word injective in the sleep count and in the bank, whose factors are
odd and so cancel modulo 2^32. -/
theorem canaryPattern : Obligations.CanaryPattern :=
  ⟨fun n b _ => canaryWord_of_even n b, fun n b _ => canaryWord_of_odd n b,
    fun _ _ _ _ hn hm hne h => hne (canaryWord_count_inj hn hm h),
    fun _ _ _ _ hb hc hne h => hne (canaryWord_bank_inj (by omega) (by omega) h)⟩

end Sys2Proof.Proofs
end

section
/-! PROOFS. MAC control frames that a port drops: malformed pauses, and valid ones under PAUSE_IGN (R431). -/

namespace Sys2Proof.Machine

/-- A good frame that the port receives and its buffer holds is counted by kind and size; the pause logic takes it where it
is a MAC control frame (R420, rule 1). -/
theorem exec_ethFrameReceive_macControl {s : State} {p : Fin 2} {f : EthRx} (hup : s.ethUp p.val = true)
    (hwire : rxFault f = none) (hbuf : f.bufFull = false) (htype : ethType f.bytes = 0x8808) :
    exec (.ethFrameReceive p f) s = .next ((s.rxCounted p.val f.bytes).macControl p.val f) := by
  have hexec : exec (.ethFrameReceive p f) s = execEthFrameReceive p f s := rfl
  rw [hexec]
  simp [execEthFrameReceive, State.rxClassify, hup, hwire, hbuf, htype]

/-- A wrong opcode, a foreign destination or a wrong length fails the check of a pause frame. -/
theorem State.macControl_malformed {s : State} {p : Nat} {f : EthRx}
    (h : beAt f.bytes 14 2 ≠ 1 ∨ (ethDst f.bytes ≠ 0x0180C2000001 ∧ ethDst f.bytes ≠ s.ethMac p) ∨ f.bytes.length ≠ 60) :
    s.macControl p f = (s.ethCount p 6 1).evt (ETH.ERR_EVT.PAUSE_BAD p) 1 (ethSrcErr p) := by
  unfold State.macControl
  refine if_pos ?_
  rcases h with hop | ⟨hgroup, hmac⟩ | hlen
  · simp [hop]
  · simp [hgroup, hmac]
  · simp [hlen]

/-- A valid pause frame is counted; PAUSE_IGN decides whether the port obeys it. -/
theorem State.macControl_valid {s : State} {p : Nat} {f : EthRx} (hop : beAt f.bytes 14 2 = 1)
    (hdst : ethDst f.bytes = 0x0180C2000001 ∨ ethDst f.bytes = s.ethMac p) (hlen : f.bytes.length = 60) :
    s.macControl p f = if (s.ethCount p 5 1).flag (ETH.CFG.PAUSE_IGN p) then s.ethCount p 5 1
      else (s.ethCount p 5 1).pauseStart p (beAt f.bytes 16 2) := by
  unfold State.macControl
  refine if_neg ?_
  rcases hdst with hgroup | hmac
  · simp [hop, hgroup, hlen]
  · simp [hop, hmac, hlen]

end Sys2Proof.Machine

namespace Sys2Proof.Proofs

open Sys2Proof.Machine

/-- Settles O60: the frame reaches the pause logic, whose check a malformed frame fails and a valid one passes; a valid one
is then only counted, as PAUSE_IGN is set. -/
theorem pauseFramesThatAreDropped : Obligations.PauseFramesThatAreDropped := by
  rintro s u t p f hup hwire hbuf htype rfl rfl
  rw [exec_ethFrameReceive_macControl hup hwire hbuf htype]
  constructor
  · intro hbad
    rw [State.macControl_malformed hbad]
  · intro hop hdst hlen hign
    rw [State.macControl_valid hop hdst hlen, if_pos hign]

end Sys2Proof.Proofs
end

section
/-! PROOFS. What every command keeps, and that every command answers: the queue, the UID and the canonical forms. -/

namespace Sys2Proof.Machine

/-! ## What every command keeps -/

/-- The frame of the dispatch: each arm keeps, by the lemma of its command's meaning. -/
theorem exec_keeps {s t : State} (h : Keeps s t) (c : Instr) : NextKeeps s (exec c t) := by
  cases c with
  | tickBoundary t => exact execTickBoundary_keeps h t
  | lockstepMismatch => exact execLockstepMismatch_keeps h
  | watchdogExpiry => exact execWatchdogExpiry_keeps h
  | firmwareFault => exact execFirmwareFault_keeps h
  | decikRestartDone => exact execDecikRestartDone_keeps h
  | signalDetected n => exact execSignalDetected_keeps h n
  | blockLockAcquired n ptUi loopUi => exact execBlockLockAcquired_keeps h n ptUi loopUi
  | trainTimeout n => exact execTrainTimeout_keeps h n
  | lossOfSignal n => exact execLossOfSignal_keeps h n
  | blockLockLost n => exact execBlockLockLost_keeps h n
  | qualTimerExpiry n => exact execQualTimerExpiry_keeps h n
  | qualReceiveError n e => exact execQualReceiveError_keeps h n e
  | linkLoss n => exact execLinkLoss_keeps h n
  | statusBlockReceive n b => exact execStatusBlockReceive_keeps h n b
  | statusBlockMissing n => exact execStatusBlockMissing_keeps h n
  | loopbackClose n => exact execLoopbackClose_keeps h n
  | txeqApply n => exact execTxeqApply_keeps h n
  | prbsCheckerLock n => exact execPrbsCheckerLock_keeps h n
  | prbsCheckerResync n => exact execPrbsCheckerResync_keeps h n
  | frameReceived f => exact execFrameReceived_keeps h f
  | lineMerge tseq => exact execLineMerge_keeps h tseq
  | lineDegradedClear l => exact execLineDegradedClear_keeps h l
  | lineShortClear => exact execLineShortClear_keeps h
  | relayLateCheck l tseq => exact execRelayLateCheck_keeps h l tseq
  | cellStage kind dstPos dstSub frag last msgId encrypt payload => exact execCellStage_keeps h kind dstPos dstSub frag last msgId encrypt payload
  | cellExpire l => exact execCellExpire_keeps h l
  | cellReceive cell => exact execCellReceive_keeps h cell
  | reasmTimeout srcPos srcSub msgId => exact execReasmTimeout_keeps h srcPos srcSub msgId
  | handshakeReceive n b arrivalNs => exact execHandshakeReceive_keeps h n b arrivalNs
  | inaugSettleEnd => exact execInaugSettleEnd_keeps h
  | countTimeout => exact execCountTimeout_keeps h
  | claimPairLaunch => exact execClaimPairLaunch_keeps h
  | claimWindowEnd => exact execClaimWindowEnd_keeps h
  | layoutComputeDone plan => exact execLayoutComputeDone_keeps h plan
  | computeTimeout => exact execComputeTimeout_keeps h
  | layoutFragmentResend frag => exact execLayoutFragmentResend_keeps h frag
  | distributeEnd => exact execDistributeEnd_keeps h
  | inaugBackoffExpiry => exact execInaugBackoffExpiry_keeps h
  | layoutSwitch => exact execLayoutSwitch_keeps h
  | layoutSave => exact execLayoutSave_keeps h
  | joinDiscard => exact execJoinDiscard_keeps h
  | formingWaitEnd => exact execFormingWaitEnd_keeps h
  | fastShrinkApply => exact execFastShrinkApply_keeps h
  | mergeMeasureDone lead => exact execMergeMeasureDone_keeps h lead
  | mergeStep => exact execMergeStep_keeps h
  | mergeMuteEnd => exact execMergeMuteEnd_keeps h
  | mergeTagRefuse n => exact execMergeTagRefuse_keeps h n
  | mergePhaseTimeout => exact execMergePhaseTimeout_keeps h
  | mergeRetry => exact execMergeRetry_keeps h
  | roundEnd => exact execRoundEnd_keeps h
  | acquireStep => exact execAcquireStep_keeps h
  | syncLock => exact execSyncLock_keeps h
  | holdoverExpire => exact execHoldoverExpire_keeps h
  | mclkUnlock => exact execMclkUnlock_keeps h
  | twinRecordReceive r => exact execTwinRecordReceive_keeps h r
  | twinResyncResume => exact execTwinResyncResume_keeps h
  | twinPartnerLoss pairsLost => exact execTwinPartnerLoss_keeps h pairsLost
  | twinPairFail pair => exact execTwinPairFail_keeps h pair
  | ringHbLost => exact execRingHbLost_keeps h
  | canHbLost => exact execCanHbLost_keeps h
  | coldTakeoverLaunch us10 => exact execColdTakeoverLaunch_keeps h us10
  | reserveTakeover us10 => exact execReserveTakeover_keeps h us10
  | tdmPortEnable n => exact execTdmPortEnable_keeps h n
  | tdmPortStart n => exact execTdmPortStart_keeps h n
  | tdmPortDisable n => exact execTdmPortDisable_keeps h n
  | hdmaReadComplete words phaseNs => exact execHdmaReadComplete_keeps h words phaseNs
  | timedChangeApply => exact execTimedChangeApply_keeps h
  | staleFadeEnd place => exact execStaleFadeEnd_keeps h place
  | aecDiverge e => exact execAecDiverge_keeps h e
  | howlDetect m freq => exact execHowlDetect_keeps h m freq
  | notchDeepen m freq => exact execNotchDeepen_keeps h m freq
  | notchDecay m freq => exact execNotchDecay_keeps h m freq
  | callFbWait k => exact execCallFbWait_keeps h k
  | callRingReturn k => exact execCallRingReturn_keeps h k
  | callCanReturn k => exact execCallCanReturn_keeps h k
  | noiseFrameEnd z level => exact execNoiseFrameEnd_keeps h z level
  | nfFallback z => exact execNfFallback_keeps h z
  | pmonWindowEnd z windows => exact execPmonWindowEnd_keeps h z windows
  | pmonAgeOut z => exact execPmonAgeOut_keeps h z
  | stipaPhaseEnd sti lowSnr interrupted micFault ti signal noise => exact execStipaPhaseEnd_keeps h sti lowSnr interrupted micFault ti signal noise
  | clipDeleteComplete id => exact execClipDeleteComplete_keeps h id
  | voiceStartTick v => exact execVoiceStartTick_keeps h v
  | voiceEnd v fault => exact execVoiceEnd_keeps h v fault
  | recUnitComplete channel tick stale overrun inactive data => exact execRecUnitComplete_keeps h channel tick stale overrun inactive data
  | storeCorrectableError offset initiator syndrome => exact execStoreCorrectableError_keeps h offset initiator syndrome
  | ceWriteback offset => exact execCeWriteback_keeps h offset
  | storeUncorrectableError offset initiator affected => exact execStoreUncorrectableError_keeps h offset initiator affected
  | scrubPassEnd => exact execScrubPassEnd_keeps h
  | bankInitDone b => exact execBankInitDone_keeps h b
  | wakeCanaryCheck decayed us => exact execWakeCanaryCheck_keeps h decayed us
  | extentCheckDone b crc time100us => exact execExtentCheckDone_keeps h b crc time100us
  | wakeScrubBankDone b => exact execWakeScrubBankDone_keeps h b
  | rcFieldRead addr n phaseNs => exact execRcFieldRead_keeps h addr n phaseNs
  | registerWrite addr enables w => exact execRegisterWrite_keeps h addr enables w
  | tickSeqRead phaseNs => exact execTickSeqRead_keeps h phaseNs
  | syncTimeLoRead phaseNs => exact execSyncTimeLoRead_keeps h phaseNs
  | ptpTimeLoRead phaseNs => exact execPtpTimeLoRead_keeps h phaseNs
  | rtcLoRead phaseNs => exact execRtcLoRead_keeps h phaseNs
  | tsqStatRead port => exact execTsqStatRead_keeps h port
  | twinBarRead win => exact execTwinBarRead_keeps h win
  | semRead sem => exact execSemRead_keeps h sem
  | semReleaseWrite sem => exact execSemReleaseWrite_keeps h sem
  | linkDisableWrite n on => exact execLinkDisableWrite_keeps h n on
  | linkRetrainWrite n => exact execLinkRetrainWrite_keeps h n
  | laneTestModeWrite n mode => exact execLaneTestModeWrite_keeps h n mode
  | prbsInjectWrite n => exact execPrbsInjectWrite_keeps h n
  | elaneModeWrite port mode inject => exact execElaneModeWrite_keeps h port mode inject
  | rankWrite rank => exact execRankWrite_keeps h rank
  | storeInitStart mask => exact execStoreInitStart_keeps h mask
  | bootGo sizeKib => exact execBootGo_keeps h sizeKib
  | kloadWrite slot engine previous => exact execKloadWrite_keeps h slot engine previous
  | perfVoltWrite pt => exact execPerfVoltWrite_keeps h pt
  | perfFreqWrite pt => exact execPerfFreqWrite_keeps h pt
  | voltSettled => exact execVoltSettled_keeps h
  | freqChangeApply => exact execFreqChangeApply_keeps h
  | ptpOfsHiWrite w => exact execPtpOfsHiWrite_keeps h w
  | rtcAlmHiWrite hi => exact execRtcAlmHiWrite_keeps h hi
  | hostVoteWrite votes => exact execHostVoteWrite_keeps h votes
  | twinWindowEnable win on => exact execTwinWindowEnable_keeps h win on
  | htxWrWrite port wr => exact execHtxWrWrite_keeps h port wr
  | canTxReq obj => exact execCanTxReq_keeps h obj
  | canObjHold obj => exact execCanObjHold_keeps h obj
  | canObjRelease obj => exact execCanObjRelease_keeps h obj
  | mbxDoorbellWrite ch => exact execMbxDoorbellWrite_keeps h ch
  | mbxReqHeadWrite ch head => exact execMbxReqHeadWrite_keeps h ch head
  | mbxRspTailWrite ch tail => exact execMbxRspTailWrite_keeps h ch tail
  | mbxChannelReset ch => exact execMbxChannelReset_keeps h ch
  | mbxPoll => exact execMbxPoll_keeps h
  | finalResponse ch tag result => exact execFinalResponse_keeps h ch tag result
  | summaryRebuild => exact execSummaryRebuild_keeps h
  | unitDivergence id => exact execUnitDivergence_keeps h id
  | unitDivergencePersist id => exact execUnitDivergencePersist_keeps h id
  | dpStateReached id => exact execDpStateReached_keeps h id
  | unitStartLimit id => exact execUnitStartLimit_keeps h id
  | unitStopLimit id => exact execUnitStopLimit_keeps h id
  | remoteTimeout ch tag => exact execRemoteTimeout_keeps h ch tag
  | remoteBusyResend ch tag => exact execRemoteBusyResend_keeps h ch tag
  | configCommit => exact execConfigCommit_keeps h
  | confirmTimerExpiry => exact execConfirmTimerExpiry_keeps h
  | rollbackApply => exact execRollbackApply_keeps h
  | fragmentTransferTimeout => exact execFragmentTransferTimeout_keeps h
  | authNonceLapse => exact execAuthNonceLapse_keeps h
  | authLockoutEnd => exact execAuthLockoutEnd_keeps h
  | spiRead addr waits => exact execSpiRead_keeps h addr waits
  | spiReadFixed addr waits => exact execSpiReadFixed_keeps h addr waits
  | spiWrite addr words => exact execSpiWrite_keeps h addr words
  | spiWriteFixed addr words => exact execSpiWriteFixed_keeps h addr words
  | spiUnknownCommand cmd => exact execSpiUnknownCommand_keeps h cmd
  | spiFrameTruncated => exact execSpiFrameTruncated_keeps h
  | i2cRequestWrite bytes => exact execI2cRequestWrite_keeps h bytes
  | i2cRead n => exact execI2cRead_keeps h n
  | i2cAddressWake => exact execI2cAddressWake_keeps h
  | bar0Atomicop tag op => exact execBar0Atomicop_keeps h tag op
  | localWindowRead tag off len => exact execLocalWindowRead_keeps h tag off len
  | localWindowWrite off bytes => exact execLocalWindowWrite_keeps h off bytes
  | localWindowAtomic tag op => exact execLocalWindowAtomic_keeps h tag op
  | trainWindowRead tag win off len => exact execTrainWindowRead_keeps h tag win off len
  | trainWindowWrite win off bytes => exact execTrainWindowWrite_keeps h win off bytes
  | trainWindowAtomic tag win op => exact execTrainWindowAtomic_keeps h tag win op
  | bridgeReadServe => exact execBridgeReadServe_keeps h
  | bridgeWriteServe => exact execBridgeWriteServe_keeps h
  | cinchServe stalled => exact execCinchServe_keeps h stalled
  | semAcqServe => exact execSemAcqServe_keeps h
  | readSemServe => exact execReadSemServe_keeps h
  | writeRelServe => exact execWriteRelServe_keeps h
  | semRelServe => exact execSemRelServe_keeps h
  | bridgeRspReceive => exact execBridgeRspReceive_keeps h
  | bridgeTimeout win seq op => exact execBridgeTimeout_keeps h win seq op
  | lockBackoffExpiry => exact execLockBackoffExpiry_keeps h
  | cinchExpire block => exact execCinchExpire_keeps h block
  | semLeaseLapse sem => exact execSemLeaseLapse_keeps h sem
  | prefetchAgeExpire win => exact execPrefetchAgeExpire_keeps h win
  | pcieLinkDown => exact execPcieLinkDown_keeps h
  | pciePerst high => exact execPciePerst_keeps h high
  | ethLinkUp port accepted => exact execEthLinkUp_keeps h port accepted
  | ethLinkDown port => exact execEthLinkDown_keeps h port
  | ethFrameReceive port f => exact execEthFrameReceive_keeps h port f
  | pauseExpire port => exact execPauseExpire_keeps h port
  | ethFrameTransmit port phaseNs => exact execEthFrameTransmit_keeps h port phaseNs
  | gateEntryChange port => exact execGateEntryChange_keeps h port
  | pralineMatch port bytes fcsOk => exact execPralineMatch_keeps h port bytes fcsOk
  | aes67StreamStopped n => exact execAes67StreamStopped_keeps h n
  | streamPacketLate n => exact execStreamPacketLate_keeps h n
  | ptpAnnounceTimeout port => exact execPtpAnnounceTimeout_keeps h port
  | canCycleStart phaseNs => exact execCanCycleStart_keeps h phaseNs
  | canWindowOpen win => exact execCanWindowOpen_keeps h win
  | canFrameReceive f => exact execCanFrameReceive_keeps h f
  | canRefLockLost => exact execCanRefLockLost_keeps h
  | canFrameSent obj sofNs endUs => exact execCanFrameSent_keeps h obj sofNs endUs
  | canTxFail obj error => exact execCanTxFail_keeps h obj error
  | canBusOff => exact execCanBusOff_keeps h
  | canBusoffRecovered => exact execCanBusoffRecovered_keeps h
  | canChannelRelease ch => exact execCanChannelRelease_keeps h ch
  | canClaimBackoff k => exact execCanClaimBackoff_keeps h k
  | canWake frame => exact execCanWake_keeps h frame
  | ringHoldExpire => exact execRingHoldExpire_keeps h
  | stackLinkInService down upstream conflict members => exact execStackLinkInService_keeps h down upstream conflict members
  | memberRecordReceive r => exact execMemberRecordReceive_keeps h r
  | memberRecordLate sub => exact execMemberRecordLate_keeps h sub
  | memberLost sub => exact execMemberLost_keeps h sub
  | ringImageReceive r => exact execRingImageReceive_keeps h r
  | ringImageLate => exact execRingImageLate_keeps h
  | stackTimeMarker n ofsNs headLocked => exact execStackTimeMarker_keeps h n ofsNs headLocked
  | standbyEntry => exact execStandbyEntry_keeps h
  | standbyEntryComplete => exact execStandbyEntryComplete_keeps h
  | standbyDwellExpire => exact execStandbyDwellExpire_keeps h
  | wakeEvent fired => exact execWakeEvent_keeps h fired
  | wakeStepReady => exact execWakeStepReady_keeps h
  | wakeStepTimeout fail => exact execWakeStepTimeout_keeps h fail
  | wakeRetryWaitEnd => exact execWakeRetryWaitEnd_keeps h
  | wakeFailHoldEnd => exact execWakeFailHoldEnd_keeps h
  | vmainRise => exact execVmainRise_keeps h
  | rtcAlarm => exact execRtcAlarm_keeps h
  | railStepEnd pg => exact execRailStepEnd_keeps h pg
  | railDelayExpire => exact execRailDelayExpire_keeps h
  | railPgFault r => exact execRailPgFault_keeps h r
  | residencySecond => exact execResidencySecond_keeps h
  | powerOnReset straps => exact execPowerOnReset_keeps h straps
  | supplyRestart bootSrc => exact execSupplyRestart_keeps h bootSrc
  | resetPin bootSrc => exact execResetPin_keeps h bootSrc
  | bootRomStart => exact execBootRomStart_keeps h
  | bootVerifyDone flash => exact execBootVerifyDone_keeps h flash
  | bistComplete misr failMap count ms => exact execBistComplete_keeps h misr failMap count ms
  | decikInitDone media => exact execDecikInitDone_keeps h media
  | configLoadDone => exact execConfigLoadDone_keeps h
  | ringReady => exact execRingReady_keeps h
  | startupNoRing => exact execStartupNoRing_keeps h
  | pdwRaise => exact execPdwRaise_keeps h
  | pdwRecover => exact execPdwRecover_keeps h
  | optimeSave => exact execOptimeSave_keeps h
  | idleCountExpire => exact execIdleCountExpire_keeps h
  | sleepAckTimeout => exact execSleepAckTimeout_keeps h
  | sleepTick => exact execSleepTick_keeps h
  | wakeInAssert => exact execWakeInAssert_keeps h
  | wakeOutPulseEnd => exact execWakeOutPulseEnd_keeps h
  | wakeInStuck => exact execWakeInStuck_keeps h
  | wakeValidExpire => exact execWakeValidExpire_keeps h
  | loneCountExpire => exact execLoneCountExpire_keeps h
  | heldTimeRecord => exact execHeldTimeRecord_keeps h
  | tamperDetect cause => exact execTamperDetect_keeps h cause
  | eventPost back => exact execEventPost_keeps h back
  | pendingPost writer code inst data => exact execPendingPost_keeps h writer code inst data
  | stormSecondEnd => exact execStormSecondEnd_keeps h
  | storeTestDone errors first => exact execStoreTestDone_keeps h errors first
  | diDebouncedChange k v => exact execDiDebouncedChange_keeps h k v
  | chatterWindowEnd k => exact execChatterWindowEnd_keeps h k
  | diStuck k => exact execDiStuck_keeps h k
  | intcPendWrite hi w => exact execIntcPendWrite_keeps h hi w
  | intcEnWrite hi w => exact execIntcEnWrite_keeps h hi w
  | intcForceWrite hi w => exact execIntcForceWrite_keeps h hi w
  | msixUnmask vector => exact execMsixUnmask_keeps h vector
  | ping r => exact execPing_keeps h r
  | stateSummary r => exact execStateSummary_keeps h r
  | reducedSummary r => exact execReducedSummary_keeps h r
  | getIdentity r => exact execGetIdentity_keeps h r
  | getTime r => exact execGetTime_keeps h r
  | setRtc r => exact execSetRtc_keeps h r
  | setNoteLevel r => exact execSetNoteLevel_keeps h r
  | serviceMode r => exact execServiceMode_keeps h r
  | nodeReset r => exact execNodeReset_keeps h r
  | unitGet r => exact execUnitGet_keeps h r
  | unitEnable r => exact execUnitEnable_keeps h r
  | unitDisable r => exact execUnitDisable_keeps h r
  | cfgLoad r => exact execCfgLoad_keeps h r
  | cfgApply r => exact execCfgApply_keeps h r
  | cfgConfirm r => exact execCfgConfirm_keeps h r
  | cfgRollback r => exact execCfgRollback_keeps h r
  | cfgStatus r => exact execCfgStatus_keeps h r
  | cfgRead r => exact execCfgRead_keeps h r
  | cfgDiscard r => exact execCfgDiscard_keeps h r
  | ringStatus r => exact execRingStatus_keeps h r
  | ringGetLayout r => exact execRingGetLayout_keeps h r
  | ringRenumber r => exact execRingRenumber_keeps h r
  | ringMerge r => exact execRingMerge_keeps h r
  | ringSetRank r => exact execRingSetRank_keeps h r
  | ringLinkCtrl r => exact execRingLinkCtrl_keeps h r
  | ringSetParam r => exact execRingSetParam_keeps h r
  | syncStatus r => exact execSyncStatus_keeps h r
  | xpSet r => exact execXpSet_keeps h r
  | xpGet r => exact execXpGet_keeps h r
  | zoneSet r => exact execZoneSet_keeps h r
  | zoneCand r => exact execZoneCand_keeps h r
  | zoneEq r => exact execZoneEq_keeps h r
  | zoneOut r => exact execZoneOut_keeps h r
  | streamSet r => exact execStreamSet_keeps h r
  | testgenSet r => exact execTestgenSet_keeps h r
  | zoneStatus r => exact execZoneStatus_keeps h r
  | libLoad r => exact execLibLoad_keeps h r
  | libDelete r => exact execLibDelete_keeps h r
  | libList r => exact execLibList_keeps h r
  | playStart r => exact execPlayStart_keeps h r
  | playStop r => exact execPlayStop_keeps h r
  | playStatus r => exact execPlayStatus_keeps h r
  | callOpen r => exact execCallOpen_keeps h r
  | callClose r => exact execCallClose_keeps h r
  | callStatus r => exact execCallStatus_keeps h r
  | aecSet r => exact execAecSet_keeps h r
  | pmonCommission r => exact execPmonCommission_keeps h r
  | pmonClear r => exact execPmonClear_keeps h r
  | stipaRun r => exact execStipaRun_keeps h r
  | recLock r => exact execRecLock_keeps h r
  | recUnlock r => exact execRecUnlock_keeps h r
  | recIndex r => exact execRecIndex_keeps h r
  | recExport r => exact execRecExport_keeps h r
  | ethStatus r => exact execEthStatus_keeps h r
  | ethCounters r => exact execEthCounters_keeps h r
  | ethMdio r => exact execEthMdio_keeps h r
  | ethGateSet r => exact execEthGateSet_keeps h r
  | ptpSet r => exact execPtpSet_keeps h r
  | ptpStatus r => exact execPtpStatus_keeps h r
  | streamAdd r => exact execStreamAdd_keeps h r
  | streamRemove r => exact execStreamRemove_keeps h r
  | pralineSet r => exact execPralineSet_keeps h r
  | canStatus r => exact execCanStatus_keeps h r
  | canSetRate r => exact execCanSetRate_keeps h r
  | canSchedSet r => exact execCanSchedSet_keeps h r
  | canObjSet r => exact execCanObjSet_keeps h r
  | canSend r => exact execCanSend_keeps h r
  | canWakeSet r => exact execCanWakeSet_keeps h r
  | pwrStatus r => exact execPwrStatus_keeps h r
  | pwrSetState r => exact execPwrSetState_keeps h r
  | pwrVote r => exact execPwrVote_keeps h r
  | pwrPerf r => exact execPwrPerf_keeps h r
  | pwrWakeCfg r => exact execPwrWakeCfg_keeps h r
  | pwrResidency r => exact execPwrResidency_keeps h r
  | awakeHold r => exact execAwakeHold_keeps h r
  | netSleepStatus r => exact execNetSleepStatus_keeps h r
  | secStatus r => exact execSecStatus_keeps h r
  | authChallenge r => exact execAuthChallenge_keeps h r
  | keyReplace r => exact execKeyReplace_keeps h r
  | keyKcv r => exact execKeyKcv_keeps h r
  | tamperClear r => exact execTamperClear_keeps h r
  | getMeasurement r => exact execGetMeasurement_keeps h r
  | evrStatus r => exact execEvrStatus_keeps h r
  | evrRead r => exact execEvrRead_keeps h r
  | evrClear r => exact execEvrClear_keeps h r
  | evrPendingRead r => exact execEvrPendingRead_keeps h r
  | bistRun r => exact execBistRun_keeps h r
  | bistResult r => exact execBistResult_keeps h r
  | storeTest r => exact execStoreTest_keeps h r
  | laneTest r => exact execLaneTest_keeps h r
  | laneTestResult r => exact execLaneTestResult_keeps h r
  | redStatus r => exact execRedStatus_keeps h r
  | masterHandover r => exact execMasterHandover_keeps h r
  | twinResync r => exact execTwinResync_keeps h r
  | stackStatus r => exact execStackStatus_keeps h r
  | stackMemberReset r => exact execStackMemberReset_keeps h r
  | vaoLost => exact execVaoLost_keeps h
  | rstNRelease => exact execRstNRelease_keeps h
  | vmainRestored => exact execVmainRestored_keeps h
  | tamperCauseEnd cause => exact execTamperCauseEnd_keeps h cause
  | cabActiveChange on => exact execCabActiveChange_keeps h on
  | wakeInDeassert => exact execWakeInDeassert_keeps h
  | pcieLinkUp speed width => exact execPcieLinkUp_keeps h speed width
  | msixEnableWrite enable functionMask => exact execMsixEnableWrite_keeps h enable functionMask
  | mclkPllLock => exact execMclkPllLock_keeps h
  | ptpMessageInterval port what => exact execPtpMessageInterval_keeps h port what

theorem step_of_queue (c : Instr) (rest : List Instr) (s : State) :
    step { s with pending := c :: rest } = exec c { s with pending := rest } := rfl

theorem step_of_empty {s : State} (h : s.pending = []) : step s = .next s := by
  unfold step
  rw [h]

/-- Taking the command off the queue touches no register and no byte of the store, so a step keeps what its command keeps. -/
theorem step_keeps_canonical {s t : State} (hs : s.canonical = true) (h : step s = .next t) : t.canonical = true := by
  simp only [State.canonical, Bool.and_eq_true] at hs ⊢
  cases hq : s.pending with
  | nil =>
    rw [step_of_empty hq] at h
    cases h
    exact hs
  | cons c rest =>
    have hk := exec_keeps (Keeps.refl { s with pending := rest }) c
    rw [show exec c { s with pending := rest } = .next t by rw [← h, step, hq]] at hk
    exact ⟨hk.regs hs.1, hk.store hs.2⟩

/-! ## Every command answers -/

theorem execRelayLateCheck_answers (l : Line) (tseq : Nat) (s : State) : ∃ t, execRelayLateCheck l tseq s = .next t := by
  unfold execRelayLateCheck
  split
  · exact ⟨_, rfl⟩
  · exact ⟨_, rfl⟩

/-- A register write is refused where it reaches a register and sets a reserved bit of it, and only there (R10). -/
theorem execRegisterWrite_answers_or_refuses (a : Nat) (e : Fin 16) (w : Word) (s : State) :
    (∃ t, execRegisterWrite a e w s = .next t) ∨ execRegisterWrite a e w s = .refused .reservedBits := by
  unfold execRegisterWrite
  split
  · exact .inl ⟨_, rfl⟩
  · split
    · exact .inr rfl
    · exact .inl ⟨_, rfl⟩

theorem State.spiWrite_answers_or_refuses (s : State) (a step : Nat) (ws : List Word) :
    (∃ t, s.spiWrite a step ws = .next t) ∨ s.spiWrite a step ws = .refused .reservedBits := by
  unfold State.spiWrite
  split
  · exact .inl ⟨_, rfl⟩
  · split
    · exact .inl ⟨_, rfl⟩
    · exact .inr rfl

end Sys2Proof.Machine

namespace Sys2Proof.Proofs

open Sys2Proof.Machine

/-- Settles O5: taking the command off the queue touches neither the registers nor the store, and its meaning keeps both. -/
theorem everyStepKeepsCanonicalForms : Obligations.EveryStepKeepsCanonicalForms :=
  fun _ _ hs h => step_keeps_canonical hs h

/-- Settles O6, by the frame of the dispatch. -/
theorem noCommandTouchesQueueOrIdentity : Obligations.NoCommandTouchesQueueOrIdentity := by
  intro c s t h
  have hk := exec_keeps (Keeps.refl s) c
  rw [h] at hk
  exact ⟨hk.pending, hk.uid⟩

/-- Settles O7: only the three host writes have a way to refuse, and only with reservedBits. -/
theorem everyCommandAnswers : Obligations.EveryCommandAnswers := by
  intro c s
  cases c with
  | registerWrite a e w => exact (execRegisterWrite_answers_or_refuses a e w s).imp id (⟨·, .inl ⟨a, e, w, rfl⟩⟩)
  | spiWrite a ws => exact (s.spiWrite_answers_or_refuses a 4 ws).imp id (⟨·, .inr (.inl ⟨a, ws, rfl⟩)⟩)
  | spiWriteFixed a ws => exact (s.spiWrite_answers_or_refuses a 0 ws).imp id (⟨·, .inr (.inr ⟨a, ws, rfl⟩)⟩)
  | relayLateCheck l tseq => exact .inl (execRelayLateCheck_answers l tseq s)
  | _ => exact .inl ⟨_, rfl⟩

/-- Settles O1: the step is defined by the front of the queue. -/
theorem stepRunsFrontCommand : Obligations.StepRunsFrontCommand := step_of_queue

/-- Settles O2. -/
theorem emptyQueueIdles : Obligations.EmptyQueueIdles := fun _ => step_of_empty

/-- Settles O3: the decoder of table words answers no command, whatever the word. -/
theorem tableWordsSpellNoCommand : Obligations.TableWordsSpellNoCommand :=
  ⟨fun _ _ => rfl, fun _ _ _ => rfl⟩

/-- Settles O4, by evaluating the reset state, whose store is empty. -/
theorem resetHoldsInvariant : Obligations.ResetHoldsInvariant := by
  unfold Obligations.ResetHoldsInvariant
  decide +kernel

end Sys2Proof.Proofs
end

section
/-! PROOFS. The averaging round keeps to the good clocks (R168), and the slew of a tick is bounded (R171). -/

namespace Sys2Proof.Machine

/-! ## Sorted deviations -/

theorem insertDev_perm (x : Nat × Int) (l : List (Nat × Int)) : (insertDev x l).Perm (x :: l) := by
  induction l with
  | nil => exact .refl _
  | cons y l ih =>
    unfold insertDev
    split
    · exact .refl _
    · exact (ih.cons y).trans (.swap x y l)

theorem insertDev_sorted (x : Nat × Int) {l : List (Nat × Int)} (h : l.Pairwise (fun a b => a.2 ≤ b.2)) :
    (insertDev x l).Pairwise (fun a b => a.2 ≤ b.2) := by
  induction l with
  | nil => exact List.pairwise_singleton ..
  | cons y l ih =>
    obtain ⟨hy, hl⟩ := List.pairwise_cons.mp h
    unfold insertDev
    split
    · next hlt =>
      refine List.pairwise_cons.mpr ⟨fun a ha => ?_, h⟩
      rcases List.mem_cons.mp ha with rfl | ha
      · exact hlt.le
      · exact hlt.le.trans (hy a ha)
    · next hge =>
      refine List.pairwise_cons.mpr ⟨fun a ha => ?_, ih hl⟩
      rcases List.mem_cons.mp ((insertDev_perm x l).mem_iff.mp ha) with rfl | ha
      · exact not_lt.mp hge
      · exact hy a ha

/-- Inserting one by one sorts: after each insertion the list so far is sorted and holds what it was given. -/
theorem foldl_insertDev (l acc : List (Nat × Int)) (h : acc.Pairwise (fun a b => a.2 ≤ b.2)) :
    (l.foldl (fun acc x => insertDev x acc) acc).Perm (l ++ acc) ∧
      (l.foldl (fun acc x => insertDev x acc) acc).Pairwise (fun a b => a.2 ≤ b.2) := by
  induction l generalizing acc with
  | nil => exact ⟨.refl _, h⟩
  | cons x l ih =>
    obtain ⟨hp, hs⟩ := ih (insertDev x acc) (insertDev_sorted x h)
    exact ⟨hp.trans (((insertDev_perm x acc).append_left l).trans List.perm_middle), hs⟩

theorem sortDevs_perm (l : List (Nat × Int)) : (sortDevs l).Perm l := by
  simpa [sortDevs] using (foldl_insertDev l [] .nil).1

theorem sortDevs_sorted (l : List (Nat × Int)) : (sortDevs l).Pairwise (fun a b => a.2 ≤ b.2) :=
  (foldl_insertDev l [] .nil).2

/-! ## The entries averaged -/

/-- Of a list along which a property can only be gained, at most `k` entries lack it: then all have it after the first `k`. -/
theorem forall_mem_drop_of_pairwise {α : Type} {r : α → α → Prop} {p : α → Bool} (hp : ∀ a b, r a b → p a = true → p b = true)
    (l : List α) (k : Nat) (h : l.Pairwise r) (hk : (l.filter (fun a => !p a)).length ≤ k) : ∀ a ∈ l.drop k, p a = true := by
  induction l generalizing k with
  | nil => simp
  | cons x l ih =>
    obtain ⟨hx, hl⟩ := List.pairwise_cons.mp h
    by_cases hpx : p x = true
    · intro a ha
      rcases List.mem_cons.mp (List.mem_of_mem_drop ha) with rfl | ha
      · exact hpx
      · exact hp x a (hx a ha) hpx
    · rw [List.filter_cons_of_pos (by simpa using hpx), List.length_cons] at hk
      obtain ⟨k, rfl⟩ := Nat.exists_eq_add_of_le' (Nat.one_le_of_lt hk)
      exact ih k hl (by omega)

theorem two_mul_discardCount_lt {n : Nat} (h : 0 < n) : 2 * discardCount n < n := by
  unfold discardCount
  repeat' split
  all_goals omega

theorem two_mul_discardCount_le (n : Nat) : 2 * discardCount n ≤ n := by
  rcases Nat.eq_zero_or_pos n with rfl | h
  · rfl
  · exact (two_mul_discardCount_lt h).le

theorem keptDevs_length {l : List (Nat × Int)} : (keptDevs l).length = l.length - 2 * discardCount l.length := by
  simp only [keptDevs, List.length_take, List.length_drop, (sortDevs_perm l).length_eq]
  omega

/-- The entries of the sorted list that lie below an interval are at most `k` and come first; those above are at most `k` and
come last. -/
theorem keptDevs_mem_Icc {l : List (Nat × Int)} {lo hi : Int}
    (h : (l.filter (fun e => !(decide (lo ≤ e.2) && decide (e.2 ≤ hi)))).length ≤ discardCount l.length) :
    ∀ e ∈ keptDevs l, lo ≤ e.2 ∧ e.2 ≤ hi := by
  have hlen := (sortDevs_perm l).length_eq
  have hk := two_mul_discardCount_le l.length
  have hout (p : Nat × Int → Bool) (hp : ∀ e, (!p e) = true → (!(decide (lo ≤ e.2) && decide (e.2 ≤ hi))) = true)
      {m : List (Nat × Int)} (hm : m.Perm l) : (m.filter (fun e => !p e)).length ≤ discardCount l.length := by
    rw [(hm.filter _).length_eq]
    exact (List.monotone_filter_right l hp).length_le.trans h
  have hlow := forall_mem_drop_of_pairwise (p := fun e => decide (lo ≤ e.2)) (fun a b hab ha => by simp at ha ⊢; omega) _ _
    (sortDevs_sorted l) (hout _ (fun e he => by simp at he ⊢; omega) (sortDevs_perm l))
  have hhigh := forall_mem_drop_of_pairwise (p := fun e => decide (e.2 ≤ hi)) (fun a b hab ha => by simp at ha ⊢; omega) _ _
    (List.pairwise_reverse.mpr (sortDevs_sorted l))
    (hout _ (fun e he => by simp at he ⊢; omega) ((List.reverse_perm _).trans (sortDevs_perm l)))
  intro e he
  refine ⟨by simpa using hlow e (List.mem_of_mem_take he), ?_⟩
  unfold keptDevs at he
  rw [List.take_drop] at he
  have hmem : e ∈ (sortDevs l).take (l.length - discardCount l.length) :=
    List.take_subset_take_left _ (by omega) (List.mem_of_mem_drop he)
  rw [List.drop_reverse, hlen] at hhigh
  simpa using hhigh e (List.mem_reverse.mpr hmem)

/-! ## Their mean -/

theorem roundDiv_mem_Icc {a lo hi : Int} {n : Nat} (hn : 0 < n) (hlo : lo * n ≤ a) (hhi : a ≤ hi * n) :
    lo ≤ roundDiv a n ∧ roundDiv a n ≤ hi := by
  have hpos : (0 : Int) < 2 * n := by omega
  unfold roundDiv
  constructor
  · rw [Int.le_ediv_iff_mul_le hpos]
    linarith
  · rw [← Int.lt_add_one_iff, Int.ediv_lt_iff_lt_mul hpos]
    linarith

theorem foldl_add_snd_mem_Icc {lo hi : Int} (l : List (Nat × Int)) (h : ∀ e ∈ l, lo ≤ e.2 ∧ e.2 ≤ hi) (a : Int) :
    a + lo * l.length ≤ l.foldl (fun a x => a + x.2) a ∧ l.foldl (fun a x => a + x.2) a ≤ a + hi * l.length := by
  induction l generalizing a with
  | nil => simp
  | cons x l ih =>
    obtain ⟨hx, hx'⟩ := h x List.mem_cons_self
    obtain ⟨h1, h2⟩ := ih (fun e he => h e (List.mem_cons_of_mem x he)) (a + x.2)
    simp only [List.foldl_cons, List.length_cons, Nat.cast_add, Nat.cast_one]
    constructor <;> linarith

theorem averageDevs_mem_Icc {l : List (Nat × Int)} {lo hi : Int} (hne : l ≠ [])
    (h : (l.filter (fun e => !(decide (lo ≤ e.2) && decide (e.2 ≤ hi)))).length ≤ discardCount l.length) :
    lo ≤ averageDevs l ∧ averageDevs l ≤ hi := by
  have hlen : 0 < (keptDevs l).length := by
    have := two_mul_discardCount_lt (List.length_pos_iff.mpr hne)
    rw [keptDevs_length]
    omega
  obtain ⟨h1, h2⟩ := foldl_add_snd_mem_Icc (keptDevs l) (keptDevs_mem_Icc h) 0
  exact roundDiv_mem_Icc hlen (by linarith) (by linarith)

/-! ## Signed register values -/

theorem toSigned_range {w x : Nat} (hx : x < 2 ^ (w + 1)) : -2 ^ w ≤ toSigned (w + 1) x ∧ toSigned (w + 1) x < 2 ^ w := by
  have hp : (2 : Nat) ^ (w + 1) = 2 * 2 ^ w := by ring
  unfold toSigned
  push_cast
  split
  · next h =>
    have : (x : Int) < 2 ^ w := by exact_mod_cast h
    omega
  · next h =>
    have h1 : (2 ^ w : Int) ≤ x := by exact_mod_cast not_lt.mp h
    have h2 : (x : Int) < 2 * 2 ^ w := by exact_mod_cast hp ▸ hx
    have h3 : (2 : Int) ^ (w + 1) = 2 * 2 ^ w := by ring
    omega

/-- The register pattern of a number in range reads as that number. -/
theorem toSigned_ofSigned_32 {x : Int} (hlo : -2 ^ 31 ≤ x) (hhi : x < 2 ^ 31) : toSigned 32 (ofSigned 32 x) = x := by
  unfold toSigned ofSigned
  split <;> omega

theorem ofSigned_lt (w : Nat) (x : Int) : ofSigned w x < 2 ^ w := by
  have hpos : (0 : Int) < (2 ^ w : Nat) := by exact_mod_cast Nat.two_pow_pos w
  have := Int.emod_lt_of_pos x hpos
  have := Int.emod_nonneg x hpos.ne'
  unfold ofSigned
  omega

theorem State.get_lt (s : State) (f : Fld) : s.get f < 2 ^ f.width :=
  Nat.mod_lt _ (Nat.two_pow_pos _)

/-! ## The slew of a tick -/

theorem State.slewTick_rem (s : State) :
    toSigned 32 (s.slewTick.get SYNC.SLEW_REM.REM) =
      toSigned 32 (s.get SYNC.SLEW_REM.REM) - max (-320) (min (toSigned 32 (s.get SYNC.SLEW_REM.REM)) 320) := by
  obtain ⟨hlo, hhi⟩ : -2 ^ 31 ≤ toSigned 32 (s.get SYNC.SLEW_REM.REM) ∧ toSigned 32 (s.get SYNC.SLEW_REM.REM) < 2 ^ 31 :=
    toSigned_range (w := 31) (s.get_lt SYNC.SLEW_REM.REM)
  unfold State.slewTick
  rw [State.get_set_self _ _ _ (by decide), show SYNC.SLEW_REM.REM.width = 32 from rfl, Nat.mod_eq_of_lt (ofSigned_lt 32 _)]
  exact toSigned_ofSigned_32 (by omega) (by omega)

theorem State.word_slewTick_ne (s : State) {a : Nat} (h : a ≠ SYNC.SLEW_REM.REM.off) : s.slewTick.word a = s.word a :=
  State.word_set_ne s _ _ h

end Sys2Proof.Machine

namespace Sys2Proof.Proofs

open Sys2Proof.Machine

/-- Settles O16: of the sorted entries, those below the interval are among the k dropped first and those above among the k
dropped last; the mean of what is left, rounded, stays in the interval. -/
theorem faultTolerantAverage : Obligations.FaultTolerantAverage :=
  ⟨fun _ _ _ hne h => averageDevs_mem_Icc hne h, by decide⟩

/-- Settles O17: the remainder loses its own value limited to ±320. -/
theorem slewIsBounded : Obligations.SlewIsBounded := by
  intro s
  dsimp only
  rw [State.slewTick_rem]
  refine ⟨?_, ?_, ?_, fun a h => State.word_slewTick_ne s h⟩
  all_goals omega

end Sys2Proof.Proofs
end

section
/-! PROOFS. Writes of INTC.PEND: what they clear and what is pending again (R626 to R629). -/

namespace Sys2Proof.Machine

/-! ## Single bits of a number -/

theorem bit_eq_testBit (x i : Nat) : bit x i = x.testBit i := by
  simp [bit, Nat.testBit_eq_decide_div_mod_eq, Bool.beq_eq_decide_eq]

/-- Adding a power of two to a number whose bit is clear sets that bit alone. -/
theorem testBit_add_two_pow {x i : Nat} (h : x.testBit i = false) (j : Nat) :
    (x + 2 ^ i).testBit j = (decide (j = i) || x.testBit j) := by
  rcases Nat.lt_trichotomy j i with hj | rfl | hj
  · simp [Nat.add_comm x, Nat.testBit_two_pow_add_gt hj, hj.ne]
  · simp [Nat.add_comm x, Nat.testBit_two_pow_add_eq, h]
  · have heven : x / 2 ^ i % 2 = 0 := by simpa [Nat.testBit_eq_decide_div_mod_eq] using h
    have hsplit (y : Nat) : y / 2 ^ j = y / 2 ^ i / 2 / 2 ^ (j - i - 1) := by
      rw [Nat.div_div_eq_div_mul, Nat.div_div_eq_div_mul, ← mul_assoc, ← pow_succ, ← pow_add]
      congr 2
      omega
    have hsame : (x + 2 ^ i) / 2 ^ j = x / 2 ^ j := by
      rw [hsplit, hsplit, Nat.add_div_right _ (Nat.two_pow_pos i)]
      congr 1
      omega
    simp [Nat.testBit_eq_decide_div_mod_eq, hsame, hj.ne']

theorem testBit_setBit (x i j : Nat) : (setBit x i).testBit j = (decide (j = i) || x.testBit j) := by
  unfold setBit
  rw [bit_eq_testBit]
  split
  · next h =>
    by_cases hj : j = i
    · simp [hj, h]
    · simp [hj]
  · next h => exact testBit_add_two_pow (by simpa using h) j

theorem testBit_clrBit (x i j : Nat) : (clrBit x i).testBit j = (!decide (j = i) && x.testBit j) := by
  unfold clrBit
  rw [bit_eq_testBit]
  split
  · next h =>
    have hle : 2 ^ i ≤ x := Nat.ge_two_pow_of_testBit h
    have hclear : (x - 2 ^ i).testBit i = false := by
      have := Nat.testBit_two_pow_add_eq (x - 2 ^ i) i
      rw [Nat.add_sub_cancel' hle, h] at this
      simpa using this.symm
    have := testBit_add_two_pow hclear j
    rw [Nat.sub_add_cancel hle] at this
    rw [this]
    by_cases hj : j = i
    · simp [hj, hclear]
    · simp [hj]
  · next h =>
    by_cases hj : j = i
    · simpa [hj] using h
    · simp [hj]

/-! ## Pending bits -/

theorem pendFld_eq_iff {m n : Nat} : pendFld m = pendFld n ↔ (m < 32 ↔ n < 32) := by
  unfold pendFld
  by_cases hm : m < 32 <;> by_cases hn : n < 32 <;> simp [hm, hn]

theorem pendFld_apart {m n : Nat} (h : ¬(m < 32 ↔ n < 32)) : (pendFld m).apart (pendFld n) = true := by
  unfold pendFld
  by_cases hm : m < 32
  · simp [hm, show ¬n < 32 from fun hn => h (by simp [hm, hn])]
  · simp [hm, show n < 32 from by_contra fun hn => h (by simp [hm, hn])]

theorem pendFld_ok (n : Nat) : (pendFld n).ok = true ∧ (pendFld n).width = 32 := by
  unfold pendFld
  split <;> exact ⟨by decide, rfl⟩

/-- Writing one source's pending bit sets that bit and no other source's. -/
theorem State.isPend_putBit {m n : Nat} (hm : m < 64) (hn : n < 64) (s : State) (b : Bool) :
    (s.putBit (pendFld m) (m % 32) b).isPend n = if n = m then b else s.isPend n := by
  unfold State.isPend State.getBit
  rw [bit_eq_testBit, bit_eq_testBit]
  by_cases hmn : m < 32 ↔ n < 32
  · obtain ⟨hok, hw⟩ := pendFld_ok n
    unfold State.putBit
    rw [pendFld_eq_iff.mpr hmn, State.get_set_self _ _ _ hok, hw, Nat.testBit_mod_two_pow]
    have hbit : n % 32 = m % 32 ↔ n = m := by omega
    cases b
    · simp [testBit_clrBit, hbit, Nat.mod_lt]
    · simp [testBit_setBit, hbit, Nat.mod_lt]
  · rw [State.get_putBit_apart _ _ _ (pendFld_apart hmn), if_neg (by rintro rfl; exact hmn Iff.rfl)]

/-- The interrupt outputs live in INTC.CTRL alone among the registers. -/
theorem State.word_irqLevel {a : Nat} (h : a ≠ INTC.CTRL.off) (s : State) : s.irqLevel.word a = s.word a := by
  unfold State.irqLevel
  dsimp only
  rw [State.word_mk]
  split
  · rw [State.word_emit, State.setFlag, State.word_set_ne _ _ _ h, State.setFlag, State.word_set_ne _ _ _ h]
  · rw [State.setFlag, State.word_set_ne _ _ _ h]

theorem State.word_statSet (s : State) (n a : Nat) : (s.statSet n).word a = s.word a := by
  unfold State.word
  rw [State.statSet_regs]

/-- The registers that setting or clearing pending bits writes. -/
def intcWritten (a : Nat) : Bool := [INTC.PEND_LO.off, INTC.PEND_HI.off, INTC.CTRL.off].contains a

theorem pendFld_off (n : Nat) : intcWritten (pendFld n).off = true ∧ (pendFld n).off ≠ INTC.CTRL.off := by
  unfold pendFld
  split <;> decide

/-- Two states that agree on every register but those: event bits, Decik's and CORE's among them. -/
def SameEvents (s t : State) : Prop := ∀ a, intcWritten a = false → t.word a = s.word a

theorem SameEvents.refl (s : State) : SameEvents s s := fun _ _ => rfl

theorem SameEvents.trans {s t u : State} (h : SameEvents s t) (k : SameEvents t u) : SameEvents s u :=
  fun a ha => (k a ha).trans (h a ha)

theorem State.sameEvents_putBit (s : State) (n i : Nat) (b : Bool) : SameEvents s (s.putBit (pendFld n) i b) := by
  intro a ha
  refine State.word_set_ne s _ _ ?_
  rintro rfl
  exact absurd (pendFld_off n).1 (by simp [ha])

theorem State.sameEvents_irqLevel (s : State) : SameEvents s s.irqLevel := by
  intro a ha
  refine State.word_irqLevel ?_ s
  rintro rfl
  exact absurd ha (by decide)

theorem State.sameEvents_setPend (s : State) (n : Nat) : SameEvents s (s.setPend n) := by
  have hput := s.sameEvents_putBit n (n % 32) true
  unfold State.setPend
  dsimp only
  refine .trans ?_ (State.sameEvents_irqLevel _)
  split
  · exact hput.trans fun a _ => State.word_statSet _ n a
  · exact hput

theorem State.sameEvents_pend (s : State) (n : Nat) : SameEvents s (s.pend n) := by
  unfold State.pend
  split
  · exact .refl s
  · exact s.sameEvents_setPend n

theorem srcEvents_not_intc {n : Nat} (hn : n < 64) : ∀ e ∈ srcEvents n, intcWritten e.1 = false := by
  interval_cases n <;> decide

theorem SameEvents.srcEvent {s t : State} (h : SameEvents s t) {n : Nat} (hn : n < 64) : t.srcEvent n = s.srcEvent n := by
  unfold State.srcEvent
  rw [Bool.eq_iff_iff, List.any_eq_true, List.any_eq_true]
  refine exists_congr fun e => and_congr_right fun he => ?_
  rw [h _ (srcEvents_not_intc hn e he)]

theorem SameEvents.decikRuns {s t : State} (h : SameEvents s t) : t.decikRuns = s.decikRuns := by
  unfold State.decikRuns State.flag State.get
  rw [h _ (by decide)]

theorem SameEvents.domOn_core {s t : State} (h : SameEvents s t) : t.domOn Dom.core = s.domOn Dom.core := by
  unfold State.domOn State.get
  rw [h _ (by decide)]

theorem State.isPend_congr {s t : State} (h : ∀ a, a ≠ INTC.CTRL.off → s.word a = t.word a) (n : Nat) : s.isPend n = t.isPend n := by
  unfold State.isPend State.getBit State.get
  rw [h _ (pendFld_off n).2]

theorem State.isPend_irqLevel (s : State) (n : Nat) : s.irqLevel.isPend n = s.isPend n :=
  State.isPend_congr (fun _ h => State.word_irqLevel h s) n

theorem State.isPend_setPend {m n : Nat} (hm : m < 64) (hn : n < 64) (s : State) :
    (s.setPend m).isPend n = (decide (n = m) || s.isPend n) := by
  unfold State.setPend
  dsimp only
  rw [State.isPend_irqLevel]
  have hput := State.isPend_putBit hm hn s true
  split
  · rw [State.isPend_congr (fun a _ => State.word_statSet _ m a), hput]
    by_cases h : n = m <;> simp [h]
  · rw [hput]
    by_cases h : n = m <;> simp [h]

/-- With CORE on, a source is set unless it is Decik's and Decik is stopped (R628). -/
theorem State.isPend_pend {m n : Nat} (hm : m < 64) (hn : n < 64) {s : State} (hcore : s.domOn Dom.core = true) :
    (s.pend m).isPend n = (s.isPend n || decide (n = m) && (!decikSource m || s.decikRuns)) := by
  unfold State.pend
  rw [hcore]
  split
  · next h =>
    by_cases hnm : n = m
    · subst hnm
      cases hp : s.isPend n <;> simp_all
    · simp [hnm]
  · next h =>
    rw [State.isPend_setPend hm hn]
    by_cases hnm : n = m
    · subst hnm
      cases hd : decikSource n <;> simp_all
    · simp [hnm]

/-! ## A write of PEND -/

theorem namedSources_lt {hi : Bool} {w n : Nat} (h : n ∈ namedSources hi w) : n < 64 := by
  simp only [namedSources, List.mem_map, List.mem_filter, List.mem_range] at h
  obtain ⟨i, ⟨hi32, -⟩, rfl⟩ := h
  split <;> omega

/-- The first pass clears the pending bits of the sources named. -/
theorem foldl_clear_pend {n : Nat} (hn : n < 64) (l : List Nat) (hl : ∀ m ∈ l, m < 64) (s : State) :
    SameEvents s (l.foldl (fun (s : State) (n : Nat) => s.putBit (pendFld n) (n % 32) false) s) ∧
      (l.foldl (fun (s : State) (n : Nat) => s.putBit (pendFld n) (n % 32) false) s).isPend n = (!decide (n ∈ l) && s.isPend n) := by
  induction l generalizing s with
  | nil => exact ⟨.refl s, by simp⟩
  | cons m l ih =>
    obtain ⟨hsame, hpend⟩ := ih (fun x hx => hl x (List.mem_cons_of_mem m hx)) (s.putBit (pendFld m) (m % 32) false)
    refine ⟨(s.sameEvents_putBit m _ false).trans hsame, ?_⟩
    rw [List.foldl_cons, hpend, State.isPend_putBit (hl m List.mem_cons_self) hn]
    by_cases hnm : n = m <;> simp [hnm]

/-- The second pass sets those of them again that have an event bit set. -/
theorem foldl_set_pend {n : Nat} (hn : n < 64) (l : List Nat) (hl : ∀ m ∈ l, m < 64) {s : State} (hcore : s.domOn Dom.core = true) :
    SameEvents s (l.foldl (fun (s : State) (n : Nat) => if s.srcEvent n then s.pend n else s) s) ∧
      (l.foldl (fun (s : State) (n : Nat) => if s.srcEvent n then s.pend n else s) s).isPend n =
        (s.isPend n || decide (n ∈ l) && s.srcEvent n && (!decikSource n || s.decikRuns)) := by
  induction l generalizing s with
  | nil => exact ⟨.refl s, by simp⟩
  | cons m l ih =>
    have hstep : SameEvents s (if s.srcEvent m then s.pend m else s) := by
      split
      · exact s.sameEvents_pend m
      · exact .refl s
    obtain ⟨hsame, hpend⟩ := ih (fun x hx => hl x (List.mem_cons_of_mem m hx)) (hstep.domOn_core.trans hcore)
    refine ⟨hstep.trans hsame, ?_⟩
    rw [List.foldl_cons, hpend, hstep.srcEvent hn, hstep.decikRuns]
    split
    · next he =>
      rw [State.isPend_pend (hl m List.mem_cons_self) hn hcore]
      by_cases hnm : n = m
      · subst hnm
        cases s.isPend n <;> simp [he]
      · simp [hnm]
    · next he =>
      by_cases hnm : n = m
      · subst hnm
        simp [he]
      · simp [hnm]

theorem State.sameEvents_pendWrite {s : State} (hcore : s.domOn Dom.core = true) (hi : Bool) (w : Nat) : SameEvents s (s.pendWrite hi w) := by
  have hclear := (foldl_clear_pend (n := 0) (by decide) (namedSources hi w) (fun _ => namedSources_lt) s).1.trans
    (State.sameEvents_irqLevel _)
  exact hclear.trans (foldl_set_pend (n := 0) (by decide) _ (fun _ => namedSources_lt) (hclear.domOn_core.trans hcore)).1

/-- A write of PEND leaves pending what it does not name, and what it names where an event bit is set and may set it. -/
theorem State.isPend_pendWrite {s : State} (hcore : s.domOn Dom.core = true) (hi : Bool) (w : Nat) {n : Nat} (hn : n < 64) :
    (s.pendWrite hi w).isPend n =
      (!decide (n ∈ namedSources hi w) && s.isPend n ||
        decide (n ∈ namedSources hi w) && s.srcEvent n && (!decikSource n || s.decikRuns)) := by
  obtain ⟨hsame, hclear⟩ := foldl_clear_pend hn (namedSources hi w) (fun _ => namedSources_lt) s
  have hsame' := hsame.trans (State.sameEvents_irqLevel _)
  have hset := (foldl_set_pend hn (namedSources hi w) (fun _ => namedSources_lt) (hsame'.domOn_core.trans hcore)).2
  rwa [State.isPend_irqLevel, hclear, hsame'.srcEvent hn, hsame'.decikRuns] at hset

end Sys2Proof.Machine

namespace Sys2Proof.Proofs

open Sys2Proof.Machine

/-- Settles O30: the write first clears every named pending bit and then sets again those whose event bits are set; neither pass
writes a register that holds event bits. -/
theorem pendingBitsAreNeverLost : Obligations.PendingBitsAreNeverLost := by
  intro s hi w n hn hcore
  have hpend := State.isPend_pendWrite hcore hi w hn
  refine ⟨fun hmem hmay => ?_, fun hmem => ?_, (State.sameEvents_pendWrite hcore hi w).srcEvent hn⟩
  · rw [hpend]
    rcases hmay with h | h <;> simp [hmem, h]
  · rw [hpend]
    simp [hmem]

end Sys2Proof.Proofs
end

section
/-! PROOFS. Register reads of the host: what they answer, clear and capture (R9, R11, R46, R185, R449, R523). -/

namespace Sys2Proof.Machine

/-! ## Parts of a read -/

/-- The state with a captured second half, or none. -/
def State.capture (s : State) (c : Option (Nat × Nat)) : State := { s with clk := { s.clk with cap := c } }

@[simp] theorem State.word_capture (s : State) (c : Option (Nat × Nat)) (a : Nat) : (s.capture c).word a = s.word a := rfl
@[simp] theorem State.outbox_capture (s : State) (c : Option (Nat × Nat)) : (s.capture c).outbox = s.outbox := rfl
@[simp] theorem State.cap_capture (s : State) (c : Option (Nat × Nat)) : (s.capture c).clk.cap = c := rfl
@[simp] theorem State.outbox_readClear (s : State) (off : Nat) : (s.readClear off).outbox = s.outbox := rfl
@[simp] theorem State.clk_readClear (s : State) (off : Nat) : (s.readClear off).clk = s.clk := rfl

/-- A register without RC fields is left as it was by its read. -/
theorem State.word_readClear_of_no_rc {off : Nat} (h : (fieldsAt off).all (fun f => f.acc != .rc) = true) (s : State) (a : Nat) :
    (s.readClear off).word a = s.word a := by
  have hfold : ∀ (l : List FieldSpec) (w : Word), l.all (fun f => f.acc != .rc) = true →
      l.foldl (fun (w : Word) (f : FieldSpec) => if f.acc == .rc then putBits w f.hi f.lo 0 else w) w = w := by
    intro l w hl
    induction l generalizing w with
    | nil => rfl
    | cons f l ih =>
      rw [List.all_cons, Bool.and_eq_true] at hl
      rw [List.foldl_cons, if_neg (by simpa using hl.1)]
      exact ih w hl.2
  unfold State.readClear
  rw [hfold _ _ h]
  by_cases ha : a = off
  · rw [ha, State.word_setWord_self]
  · exact State.word_setWord_ne s _ ha

/-- A read within one word: the bytes named, of the word that the register reads as. -/
theorem State.hostRegRead_of_within {addr n : Nat} (h0 : 0 < n) (h4 : addr % 4 + n ≤ 4) (s : State) (ph : Nat) :
    s.hostRegRead addr n ph = (s.regRead (addr / 4 * 4) ph).2.emit
      (.hostRead ((s.regRead (addr / 4 * 4) ph).1.toNat / 2 ^ (8 * (addr % 4)) % 2 ^ (8 * n))) := by
  unfold State.hostRegRead State.readBytes
  rw [if_neg (by omega)]

/-- A read of no byte, or of bytes of two words, reads no register. -/
theorem State.hostRegRead_of_not_within {addr n : Nat} (h : n = 0 ∨ 4 < addr % 4 + n) (s : State) (ph : Nat) :
    s.hostRegRead addr n ph = s.uncaptured.emit (.hostRead 0) := by
  unfold State.hostRegRead State.readBytes
  rw [if_pos h]
  rfl

theorem State.hostRegRead_word {off : Nat} (h : off % 4 = 0) (s : State) (ph : Nat) :
    s.hostRegRead off 4 ph = (s.regRead off ph).2.emit (.hostRead (s.regRead off ph).1.toNat) := by
  rw [State.hostRegRead_of_within (by decide) (by omega), show off / 4 * 4 = off by omega, h]
  have hlt := (s.regRead off ph).1.isLt
  rw [Nat.mul_zero, pow_zero, Nat.div_one, Nat.mod_eq_of_lt hlt]

@[simp] theorem State.outbox_emit (s : State) (o : Output) : (s.emit o).outbox = s.outbox ++ [o] := rfl
@[simp] theorem State.clk_emit (s : State) (o : Output) : (s.emit o).clk = s.clk := rfl

/-! ## Single registers -/

theorem State.regRead_tickSeq {s : State} (h : s.domOn (regDomain GLB.TICK_SEQ.off) = true) (ph : Nat) :
    s.regRead GLB.TICK_SEQ.off ph =
      (s.word GLB.TICK_SEQ.off, (s.capture (some (GLB.TICK_PHASE.off, ph))).readClear GLB.TICK_SEQ.off) := by
  unfold State.regRead
  rw [if_neg (by decide), h]
  rfl

theorem State.regRead_tickPhase {s : State} (h : s.domOn (regDomain GLB.TICK_SEQ.off) = true) (ph : Nat) :
    s.regRead GLB.TICK_PHASE.off ph = (s.halfValue GLB.TICK_PHASE.off ph, (s.capture none).readClear GLB.TICK_PHASE.off) := by
  unfold State.regRead
  rw [if_neg (by decide), show s.domOn (regDomain GLB.TICK_PHASE.off) = true from h]
  rfl

theorem State.regRead_syncTimeLo {s : State} (h : s.domOn (regDomain SYNC.TIME_LO.off) = true) (ph : Nat) :
    s.regRead SYNC.TIME_LO.off ph =
      (loWord (s.timeAt ph), (s.capture (some (SYNC.TIME_HI.off, s.timeAt ph / 2 ^ 32))).readClear SYNC.TIME_LO.off) := by
  unfold State.regRead
  rw [if_neg (by decide), h]
  rfl

theorem State.regRead_ptpTimeLo {s : State} (h : s.domOn (regDomain PTP.TIME_LO.off) = true) (ph : Nat) :
    s.regRead PTP.TIME_LO.off ph = (loWord (ptpBits (s.ptpNs ph)),
      (s.capture (some (PTP.TIME_HI.off, ptpBits (s.ptpNs ph) / 2 ^ 32))).readClear PTP.TIME_LO.off) := by
  unfold State.regRead
  rw [if_neg (by decide), h]
  rfl

theorem State.regRead_rtcLo {s : State} (h : s.domOn (regDomain PWR.RTC_LO.off) = true) (ph : Nat) :
    s.regRead PWR.RTC_LO.off ph =
      (loWord (s.rtcAt ph), (s.capture (some (PWR.RTC_HI.off, s.rtcAt ph / 2 ^ 32))).readClear PWR.RTC_LO.off) := by
  unfold State.regRead
  rw [if_neg (by decide), h]
  rfl

theorem State.regRead_wakeTo0 {s : State} (h : s.domOn (regDomain PWR.WAKE_TO0.off) = true) (ph : Nat) :
    s.regRead PWR.WAKE_TO0.off ph = (s.word PWR.WAKE_TO0.off, (s.capture none).readClear PWR.WAKE_TO0.off) := by
  unfold State.regRead
  rw [if_neg (by decide), h]
  rfl

theorem State.regRead_spiCnt {s : State} (h : s.domOn (regDomain BRG.SPI_CNT.off) = true) (ph : Nat) :
    s.regRead BRG.SPI_CNT.off ph = (s.word BRG.SPI_CNT.off, (s.capture none).readClear BRG.SPI_CNT.off) := by
  unfold State.regRead
  rw [if_neg (by decide), h]
  rfl

theorem fieldsAt_spiCnt : fieldsAt BRG.SPI_CNT.off = [⟨31, 16, .rc, 0⟩, ⟨15, 0, .rc, 0⟩] := by decide

/-- Both counters of SPI_CNT are read-clear (R9). -/
theorem State.get_readClear_spiCnt (s : State) :
    (s.readClear BRG.SPI_CNT.off).get BRG.SPI_CNT.CMD_ERR = 0 ∧ (s.readClear BRG.SPI_CNT.off).get BRG.SPI_CNT.FRAME_ERR = 0 := by
  unfold State.readClear State.get
  rw [fieldsAt_spiCnt]
  dsimp only
  rw [State.word_setWord_self]
  constructor
  · exact bitsOf_putBits_self _ 0 (by decide) (by decide)
  · exact (bitsOf_putBits_other _ 0 (by decide)).trans (bitsOf_putBits_self _ 0 (by decide) (by decide))

/-! ## What a read captures -/

theorem State.clk_semRead (s : State) (k : Nat) : (s.semRead k).2.clk = s.clk := by
  unfold State.semRead
  dsimp only
  repeat' split
  all_goals rfl

theorem State.clk_measured (s : State) (off : Nat) (w : Word) : (s.measured off w).2.clk = s.clk := by
  unfold State.measured State.fresh
  dsimp only
  repeat' split
  all_goals rfl

/-- Only a read of TICK_SEQ captures a phase for TICK_PHASE. -/
theorem State.cap_regRead_ne_tickPhase {off : Nat} (h : off ≠ GLB.TICK_SEQ.off) (s : State) (ph v : Nat) :
    (s.regRead off ph).2.clk.cap ≠ some (GLB.TICK_PHASE.off, v) := by
  have hhalf : s.secondHalf off ph ≠ some (GLB.TICK_PHASE.off, v) := by
    unfold State.secondHalf
    rw [if_neg (by simpa using h)]
    repeat' split
    all_goals simp
  unfold State.regRead
  repeat' split
  all_goals dsimp only
  · simp
  · simp
  · rw [State.clk_semRead]; exact hhalf
  · exact hhalf
  · exact hhalf
  · exact hhalf
  · rw [State.clk_readClear, State.clk_measured]; exact hhalf

theorem State.cap_hostRegRead_ne_tickPhase {addr : Nat} (h : addr / 4 * 4 ≠ GLB.TICK_SEQ.off) (s : State) (n ph v : Nat) :
    (s.hostRegRead addr n ph).clk.cap ≠ some (GLB.TICK_PHASE.off, v) := by
  by_cases hw : n = 0 ∨ 4 < addr % 4 + n
  · rw [State.hostRegRead_of_not_within hw]
    exact Option.some_ne_none _ |>.symm
  · rw [State.hostRegRead_of_within (by omega) (by omega)]
    exact State.cap_regRead_ne_tickPhase h s ph v

theorem State.cap_registerWrite_of_not_whole {a : Nat} {e : Fin 16} (h : wholeWord a e.val = false) (w : Word) (s : State) :
    execRegisterWrite a e w s = .next (s.capture none) := by
  unfold execRegisterWrite
  rw [h]
  rfl

theorem State.cap_hostWrite_wakeTo0 (s : State) (w : Word) : (s.hostWrite PWR.WAKE_TO0.off w).clk.cap = none := by
  have hacc : s.hostWrite PWR.WAKE_TO0.off w =
      s.access PWR.WAKE_TO0.off (fun s => s.plain PWR.WAKE_TO0.off w false) := rfl
  rw [hacc]
  unfold State.access
  dsimp only
  split
  · rfl
  · rfl

/-! ## TICK_SEQ and TICK_PHASE -/

theorem State.halfValue_of_captured {s : State} {off v : Nat} (h : s.clk.cap = some (off, v)) (fresh : Nat) :
    s.halfValue off fresh = BitVec.ofNat 32 v := by
  unfold State.halfValue
  rw [h]
  simp

theorem State.halfValue_of_not_captured {s : State} {off : Nat} (h : ∀ v, s.clk.cap ≠ some (off, v)) (fresh : Nat) :
    s.halfValue off fresh = BitVec.ofNat 32 fresh := by
  unfold State.halfValue
  split
  · next o v hc =>
    rw [if_neg]
    simp only [beq_iff_eq]
    rintro rfl
    exact h v hc
  · rfl

theorem State.outbox_hostRegRead_tickSeq {s : State} (h : s.domOn (regDomain GLB.TICK_SEQ.off) = true) (ph : Nat) :
    (s.hostRegRead GLB.TICK_SEQ.off 4 ph).outbox = s.outbox ++ [.hostRead (s.word GLB.TICK_SEQ.off).toNat] ∧
      (s.hostRegRead GLB.TICK_SEQ.off 4 ph).clk.cap = some (GLB.TICK_PHASE.off, ph) := by
  rw [State.hostRegRead_word (by decide), State.regRead_tickSeq h]
  exact ⟨rfl, rfl⟩

theorem State.domOn_hostRegRead_tickSeq {s : State} (h : s.domOn (regDomain GLB.TICK_SEQ.off) = true) (ph : Nat) :
    (s.hostRegRead GLB.TICK_SEQ.off 4 ph).domOn (regDomain GLB.TICK_SEQ.off) = true := by
  rw [State.hostRegRead_word (by decide), State.regRead_tickSeq h, ← h]
  unfold State.domOn State.get
  rw [State.word_emit, State.word_readClear_of_no_rc (by decide), State.word_capture]

theorem State.outbox_hostRegRead_tickPhase {s : State} (h : s.domOn (regDomain GLB.TICK_SEQ.off) = true) (ph : Nat) :
    (s.hostRegRead GLB.TICK_PHASE.off 4 ph).outbox = s.outbox ++ [.hostRead (s.halfValue GLB.TICK_PHASE.off ph).toNat] := by
  rw [State.hostRegRead_word (by decide), State.regRead_tickPhase h]
  rfl

theorem phase_toNat (p : Fin 20854) : (BitVec.ofNat 32 p.val).toNat = p.val := by
  rw [BitVec.toNat_ofNat]
  omega

/-- With no phase captured, TICK_PHASE answers the phase of its own read. -/
theorem State.tickPhase_read_fresh {t : State} (h : t.domOn (regDomain GLB.TICK_SEQ.off) = true)
    (hcap : ∀ v, t.clk.cap ≠ some (GLB.TICK_PHASE.off, v)) (x : Fin 20854) :
    ∃ u, exec (.rcFieldRead GLB.TICK_PHASE.off 4 x) t = .next u ∧ u.outbox = t.outbox ++ [.hostRead x.val] := by
  refine ⟨_, rfl, ?_⟩
  rw [State.outbox_hostRegRead_tickPhase h, State.halfValue_of_not_captured hcap, phase_toNat]

end Sys2Proof.Machine

namespace Sys2Proof.Proofs

open Sys2Proof.Machine

/-- Settles O57: the read of TICK_SEQ captures its phase for TICK_PHASE, and no other read or write named captures one. -/
theorem tickPositionIsReadConsistently : Obligations.TickPositionIsReadConsistently := by
  refine ⟨fun s p x h => ?_, fun s t a n p x ha hexec h => ?_, fun s t a e w x hw hexec h => ?_⟩
  · obtain ⟨hout, hcap⟩ := State.outbox_hostRegRead_tickSeq h p.val
    refine ⟨_, _, rfl, hout, rfl, ?_⟩
    rw [State.outbox_hostRegRead_tickPhase (State.domOn_hostRegRead_tickSeq h p.val), State.halfValue_of_captured hcap, phase_toNat]
  · cases hexec
    exact State.tickPhase_read_fresh h (State.cap_hostRegRead_ne_tickPhase ha s n p.val) x
  · refine State.tickPhase_read_fresh h (fun v hv => ?_) x
    have hexec : execRegisterWrite a e w s = .next t := hexec
    rcases hw with hw | ⟨rfl, he⟩
    · rw [State.cap_registerWrite_of_not_whole hw] at hexec
      cases hexec
      exact absurd hv (by simp)
    · unfold execRegisterWrite at hexec
      repeat' split at hexec
      · cases hexec; exact absurd hv (by simp)
      · cases hexec
      · cases hexec
        rw [State.cap_hostWrite_wakeTo0] at hv
        cases hv

/-- Settles O34, register by register: what each read answers, captures and clears. -/
theorem registerReads : Obligations.RegisterReads := by
  refine ⟨fun s a n p h => ?_, fun s k n p h hn hk => ?_, fun s p h => ?_, fun s p h => ?_, fun s p h => ?_, fun s p h => ?_,
    fun s p h => ?_, fun s p h => ?_⟩
  · exact congrArg _ (State.hostRegRead_of_not_within h s p.val)
  · have hoff : PWR.WAKE_TO0.off = 4 * 19466 := rfl
    refine ⟨_, rfl, ?_⟩
    rw [State.hostRegRead_of_within hn (by omega), show (PWR.WAKE_TO0.off + k) / 4 * 4 = PWR.WAKE_TO0.off by omega,
      show (PWR.WAKE_TO0.off + k) % 4 = k by omega, State.regRead_wakeTo0 h]
    exact ⟨fun a => State.word_readClear_of_no_rc (by decide) _ a, rfl⟩
  · exact ⟨_, rfl, State.outbox_hostRegRead_tickSeq h p.val⟩
  · refine ⟨_, rfl, ?_⟩
    rw [State.hostRegRead_word (by decide), State.regRead_syncTimeLo h]
    exact ⟨rfl, rfl⟩
  · refine ⟨_, rfl, ?_⟩
    rw [State.hostRegRead_word (by decide), State.regRead_ptpTimeLo h]
    exact ⟨rfl, rfl⟩
  · refine ⟨_, rfl, ?_⟩
    rw [State.hostRegRead_word (by decide), State.regRead_rtcLo h]
    exact ⟨rfl, rfl⟩
  · refine ⟨_, rfl, ?_⟩
    rw [State.hostRegRead_word (by decide), State.regRead_spiCnt h]
    exact State.get_readClear_spiCnt _
  · exact congrArg _ (State.access_reaches h _)

end Sys2Proof.Proofs
end

section
/-! PROOFS. Coupler and stack links: training, qualification, loss, lane tests and link control (R55 to R74, R482). -/

namespace Sys2Proof.Machine

/-- A command's meaning answers a next state: what is left is that the states agree. -/
theorem exec_eq_next {c : Instr} {s t u : State} (hexec : exec c s = .next u) (h : u = t) : exec c s = .next t :=
  hexec.trans (congrArg _ h)

/-- A link in service is QUALIFIED or IN_RING, so in none of the states before. -/
theorem State.linkState_of_linkUp {s : State} {m : LinkIx} (h : s.linkUp m = true) :
    s.linkState m = Lk.qualified ∨ s.linkState m = Lk.inRing := by
  simpa [State.linkUp] using h

end Sys2Proof.Machine

namespace Sys2Proof.Proofs

open Sys2Proof.Machine

/-- Settles O9: in the state named, each training event takes the branch of its row. -/
theorem linkTrainingSteps : Obligations.LinkTrainingSteps := by
  unfold Obligations.LinkTrainingSteps State.linkState State.stackLink
  refine ⟨fun s m h => ?_, fun s m pt loop h => ?_, fun s m h => ?_, fun s m h => ?_, fun s m h => ?_, fun s p h => ?_,
    fun s p pt loop h hm => ?_, fun s p h => ?_, fun s p h => ?_, fun s p h => ?_⟩
  all_goals refine exec_eq_next rfl ?_
  · simp [State.signalDetected, State.linkState, h]
  · simp [State.blockLockAcquired, State.linkState, h]
  · simp [State.trainTimeout, State.linkState, State.qualRestart, h]
  · simp [State.lossOfSignal, State.linkState, State.qualRestart, h]
  · simp [State.blockLockLost, State.linkState, State.qualRestart, h]
  · simp [State.stackSignal, State.stackLink, h]
  · rw [onPort_stackPort]
    have hrole : s.get STK.STAT.ROLE ≠ 1 := by simpa [State.isMember] using hm
    simp only [State.stackBlockLock, State.stackLink, State.stackTo, State.isMember]
    fin_cases p <;> simp [STK.LINKSTAT.off, STK.STAT.off, hrole] at h ⊢ <;> simp [h]
  · simp [State.stackTrainTimeout, State.stackLink, h]
  · simp [State.stackSignalLost, State.stackLink, h]
  · simp [State.stackBlockLost, State.stackLink, h]

/-- Settles O10: each event in the state named takes the branch of its row; a link in service is in none of the states before. -/
theorem linkQualificationSteps : Obligations.LinkQualificationSteps := by
  unfold Obligations.LinkQualificationSteps
  refine ⟨fun s m h => ?_, fun s m h => ?_, fun s m e h => ?_, fun s p e h => ?_, fun s m h => ?_, fun s p h => ?_,
    fun s m h => ?_, fun s m b h => ?_, fun s m b h hb => ?_, fun s m h => ?_, fun s m h => ?_⟩
  all_goals refine exec_eq_next rfl ?_
  · simp [h]
  · simp [State.qualReceiveError, h]
  · rcases State.linkState_of_linkUp h with hst | hst <;> simp [State.qualReceiveError, h, hst]
  · simp [State.stackRxError, h]
  · simp [State.linkLossEvent, h]
  · simp [State.stackLinkLoss, h]
  · simp [h]
  · simp [State.statusBlock, State.noteStatus, h]
  · rcases State.linkState_of_linkUp h with hst | hst <;> simp [State.statusBlock, h, hst, hb]
  · simp [h]
  · simp [h]

/-- Settles O11: each event of a lane test, and each write that its access lets through, takes the branch of its row. -/
theorem laneTestAndLinkControl : Obligations.LaneTestAndLinkControl := by
  unfold Obligations.LaneTestAndLinkControl
  refine ⟨fun s m => ?_, fun s p => ?_, fun s m h hm => ?_, fun s p h => ?_, fun s m h hm hl => ?_, fun s p h hl => ?_,
    fun s m mode hr h hm => ?_, fun s m hr h hm => ?_, fun s p hr h hm => ?_, fun s m hr h hm => ?_, fun s p hr h hm => ?_,
    fun s m hr hd h => ?_, fun s m hr h => ?_,
    fun s m on hr => ⟨exec_eq_next rfl (State.access_unreached hr _), exec_eq_next rfl (State.access_unreached hr _)⟩⟩
  all_goals refine exec_eq_next rfl ?_
  · simp [State.txeqApply]
  · simp [State.stackTxeq]
  · simp [State.prbsLock, State.prbsRuns, h, hm]
  · simp [State.stackPrbsLock, h]
  · simp [State.prbsResync, State.prbsRuns, h, hm, hl]
  · simp [State.stackPrbsResync, h, hl]
  · rw [portReg_couplerPort, State.access_reaches hr]
    have hmode : s.get (RING.LTEST.MODE m) ≠ mode.val % 4 := by omega
    simp_all [laneTestMode, State.linkUp, State.linkState]
  · rw [portReg_couplerPort, State.access_reaches hr]
    simp_all [laneTestMode, State.linkUp, State.linkState, RING.LTEST.off, RING.LINKSTAT.off, RING.PRBS_ERR.off, RING.PRBS_BITS.off]
  · rw [portReg_stackPort, State.access_reaches hr]
    simp_all [State.stackLaneMode, State.stackLink]
  · rw [portReg_couplerPort, State.access_reaches hr]
    simp_all [State.prbsInject, State.prbsRuns, State.linkState]
  · rw [portReg_stackPort, State.access_reaches hr]
    simp_all [State.stackInject, State.stackPrbs, State.stackLink]
  · rw [State.access_reaches hr]
    simp_all [linkDisable, State.linkUp, State.linkState, State.getBit, RING.LINK_CTRL.off, RING.LINKSTAT.off]
  · rw [State.access_reaches hr]
    have hapart : RING.LINK_CTRL.RETRAIN.apart (RING.LINKSTAT.STATE m) = true := by
      simp [RING.LINK_CTRL.off, RING.LINKSTAT.off]
      omega
    simp only [State.linkState] at h
    simp [linkRetrain, State.linkUp, State.linkState, State.get_putBit_apart _ _ _ hapart, h]

end Sys2Proof.Proofs
end

section
/-! PROOFS. Inauguration, topology changes and merges (R112 to R158). -/

namespace Sys2Proof.Machine

@[simp] theorem State.inaug_setGen (s : State) (b : Bool) : (s.setGen b).inaug = s.inaug := by
  unfold State.setGen
  split <;> rfl

theorem State.get_toPhase_apart (s : State) {f : Fld} (h : RING.INAUG_STAT.PHASE.apart f = true) (p : Nat) :
    (s.toPhase p).get f = s.get f :=
  State.get_set_apart s p h

/-- With no claim slot there is nothing to verify and no claim table to ask for. -/
theorem execClaimWindowEnd_of_no_slots {s : State} (hl : s.launches = true) (hp : s.phase = Phase.claim) (hs : s.inaug.slots = []) :
    execClaimWindowEnd s = .next ((s.toPhase Phase.compute).setGen false) := by
  have hslots : (s.toPhase Phase.compute).inaug.slots = [] := hs
  unfold execClaimWindowEnd
  simp only [hl, hp, hslots, State.inaug_setGen, Bool.true_and, beq_self_eq_true, if_true, List.filter_nil, List.map_nil,
    List.append_nil, List.foldl_nil, List.any_nil]
  rw [← hslots]

/-- The switch tick is announced as SWITCH_LEAD names it, whether or not a handover waits for it. -/
theorem execDistributeEnd_announces {s : State} (hl : s.launches = true) (hp : s.phase = Phase.distribute) :
    ∃ t, execDistributeEnd s = .next t ∧ t.flag RING.INAUG_STAT.SW_PEND = true ∧ t.inaug.announced = true ∧ t.ring.topoChg = false ∧
      t.get RING.SWITCH_TSEQ.TSEQ = (s.tickSeq + 1 + s.get RING.INAUG_CFG.SWITCH_LEAD) % 2 ^ 32 := by
  have hseq : (s.toPhase Phase.announced).tickSeq = s.tickSeq := State.get_toPhase_apart s (by decide) _
  have hlead : (s.toPhase Phase.announced).get RING.INAUG_CFG.SWITCH_LEAD = s.get RING.INAUG_CFG.SWITCH_LEAD :=
    State.get_toPhase_apart s (by decide) _
  refine ⟨_, rfl, ?_⟩
  rw [hl, hp]
  simp only [hseq, hlead, Bool.true_and, beq_self_eq_true, if_true]
  by_cases hh : (s.toPhase Phase.announced).red.handover.isSome = true
  · simp [hh, RING.INAUG_STAT.off, RING.SWITCH_TSEQ.off, RED.HANDOVER.off, Fld.width]
  · simp [hh, RING.INAUG_STAT.off, RING.SWITCH_TSEQ.off, Fld.width]

/-! ## What a start of forming leaves of the ring and of the inauguration -/

theorem State.enterLocked_ring_inaug (s : State) : s.enterLocked.ring = s.ring ∧ s.enterLocked.inaug = s.inaug := by
  simp [State.enterLocked, State.updateWriteEn]

theorem State.lockAsMaster_ring_inaug (s : State) : s.lockAsMaster.ring = s.ring ∧ s.lockAsMaster.inaug = s.inaug := by
  unfold State.lockAsMaster
  dsimp only
  split
  · exact ⟨rfl, rfl⟩
  · exact State.enterLocked_ring_inaug _

theorem State.startCount_ring_launching (s : State) (topo lay : Nat) :
    (s.startCount topo lay).ring = s.ring ∧ (s.startCount topo lay).inaug.launching = s.inaug.launching := by
  simp [State.startCount, State.toPhase]

/-- The end of the forming wait: the node launches, and follows itself. -/
theorem execFormingWaitEnd_launches {s : State} (h : s.mayForm = true) (hw : s.inaug.formingWait = true) :
    ∃ t, execFormingWaitEnd s = .next t ∧ t.ring.followUid = s.uid ∧ t.inaug.launching = true := by
  refine ⟨_, rfl, ?_⟩
  rw [h, hw, Bool.and_self, if_pos rfl]
  dsimp only
  rw [(State.startCount_ring_launching _ _ _).1, (State.startCount_ring_launching _ _ _).2,
    (State.lockAsMaster_ring_inaug _).1, (State.lockAsMaster_ring_inaug _).2]
  exact ⟨(State.setNodeTime_keeps (.refl s) s.rtc).uid, rfl⟩

end Sys2Proof.Machine

namespace Sys2Proof.Proofs

open Sys2Proof.Machine

/-- Settles O13: each event in its phase takes the branch of its row. -/
theorem inaugurationSteps : Obligations.InaugurationSteps := by
  unfold Obligations.InaugurationSteps
  refine ⟨fun s hm hp hd hl => ?_, fun s hl hp ha hb => ?_, fun s hl hp ha => ?_, fun s hl hp => ?_,
    fun s => execClaimWindowEnd_of_no_slots, fun s hl hp => ?_, fun s p hl hm => ?_, fun s p hl hp => ?_,
    fun s l k c hp hi hc => ?_, fun s => execDistributeEnd_announces, fun s hl => ?_⟩
  · refine exec_eq_next rfl ?_
    simp [hm, hp, hd, hl]
  · refine exec_eq_next rfl ?_
    simp [hl, hp, ha, hb]
  · refine exec_eq_next rfl ?_
    simp [hl, hp, ha]
  · refine exec_eq_next rfl ?_
    simp [hl, hp]
  · refine exec_eq_next rfl ?_
    simp [hl, hp]
  · refine exec_eq_next rfl ?_
    simp [hl, hm]
  · refine ⟨_, rfl, ?_⟩
    simp [hl, hp, Function.comp_def]
  · refine exec_eq_next rfl ?_
    simp [hp, hi, hc]
  · refine ⟨exec_eq_next rfl ?_, exec_eq_next rfl ?_, exec_eq_next rfl ?_, exec_eq_next rfl ?_, exec_eq_next rfl ?_⟩
    all_goals simp [hl]

/-- Settles O14: each event, with and without what it waits for; the discard and the start of forming by what they leave in the
fields named. -/
theorem topologyChanges : Obligations.TopologyChanges := by
  unfold Obligations.TopologyChanges
  refine ⟨fun s h => ?_, fun s h ha => ?_, fun s h => ?_, fun s h => ?_, fun s h => ?_, fun s h => ?_, fun s h => ?_, fun s h => ?_,
    fun s k h => ?_, fun s => ?_, fun s h => ?_, fun s => execFormingWaitEnd_launches⟩
  · refine exec_eq_next rfl ?_
    simp [h]
  · refine exec_eq_next rfl ?_
    simp [h, ha]
  · refine exec_eq_next rfl ?_
    simp [Option.isSome_iff_ne_none.mp h]
  · refine exec_eq_next rfl ?_
    simp [h]
  · refine exec_eq_next rfl ?_
    simp [h]
  · refine exec_eq_next rfl ?_
    simp [h]
  · refine exec_eq_next rfl ?_
    simp [h]
  · refine ⟨_, rfl, ?_⟩
    simp [h, Fld.width]
  · exact exec_eq_next rfl (State.access_reaches h _)
  · rfl
  · refine exec_eq_next rfl ?_
    simp [h]

/-- Settles O15: each event of a merge, in and out of the phase of its row. -/
theorem mergeSteps : Obligations.MergeSteps := by
  unfold Obligations.MergeSteps
  refine ⟨fun s m b a h => ?_, fun s m b a h hf hb => ?_, fun s m b a h hf hb => ⟨_, rfl⟩, fun s lead hp hw hn hi => ?_, fun s hm hp => ?_,
    fun s hm => ?_, fun s m r h hf ht => ?_, fun s h => ?_, fun s h => ?_, fun s r h hf hr => ?_, fun s h => ?_, fun s h => ?_⟩
  · refine exec_eq_next rfl ?_
    simp [h]
  · refine exec_eq_next rfl ?_
    simp [h, hf, hb]
  · refine ⟨_, rfl, ?_⟩
    simp [hp, hw, hn, hi, State.tickSeq, RING.PEND.off, GLB.TICK_SEQ.off]
  · refine exec_eq_next rfl ?_
    simp [hp, hm]
  · refine exec_eq_next rfl ?_
    simp [hm]
  · refine exec_eq_next rfl ?_
    simp [h, hf, ht]
  · refine exec_eq_next rfl ?_
    simp [h]
  · refine exec_eq_next rfl ?_
    simp [h]
  · refine exec_eq_next rfl ?_
    simp [h, hf, hr]
  · refine exec_eq_next rfl ?_
    simp [h]
  · refine exec_eq_next rfl ?_
    simp [h]
end Sys2Proof.Proofs
end

section
/-! PROOFS. Synchronisation rounds, redundancy and twins (R160 to R211). -/

namespace Sys2Proof.Proofs

open Sys2Proof.Machine

/-- Settles O18: each event, by the round's and the clock's state. -/
theorem syncRoundsAndLock : Obligations.SyncRoundsAndLock := by
  unfold Obligations.SyncRoundsAndLock
  refine ⟨fun s hroundVoid => exec_eq_next rfl ?_, fun s hrole htimelock => exec_eq_next rfl ?_,
    fun s hroundVoid hrole hroundEntries => exec_eq_next rfl ?_,
    fun s hroundVoid hrole hroundEntries => exec_eq_next rfl ?_, fun s d hstepDue hsyncState => exec_eq_next rfl ?_,
    fun s hstepDue => exec_eq_next rfl ?_, fun s hsyncState hget => exec_eq_next rfl ?_,
    fun s hlockcnt => exec_eq_next rfl ?_, fun s hholdRounds hinSync => exec_eq_next rfl ?_,
    fun s hnoEntryRounds => exec_eq_next rfl ?_, fun s => exec_eq_next rfl ?_, fun s hdomOn => exec_eq_next rfl ?_⟩
  · simp [hroundVoid]
  · simp [hrole, htimelock]
  · simp [hroundVoid, hrole, hroundEntries]
  · simp [hroundVoid, hrole, hroundEntries]
  · simp only [State.syncState] at hsyncState
    simp [State.syncState, hstepDue, hsyncState]
  · simp [hstepDue]
  · simp [hsyncState, hget]
  · simp [hlockcnt]
  · simp [hholdRounds, hinSync]
  · simp [hnoEntryRounds]
  · simp
  · simp [hdomOn]

/-- Settles O19: each loss, by the other heartbeat; each takeover, by the node's role. -/
theorem redundancyTakeovers : Obligations.RedundancyTakeovers := by
  unfold Obligations.RedundancyTakeovers
  refine ⟨fun s hringhb hcanhb => exec_eq_next rfl ?_, fun s hringhb hcanhb => exec_eq_next rfl ?_,
    fun s hringhb => exec_eq_next rfl ?_, fun s hcanhb hringhb => exec_eq_next rfl ?_,
    fun s hcanhb hringhb => exec_eq_next rfl ?_, fun s hcanhb => exec_eq_next rfl ?_,
    fun s us10 hfailed hagreed hmrole => exec_eq_next rfl ?_,
    fun s us10 l hfailed hagreed hisMaster hlayout hmrole => exec_eq_next rfl ?_,
    fun s us10 hfailed => ⟨exec_eq_next rfl ?_, exec_eq_next rfl ?_⟩⟩
  · simp [hringhb, hcanhb]
  · simp [hringhb, hcanhb]
  · simp [hringhb]
  · simp [hcanhb, hringhb]
  · simp [hcanhb, hringhb]
  · simp [hcanhb]
  · simp [hfailed, hagreed, hmrole]
  · simp [hfailed, hagreed, hisMaster, hlayout, hmrole]
  · simp [hfailed]
  · simp [hfailed]

/-- Settles O20: each event, by the node's part in the twin. -/
theorem twinEvents : Obligations.TwinEvents := by
  unfold Obligations.TwinEvents
  refine ⟨fun s r hgood => exec_eq_next rfl ?_, fun s r htwinOn hpair1up hgood htwinState hfind => ⟨_, rfl, ?_⟩,
    fun s r k htwinOn hpair1up hgood htwinState hfind => ⟨_, rfl, ?_⟩, ?_, fun s lost htwinState => exec_eq_next rfl ?_,
    fun s htwinOn => exec_eq_next rfl ?_, ?_, fun s lost p htwinOn => ⟨exec_eq_next rfl ?_, exec_eq_next rfl ?_⟩,
    fun s => exec_eq_next rfl ?_⟩
  · simp [hgood]
  · simp only [State.twinState] at htwinState
    simp [State.twinState, RED.STAT.off, RED.TWIN_STAT.off, htwinOn, hpair1up, hgood, htwinState, hfind]
  · simp only [State.twinState] at htwinState
    simp [State.twinState, RED.STAT.off, RED.TWIN_STAT.off, htwinOn, hpair1up, hgood, htwinState, hfind]
  · rintro s u v t htwinOn htwinState htwinState2 rfl rfl rfl
    refine exec_eq_next rfl ?_
    simp [htwinOn, htwinState, htwinState2]
  · simp [htwinState]
  · simp [htwinOn]
  · rintro s t htwinOn rfl
    refine exec_eq_next rfl ?_
    simp [htwinOn]
  · simp [htwinOn]
  · simp [htwinOn]
  · simp

end Sys2Proof.Proofs
end

section
/-! PROOFS. What an access of the host reads: dropping the captured half of a pair changes no register. -/

namespace Sys2Proof.Machine

@[simp] theorem State.flag_uncaptured (s : State) (f : Fld) : s.uncaptured.flag f = s.flag f := rfl
@[simp] theorem State.getBit_uncaptured (s : State) (f : Fld) (i : Nat) : s.uncaptured.getBit f i = s.getBit f i := rfl
@[simp] theorem State.domOn_uncaptured (s : State) (d : Nat) : s.uncaptured.domOn d = s.domOn d := rfl
@[simp] theorem State.decikRuns_uncaptured (s : State) : s.uncaptured.decikRuns = s.decikRuns := rfl

/-- An access that the register ignores drops the captured half and does no more, whether it reaches the register or not. -/
theorem State.access_of_ignored {s : State} {f : State → State} (h : f s.uncaptured = s.uncaptured) (off : Nat) :
    s.access off f = s.uncaptured := by
  cases hreach : s.reaches off with
  | true => rw [State.access_reaches hreach, h]
  | false => exact State.access_unreached hreach f

end Sys2Proof.Machine
end

section
/-! PROOFS. TDM ports, host DMA, stale output and timed changes (R219 to R255). -/

namespace Sys2Proof.Proofs

open Sys2Proof.Machine

/-- Settles O22: each event, with and without what it waits for. -/
theorem tdmHostAndTimedAudio : Obligations.TdmHostAndTimedAudio := by
  unfold Obligations.TdmHostAndTimedAudio
  refine ⟨fun s n hreaches hen => exec_eq_next rfl ?_, fun s n hreaches hen => exec_eq_next rfl ?_,
    fun s n hen hport hplllock => exec_eq_next rfl ?_, fun s n hen => exec_eq_next rfl ?_,
    fun s n hreaches hen => exec_eq_next rfl ?_, ?_, fun s ws p hhdmaRead => exec_eq_next rfl ?_,
    fun s ws p hhdmaRead h => exec_eq_next rfl ?_, ?_,
    fun s => ⟨exec_eq_next rfl ?_, exec_eq_next rfl ?_, exec_eq_next rfl ?_⟩, fun s k => ⟨_, rfl, ?_⟩,
    fun s t due htakeDue => exec_eq_next rfl ?_⟩
  · rw [State.access_reaches hreaches]
    simp [State.tdmEnable, hen]
  · rw [State.access_reaches hreaches]
    simp [State.tdmEnable, hen]
  · simp [State.tdmStart, hen, hport, hplllock]
  · simp [State.tdmStart, hen]
  · rw [State.access_reaches hreaches]
    simp [State.tdmDisable, hen]
  · rintro s t n hreaches hen rfl
    refine exec_eq_next rfl ?_
    rw [State.access_reaches hreaches]
    simp [State.tdmDisable, hen]
  · simp [hhdmaRead]
  · simp [hhdmaRead, h, State.twinOn]
  · rintro s t u ws p hhdmaRead h rfl rfl
    refine exec_eq_next rfl ?_
    simp [hhdmaRead, Nat.not_le.mpr h, State.twinOn]
  · rfl
  · rfl
  · rfl
  · simp [staleFadeEnd, State.evtBit]
  · simp [htakeDue]

end Sys2Proof.Proofs
end

section
/-! PROOFS. Echo cancellers, notches, call paths and noise-dependent gain (R259 to R276). -/

namespace Sys2Proof.Proofs

open Sys2Proof.Machine

/-- Settles O23: each event in the state named; a notch list by its length, a noise frame by what it leaves in the zone's registers. -/
theorem echoHowlingAndNoise : Obligations.EchoHowlingAndNoise := by
  unfold Obligations.EchoHowlingAndNoise
  refine ⟨?_, fun s e hrun => exec_eq_next rfl ?_, fun s m f x hfbOf henabled hnotches hlength => exec_eq_next rfl ?_,
    fun s m f x hfbOf henabled hlength => exec_eq_next rfl ?_, fun s m f hfbOf => exec_eq_next rfl ?_,
    fun s m f d x hfbOf hnotches h => exec_eq_next rfl ?_, fun s m f hfbOf => exec_eq_next rfl ?_,
    fun s m f x hfbOf hnotches => exec_eq_next rfl ?_, fun s m f x hfbOf hnotches => exec_eq_next rfl ?_,
    fun s i hcallWait => exec_eq_next rfl ?_, fun s i hcallState => exec_eq_next rfl ?_,
    fun s i hcallState => exec_eq_next rfl ?_, ?_, fun s i hcall => exec_eq_next rfl ?_,
    fun s z l x hnf henabled => exec_eq_next rfl ?_, fun s z v x hnf henabled hframes => ⟨_, rfl, ?_⟩, ?_⟩
  · rintro s t e hrun rfl
    refine exec_eq_next rfl ?_
    simp [hrun]
  · simp [hrun]
  · simp [hfbOf, henabled, hnotches, hlength]
  · have hne : x.notches ≠ [] := List.ne_nil_of_length_pos (by omega)
    simp [hfbOf, henabled, hne, Nat.not_lt.mpr hlength]
  · simp [hfbOf]
  · simp [hfbOf, hnotches, h]
  · simp [hfbOf]
  · simp [hfbOf, hnotches]
  · simp [hfbOf, hnotches, List.filter_cons]
  · simp only [hcallWait, List.find?_nil]
    split <;> rfl
  · simp [hcallState]
  · simp [hcallState]
  · rintro s t i c r hcall hcallState rfl hringInputOf
    refine exec_eq_next rfl ?_
    simp [hcall, hcallState, hringInputOf]
  · simp [hcall]
  · simp [hnf, henabled]
  · simp [hnf, henabled, hframes, State.setZone, AUD.NF_GAIN.off]
  · rintro s t z x hnf henabled rfl
    refine exec_eq_next rfl ?_
    simp [hnf, henabled]

end Sys2Proof.Proofs
end

section
/-! PROOFS. Path monitor, STIPA, clips, voices and the recorder (R277 to R294). -/

namespace Sys2Proof.Machine

/-- What a valid window shows (R278, R279): it is counted, with its delay and relative gain, and lengthens a run of low or of high windows. -/
def State.windowShown (s : State) (z : Nat) (x : PmonSt) (g : Int) (d : Nat) : State :=
  let s := (((s.count (AUD.PMON_STAT.WINDOWS z) 1).set (AUD.PMON_STAT.AGE_H z) 0).set (AUD.PMON_GAIN.DELAY z) (min d 0xFFFF)).set
    (AUD.PMON_GAIN.REL_GAIN z) (ofSigned 16 (satSigned 16 g))
  let runs := { x with low := if g ≤ -100 then x.low + 1 else 0, high := if -70 ≤ g then x.high + 1 else 0 }
  { s with vox := { s.vox with pmon := s.vox.pmon.set z runs } }

end Sys2Proof.Machine

namespace Sys2Proof.Proofs

open Sys2Proof.Machine

/-- Settles O24: a valid window by what it shows before the verdict changes; every other event by its branch. -/
theorem pathMonitorClipsAndRecorder : Obligations.PathMonitorClipsAndRecorder := by
  unfold Obligations.PathMonitorClipsAndRecorder
  refine ⟨fun s z x hpmon => exec_eq_next rfl ?_,
    fun s z m d e x g hpmon hcommission hstipa hcontains hrel hg hlow hverdict =>
      ⟨_, s.windowShown z x g d, exec_eq_next rfl ?_, rfl, ?_, ?_, ?_⟩, ?_,
    fun s z hverdict => exec_eq_next rfl ?_, fun s r sti sg no low ti hstipa hstate => exec_eq_next rfl ?_, ?_,
    fun s r sti sg no low i ti hstipa => exec_eq_next rfl ?_, fun s id hany => exec_eq_next rfl ?_,
    fun s id hclips => exec_eq_next rfl ?_, ?_, fun s v hvoice => ⟨exec_eq_next rfl ?_, exec_eq_next rfl ?_⟩,
    fun s v x f hvoice => exec_eq_next rfl ?_, fun s ch tick a b c d hrecActive => exec_eq_next rfl ?_,
    fun s ch tick u d hrecActive htamper henc hrecNext => ⟨_, rfl, ?_⟩⟩
  · simp [hpmon]
  · have hwindows : [(m.val, d, (e : Int))].filter (fun w => s.cfg.image.pmonMics.contains (z.val, w.1)) = [(m.val, d, (e : Int))] := by
      rw [List.filter_singleton, hcontains]; rfl
    have hhigh : ¬ -70 ≤ g := by omega
    simp only [hpmon, hstipa, hwindows, hcommission, hrel]
    simp [State.windowShown, hcommission, hg, hlow, hhigh, hverdict, AUD.PMON_STAT.off, AUD.PMON_GAIN.off]
  · simp [State.windowShown, AUD.PMON_STAT.off, AUD.PMON_GAIN.off]
  · simp [State.windowShown, AUD.PMON_GAIN.off, Fld.width]
  · have hhigh : ¬ -70 ≤ g := by omega
    simp [State.windowShown, hg, hlow, hhigh]
  · rintro s t z hverdict rfl
    refine exec_eq_next rfl ?_
    simp [hverdict]
  · simp [hverdict]
  · simp [hstipa, hstate]
  · rintro s t r sti sg no low ti hstipa hstate rfl
    refine exec_eq_next rfl ?_
    simp [hstipa, hstate]
  · simp [hstipa]
  · exact if_pos hany
  · simp [hclips]
  · rintro s t v x hvoice hplaying rfl
    refine exec_eq_next rfl ?_
    simp [hvoice, hplaying]
  · simp [hvoice]
  · simp [hvoice]
  · simp [hvoice]
  · simp [hrecActive]
  · simp [hrecActive, htamper, henc, hrecNext, State.recCounts, -List.reduceReplicate]

end Sys2Proof.Proofs
end

section
/-! PROOFS. Banks, ECC errors, scrub and the checks after a sleep (R297 to R319). -/

namespace Sys2Proof.Machine

/-! ## The canary check of a wake (R314) -/

theorem State.bank_setBank_self (s : State) (b st : Nat) (h : st < 16) : (s.setBank b st).bank b = st := by
  have hok : (bankFld b).ok = true := by
    unfold bankFld
    simp
    omega
  have hw : 2 ^ (bankFld b).width = 16 := by
    rw [show (bankFld b).width = 4 by simp only [bankFld, Fld.width]; omega]
    rfl
  rw [State.bank, State.setBank, State.get_set_self s _ _ hok, hw, Nat.mod_eq_of_lt h]

theorem bankFld_apart {b c : Nat} (h : c ≠ b) : (bankFld b).apart (bankFld c) = true := by
  unfold bankFld
  simp only [Fld.apart, STORE.BANK_STAT.off, Bool.or_eq_true, bne_iff_ne, decide_eq_true_eq]
  omega

theorem State.bank_setBank_ne (s : State) {b c : Nat} (st : Nat) (h : c ≠ b) : (s.setBank b st).bank c = s.bank c :=
  State.get_set_apart s st (bankFld_apart h)

/-- What the check of one bank's canary does. -/
def State.canaryStep (n decayed : Nat) (s : State) (b : Nat) : State :=
  if s.bank b == Bank.retained then
    if s.mem.canary.contains (b, n) && !bit decayed b then s.setBank b Bank.checking
    else (s.putBit STORE.WAKE_CHK.CANARY_FAIL b true).bankLost b 0
  else s

theorem State.canaryStep_of_held {n b : Nat} {s : State} (h : s.bank b = Bank.retained → s.mem.canary.contains (b, n) = true) :
    s.canaryStep n 0 b = if s.bank b = Bank.retained then s.setBank b Bank.checking else s := by
  unfold State.canaryStep
  by_cases hb : s.bank b = Bank.retained
  · simp [hb, List.contains_iff_mem.mp (h hb), bit]
  · simp [hb]

/-- Where every RETAINED bank held its canary, the checks leave each CHECKING, and change nothing but bank states. -/
theorem State.foldl_canaryStep {n : Nat} (l : List Nat) : ∀ {s : State}, l.Nodup →
    (∀ b ∈ l, s.bank b = Bank.retained → s.mem.canary.contains (b, n) = true) →
    (∀ f : Fld, (∀ b ∈ l, (bankFld b).apart f = true) → (l.foldl (State.canaryStep n 0) s).get f = s.get f) ∧
      ∀ b, (l.foldl (State.canaryStep n 0) s).bank b = if b ∈ l ∧ s.bank b = Bank.retained then Bank.checking else s.bank b := by
  induction l with
  | nil => intro s _ _; simp
  | cons a l ih =>
    intro s hnodup hheld
    obtain ⟨ha, hl⟩ := List.nodup_cons.mp hnodup
    rw [List.foldl_cons, State.canaryStep_of_held (hheld a List.mem_cons_self)]
    by_cases hb : s.bank a = Bank.retained
    · rw [if_pos hb]
      have hother : ∀ b ∈ l, (s.setBank a Bank.checking).bank b = s.bank b := fun b hbl =>
        State.bank_setBank_ne s _ (fun e => ha (e ▸ hbl))
      obtain ⟨hget, hbank⟩ := ih (s := s.setBank a Bank.checking) hl (fun b hbl hr =>
        hheld b (List.mem_cons_of_mem a hbl) (hother b hbl ▸ hr))
      refine ⟨fun f hf => (hget f fun b hb => hf b (List.mem_cons_of_mem a hb)).trans
        (State.get_set_apart s _ (hf a List.mem_cons_self)), fun b => ?_⟩
      rw [hbank b]
      by_cases hba : b = a
      · subst hba
        simp [ha, hb, State.bank_setBank_self s _ Bank.checking (by decide)]
      · simp [hba, State.bank_setBank_ne s _ hba]
    · rw [if_neg hb]
      obtain ⟨hget, hbank⟩ := ih hl (fun b hbl => hheld b (List.mem_cons_of_mem a hbl))
      refine ⟨fun f hf => hget f fun b hb => hf b (List.mem_cons_of_mem a hb), fun b => (hbank b).trans ?_⟩
      by_cases hba : b = a
      · subst hba
        simp [hb]
      · simp [hba]

/-- The registers of a wake's checks as the canary check begins. -/
def State.checksBegun (s : State) (us : Nat) : State :=
  ((s.set STORE.WAKE_CHK.EXT_FAIL 0).set STORE.WAKE_CHK.CANARY_FAIL 0).set STORE.WAKE_TIME.CANARY_US (min us 0xFFFF)

theorem State.bank_checksBegun (s : State) (us : Nat) {b : Nat} (h : b < 16) : (s.checksBegun us).bank b = s.bank b := by
  have hapart : ∀ f : Fld, STORE.BANK_STAT.off 1 < f.off → f.apart (bankFld b) = true := by
    intro f hf
    unfold bankFld
    simp only [Fld.apart, STORE.BANK_STAT.off, Bool.or_eq_true, bne_iff_ne] at hf ⊢
    omega
  unfold State.bank State.checksBegun
  rw [State.get_set_apart _ _ (hapart _ (by decide)), State.get_set_apart _ _ (hapart _ (by decide)),
    State.get_set_apart _ _ (hapart _ (by decide))]

/-- The canary check of a wake at which every RETAINED bank held its words. -/
theorem execWakeCanaryCheck_of_held {s : State} {us : Nat} (hsome : (List.range 16).any (fun b => s.bank b == Bank.retained) = true)
    (hheld : ∀ b : Nat, b < 16 → s.bank b = Bank.retained → s.mem.canary.contains (b, s.get STORE.SLEEP_CNT.COUNT) = true) :
    ∃ t, execWakeCanaryCheck 0 us s = .next (State.wakeChecksOver t) ∧
      t.get STORE.WAKE_TIME.CANARY_US = min us 0xFFFF ∧ t.get STORE.WAKE_CHK.CANARY_FAIL = 0 ∧
      (∀ b : Nat, b < 16 → s.bank b ≠ Bank.retained → t.bank b = s.bank b) ∧
      (∀ b : Nat, b < 16 → s.bank b = Bank.retained → t.bank b = Bank.checking) := by
  obtain ⟨hget, hbank⟩ := State.foldl_canaryStep (n := s.get STORE.SLEEP_CNT.COUNT) (List.range 16) (s := s.checksBegun us) List.nodup_range
    (fun b hb hr => hheld b (List.mem_range.mp hb) (s.bank_checksBegun us (List.mem_range.mp hb) ▸ hr))
  refine ⟨_, congrArg _ (if_pos hsome), ?_, ?_, fun b hb hr => ?_, fun b hb hr => ?_⟩
  · refine (hget _ (by decide)).trans ?_
    simp [State.checksBegun, Fld.width]
  · refine (hget _ (by decide)).trans ?_
    simp [State.checksBegun, Fld.width, STORE.WAKE_CHK.off, STORE.WAKE_TIME.off]
  · refine (hbank b).trans ?_
    simp [s.bank_checksBegun us hb, hr]
  · refine (hbank b).trans ?_
    simp [s.bank_checksBegun us hb, hr, hb]

/-- The time that a check of the extents took is shown apart from the CRCs kept. -/
theorem State.get_extCrc_set_time (s : State) (x b : Nat) :
    (s.set STORE.WAKE_TIME.EXT_100US x).get (STORE.EXT_CRC.CRC b) = s.get (STORE.EXT_CRC.CRC b) := by
  refine State.get_set_apart s x ?_
  simp only [Fld.apart, STORE.WAKE_TIME.off, STORE.EXT_CRC.off, Bool.or_eq_true, bne_iff_ne]
  omega

end Sys2Proof.Machine

namespace Sys2Proof.Proofs

open Sys2Proof.Machine

/-- Settles O25: the canary check by the fold over the banks; every other event by its branch. -/
theorem storeCommands : Obligations.StoreCommands := by
  unfold Obligations.StoreCommands
  refine ⟨fun s m hreaches => exec_eq_next rfl ?_, fun s m hreaches => exec_eq_next rfl ?_,
    fun s b hbank h => exec_eq_next rfl ?_, fun s hbank => exec_eq_next rfl ?_, fun s b hbank => exec_eq_next rfl ?_, ?_,
    fun s off i syn l hbank hbankUsable => ⟨exec_eq_next rfl ?_, exec_eq_next rfl ?_⟩, fun s off h => exec_eq_next rfl ?_,
    ?_, ?_, fun s d us hrange => exec_eq_next rfl ?_, fun s us => execWakeCanaryCheck_of_held,
    fun s b time hbank => exec_eq_next rfl ?_, fun s b crc time hbank h => exec_eq_next rfl ?_,
    fun s b hbank => exec_eq_next rfl ?_, fun s b hbank => ⟨fun crc time => exec_eq_next rfl ?_, exec_eq_next rfl ?_⟩⟩
  · exact State.access_reaches hreaches _
  · exact State.access_unreached hreaches _
  · simp [hbank, h]
  · simp [hbank]
  · simp [hbank]
  · rintro s t off i syn h h2 hbankUsable rfl
    refine exec_eq_next rfl ?_
    have hoff : off % 4294967296 = off := Nat.mod_eq_of_lt h
    simp [hoff, h2, hbankUsable]
  · simp only [Nat.reducePow] at hbank hbankUsable
    simp [hbank, hbankUsable]
  · simp only [Nat.reducePow] at hbank hbankUsable
    simp [hbank, hbankUsable]
  · have hoff : off % 4294967296 = off := Nat.mod_eq_of_lt h
    simp [hoff]
  · intro s t u off h hbankUsable hdecikRuns ht hu hruns hbank
    refine exec_eq_next rfl ?_
    have hoff : off % 4294967296 = off := Nat.mod_eq_of_lt h
    simp only [hoff, hbankUsable, Bool.true_or, if_true, Nat.reducePow, ← ht]
    simp [← hu, hruns, hbank]
  · rintro s t h rfl
    refine exec_eq_next rfl ?_
    have hnone : (List.range 16).filter (fun b => decide (s.get STORE.CFG.CE_THRESH < s.mem.scrubCe.getD b 0)) = [] := by
      simpa [List.filter_eq_nil_iff] using h
    simp only [hnone]
    rfl
  · simp [hrange]
  · simp [hbank, State.get_extCrc_set_time]
  · simp [hbank, h, State.get_extCrc_set_time]
  · simp [hbank]
  · simp [hbank]
  · simp [hbank]

end Sys2Proof.Proofs
end

section
/-! PROOFS. The host's local window (R324, R334 to R336). -/

namespace Sys2Proof.Proofs

open Sys2Proof.Machine

/-- Settles O26: each access, by what the window, the map and the banks let through. -/
theorem localWindowCommands : Obligations.LocalWindowCommands := by
  unfold Obligations.LocalWindowCommands
  refine ⟨fun s tag op => exec_eq_next rfl ?_,
    fun s tag off len op bs hen => ⟨exec_eq_next rfl ?_, exec_eq_next rfl ?_, exec_eq_next rfl ?_⟩,
    fun s t tag off len bytes hen hcinchHolds hstoreRead => exec_eq_next rfl ?_,
    fun s t tag off len bytes hen hcinchHolds hstoreRead => exec_eq_next rfl ?_,
    fun s off x hen hhostWritable => exec_eq_next rfl ?_,
    fun s off x hen hhostWritable hcinchHolds hbankUsable => exec_eq_next rfl ?_,
    fun s t tag op bytes hen hwidth h hcinchHolds hstoreRead => exec_eq_next rfl ?_⟩
  · rfl
  · simp [State.localRead, hen]
  · simp [State.localWrite, hen]
  · simp [State.localAtomic, hen]
  · simp [State.localRead, hen, hcinchHolds, hstoreRead]
  · simp [State.localRead, hen, hcinchHolds, hstoreRead]
  · simp [State.localWrite, enabledRuns, hen, hhostWritable]
  · simp [State.localWrite, enabledRuns, hen, hhostWritable, hcinchHolds, hbankUsable]
  · have hall : (List.range op.width).any (fun i => !s.hostWritable (s.localOffset op.off + i)) = false := by
      simpa using h
    have hw : (op.width == 4 || op.width == 8) = true := by simpa using hwidth
    simp only [State.localAtomic, hen, hw, hall, hcinchHolds, hstoreRead]
    rfl

end Sys2Proof.Proofs
end

section
/-! PROOFS. The train windows at the requester (R337 to R355). -/

namespace Sys2Proof.Proofs

open Sys2Proof.Machine

/-- Settles O27: each access and event, by the window's state and what waits. -/
theorem trainWindowRequester : Obligations.TrainWindowRequester := by
  unfold Obligations.TrainWindowRequester
  refine ⟨fun s tag off len w op bs hen => ⟨exec_eq_next rfl ?_, exec_eq_next rfl ?_, exec_eq_next rfl ?_⟩,
    fun s tag off len w hen => exec_eq_next rfl ?_, fun s off w bs hen => exec_eq_next rfl ?_,
    fun s tag w op hen hwidth => exec_eq_next rfl ?_, fun s tag w op hwidth => exec_eq_next rfl ?_,
    fun s w hbuffers => exec_eq_next rfl ?_, ?_, fun s w hreaches hget hpos => exec_eq_next rfl ?_,
    fun s w hreaches hpos => exec_eq_next rfl ?_, fun s w hreaches => exec_eq_next rfl ?_,
    fun s w hreaches hreqs => exec_eq_next rfl ?_, fun s w q hreaches hreqs hop hwin => exec_eq_next rfl ?_,
    fun s => exec_eq_next rfl ?_, fun s w n op q hfind => exec_eq_next rfl ?_, fun s w n op hreqs => exec_eq_next rfl ?_,
    fun s a op k hatom hretry hfirst => exec_eq_next rfl ?_, fun s a op k hatom hretry hupTicks => exec_eq_next rfl ?_,
    fun s hatom => exec_eq_next rfl ?_⟩
  · simp [hen]
  · simp [hen]
  · simp [hen]
  · simp [hen]
  · simp [hen]
  · have hw : (op.width == 4 || op.width == 8) = true := by simpa using hwidth
    simp [hen, hw]
  · simp [hwidth]
  · simp [State.pfDiscard, hbuffers]
  · rintro s t w b hbuffers hwin hunread rfl
    refine exec_eq_next rfl ?_
    simp [State.pfDiscard, hbuffers, hwin, hunread]
  · rw [State.access_reaches hreaches]
    simp [State.winEnable, hget, hpos]
  · rw [State.access_reaches hreaches]
    simp [State.winEnable, hpos]
  · exact State.access_reaches hreaches _
  · rw [State.access_reaches hreaches]
    simp [hreqs]
    rfl
  · rw [State.access_reaches hreaches]
    simp [hreqs, hop, hwin]
  · simp
  · simp [hfind]
  · simp [hreqs]
  · simp [hatom, hretry, hfirst]
  · simp [hatom, hretry, Nat.not_le.mpr hupTicks]
  · simp [hatom]

end Sys2Proof.Proofs
end

section
/-! PROOFS. Requests at the bridge's target, Cinches and semaphores (R347 to R352). -/

namespace Sys2Proof.Machine

/-- What the request in front asks for is done, counted and answered, where its OP is served now and no Cinch holds its block. -/
theorem State.serveFront_of_front {s : State} {r : TgtReq} {rest : List TgtReq} {op : Nat} {f : State → TgtReq → Served} {x : Served}
    (hinbox : s.brg.inbox = r :: rest) (hop : r.op = op)
    (hfree : (op == BrgOp.read || op == BrgOp.write || op == BrgOp.readSem || op == BrgOp.writeRel) = true →
      s.cinchHolds r.off (max r.len r.data.length) = false)
    (hserved : f { s with brg := { s.brg with inbox := rest } } r = x) :
    s.serveFront op f = x.counted.state.answer r x.counted.status x.counted.data := by
  have hnot : (!(!r.regs && (op == BrgOp.read || op == BrgOp.write || op == BrgOp.readSem || op == BrgOp.writeRel) &&
      s.cinchHolds r.off (max r.len r.data.length))) = true := by
    cases hblock : (op == BrgOp.read || op == BrgOp.write || op == BrgOp.readSem || op == BrgOp.writeRel) with
    | false => simp
    | true => simp [hfree hblock]
  unfold State.serveFront
  rw [hinbox]
  dsimp only
  rw [hnot, hop, beq_self_eq_true, Bool.and_self, if_pos rfl, hserved]

theorem State.serveFront_of_empty {s : State} (op : Nat) (f : State → TgtReq → Served) (h : s.brg.inbox = []) : s.serveFront op f = s := by
  unfold State.serveFront
  rw [h]

/-- Who holds a semaphore does not depend on the requests that wait. -/
theorem State.semHeldBy_inbox (s : State) (l : List TgtReq) (r : TgtReq) :
    State.semHeldBy { s with brg := { s.brg with inbox := l } } r = s.semHeldBy r := rfl

end Sys2Proof.Machine

namespace Sys2Proof.Proofs

open Sys2Proof.Machine

/-- Settles O28: the front request is served, counted and answered; each lock by its holder. -/
theorem bridgeTarget : Obligations.BridgeTarget := by
  unfold Obligations.BridgeTarget
  refine ⟨fun s t r rest bytes hinbox hop hregs hcinchHolds htgtRead => exec_eq_next rfl ?_,
    fun s t r rest hinbox hop hregs hcinchHolds htgtWrite => exec_eq_next rfl ?_, ?_, ?_, ?_, ?_, ?_, ?_,
    fun s hinbox => ⟨exec_eq_next rfl ?_, exec_eq_next rfl ?_, exec_eq_next rfl ?_, exec_eq_next rfl ?_, exec_eq_next rfl ?_, exec_eq_next rfl ?_, exec_eq_next rfl ?_⟩,
    fun s b c hfind => exec_eq_next rfl ?_, fun s k hheld => exec_eq_next rfl ?_, fun s k hheld => exec_eq_next rfl ?_, ?_,
    fun s k hreaches hlocal => exec_eq_next rfl ?_, fun s k hreaches hlocal => exec_eq_next rfl ?_⟩
  · refine State.serveFront_of_front (x := ⟨BrgSt.ok, bytes, t⟩) hinbox hop (fun _ => hcinchHolds) ?_
    simpa [State.serveRead, hregs] using htgtRead
  · refine State.serveFront_of_front (x := ⟨BrgSt.ok, [], t⟩) hinbox hop (fun _ => hcinchHolds) ?_
    simpa [State.serveWrite, hregs] using htgtWrite
  · rintro s t r rest hinbox hop hsem hen hheld rfl
    refine exec_eq_next rfl ((State.serveFront_of_front hinbox hop (by simp) rfl).trans ?_)
    simp [State.serveSemAcq, Served.counted, hen, hheld]
  · rintro s t r rest hinbox hop hen hheld rfl
    refine exec_eq_next rfl ((State.serveFront_of_front hinbox hop (by simp) rfl).trans ?_)
    simp [State.serveSemAcq, Served.counted, hen, hheld]
  · rintro s t u r rest bytes hinbox hop hen hregs hcinchHolds hsemHeldBy rfl htgtRead
    refine exec_eq_next rfl ((State.serveFront_of_front hinbox hop (fun _ => hcinchHolds) rfl).trans ?_)
    simp [State.serveReadSem, Served.counted, hen, hregs, State.semHeldBy_inbox, hsemHeldBy, htgtRead]
  · rintro s t u r rest hinbox hop hen hregs hcinchHolds hsemHeldBy rfl htgtWrite
    refine exec_eq_next rfl ((State.serveFront_of_front hinbox hop (fun _ => hcinchHolds) rfl).trans ?_)
    simp [State.serveWriteRel, Served.counted, hen, hregs, State.semHeldBy_inbox, hsemHeldBy, htgtWrite]
  · rintro s t r rest hinbox hop hen hsemHeldBy rfl
    refine exec_eq_next rfl ((State.serveFront_of_front hinbox hop (by simp) rfl).trans ?_)
    simp [State.serveSemRel, Served.counted, hen, State.semHeldBy_inbox, hsemHeldBy]
  · rintro s t r rest hinbox hop rfl hcinchRefusal
    refine exec_eq_next rfl ?_
    simp [hinbox, hop, hcinchRefusal]
  · exact State.serveFront_of_empty _ _ hinbox
  · exact State.serveFront_of_empty _ _ hinbox
  · exact State.serveFront_of_empty _ _ hinbox
  · exact State.serveFront_of_empty _ _ hinbox
  · exact State.serveFront_of_empty _ _ hinbox
  · exact State.serveFront_of_empty _ _ hinbox
  · simp [hinbox]
  · simp [hfind]
  · simp [State.semLapse, hheld]
    rfl
  · simp [State.semLapse, hheld]
  · rintro s t k hreaches hheld rfl
    refine exec_eq_next rfl ?_
    rw [State.access_reaches hreaches]
    simp [State.semRead, hheld, BRG.SEM.off, b2n]
  · rw [State.access_reaches hreaches]
    simp [State.semRelease, hlocal]
    rfl
  · rw [State.access_reaches hreaches]
    simp [State.semRelease, hlocal]

end Sys2Proof.Proofs
end

section
/-! PROOFS. The PCIe link, MSI-X and the interrupt controller's writes (R322, R323, R626 to R631). -/

namespace Sys2Proof.Machine

/-- A word of one set bit names one source. -/
theorem namedSources_two_pow {n : Nat} (h : n < 32) : namedSources false (2 ^ n) = [n] := by
  have hbit : ∀ i, bit (2 ^ n) i = (i == n) := by
    intro i
    rw [bit_eq_testBit, Nat.testBit_two_pow, beq_eq_decide]
    exact decide_eq_decide.mpr eq_comm
  simp only [namedSources, hbit]
  rw [List.filter_beq, List.count_eq_one_of_mem List.nodup_range (List.mem_range.mpr h)]
  rfl

end Sys2Proof.Machine

namespace Sys2Proof.Proofs

open Sys2Proof.Machine

/-- Settles O29: each event at a host of the port's kind; a forced word by the sources it names. -/
theorem pcieLinkAndMsix : Obligations.PcieLinkAndMsix := by
  unfold Obligations.PcieLinkAndMsix
  refine ⟨?_, fun s v w a b hhostSpi => ⟨exec_eq_next rfl ?_, exec_eq_next rfl ?_, exec_eq_next rfl ?_⟩,
    fun s hlinkup => exec_eq_next rfl ?_, fun s hlinkup => exec_eq_next rfl ?_, ?_,
    fun s hhostSpi hisOff hawake => ⟨exec_eq_next rfl ?_, exec_eq_next rfl ?_⟩, ?_,
    fun s n hhostSpi hdomOn => exec_eq_next rfl ?_, fun s hhostSpi hdomOn => exec_eq_next rfl ?_,
    fun s hi w hreaches => exec_eq_next rfl ?_, fun s hi w hreaches => exec_eq_next rfl ?_,
    fun s hi w hreaches hmode => exec_eq_next rfl ?_, fun s n hreaches hmode h hisPend => exec_eq_next rfl ?_⟩
  · rintro s t v w hhostSpi hdomOn rfl
    refine exec_eq_next rfl ?_
    simp [hhostSpi, hdomOn]
  · simp [hhostSpi]
  · simp [hhostSpi]
  · simp [hhostSpi]
  · simp [hlinkup]
  · simp [hlinkup]
  · rintro s t hhostSpi hisOff hawake hdomOn hlinkup rfl
    refine exec_eq_next rfl ?_
    rw [if_neg (by simp [hhostSpi, hisOff]), if_pos hawake, if_neg (by simp [hdomOn])]
    simp only [hlinkup, if_true]
  · simp [hhostSpi, hisOff, hawake]
  · simp [hhostSpi, hisOff, hawake]
  · rintro s t en fm hhostSpi rfl
    refine exec_eq_next rfl ?_
    simp [State.msixControl, hhostSpi]
  · simp [State.vectorMask, hhostSpi, hdomOn]
  · simp [hhostSpi, hdomOn]
  · exact State.access_reaches hreaches _
  · exact State.access_reaches hreaches _
  · rw [State.access_reaches hreaches]
    simp [State.forceWrite, hmode]
  · rw [State.access_reaches hreaches]
    have hword : (BitVec.ofNat 32 (2 ^ n)).toNat = 2 ^ n := by
      rw [BitVec.toNat_ofNat, Nat.mod_eq_of_lt (Nat.pow_lt_pow_right (by omega) h)]
    have hpend : s.uncaptured.isPend n = false := hisPend
    rw [hword]
    simp [State.forceWrite, namedSources_two_pow h, hmode, hpend]

end Sys2Proof.Proofs
end

section
/-! PROOFS. Mailbox rings, doorbells and what Decik does in time (R356 to R371). -/

namespace Sys2Proof.Machine

/-! ## What the mailbox sees of an access -/

@[simp] theorem State.hostCh_uncaptured (s : State) : s.uncaptured.hostCh = s.hostCh := rfl
@[simp] theorem State.chWritable_uncaptured (s : State) (ch : Nat) : s.uncaptured.chWritable ch = s.chWritable ch := rfl
@[simp] theorem State.rspFill_uncaptured (s : State) (ch : Nat) : s.uncaptured.rspFill ch = s.rspFill ch := rfl
@[simp] theorem State.canTake_uncaptured (s : State) (ch : Nat) : s.uncaptured.canTake ch = s.canTake ch := rfl

/-- The index registers of another channel than the host's take no write. -/
theorem State.chWritable_of_other {s : State} {ch : Nat} (h : ch ≠ s.hostCh) : s.chWritable ch = false := by
  simp [State.chWritable, h]

/-! ## Taking requests (R359, R364) -/

theorem State.canTake_of_stopped {s : State} (h : s.decikRuns = false) (ch : Nat) : s.canTake ch = false := by
  simp [State.canTake, h]

theorem State.lookAt_of_cannot {s : State} {ch : Fin 4} (h : s.canTake ch = false) (n : Nat) : s.lookAt ch n = s := by
  cases n with
  | zero => rfl
  | succ n => simp [State.lookAt, h]

/-- A channel with one request that may be taken: Decik takes it, and TAIL advances. -/
theorem State.lookAt_one {s t u v : State} {ch : Fin 4} {c : Nat} {b : List Nat} {e : Bool} (hc : ch.val = c) (h : s.canTake c = true)
    (hread : s.storeRead (s.reqEntry c (s.get (MBX.CH_REQ_TAIL.TAIL c))) 4096 = (b, e, t))
    (hu : u = t.set (MBX.CH_REQ_TAIL.TAIL c) ((s.get (MBX.CH_REQ_TAIL.TAIL c) + 1) % 128))
    (hv : u.serveAny (fieldOf b 0 2) (u.parseRequest ch (s.get (MBX.CH_REQ_TAIL.TAIL c)) b) = v) (hdone : v.canTake ch = false) (n : Nat) :
    s.lookAt ch (n + 1) = v := by
  subst hc
  simp only [State.lookAt, h, hread, ← hu, hv, Bool.not_true, if_false, Bool.false_eq_true]
  exact State.lookAt_of_cannot hdone n

end Sys2Proof.Machine

namespace Sys2Proof.Proofs

open Sys2Proof.Machine

/-- Settles O31: each access by whose channel it is; a poll by the one request it takes; each lapse by its branch. -/
theorem mailboxRings : Obligations.MailboxRings := by
  unfold Obligations.MailboxRings
  refine ⟨fun s ch h hreaches hchWritable hfill => exec_eq_next rfl ?_, fun s ch h hreaches hchWritable hfill => exec_eq_next rfl ?_,
    fun s ch h hval => ⟨exec_eq_next rfl ?_, exec_eq_next rfl ?_, exec_eq_next rfl ?_, exec_eq_next rfl ?_⟩,
    fun s ch t hreaches hchWritable hfill => exec_eq_next rfl ?_, ?_, fun s ch hreaches hval hdecikRuns => exec_eq_next rfl ?_,
    fun s ch hdecikRuns => ⟨exec_eq_next rfl ?_, exec_eq_next rfl ?_⟩,
    fun s ch hreaches hchWritable => exec_eq_next rfl ?_, ?_,
    fun s ch tag p u t d i m re r hopens hch htag hpend => exec_eq_next rfl ?_,
    fun s ch tag p u t d i m first r hopens hch htag hpend => exec_eq_next rfl ?_,
    fun s ch tag hopens => ⟨exec_eq_next rfl ?_, exec_eq_next rfl ?_, exec_eq_next rfl ?_⟩,
    fun s ch tag p f g a b r hdecikRuns hopens hch htag hpend => exec_eq_next rfl ?_, fun s => exec_eq_next rfl ?_,
    fun s => exec_eq_next rfl ?_, fun s => exec_eq_next rfl ?_, fun s => exec_eq_next rfl ?_⟩
  · rw [State.access_reaches hreaches]
    simp [State.reqHeadWrite, hchWritable, Nat.not_lt.mpr hfill]
  · rw [State.access_reaches hreaches]
    simp [State.reqHeadWrite, hchWritable, hfill]
  · exact State.access_of_ignored (by simp [State.reqHeadWrite, State.chWritable_of_other hval]) _
  · exact State.access_of_ignored (by simp [State.rspTailWrite, State.chWritable_of_other hval]) _
  · exact State.access_of_ignored (by simp [State.chWritable_of_other hval]) _
  · exact State.access_of_ignored (by simp [State.chResetWrite, hval]) _
  · rw [State.access_reaches hreaches]
    simp [State.rspTailWrite, hchWritable, Nat.not_lt.mpr hfill]
  · rintro s t ch hreaches hval hdecikRuns rfl
    refine exec_eq_next rfl ?_
    rw [State.access_reaches hreaches]
    simp [State.chResetWrite, State.chReset, hval, hdecikRuns]
  · rw [State.access_reaches hreaches]
    simp [State.chResetWrite, hval, hdecikRuns]
  · simp [State.lookAt_of_cannot, State.canTake_of_stopped hdecikRuns]
  · exact State.access_of_ignored (by simp [State.lookAt_of_cannot, State.canTake_of_stopped hdecikRuns]) _
  · rw [State.access_reaches hreaches]
    simp [hchWritable]
  · intro s t u b e htake _ _ _ hread hu hdone
    generalize hv : u.serveAny (fieldOf b 0 2) (u.parseRequest 0 (s.get (MBX.CH_REQ_TAIL.TAIL 0)) b) = v at hdone ⊢
    refine exec_eq_next rfl ?_
    rw [State.lookAt_one (ch := 0) rfl htake hread hu hv (hdone 0) 63, State.lookAt_of_cannot (hdone 1),
      State.lookAt_of_cannot (hdone 2), State.lookAt_of_cannot (hdone 3)]
  · simp [State.opensOf, hopens, hch, htag, hpend]
  · simp [State.opensOf, hopens, hch, htag, hpend]
  · simp [State.opensOf, hopens]
  · simp [State.opensOf, hopens]
  · simp [State.opensOf, hopens]
  · simp [State.opensOf, State.complete, hdecikRuns, hopens, hch, htag, hpend]
  · rfl
  · rfl
  · rfl
  · rfl

end Sys2Proof.Proofs
end

section
/-! PROOFS. Unit states and the configuration's timed steps (R372 to R395). -/

namespace Sys2Proof.Proofs

open Sys2Proof.Machine

/-- Settles O32: each limit and divergence, by the unit's state; each due change, by what is held. -/
theorem unitsAndConfiguration : Obligations.UnitsAndConfiguration := by
  unfold Obligations.UnitsAndConfiguration
  refine ⟨fun s id hdecikRuns h _ hunitLook2 hunit hunit2 => exec_eq_next rfl ?_, fun s id h => exec_eq_next rfl ?_,
    fun s id hdecikRuns h hunitLook hunit hunit2 => exec_eq_next rfl ?_,
    fun s id hdecikRuns h hunitLook hunit hunit2 => exec_eq_next rfl ?_,
    fun s id hunitLook hunit => ⟨exec_eq_next rfl ?_, exec_eq_next rfl ?_⟩, ?_,
    fun s id hdecikRuns h hunitLook hunit hunitApart => exec_eq_next rfl ?_,
    fun s id hdecikRuns h hunitLook hunit hunitApart => exec_eq_next rfl ?_,
    fun s t x r k htakeDue hslotIn => exec_eq_next rfl ?_,
    fun s n hconfirmAt hdecikRuns htrial hrollTo h htickSeq => exec_eq_next rfl ?_,
    fun s t x r k auto htakeDue hrollTo hslotIn => exec_eq_next rfl ?_,
    fun s htimed hconfirmAt => ⟨exec_eq_next rfl ?_, exec_eq_next rfl ?_, exec_eq_next rfl ?_⟩⟩
  · simp [State.unitStep, hdecikRuns, h, hunitLook2, hunit, hunit2]
  · simp [h]
  · simp [hdecikRuns, h, hunitLook, hunit, hunit2]
  · simp [hdecikRuns, h, hunitLook, hunit, hunit2]
  · simp [hunitLook, hunit]
  · simp [hunitLook, hunit]
  · rintro s t id hdecikRuns h hunitLook hunit hunitApart hunit2 rfl
    refine exec_eq_next rfl ?_
    simp [hdecikRuns, h, hunitLook, hunit, hunitApart, hunit2]
  · simp [hdecikRuns, h, hunitLook, hunit, hunitApart]
  · simp [hdecikRuns, h, hunitLook, hunit, hunitApart]
  · simp [htakeDue, hslotIn]
  · simp [hconfirmAt, hdecikRuns, htrial, hrollTo, h, htickSeq]
  · simp [htakeDue, hrollTo, hslotIn]
  · simp [State.takeDue, htimed]
  · simp [State.takeDue, htimed]
  · simp [hconfirmAt]

end Sys2Proof.Proofs
end

section
/-! PROOFS. The SPI host port and the I2C management target (R320 to R333). -/

namespace Sys2Proof.Machine

/-! ## Write frames (R325 to R328) -/

theorem State.spiWrite_of_down {s : State} (h : s.spiUp = false) (a step : Nat) (ws : List Word) : s.spiWrite a step ws = .next s := by
  simp [State.spiWrite, h]

theorem State.spiWrite_of_taken {s t : State} {a step : Nat} {ws : List Word} (h : s.spiUp = true) (hw : s.spiWrites a step [] ws = some t) :
    s.spiWrite a step ws = .next t := by
  simp [State.spiWrite, h, hw]

/-- A word to an address outside BAR0 and the window is refused with its status. -/
theorem State.spiWriteOne_of_unmapped (s : State) {a : Nat} (h : 0x40000 ≤ a) (hwin : spiWindow a = false) (w : Word) :
    s.spiWriteOne a w = some (Spi.unmapped, s) := by
  simp [State.spiWriteOne, Nat.not_lt.mpr h, hwin]

/-- A word to a register that sets no reserved bit is written. -/
theorem State.spiWriteOne_of_register (s : State) {a : Nat} {w : Word} (h : a < 0x40000) (halign : a % 4 = 0) (hres : reservedHit a w = false) :
    s.spiWriteOne a w = some (Spi.ok, s.hostWrite a w) := by
  simp [State.spiWriteOne, h, halign, hres]

/-- A word that is ready is driven after its wait bytes and the status, most significant byte first. -/
theorem State.spiReadOne_of_ready {s t : State} {a n x : Nat} (hn : n ≤ 64) (h : s.spiWord a = (Spi.ok, x, t)) :
    s.spiReadOne a n = (List.replicate n 0 ++ [0xA0] ++ (leBytes 4 x).reverse, t) := by
  simp [State.spiReadOne, h, Nat.not_lt.mpr hn]

end Sys2Proof.Machine

namespace Sys2Proof.Proofs

open Sys2Proof.Machine

/-- Settles O33: each frame, by the port's state and its words; each I2C transaction, by its code and what is unanswered. -/
theorem spiAndI2cHost : Obligations.SpiAndI2cHost := by
  unfold Obligations.SpiAndI2cHost
  refine ⟨fun s a ws xs c hspiUp => ⟨exec_eq_next rfl ?_, exec_eq_next rfl ?_, State.spiWrite_of_down hspiUp a 4 xs,
      State.spiWrite_of_down hspiUp a 0 xs, exec_eq_next rfl ?_, exec_eq_next rfl ?_⟩,
    fun s t a n x hspiUp ha hn hspiWord => ⟨exec_eq_next rfl ?_, exec_eq_next rfl ?_⟩,
    fun s a w hspiUp hlow ha hwin => ⟨State.spiWrite_of_taken hspiUp ?_, State.spiWrite_of_taken hspiUp ?_⟩,
    fun s a w hspiUp ha halign hres => State.spiWrite_of_taken hspiUp ?_, fun s c hspiUp h h2 h3 h4 => exec_eq_next rfl ?_,
    fun s hspiUp => exec_eq_next rfl ?_, fun s bs hi2cUp hi2cBusy => exec_eq_next rfl ?_,
    fun s lo hi hi2cUp hi2cBusy => exec_eq_next rfl ?_, fun s lo hi x hi2cUp hi2cBusy h => exec_eq_next rfl ?_,
    fun s n hi2cUp hrspFill => exec_eq_next rfl ?_, fun s hisOff hpwrState hwakeEnabled => exec_eq_next rfl ?_,
    fun s hisOff => exec_eq_next rfl ?_⟩
  · simp [State.spiRead, hspiUp]
  · simp [State.spiRead, hspiUp]
  · simp [hspiUp]
  · simp [hspiUp]
  · have hmod : a % 4294967296 = a := Nat.mod_eq_of_lt ha
    simp [State.spiRead, hspiUp, hmod, State.spiReadOne_of_ready hn hspiWord]
  · have hmod : a % 4294967296 = a := Nat.mod_eq_of_lt ha
    simp [State.spiRead, hspiUp, hmod, State.spiReadOne_of_ready hn hspiWord]
  · simp [State.spiWrites, s.spiWriteOne_of_unmapped hlow hwin]
  · have hmod : a % 4294967296 = a := Nat.mod_eq_of_lt ha
    simp [State.spiWrites, s.spiWriteOne_of_unmapped hlow hwin, hmod]
  · simp [State.spiWrites, s.spiWriteOne_of_register ha halign hres]
  · simp [Fin.ext_iff] at h h2 h3 h4
    simp [hspiUp, h, h2, h3, h4]
  · simp [hspiUp]
  · simp [hi2cUp, hi2cBusy]
  · simp [hi2cUp, hi2cBusy]
  · simp [hi2cUp, hi2cBusy, h.symm]
  · simp [hi2cUp, hrspFill]
  · have hdown : s.i2cUp = false := by simp [State.i2cUp, State.awake, hpwrState]
    simp [hisOff, hdown, hpwrState, hwakeEnabled]
  · simp [hisOff]

end Sys2Proof.Proofs
end

section
/-! PROOFS. Standby entry, wake steps and their failures (R504 to R516). -/

namespace Sys2Proof.Proofs

open Sys2Proof.Machine

/-- Settles O35: each event, by the power state and the step. -/
theorem powerStateCommands : Obligations.PowerStateCommands := by
  unfold Obligations.PowerStateCommands
  refine ⟨fun s hawake htarget => exec_eq_next rfl ?_, fun s hawake => exec_eq_next rfl ?_,
    fun s hpwrState hrails => exec_eq_next rfl ?_, fun s hpwrState => exec_eq_next rfl ?_, ?_,
    fun s hpwrState => exec_eq_next rfl ?_, fun s k d => exec_eq_next rfl ?_, fun s hpwrState => exec_eq_next rfl ?_,
    fun s f hpwrState => exec_eq_next rfl ?_, fun s halmen => exec_eq_next rfl ?_, fun s halmen => exec_eq_next rfl ?_,
    fun s hi hreaches => exec_eq_next rfl ?_, fun s hstepping hstep => exec_eq_next rfl ?_, ?_,
    fun s hstepping hstep => exec_eq_next rfl ?_, fun s f hstepping => ⟨exec_eq_next rfl ?_, exec_eq_next rfl ?_⟩, ?_,
    fun s hwaiting => exec_eq_next rfl ?_, fun s hwaiting => exec_eq_next rfl ?_,
    fun s hpwrState hfailHold hlatched => exec_eq_next rfl ?_, fun s hfailHold => exec_eq_next rfl ?_, ?_⟩
  · simp [hawake, htarget]
  · simp [hawake]
  · simp [hpwrState, hrails]
  · simp [hpwrState]
  · rintro s t hpwrState htarget rfl
    refine exec_eq_next rfl ?_
    simp [hpwrState, htarget]
  · simp [hpwrState]
  · simp
  · simp [hpwrState]
  · simp [hpwrState]
  · simp [halmen]
  · simp [halmen]
  · exact State.access_reaches hreaches _
  · simp [hstepping, hstep]
  · rintro s t hstepping hstep rfl
    refine exec_eq_next rfl ?_
    simp [hstepping, hstep]
  · simp [hstepping, hstep]
  · simp [hstepping]
  · simp [hstepping]
  · intro s t f hstepping hattempt hattempt2 ht
    refine exec_eq_next rfl ?_
    have hlast : decide (s.get PWR.WAKE_CTRL.RETRIES < s.pwr.attempt) = false := decide_eq_false (Nat.not_lt.mpr hattempt2)
    simp only [hstepping, hlast, decide_eq_false hattempt, Bool.not_true, Bool.or_self, if_false, Bool.false_eq_true]
    generalize ((s.safeState.set PWR.AO_FAULT.CAUSE (s.failCause f)).set PWR.AO_FAULT.STEP s.pwr.step).set PWR.AO_FAULT.ATTEMPTS
      s.pwr.attempt = v at ht ⊢
    subst ht
    rw [State.setFlag_rtc, State.set_pwr]
  · simp [hwaiting]
  · simp [hwaiting]
  · simp [hpwrState, hfailHold, hlatched]
  · simp [hfailHold]
  · rintro s t rfl hpwrState
    refine exec_eq_next rfl ?_
    simp [hpwrState]

end Sys2Proof.Proofs
end

section
/-! PROOFS. Amplifier rails, the operating point, votes and residency (R497 to R517). -/

namespace Sys2Proof.Machine

theorem State.lt_of_mem_railsAt {s : State} {rails step r : Nat} (h : r ∈ s.railsAt rails step) : r < 8 :=
  List.mem_range.mp (List.mem_of_mem_filter h)

/-- Where every rail shows power good, the end of a step shows it of each rail of the step. -/
theorem State.railsGood_of_all (s : State) (rails step : Nat) :
    (s.railsAt rails step).foldl (fun (u : State) (r : Nat) => if bit 255 r then u.putBit PWR.RAIL_STAT.PG r true
      else (u.putBit PWR.RAIL_STAT.EN r false).putBit PWR.RAIL_STAT.FAULT r true) s =
    (s.railsAt rails step).foldl (fun (u : State) (r : Nat) => u.putBit PWR.RAIL_STAT.PG r true) s := by
  refine List.foldl_ext _ _ s fun u r hr => if_pos ?_
  have hlt := State.lt_of_mem_railsAt hr
  interval_cases r <;> rfl

end Sys2Proof.Machine

namespace Sys2Proof.Proofs

open Sys2Proof.Machine

/-- Settles O36: each event, by the rail sequence and the points; with power good on every rail the step shows it of each. -/
theorem railsPerformanceAndResidency : Obligations.RailsPerformanceAndResidency := by
  unfold Obligations.RailsPerformanceAndResidency
  refine ⟨fun s q rest hrails hmoved => exec_eq_next rfl ?_, ?_,
    fun s pg hrails => ⟨exec_eq_next rfl ?_, exec_eq_next rfl ?_⟩, ?_, ?_, fun s r hen => exec_eq_next rfl ?_,
    fun s v hreaches hval hval2 hfreqpt => exec_eq_next rfl ?_,
    fun s f hreaches hval hvoltpt hvoltready => exec_eq_next rfl ?_, fun s f hreaches hval hvoltpt => exec_eq_next rfl ?_,
    fun s => exec_eq_next rfl ?_, ?_, fun s hfreqNext => exec_eq_next rfl ?_,
    fun s v hreaches _ t ht hactive => exec_eq_next rfl ?_, fun s hmode hpwrState => exec_eq_next rfl ?_,
    fun s hmode hpwrState => exec_eq_next rfl ?_, fun s hmode => exec_eq_next rfl ?_⟩
  · simp [hrails, hmoved]
  · rintro s t q rest hrails hmoved hup rfl
    refine exec_eq_next rfl ?_
    simp [hrails, hmoved, hup]
  · simp [hrails]
  · simp [hrails]
  · rintro s t q rest hrails hmoved rfl
    refine exec_eq_next rfl ?_
    simp [hrails, hmoved, State.railsGood_of_all]
  · rintro s t r hen hrailMoving rfl
    refine exec_eq_next rfl ?_
    simp [hen, hrailMoving]
  · simp [hen]
  · rw [State.access_reaches hreaches]
    have hvolt : v.val < 3 := v.isLt
    simp [State.perfWrite, hval, Nat.not_lt.mpr hval2, Nat.not_le.mpr hfreqpt, Nat.not_le.mpr hvolt]
  · rw [State.access_reaches hreaches]
    have hlow : ¬ 3 ≤ s.get PWR.PERF.VOLT_PT := by omega
    simp [State.perfWrite, hval, Nat.not_lt.mpr hvoltpt, hlow, hvoltready, Nat.not_le.mpr f.isLt]
  · rw [State.access_reaches hreaches]
    simp [State.perfWrite, hval, hvoltpt, Nat.not_le.mpr f.isLt]
  · simp
  · rintro s t hfreqNext rfl
    refine exec_eq_next rfl ?_
    simp [State.freqApply, hfreqNext]
  · simp [State.freqApply, hfreqNext]
  · rw [State.access_reaches hreaches]
    subst ht
    simp [State.hostVote, hactive]
  · simp [hmode, hpwrState]
  · simp [hmode, hpwrState]
  · simp [hmode]

end Sys2Proof.Proofs
end

section
/-! PROOFS. Resets, the supplies, PDW and Decik's stops (R518 to R543). -/

namespace Sys2Proof.Proofs

open Sys2Proof.Machine

/-- Settles O37: each event, by what the node waits for. -/
theorem resetCommands : Obligations.ResetCommands := by
  unfold Obligations.ResetCommands
  refine ⟨?_, ?_, ?_, fun s b hisOff => ⟨exec_eq_next rfl ?_, exec_eq_next rfl ?_⟩,
    fun s b hisOff hawake => exec_eq_next rfl ?_, fun s hresetWait => exec_eq_next rfl ?_,
    fun s b hisOff => exec_eq_next rfl ?_, fun s hresetWait => exec_eq_next rfl ?_,
    fun s hresetWait => ⟨exec_eq_next rfl ?_, exec_eq_next rfl ?_⟩, fun s hvaoOnly hpdw => exec_eq_next rfl ?_,
    fun s hpdw => exec_eq_next rfl ?_, fun s hpdw hresetWait => exec_eq_next rfl ?_, fun s hpdw => exec_eq_next rfl ?_,
    fun s => ⟨exec_eq_next rfl ?_, exec_eq_next rfl ?_, exec_eq_next rfl ?_⟩, ?_, ?_⟩
  · rintro s t x rfl hhostSpi
    refine exec_eq_next rfl ?_
    simp [hhostSpi]
  · rintro s t x rfl hhostSpi
    refine exec_eq_next rfl ?_
    simp [hhostSpi]
  · rintro s t rfl
    refine exec_eq_next rfl ?_
    simp
  · simp [hisOff]
  · simp [hisOff]
  · simp [hisOff, hawake]
  · simp [hresetWait]
  · simp [hisOff]
  · simp [hresetWait]
  · simp [hresetWait]
  · simp [hresetWait]
  · simp [hvaoOnly, hpdw]
  · simp [hpdw]
  · simp [hpdw, hresetWait]
  · simp [hpdw]
  · simp
  · simp
  · simp
  · rintro s t k hreaches rfl hbootIn
    refine exec_eq_next rfl ?_
    rw [State.access_reaches hreaches]
    simp [State.bootCtrl, hbootIn]
  · rintro s t k hreaches rfl hbootIn
    refine exec_eq_next rfl ?_
    rw [State.access_reaches hreaches]
    simp [State.bootCtrl, hbootIn]

end Sys2Proof.Proofs
end

section
/-! PROOFS. Key loads, tamper, discrete inputs and the self-tests (R564 to R616). -/

namespace Sys2Proof.Proofs

open Sys2Proof.Machine

/-- Settles O39: each event, by the latch, the detector or the input's state. -/
theorem keysTamperInputsAndSelfTests : Obligations.KeysTamperInputsAndSelfTests := by
  unfold Obligations.KeysTamperInputsAndSelfTests
  refine ⟨fun s k e p hdecikRuns => exec_eq_next rfl ?_, fun s k e p hdecikRuns hdomOn htamper => exec_eq_next rfl ?_,
    fun s k e g hdecikRuns hdomOn htamper hslot hslot2 hunwraps h => exec_eq_next rfl ?_,
    fun s hen0 => exec_eq_next rfl ?_, ?_, fun s c => exec_eq_next rfl ?_, ?_, fun s i v h => exec_eq_next rfl ?_, ?_,
    fun s i hfrozen => exec_eq_next rfl ?_, fun s i hvalue hstucks hstuck => exec_eq_next rfl ?_,
    fun s i hstuck => exec_eq_next rfl ?_, fun s t p hreaches hmode hen hmode2 => exec_eq_next rfl ?_,
    fun s p hreaches hmode hmode2 => exec_eq_next rfl ?_, fun s n first => exec_eq_next rfl ?_⟩
  · simp [hdecikRuns]
  · simp [State.keyLoad, hdecikRuns, hdomOn, htamper]
  · simp [State.keyLoad, hdecikRuns, hdomOn, htamper, hslot, hslot2, hunwraps, h]
  · simp [State.tamperArmed, hen0]
  · intro s t u v w c harmed ht hu hv hw hruns hstart
    refine exec_eq_next rfl ?_
    simp only [harmed, Bool.not_true, Bool.false_eq_true, if_false, ← ht, ← hu, ← hv, ← hw, hruns]
    simp [hstart]
  · simp
  · rintro s t i v hdiSampled h rfl hfrozen
    refine exec_eq_next rfl ?_
    simp [State.getBit] at hfrozen
    simp [State.getBit, hdiSampled, h, hfrozen]
  · simp [h]
  · rintro s t i hchanges hfrozen rfl
    refine exec_eq_next rfl ?_
    simp only [State.getBit] at hfrozen
    simp only [hchanges]
    simp [State.getBit, hfrozen]
  · simp only [State.getBit] at hfrozen
    simp [State.getBit, hfrozen]
  · simp [hvalue, hstucks, hstuck]
  · simp [hstuck]
  · rw [State.access_reaches hreaches]
    simp only [State.mode] at hmode
    simp [State.elaneWrite, State.mode, hmode, hen, hmode2]
  · rw [State.access_reaches hreaches]
    simp only [State.mode] at hmode
    simp [State.elaneWrite, State.mode, hmode, hmode2]
  · simp

end Sys2Proof.Proofs
end

section
/-! PROOFS. Ethernet links, frames, gates, pauses and streams (R420 to R466). -/

namespace Sys2Proof.Proofs

open Sys2Proof.Machine

/-- Settles O40: each event, by the port's state. -/
theorem ethernetPortCommands : Obligations.EthernetPortCommands := by
  unfold Obligations.EthernetPortCommands
  refine ⟨fun s p hethRuns => ⟨exec_eq_next rfl ?_, exec_eq_next rfl ?_⟩, fun s p b hethRuns => exec_eq_next rfl ?_,
    fun s p => exec_eq_next rfl ?_, fun s p f hethUp => exec_eq_next rfl ?_, fun s p f i hethUp h => exec_eq_next rfl ?_,
    fun s p f hethUp h hbufFull => exec_eq_next rfl ?_, fun s p f hethUp h hbufFull => exec_eq_next rfl ?_,
    fun s p ph hpaused => exec_eq_next rfl ?_, ?_, fun s p hpaused => exec_eq_next rfl ?_,
    fun s p hpaused => exec_eq_next rfl ?_, fun s p hdomOn hentry => exec_eq_next rfl ?_,
    fun s p hethPort => exec_eq_next rfl ?_, fun s p wr hreaches => exec_eq_next rfl ?_,
    fun s p b k hlevel hpralineSlot hpwrState hcount => exec_eq_next rfl ?_,
    fun s p b ok hpralineSlot => exec_eq_next rfl ?_, fun s n harriving => exec_eq_next rfl ?_,
    fun s n harriving => exec_eq_next rfl ?_, fun s n hstream => exec_eq_next rfl ?_⟩
  · simp [hethRuns]
  · simp [hethRuns]
  · simp [hethRuns]
  · simp
  · simp [hethUp]
  · simp [hethUp, h]
  · simp [hethUp, h, hbufFull]
  · simp [hethUp, h, hbufFull]
  · simp [hpaused]
  · intro s t p ph q f hethUp hpaused ht htxPick
    refine exec_eq_next rfl ?_
    simp only [hethUp, hpaused, Bool.not_true, Bool.or_self, Bool.false_eq_true, if_false, ← ht, htxPick]
  · simp [hpaused]
  · simp [hpaused]
  · simp [hdomOn, hentry]
  · simp [hethPort]
  · exact State.access_reaches hreaches _
  · simp [hlevel, hpralineSlot, hcount]
  · simp [hpralineSlot]
  · simp [harriving]
  · simp [harriving]
  · simp [hstream]

end Sys2Proof.Proofs
end

section
/-! PROOFS. PTP intervals, network sleep and the wake trainline (R443 to R562). -/

namespace Sys2Proof.Proofs

open Sys2Proof.Machine

/-- Settles O41: each event, by the port's or the network's state. -/
theorem ptpAndSleepCommands : Obligations.PtpAndSleepCommands := by
  unfold Obligations.PtpAndSleepCommands
  refine ⟨?_, ?_, fun s p w hethUp => exec_eq_next rfl ?_, ?_, fun s p hptpState => exec_eq_next rfl ?_, ?_,
    fun s hisMaster => ⟨exec_eq_next rfl ?_, exec_eq_next rfl ?_, exec_eq_next rfl ?_⟩,
    fun s k p hisMaster hproposed hannounced hfind => exec_eq_next rfl ?_,
    fun s k hagreed hawake hdecikRuns => exec_eq_next rfl ?_, fun s hagreed => exec_eq_next rfl ?_, ?_,
    fun s hwakeIn => exec_eq_next rfl ?_, fun s hwakeIn hstuck => exec_eq_next rfl ?_, ?_,
    fun s hstuck => exec_eq_next rfl ?_, fun s => exec_eq_next rfl ?_, ?_, ?_,
    fun s hnetState => ⟨exec_eq_next rfl ?_, exec_eq_next rfl ?_⟩,
    fun s hnetState hmode hawake hdecikRuns hhold => exec_eq_next rfl ?_⟩
  · rintro s t p hdecikRuns hethUp hptpState rfl
    refine exec_eq_next rfl ?_
    simp [hdecikRuns, hethUp, hptpState]
  · rintro s t w hreaches rfl
    refine exec_eq_next rfl ?_
    exact State.access_reaches hreaches _
  · simp [hethUp]
  · rintro s t u p hdecikRuns hethPort hptpState rfl rfl hptpState2
    refine exec_eq_next rfl ?_
    simp [hdecikRuns, hethPort, hptpState, hptpState2]
  · simp [hptpState]
  · rintro s t l hisMaster hdecikRuns hawake hlayout hproposed hagreed hholders hhold rfl
    refine exec_eq_next rfl ?_
    simp [hisMaster, hdecikRuns, hawake, hlayout, hproposed, hagreed, hholders, hhold]
  · simp [hisMaster]
  · simp [hisMaster]
  · simp [hisMaster]
  · simp [hisMaster, hproposed, hannounced, hfind]
  · simp [hagreed, hawake, hdecikRuns]
  · simp [hagreed]
  · rintro s t hwakeIn hstuck rfl
    refine exec_eq_next rfl ?_
    simp [hwakeIn, hstuck]
  · simp [hwakeIn]
  · simp [hwakeIn, hstuck]
  · rintro s t hwakeIn hstuck rfl
    refine exec_eq_next rfl ?_
    simp [hwakeIn, hstuck]
  · simp [hstuck]
  · simp
  · rintro s t p hisMaster hdecikRuns hholders rfl
    refine exec_eq_next rfl ?_
    simp [hisMaster, hdecikRuns, hholders]
  · rintro s t u hnetState hmode rfl rfl
    refine exec_eq_next rfl ?_
    simp [hnetState, hmode]
  · simp [hnetState]
  · simp [hnetState]
  · simp [hnetState, hmode, hawake, hdecikRuns, hhold]

end Sys2Proof.Proofs
end

section
/-! PROOFS. Stack links, member records, ring images and time markers (R479 to R496). -/

namespace Sys2Proof.Machine

/-- A state whose next cell sequence number is put back as it was. -/
theorem State.cseq_restored (s : State) : { s with ring := { s.ring with cseq := s.ring.cseq } } = s := rfl

end Sys2Proof.Machine

namespace Sys2Proof.Proofs

open Sys2Proof.Machine

/-- Settles O43: each event, by the node's part in the stack. -/
theorem stackCommands : Obligations.StackCommands := by
  unfold Obligations.StackCommands
  refine ⟨?_, fun s k c m hstackLink => exec_eq_next rfl ?_, ?_, fun s r hphaseNs => exec_eq_next rfl ?_, ?_,
    fun s k hmember => exec_eq_next rfl ?_, ?_, ?_,
    fun s r n o h hisMember => ⟨exec_eq_next rfl ?_, exec_eq_next rfl ?_, exec_eq_next rfl ?_⟩,
    fun s hisMember hringTable => exec_eq_next rfl ?_, ?_⟩
  · rintro s t k hstackPorts hstackLink hstackLink2 hisMember h rfl hisMember2
    refine exec_eq_next rfl ?_
    simp [hstackPorts, hstackLink, hstackLink2, hisMember, h, hisMember2]
  · simp [hstackLink]
  · intro s t r hisHead hadmitted hgood hphaseNs htick hcells ht
    refine exec_eq_next rfl ?_
    rw [if_neg (by simp [hisHead, hadmitted, hgood, hphaseNs, htick]), ← ht, hcells, List.length_nil, Nat.mul_zero, Nat.add_zero]
    dsimp only
    exact State.cseq_restored _
  · simp [hphaseNs]
  · rintro s t k hisHead hadmitted rfl
    refine exec_eq_next rfl ?_
    simp [hisHead, hadmitted]
  · simp [hmember]
  · rintro s t k hisHead hadmitted hmember hmember2 rfl
    refine exec_eq_next rfl ?_
    simp [hisHead, hadmitted, hmember, hmember2]
  · rintro s t r hisMember himage hsleep haudioOk hphaseNs rfl
    refine exec_eq_next rfl ?_
    simp [hisMember, himage, hsleep, haudioOk, hphaseNs]
  · simp [hisMember]
  · simp [hisMember]
  · simp [hisMember]
  · simp [hisMember, hringTable]
  · intro s t u o hisMember h h2 htimeRun hinSync ht hu hinSync2
    refine exec_eq_next rfl ?_
    have hrun : min (s.stk.timeRun + 1) 48 = s.stk.timeRun + 1 := by omega
    have hlock : ¬ 48 ≤ s.stk.timeRun + 1 := by omega
    subst ht
    have hu' := hu
    simp at hu'
    simp [hisMember, h, h2, hrun, Nat.not_le.mpr htimeRun, ← hu', hinSync2]

end Sys2Proof.Proofs
end

section
/-! PROOFS. The event recorder (R588 to R600). -/

namespace Sys2Proof.Proofs

open Sys2Proof.Machine

/-- Settles O44: a posted record, by its code's count in the second; a second, by the codes over their limit. -/
theorem recorderCommands : Obligations.RecorderCommands := by
  unfold Obligations.RecorderCommands
  refine ⟨fun s b hdecikRuns => exec_eq_next rfl ?_, fun s b hposted => exec_eq_next rfl ?_, ?_, ?_, ?_,
    fun s w code i d hdecikRuns => exec_eq_next rfl ?_, fun s code i d e hdecikRuns hfind => exec_eq_next rfl ?_, ?_, ?_,
    fun s hstate => exec_eq_next rfl ?_, fun s hdecikRuns => exec_eq_next rfl ?_, fun s hdecikRuns => exec_eq_next rfl ?_⟩
  · simp [hdecikRuns]
  · simp [hposted]
  · rintro s t b r rest hdecikRuns hposted rfl h
    refine exec_eq_next rfl ?_
    simp [hdecikRuns, hposted, h]
  · rintro s t b r rest w x hdecikRuns hposted rfl h hstormOf h2
    refine exec_eq_next rfl ?_
    simp [hdecikRuns, hposted, h, hstormOf, h2]
  · rintro s t b r rest w x hdecikRuns hposted rfl h hstormOf hstormLimit
    refine exec_eq_next rfl ?_
    simp [hdecikRuns, hposted, h, hstormOf, hstormLimit]
  · simp only [hdecikRuns, if_true]
    split <;> rfl
  · simp [hdecikRuns, hfind]
  · rintro s t hstate hstorm rfl
    refine exec_eq_next rfl ?_
    simp [hstate, hstorm]
    rw [← hstorm]
    rfl
  · rintro s t c n x hstate hstorm rfl
    refine exec_eq_next rfl ?_
    simp [hstate, hstorm]
  · simp [hstate]
  · simp [hdecikRuns]
  · simp [hdecikRuns]

end Sys2Proof.Proofs
end

section
/-! PROOFS. How a request that passes its checks is served (R361). -/

namespace Sys2Proof.Machine

/-- A request that passes its checks has the command's effect in the state that the check of its authorisation block leaves. -/
theorem exec_serves {c : Instr} {k : Cmd} {r : Request} {s s' t : State} {q : OpenReq} {d : List Nat}
    (hexec : exec c s = .next (s.serve k r)) (hp : s.passes k r = true) (hs : s' = s.opened k r) (hq : q = s.asked r k.opcode)
    (hd : d = r.payload) (h : k.run s' q d = t) : exec c s = .next t := by
  rw [hexec, State.serve_passes hp, ← hs, ← hq, ← hd, h]

/-- A request that passes its checks and needs no authorisation block has the command's effect in the state as it stands. -/
theorem exec_serves_open {c : Instr} {k : Cmd} {r : Request} {s t : State} {q : OpenReq} {d : List Nat}
    (hexec : exec c s = .next (s.serve k r)) (hp : s.passes k r = true) (hauth : k.auth s r.ch.val r.payload = false)
    (hq : q = s.asked r k.opcode) (hd : d = r.payload) (h : k.run s q d = t) : exec c s = .next t :=
  exec_serves hexec hp (s.opened_of_no_auth hauth).symm hq hd h

theorem OpenReq.opcode_of_asked {s : State} {r : Request} {q : OpenReq} {op : Nat} (h : q = s.asked r op) : q.opcode = op :=
  congrArg OpenReq.opcode h

/-! ## Requests held to their effective tick (R371) -/

@[simp] theorem paramStatus_true : paramStatus true = Status.ok := rfl
@[simp] theorem paramStatus_false : paramStatus false = Status.badParam := rfl

/-- A request whose tick is allowed and whose parameters stand is held to the tick. -/
theorem State.timedRun_taken {s : State} {q : OpenReq} {d : List Nat} {k : Nat} {w : When} (h : s.etick (fieldOf d k 4) = some w) :
    s.timedRun q d k Status.ok = s.takeTimed q w d := by
  simp [State.timedRun, h]

/-- One whose tick is allowed but whose parameters fail is answered with what failed. -/
theorem State.timedRun_refused {s : State} {q : OpenReq} {d : List Nat} {k st : Nat} {w : When} (h : s.etick (fieldOf d k 4) = some w)
    (hst : st ≠ Status.ok) : s.timedRun q d k st = s.reply q st [] := by
  simp [State.timedRun, h, hst]

theorem State.timedRun_of_no_tick {s : State} {q : OpenReq} {d : List Nat} {k : Nat} (h : s.etick (fieldOf d k 4) = none) (st : Nat) :
    s.timedRun q d k st = s.reply q Status.badParam [] := by
  simp [State.timedRun, h]

end Sys2Proof.Machine
end

section
/-! PROOFS. Requests of the system group (R397 to R399). -/

namespace Sys2Proof.Proofs

open Sys2Proof.Machine

/-- Settles O45: each request by its parameters and what is to change. -/
theorem systemRequests : Obligations.SystemRequests := by
  unfold Obligations.SystemRequests
  refine ⟨fun s r q d hp hq hd => exec_serves_open rfl hp rfl hq hd ?_,
    fun s r q d hp hq hd => exec_serves_open rfl hp rfl hq hd ?_,
    fun s r q d hp hq hd => exec_serves_open rfl hp rfl hq hd ?_,
    fun s r q d hp hq hd => exec_serves_open rfl hp rfl hq hd ?_,
    fun s r q d t p hp hq hd hphaseNow => exec_serves_open rfl hp rfl hq hd ?_,
    fun s r q d t p hp hq hd hphaseNow => exec_serves_open rfl hp rfl hq hd ?_,
    fun s r q d hp hq hd h => exec_serves_open rfl hp rfl hq hd ?_,
    fun s r q d hp hq hd h => exec_serves_open rfl hp rfl hq hd ?_,
    fun s₀ s r q d hp hs hq hd h h2 => exec_serves rfl hp hs hq hd ?_,
    fun s₀ s r q d hp hs hq hd h => exec_serves rfl hp hs hq hd ?_,
    fun s₀ s r q d hp hs hq hd h => exec_serves rfl hp hs hq hd ?_,
    fun s₀ s r q d hp hs hq hd h => exec_serves rfl hp hs hq hd ?_,
    fun s r q d us hp hq hd h hus => exec_serves_open rfl hp rfl hq hd ?_,
    fun s r q d id w hp hq hd hid h hetick hunitHeld hunit => exec_serves_open rfl hp rfl hq hd ?_,
    fun s r q d id w hp hq hd hid h hetick hunitHeld hunit => exec_serves_open rfl hp rfl hq hd ?_,
    fun s r q d id w hp hq hd hid h hetick hunitHeld hunit => exec_serves_open rfl hp rfl hq hd ?_⟩
  · rfl
  · rfl
  · rfl
  · rfl
  · simp [cmdGetTime, hphaseNow]
  · simp [cmdSetRtc, hphaseNow]
  · simp [cmdSetNoteLevel, h]
  · simp [cmdSetNoteLevel, h]
  · simp [cmdServiceMode, h, h2]
  · simp [cmdNodeReset, h]
  · simp [cmdNodeReset, h]
  · simp only [cmdNodeReset]
    split
    · omega
    · omega
    · rfl
  · subst hus
    simp [cmdUnitGet, h]
  · subst hid
    simp [cmdUnitEnable, State.unitCommand, h, hetick, hunitHeld, hunit, OpenReq.opcode_of_asked hq]
  · subst hid
    simp [cmdUnitDisable, State.unitCommand, h, hetick, hunitHeld, hunit, OpenReq.opcode_of_asked hq]
  · subst hid
    simp [cmdUnitDisable, State.unitCommand, h, hetick, hunitHeld, hunit]

end Sys2Proof.Proofs
end

section
/-! PROOFS. Requests of the security and test groups. -/

namespace Sys2Proof.Proofs

open Sys2Proof.Machine

/-- Settles O47: each request by the words and registers its row names; a refused one by its first failed check. -/
theorem securityAndTestRequests : Obligations.SecurityAndTestRequests := by
  unfold Obligations.SecurityAndTestRequests
  refine ⟨fun s r q d hp hq hd => exec_serves_open rfl hp rfl hq hd ?_,
    fun s r q d n t hp hq hd hnewChallenge => exec_serves_open rfl hp rfl hq hd ?_,
    fun s₀ s r q d t hp hs hq hd h h2 h3 hslot h4 hop hpdw ht => exec_serves rfl hp hs hq hd ?_,
    fun s₀ s r q d hp hs hq hd h => exec_serves rfl hp hs hq hd ?_,
    fun s r q d hp hq hd htamper h => exec_serves_open rfl hp rfl hq hd ?_,
    fun s r q d hp hq hd htamper => exec_serves_open rfl hp rfl hq hd ?_,
    fun s₀ s r q d c t hp hs hq hd htamperClear => exec_serves rfl hp hs hq hd ?_,
    fun s r q d hs hp hq hd hhs => exec_serves_open rfl hp rfl hq hd ?_,
    fun s₀ s r q d hp hs hq hd h => exec_serves rfl hp hs hq hd ?_,
    fun s₀ s r q d hp hs hq hd h => exec_serves rfl hp hs hq hd ?_,
    fun s r q d hp hq hd => exec_serves_open rfl hp rfl hq hd ?_,
    fun s r q d a n hp hq hd ha hn h h2 h3 hinHost hstoreTest => exec_serves_open rfl hp rfl hq hd ?_,
    fun s r q d hp hq hd h => exec_serves_open rfl hp rfl hq hd ?_,
    fun s r q d hp hq hd h h2 h3 => exec_serves_open rfl hp rfl hq hd ?_,
    fun s r q d hp hq hd h h2 h3 => exec_serves_open rfl hp rfl hq hd ?_,
    fun s r q d hp hq hd h => exec_serves_open rfl hp rfl hq hd ?_,
    fun s r q d n hp hq hd hn h h2 => exec_serves_open rfl hp rfl hq hd ?_,
    fun s r q d n hp hq hd hn h h2 => exec_serves_open rfl hp rfl hq hd ?_⟩
  · rfl
  · simp [cmdAuthChallenge, hnewChallenge]
  · subst ht
    simp [cmdKeyReplace, h, h2, h3, hslot, h4, hop, hpdw]
  · simp [cmdKeyReplace, h]
  · simp [cmdKeyKcv, htamper, h]
  · simp [cmdKeyKcv, htamper]
  · simp [cmdTamperClear, htamperClear]
  · subst hhs
    simp [cmdGetMeasurement]
  · simp [cmdBistRun, h]
  · simp [cmdBistRun, h]
  · rfl
  · subst ha hn
    simp [cmdStoreTest, h, h2, h3, hinHost, hstoreTest]
  · simp [cmdStoreTest, h]
  · simp [cmdLaneTest, h, h2, h3]
  · simp [cmdLaneTest, h, h2, h3]
  · simp [cmdLaneTest, h]
  · subst hn
    simp [cmdLaneTestResult, h, h2]
  · subst hn
    simp [cmdLaneTestResult, h, h2]

end Sys2Proof.Proofs
end

section
/-! PROOFS. Requests of the configuration group. -/

namespace Sys2Proof.Proofs

open Sys2Proof.Machine

/-- Settles O49: each request by the loaded image, the slots and the pending changes. -/
theorem configurationRequests : Obligations.ConfigurationRequests := by
  unfold Obligations.ConfigurationRequests
  refine ⟨fun s r q d t hp hq hd h hconfigWritable htakeFragment => exec_serves_open rfl hp rfl hq hd ?_,
    fun s r q d t u b st hp hq hd h hconfigWritable htakeFragment himageLoaded => exec_serves_open rfl hp rfl hq hd ?_,
    fun s r q d t hp hq hd h hconfigWritable htakeFragment => exec_serves_open rfl hp rfl hq hd ?_,
    fun s r q d hp hq hd h => exec_serves_open rfl hp rfl hq hd ?_,
    fun s r q d w b hp hq hd hcommitTick hloaded h himageStatus hadmits hfollowerHas hpdw hmediaBad => exec_serves_open rfl hp rfl hq hd ?_,
    fun s r q d hp hq hd hcommitTick => exec_serves_open rfl hp rfl hq hd ?_,
    fun s r q d hp hq hd hpdw => exec_serves_open rfl hp rfl hq hd ?_,
    fun s r q d hp hq hd hpdw => exec_serves_open rfl hp rfl hq hd ?_,
    fun s r q d w hp hq hd hcommitTick hpdw hstate => exec_serves_open rfl hp rfl hq hd ?_,
    fun s r q d w hp hq hd hcommitTick hpdw hstate => exec_serves_open rfl hp rfl hq hd ?_,
    fun s r q d hp hq hd => exec_serves_open rfl hp rfl hq hd ?_,
    fun s r q d k off n hp hq hd hk hoff hn h hslot h2 h3 h4 => exec_serves_open rfl hp rfl hq hd ?_,
    fun s r q d hp hq hd h => exec_serves_open rfl hp rfl hq hd ?_,
    fun s r q d t hp hq hd ht => exec_serves_open rfl hp rfl hq hd ?_⟩
  · simp [cmdCfgLoad, hconfigWritable, htakeFragment, Nat.not_lt.mpr h, OpenReq.opcode_of_asked hq]
  · simp [cmdCfgLoad, hconfigWritable, htakeFragment, himageLoaded, Nat.not_lt.mpr h, OpenReq.opcode_of_asked hq]
  · simp [cmdCfgLoad, hconfigWritable, htakeFragment, Nat.not_lt.mpr h, OpenReq.opcode_of_asked hq]
  · simp [cmdCfgLoad, h]
  · simp [cmdCfgApply, hcommitTick, hloaded, himageStatus, hadmits, hfollowerHas, hpdw, hmediaBad, Nat.not_lt.mpr h]
  · simp [cmdCfgApply, hcommitTick]
  · simp [cmdCfgConfirm, hpdw]
  · simp [cmdCfgConfirm, hpdw]
  · simp [cmdCfgRollback, hcommitTick, hpdw, hstate]
  · simp [cmdCfgRollback, hcommitTick, hpdw, hstate]
  · rfl
  · subst hk hoff hn
    simp [cmdCfgRead, hslot, Nat.not_lt.mpr h, Nat.ne_of_gt h2, Nat.not_lt.mpr h3, Nat.not_lt.mpr h4]
  · simp [cmdCfgRead, h]
  · subst ht
    simp [cmdCfgDiscard]

end Sys2Proof.Proofs
end

section
/-! PROOFS. Requests of the ring, redundancy and stack groups. -/

namespace Sys2Proof.Proofs

open Sys2Proof.Machine

/-- Settles O50: the answers list the registers; the changes go through the operation the request names. -/
theorem ringAndRedundancyRequests : Obligations.RingAndRedundancyRequests := by
  unfold Obligations.RingAndRedundancyRequests
  refine ⟨fun s r q d hp hq hd => exec_serves_open rfl hp rfl hq hd ?_,
    fun s r q d l n hp hq hd hlayout hn h h2 h3 => exec_serves_open rfl hp rfl hq hd ?_,
    fun s r q d l hp hq hd hlayout h => exec_serves_open rfl hp rfl hq hd ?_,
    fun s r q d n hp hq hd hn => exec_serves_open rfl hp rfl hq hd ?_,
    fun s₀ s r q d x t hp hs hq hd hisMaster h hrunningPartner ht => exec_serves rfl hp hs hq hd ?_,
    fun s₀ s r q d hp hs hq hd hisMaster => exec_serves rfl hp hs hq hd ?_,
    fun s₀ s r q d hp hs hq hd h => exec_serves rfl hp hs hq hd ?_,
    fun s₀ s r q d hp hs hq hd h => exec_serves rfl hp hs hq hd ?_,
    fun s₀ s r q d hp hs hq hd h h2 => exec_serves rfl hp hs hq hd ?_,
    fun s₀ s r q d hp hs hq hd h h2 => exec_serves rfl hp hs hq hd ?_,
    fun s₀ s r q d hp hs hq hd h h2 => exec_serves rfl hp hs hq hd ?_,
    fun s₀ s r q d hp hs hq hd h => exec_serves rfl hp hs hq hd ?_,
    fun s r q d hp hq hd h h2 => exec_serves_open rfl hp rfl hq hd ?_,
    fun s r q d hp hq hd h h2 => exec_serves_open rfl hp rfl hq hd ?_,
    fun s r q d hp hq hd h => exec_serves_open rfl hp rfl hq hd ?_,
    fun s r q d hp hq hd => exec_serves_open rfl hp rfl hq hd ?_,
    fun s r q d hp hq hd => exec_serves_open rfl hp rfl hq hd ?_,
    fun s r q d p l m t u hp hq hd hisMaster hhandoverTarget hlayout hm ht hu => exec_serves_open rfl hp rfl hq hd ?_,
    fun s r q d hp hq hd hisMaster => exec_serves_open rfl hp rfl hq hd ?_,
    fun s r q d hp hq hd hisMaster hhandoverTarget => exec_serves_open rfl hp rfl hq hd ?_,
    fun s r q d hp hq hd => exec_serves_open rfl hp rfl hq hd ?_,
    fun s r q d hp hq hd => exec_serves_open rfl hp rfl hq hd ?_,
    fun s₀ s r q d m hp hs hq hd hm h h2 hpresent => exec_serves rfl hp hs hq hd ?_,
    fun s₀ s r q d hp hs hq hd h => exec_serves rfl hp hs hq hd ?_⟩
  · rfl
  · subst hn
    simp [cmdRingGetLayout, hlayout, Nat.ne_of_gt h, Nat.not_lt.mpr h2, Nat.not_lt.mpr h3]
  · simp [cmdRingGetLayout, hlayout, h]
  · subst hn
    simp [cmdRingRenumber]
  · subst ht
    simp [cmdRingMerge, hisMaster, hrunningPartner, Nat.not_lt.mpr h]
  · simp [cmdRingMerge, hisMaster]
  · simp [cmdRingSetRank, Nat.not_lt.mpr h]
  · simp [cmdRingSetRank, h]
  · simp [cmdRingLinkCtrl, h2, Nat.not_lt.mpr h]
  · simp [cmdRingLinkCtrl, h2, Nat.not_lt.mpr h]
  · simp [cmdRingLinkCtrl, h2, Nat.not_lt.mpr h]
  · simp [cmdRingLinkCtrl, h]
  · simp only [between, Bool.and_eq_true, decide_eq_true_eq] at h h2
    have hqual : fieldOf d 0 2 ≠ 0 := by omega
    have hlead : fieldOf d 2 1 ≠ 0 := by omega
    simp [cmdRingSetParam, h, h2, hqual, hlead]
  · simp [cmdRingSetParam, h, h2]
  · have hqual : fieldOf d 0 2 ≠ 0 := by omega
    simp [cmdRingSetParam, h, hqual]
  · rfl
  · rfl
  · subst hm ht hu
    simp [cmdMasterHandover, hisMaster, hhandoverTarget, hlayout]
  · simp [cmdMasterHandover, hisMaster]
  · simp [cmdMasterHandover, hisMaster, hhandoverTarget]
  · rfl
  · rfl
  · subst hm
    simp [cmdStackMemberReset, Nat.ne_of_gt h, Nat.not_lt.mpr h2, hpresent]
  · simp [cmdStackMemberReset, h]

end Sys2Proof.Proofs
end

section
/-! PROOFS. Requests of the routing and zone group. -/

namespace Sys2Proof.Proofs

open Sys2Proof.Machine

/-- Settles O51: a request in range is held by `State.timedRun`; one out of range is answered BAD_PARAM. -/
theorem routingRequests : Obligations.RoutingRequests := by
  unfold Obligations.RoutingRequests
  refine ⟨fun s r q d w hp hq hd hetick hxpStatus => exec_serves_open rfl hp rfl hq hd ?_,
    fun s r q d w hp hq hd hetick hxpStatus => exec_serves_open rfl hp rfl hq hd ?_,
    fun s r q d hp hq hd hetick => exec_serves_open rfl hp rfl hq hd ?_,
    fun s r q d l hp hq hd h hl hlength => exec_serves_open rfl hp rfl hq hd ?_,
    fun s r q d w hp hq hd hetick h h2 h3 h4 h5 h6 h7 => exec_serves_open rfl hp rfl hq hd ?_,
    fun s r q d w hp hq hd hetick h => exec_serves_open rfl hp rfl hq hd ?_,
    fun s r q d w hp hq hd hetick h h2 h3 => exec_serves_open rfl hp rfl hq hd ?_,
    fun s r q d w hp hq hd hetick h => exec_serves_open rfl hp rfl hq hd ?_,
    fun s r q d w hp hq hd hetick h h2 h3 hrange => exec_serves_open rfl hp rfl hq hd ?_,
    fun s r q d w hp hq hd hetick h => exec_serves_open rfl hp rfl hq hd ?_,
    fun s r q d w hp hq hd hetick h h2 h3 h4 h5 => exec_serves_open rfl hp rfl hq hd ?_,
    fun s r q d w hp hq hd hetick h => exec_serves_open rfl hp rfl hq hd ?_,
    fun s r q d w hp hq hd hetick h h2 h3 h4 => exec_serves_open rfl hp rfl hq hd ?_,
    fun s r q d w hp hq hd hetick h => exec_serves_open rfl hp rfl hq hd ?_,
    fun s r q d w hp hq hd hetick h h2 h3 h4 hroomInstead => exec_serves_open rfl hp rfl hq hd ?_,
    fun s r q d w hp hq hd hetick h => exec_serves_open rfl hp rfl hq hd ?_,
    fun s r q d z hp hq hd hz h => exec_serves_open rfl hp rfl hq hd ?_,
    fun s r q d hp hq hd h => exec_serves_open rfl hp rfl hq hd ?_⟩
  · simp [cmdXpSet, hxpStatus, State.timedRun_taken hetick]
  · simp [cmdXpSet, hxpStatus, State.timedRun_refused hetick]
  · simp [cmdXpSet, State.timedRun_of_no_tick hetick]
  · have hone : (fieldOf d 0 2 == 65535) = false := by simp; omega
    have hall : ¬ 864 ≤ fieldOf d 0 2 := by omega
    simp only [cmdXpGet, hone, Bool.false_or, ← hl]
    simp [hall, Nat.min_eq_left hlength, b2n]
  · simp [cmdZoneSet, h, h2, h3, h4, h5, h6, h7, State.timedRun_taken hetick]
  · simp [cmdZoneSet, Nat.not_lt.mpr h, State.timedRun_refused hetick]
  · simp [cmdZoneCand, h, h2, h3, State.timedRun_taken hetick]
  · simp [cmdZoneCand, Nat.not_lt.mpr h, State.timedRun_refused hetick]
  · simp [cmdZoneEq, h, h2, h3, hrange, State.timedRun_taken hetick]
  · simp [cmdZoneEq, Nat.not_le.mpr h, State.timedRun_refused hetick]
  · simp [cmdZoneOut, h, h2, h3, h4, h5, State.timedRun_taken hetick]
  · simp [cmdZoneOut, Nat.not_le.mpr h, State.timedRun_refused hetick]
  · simp [cmdStreamSet, h, h2, h3, h4, State.timedRun_taken hetick]
  · simp [cmdStreamSet, Nat.not_le.mpr h, State.timedRun_refused hetick]
  · simp [cmdTestgenSet, h3, h4, hroomInstead, Nat.not_le.mpr h, Nat.not_lt.mpr h2, State.timedRun_taken hetick]
  · simp [cmdTestgenSet, h, State.timedRun_refused hetick]
  · subst hz
    simp [cmdZoneStatus, Nat.not_le.mpr h]
  · simp [cmdZoneStatus, h]

end Sys2Proof.Proofs
end

section
/-! PROOFS. Requests of the library and playback group. -/

namespace Sys2Proof.Machine

/-! A parameter's range. -/

theorem between_of_le {lo hi x : Nat} (h : lo ≤ x) (h2 : x ≤ hi) : between lo hi x = true := by simp [between, h, h2]

theorem not_between_of_lt {lo hi x : Nat} (h : x < lo) : between lo hi x = false := by simp [between, Nat.not_le.mpr h]

theorem not_between_of_gt {lo hi x : Nat} (h : hi < x) : between lo hi x = false := by simp [between, Nat.not_le.mpr h]

end Sys2Proof.Machine

namespace Sys2Proof.Proofs

open Sys2Proof.Machine

/-- Settles O52: a transfer by what its fragment makes of it; a clip by whether a voice still uses it; a voice by its check. -/
theorem playbackRequests : Obligations.PlaybackRequests := by
  unfold Obligations.PlaybackRequests
  refine ⟨fun s r q d t hp hq hd h htakeFragment => exec_serves_open rfl hp rfl hq hd ?_,
    fun s r q d t u b hp hq hd h htakeFragment hlibTake => exec_serves_open rfl hp rfl hq hd ?_,
    fun s r q d t u b st hp hq hd h htakeFragment hlibTake h2 => exec_serves_open rfl hp rfl hq hd ?_,
    fun s r q d t hp hq hd h htakeFragment => exec_serves_open rfl hp rfl hq hd ?_,
    fun s r q d hp hq hd h => exec_serves_open rfl hp rfl hq hd ?_,
    fun s r q d hit t hp hq hd hhit hany ht hany2 => exec_serves_open rfl hp rfl hq hd ?_,
    fun s r q d hit t hp hq hd hhit hany ht hany2 => exec_serves_open rfl hp rfl hq hd ?_,
    fun s r q d hp hq hd hany => exec_serves_open rfl hp rfl hq hd ?_,
    fun s r q d l n hp hq hd hn h h2 hl => exec_serves_open rfl hp rfl hq hd ?_,
    fun s r q d hp hq hd h => exec_serves_open rfl hp rfl hq hd ?_,
    fun s r q d x cost seq hp hq hd hplayCheck hseq => exec_serves_open rfl hp rfl hq hd ?_,
    fun s r q d x cost st hp hq hd hplayCheck h => exec_serves_open rfl hp rfl hq hd ?_,
    fun s r q d w hp hq hd hetick h h2 => exec_serves_open rfl hp rfl hq hd ?_,
    fun s r q d w hp hq hd hetick h => exec_serves_open rfl hp rfl hq hd ?_,
    fun s r q d hp hq hd => exec_serves_open rfl hp rfl hq hd ?_⟩
  · simp [cmdLibLoad, htakeFragment, Nat.not_lt.mpr h, OpenReq.opcode_of_asked hq]
  · simp [cmdLibLoad, htakeFragment, hlibTake, Nat.not_lt.mpr h, OpenReq.opcode_of_asked hq]
  · simp [cmdLibLoad, htakeFragment, hlibTake, h2, Nat.not_lt.mpr h, OpenReq.opcode_of_asked hq]
  · simp [cmdLibLoad, htakeFragment, Nat.not_lt.mpr h, OpenReq.opcode_of_asked hq]
  · simp [cmdLibLoad, h]
  · subst hhit ht
    simp only [cmdLibDelete, hany, hany2, Bool.not_true, Bool.false_eq_true, if_false]
  · subst hhit ht
    simp only [cmdLibDelete, hany, hany2, Bool.not_true, Bool.false_eq_true, if_false, if_true]
  · simp only [cmdLibDelete, hany, Bool.not_false, if_true]
  · subst hn hl
    simp [cmdLibList, between_of_le h h2, b2n, Nat.lt_sub_iff_add_lt]
  · simp [cmdLibList, not_between_of_gt h]
  · subst hseq
    simp [cmdPlayStart, hplayCheck]
  · simp [cmdPlayStart, hplayCheck, h]
  · simp [cmdPlayStop, h, h2, State.timedRun_taken hetick]
  · simp [cmdPlayStop, Nat.not_le.mpr h, State.timedRun_refused hetick]
  · rfl

end Sys2Proof.Proofs
end

section
/-! PROOFS. Requests of the intercom, echo canceller, path monitor and recorder group. -/

namespace Sys2Proof.Proofs

open Sys2Proof.Machine

/-- Settles O53: each request by the check of its parameters and resources. -/
theorem callAndRecorderRequests : Obligations.CallAndRecorderRequests := by
  unfold Obligations.CallAndRecorderRequests
  refine ⟨fun s r q d w i hp hq hd hetick hcallStatus hi => exec_serves_open rfl hp rfl hq hd ?_,
    fun s r q d w hp hq hd hetick hcallStatus => exec_serves_open rfl hp rfl hq hd ?_,
    fun s r q d hp hq hd hetick => exec_serves_open rfl hp rfl hq hd ?_,
    fun s r q d w hp hq hd hetick h => exec_serves_open rfl hp rfl hq hd ?_,
    fun s r q d w hp hq hd hetick h => exec_serves_open rfl hp rfl hq hd ?_,
    fun s r q d hp hq hd => exec_serves_open rfl hp rfl hq hd ?_,
    fun s r q d w hp hq hd hetick h h2 h3 h4 h5 hroomInstead => exec_serves_open rfl hp rfl hq hd ?_,
    fun s r q d w hp hq hd hetick h => exec_serves_open rfl hp rfl hq hd ?_,
    fun s r q d z x hp hq hd hz h hpmonMics hx hcommission => exec_serves_open rfl hp rfl hq hd ?_,
    fun s r q d hp hq hd h => exec_serves_open rfl hp rfl hq hd ?_,
    fun s₀ s r q d z hp hs hq hd hz h => exec_serves rfl hp hs hq hd ?_,
    fun s r q d e hp hq hd hstipa h h2 h3 h4 h5 h6 hroomFor he => exec_serves_open rfl hp rfl hq hd ?_,
    fun s r q d x hp hq hd hstipa => exec_serves_open rfl hp rfl hq hd ?_,
    fun s r q d us hp hq hd hus h hfilter => exec_serves_open rfl hp rfl hq hd ?_,
    fun s r q d us hp hq hd hus h h2 => exec_serves_open rfl hp rfl hq hd ?_,
    fun s₀ s r q d us hp hs hq hd hus h => exec_serves rfl hp hs hq hd ?_,
    fun s₀ s r q d hp hs hq hd hunitsOf => exec_serves rfl hp hs hq hd ?_,
    fun s r q d first n hp hq hd hfirst hn h h2 h3 => exec_serves_open rfl hp rfl hq hd ?_,
    fun s r q d hp hq hd h => exec_serves_open rfl hp rfl hq hd ?_,
    fun s₀ s r q d n hp hs hq hd hn h h2 h3 hinHost => exec_serves rfl hp hs hq hd ?_,
    fun s₀ s r q d n hp hs hq hd hn h h2 h3 hinHost => exec_serves rfl hp hs hq hd ?_⟩
  · subst hi
    simp [cmdCallOpen, hetick, hcallStatus]
  · simp [cmdCallOpen, hetick, hcallStatus]
  · simp [cmdCallOpen, hetick]
  · simp [cmdCallClose, h, State.timedRun_taken hetick]
  · simp [cmdCallClose, Nat.not_lt.mpr h, State.timedRun_refused hetick]
  · rfl
  · simp [cmdAecSet, aecTail, hroomInstead, Nat.not_le.mpr h, Nat.not_lt.mpr h2, Nat.not_lt.mpr h3, Nat.not_lt.mpr h4, Nat.not_lt.mpr h5, State.timedRun_taken hetick]
  · simp [cmdAecSet, h, State.timedRun_refused hetick]
  · subst hz hx
    simp [cmdPmonCommission, hpmonMics, hcommission, Nat.not_le.mpr h]
  · simp [cmdPmonCommission, h]
  · subst hz
    simp [cmdPmonClear, Nat.not_le.mpr h]
  · subst he
    simp [cmdStipaRun, between_of_le h4 h5, hstipa, h3, h6, hroomFor, Nat.not_le.mpr h, Nat.not_le.mpr h2]
  · simp [cmdStipaRun, hstipa]
  · subst hus
    simp [cmdRecLock, h, Nat.not_lt.mpr hfilter]
  · subst hus
    simp [cmdRecLock, h, h2]
  · subst hus
    simp [cmdRecUnlock, h]
  · simp [cmdRecUnlock, hunitsOf]
  · subst hfirst hn
    simp [cmdRecIndex, between_of_le h h2, Nat.not_le.mpr h3]
  · simp [cmdRecIndex, not_between_of_gt h]
  · subst hn
    simp [cmdRecExport, between_of_le h2 h3, Nat.not_le.mpr h, hinHost]
  · subst hn
    simp [cmdRecExport, between_of_le h2 h3, Nat.not_le.mpr h, hinHost]

end Sys2Proof.Proofs
end

section
/-! PROOFS. Requests of the Ethernet, PTP and AES67 group. -/

namespace Sys2Proof.Proofs

open Sys2Proof.Machine

/-- Settles O54: the answers list a port's registers; a change is written at once or held to its tick. -/
theorem ethernetAndStreamRequests : Obligations.EthernetAndStreamRequests := by
  unfold Obligations.EthernetAndStreamRequests
  refine ⟨fun s r q d p hp hq hd hport h => exec_serves_open rfl hp rfl hq hd ?_,
    fun s r q d hp hq hd h => exec_serves_open rfl hp rfl hq hd ?_,
    fun s r q d p hp hq hd hport h => exec_serves_open rfl hp rfl hq hd ?_,
    fun s r q d hp hq hd h => exec_serves_open rfl hp rfl hq hd ?_,
    fun s r q d t hp hq hd h h2 h3 h4 ht => exec_serves_open rfl hp rfl hq hd ?_,
    fun s r q d hp hq hd h => exec_serves_open rfl hp rfl hq hd ?_,
    fun s r q d w hp hq hd hetick h => exec_serves_open rfl hp rfl hq hd ?_,
    fun s r q d w hp hq hd hetick h => exec_serves_open rfl hp rfl hq hd ?_,
    fun s r q d t hp hq hd h h2 h3 ht => exec_serves_open rfl hp rfl hq hd ?_,
    fun s r q d hp hq hd h => exec_serves_open rfl hp rfl hq hd ?_,
    fun s r q d hp hq hd => exec_serves_open rfl hp rfl hq hd ?_,
    fun s r q d t id hp hq hd h haddStream => exec_serves_open rfl hp rfl hq hd ?_,
    fun s r q d t hp hq hd h haddStream => exec_serves_open rfl hp rfl hq hd ?_,
    fun s r q d hp hq hd h => exec_serves_open rfl hp rfl hq hd ?_,
    fun s r q d x hp hq hd hunitStream => exec_serves_open rfl hp rfl hq hd ?_,
    fun s r q d hp hq hd hunitStream => exec_serves_open rfl hp rfl hq hd ?_,
    fun s r q d f hp hq hd hf h h2 h3 => exec_serves_open rfl hp rfl hq hd ?_,
    fun s r q d f hp hq hd hf h h2 h3 h4 => exec_serves_open rfl hp rfl hq hd ?_,
    fun s r q d hp hq hd h => exec_serves_open rfl hp rfl hq hd ?_⟩
  · subst hport
    simp [cmdEthStatus, b2n, Nat.not_le.mpr h]
  · simp [cmdEthStatus, h]
  · subst hport
    simp [cmdEthCounters, Nat.not_le.mpr h]
  · simp [cmdEthCounters, h]
  · subst ht
    simp [cmdEthMdio, State.open_, Nat.not_le.mpr h, Nat.not_le.mpr h2, Nat.not_le.mpr h3, Nat.not_le.mpr h4]
  · simp [cmdEthMdio, h]
  · simp [cmdEthGateSet, hetick, h]
  · simp [cmdEthGateSet, hetick, h]
  · subst ht
    simp [cmdPtpSet, Nat.not_le.mpr h, Nat.not_le.mpr h2, Nat.not_le.mpr h3]
  · simp [cmdPtpSet, h]
  · rfl
  · simp [cmdStreamAdd, h, haddStream]
  · simp [cmdStreamAdd, h, haddStream]
  · simp [cmdStreamAdd, h]
  · simp [cmdStreamRemove, hunitStream]
  · simp [cmdStreamRemove, hunitStream]
  · subst hf
    have hbit : bit (fieldOf d 2 1) 1 = false := by simp [bit]; omega
    have h4 : ¬ 4 ≤ fieldOf d 2 1 := by omega
    simp [cmdPralineSet, hbit, h4, Nat.not_le.mpr h, Nat.not_le.mpr h3]
  · subst hf
    simp [cmdPralineSet, h4, Nat.not_le.mpr h, Nat.not_le.mpr h3]
  · simp [cmdPralineSet, h]

end Sys2Proof.Proofs
end

section
/-! PROOFS. Requests of the CAN group. -/

namespace Sys2Proof.Proofs

open Sys2Proof.Machine

/-- Settles O55: each request by its ranges and whether the schedule fits. -/
theorem canRequests : Obligations.CanRequests := by
  unfold Obligations.CanRequests
  refine ⟨fun s r q d x src t hp hq hd hfresh hsrc => exec_serves_open rfl hp rfl hq hd ?_,
    fun s r q d hp hq hd h h2 h3 hschedFits => exec_serves_open rfl hp rfl hq hd ?_,
    fun s r q d hp hq hd hschedFits => exec_serves_open rfl hp rfl hq hd ?_,
    fun s r q d w hp hq hd hetick h h2 hrange hschedFits => exec_serves_open rfl hp rfl hq hd ?_,
    fun s r q d w hp hq hd hetick h => exec_serves_open rfl hp rfl hq hd ?_,
    fun s r q d id ext hp hq hd hext hid h h2 h3 h4 h5 h6 h7 hownId => exec_serves_open rfl hp rfl hq hd ?_,
    fun s r q d hp hq hd h => exec_serves_open rfl hp rfl hq hd ?_,
    fun s r q d k n t hp hq hd hk hn h h2 h3 h4 htxpend ht => exec_serves_open rfl hp rfl hq hd ?_,
    fun s r q d k n hp hq hd hk hn h h2 h3 htxpend => exec_serves_open rfl hp rfl hq hd ?_,
    fun s r q d hp hq hd h => exec_serves_open rfl hp rfl hq hd ?_,
    fun s r q d t hp hq hd h ht => exec_serves_open rfl hp rfl hq hd ?_,
    fun s r q d hp hq hd h => exec_serves_open rfl hp rfl hq hd ?_⟩
  · subst hsrc
    simp [cmdCanStatus, hfresh]
  · simp [cmdCanSetRate, State.applyCanSetRate, h3, hschedFits, Nat.not_le.mpr h, Nat.not_le.mpr h2]
  · simp [cmdCanSetRate, hschedFits]
  · simp only [cmdCanSchedSet, hetick, between_of_le h h2, hrange, hschedFits]
    rfl
  · simp [cmdCanSchedSet, hetick, not_between_of_gt h]
  · subst hext hid
    have hid : ¬ (if bit (fieldOf d 2 1) 3 = true then 536870912 else 2048) ≤ fieldOf d 4 4 := Nat.not_le.mpr (by simpa using h6)
    have hmask : ¬ 536870912 ≤ fieldOf d 8 4 := Nat.not_le.mpr h7
    simp [cmdCanObjSet, between_of_le h h2, hownId, hid, hmask, Nat.not_le.mpr h3, Nat.not_le.mpr h4, Nat.not_le.mpr h5]
  · simp [cmdCanObjSet, not_between_of_lt h]
  · subst hk hn ht
    have hfd : ¬ (8 < fieldOf d 1 1 ∧ s.flag (CAN.OBJ_CFG.FD (fieldOf d 0 1)) = false) := by
      rintro ⟨hlong, hclassic⟩
      simp [Nat.not_le.mpr hlong, hclassic] at h4
    simp [cmdCanSend, between_of_le h h2, htxpend, Nat.not_lt.mpr h3, hfd]
  · subst hk hn
    have hlen : ¬ 64 < fieldOf d 1 1 := by omega
    simp [cmdCanSend, between_of_le h h2, htxpend, hlen, Nat.not_lt.mpr h3]
  · simp [cmdCanSend, h]
  · subst ht
    simp [cmdCanWakeSet, Nat.not_le.mpr h]
  · simp [cmdCanWakeSet, h]

end Sys2Proof.Proofs
end

section
/-! PROOFS. The checks of a request, in their order (R361). -/

namespace Sys2Proof.Machine

/-! What a request meets before its command: the header (steps 1 and 2), then the checks of `State.handle` in their order. -/

theorem State.headerStatus_of_long {s : State} {r : Request} (h : 4080 < r.len) : s.headerStatus r = some Status.badLength := by
  simp [State.headerStatus, h]

theorem State.headerStatus_of_bad_field {s : State} {r : Request} (hlen : r.len ≤ 4080)
    (h : r.tag % 65536 = 0 ∨ (∃ o ∈ s.opensOf r.ch.val, o.tag = r.tag % 65536) ∨ r.flags / 4 ≠ 0 ∨ r.rsv ≠ 0) :
    s.headerStatus r = some Status.badParam := by
  unfold State.headerStatus
  rw [if_neg (Nat.not_lt.mpr hlen), if_pos]
  simp only [Bool.or_eq_true, List.any_eq_true, decide_eq_true_eq, bne_iff_ne, beq_iff_eq]
  obtain h | h | h | h := h <;> simp [h]

/-- FLAGS is 0 or 1: a request without an envelope. -/
theorem bit_envelope_of_flags {f : Nat} (h : f = 0 ∨ f = 1) : bit f 1 = false := by
  obtain rfl | rfl := h <;> rfl

theorem State.headerStatus_of_good {s : State} {r : Request} (hlen : r.len ≤ 4080) (htag : r.tag % 65536 ≠ 0)
    (hopen : ∀ o ∈ s.opensOf r.ch.val, o.tag ≠ r.tag % 65536) (hflags : r.flags = 0 ∨ r.flags = 1) (hrsv : r.rsv = 0) :
    s.headerStatus r = none := by
  have hhigh : r.flags / 4 = 0 := by omega
  unfold State.headerStatus
  rw [if_neg (Nat.not_lt.mpr hlen), if_neg]
  simpa [htag, hhigh, hrsv, bit_envelope_of_flags hflags] using hopen

section
variable {s : State} {c : Cmd} {r : Request}

theorem State.serve_stopped (h : s.decikRuns = false) : s.serve c r = s := by
  simp [State.serve, h]

theorem State.serve_no_room (hroom : s.mayConsume r.ch.val = false) (hch : r.ch.val ≠ 3) : s.serve c r = s := by
  have hq : (s.asked r c.opcode).ch = r.ch.val := rfl
  simp [State.serve, hq, hroom, hch]

theorem State.serve_header_fails {st : Nat} (hruns : s.decikRuns = true) (hroom : s.mayConsume r.ch.val = true)
    (hst : s.headerStatus r = some st) : s.serve c r = s.reply (s.asked r c.opcode) st [] := by
  have hq : (s.asked r c.opcode).ch = r.ch.val := rfl
  simp [State.serve, hq, hruns, hroom, hst]

theorem State.serve_handles (hruns : s.decikRuns = true) (hroom : s.mayConsume r.ch.val = true)
    (hst : s.headerStatus r = none) (henv : bit r.flags 1 = false) : s.serve c r = s.handle c r (s.asked r c.opcode) := by
  have hq : (s.asked r c.opcode).ch = r.ch.val := rfl
  simp [State.serve, hq, hruns, hroom, hst, henv]

theorem State.handle_not_permitted (h : s.permits c r.ch.val r.payload = false) :
    s.handle c r (s.asked r c.opcode) = s.reply (s.asked r c.opcode) Status.notPermitted [] := by
  unfold State.handle
  exact if_pos (congrArg not h)

theorem State.handle_bad_length (h : s.permits c r.ch.val r.payload = true) (hlen : c.len r.payload = false) :
    s.handle c r (s.asked r c.opcode) = s.reply (s.asked r c.opcode) Status.badLength [] := by
  unfold State.handle
  refine (if_neg (by rw [Bool.not_eq_true]; exact congrArg not h)).trans (if_pos ?_)
  rw [Bool.or_eq_true]
  exact .inr (congrArg not hlen)

/-- An unsigned request that reaches its authorisation: the rest of `State.handle`. -/
theorem State.handle_unsigned (h : s.permits c r.ch.val r.payload = true) (hlen : c.len r.payload = true) (hflags : r.flags = 0) :
    s.handle c r (s.asked r c.opcode) =
      match (s.authorised c r (s.asked r c.opcode) r.payload).1 with
      | some st => (s.opened c r).reply (s.asked r c.opcode) st []
      | none =>
        let t := s.opened c r
        if !t.modeAccepts c.opcode || !c.accept t r.payload then t.reply (s.asked r c.opcode) Status.wrongState []
        else if c.versioned && !t.versionOk r.cfgver (c.effective t r.payload) then
          t.reply (s.asked r c.opcode) Status.versionMismatch []
        else if !rsvZero r.payload c.rsv then t.reply (s.asked r c.opcode) Status.badParam []
        else c.run t (s.asked r c.opcode) r.payload := by
  have hsigned : bit r.flags 0 = false := by rw [hflags]; rfl
  unfold State.handle
  refine (if_neg (by rw [Bool.not_eq_true]; exact congrArg not h)).trans ((if_neg ?_).trans ?_)
  · rw [Request.payload, hsigned] at hlen
    simpa [hsigned] using hlen
  · rfl

theorem State.authorised_of_tamper {q : OpenReq} {d : List Nat} (hauth : c.auth s q.ch d = true)
    (htamper : s.flag SEC.STAT.TAMPER = true) (hop : c.opcode ≠ 0x0A05) :
    s.authorised c r q d = (some Status.tamperLock, s) := by
  simp [State.authorised, hauth, htamper, hop]

theorem State.authorised_of_unsigned {q : OpenReq} {d : List Nat} (hauth : c.auth s q.ch d = true)
    (htamper : s.flag SEC.STAT.TAMPER = false) (hflags : r.flags = 0) :
    s.authorised c r q d = (some Status.authFailed, s) := by
  simp [State.authorised, hauth, htamper, hflags, bit]

theorem State.authorised_of_open {q : OpenReq} {d : List Nat} (hauth : c.auth s q.ch d = false) :
    s.authorised c r q d = (none, s) := by
  simp [State.authorised, hauth]

end

end Sys2Proof.Machine

namespace Sys2Proof.Proofs

open Sys2Proof.Machine

/-- Settles O56: each check by the header or by `State.handle`, where the checks before it have passed. -/
theorem requestChecksInOrder : Obligations.RequestChecksInOrder := by
  unfold Obligations.RequestChecksInOrder
  rintro c s r q d rfl rfl
  refine ⟨State.serve_stopped, State.serve_no_room, fun hruns hroom =>
    ⟨fun h => State.serve_header_fails hruns hroom (State.headerStatus_of_long h), fun hlen =>
      ⟨fun h => State.serve_header_fails hruns hroom (State.headerStatus_of_bad_field hlen h), fun htag hopen hflags hrsv => ?_⟩⟩⟩
  rw [State.serve_handles hruns hroom (State.headerStatus_of_good hlen htag hopen hflags hrsv) (bit_envelope_of_flags hflags)]
  refine ⟨State.handle_not_permitted, fun hperm => ⟨State.handle_bad_length hperm, fun hl hf hauth htamper hop => ?_,
    fun hl hf hauth htamper => ?_, fun hl hf hauth => ?_⟩⟩
  · rw [State.handle_unsigned hperm hl hf, State.opened, State.authorised_of_tamper hauth htamper hop]
  · rw [State.handle_unsigned hperm hl hf, State.opened, State.authorised_of_unsigned hauth htamper hf]
  · rw [State.handle_unsigned hperm hl hf, State.opened, State.authorised_of_open hauth]
    refine ⟨fun h => if_pos ?_, fun hmode hacc hver hold => ?_⟩
    · obtain h | h := h <;> simp [h]
    · simp [hmode, hacc, hver, hold]

end Sys2Proof.Proofs
end
